-- ==== Sys2Proof/Word.lean ====
section
/-! DEFINITION. The word types of the QN12K8 and the sparse table in which the state holds the many like instances
of a block (lanes, ports, engines, queue entries): a list of (key, value) pairs, keys strictly rising, no entry equal to
what an unlisted key reads as. -/

namespace Sys2Proof

/-- One byte. -/
abbrev Byte := BitVec 8

/-- A register word (R10). -/
abbrev Word := BitVec 32

/-- The 64 data bits of a native word (R36). -/
abbrev Data := BitVec 64

/-- A sparse table from instance numbers to values, in canonical form. -/
abbrev Tab (α : Type) := List (Nat × α)

end Sys2Proof
end

