-- ==== Sys2Proof/Syntax.lean ====
section
/-! DEFINITION. The commands of the QN12K8, one constructor of `Instr` for each row of spec/opcode_table.json, with the
operands that the rows' rules give them. A command is one whole step: a descriptor that the host queue engine takes, an
urgent word, a register write, or an event of the device's surroundings or timers. -/

namespace Sys2Proof

/-- Which function makes a register access in BAR0, or the manager over Jersey (R437); or an access of PF0's BAR2 or of a function's
configuration space (R367). -/
inductive Via where
  | pf0 | pf1 | mgr
  | bar2
  | cfg (pf1 : Bool)
  deriving DecidableEq, Repr

/-- The shape of a PCIe write request to BAR0 (R403): one DW with its byte enables, two DWs from a multiple of 8 with
every byte enabled, or anything else. -/
inductive Shape where
  | dw (be : BitVec 4)
  | qw
  | other
  deriving DecidableEq, Repr

/-- The alias windows of R407. -/
inductive AliasWin where
  | set | clear | toggle
  deriving DecidableEq, Repr

/-- What a read of host memory returned: the bytes, or a failure (error, timeout, poisoned data). -/
inductive HostRead where
  | failed
  | data (bytes : List Byte)
  deriving DecidableEq, Repr

/-- A descriptor as the device takes it from a command ring, or as a worker receives it from the manager (R373): the
ring it stands on, its header fields but OPCODE, and its body. A body is 56 bytes (R10). With it stands what the manager's read
of the engine package returned, for an ENGINE_PKG_LOAD that it forwards (R436). -/
structure Desc where
  ring : Fin 4
  flags : Byte := 0
  tag : BitVec 16 := 0
  seq : Word := 0
  body : List Byte
  pkg : HostRead := .failed
  deriving DecidableEq, Repr

/-- One item of a fall-through queue (R44). The default is the idle item of R47. -/
structure QItem where
  d : Data := 0
  c : Byte := 0xFF
  tag : BitVec 4 := 0
  p : Bool := false
  qp : Bool := false
  deriving DecidableEq, Repr

/-- The fall-through queues of the device that the manual names. -/
inductive QId where
  /-- ingress, egress edge queue of a line lane (R76) -/
  | laneIn (l : Fin 64) | laneEg (l : Fin 64)
  /-- ingress, egress edge queue of a Jersey link (R444) -/
  | jyIn (j : Fin 8) | jyEg (j : Fin 8)
  /-- input, output queue of an engine (R334) -/
  | twIn (g : Fin 256) | twOut (g : Fin 256)
  /-- a queue of slice logic, in a plane (R451) -/
  | slice (plane : Fin 2) (s : Fin 8) (n : Fin 256)
  /-- the forwarding queue of a merge group in a plane, with mark and rewind (R232) -/
  | emu (plane : Fin 2) (g : Fin 1024)
  deriving DecidableEq, Repr

/-- A framer: that of an OTN or SDH port (slice 0 is OTUC slice 1, or the port's only framer), or an E1's. -/
inductive FrId where
  | port (p : Fin 64) (slice : Fin 16)
  | e1 (e : Fin 8064)
  deriving DecidableEq, Repr

/-- A position that a scanner tests, and the bits of the stream there (R90–R92). -/
structure ScanAt where
  pos : Nat
  bits : List Bool
  deriving DecidableEq, Repr

/-- The six bits of the CRC-4 multiframe signal at one of the 8 phases of a multiframe, in order (R103). -/
structure MfasAt where
  bits : List Bool
  phase : Fin 8
  deriving DecidableEq, Repr

/-- A frame of the server of an ODU, with its MFAS, or with its OMFI where the server is an ODU4 (R151). -/
structure ServerFrame where
  odu : Fin 4096
  mf : Byte
  deriving DecidableEq, Repr

/-- What an AMP demapper receives: the three JC, NJO and PJO (R154). -/
structure AmpRx where
  jc : BitVec 2 × BitVec 2 × BitVec 2
  njo : Byte
  pjo : Byte
  deriving DecidableEq, Repr

/-- What an AMP mapper meets in a multiframe: the bytes in its store, and its client's offset from its nominal rate (R154, R176). -/
structure AmpFill where
  fill : Nat
  ppm : Int := 0
  deriving DecidableEq, Repr

/-- A monitored point (R112). -/
inductive MpId where
  | sm (p : Fin 64)
  | pm (o : Fin 4096)
  | tcm (o : Fin 4096) (level : Fin 6)
  | rs (p : Fin 64)
  | ms (p : Fin 64)
  | ho (v : Fin 512)
  | lo (e : Fin 8064)
  | e1 (e : Fin 8064)
  deriving DecidableEq, Repr

/-- The overhead that one frame (multiframe, sub-multiframe) of a point carries to its functions (R116–R124). -/
structure OhFrame where
  /-- mismatched parity bits (BIP-8, B1, B2, B3, BIP-2), over all slices for OTUCn: one entry a block -/
  nBip : List Nat := [0]
  /-- received BEI/BIAE nibble of each slice, REI count or bit: one entry a block of the far end -/
  bei : List Nat := [0]
  /-- received BDI, RDI or A bit -/
  bdi : Bool := false
  /-- received SM IAE -/
  iae : Bool := false
  /-- STAT of PM and TCM -/
  stat : Nat := 1
  /-- K2 bits 6–8 of MS -/
  k2 : Nat := 0
  /-- a whole TTI message completed by this frame, and whether its CRC-7 is valid (16-byte SDH) -/
  tti : Option (List Byte × Bool) := none
  /-- PT, C2 or V5 label read in this frame -/
  pt : Option Nat := none
  /-- MSI read in this frame's PSI multiframe: one byte a tributary slot -/
  msi : Option (List Nat) := none
  /-- E1: zeros counted in the 512-bit period that ends here -/
  zeros : Option Nat := none
  /-- number of the frame that the reverse point sends with this overhead, in its TTI multiframe (MFAS bits 3–8 on OTN points) -/
  txMf : Nat := 0
  /-- the bytes that each BIP of that overhead covers: one list, or one for each OTUC slice of an SM -/
  tx : List (List Byte) := []
  deriving DecidableEq, Repr

/-- A CRC-4 sub-multiframe of an E1 (R118, R119): the bits received, those that its C bits give as the remainder, and the bits
that the reverse point sends in the sub-multiframe that ends here, the C bits of both taken as 0. -/
structure E1Smf where
  bits : List Bool := []
  c : BitVec 4 := 0
  tx : List Bool := []
  deriving DecidableEq, Repr

/-- A reading of a temperature source: the on-die sensor's value in 1/256 °C, or the answer of the I2C sensor, its two bytes with
the first one first; none where it does not acknowledge or does not end within 5 ms (R321, R322). -/
inductive TempReading where
  | onDie (t : Int)
  | i2c (ans : Option (Byte × Byte))
  deriving DecidableEq, Repr

/-- The objects with a pointer interpreter and generator (R158, R160). -/
inductive PtrObj where
  | au (v : Fin 512)
  | tu (e : Fin 8064)
  deriving DecidableEq, Repr

/-- The verdict on a GFP core header's cHEC (R169). -/
inductive Chec where
  | correct | single | bad
  deriving DecidableEq, Repr

/-- What the descrambled payload area of a GFP-F frame says (R168, R170): the verdicts on tHEC and pFCS, the type header's fields,
and the payload without the pFCS. -/
structure GfpRx where
  thecOk : Bool := true
  pti : BitVec 3 := 0
  pfi : Bool := false
  pfcsOk : Bool := true
  exi : BitVec 4 := 0
  upi : Byte := 1
  payload : List Byte := []
  deriving DecidableEq, Repr

/-- The marks on the words that bring a received GFP frame: a cell with the SLIP mark (R77), and the words of eight bytes of its
payload area with P = 1 or bad parity, by number (R41, R42). -/
structure RxWords where
  slip : Bool := false
  bad : List Nat := []
  deriving DecidableEq, Repr

/-- A received SAToP packet from its control word on (R172, R173). -/
structure SatopRx where
  seq : BitVec 16
  l : Bool := false
  r : Bool := false
  /-- its E1 data, and their words of eight bytes that arrive with P = 1 or with bad parity, by number -/
  payload : List Byte
  bad : List Nat := []
  /-- RTP timestamp, where the packet carries one -/
  ts : Word := 0
  deriving DecidableEq, Repr

/-- PAYLOAD_BYTES of E1 data that a demapper gives a circuit (R171), and their words of eight bytes with P = 1, by number. -/
structure SatopTx where
  bytes : List Byte
  bad : List Nat := []
  deriving DecidableEq, Repr

/-- An Ethernet frame received from a port or a packet ODU (R249, R252). -/
structure MacRx where
  slip : Bool := false
  fcsOk : Bool := true
  /-- a block of it arrived errored (R78) -/
  errored : Bool := false
  /-- the frame's bytes, from the destination address on, without its FCS -/
  bytes : List Byte := []
  /-- its words of eight bytes that arrive with P = 1 or with bad parity (R41, R42), by number -/
  bad : List Nat := []
  deriving DecidableEq, Repr

/-- The fault sequences of the reconciliation sublayer (R251). -/
inductive FaultSeq where
  | localFault | remoteFault | ok
  deriving DecidableEq, Repr

/-- The storage memories (R37), with the instance. -/
inductive MemId where
  /-- merge-store bank, packet-buffer bank (R17) -/
  | merge (b : Fin 64) | packet (b : Fin 64)
  /-- Damask bank, 16 × plane + bank -/
  | damask (n : Fin 32)
  /-- instruction store, data store of engine g -/
  | twInstr (g : Fin 256) | twData (g : Fin 256)
  /-- configuration store of a plane controller -/
  | config (plane : Fin 2)
  /-- TSU history store; host queue engine buffers; bus matrix buffers; security processor; REGCRC state -/
  | tsuHist | hostBuf | mxBuf | secMem | regCrc
  /-- pairing store of a plane selector -/
  | psel (p : Fin 64)
  deriving DecidableEq, Repr

/-- A linear protection selector: SCHEME and number (R209). -/
structure SelId where
  scheme : Fin 4
  n : Fin 4096
  deriving DecidableEq, Repr

/-- The protocol fields that one occurrence brings to a selector (R219, R220): the four APS bytes of an ODU, the first in bits
31–24, or K1 in bits 31–24 and K2 in bits 23–16. -/
structure ApsRx where
  bytes : BitVec 32
  deriving DecidableEq, Repr

/-- A unit of a merge copy (R226, R231): its SEQ or MFAS, its bytes (a native block's 1,024, a frame's 15,296), and, in
standard mode, whether a defect lay on it and the nBIP that the BIP-8 it carries shows for the frame two frames before; or a
block of a native ODU that is no group's copy (R228). -/
structure MUnit where
  /-- the ODU of such a block; none for a unit of a copy -/
  odu : Option (Fin 4096) := none
  num : Word
  bytes : List Byte
  nBip : Nat := 0
  defect : Bool := false
  /-- its words that arrive with P = 1 or with bad parity (R41, R42), by number -/
  bad : List Nat := []
  deriving DecidableEq, Repr

/-- A word that a plane's egress stage gives to a plane selector (R240). -/
structure SelWord where
  cell : BitVec 16
  w : Fin 8
  d : Data
  c : Byte
  p : Bool := false
  deriving DecidableEq, Repr

/-- A record of a detected fault (R452), but its TIME. -/
structure FaultRec where
  source : BitVec 16
  cls : Fin 4
  checker : Fin 16
  addr : BitVec 48 := 0
  master : Byte := 0xFF
  access : Fin 8 := 0
  syndrome : Byte := 0
  inj : Bool := false
  real : Bool := false
  deriving DecidableEq, Repr

/-- A comparison of the lockstep pair of the TSU (R25): the bits in which the two copies' words differ, and, for each entry of the
history, newest first, whether both copies hold it alike. -/
structure LockCmp where
  diff : Data
  equal : List Bool := []
  deriving DecidableEq, Repr

/-- A comparison of the two copies of a register of FAULT (R457): its offset, and the bits in which the copies differ. -/
structure CopyCmp where
  offset : BitVec 16
  diff : Word
  deriving DecidableEq, Repr

/-- What the read-back of a unit that returns meets (R461): an upset of one word of its store (of an engine, the instruction or the
data store), or of the oldest item of one of the queues that it takes over. -/
structure ReadBack where
  data : Bool := false
  addr : BitVec 18 := 0
  upset : BitVec 72 := 0
  queue : Option QId := none
  flip : QItem := { c := 0 }
  deriving DecidableEq, Repr

/-- One frame time of a Jersey link (R428–R430). Received: the byte position at which a header may stand, the 10 bytes there,
descrambled, and for each connected region its first slot with its bytes 0–2, COUNT and CRC-8. Sent: for each connection the
ODU bytes that the frame takes. -/
structure JyFrame where
  pos : Nat := 0
  head : List Byte := []
  regions : List (Fin 20 × List Byte) := []
  odu : List (Fin 20 × List Byte) := []
  deriving DecidableEq, Repr

/-- A MARKER time of the two-way exchange: the frame's number and its arrival or departure in ns (R439). -/
structure FrameStamp where
  frame : BitVec 16
  at_ : Int
  deriving DecidableEq, Repr

/-- A received message of the control sub-channel with the acknowledgement that came beside it (R431). -/
structure JyRx where
  crcOk : Bool := true
  mseq : BitVec 16
  ty : Nat
  payload : List Byte := []
  ack : BitVec 16
  credit : BitVec 16
  deriving DecidableEq, Repr

/-- A worker's completion as it reaches the manager (R382, R435). -/
structure WorkerDone where
  ring : Fin 4
  tag : BitVec 16
  seq : Word
  status : Fin 6
  body : List Byte
  resKind : Nat := 0
  resPart : Nat := 0xFF
  resId : Nat := 0
  deriving DecidableEq, Repr

/-- A boot slot as the boot ROM finds it (R493–R495), or the image that the manager sent a worker: whether the read or the
transfer succeeded, and the image's bytes, header to the last signature block. -/
structure BootImage where
  readOk : Bool := true
  bytes : List Byte := []
  deriving DecidableEq, Repr

/-- The instructions of the test access port (R531). -/
inductive TapIr where
  | bypass | idcode | samplePreload | extest | clamp | highz
  deriving DecidableEq, Repr

/-- The commands. -/
inductive Instr where
  -- host descriptors (R377)
  | nop (d : Desc)
  | laneCfg (d : Desc)
  | portCfg (d : Desc)
  | defectCfg (d : Desc)
  | mapCfg (d : Desc)
  | mapCfgTakesEffect (o : ServerFrame)
  | xcWrite (d : Desc)
  | xcSwap (d : Desc)
  | mergeGroupCfg (d : Desc)
  | apsCfg (d : Desc)
  | protCommand (d : Desc)
  | queueCfg (d : Desc)
  | shaperCfg (d : Desc)
  | policerCfg (d : Desc)
  | gateCfg (d : Desc)
  | satopCfg (d : Desc)
  | tsuRefCfg (d : Desc)
  | tsuSteer (d : Desc)
  | tsuRealign (d : Desc)
  | outputAlignment
  | calRun (d : Desc)
  | calRunWindowEnd
  | calTableCommit (d : Desc)
  | statsSnap (d : Desc)
  | statsSnapDone
  | enginePkgLoad (d : Desc)
  | twPkgStaged (r : HostRead)
  | twPkgLoaded
  | planeHandover (d : Desc)
  | twHandoverDone
  | engineCfg (d : Desc)
  | engineMoveDone (slice : Fin 8) (src : Fin 16)
  | faultAction (d : Desc)
  | unfenceDone (x : ReadBack)
  | attest (d : Desc) (bulk : HostRead)
  | keyAdmin (d : Desc) (bulk : HostRead)
  | secServiceStart
  | attestDone
  | keyAdminDone (otpOk : Bool)
  -- urgent words (R395)
  | freezePort (via : Via) (dest : Fin 8) (arg : BitVec 25)
  | forceSelector (via : Via) (dest : Fin 8) (arg : BitVec 25)
  | stopService (via : Via) (dest : Fin 8) (arg : BitVec 25)
  | forcePlane (via : Via) (dest : Fin 8) (arg : BitVec 25)
  | urgentUnknownCmd (via : Via) (w : Word)
  -- warm resets (R489)
  | warmResetHostQueueEngine (via : Via)
  | warmResetTsu (via : Via)
  | warmResetCal (via : Via)
  | warmResetSecurity (via : Via)
  | warmResetStatisticsDma (via : Via)
  | warmResetCrcUnit (via : Via) (u : Fin 16)
  | warmResetLane (via : Via) (l : Fin 64)
  | warmResetDone
  -- registers
  | registerWrite (via : Via) (shape : Shape) (addr : BitVec 26) (data : BitVec 64)
  | aliasWrite (via : Via) (win : AliasWin) (addr : BitVec 24) (w : Word)
  | rsSeqClear (via : Via) (addr : BitVec 24) (w : Word)
  | ringEnable (via : Via) (r : Fin 11) (w : Word)
  | ringPiWrite (via : Via) (r : Fin 11) (w : Word)
  | ringCiWrite (via : Via) (r : Fin 11) (w : Word)
  | coalTimeExpiry (r : Fin 11)
  | descriptorFetchError (r : Fin 4)
  | workerCompletion (w : Fin 8) (c : WorkerDone)
  | data8 (m : Fin 21) (u : Fin 16) (w : Word)
  | data16 (m : Fin 21) (u : Fin 16) (w : Word)
  | data32 (m : Fin 21) (u : Fin 16) (w : Word)
  | crcLoad (m : Fin 21) (u : Fin 16) (w : Word)
  | xcTableRead (via : Via) (w : Word)
  | tableWindowRead (via : Via)
  | tableWindowWrite (via : Via)
  | cfgCommit (via : Via)
  | cfgCommitDone
  | cfgCrcRefWrite (via : Via) (w : Word)
  | cfgScrubPass
  | timeCapture (via : Via)
  | remoteRead (via : Via)
  | remoteWrite (via : Via)
  | remoteResponse (w : Word)
  | jyLinkRestart (via : Via) (j : Fin 8)
  | jyBuildWrite (via : Via) (w : Word)
  | fwRearm (via : Via) (src : BitVec 16)
  | injArm (via : Via) (src : BitVec 16) (w : Word)
  | calCfgWrite (via : Via) (w : Word)
  | xcTickCfgWrite (via : Via) (w : Word)
  -- supplies, reset, PCIe
  | porNAssert (lowNs : Nat)
  | porNRelease (role : Bool) (devid : Fin 8)
  | bootDone (a b : BootImage)
  | railUndervoltage
  | railRestored
  | pwrWarnAssert
  | pwrWarnDeassert
  | vcoreLow
  | vcoreRestored
  | recoverHoldExpiry
  | keepAtRisk (tcell : BitVec 12)
  | governorUpdate (iEst : Nat) (demand : Nat) (tcell : BitVec 12) (vcore : BitVec 10)
  | pcieLinkLoss
  | perstN
  | flr (pf1 : Bool)
  | d3hotEntry
  -- lanes and ports
  | laneCalComplete (l : Fin 64) (offsets : BitVec 32)
  | laneCalAbort (l : Fin 64)
  | laneAcquired (l : Fin 64) (ppm : Int)
  | acqRetry (l : Fin 64)
  | laneLocked (l : Fin 64)
  | laneCdrLost (l : Fin 64)
  | laneLost (l : Fin 64) (cdr : Bool)
  | portAligned (p : Fin 64) (skew : Nat)
  | skewMeasurement (p : Fin 64) (skew : Nat) (orderChanged : Bool)
  | ingressWordPush (l : Fin 64) (d : Data) (tag : BitVec 4)
  | egressWordPop (l : Fin 64)
  | fecCodeword (l : Fin 64) (correctable : Bool)
  | forkStall (l : Fin 64) (plane : Fin 2)
  -- queues
  | queuePush (q : QId) (d : Data) (tag : BitVec 4) (p : Bool)
  | queuePop (q : QId) (flip : QItem)
  | rewind (q : QId)
  | release (q : QId)
  | queueTimeout (q : QId)
  -- framers
  | scanMatch (f : FrId) (pos : ScanAt)
  | candidateCheck (f : FrId) (seen : List (Nat × List Bool))
  | fasPosition (p : Fin 64) (slice : Fin 16) (bits : List Bool) (pos : Nat)
  | slipMark (p : Fin 64) (pos : Nat)
  | mfas (p : Fin 64) (slice : Fin 16) (v : Byte)
  | flexoMfIndicator (p : Fin 64) (inst : Fin 16) (v : Byte)
  | omfi (o : Fin 4096) (v : BitVec 7)
  | h4 (v : Fin 512) (h : BitVec 2)
  | e1Fas (e : Fin 8064) (bits : List Bool) (pos : Nat)
  | e1Crc4Mfas (e : Fin 8064) (valid : MfasAt)
  | e1Submultiframe (e : Fin 8064) (x : E1Smf) (eBit : Bool)
  | e1MfRestart (e : Fin 8064)
  | e1NoCrc4 (e : Fin 8064)
  -- overhead and defects
  | overheadFrame (m : MpId) (f : OhFrame)
  | defectPersistence (m : MpId) (bit : Fin 24)
  | pmSecond (m : MpId)
  | setIntExpiry (m : MpId) (bit : Fin 24)
  | clrIntExpiry (m : MpId) (bit : Fin 24)
  | recoveryExpiry (m : MpId)
  | pmBinClose (m : MpId) (day : Bool)
  -- mapping
  | gmpMultiframe (o : Fin 4096) (cm : BitVec 16) (crc8 : Byte) (cnd : BitVec 24) (bytes : Nat)
  | ampJc (o : Fin 4096) (jc : AmpRx) (fill : AmpFill)
  | rateAlarmClear (odu : Bool) (n : Fin 8064)
  | pointerFrame (x : PtrObj) (w : BitVec 16) (others : List (BitVec 16))
  | pointerJustification (x : PtrObj) (fill : Nat)
  | c12MultiframeMap (e : Fin 8064) (bits : List Bool)
  | c12MultiframeDemap (e : Fin 8064) (v j nk : List Byte)
  | gfpCoreHeader (o : Fin 4096) (h : List Byte)
  | gfpFrame (o : Fin 4096) (area : List Byte) (w : RxWords)
  | satopPacketRx (e : Fin 8064) (k : SatopRx)
  | satopPlayout (e : Fin 8064)
  | satopPacketTx (e : Fin 8064) (k : SatopTx)
  | satopReserveApplied
  -- cross-connect and memories
  | swapTick
  | swapBoundary (table : Fin 3) (pos : Fin 8064)
  | memoryScrub (m : MemId) (addr : BitVec 18) (upset : BitVec 72)
  | storageRead (m : MemId) (addr : BitVec 18) (upset : BitVec 72)
  -- protection
  | sourceCondition (s : SelId) (isP : Bool)
  | holdoffExpiry (s : SelId) (isP : Bool)
  | selectedChange (s : SelId)
  | apsAccept (s : SelId) (rx : ApsRx)
  | fopTimer (s : SelId)
  | wtrExpiry (s : SelId)
  -- merge
  | mergeUnitArrival (g : Fin 1024) (west : Bool) (u : MUnit)
  | mergeCopySf (g : Fin 1024) (west : Bool)
  | mergePlayout (g : Fin 1024)
  | mergeResizeApplied (g : Fin 1024)
  -- plane selector
  | pselWord (p : Fin 64) (plane : Fin 2) (w : SelWord)
  | resyncComplete (carrierBad : Bool)
  -- packet path
  | macFrameRx (ingress : BitVec 16) (f : MacRx)
  | macFaultSequence (p : Fin 64) (k : FaultSeq)
  | frameStart (n : Fin 128)
  | shaperUpdate
  | gateCycleStart (n : Fin 128)
  | queueSample (q : Fin 4096)
  | queueSampleRecord (q : Fin 4096)
  -- timing
  | refMeasurement (r : Fin 70) (offset : Int) (phase : Int)
  | refActivityLost (r : Fin 70)
  | refSignalFail (r : Fin 70)
  | refSteerTimeout
  | refWtrExpiry (r : Fin 70)
  | refSelection (phaseErr : Int)
  | tsuLocked
  | tsuPhaseLoss
  | tsuLostResolve
  | tsuHoldoverExpired
  | lockstepDisagreement (x : LockCmp)
  | historySecond (mean : Int)
  | refQlChange (r : Fin 70) (ql : BitVec 4)
  -- calibration
  | calSecond
  | tempRead (res : TempReading)
  -- Twill
  | twillMessage (g : Fin 256)
  | twStall (g : Fin 256)
  | dccSecond (i : Fin 8) (north south : List Byte) (gapN gapS : Bool)
  -- fault collection
  | faultReport (rec : FaultRec) (others : List FaultRec) (fields : Bool)
  | wireFault (src : BitVec 16) (pair : Fin 3)
  | wirePairValid (src : BitVec 16) (pair : Fin 3)
  | collectorMismatch (x : CopyCmp)
  -- Jersey
  | jyFrame (j : Fin 8) (f : JyFrame)
  | jyControlMessage (j : Fin 8) (m : JyRx)
  | jyRetransmitTimeout (j : Fin 8)
  | jyAckStall (j : Fin 8)
  | jyClockLocked (j : Fin 8)
  | jyInFrame (j : Fin 8)
  | jyHello (j : Fin 8) (role : Bool) (devid : Fin 8) (booted : Bool)
  | jyHelloTimer (j : Fin 8)
  | jyBootStart
  | jyBootResult (j : Fin 8) (reason : Fin 16)
  | jyBootTimeout (j : Fin 8)
  | jyDelayExchange (j : Fin 8) (t1 : Int) (t2 t3 : FrameStamp) (t4 : Int)
  | jyTime (tick : Word) (sec : BitVec 48) (ns : Nat) (mseq : BitVec 16) (delay : Nat) (ql : BitVec 4)
  -- the rest of the table
  | unknownOpcode (op : Byte) (d : Desc)
  | pcieLinkUp (gen : Fin 8) (width : Fin 8)
  | jyCdrLost (j : Fin 8)
  | tapInstruction (ir : TapIr)
  deriving DecidableEq, Repr

end Sys2Proof
end

