-- ==== Sys2Proof/Decode.lean ====
section
/-! DEFINITION. The command that a word of the opcode table spells. No row of spec/opcode_table.json gives bits (every
row's `fields` is empty), so no word spells a command: a command's operands come to the device in a descriptor, a register
write or an event, as its row's rule says. -/

namespace Sys2Proof

/-- The command whose table bits are `w` in `nbits` bits: none, since no row of the table has bits. -/
def decodeTableWord (_nbits _w : Nat) : Option Instr := none

end Sys2Proof
end

