-- ==== Sys2Proof/Config.lean ====
section
/-! DEFINITION. What the manual leaves to the part or leaves open, as constants and functions that have no body: no proof
can see their values, so a statement holds whatever they are. Each is named in the assumption log. -/

namespace Sys2Proof.Config

/-- A free value of 64 bits, drawn with the model's counter `Dev.fresh` (log entry 2). -/
opaque freeBits : Nat → BitVec 64

/-- SHAKE256 of a message, with the number of output bytes (R493; log entry 31). -/
opaque shake256 : List Byte → Nat → List Byte

/-- SLH-DSA verification of R493: public key, message, signature (log entry 31). -/
opaque slhVerify : List Byte → List Byte → List Byte → Bool

/-- The attestation signature of R506 over the signed bytes (log entry 31). -/
opaque slhSign : List Byte → List Byte

/-- Random draw number n of the security processor, 32 bytes (R503; log entry 31). -/
opaque randomDraw : Nat → List Byte

/-- The device's unique identifier, in two register words, the lower first (R505, R508; log entry 32). -/
opaque uid : Fin 2 → Word

/-- GL_ID.GRADE, from OTP (R418; log entry 32). -/
opaque gradeTC : Bool

/-- The public key of the device's attestation identity (R498; log entry 32). -/
opaque identityKey : List Byte

/-- The hash of the root key in the boot ROM (R493; log entry 32). -/
opaque rootHash : List Byte

/-- Capacity of a queue of slice logic and of a merge group's forwarding queue, less one (R48; log entry 33). -/
opaque sliceK : Nat → Nat
opaque emuK : Nat → Nat

/-- The DCO frequency term, in ppt, that the loop of R295 and R300 reaches: draw number and phase error (log entry 34). -/
opaque loopTerm : Nat → Int → Int

/-- Words of a write that the target had accepted when the master was reset (R423; log entry 35). -/
opaque acceptedWords : Nat → Nat

/-- The slice whose configuration a word of a plane controller's configuration store holds; 8 and above: the word is
plane-wide (R29; log entry 36). -/
opaque configSlice : Nat → BitVec 4

/-- Bytes that the store of a GFP-F mapper holds (R264; log entry 108). -/
opaque gfpStore : Nat

/-- Entries of the security processor at the bus matrix beyond the first two (R422; log entry 111). -/
opaque secSpare : Nat

/-- A loop filter (R166, R174, R230; log entry 107): its kind (0 the desynchroniser, 1 adaptive, 2 differential, 3 the playout
clock of a merge group), its error, and its state; and the frequency offset in ppb that a state steers. -/
opaque loopNext : Nat → Int → BitVec 64 → BitVec 64
opaque loopPpb : BitVec 64 → Int

/-- RTP timestamp of a SAToP circuit at elapsed time 0 (R171; log entry 38). -/
opaque rtpBase : Nat → Word

end Sys2Proof.Config
end

