-- ==== Sys2Proof/Machine/RegMap.lean ====
section
/-! DEFINITION. The register maps: every register of the manual's maps with its addresses in the base window (R401), its
fields, their types (R14), reset values and accepted ranges (R548). Rows stand in the order of the chapters; a reserved
field is left out, since it reads as zero and ignores writes (R12). -/

namespace Sys2Proof.Machine

/-- Two lists in ascending order of `key` merged into one, the elements of the first before equal ones of the second. -/
def mergeOn {α : Type} (key : α → Nat) : Nat → List α → List α → List α
  | 0, xs, ys => xs ++ ys
  | _ + 1, [], ys => ys
  | _ + 1, xs, [] => xs
  | n + 1, x :: xs, y :: ys =>
    if key x ≤ key y then x :: mergeOn key n xs (y :: ys) else y :: mergeOn key n (x :: xs) ys

/-- A list of at most 2^n elements in ascending order of `key`. -/
def sortOn {α : Type} (key : α → Nat) : Nat → List α → List α
  | 0, xs => xs
  | n + 1, xs =>
    match xs with
    | [] => []
    | [x] => [x]
    | _ =>
      let h := xs.length / 2
      mergeOn key xs.length (sortOn key n (xs.take h)) (sortOn key n (xs.drop h))

/-- Field types (R14). -/
inductive FTy where
  | rw | ro | rs | wo | rwc | go
  deriving DecidableEq, Repr

/-- A field: lowest bit, width, type, reset value, and the ranges it accepts when they are narrower than its width. -/
structure RField where
  lo : Nat
  width : Nat
  ty : FTy
  reset : Nat
  lim : List (Nat × Nat)
  deriving DecidableEq, Repr

/-- The addresses of a register: a base, and (stride, count) for each instance number, widest stride first. -/
structure RWin where
  base : Nat
  strides : List (Nat × Nat)
  deriving DecidableEq, Repr

/-- A register of the maps. -/
structure RReg where
  name : String
  wins : List RWin
  fields : List RField
  deriving DecidableEq, Repr

/-- Part 1 of the register maps. -/
def regMap1 : List RReg := [
  ⟨"PLANE_STATE", [⟨0xC00000, []⟩],
    [⟨0, 2, .ro, 0, []⟩, ⟨2, 1, .ro, 0, []⟩, ⟨3, 1, .ro, 0, []⟩, ⟨4, 1, .ro, 0, []⟩, ⟨5, 1, .ro, 0, []⟩, ⟨6, 1, .ro, 0, []⟩, ⟨7, 1, .ro, 0, []⟩, ⟨8, 1, .ro, 0, []⟩, ⟨16, 2, .ro, 0, []⟩]⟩,
  ⟨"PLANE_EXPOSED_LO", [⟨0xC00008, []⟩],
    [⟨0, 32, .ro, 0, []⟩]⟩,
  ⟨"PLANE_EXPOSED_HI", [⟨0xC0000C, []⟩],
    [⟨0, 32, .ro, 0, []⟩]⟩,
  ⟨"QCFG", [⟨0x100100, [(0x400, 64)]⟩, ⟨0x100120, [(0x400, 64)]⟩, ⟨0x120140, [(0x80, 8)]⟩, ⟨0x120160, [(0x80, 8)]⟩],
    [⟨0, 13, .rwc, 0, [(0, 4096)]⟩, ⟨16, 13, .rwc, 0, [(0, 4096)]⟩, ⟨29, 1, .ro, 0, []⟩, ⟨30, 1, .ro, 1, []⟩]⟩,
  ⟨"QCFG", [⟨0x400100, [(0x800, 256)]⟩, ⟨0x400120, [(0x800, 256)]⟩],
    [⟨0, 13, .rwc, 0, [(0, 4096)]⟩, ⟨16, 13, .rwc, 0, [(0, 4096)]⟩, ⟨29, 1, .ro, 0, []⟩, ⟨30, 1, .ro, 0, []⟩]⟩,
  ⟨"QTMO", [⟨0x100104, [(0x400, 64)]⟩, ⟨0x100124, [(0x400, 64)]⟩, ⟨0x120144, [(0x80, 8)]⟩, ⟨0x120164, [(0x80, 8)]⟩, ⟨0x400104, [(0x800, 256)]⟩, ⟨0x400124, [(0x800, 256)]⟩],
    [⟨0, 16, .rwc, 0, []⟩]⟩,
  ⟨"QSTAT", [⟨0x100108, [(0x400, 64)]⟩, ⟨0x100128, [(0x400, 64)]⟩, ⟨0x120148, [(0x80, 8)]⟩, ⟨0x120168, [(0x80, 8)]⟩, ⟨0x400108, [(0x800, 256)]⟩, ⟨0x400128, [(0x800, 256)]⟩],
    [⟨0, 1, .rs, 0, []⟩, ⟨1, 1, .rs, 0, []⟩, ⟨2, 1, .rs, 0, []⟩, ⟨3, 1, .rs, 0, []⟩, ⟨4, 1, .rs, 0, []⟩, ⟨24, 8, .rs, 0, []⟩]⟩,
  ⟨"QLEVEL", [⟨0x10010C, [(0x400, 64)]⟩, ⟨0x10012C, [(0x400, 64)]⟩, ⟨0x12014C, [(0x80, 8)]⟩, ⟨0x12016C, [(0x80, 8)]⟩, ⟨0x40010C, [(0x800, 256)]⟩, ⟨0x40012C, [(0x800, 256)]⟩],
    [⟨0, 13, .ro, 0, []⟩, ⟨13, 1, .ro, 0, []⟩, ⟨14, 1, .ro, 0, []⟩, ⟨16, 13, .ro, 0, []⟩]⟩,
  ⟨"QSLIP", [⟨0x100110, [(0x400, 64)]⟩, ⟨0x100130, [(0x400, 64)]⟩, ⟨0x120150, [(0x80, 8)]⟩, ⟨0x120170, [(0x80, 8)]⟩, ⟨0x400110, [(0x800, 256)]⟩, ⟨0x400130, [(0x800, 256)]⟩],
    [⟨0, 32, .ro, 0, []⟩]⟩,
  ⟨"CRC_CTRL", [⟨0x30000, [(0x100, 16)]⟩],
    [⟨0, 2, .rwc, 0, []⟩, ⟨2, 1, .go, 0, []⟩, ⟨3, 1, .rwc, 1, []⟩, ⟨8, 5, .rwc, 0, [(0, 0), (2, 17)]⟩]⟩,
  ⟨"CRC_INIT", [⟨0x30004, [(0x100, 16)]⟩],
    [⟨0, 32, .rw, 0, []⟩]⟩,
  ⟨"DATA8", [⟨0x30008, [(0x100, 16)]⟩],
    [⟨0, 8, .wo, 0, []⟩]⟩,
  ⟨"DATA16", [⟨0x3000C, [(0x100, 16)]⟩],
    [⟨0, 16, .wo, 0, []⟩]⟩,
  ⟨"DATA32", [⟨0x30010, [(0x100, 16)]⟩],
    [⟨0, 32, .wo, 0, []⟩]⟩,
  ⟨"CRC_RESULT", [⟨0x30014, [(0x100, 16)]⟩],
    [⟨0, 32, .ro, 0, []⟩]⟩,
  ⟨"CRC_STATE", [⟨0x30018, [(0x100, 16)]⟩],
    [⟨0, 32, .ro, 0, []⟩]⟩,
  ⟨"CRC_COUNT", [⟨0x3001C, [(0x100, 16)]⟩],
    [⟨0, 32, .ro, 0, []⟩]⟩,
  ⟨"LANE_STATUS", [⟨0x100000, [(0x400, 64)]⟩],
    [⟨0, 3, .ro, 0, []⟩, ⟨3, 1, .ro, 0, []⟩, ⟨4, 1, .ro, 0, []⟩, ⟨5, 1, .ro, 0, []⟩, ⟨8, 8, .ro, 255, []⟩]⟩,
  ⟨"LANE_EVENT", [⟨0x100004, [(0x400, 64)]⟩],
    [⟨0, 1, .rs, 0, []⟩, ⟨1, 1, .rs, 0, []⟩, ⟨2, 1, .rs, 0, []⟩, ⟨3, 1, .rs, 0, []⟩, ⟨4, 1, .rs, 0, []⟩, ⟨24, 8, .rs, 0, []⟩]⟩,
  ⟨"LANE_FEC_CORR", [⟨0x100010, [(0x400, 64)]⟩],
    [⟨0, 32, .ro, 0, []⟩]⟩,
  ⟨"LANE_FEC_UNCORR", [⟨0x100014, [(0x400, 64)]⟩],
    [⟨0, 32, .ro, 0, []⟩]⟩,
  ⟨"LANE_UNDERRUN", [⟨0x100018, [(0x400, 64)]⟩],
    [⟨0, 32, .ro, 0, []⟩]⟩,
  ⟨"LANE_ACQ_RETRY", [⟨0x10001C, [(0x400, 64)]⟩],
    [⟨0, 32, .ro, 0, []⟩]⟩,
  ⟨"PORT_STATUS", [⟨0x200000, [(0x1000, 64)]⟩],
    [⟨0, 2, .ro, 0, []⟩, ⟨16, 10, .ro, 0, []⟩]⟩,
  ⟨"PORT_EVENT", [⟨0x200004, [(0x1000, 64)]⟩],
    [⟨0, 1, .rs, 0, []⟩, ⟨1, 1, .rs, 0, []⟩, ⟨2, 1, .rs, 0, []⟩, ⟨3, 1, .rs, 0, []⟩, ⟨24, 8, .rs, 0, []⟩]⟩]

/-- Part 2 of the register maps. -/
def regMap2 : List RReg := [
  ⟨"FRM_STATUS", [⟨0x200010, [(0x1000, 64)]⟩],
    [⟨0, 1, .ro, 0, []⟩, ⟨1, 1, .ro, 0, []⟩, ⟨2, 1, .ro, 0, []⟩, ⟨3, 1, .ro, 0, []⟩, ⟨4, 2, .ro, 0, []⟩, ⟨8, 8, .ro, 0, []⟩, ⟨16, 16, .ro, 0, []⟩]⟩,
  ⟨"FRM_EVENT", [⟨0x200014, [(0x1000, 64)]⟩],
    [⟨0, 1, .rs, 0, []⟩, ⟨1, 1, .rs, 0, []⟩, ⟨2, 1, .rs, 0, []⟩, ⟨3, 1, .rs, 0, []⟩, ⟨4, 1, .rs, 0, []⟩, ⟨5, 1, .rs, 0, []⟩, ⟨6, 1, .rs, 0, []⟩, ⟨7, 1, .rs, 0, []⟩, ⟨8, 1, .rs, 0, []⟩, ⟨24, 8, .rs, 0, []⟩]⟩,
  ⟨"FRM_OOF_COUNT", [⟨0x200018, [(0x1000, 64)]⟩],
    [⟨0, 32, .ro, 0, []⟩]⟩,
  ⟨"FRM_ERR_FAS", [⟨0x20001C, [(0x1000, 64)]⟩],
    [⟨0, 32, .ro, 0, []⟩]⟩,
  ⟨"FRM_SLIP_OOF", [⟨0x200020, [(0x1000, 64)]⟩],
    [⟨0, 32, .ro, 0, []⟩]⟩,
  ⟨"FRM_H4_LOCK_LO", [⟨0x200024, [(0x1000, 64)]⟩],
    [⟨0, 32, .ro, 0, []⟩]⟩,
  ⟨"FRM_H4_LOCK_HI", [⟨0x200028, [(0x1000, 64)]⟩],
    [⟨0, 32, .ro, 0, []⟩]⟩,
  ⟨"E1_STATUS", [⟨0x300000, [(0x4, 8064)]⟩],
    [⟨0, 2, .ro, 0, []⟩, ⟨2, 1, .ro, 0, []⟩, ⟨3, 2, .ro, 0, []⟩, ⟨8, 8, .ro, 0, []⟩, ⟨16, 16, .ro, 0, []⟩]⟩,
  ⟨"DEF_DET", [⟨0x200040, [(0x1000, 64)]⟩, ⟨0x200050, [(0x1000, 64)]⟩, ⟨0x308000, [(0x10, 512)]⟩, ⟨0x310000, [(0x10, 8064)]⟩, ⟨0x330000, [(0x10, 8064)]⟩, ⟨0x350000, [(0x80, 4096), (0x10, 7)]⟩],
    [⟨0, 24, .ro, 0, []⟩]⟩,
  ⟨"DEF_CUR", [⟨0x200044, [(0x1000, 64)]⟩, ⟨0x200054, [(0x1000, 64)]⟩, ⟨0x308004, [(0x10, 512)]⟩, ⟨0x310004, [(0x10, 8064)]⟩, ⟨0x330004, [(0x10, 8064)]⟩, ⟨0x350004, [(0x80, 4096), (0x10, 7)]⟩],
    [⟨0, 24, .ro, 0, []⟩, ⟨24, 1, .ro, 0, []⟩, ⟨25, 1, .ro, 0, []⟩, ⟨26, 2, .ro, 0, []⟩]⟩,
  ⟨"DEF_HIST", [⟨0x200048, [(0x1000, 64)]⟩, ⟨0x200058, [(0x1000, 64)]⟩, ⟨0x308008, [(0x10, 512)]⟩, ⟨0x310008, [(0x10, 8064)]⟩, ⟨0x330008, [(0x10, 8064)]⟩, ⟨0x350008, [(0x80, 4096), (0x10, 7)]⟩],
    [⟨0, 24, .rs, 0, []⟩, ⟨24, 8, .rs, 0, []⟩]⟩,
  ⟨"DEF_CLRHIST", [⟨0x20004C, [(0x1000, 64)]⟩, ⟨0x20005C, [(0x1000, 64)]⟩, ⟨0x30800C, [(0x10, 512)]⟩, ⟨0x31000C, [(0x10, 8064)]⟩, ⟨0x33000C, [(0x10, 8064)]⟩, ⟨0x35000C, [(0x80, 4096), (0x10, 7)]⟩],
    [⟨0, 24, .rs, 0, []⟩, ⟨24, 8, .rs, 0, []⟩]⟩,
  ⟨"ODU_MAP_STATUS", [⟨0x3D0000, [(0x8, 4096)]⟩],
    [⟨0, 14, .ro, 0, []⟩, ⟨14, 1, .ro, 0, []⟩, ⟨15, 1, .ro, 0, []⟩, ⟨16, 2, .ro, 0, []⟩, ⟨24, 8, .ro, 0, []⟩]⟩,
  ⟨"ODU_GFP_DISCARD", [⟨0x3D0004, [(0x8, 4096)]⟩],
    [⟨0, 32, .ro, 0, []⟩]⟩,
  ⟨"PTR_STATUS", [⟨0x3D8000, [(0x4, 512)]⟩, ⟨0x3E0000, [(0x4, 8064)]⟩],
    [⟨0, 2, .ro, 0, []⟩, ⟨3, 1, .ro, 0, []⟩, ⟨8, 8, .ro, 0, []⟩, ⟨16, 8, .ro, 0, []⟩, ⟨24, 8, .ro, 0, []⟩]⟩,
  ⟨"SATOP_STATUS", [⟨0x9E0000, [(0x10, 8064)]⟩],
    [⟨0, 2, .ro, 0, []⟩, ⟨2, 1, .ro, 0, []⟩, ⟨3, 1, .ro, 0, []⟩, ⟨16, 14, .ro, 0, []⟩]⟩,
  ⟨"SATOP_LOSS", [⟨0x9E0004, [(0x10, 8064)]⟩],
    [⟨0, 16, .ro, 0, []⟩, ⟨16, 16, .ro, 0, []⟩]⟩,
  ⟨"SATOP_BUFFER", [⟨0x9E0008, [(0x10, 8064)]⟩],
    [⟨0, 16, .ro, 0, []⟩, ⟨16, 16, .ro, 0, []⟩]⟩,
  ⟨"SATOP_BAD", [⟨0x9E000C, [(0x10, 8064)]⟩],
    [⟨0, 16, .ro, 0, []⟩, ⟨16, 16, .ro, 0, []⟩]⟩,
  ⟨"XC_STATUS", [⟨0xA00000, []⟩],
    [⟨0, 1, .ro, 0, []⟩, ⟨1, 1, .ro, 0, []⟩, ⟨2, 1, .ro, 0, []⟩, ⟨3, 1, .ro, 0, []⟩, ⟨4, 1, .ro, 0, []⟩, ⟨5, 1, .ro, 0, []⟩]⟩,
  ⟨"XC_EVENT", [⟨0xA00004, []⟩],
    [⟨0, 1, .rs, 0, []⟩, ⟨1, 1, .rs, 0, []⟩, ⟨2, 1, .rs, 0, []⟩, ⟨24, 8, .rs, 0, []⟩]⟩,
  ⟨"XC_TICK_CFG", [⟨0xA00008, []⟩],
    [⟨0, 10, .rwc, 0, [(0, 999)]⟩, ⟨31, 1, .rwc, 0, []⟩]⟩,
  ⟨"XC_TICK_COUNT", [⟨0xA0000C, []⟩],
    [⟨0, 32, .ro, 0, []⟩]⟩,
  ⟨"XC_H_AT_TICK", [⟨0xA00010, []⟩],
    [⟨0, 32, .ro, 0, []⟩]⟩,
  ⟨"XC_L_AT_TICK", [⟨0xA00014, []⟩],
    [⟨0, 32, .ro, 0, []⟩]⟩]

/-- Part 3 of the register maps. -/
def regMap3 : List RReg := [
  ⟨"XC_H_USED", [⟨0xA00018, []⟩],
    [⟨0, 12, .ro, 0, []⟩, ⟨16, 12, .ro, 0, []⟩]⟩,
  ⟨"XC_V_USED", [⟨0xA0001C, []⟩],
    [⟨0, 10, .ro, 0, []⟩, ⟨16, 10, .ro, 0, []⟩]⟩,
  ⟨"XC_L_USED", [⟨0xA00020, []⟩],
    [⟨0, 13, .ro, 0, []⟩, ⟨16, 13, .ro, 0, []⟩]⟩,
  ⟨"XC_TBL_SEL", [⟨0xA00100, []⟩],
    [⟨0, 13, .rw, 0, []⟩, ⟨13, 2, .rw, 0, []⟩, ⟨15, 1, .rw, 0, []⟩, ⟨16, 1, .go, 0, []⟩]⟩,
  ⟨"XC_TBL_LO", [⟨0xA00104, []⟩],
    [⟨0, 32, .ro, 0, []⟩]⟩,
  ⟨"XC_TBL_HI", [⟨0xA00108, []⟩],
    [⟨0, 32, .ro, 0, []⟩]⟩,
  ⟨"XC_TBL_CHK", [⟨0xA0010C, []⟩],
    [⟨0, 8, .ro, 0, []⟩, ⟨8, 1, .ro, 0, []⟩]⟩,
  ⟨"MERGE_STORE", [⟨0x800000, []⟩],
    [⟨0, 11, .ro, 0, []⟩, ⟨16, 11, .ro, 0, []⟩]⟩,
  ⟨"MERGE_PENDING", [⟨0x800004, []⟩],
    [⟨0, 11, .ro, 0, []⟩]⟩,
  ⟨"MG_STATUS", [⟨0x810000, [(0x20, 1024)]⟩],
    [⟨0, 2, .ro, 0, []⟩, ⟨2, 2, .ro, 0, []⟩, ⟨4, 1, .ro, 0, []⟩, ⟨5, 1, .ro, 0, []⟩, ⟨6, 1, .ro, 0, []⟩, ⟨7, 1, .ro, 0, []⟩, ⟨8, 11, .ro, 0, []⟩]⟩,
  ⟨"MG_EVENT", [⟨0x810004, [(0x20, 1024)]⟩],
    [⟨0, 1, .rs, 0, []⟩, ⟨1, 1, .rs, 0, []⟩, ⟨2, 1, .rs, 0, []⟩, ⟨3, 1, .rs, 0, []⟩, ⟨4, 1, .rs, 0, []⟩, ⟨5, 1, .rs, 0, []⟩, ⟨6, 1, .rs, 0, []⟩, ⟨7, 1, .rs, 0, []⟩, ⟨24, 8, .rs, 0, []⟩]⟩,
  ⟨"MG_SKEW", [⟨0x810008, [(0x20, 1024)]⟩],
    [⟨0, 14, .ro, 0, []⟩, ⟨14, 1, .ro, 0, []⟩]⟩,
  ⟨"MG_FWD_OTHER", [⟨0x81000C, [(0x20, 1024)]⟩],
    [⟨0, 32, .ro, 0, []⟩]⟩,
  ⟨"MG_REJECT", [⟨0x810010, [(0x20, 1024)]⟩],
    [⟨0, 16, .ro, 0, []⟩, ⟨16, 16, .ro, 0, []⟩]⟩,
  ⟨"MG_DOUBLE_BAD", [⟨0x810014, [(0x20, 1024)]⟩],
    [⟨0, 32, .ro, 0, []⟩]⟩,
  ⟨"MG_MISC", [⟨0x810018, [(0x20, 1024)]⟩],
    [⟨0, 16, .ro, 0, []⟩, ⟨16, 16, .ro, 0, []⟩]⟩,
  ⟨"MG_DIVERGE", [⟨0x81001C, [(0x20, 1024)]⟩],
    [⟨0, 32, .ro, 0, []⟩]⟩,
  ⟨"SEL_STATUS", [⟨0x840000, [(0x10, 1024)]⟩, ⟨0x844000, [(0x10, 256)]⟩, ⟨0x848000, [(0x10, 4032)]⟩, ⟨0x858000, [(0x10, 32)]⟩],
    [⟨0, 1, .ro, 0, []⟩, ⟨1, 4, .ro, 0, []⟩, ⟨5, 4, .ro, 0, []⟩, ⟨9, 1, .ro, 0, []⟩, ⟨10, 1, .ro, 0, []⟩, ⟨11, 1, .ro, 0, []⟩, ⟨12, 1, .ro, 0, []⟩, ⟨13, 1, .ro, 0, []⟩, ⟨14, 1, .ro, 0, []⟩, ⟨15, 1, .ro, 0, []⟩, ⟨16, 1, .ro, 0, []⟩, ⟨17, 1, .ro, 0, []⟩, ⟨18, 3, .ro, 0, []⟩]⟩,
  ⟨"SEL_EVENT", [⟨0x840004, [(0x10, 1024)]⟩, ⟨0x844004, [(0x10, 256)]⟩, ⟨0x848004, [(0x10, 4032)]⟩, ⟨0x858004, [(0x10, 32)]⟩],
    [⟨0, 1, .rs, 0, []⟩, ⟨1, 1, .rs, 0, []⟩, ⟨2, 1, .rs, 0, []⟩, ⟨24, 8, .rs, 0, []⟩]⟩,
  ⟨"SEL_SWITCHES", [⟨0x840008, [(0x10, 1024)]⟩, ⟨0x844008, [(0x10, 256)]⟩, ⟨0x848008, [(0x10, 4032)]⟩, ⟨0x858008, [(0x10, 32)]⟩],
    [⟨0, 32, .ro, 0, []⟩]⟩,
  ⟨"SEL_WTR_LEFT", [⟨0x84000C, [(0x10, 1024)]⟩, ⟨0x84400C, [(0x10, 256)]⟩, ⟨0x84800C, [(0x10, 4032)]⟩, ⟨0x85800C, [(0x10, 32)]⟩],
    [⟨0, 10, .ro, 0, []⟩]⟩,
  ⟨"PSEL_EVENT", [⟨0xC00100, [(0x10, 64)]⟩],
    [⟨0, 1, .rs, 0, []⟩, ⟨1, 1, .rs, 0, []⟩, ⟨2, 1, .rs, 0, []⟩, ⟨3, 1, .rs, 0, []⟩, ⟨24, 8, .rs, 0, []⟩]⟩,
  ⟨"PSEL_POISONED", [⟨0xC00104, [(0x10, 64)]⟩],
    [⟨0, 32, .ro, 0, []⟩]⟩,
  ⟨"PSEL_DIVERGE", [⟨0xC00108, [(0x10, 64)]⟩],
    [⟨0, 32, .ro, 0, []⟩]⟩,
  ⟨"PSEL_UNPAIRED", [⟨0xC0010C, [(0x10, 64)]⟩],
    [⟨0, 32, .ro, 0, []⟩]⟩]

/-- Part 4 of the register maps. -/
def regMap4 : List RReg := [
  ⟨"PSEL_FILL", [⟨0xC00500, [(0x4, 64)]⟩],
    [⟨0, 7, .ro, 0, []⟩, ⟨7, 1, .ro, 0, []⟩]⟩,
  ⟨"PKT_POOL", [⟨0x900000, []⟩],
    [⟨0, 20, .ro, 0, []⟩]⟩,
  ⟨"PKT_EVENT", [⟨0x900004, []⟩],
    [⟨0, 1, .rs, 0, []⟩, ⟨1, 1, .rs, 0, []⟩, ⟨24, 8, .rs, 0, []⟩]⟩,
  ⟨"PKT_MISS", [⟨0x900008, []⟩],
    [⟨0, 32, .ro, 0, []⟩]⟩,
  ⟨"Q_DEPTH", [⟨0x910000, [(0x20, 4096)]⟩],
    [⟨0, 20, .ro, 0, []⟩]⟩,
  ⟨"Q_CELLS", [⟨0x910004, [(0x20, 4096)]⟩],
    [⟨0, 20, .ro, 0, []⟩]⟩,
  ⟨"Q_CREDIT", [⟨0x910008, [(0x20, 4096)]⟩],
    [⟨0, 32, .ro, 0, []⟩]⟩,
  ⟨"Q_EVENT", [⟨0x91000C, [(0x20, 4096)]⟩],
    [⟨0, 1, .rs, 0, []⟩, ⟨1, 1, .rs, 0, []⟩, ⟨24, 8, .rs, 0, []⟩]⟩,
  ⟨"Q_DROP", [⟨0x910010, [(0x20, 4096)]⟩],
    [⟨0, 16, .ro, 0, []⟩, ⟨16, 16, .ro, 0, []⟩]⟩,
  ⟨"SCH_CREDIT", [⟨0x930000, [(0x10, 512)]⟩, ⟨0x934000, [(0x10, 128)]⟩],
    [⟨0, 32, .ro, 0, []⟩]⟩,
  ⟨"SCH_COUNT", [⟨0x930004, [(0x10, 512)]⟩, ⟨0x934004, [(0x10, 128)]⟩],
    [⟨0, 32, .ro, 0, []⟩]⟩,
  ⟨"POL_PASS", [⟨0x940000, [(0x10, 4096)]⟩],
    [⟨0, 32, .ro, 0, []⟩]⟩,
  ⟨"POL_DROP", [⟨0x940004, [(0x10, 4096)]⟩],
    [⟨0, 32, .ro, 0, []⟩]⟩,
  ⟨"MAC_RX_OK", [⟨0x200200, [(0x1000, 64)]⟩],
    [⟨0, 32, .ro, 0, []⟩]⟩,
  ⟨"MAC_RX_BAD", [⟨0x200204, [(0x1000, 64)]⟩],
    [⟨0, 16, .ro, 0, []⟩, ⟨16, 16, .ro, 0, []⟩]⟩,
  ⟨"MAC_RX_DROP", [⟨0x200208, [(0x1000, 64)]⟩],
    [⟨0, 16, .ro, 0, []⟩, ⟨16, 16, .ro, 0, []⟩]⟩,
  ⟨"MAC_TX_OK", [⟨0x20020C, [(0x1000, 64)]⟩],
    [⟨0, 32, .ro, 0, []⟩]⟩,
  ⟨"MAC_EVENT", [⟨0x200210, [(0x1000, 64)]⟩],
    [⟨0, 1, .rs, 0, []⟩, ⟨1, 1, .rs, 0, []⟩, ⟨24, 8, .rs, 0, []⟩]⟩,
  ⟨"TSU_STATE", [⟨0x50000, []⟩],
    [⟨0, 3, .ro, 0, []⟩, ⟨3, 1, .ro, 0, []⟩, ⟨4, 2, .ro, 0, []⟩, ⟨6, 1, .ro, 0, []⟩, ⟨8, 7, .ro, 127, []⟩, ⟨16, 4, .ro, 15, []⟩, ⟨20, 4, .ro, 11, []⟩]⟩,
  ⟨"TSU_HIST", [⟨0x50004, []⟩],
    [⟨0, 1, .rs, 0, []⟩, ⟨1, 1, .rs, 0, []⟩, ⟨2, 1, .rs, 0, []⟩, ⟨3, 1, .rs, 0, []⟩, ⟨4, 1, .rs, 0, []⟩, ⟨5, 1, .rs, 0, []⟩, ⟨6, 1, .rs, 0, []⟩, ⟨7, 1, .rs, 0, []⟩, ⟨8, 1, .rs, 0, []⟩, ⟨9, 1, .rs, 0, []⟩, ⟨10, 1, .rs, 0, []⟩, ⟨24, 8, .rs, 0, []⟩]⟩,
  ⟨"TSU_DCO", [⟨0x50008, []⟩],
    [⟨0, 32, .ro, 0, []⟩]⟩,
  ⟨"TSU_HOLD", [⟨0x5000C, []⟩],
    [⟨0, 9, .ro, 0, []⟩, ⟨11, 21, .ro, 0, []⟩]⟩,
  ⟨"TIME_CTRL", [⟨0x50010, []⟩],
    [⟨0, 1, .go, 0, []⟩]⟩,
  ⟨"TIME_SEC_LO", [⟨0x50014, []⟩],
    [⟨0, 32, .ro, 0, []⟩]⟩,
  ⟨"TIME_SEC_HI", [⟨0x50018, []⟩],
    [⟨0, 16, .ro, 0, []⟩]⟩]

/-- Part 5 of the register maps. -/
def regMap5 : List RReg := [
  ⟨"TIME_NS", [⟨0x5001C, []⟩],
    [⟨0, 30, .ro, 0, []⟩]⟩,
  ⟨"TSU_PHASE", [⟨0x50020, []⟩],
    [⟨0, 32, .ro, 0, []⟩]⟩,
  ⟨"FPO_PHASE", [⟨0x50024, []⟩],
    [⟨0, 32, .ro, 0, []⟩]⟩,
  ⟨"REF_STATUS", [⟨0x50100, [(0x10, 70)]⟩],
    [⟨0, 2, .ro, 0, []⟩, ⟨2, 1, .ro, 0, []⟩, ⟨3, 1, .ro, 0, []⟩, ⟨4, 1, .ro, 0, []⟩, ⟨5, 1, .ro, 0, []⟩, ⟨8, 4, .ro, 15, []⟩, ⟨12, 3, .ro, 0, []⟩, ⟨16, 11, .ro, 0, []⟩]⟩,
  ⟨"REF_EVENT", [⟨0x50104, [(0x10, 70)]⟩],
    [⟨0, 1, .rs, 0, []⟩, ⟨1, 1, .rs, 0, []⟩, ⟨2, 1, .rs, 0, []⟩, ⟨3, 1, .rs, 0, []⟩, ⟨4, 1, .rs, 0, []⟩, ⟨24, 8, .rs, 0, []⟩]⟩,
  ⟨"REF_OFFSET", [⟨0x50108, [(0x10, 70)]⟩],
    [⟨0, 32, .ro, 0, []⟩]⟩,
  ⟨"REF_DRIFT", [⟨0x5010C, [(0x10, 70)]⟩],
    [⟨0, 32, .ro, 0, []⟩]⟩,
  ⟨"CAL_CFG", [⟨0x60000, []⟩],
    [⟨0, 1, .rwc, 0, []⟩, ⟨1, 7, .rwc, 0, []⟩, ⟨8, 8, .rwc, 0, []⟩]⟩,
  ⟨"CAL_STATUS", [⟨0x60004, []⟩],
    [⟨0, 16, .ro, 0, []⟩, ⟨16, 1, .ro, 0, []⟩, ⟨17, 1, .ro, 0, []⟩, ⟨18, 1, .ro, 0, []⟩, ⟨19, 2, .ro, 0, []⟩, ⟨21, 3, .ro, 0, []⟩, ⟨24, 2, .ro, 0, []⟩]⟩,
  ⟨"CAL_CORR", [⟨0x60008, []⟩],
    [⟨0, 32, .ro, 0, []⟩]⟩,
  ⟨"CAL_EVENT", [⟨0x6000C, []⟩],
    [⟨0, 1, .rs, 0, []⟩, ⟨1, 1, .rs, 0, []⟩, ⟨2, 1, .rs, 0, []⟩, ⟨24, 8, .rs, 0, []⟩]⟩,
  ⟨"CAL_RUN_LEFT", [⟨0x60010, []⟩],
    [⟨0, 14, .ro, 0, []⟩]⟩,
  ⟨"CAL_SET_INFO", [⟨0x60080, [(0x4, 4)]⟩],
    [⟨0, 4, .ro, 0, []⟩]⟩,
  ⟨"CAL_POINT_T", [⟨0x60100, [(0x40, 4), (0x8, 8)]⟩],
    [⟨0, 16, .ro, 0, []⟩]⟩,
  ⟨"CAL_POINT_V", [⟨0x60104, [(0x40, 4), (0x8, 8)]⟩],
    [⟨0, 32, .ro, 0, []⟩]⟩,
  ⟨"LANE_CAL", [⟨0x100020, [(0x400, 64)]⟩],
    [⟨0, 1, .ro, 0, []⟩]⟩,
  ⟨"TW_STATUS", [⟨0x400000, [(0x800, 256)]⟩],
    [⟨0, 2, .ro, 0, []⟩, ⟨2, 1, .ro, 0, []⟩, ⟨8, 10, .ro, 0, []⟩]⟩,
  ⟨"TW_EVENT", [⟨0x400004, [(0x800, 256)]⟩],
    [⟨0, 1, .rs, 0, []⟩, ⟨1, 1, .rs, 0, []⟩, ⟨2, 1, .rs, 0, []⟩, ⟨3, 1, .rs, 0, []⟩, ⟨24, 8, .rs, 0, []⟩]⟩,
  ⟨"TW_LOAD", [⟨0x400008, [(0x800, 256)]⟩],
    [⟨0, 11, .ro, 0, []⟩, ⟨16, 15, .ro, 0, []⟩]⟩,
  ⟨"TW_MSG_DROP", [⟨0x40000C, [(0x800, 256)]⟩],
    [⟨0, 32, .ro, 0, []⟩]⟩,
  ⟨"TW_CORR", [⟨0x400010, [(0x800, 256)]⟩],
    [⟨0, 32, .ro, 0, []⟩]⟩,
  ⟨"TW_PKG_ID", [⟨0x480000, [(0x10, 3)]⟩],
    [⟨0, 32, .ro, 0, []⟩]⟩,
  ⟨"TW_PKG_VER", [⟨0x480004, [(0x10, 3)]⟩],
    [⟨0, 32, .ro, 0, []⟩]⟩,
  ⟨"TW_PKG_INFO", [⟨0x480008, [(0x10, 3)]⟩],
    [⟨0, 8, .ro, 0, []⟩, ⟨8, 1, .ro, 0, []⟩, ⟨9, 1, .ro, 0, []⟩]⟩,
  ⟨"TW_BUDGET", [⟨0x480100, [(0x8, 8)]⟩],
    [⟨0, 14, .ro, 16000, []⟩]⟩]

/-- Part 6 of the register maps. -/
def regMap6 : List RReg := [
  ⟨"TW_SLICE_USED", [⟨0x480104, [(0x8, 8)]⟩],
    [⟨0, 14, .ro, 0, []⟩, ⟨16, 13, .ro, 0, []⟩]⟩,
  ⟨"HQ_CTRL", [⟨0x10000, []⟩],
    [⟨0, 1, .rw, 0, []⟩]⟩,
  ⟨"HQ_LINK", [⟨0x10004, []⟩],
    [⟨0, 1, .ro, 0, []⟩, ⟨1, 3, .ro, 0, []⟩, ⟨4, 3, .ro, 0, []⟩]⟩,
  ⟨"HQ_EVENT", [⟨0x10008, []⟩],
    [⟨0, 1, .rs, 0, []⟩, ⟨1, 1, .rs, 0, []⟩, ⟨2, 1, .rs, 0, []⟩, ⟨3, 1, .rs, 0, []⟩, ⟨4, 1, .rs, 0, []⟩, ⟨24, 8, .rs, 0, []⟩]⟩,
  ⟨"URGENT_DB", [⟨0x10040, []⟩],
    [⟨0, 32, .wo, 0, []⟩]⟩,
  ⟨"URGENT_STATUS", [⟨0x10044, []⟩],
    [⟨0, 5, .ro, 0, []⟩, ⟨5, 3, .ro, 0, []⟩, ⟨8, 24, .ro, 0, []⟩]⟩,
  ⟨"URGENT_DROP", [⟨0x10048, []⟩],
    [⟨0, 32, .ro, 0, []⟩]⟩,
  ⟨"RING_BASE_LO", [⟨0x10100, [(0x40, 11)]⟩],
    [⟨12, 20, .rw, 0, []⟩]⟩,
  ⟨"RING_BASE_HI", [⟨0x10104, [(0x40, 11)]⟩],
    [⟨0, 32, .rw, 0, []⟩]⟩,
  ⟨"RING_CTRL", [⟨0x10108, [(0x40, 4)]⟩],
    [⟨0, 1, .rw, 0, []⟩, ⟨4, 5, .rw, 6, [(6, 16)]⟩, ⟨16, 5, .rw, 0, []⟩, ⟨24, 8, .rw, 1, []⟩]⟩,
  ⟨"RING_CTRL", [⟨0x10208, []⟩],
    [⟨0, 1, .rw, 0, []⟩, ⟨4, 5, .rw, 6, [(6, 16)]⟩, ⟨16, 5, .rw, 2, []⟩, ⟨24, 8, .rw, 1, []⟩]⟩,
  ⟨"RING_CTRL", [⟨0x10248, []⟩],
    [⟨0, 1, .rw, 0, []⟩, ⟨4, 5, .rw, 6, [(6, 16)]⟩, ⟨16, 5, .rw, 3, []⟩, ⟨24, 8, .rw, 1, []⟩]⟩,
  ⟨"RING_CTRL", [⟨0x10288, []⟩],
    [⟨0, 1, .rw, 0, []⟩, ⟨4, 5, .rw, 6, [(6, 16)]⟩, ⟨16, 5, .rw, 4, []⟩, ⟨24, 8, .rw, 1, []⟩]⟩,
  ⟨"RING_CTRL", [⟨0x102C8, []⟩],
    [⟨0, 1, .rw, 0, []⟩, ⟨4, 5, .rw, 6, [(6, 16)]⟩, ⟨16, 5, .rw, 5, []⟩, ⟨24, 8, .rw, 1, []⟩]⟩,
  ⟨"RING_CTRL", [⟨0x10308, []⟩],
    [⟨0, 1, .rw, 0, []⟩, ⟨4, 5, .rw, 6, [(6, 16)]⟩, ⟨16, 5, .rw, 0, []⟩, ⟨24, 8, .rw, 1, []⟩]⟩,
  ⟨"RING_CTRL", [⟨0x10348, []⟩],
    [⟨0, 1, .rw, 0, []⟩, ⟨4, 5, .rw, 6, [(6, 16)]⟩, ⟨16, 5, .rw, 1, []⟩, ⟨24, 8, .rw, 1, []⟩]⟩,
  ⟨"RING_CTRL", [⟨0x10388, []⟩],
    [⟨0, 1, .rw, 0, []⟩, ⟨4, 5, .rw, 6, [(6, 16)]⟩, ⟨16, 5, .rw, 6, []⟩, ⟨24, 8, .rw, 1, []⟩]⟩,
  ⟨"RING_COAL", [⟨0x1010C, [(0x40, 11)]⟩],
    [⟨0, 16, .rw, 0, []⟩]⟩,
  ⟨"RING_PI", [⟨0x10110, [(0x40, 11)]⟩],
    [⟨0, 16, .rw, 0, []⟩]⟩,
  ⟨"RING_CI", [⟨0x10114, [(0x40, 11)]⟩],
    [⟨0, 16, .rw, 0, []⟩]⟩,
  ⟨"RING_SEQ", [⟨0x10118, [(0x40, 11)]⟩],
    [⟨0, 32, .rw, 0, []⟩]⟩,
  ⟨"RING_LOST", [⟨0x1011C, [(0x40, 11)]⟩],
    [⟨0, 32, .ro, 0, []⟩]⟩,
  ⟨"RING_STATUS", [⟨0x10120, [(0x40, 11)]⟩],
    [⟨0, 1, .ro, 0, []⟩, ⟨1, 1, .ro, 0, []⟩, ⟨2, 16, .ro, 0, []⟩]⟩,
  ⟨"CFG_CTRL", [⟨0x20000, []⟩],
    [⟨0, 1, .go, 0, []⟩]⟩,
  ⟨"CFG_CRC_REF", [⟨0x20004, []⟩],
    [⟨0, 32, .rw, 0, []⟩]⟩]

/-- Part 7 of the register maps. -/
def regMap7 : List RReg := [
  ⟨"CFG_CRC_LAST", [⟨0x20008, []⟩],
    [⟨0, 32, .ro, 0, []⟩]⟩,
  ⟨"CFG_STATUS", [⟨0x2000C, []⟩],
    [⟨0, 18, .ro, 0, []⟩, ⟨24, 1, .ro, 0, []⟩, ⟨25, 1, .ro, 0, []⟩, ⟨26, 1, .ro, 0, []⟩, ⟨27, 1, .ro, 0, []⟩]⟩,
  ⟨"CFG_EVENT", [⟨0x20010, []⟩],
    [⟨0, 1, .rs, 0, []⟩, ⟨1, 1, .rs, 0, []⟩, ⟨2, 1, .rs, 0, []⟩, ⟨24, 8, .rs, 0, []⟩]⟩,
  ⟨"TBL_SEL", [⟨0x100, []⟩],
    [⟨0, 18, .rw, 0, []⟩, ⟨20, 6, .rw, 0, []⟩, ⟨28, 2, .rw, 0, []⟩]⟩,
  ⟨"TBL_LO", [⟨0x104, []⟩],
    [⟨0, 32, .rw, 0, []⟩]⟩,
  ⟨"TBL_HI", [⟨0x108, []⟩],
    [⟨0, 32, .rw, 0, []⟩]⟩,
  ⟨"TBL_CHK", [⟨0x10C, []⟩],
    [⟨0, 8, .ro, 0, []⟩, ⟨8, 1, .ro, 0, []⟩]⟩,
  ⟨"TBL_CTRL", [⟨0x110, []⟩],
    [⟨0, 1, .go, 0, []⟩, ⟨1, 1, .go, 0, []⟩, ⟨2, 1, .ro, 0, []⟩, ⟨3, 1, .ro, 0, []⟩]⟩,
  ⟨"GL_ID", [⟨0x0, []⟩],
    [⟨0, 16, .ro, 4808, []⟩, ⟨16, 4, .ro, 1, []⟩, ⟨20, 1, .ro, 0, []⟩]⟩,
  ⟨"GL_STRAP", [⟨0x4, []⟩],
    [⟨0, 1, .ro, 0, []⟩, ⟨1, 3, .ro, 0, []⟩]⟩,
  ⟨"GL_SCRATCH", [⟨0x8, []⟩],
    [⟨0, 32, .rw, 0, []⟩]⟩,
  ⟨"MX_EVENT", [⟨0x90000, []⟩],
    [⟨0, 1, .rs, 0, []⟩, ⟨24, 8, .rs, 0, []⟩]⟩,
  ⟨"MX_HOLD_CYCLE", [⟨0x90004, []⟩],
    [⟨0, 32, .ro, 0, []⟩]⟩,
  ⟨"MX_MASTER", [⟨0x90100, [(0x4, 21)]⟩],
    [⟨0, 6, .ro, 0, []⟩, ⟨6, 1, .ro, 0, []⟩, ⟨7, 1, .ro, 0, []⟩]⟩,
  ⟨"JY_BUILD", [⟨0x120000, []⟩],
    [⟨1, 7, .rwc, 0, []⟩]⟩,
  ⟨"JY_PRESENT", [⟨0x120004, []⟩],
    [⟨0, 1, .ro, 0, []⟩, ⟨1, 7, .ro, 0, []⟩]⟩,
  ⟨"JY_RMT_ADDR", [⟨0x120010, []⟩],
    [⟨0, 24, .rw, 0, []⟩, ⟨28, 3, .rw, 0, [(1, 7)]⟩]⟩,
  ⟨"JY_RMT_DATA", [⟨0x120014, []⟩],
    [⟨0, 32, .rw, 0, []⟩]⟩,
  ⟨"JY_RMT_CTRL", [⟨0x120018, []⟩],
    [⟨0, 1, .go, 0, []⟩, ⟨1, 1, .go, 0, []⟩, ⟨2, 1, .ro, 0, []⟩, ⟨3, 1, .ro, 0, []⟩]⟩,
  ⟨"JY_LINK_STATUS", [⟨0x120100, [(0x80, 8)]⟩],
    [⟨0, 3, .ro, 0, []⟩, ⟨3, 1, .ro, 0, []⟩, ⟨8, 8, .ro, 0, []⟩, ⟨16, 8, .ro, 0, []⟩]⟩,
  ⟨"JY_LINK_EVENT", [⟨0x120104, [(0x80, 8)]⟩],
    [⟨0, 1, .rs, 0, []⟩, ⟨1, 1, .rs, 0, []⟩, ⟨2, 1, .rs, 0, []⟩, ⟨3, 1, .rs, 0, []⟩, ⟨4, 1, .rs, 0, []⟩, ⟨24, 8, .rs, 0, []⟩]⟩,
  ⟨"JY_LINK_CTRL", [⟨0x120108, [(0x80, 8)]⟩],
    [⟨0, 1, .go, 0, []⟩]⟩,
  ⟨"JY_LINK_TAPS", [⟨0x12010C, [(0x80, 8)]⟩],
    [⟨0, 8, .rwc, 0, [(0, 15), (240, 255)]⟩, ⟨8, 8, .rwc, 48, [(0, 63)]⟩, ⟨16, 8, .rwc, 0, [(0, 15), (240, 255)]⟩]⟩,
  ⟨"JY_LINK_DELAY", [⟨0x120110, [(0x80, 8)]⟩],
    [⟨0, 16, .ro, 0, []⟩]⟩,
  ⟨"JY_HDR_ERR", [⟨0x120114, [(0x80, 8)]⟩],
    [⟨0, 32, .ro, 0, []⟩]⟩]

/-- Part 8 of the register maps. -/
def regMap8 : List RReg := [
  ⟨"JY_CTL_RETX", [⟨0x120118, [(0x80, 8)]⟩],
    [⟨0, 32, .ro, 0, []⟩]⟩,
  ⟨"FW_EVENT", [⟨0x40040, []⟩, ⟨0x400040, [(0x800, 256)]⟩, ⟨0x100040, [(0x400, 64)]⟩, ⟨0x120800, [(0x40, 8)]⟩, ⟨0x860000, [(0x40, 64)]⟩, ⟨0x960000, [(0x40, 64)]⟩, ⟨0xA01000, [(0x40, 32)]⟩],
    [⟨0, 1, .rs, 0, []⟩, ⟨1, 1, .rs, 0, []⟩, ⟨2, 1, .rs, 0, []⟩, ⟨3, 1, .rs, 0, []⟩, ⟨4, 1, .rs, 0, []⟩, ⟨5, 1, .rs, 0, []⟩, ⟨6, 1, .rs, 0, []⟩, ⟨24, 8, .rs, 0, []⟩]⟩,
  ⟨"FW_CAP_INFO", [⟨0x40044, []⟩, ⟨0x400044, [(0x800, 256)]⟩, ⟨0x100044, [(0x400, 64)]⟩, ⟨0x120804, [(0x40, 8)]⟩, ⟨0x860004, [(0x40, 64)]⟩, ⟨0x960004, [(0x40, 64)]⟩, ⟨0xA01004, [(0x40, 32)]⟩],
    [⟨0, 1, .ro, 0, []⟩, ⟨1, 2, .ro, 0, []⟩, ⟨3, 1, .ro, 0, []⟩, ⟨4, 1, .ro, 0, []⟩, ⟨5, 3, .ro, 0, []⟩, ⟨8, 8, .ro, 0, []⟩, ⟨16, 8, .ro, 0, []⟩, ⟨24, 4, .ro, 0, []⟩]⟩,
  ⟨"FW_CAP_SRC", [⟨0x40048, []⟩, ⟨0x400048, [(0x800, 256)]⟩, ⟨0x100048, [(0x400, 64)]⟩, ⟨0x120808, [(0x40, 8)]⟩, ⟨0x860008, [(0x40, 64)]⟩, ⟨0x960008, [(0x40, 64)]⟩, ⟨0xA01008, [(0x40, 32)]⟩],
    [⟨0, 16, .ro, 0, []⟩, ⟨16, 16, .ro, 0, []⟩]⟩,
  ⟨"FW_CAP_ADDR", [⟨0x4004C, []⟩, ⟨0x40004C, [(0x800, 256)]⟩, ⟨0x10004C, [(0x400, 64)]⟩, ⟨0x12080C, [(0x40, 8)]⟩, ⟨0x86000C, [(0x40, 64)]⟩, ⟨0x96000C, [(0x40, 64)]⟩, ⟨0xA0100C, [(0x40, 32)]⟩],
    [⟨0, 32, .ro, 0, []⟩]⟩,
  ⟨"FW_CAP_TIME_LO", [⟨0x40050, []⟩, ⟨0x400050, [(0x800, 256)]⟩, ⟨0x100050, [(0x400, 64)]⟩, ⟨0x120810, [(0x40, 8)]⟩, ⟨0x860010, [(0x40, 64)]⟩, ⟨0x960010, [(0x40, 64)]⟩, ⟨0xA01010, [(0x40, 32)]⟩],
    [⟨0, 32, .ro, 0, []⟩]⟩,
  ⟨"FW_CAP_TIME_HI", [⟨0x40054, []⟩, ⟨0x400054, [(0x800, 256)]⟩, ⟨0x100054, [(0x400, 64)]⟩, ⟨0x120814, [(0x40, 8)]⟩, ⟨0x860014, [(0x40, 64)]⟩, ⟨0x960014, [(0x40, 64)]⟩, ⟨0xA01014, [(0x40, 32)]⟩],
    [⟨0, 32, .ro, 0, []⟩]⟩,
  ⟨"FW_CTRL", [⟨0x40058, []⟩, ⟨0x400058, [(0x800, 256)]⟩, ⟨0x100058, [(0x400, 64)]⟩, ⟨0x120818, [(0x40, 8)]⟩, ⟨0x860018, [(0x40, 64)]⟩, ⟨0x960018, [(0x40, 64)]⟩, ⟨0xA01018, [(0x40, 32)]⟩],
    [⟨0, 1, .go, 0, []⟩, ⟨1, 1, .ro, 0, []⟩, ⟨2, 1, .ro, 0, []⟩]⟩,
  ⟨"FW_COUNT", [⟨0x4005C, []⟩, ⟨0x40005C, [(0x800, 256)]⟩, ⟨0x10005C, [(0x400, 64)]⟩, ⟨0x12081C, [(0x40, 8)]⟩, ⟨0x86001C, [(0x40, 64)]⟩, ⟨0x96001C, [(0x40, 64)]⟩, ⟨0xA0101C, [(0x40, 32)]⟩],
    [⟨0, 16, .ro, 0, []⟩, ⟨16, 16, .ro, 0, []⟩]⟩,
  ⟨"FW_COUNT_F", [⟨0x40060, []⟩, ⟨0x400060, [(0x800, 256)]⟩, ⟨0x100060, [(0x400, 64)]⟩, ⟨0x120820, [(0x40, 8)]⟩, ⟨0x860020, [(0x40, 64)]⟩, ⟨0x960020, [(0x40, 64)]⟩, ⟨0xA01020, [(0x40, 32)]⟩],
    [⟨0, 16, .ro, 0, []⟩, ⟨16, 16, .ro, 0, []⟩]⟩,
  ⟨"FW_INJ_CTRL", [⟨0x40064, []⟩, ⟨0x400064, [(0x800, 256)]⟩, ⟨0x100064, [(0x400, 64)]⟩, ⟨0x120824, [(0x40, 8)]⟩, ⟨0x860024, [(0x40, 64)]⟩, ⟨0x960024, [(0x40, 64)]⟩, ⟨0xA01024, [(0x40, 32)]⟩],
    [⟨0, 8, .rw, 0, []⟩, ⟨8, 4, .rw, 0, []⟩, ⟨12, 1, .rw, 0, []⟩, ⟨13, 1, .go, 0, []⟩, ⟨14, 1, .ro, 0, []⟩, ⟨15, 1, .ro, 0, []⟩, ⟨16, 8, .rw, 0, []⟩]⟩,
  ⟨"FW_INJ_ADDR", [⟨0x40068, []⟩, ⟨0x400068, [(0x800, 256)]⟩, ⟨0x100068, [(0x400, 64)]⟩, ⟨0x120828, [(0x40, 8)]⟩, ⟨0x860028, [(0x40, 64)]⟩, ⟨0x960028, [(0x40, 64)]⟩, ⟨0xA01028, [(0x40, 32)]⟩],
    [⟨0, 32, .rw, 0, []⟩]⟩,
  ⟨"FW_INJ_ADDR_HI", [⟨0x4006C, []⟩],
    [⟨0, 16, .rw, 0, []⟩, ⟨16, 16, .rw, 0, []⟩]⟩,
  ⟨"FW_INJ_ADDR_HI", [⟨0x40006C, [(0x800, 256)]⟩, ⟨0x10006C, [(0x400, 64)]⟩, ⟨0x12082C, [(0x40, 8)]⟩, ⟨0x86002C, [(0x40, 64)]⟩, ⟨0x96002C, [(0x40, 64)]⟩, ⟨0xA0102C, [(0x40, 32)]⟩],
    [⟨0, 16, .rw, 0, []⟩]⟩,
  ⟨"FLT_STATUS", [⟨0x40000, []⟩],
    [⟨0, 1, .ro, 0, []⟩, ⟨1, 1, .ro, 0, []⟩, ⟨2, 1, .ro, 0, []⟩, ⟨3, 1, .ro, 0, []⟩, ⟨4, 1, .ro, 0, []⟩, ⟨5, 1, .ro, 0, []⟩]⟩,
  ⟨"FLT_CTRL", [⟨0x40004, []⟩],
    [⟨0, 1, .rw, 0, []⟩]⟩,
  ⟨"FLT_SRC", [⟨0x40100, [(0x4, 5)]⟩, ⟨0x40140, [(0x4, 82)]⟩],
    [⟨0, 8, .ro, 0, []⟩, ⟨8, 8, .ro, 0, []⟩, ⟨16, 8, .ro, 0, []⟩, ⟨24, 3, .ro, 0, []⟩, ⟨27, 1, .ro, 0, []⟩]⟩,
  ⟨"FLT_FENCED", [⟨0x40300, [(0x4, 14)]⟩],
    [⟨0, 32, .ro, 0, []⟩]⟩,
  ⟨"PWR_CFG", [⟨0x70000, []⟩],
    [⟨0, 6, .rwc, 25, [(5, 50)]⟩, ⟨16, 10, .rwc, 10, [(1, 1000)]⟩]⟩,
  ⟨"PWR_STATUS", [⟨0x70004, []⟩],
    [⟨0, 2, .ro, 0, []⟩, ⟨2, 1, .ro, 0, []⟩, ⟨3, 1, .ro, 0, []⟩, ⟨4, 1, .ro, 0, []⟩, ⟨5, 1, .ro, 1, []⟩, ⟨16, 10, .ro, 0, []⟩]⟩,
  ⟨"PWR_EVENT", [⟨0x70008, []⟩],
    [⟨0, 1, .rs, 0, []⟩, ⟨1, 1, .rs, 0, []⟩, ⟨2, 1, .rs, 0, []⟩, ⟨3, 1, .rs, 0, []⟩, ⟨4, 1, .rs, 0, []⟩, ⟨24, 8, .rs, 0, []⟩]⟩,
  ⟨"PWR_MON", [⟨0x7000C, []⟩],
    [⟨0, 12, .ro, 0, []⟩, ⟨16, 12, .ro, 0, []⟩]⟩,
  ⟨"PWR_SHED_LO", [⟨0x70010, []⟩],
    [⟨0, 32, .ro, 0, []⟩]⟩,
  ⟨"PWR_SHED_HI", [⟨0x70014, []⟩],
    [⟨0, 32, .ro, 0, []⟩]⟩,
  ⟨"PWR_SAG_COUNT", [⟨0x70018, []⟩],
    [⟨0, 32, .ro, 0, []⟩]⟩]

/-- Part 9 of the register maps. -/
def regMap9 : List RReg := [
  ⟨"RST_CTRL", [⟨0x70040, []⟩],
    [⟨0, 8, .rw, 0, []⟩, ⟨8, 6, .rw, 0, []⟩, ⟨15, 1, .go, 0, []⟩]⟩,
  ⟨"RST_STATUS", [⟨0x70044, []⟩],
    [⟨0, 1, .ro, 0, []⟩, ⟨1, 1, .ro, 0, []⟩, ⟨8, 8, .ro, 0, []⟩, ⟨16, 6, .ro, 0, []⟩]⟩,
  ⟨"SEC_BOOT_STATUS", [⟨0x80000, []⟩],
    [⟨0, 1, .ro, 0, []⟩, ⟨1, 1, .ro, 0, []⟩, ⟨2, 1, .ro, 0, []⟩, ⟨4, 4, .ro, 0, []⟩, ⟨8, 4, .ro, 0, []⟩]⟩,
  ⟨"SEC_OWNER", [⟨0x80004, []⟩],
    [⟨0, 8, .ro, 0, []⟩, ⟨8, 7, .ro, 0, []⟩]⟩,
  ⟨"SEC_ID", [⟨0x80008, [(0x4, 6)]⟩],
    [⟨0, 32, .ro, 0, []⟩]⟩,
  ⟨"SEC_CHALLENGE", [⟨0x80020, [(0x4, 8)]⟩],
    [⟨0, 32, .ro, 0, []⟩]⟩,
  ⟨"SEC_EVENT", [⟨0x80040, []⟩],
    [⟨0, 1, .rs, 0, []⟩, ⟨1, 1, .rs, 0, []⟩, ⟨2, 1, .rs, 0, []⟩, ⟨24, 8, .rs, 0, []⟩]⟩,
  ⟨"SEC_AUTH_FAIL", [⟨0x80044, []⟩],
    [⟨0, 32, .ro, 0, []⟩]⟩]

/-- The register maps. -/
def regMap : List RReg :=
  regMap1 ++ regMap2 ++ regMap3 ++ regMap4 ++ regMap5 ++ regMap6 ++ regMap7 ++ regMap8 ++ regMap9

/-- The instance numbers of `off` under the strides, none where it fits none of them. -/
def RWin.inst : List (Nat × Nat) → Nat → Option (List Nat)
  | [], off => if off = 0 then some [] else none
  | (s, n) :: rest, off =>
    if off / s < n then (RWin.inst rest (off % s)).map (fun l => (off / s) :: l) else none

/-- Whether the register lies at the address, and at which instance. -/
def RReg.at (r : RReg) (addr : Nat) : Option (List Nat) :=
  r.wins.findSome? (fun w => if w.base ≤ addr then RWin.inst w.strides (addr - w.base) else none)

/-- The register at an address of the base window (R402): none where no chapter places one. -/
def findReg (addr : Nat) : Option RReg := regMap.find? (fun r => (r.at addr).isSome)

/-- A field's reset value in its place. -/
def RField.resetWord (f : RField) : Word := BitVec.ofNat 32 (f.reset * 2 ^ f.lo)

/-- A register's reset value (the Reset columns of its map). -/
def RReg.resetWord (r : RReg) : Word := r.fields.foldl (fun w f => w ||| f.resetWord) 0

/-- What the register file holds at an address that it does not list: the register's reset value. -/
def resetOf (addr : Nat) : Word :=
  match findReg addr with
  | some r => r.resetWord
  | none => 0

/-- The mask of a field. -/
def RField.mask (f : RField) : Word := BitVec.ofNat 32 ((2 ^ f.width - 1) * 2 ^ f.lo)

/-- A field's value in a register word. -/
def RField.get (f : RField) (w : Word) : Nat := w.toNat / 2 ^ f.lo % 2 ^ f.width

/-- Whether a field accepts a value (R548). -/
def RField.accepts (f : RField) (x : Nat) : Bool :=
  f.lim.isEmpty || f.lim.any (fun r => r.1 ≤ x && x ≤ r.2)

/-- The mask of a register's fields of the types that `p` names. -/
def RReg.maskOf (r : RReg) (p : FTy → Bool) : Word :=
  r.fields.foldl (fun w f => if p f.ty then w ||| f.mask else w) 0

/-- The bits of a register that a write of `w` over `old` leaves in its RW and RWC fields: each field takes its new value
when it accepts it and keeps its old one otherwise (R548). -/
def RReg.store (r : RReg) (old w : Word) : Word :=
  r.fields.foldl (fun acc f =>
    if f.ty = .rw || f.ty = .rwc then
      if f.accepts (f.get w) then (acc &&& ~~~f.mask) ||| (w &&& f.mask) else acc
    else acc) old

/-- Every address of a window, in order. -/
def RWin.addrs : Nat → List (Nat × Nat) → List Nat
  | base, [] => [base]
  | base, (s, n) :: rest => (List.range n).flatMap (fun i => RWin.addrs (base + s * i) rest)

end Sys2Proof.Machine
end

