-- ==== Sys2Proof/Machine/Addr.lean ====
section
/-! DEFINITION. Register addresses of the windows (R401 and the register maps of the chapters), the keys under which the
state holds the many like instances, and the source IDs of R447. -/

namespace Sys2Proof.Machine

/-- Register at `off` of line lane l's window (R84). -/
def aLane (l off : Nat) : Nat := 0x100000 + 0x400 * l + off
/-- Register at `off` of port p's window. -/
def aPort (p off : Nat) : Nat := 0x200000 + 0x1000 * p + off
/-- Register at `off` of ring r's window (R398). -/
def aRing (r off : Nat) : Nat := 0x10100 + 0x40 * r + off
/-- Register at `off` of engine g's window (R364). -/
def aEng (g off : Nat) : Nat := 0x400000 + 0x800 * g + off
/-- Register at `off` of Jersey link j's window (R444). -/
def aJy (j off : Nat) : Nat := 0x120100 + 0x80 * j + off
/-- Register at `off` of CRC unit u's window (R56). -/
def aCrc (u off : Nat) : Nat := 0x30000 + 0x100 * u + off
/-- Register at `off` of HOSTQ (R398). -/
def aHq (off : Nat) : Nat := 0x10000 + off

/-- Key of a queue in `Dev.queues`. -/
def qkey : QId → Nat
  | .laneIn l => 2 * l.val
  | .laneEg l => 2 * l.val + 1
  | .jyIn j => 128 + 2 * j.val
  | .jyEg j => 129 + 2 * j.val
  | .twIn g => 256 + 2 * g.val
  | .twOut g => 257 + 2 * g.val
  | .slice p s n => 0x1000 + 256 * (8 * p.val + s.val) + n.val
  | .emu p g => 0x2000 + 1024 * p.val + g.val

/-- Base of a queue's registers. A queue of slice logic or of a merge group shows no registers to the host: its QSTAT is
held beyond BAR0. -/
def qbase : QId → Nat
  | .laneIn l => aLane l.val 0x100
  | .laneEg l => aLane l.val 0x120
  | .jyIn j => aJy j.val 0x40
  | .jyEg j => aJy j.val 0x60
  | .twIn g => aEng g.val 0x100
  | .twOut g => aEng g.val 0x120
  | q => 0x4000000 + 0x20 * qkey q

/-- Key of a framer: 16 × port + slice for ports, from 1,024 on for E1s. -/
def frKey : FrId → Nat
  | .port p s => 16 * p.val + s.val
  | .e1 e => 1024 + e.val

/-- MP_TYPE of R112. -/
def mpType : MpId → Nat
  | .sm _ => 1
  | .pm _ => 2
  | .tcm _ _ => 3
  | .rs _ => 4
  | .ms _ => 5
  | .ho _ => 6
  | .lo _ => 7
  | .e1 _ => 8

/-- MP_INDEX of R112. -/
def mpIndex : MpId → Nat
  | .sm p => p.val
  | .pm o => o.val
  | .tcm o _ => o.val
  | .rs p => p.val
  | .ms p => p.val
  | .ho v => v.val
  | .lo e => e.val
  | .e1 e => e.val

/-- LEVEL of R112: 1–6 for TCM, 0 otherwise. -/
def mpLevel : MpId → Nat
  | .tcm _ l => l.val + 1
  | _ => 0

/-- Key of a point from its type, level and index. -/
def mpKeyOf (ty level index : Nat) : Nat := (ty * 8 + level) * 8192 + index

/-- Key of a point in `Dev.points`. -/
def mpKey (m : MpId) : Nat := mpKeyOf (mpType m) (mpLevel m) (mpIndex m)

/-- Key of a selector in `Dev.sels`. -/
def selKey (scheme n : Nat) : Nat := 4096 * scheme + n

/-- Source IDs (R447). -/
def srcOf (family inst : Nat) : Nat := 0x1000 * family + inst
def srcFamily (s : Nat) : Nat := s / 0x1000
def srcInst (s : Nat) : Nat := s % 0x1000

/-- Instances of a family (R447). -/
def familySize : Nat → Nat
  | 6 => 16
  | 7 => 64
  | 8 => 2
  | 9 => 256
  | 10 => 72
  | 11 => 64
  | 12 => 64
  | 13 => 32
  | 14 => 16
  | 15 => 2
  | _ => 1

/-- Fenceable units (R447). -/
def fenceable (s : Nat) : Bool := srcFamily s ∈ [9, 11, 12, 13, 14, 15] && srcInst s < familySize (srcFamily s)

/-- The partner of a fenceable unit (R448). -/
def partner (s : Nat) : Nat :=
  let i := srcInst s
  let x := match srcFamily s with
    | 9 => 128 | 11 => 32 | 12 => 32 | 13 => 16 | 14 => 8 | _ => 1
  srcOf (srcFamily s) (if i / x % 2 = 0 then i + x else i - x)

/-- The plane that holds a fenceable unit (R448), or the plane itself. -/
def planeOf (s : Nat) : Nat :=
  let i := srcInst s
  match srcFamily s with
  | 9 => i / 128 | 11 => i / 32 | 12 => i / 32 | 13 => i / 16 | 14 => i / 8 | _ => i

/-- Base of the fault window in which a source records (R447, R466). -/
def fwBase (s : Nat) : Nat :=
  let i := srcInst s
  match srcFamily s with
  | 9 => aEng i 0x40
  | 10 => if i < 64 then aLane i 0x40 else 0x120800 + 0x40 * (i - 64)
  | 11 => 0x860000 + 0x40 * i
  | 12 => 0x960000 + 0x40 * i
  | 13 => 0xA01000 + 0x40 * i
  | _ => 0x40040

/-- The source of a fault window, by its base: 0 for the collector. -/
def fwSource (base : Nat) : Nat :=
  if base < 0x100000 then 0
  else if base < 0x120800 then srcOf 10 ((base - 0x100040) / 0x400)
  else if base < 0x200000 then srcOf 10 (64 + (base - 0x120800) / 0x40)
  else if base < 0x800000 then srcOf 9 ((base - 0x400040) / 0x800)
  else if base < 0x900000 then srcOf 11 ((base - 0x860000) / 0x40)
  else if base < 0xA00000 then srcOf 12 ((base - 0x960000) / 0x40)
  else srcOf 13 ((base - 0xA01000) / 0x40)

/-- FLT_SRC of a source of the collector (R467); none for the collector's own registers, which have none. -/
def fltSrcAddr (s : Nat) : Option Nat :=
  let i := srcInst s
  match srcFamily s with
  | 1 => some (0x40100 + 4 * 0)
  | 2 => some (0x40100 + 4 * 1)
  | 3 => some (0x40100 + 4 * 2)
  | 4 => some (0x40100 + 4 * 3)
  | 5 => some (0x40100 + 4 * 4)
  | 6 => some (0x40100 + 4 * (16 + i))
  | 7 => some (0x40100 + 4 * (32 + i))
  | 8 => some (0x40100 + 4 * (96 + i))
  | _ => none

/-- Checkers with check bits, which injection can arm (R451). -/
def armable (s checker : Nat) : Bool :=
  match srcFamily s with
  | 0 => checker = 15
  | 1 | 2 => checker < 2
  | 3 | 4 | 5 | 6 | 7 => checker = 0
  | 8 => checker < 2
  | 9 => checker < 4
  | 10 => checker < 2
  | 11 | 12 | 13 => checker = 0
  | _ => false

end Sys2Proof.Machine
end

