-- ==== Sys2Proof/Machine/Flags.lean ====
section
/-! DEFINITION. Computations on status words: fields of a register word, the sequence-number rule of RS registers (R409),
saturating counters, and the parity and SECDED flags of words (R37–R41, R46). -/

namespace Sys2Proof.Machine

/-- Field of `n` bits from bit `lo` of a register word. -/
def fld (w : Word) (lo n : Nat) : Nat := w.toNat / 2 ^ lo % 2 ^ n

/-- Bit `i` of a register word. -/
def bit (w : Word) (i : Nat) : Bool := w.getLsbD i

/-- The word with the field of `n` bits from bit `lo` set to `v`. -/
def setFld (w : Word) (lo n v : Nat) : Word :=
  (w &&& ~~~(BitVec.ofNat 32 ((2 ^ n - 1) * 2 ^ lo))) ||| BitVec.ofNat 32 (v % 2 ^ n * 2 ^ lo)

/-- A Boolean as a bit in its place. -/
def bitAt (b : Bool) (i : Nat) : Word := if b then BitVec.ofNat 32 (2 ^ i) else 0

/-- A value as a field in its place. -/
def fldAt (v lo n : Nat) : Word := BitVec.ofNat 32 (v % 2 ^ n * 2 ^ lo)

/-- The event bits of an RS register that a set of bits newly sets (R409). -/
def rsNew (w bits : Word) : Word := bits &&& ~~~w &&& 0x00FFFFFF

/-- An RS register after events: the bits set, and SEQ has risen by one when any bit is new (R409). -/
def rsSet (w bits : Word) : Word :=
  if rsNew w bits = 0 then w
  else (((w >>> 24) + 1) <<< 24) ||| (w &&& 0x00FFFFFF) ||| rsNew w bits

/-- An RS register after a plain write: the events clear when the written SEQ is the present one (R409). -/
def rsClear (w v : Word) : Word := if v >>> 24 = w >>> 24 then w &&& 0xFF000000 else w

/-- A counter field raised by `k`, saturating at its width. -/
def countUp (w : Word) (lo n k : Nat) : Word := setFld w lo n (min (fld w lo n + k) (2 ^ n - 1))

/-- The number of set bits of a byte. -/
def weight (b : Byte) : Nat := (List.range 8).foldl (fun n i => if b.getLsbD i then n + 1 else n) 0

/-- The columns of R37: the 56 bytes of weight 3, then the eight smallest of weight 5. -/
def columns : List Byte :=
  ((List.range 256).map (BitVec.ofNat 8)).filter (fun b => weight b = 3)
    ++ (((List.range 256).map (BitVec.ofNat 8)).filter (fun b => weight b = 5)).take 8

/-- The check field of a word in storage (R37): the exclusive-OR of the columns of its set bits. -/
def secded (d : Data) : Byte :=
  (columns.zipIdx).foldl (fun c x => if d.getLsbD x.2 then c ^^^ x.1 else c) 0

/-- The check field of a word stored as stored poison (R41). -/
def poisonCheck (d : Data) : Byte := secded d ^^^ 0x7F

/-- What a read of a storage word with its check field gives by its syndrome (R38). -/
inductive Ecc where
  | clean | checkOnly | data (bit : Nat) | poison | bad
  deriving DecidableEq, Repr

/-- The table of R38. -/
def eccOf (s : Byte) : Ecc :=
  if s = 0 then .clean
  else if weight s = 1 then .checkOnly
  else match columns.findIdx? (· = s) with
    | some j => .data j
    | none => if s = 0x7F then .poison else .bad

/-- Byte i of a word. -/
def byteOf (d : Data) (i : Nat) : Byte := (d >>> (8 * i)).setWidth 8

/-- Whether a byte has an odd number of ones. -/
def oddOnes (b : Byte) : Bool := weight b % 2 = 1

/-- Datapath parity of R40: C[i] makes byte i and its bit odd together. -/
def parity (d : Data) : Byte :=
  (List.range 8).foldl (fun c i => if oddOnes (byteOf d i) then c else c ||| BitVec.ofNat 8 (2 ^ i)) 0

/-- Whether every datapath parity bit is right (R41). -/
def parityOk (d : Data) (c : Byte) : Bool := c = parity d

/-- Number of ones modulo 2 of a vector's bits. -/
def xorBits {n : Nat} (v : BitVec n) : Bool := (List.range n).foldl (fun p i => p != v.getLsbD i) false

/-- QP that makes the exclusive-OR of all 78 bits of an item 0 (R44, R46). -/
def qpOf (d : Data) (c : Byte) (tag : BitVec 4) (p : Bool) : Bool :=
  xorBits d != (xorBits c != (xorBits tag != p))

end Sys2Proof.Machine
end

