-- ==== Sys2Proof/Machine/State.lean ====
section
/-! DEFINITION. The state of the QN12K8: every piece of state that the manual names, as plain data, and the reset state.
Each field's docstring gives, after its meaning, its width, the chapter and rule that name it, and its reset value; a
value marked DESIGN CHOICE n is the model's, by assumption n. Times are nanoseconds of the elapsed-time base (R304).
Registers with fields of type RW, RWC and RS and pure counter registers are in the register file `Dev.regs`; RO fields
that show other state are computed from it (Machine/RegRead.lean). -/

namespace Sys2Proof.Machine

/-- The faults of the model. -/
inductive Fault where
  /-- raised by the meaning of a host opcode row for a descriptor whose body is not 56 bytes (R10): no such descriptor
  exists. Safe: nothing runs that the hardware would run. -/
  | malformedDescriptor
  deriving DecidableEq, Repr

/-- The refusals of the model. -/
inductive Refusal where
  /-- an arm of `exec` whose meaning is not written, by its mnemonic. Safe: nothing runs. -/
  | notModelled (mnemonic : String)
  deriving DecidableEq, Repr

/-- The device's life since POR_N (R487, R488). `por`: POR_N is low and every block is held in its reset state;
`booting`: the boot ROM runs and BAR0 does not answer; `running`: the planes are loaded and commands act;
`bootFailed`: no slot booted; `strapBad`: invalid straps (R425); `railOff`: an under-voltage reset waits for the rails
(R471). -/
inductive Life where
  | por | booting | running | bootFailed | strapBad | railOff
  deriving DecidableEq, Repr

/-- A fall-through queue (R48–R53). Its watermarks, timeout, status and slip count are its registers QCFG, QTMO, QSTAT
and QSLIP, which the register file holds where the host can see them. -/
structure FQueue where
  /-- items pushed and not yet read, oldest first; depth is their number | K × 78 | 02 R48 | empty -/
  items : List QItem := []
  /-- items read and not yet released (mark and rewind), oldest first | K × 78 | 02 R49 | empty -/
  held : List QItem := []
  /-- pushes of a core producer that wait for space (R52) | 78 each | 02 R52 | empty -/
  waiting : List QItem := []
  /-- items that an edge queue has dropped since it was emptied by a reset, not cleared with QSLIP: the slip count that the
  ingress fork keeps (R77), and by which a Jersey receiver sees a slip (R429) | count | 03 R77 | 0 -/
  drops : Nat := 0
  /-- elapsed ns of the later of the last read and the last rise from depth 0 | time | 02 R50 | 0 -/
  since : Nat := 0
  /-- the timeout measurement has expired and waits for a restart | 1 | 02 R50 | false -/
  expired : Bool := false
  deriving DecidableEq, Repr

/-- An item of a CRC unit's input queue (R59, R60): a load of the running state, or bytes to feed. -/
inductive CrcItem where
  | load (poly : BitVec 2) (init : Option Word)
  | bytes (bs : List Byte)
  deriving DecidableEq, Repr

/-- The running part of a CRC unit (R57–R60); its CRC_CTRL and CRC_INIT are in the register file. -/
structure CrcUnit where
  /-- POLY sampled at the last LOAD | 2 | 02 R57 | 0 (DESIGN CHOICE 21: no LOAD has sampled one) -/
  poly : BitVec 2 := 0
  /-- running state, unreflected order | 32 | 02 R60 | 0 (CRC_STATE resets to 0) -/
  state : Word := 0
  /-- byte-steps since the last LOAD | 32, saturating | 02 CRC_COUNT | 0 -/
  count : Word := 0
  /-- OWNER in force since the last commit (R415) | 5 | 14 R415 | 0 -/
  owner : BitVec 5 := 0
  /-- input queue, oldest first | 16 items | 02 R59 | empty -/
  queue : List CrcItem := []
  /-- nothing has been processed since the reset: CRC_RESULT reads 0 | 1 | 02 R60, 17 R489 | true -/
  blank : Bool := true
  deriving DecidableEq, Repr

/-- Why a plane-level resynchronisation runs (R31): which completion waits for it. -/
inductive ResyncFor where
  | unfence | handover
  deriving DecidableEq, Repr

/-- A resynchronisation of a whole plane in progress (R31). -/
structure Resync where
  plane : Fin 2
  why : ResyncFor
  job : Nat
  /-- a handover's copy has ended, and its third stage waits for a shared cell number (R357) -/
  copied : Bool := false
  deriving DecidableEq, Repr

/-- An unfence of a unit inside a plane in progress (R461). -/
structure Unfence where
  unit : Nat
  job : Nat
  restart : Bool
  deriving DecidableEq, Repr

/-- The planes, their fences and the redundancy state (chapter 01, chapter 16). -/
structure PlaneSt where
  /-- fenced units by source ID, whole planes 0xF000 and 0xF001 among them | 1 each | 16 R447, FLT_FENCED | none fenced -/
  fences : Tab Bool := []
  /-- the device is in FROZEN | 1 | 01 R28 | false -/
  frozen : Bool := false
  /-- PLANE_STATE.FROZEN_FROM | 2 | 01 R30 | 0 -/
  frozenFrom : BitVec 2 := 0
  /-- PLANE_STATE.PREFERRED: plane the selectors prefer | 1 | 01 R24 | 0 (N) -/
  preferred : Fin 2 := 0
  /-- plane resynchronisation in progress: PLANE_STATE.RESYNC, RESYNC_PLANE | record | 01 R31 | none -/
  resync : Option Resync := none
  /-- unit unfence in progress | record | 16 R461 | none -/
  unfence : Option Unfence := none
  /-- EXPOSED bits last shown in PLANE_EXPOSED_LO and PLANE_EXPOSED_HI | 64 | 01 R32 | 0 -/
  exposed : BitVec 64 := 0
  /-- a fault of the carrying plane was left without a fence (R29, R454): STOPPED and FAULT_N until POR_N | 1 | 16 R454 | false -/
  unfencedFault : Bool := false
  /-- framer words, counters among them, of a fenced slice of a plane as they were at its fence or as a PORT_CFG or a restart of an E1 has left them since, keyed 2^26 × plane + BAR0 address | 32 each | 04 R89, 16 R455 | none -/
  framerHeld : Tab Word := []
  /-- lane forks that have stopped feeding a plane (R22), keyed 64 × plane + lane | 1 each | 01 R22 | none -/
  forkStopped : Tab Bool := []
  deriving DecidableEq, Repr

/-- Bring-up states of a lane (R70), in the order of BSTATE. -/
inductive BState where
  | off | cal | acquire | pcsWait | locked
  deriving DecidableEq, Repr

/-- A line lane (R63–R84). -/
structure Lane where
  /-- RATE code | 8 | 03 R82 | 0 -/
  rate : Nat := 0
  /-- CTRL: ENABLE, RX_INVERT, TX_INVERT, RX_CAL, TX_TIMING | 5 | 03 R82 | 0 -/
  ctrl : Byte := 0
  /-- LOOPBACK | 2 | 03 R82 | 0 -/
  loopback : Nat := 0
  /-- TX_PRE | 8 signed | 03 R82 | 0 -/
  txPre : Byte := 0
  /-- TX_MAIN | 8 | 03 R82 | 48 -/
  txMain : Byte := 48
  /-- TX_POST | 8 signed | 03 R82 | 0 -/
  txPost : Byte := 0
  /-- RX_ADAPT | 1 | 03 R82 | 1 -/
  rxAdapt : Byte := 1
  /-- LANE_STATUS.BSTATE | 3 | 03 R70 | OFF -/
  bstate : BState := .off
  /-- LANE_STATUS.CDR_LOCK | 1 | 03 R84 | 0 -/
  cdrLock : Bool := false
  /-- LANE_STATUS.PCS_LOCK | 1 | 03 R84 | 0 -/
  pcsLock : Bool := false
  /-- LANE_STATUS.CAL_OK: the last calibration completed | 1 | 03 R84 | 0 -/
  calOk : Bool := false
  /-- elapsed ns at entry to ACQUIRE, for the acquisition bound | time | 03 R71 | 0 -/
  acqSince : Nat := 0
  /-- elapsed ns at entry to PCS_WAIT | time | 03 R71 | 0 -/
  waitSince : Nat := 0
  /-- the egress queue has held ≥ 64 items and transmission of its items runs | 1 | 03 R79 | 0 -/
  sending : Bool := false
  /-- slip count at the fork's previous cell | count | 03 R77 | 0 -/
  slipSeen : Nat := 0
  /-- blocks of the last uncorrectable codeword that are still to arrive, on an Ethernet port | 7 | 03 R78 | 0 -/
  errBlocks : Nat := 0
  /-- PRBS31 register of the transmitter | 31 | 03 R73 | all ones (DESIGN CHOICE 94) -/
  prbs : BitVec 31 := BitVec.allOnes 31
  /-- receiver offsets in force: none is the factory set | 8 per slicer set, signed | 11 R330 | factory (none) -/
  offsets : Option (BitVec 32) := none
  deriving DecidableEq, Repr

/-- Where the blocks that an Ethernet port transmits stand (R79): between packets, inside a packet, or after the error block
that ended one. -/
inductive PktTx where
  | between | inside | broken
  deriving DecidableEq, Repr

/-- What an Ethernet lane transmits where it sends no item of its queue: control blocks of IEEE 802.3 (R79, R251). -/
inductive EthBlock where
  | idle | error | remoteFault
  deriving DecidableEq, Repr

/-- Port states (R74), in the order of ASTATE. -/
inductive AState where
  | disabled | aligning | aligned | skewFail
  deriving DecidableEq, Repr

/-- A port (R66–R75, R83), keyed by its lowest lane. -/
structure Port where
  /-- LANES | 8 | 03 R83 | 0 -/
  lanes : Nat := 0
  /-- FORMAT, 0 while the port is disabled | 8 | 03 R83 | 0 -/
  format : Nat := 0
  /-- OTUC_N | 8 | 03 R83 | 0 -/
  otucN : Nat := 0
  /-- FEC | 8 | 03 R83 | 0 -/
  fec : Nat := 0
  /-- FLAGS.SHED | 1 | 03 R83 | 0 (KEEP) -/
  shed : Bool := false
  /-- SKEW_WARN in ns | 16 | 03 R83 | 180 -/
  skewWarn : Nat := 180
  /-- PORT_STATUS.ASTATE | 2 | 03 R74 | DISABLED -/
  astate : AState := .disabled
  /-- PORT_STATUS.SKEW | 10 | 03 R75 | 0 -/
  skew : Nat := 0
  /-- the last measurement was above SKEW_WARN | 1 | 03 R75 | 0 -/
  aboveWarn : Bool := false
  /-- a lane has left LOCKED since SKEW_FAIL was entered (R74) | 1 | 03 R74 | 0 -/
  laneLeft : Bool := false
  /-- the port has reached ALIGNED, or a PORT_CFG has configured it, since its traffic last stopped: its lanes may begin to
  send | 1 | 03 R79 | 0 -/
  egress : Bool := false
  /-- the lane of the port, counted from its lowest, whose edge queue takes the next cell | 3 | 03 R77 | 0 -/
  inTurn : Nat := 0
  /-- Ethernet: where the transmitted block stream stands | 2 | 03 R79 | between packets -/
  pktTx : PktTx := .between
  /-- the port's framers are all in IF, and elapsed ns since which that has been so | 1, time | 05 R125 | 0 -/
  frIn : Bool := false
  frSince : Nat := 0
  /-- 0 out of frame, 1 in frame with the ODU multiframe in search, 2 multiframe locked, and elapsed ns since which | 2, time | 05 R125 | 0 -/
  mfCode : Nat := 0
  mfSince : Nat := 0
  /-- frozen by the urgent word freeze port | 1 | 13 R395 | 0 -/
  frozenUrg : Bool := false
  /-- shed now: PWR_SHED bit of the port | 1 | 17 R483 | 0 -/
  shedNow : Bool := false
  deriving DecidableEq, Repr

/-- A candidate of the frame search (R91). -/
structure Cand where
  /-- stream position at which the pattern matched | count | 04 R91 | — -/
  pos : Nat
  /-- bit phase of the match in its byte | 3 | 04 R90 | — -/
  phase : Nat := 0
  /-- checks passed so far | 2 | 04 R92 | 0 -/
  passed : Nat := 0
  deriving DecidableEq, Repr

/-- A multiframe aligner (R97, R99–R101): searching while `lock` is false. -/
structure MfAlign where
  /-- locked | 1 | 04 R97 | 0 -/
  lock : Bool := false
  /-- X, the expected value | 8 | 04 R97 | 0 -/
  x : Nat := 0
  /-- MERR, consecutive mismatches | 3 | 04 R97 | 0 -/
  merr : Nat := 0
  /-- last value seen while searching | 8 | 04 R97 | none -/
  prev : Option Nat := none
  /-- elapsed ns since which the aligner has been in its present state | time | 05 R125 | 0 -/
  since : Nat := 0
  deriving DecidableEq, Repr

/-- The framer of an OTU4 or SDH port, or of one OTUC slice (R95), keyed 16 × port + slice − 1. -/
structure Framer where
  /-- in state IF | 1 | 04 R95 | OOF -/
  inFrame : Bool := false
  /-- bit phase of the frame in its bytes | 3 | 04 R90 | 0 -/
  phase : Nat := 0
  /-- ERR | 3 | 04 R95 | 0 -/
  err : Nat := 0
  /-- open candidates, ≤ 2 | 2 slots | 04 R91 | none -/
  cands : List Cand := []
  /-- first stream position the scanner may test | position | 04 R91 | 0 -/
  scanFrom : Nat := 0
  /-- scanner stopped until the port is ALIGNED | 1 | 04 R95 | 0 -/
  stopped : Bool := false
  /-- ODU multiframe | record | 04 R97 | MF_SEARCH -/
  mf : MfAlign := {}
  /-- last MFAS received, shown in FRM_STATUS.MFAS | 8 | 04 R109 | 0 -/
  mfas : Nat := 0
  /-- the MFAS of the frame of slice 1's last MFAS has been taken in this slice | 1 | 04 R98 | 0 -/
  mfHere : Bool := false
  /-- consecutive frames in which the MFAS differed from slice 1's | 3 | 04 R98 | 0 -/
  skewRun : Nat := 0
  deriving DecidableEq, Repr

/-- FSTATE of an E1 framer (R103, R110). -/
inductive E1State where
  | none | oof | ifBasic | ifMf
  deriving DecidableEq, Repr

/-- An E1 framer (R102–R105), keyed by entry. -/
structure E1 where
  /-- FSTATE | 2 | 04 R103 | none (nothing demapped) -/
  st : E1State := .none
  /-- FE | 2 | 04 R103 | 0 -/
  fe : Nat := 0
  /-- ME | 2 | 04 R103 | 0 -/
  me : Nat := 0
  /-- elapsed ns at entry to IF_BASIC (T_IF) | time | 04 R103 | 0 -/
  ifSince : Nat := 0
  /-- open candidates, ≤ 4 | 4 slots | 04 R91 | none -/
  cands : List Cand := []
  /-- first stream bit the scanner may test | position | 04 R91 | 0 -/
  scanFrom : Nat := 0
  /-- abandoned offset (modulo 512) and the stream bit up to which it opens no candidate | record | 04 R104 | none -/
  ban : Option (Nat × Nat) := none
  /-- stream bit of the FAS last checked | position | 04 R103 | 0 -/
  fasPos : Nat := 0
  /-- phases (of the 8 frames with FAS in a multiframe) at which the preceding multiframe had a valid MFAS | 8 | 04 R103 | none -/
  mfasSeen : List Nat := []
  /-- phase of the multiframe in IF_MF | 3 | 04 R103 | 0 -/
  mfPhase : Nat := 0
  /-- NO_CRC4 | 1 | 04 R104 | 0 -/
  noCrc4 : Bool := false
  /-- start of the 400 ms interworking timer | time | 04 R104 | none -/
  timer400 : Option Nat := none
  /-- the 400 ms timer has expired since the last start of a search that was not an 8 ms restart | 1 | 04 R104 | false -/
  timerDone : Bool := false
  /-- verdicts of the last ≤ 1,000 sub-multiframes since entry to IF_MF, newest first, true errored | 1,000 | 04 R103 | none -/
  subs : List Bool := []
  /-- E1_STATUS.MF_RESTARTS | 8 | 04 R110 | 0 -/
  mfRestarts : Nat := 0
  /-- E1_STATUS.OOF_COUNT | 16 | 04 R110 | 0 -/
  oofCount : Nat := 0
  /-- last posting second of each E1 event code, keyed by code | time | 04 R105 | none -/
  posted : Tab Nat := []
  deriving DecidableEq, Repr

/-- One second's results of a point (R137), held 10 s before they are added to bins (R139). -/
structure SecRes where
  sec : Nat := 0
  ses : Bool := false
  es : Bool := false
  eb : Nat := 0
  feSes : Bool := false
  feEs : Bool := false
  feEb : Nat := 0
  deriving DecidableEq, Repr

/-- A performance bin (R140, R142). -/
structure Bin where
  /-- BIN_START, seconds of the time counter | 48 | 05 R142 | 0 -/
  start : Nat := 0
  /-- NE_ES, NE_SES, NE_BBE, NE_UAS, FE_ES, FE_SES, FE_BBE, FE_UAS | 8 × 32 | 05 R142 | 0 -/
  counts : List Nat := [0, 0, 0, 0, 0, 0, 0, 0]
  /-- NE_EB | 32 | 05 R142 | 0 -/
  neEb : Nat := 0
  /-- FE_EB | 32 | 05 R142 | 0 -/
  feEb : Nat := 0
  /-- SUSPECT | 1 | 05 R140 | 0 -/
  suspect : Bool := false
  /-- thresholds whose PM_TCA this bin has posted | 4 | 05 R141 | 0 -/
  tca : BitVec 4 := 0
  deriving DecidableEq, Repr

/-- What a transmitted tributary carries by order of a point or of an unconnected position: its own signal, a maintenance
signal (R134, R135), or, in a Jersey slot, all-zero content (R189). -/
inductive TxSig where
  | normal | ais | lck | oci | unequipped | zeros
  deriving DecidableEq, Repr

/-- What a point at ROLE 2 does to the signals below its received signal and to its transmitted signal (R133, R134). -/
structure Actions where
  /-- AIS of the layer below replaces what is demultiplexed from it (for a TCM, ODU-AIS replaces the ODU) -/
  ais : Bool := false
  /-- the tributary slots that dMSIM alone makes carry ODU-AIS -/
  aisSlots : List Nat := []
  /-- BDI, RDI or A bit sent -/
  back : Bool := false
  /-- signal that MAINT orders on the transmitted signal -/
  sig : TxSig := .normal
  deriving DecidableEq, Repr

/-- The overhead bytes that a point at ROLE 2 writes beside its TTI and its parity bytes (R116–R118), each by its bits. -/
inductive OhField where
  /-- SM byte of row 1 column 10, of OTUC slice n − 1 or the only one: BEI, BDI, IAE -/
  | smByte (n : Nat)
  /-- third byte of PM or of a TCM level: BEI, BDI, STAT -/
  | pmByte
  /-- K2 bits 6–8, M0, M1, S1 -/
  | k2 | m0 | m1 | s1
  /-- C2, G1; V5 with its BIP-2 -/
  | c2 | g1 | v5
  /-- BIP-8 of SM, in OTUC slice n − 1 or the only one, or of PM or TCM; B1 or B3; byte n of B2 -/
  | bip (n : Nat)
  /-- E bit of a sub-multiframe, A bit; C bits recomputed -/
  | eBit | aBit | crc4
  /-- the layer's other overhead, which a layer sourced afresh sends as zero: RES, EXP, GCC, FTFL, OSMC and PM&TCM; D1–D12, E1,
  E2, F1, F2, F3, K3, N1, N2, K4 -/
  | afresh
  deriving DecidableEq, Repr

/-- The overhead that a reverse point sends with a frame (R113, R116–R118). -/
structure TxOh where
  /-- the byte of the transmitted TTI message that the frame carries, in every slice of an OTUCn (R116, R123) -/
  tti : Option Byte := none
  fields : List (OhField × Nat) := []
  sig : TxSig := .normal
  /-- the planes in whose copy the words that the point's engine writes, TTI and label, leave with P = 1 (R350) -/
  poison : List (Fin 2) := []
  deriving DecidableEq, Repr

/-- A monitored point (R112), keyed by type, index and level. -/
structure Point where
  /-- CTRL.ROLE | 2 | 05 R143 | 0 (Off) -/
  role : Nat := 0
  /-- CTRL.TIM_ACT | 1 | 05 R143 | 0 -/
  timAct : Bool := false
  /-- TIM_MODE | 2 | 05 R143 | 0 -/
  timMode : Nat := 0
  /-- E1_FRAMING | 2 | 05 R143 | 3 -/
  e1Framing : Nat := 3
  /-- EXP_PT | 8 | 05 R143 | 0 -/
  expPt : Nat := 0
  /-- MAINT | 2 | 05 R143 | 0 -/
  maint : Nat := 0
  /-- DEGM | 8 | 05 R143 | 7 -/
  degm : Nat := 7
  /-- SES_PCT | 8 | 05 R143 | 0 -/
  sesPct : Nat := 0
  /-- DEGTHR | 24 | 05 R143 | 0 -/
  degThr : Nat := 0
  /-- SET_INT in 0.1 s | 16 | 05 R143 | 25 -/
  setInt : Nat := 25
  /-- CLR_INT in 0.1 s | 16 | 05 R143 | 100 -/
  clrInt : Nat := 100
  /-- RECOVERY in s | 16 | 05 R143 | 30 -/
  recovery : Nat := 30
  /-- TCA_ES, TCA_SES, TCA_BBE, TCA_UAS | 16, 16, 32, 16 | 05 R143 | 0 -/
  tca : List Nat := [0, 0, 0, 0]
  /-- expected TTI, 64 bytes (a missing byte is 0) | 512 | 05 R143 | 0 -/
  expTti : List Byte := []
  /-- transmitted TTI, 64 bytes (a missing byte is 0) | 512 | 05 R143 | 0 -/
  txTti : List Byte := []
  /-- engine k of the slice that runs the point's function, none while ROLE is 0 | 4 | 05 R115, 12 R341 | none -/
  engine : Option Nat := none
  /-- detected states kept by the point itself, before its server's SF hides them | 24 | 05 R125 | 0 -/
  raw : BitVec 24 := 0
  /-- DEF_DET.DETECTED | 24 | 05 R145 | 0 -/
  det : BitVec 24 := 0
  /-- DEF_CUR.DECLARED | 24 | 05 R145 | 0 -/
  dec : BitVec 24 := 0
  /-- elapsed ns at the last change of each detected bit, or at entry to Settling when later | 24 times | 05 R128 | 0 -/
  changed : Tab Nat := []
  /-- DEF_CUR.MODE: in Settling | 1 | 05 R128 | 0 (Service) -/
  settling : Bool := false
  /-- elapsed ns at which the recovery timer last started | time | 05 R130 | 0 -/
  recStart : Nat := 0
  /-- cause of the last trigger | 3 | 05 R146 | 0 -/
  cause : Nat := 0
  /-- port whose group of causes 1 and 2 the point is in | 6 | 05 R146 | none -/
  group : Option Nat := none
  /-- STAT: accepted value, candidate, run | 3 each | 05 R122 | 001, none, 0 (DESIGN CHOICE 22: no value accepted reads as normal) -/
  stat : Nat := 1
  statCand : Nat := 1
  statRun : Nat := 0
  /-- TTI: accepted value (empty: none yet), candidate, run | 512 | 05 R122 | none -/
  tti : List Byte := []
  ttiCand : List Byte := []
  ttiRun : Nat := 0
  /-- PT, C2 or V5 label: accepted value (none yet), candidate, run | 8 | 05 R122 | none -/
  pt : Option Nat := none
  ptCand : Nat := 0
  ptRun : Nat := 0
  /-- MSI: accepted value (empty: none yet), candidate, run; one number a tributary slot, the TPN it names or 0 | 320 × 16 | 05 R122 | none -/
  msi : List Nat := []
  msiCand : List Nat := []
  msiRun : Nat := 0
  /-- consecutive frames with K2 bits 6–8 = 111 and ≠ 111 (MS), or E1 periods with few and enough zeros | 3 | 05 R125 | 0 -/
  aisRun : Nat := 0
  noAisRun : Nat := 0
  /-- consecutive frames with BDI, RDI or A set and clear | 3 | 05 R125 | 0 -/
  rdiRun : Nat := 0
  noRdiRun : Nat := 0
  /-- dDEG: consecutive bad and good seconds | 4 | 05 R127 | 0 -/
  badRun : Nat := 0
  goodRun : Nat := 0
  /-- the running second: near and far errored blocks | count | 05 R137 | 0 -/
  neEb : Nat := 0
  feEb : Nat := 0
  /-- the running second: a near-end, a far-end defect second | 1 | 05 R137 | 0 -/
  neDef : Bool := false
  feDef : Bool := false
  /-- consequent actions in force | record | 05 R133, R134 | none -/
  act : Actions := {}
  /-- the TTI message and the label that the point's functions last wrote into the insertion tables | 512, 8 | 12 R345, R351 | 0 -/
  wroteTti : List Byte := []
  wroteLabel : Nat := 0
  /-- seconds held before binning, newest first | ≤ 10 | 05 R139 | none -/
  held : List SecRes := []
  /-- in unavailable time | 1 | 05 R139 | 0 -/
  unavail : Bool := false
  /-- current and previous 15-minute bins, and the ended ones not yet closed, newest first | records | 05 R140 | empty -/
  cur15 : Bin := {}
  prev15 : Bin := {}
  ended15 : List Bin := []
  /-- current and previous 24-hour bins, and the ended ones not yet closed, newest first | records | 05 R140 | empty -/
  cur24 : Bin := {}
  prev24 : Bin := {}
  ended24 : List Bin := []
  deriving DecidableEq, Repr

/-- A created ODU (R147, R148, R178 section 0), keyed by ODU number. -/
structure Odu where
  /-- ODU_TYPE | 8 | 06 R178 | none created -/
  ty : Nat := 0
  /-- SERVER_KIND | 8 | 06 R178 | none created -/
  kind : Nat := 0
  /-- SERVER | 16 | 06 R178 | none created -/
  server : Nat := 0
  /-- PAYLOAD | 8 | 06 R178 | none created -/
  payload : Nat := 0
  /-- FLAGS: FLEX_GRAN, PFCS_TX, CHEC_CORR | 3 | 06 R178 | none created -/
  flags : Nat := 0
  /-- FLEX_TS | 16 | 06 R178 | none created -/
  flexTs : Nat := 0
  /-- TPN | 16 | 06 R178 | none created -/
  tpn : Nat := 0
  /-- GFP_PORT | 16 | 06 R178 | none created -/
  gfpPort : Nat := 0
  /-- TS_MAP as the list of its tributary slots | 320 | 06 R178 | none created -/
  ts : List Nat := []
  /-- GMP mapper: Cm last sent, and client bytes that wait for the next multiframe, ΣCnD | 14, 10 | 06 R152 | 0 -/
  cmTx : Nat := 0
  cndTx : Nat := 0
  /-- states of the x^43 + 1 scrambler of the payload areas that a packet ODU sends, and of the descrambler of those that it receives | 43 each | 06 R168 | 0 (DESIGN CHOICE 106) -/
  scr : BitVec 43 := 0
  descr : BitVec 43 := 0
  /-- bytes in the store of the GFP-F mapper of a packet ODU, and elapsed ns at which they were counted | count, time | 06 R168, 09 R264 | 0 -/
  gfpFill : Nat := 0
  gfpFillAt : Nat := 0
  /-- AMP: JC sent, and the JC that the demapper acts on | 2 each | 06 R154 | 0 -/
  jcTx : Nat := 0
  jcRx : Nat := 0
  /-- excess of a client beyond ±20 ppm that AMP has not yet justified, in 1 / (952 × 10^6) byte | signed | 06 R177 | 0 -/
  ampAcc : Int := 0
  /-- last accepted Cm | 14 | 06 R153 | 0 -/
  cm : Nat := 0
  /-- last accepted ΣCnD | 10 | 06 R153 | 0 -/
  cnd : Nat := 0
  /-- ODU_MAP_STATUS.JC_BAD | 1 | 06 R182 | 0 -/
  jcBad : Bool := false
  /-- ODU_MAP_STATUS.RATE_ALARM | 1 | 06 R182 | 0 -/
  rateAlarm : Bool := false
  /-- elapsed ns since which the client has been in range | time | 06 R177 | 0 -/
  inRange : Nat := 0
  /-- ODU_MAP_STATUS.JC_ERR | 8 | 06 R182 | 0 -/
  jcErr : Nat := 0
  /-- GFP_STATE: 0 not GFP, 1 HUNT, 2 PRESYNC, 3 SYNC | 2 | 06 R169 | 0 -/
  gfp : Nat := 0
  /-- fill of the AMP mapper's store in bytes | 32-byte store | 06 R154 | set-point 16 -/
  ampFill : Nat := 16
  /-- OPU4 multiframe on OMFI | record | 04 R100 | searching -/
  omfi : MfAlign := {}
  /-- last posting second of each event code | time | 06 R183 | none -/
  posted : Tab Nat := []
  deriving DecidableEq, Repr

/-- A create or delete of a tributary ODU that has passed its checks and waits for the server's frame (R151). -/
structure MapJob where
  odu : Nat
  /-- the command that waits -/
  job : Nat
  /-- the ODU that comes into being then; none for a delete -/
  make : Option Odu := none
  deriving DecidableEq, Repr

/-- A pointer interpreter with its generator (R158–R160). PSTATE: 1 NORM, 2 AIS, 3 LOP. -/
structure Ptr where
  /-- PSTATE | 2 | 06 R158 | 3, LOP (DESIGN CHOICE 23: the spec names no initial state; AIS and LOP both carry no offset) -/
  st : Nat := 3
  /-- current offset | 10 | 06 R158 | 0 -/
  off : Nat := 0
  /-- candidate new offset and its run of normal pointers | 10, 2 | 06 R158 | 0 -/
  cand : Nat := 0
  candRun : Nat := 0
  /-- consecutive AIS, invalid and NDF-enabled pointers | 4 each | 06 R158 | 0 -/
  aisRun : Nat := 0
  invRun : Nat := 0
  ndfRun : Nat := 0
  /-- frames since the last change of offset (saturating at 3) | 2 | 06 R158 | 3 -/
  sinceChange : Nat := 3
  /-- PTR_STATUS.INC, DEC | 8 each | 06 R182 | 0 -/
  inc : Nat := 0
  dec : Nat := 0
  /-- runs of pointers that are not the concatenation indication, AU-4s 2 to N in order | 4 each | 06 R159 | 0 -/
  concRuns : List Nat := []
  /-- generator: fill of the elastic store in bytes | 6 | 06 R160 | set-point, 24 for AU-4 and 8 otherwise -/
  fill : Nat := 24
  /-- generator: offset sent | 10 | 06 R160 | 0 (DESIGN CHOICE 23) -/
  txOff : Nat := 0
  /-- generator: frames since the last justification | count | 06 R160 | 4 -/
  genGap : Nat := 4
  /-- generator: NDF is due with the next frame (source changed) | 1 | 06 R160 | 0 -/
  ndfDue : Bool := false
  deriving DecidableEq, Repr

/-- A created VC-4 or VC-4-Nc (R157, R178 section 1), keyed by its first VC-4 number. -/
structure Vc4 where
  /-- PORT | 8 | 06 R178 | none created -/
  port : Nat := 0
  /-- AU4 | 8 | 06 R178 | none created -/
  au4 : Nat := 0
  /-- CONCAT | 8 | 06 R178 | none created -/
  concat : Nat := 1
  /-- STRUCT: opened to lower order | 1 | 06 R178 | none created -/
  struct : Bool := false
  /-- LO_SLOT | 7 | 06 R178 | none created -/
  loSlot : Nat := 0
  /-- TUG3 | 3 | 06 R178 | none created -/
  tug3 : BitVec 8 := 0
  /-- AU-4 pointer interpreter and generator | record | 06 R158 | LOP -/
  ptr : Ptr := {}
  /-- TU multiframe on H4 | record | 04 R101 | searching -/
  h4 : MfAlign := {}
  deriving DecidableEq, Repr

/-- A Damask-L entry of an opened VC-4: its TU pointers, C-12 functions and E1 mode, keyed by entry. -/
structure Lo where
  /-- E1_MODE | 8 | 06 R164 | 0 -/
  e1Mode : Nat := 0
  /-- TU-3 or TU-12 pointer interpreter and generator | record | 06 R158 | LOP -/
  ptr : Ptr := { fill := 8 }
  /-- C-12 mapper store fill in bits, as the last multiframe left it | 32-bit store | 06 R163 | set-point 16 -/
  mapFill : Nat := 16
  /-- E1 bits that have reached the mapper since its last multiframe | count | 06 R163 | 0 -/
  arrived : Nat := 0
  /-- fraction of a bit of the clock that drives the mapper in E1_MODE 3, in 2^-32 bit | 32 | 06 R174 | 0 -/
  mapPhase : Nat := 0
  /-- C1, C2 decided for the multiframe being sent | 2 | 06 R163 | 0 -/
  cBits : Nat := 0
  /-- state of the desynchroniser's loop filter; it is free | — | 06 R166 | 0 (DESIGN CHOICE 107) -/
  loop : Data := 0
  /-- fraction of a bit of the desynchroniser's oscillator, in 2^-32 bit | 32 | 06 R166 | 0 -/
  osc : Nat := 0
  /-- desynchroniser buffer fill in bits | 256-bit buffer | 06 R166 | set-point 128 -/
  desync : Nat := 128
  /-- pointer bits not yet leaked, signed | bits | 06 R166 | 0 -/
  leak : Int := 0
  /-- elapsed ns up to which they have been leaked | time | 06 R166 | 0 -/
  leakAt : Nat := 0
  /-- PTR_STATUS.DESYNC_SLIPS | 8 | 06 R182 | 0 -/
  slips : Nat := 0
  /-- PTR_STATUS.RATE_ALARM | 1 | 06 R182 | 0 -/
  rateAlarm : Bool := false
  /-- elapsed ns since which the client has been in range | time | 06 R177 | 0 -/
  inRange : Nat := 0
  /-- last posting second of each event code | time | 06 R183 | none -/
  posted : Tab Nat := []
  deriving DecidableEq, Repr

/-- A SAToP packet held in a jitter buffer (R172). -/
structure JbPkt where
  seq : BitVec 16
  l : Bool
  /-- its place in the circuit's blocks, counted in packets; none where it has no data or stands in the staging buffer -/
  place : Option Nat := none
  /-- its E1 data and its words with P = 1, where it stands in the staging buffer -/
  bytes : List Byte := []
  bad : List Nat := []
  deriving DecidableEq, Repr

/-- A SAToP circuit (R171–R175, R181), keyed by entry. -/
structure Circuit where
  /-- section 0 has created it | 1 | 06 R181 | 0 -/
  made : Bool := false
  /-- PAYLOAD_BYTES | 16 | 06 R181 | 256 -/
  payload : Nat := 256
  /-- JB_DEPTH in 125 µs | 16 | 06 R181 | 32 -/
  jb : Nat := 32
  /-- CLOCK | 8 | 06 R181 | 0 -/
  clock : Nat := 0
  /-- FLAGS: RTP, TS_RATE | 3 | 06 R181 | 0 -/
  flags : Nat := 0
  /-- FLOW_TAG | 16 | 06 R181 | 0 -/
  flowTag : Nat := 0
  /-- QUEUE | 12 | 06 R181 | 0 -/
  queue : Nat := 0
  /-- LOPS_SET, LOPS_CLR | 8 each | 06 R181 | 8 -/
  lopsSet : Nat := 8
  lopsClr : Nat := 8
  /-- RX_HDR_LEN | 8 | 06 R181 | 46 -/
  rxHdr : Nat := 46
  /-- RTP_PT | 7 | 06 R181 | 0 -/
  rtpPt : Nat := 0
  /-- RTP_SSRC | 32 | 06 R181 | 0 -/
  ssrc : Word := 0
  /-- TMPL_LEN | 8 | 06 R181 | 0 -/
  tmplLen : Nat := 0
  /-- TEMPLATE | 48 bytes | 06 R181 | 0 -/
  tmpl : List Byte := []
  /-- SATOP_STATUS.STATE: 1 filling, 2 playing | 2 | 06 R182 | filling on create -/
  st : Nat := 1
  /-- LOPS, which STATE shows as 3 | 1 | 06 R173 | 0 -/
  lops : Bool := false
  /-- SATOP_STATUS.L_RX, R_RX | 1 each | 06 R182 | 0 -/
  lRx : Bool := false
  rRx : Bool := false
  /-- blocks of 512 bytes of the jitter reserve that the circuit's jitter buffer holds, by number | ≤ 32 | 06 R175 | none -/
  blocks : List Nat := []
  /-- jitter buffer, in sequence order | SATOP_STATUS.LEVEL bytes | 06 R172 | empty -/
  buf : List JbPkt := []
  /-- sequence number of the next playout | 16 | 06 R172 | none until playout begins -/
  next : Option (BitVec 16) := none
  /-- last sequence number whose playout has begun | 16 | 06 R172 | none -/
  began : Option (BitVec 16) := none
  /-- instant of the next playout in ps of elapsed time | time | 06 R174 | 0 -/
  playAt : Nat := 0
  /-- state of the loop filter of CLOCK 0 or 1; it is free | — | 06 R174 | 0 (DESIGN CHOICE 107) -/
  loop : Data := 0
  /-- offset of the playout clock from 2,048 kbit/s, ppb | signed | 06 R174 | 0 -/
  dev : Int := 0
  /-- consecutive packets missing at playout | 4 | 06 R173 | 0 -/
  missRun : Nat := 0
  /-- consecutive packets arrived in sequence, and the last number seen | 4, 16 | 06 R173 | 0, none -/
  goodRun : Nat := 0
  lastSeq : Option (BitVec 16) := none
  /-- transmit sequence number | 16 | 06 R171 | 0 -/
  txSeq : BitVec 16 := 0
  /-- SATOP_LOSS, SATOP_BUFFER, SATOP_BAD: LOST, LATE, UNDERRUN, OVERRUN, MALFORMED, DUP | 16 each | 06 R182 | 0 -/
  lost : Nat := 0
  late : Nat := 0
  underrun : Nat := 0
  overrun : Nat := 0
  malformed : Nat := 0
  dup : Nat := 0
  /-- last posting second of each event code | time | 06 R183 | none -/
  posted : Tab Nat := []
  deriving DecidableEq, Repr

/-- The jitter reserve (R175). -/
structure Reserve where
  /-- REGION | 1 | 06 R181 | 0 (packet buffer) -/
  region : Nat := 0
  /-- SIZE, KiB or banks | 32 | 06 R181 | 0 -/
  size : Nat := 0
  /-- a pending cut: the new SIZE | 32 | 06 R175 | none -/
  cut : Option Nat := none
  deriving DecidableEq, Repr

/-- An armed swap (R199–R201). -/
structure Arm where
  /-- TSI_MASK | 2 | 07 R199 | — -/
  mask : Nat
  /-- armed tick, XC_H_AT_TICK and XC_L_AT_TICK | 32 | 07 R200 | — -/
  tick : Nat
  /-- COPY_BACK | 1 | 07 R199 | — -/
  copyBack : Bool
  /-- the command that waits for the swap | — | 07 R200 | — -/
  job : Nat
  /-- the tick has passed | 1 | 07 R201 | 0 -/
  swapping : Bool := false
  /-- TSIs of the arm whose positions are still changing: H_SWAPPING, L_SWAPPING | 2 | 07 R201 | 0 -/
  busy : Nat := 0
  /-- the tick number has passed the armed tick by a step (R204) | 1 | 07 R204 | 0 -/
  late : Bool := false
  /-- (table, position) pairs that have not yet changed page | — | 07 R201 | — -/
  left : List (Nat × Nat) := []
  deriving DecidableEq, Repr

/-- The cross-connect (chapter 07). -/
structure Xc where
  /-- connection words, keyed (page × 3 + table) × 8,192 + position; page 0 is A | 64 each | 07 R190 | all unconnected (DESIGN CHOICE 24) -/
  words : Tab Data := []
  /-- XC_STATUS.H_PHYS | 1 | 07 R207 | 0 -/
  hPhys : Fin 2 := 0
  /-- XC_STATUS.L_PHYS | 1 | 07 R207 | 0 -/
  lPhys : Fin 2 := 0
  /-- owner of each local slot: ODU number + 1, 0 free | 2,560 | 07 R185 | all free -/
  slots : Tab Nat := []
  /-- armed swaps and swaps in progress | ≤ 2 | 07 R200 | none -/
  arms : List Arm := []
  /-- XC_TICK_COUNT: number of the last tick | 32 | 07 R196 | 0 -/
  tick : Nat := 0
  /-- TICK_BASE | 32 | 07 R196 | 0 -/
  tickBase : Nat := 0
  /-- tick phase in force, µs | 10 | 07 R198 | 0 -/
  phase : Nat := 0
  /-- TICK_OWNER in force since the last commit | 1 | 14 R415 | 0 -/
  owner : Bool := false
  /-- a phase change waiting for the next tick | 10 | 07 R198 | none -/
  newPhase : Option Nat := none
  /-- T in ns before which the next tick may not fall, after a phase change: 1 ms after tick n | time | 07 R198 | none -/
  notBefore : Option Int := none
  /-- elapsed ns of the last tick | time | 07 R196 | 0 -/
  tickAt : Nat := 0
  /-- a worker takes its tick from the manager and has it | 1 | 15 R440 | 0 -/
  haveTick : Bool := false
  /-- tick number carried by the last TIME message | 32 | 15 R440 | 0 -/
  jyTick : Nat := 0
  deriving DecidableEq, Repr

/-- An accepted far-end protocol value of a selector (R219, R220). -/
structure FarReq where
  /-- request code, ODU byte 1 bits 1–4 or K1 bits 1–4 -/
  code : Nat := 0
  /-- requested signal of 8 bits, or K1 channel -/
  ch : Nat := 0
  /-- B bit (ODU), or K2 bit 5 (MSP) -/
  b : Bool := false
  /-- D bit (ODU) -/
  d : Bool := false
  deriving DecidableEq, Repr

/-- A linear protection selector (R209–R225), keyed 4,096 × SCHEME + SEL. -/
structure Selector where
  /-- WORK | 16 | 08 R223 | none configured -/
  work : Nat := 0
  /-- PROT | 16 | 08 R223 | none configured -/
  prot : Nat := 0
  /-- FLAGS.BIDIR, REVERTIVE, SNC_N, SD_EN | 1 each | 08 R223 | 0 -/
  bidir : Bool := false
  revertive : Bool := false
  sncN : Bool := false
  sdEn : Bool := false
  /-- HOLDOFF, 100 ms units | 16 | 08 R223 | 0 -/
  holdoff : Nat := 0
  /-- WTR, seconds | 16 | 08 R223 | 300 -/
  wtr : Nat := 300
  /-- SEL_STATUS.SELECTED: false W, true P | 1 | 08 R224 | W on create -/
  selected : Bool := false
  /-- want of R216, reached at the next frame boundary of the new source | 1 | 08 R216 | W -/
  want : Bool := false
  /-- engine k that runs the selector | 4 | 08 R222 | — -/
  engine : Option Nat := none
  /-- SEL_STATUS.CMD: stored command | 3 | 08 R217 | 0 -/
  cmd : Nat := 0
  /-- conditions as last seen: SF-W, SF-P, SD-W, SD-P | 1 each | 08 R213 | 0 -/
  condSf : Bool × Bool := (false, false)
  condSd : Bool × Bool := (false, false)
  /-- holdoff timers running: their start (W, P): HOLD_W, HOLD_P | time | 08 R214 | none -/
  holdW : Option Nat := none
  holdP : Option Nat := none
  /-- HOLDOFF with which the running timer of W and of P was started | 16 | 08 R223 | 0 -/
  holdForW : Nat := 0
  holdForP : Nat := 0
  /-- requests present: SF_W, SF_P, SD_W, SD_P | 1 each | 08 R214 | 0 -/
  sfW : Bool := false
  sfP : Bool := false
  sdW : Bool := false
  sdP : Bool := false
  /-- WTR running: its start, and the WTR it was started with | time | 08 R218 | none -/
  wtrStart : Option Nat := none
  wtrFor : Nat := 300
  /-- DNR | 1 | 08 R218 | 0 -/
  dnr : Bool := false
  /-- accepted far value (none yet), candidate as received and run | record, 32 | 08 R219 | none -/
  far : Option FarReq := none
  farCand : Word := 0
  farRun : Nat := 0
  /-- APS bytes, or K1 and K2, that are transmitted on W and P, the first byte on top | 32 | 08 R220 | none before the create -/
  apsTx : Word := 0
  /-- SEL_STATUS.FOP_PM, FOP_NR | 1 each | 08 R219 | 0 -/
  fopPm : Bool := false
  fopNr : Bool := false
  /-- elapsed ns since which the FOP_PM condition, and the FOP_NR mismatch, has been in its present state | time | 08 R219 | 0 -/
  pmSince : Nat := 0
  nrSince : Nat := 0
  pmNow : Bool := false
  nrNow : Bool := false
  deriving DecidableEq, Repr

/-- Copy states of R229, in the order of their codes. -/
inductive CopySt where
  | down | aligning | up | skew
  deriving DecidableEq, Repr

/-- One of the last units of a copy in standard mode, until its BIP-8 arrives (R231). -/
structure MStage where
  pos : Nat
  defect : Bool
  /-- the frame, where it is the later copy's; empty where it stands in the slot -/
  bytes : List Byte := []
  bad : List Nat := []
  deriving DecidableEq, Repr

/-- One copy of a merge group (R229). -/
structure MCopy where
  /-- EAST_STATE, WEST_STATE | 2 | 08 R229 | DOWN -/
  st : CopySt := .down
  /-- the copy has SF | 1 | 08 R229 | 0 -/
  sf : Bool := false
  /-- last SEQ or MFAS seen good | 32 | 08 R229 | none -/
  last : Option Nat := none
  /-- runs: good consecutive units, unexpected numbers, late and early units | 4 each | 08 R229 | 0 -/
  goodRun : Nat := 0
  oddRun : Nat := 0
  lateRun : Nat := 0
  earlyRun : Nat := 0
  /-- standard mode: the last units whose BIP-8 is still to come, newest first | ≤ 3 frames | 08 R231 | none -/
  stage : List MStage := []
  deriving DecidableEq, Repr

/-- A slot of the merge store (R231), keyed by unit position. -/
structure MSlot where
  /-- a unit stands here -/
  full : Bool := false
  /-- its place in the group's allocation, counted in units; none: in the staging buffers beside it -/
  place : Option Nat := none
  /-- bytes of the unit -/
  len : Nat := 0
  /-- the unit's bytes, and its words with P = 1, where it stands in the staging buffers -/
  bytes : List Byte := []
  bad : List Nat := []
  /-- CRC field of a native unit -/
  crc : Nat := 0
  /-- stored from the west copy -/
  west : Bool := false
  /-- the slot is good -/
  good : Bool := false
  /-- elapsed ns at the first arrival -/
  at_ : Nat := 0
  /-- a copy of east, of west has arrived bad -/
  badE : Bool := false
  badW : Bool := false
  deriving DecidableEq, Repr

/-- A merge group (R226–R239). -/
structure MGroup where
  /-- MODE: standard | 1 | 08 R238 | none created -/
  std : Bool := false
  /-- EAST, WEST | 16 each | 08 R238 | none created -/
  east : Nat := 0
  west : Nat := 0
  /-- FLAGS.PREFER, INSERT, MERGE | 1 each | 08 R238 | 0 -/
  prefer : Bool := false
  insert : Bool := false
  merge : Bool := false
  /-- MAX_SKEW in µs | 16 | 08 R238 | 1,000 -/
  maxSkew : Nat := 1000
  /-- units of the merge store the group holds | 64 KiB each | 08 R236 | none -/
  units : List Nat := []
  /-- pending cut: the UNITS that stay | 11 | 08 R237 | none -/
  cut : Option Nat := none
  /-- lag in force, µs, moving towards MAX_SKEW at 100 ppm | time | 08 R237 | MAX_SKEW -/
  lag : Nat := 1000
  /-- elapsed ns at which the lag last equalled `lag` | time | 08 R237 | 0 -/
  lagSince : Nat := 0
  /-- the two copies | records | 08 R229 | DOWN -/
  e : MCopy := {}
  w : MCopy := {}
  /-- reference copy is WEST | 1 | 08 R230 | 0 -/
  ref : Bool := false
  /-- playout runs | 1 | 08 R230 | 0 -/
  playing : Bool := false
  /-- OUT_AIS | 1 | 08 R230 | 0 -/
  outAis : Bool := false
  /-- stored slots | records | 08 R231 | none -/
  slots : Tab MSlot := []
  /-- next unit position to play out | 32 | 08 R232 | 0 -/
  nextUnit : Nat := 0
  /-- instant of the next playout in ps of elapsed time | time | 08 R230 | 0 -/
  nextAt : Nat := 0
  /-- state of the loop that paces the playout clock; it is free | — | 08 R230 | 0 (DESIGN CHOICE 107) -/
  loop : Data := 0
  /-- units that the reference has delivered and the playout clock has not yet advanced by | signed | 08 R230 | 0 -/
  behind : Int := 0
  /-- SEQ of the next block of the EAST output | 32 | 08 R228 | 0 on create -/
  insSeq : Nat := 0
  /-- the insert outputs carry different sources now | 1 | 08 R228 | 0 -/
  insDiff : Bool := false
  /-- MG_SKEW.SKEW, LATER | 14, 1 | 08 R244 | 0 -/
  skew : Nat := 0
  later : Bool := false
  deriving DecidableEq, Repr

/-- A word in the plane selector (R240). -/
structure PWord where
  /-- stream position: the cell number unwrapped over its 16 bits, and the word 0–7 -/
  cell : Nat
  w : Nat
  d : Data
  c : Byte
  p : Bool
  deriving DecidableEq, Repr

/-- A plane selector (R240–R243), keyed by port. -/
structure PSel where
  /-- words held from the plane ahead, oldest first: PSEL_FILL.WORDS | ≤ 64 | 08 R240 | none -/
  held : List PWord := []
  /-- PSEL_FILL.AHEAD | 1 | 08 R246 | 0 -/
  ahead : Fin 2 := 0
  /-- stream position after the last one forwarded | position | 08 R240 | 0 -/
  pos : Nat := 0
  /-- consecutive words that left unpaired | 13 | 08 R243 | 0 -/
  run : Nat := 0
  /-- a plane that has been resynchronised, and that the selector admits at the first cell number that both present | 2 | 08 R243 | none -/
  joining : Option (Fin 2) := none
  deriving DecidableEq, Repr

/-- A frame held in the packet buffer (R257, R258). -/
structure PFrame where
  /-- frame length L, destination address to FCS, bytes -/
  len : Nat
  /-- the packet-buffer cells that hold the frame without its FCS, in order -/
  cells : List Nat := []
  /-- elapsed ns at admission -/
  at_ : Nat := 0
  /-- its place among the frames of one cell boundary: INGRESS, or 65,536 + circuit (R258) -/
  key : Nat := 0
  deriving DecidableEq, Repr

/-- A packet queue (R259, R273, R275), keyed by queue number. -/
structure PQueue where
  /-- FLAGS.ENABLE | 1 | 09 R275 | 0 -/
  enable : Bool := false
  /-- FLAGS.SAMPLE_EN | 1 | 09 R275 | 0 -/
  sampleEn : Bool := false
  /-- LIMIT, cells | 32 | 09 R275 | 2,048 -/
  limit : Nat := 2048
  /-- RESERVE, cells | 32 | 09 R275 | 0 -/
  reserve : Nat := 0
  /-- K | 8 | 09 R275 | 0 -/
  k : Nat := 0
  /-- frames held, head first: Q_DEPTH, Q_CELLS follow | list | 09 R258 | empty -/
  frames : List PFrame := []
  /-- stopped by the urgent word stop service | 1 | 13 R395 | 0 -/
  stopped : Bool := false
  /-- samples of the running second: depth and head-of-line delay, newest first | list | 09 R273 | none -/
  samples : List (Nat × Nat) := []
  /-- frames tail-dropped in the running second | 32 | 09 R274 | 0 -/
  secDrops : Nat := 0
  /-- SUSPECT of the running second | 1 | 09 R273 | 0 -/
  suspect : Bool := false
  /-- second of the time counter in which sampling began or the last record was delivered | time | 09 R273 | 0 -/
  recSec : Nat := 0
  /-- elapsed ns of the last sample, plus 1 | time | 09 R273 | 0 -/
  sampAt : Nat := 0
  deriving DecidableEq, Repr

/-- A shaper (R261, R265, R276), keyed 4,096 × LEVEL + NODE. -/
structure Shaper where
  /-- FLAGS.RESET_MODE | 1 | 09 R276 | 0 -/
  resetFull : Bool := false
  /-- FLAGS.BORROW | 1 | 09 R276 | 0 -/
  borrow : Bool := false
  /-- RATE, millipackets per second | 40 | 09 R276 | 0 -/
  rate : Nat := 0
  /-- CAP, packets | 24 | 09 R276 | 1 -/
  cap : Nat := 1
  /-- PARENT | 16 | 09 R276 | 0xFFFF (detached) -/
  parent : Nat := 0xFFFF
  /-- WEIGHT | 8 | 09 R276 | 1 -/
  weight : Nat := 1
  /-- DEBT_LIMIT, packets | 16 | 09 R276 | 0 -/
  debt : Nat := 0
  /-- TARGET | 16 | 09 R276 | 0x0000 -/
  target : Nat := 0
  /-- credit, 1/65,536 packet, signed | Q_CREDIT, SCH_CREDIT show ÷ 256 | 09 R265 | 0 -/
  credit : Int := 0
  /-- ACC | 40 | 09 R265 | 0 -/
  acc : Nat := 0
  deriving DecidableEq, Repr

/-- A policer (R256, R277), keyed by policer number. -/
structure Policer where
  /-- FLAGS.RESET_MODE | 1 | 09 R277 | 0 -/
  resetFull : Bool := false
  /-- RATE | 40 | 09 R277 | 0 -/
  rate : Nat := 0
  /-- CAP | 24 | 09 R277 | 1 -/
  cap : Nat := 1
  /-- credit | signed | 09 R256 | 0 -/
  credit : Int := 0
  /-- ACC | 40 | 09 R265 | 0 -/
  acc : Nat := 0
  deriving DecidableEq, Repr

/-- A valid flow entry (R253, R275 section 1), keyed by entry number. -/
structure Flow where
  ingress : Nat := 0
  tagged : Bool := false
  vid : Nat := 0
  pcp : Nat := 0
  pcpAny : Bool := false
  flowTag : Nat := 0
  queue : Nat := 0
  policer : Nat := 0xFFFF
  valid : Bool := false
  deriving DecidableEq, Repr

/-- An ingress source's settings (R275 section 2), keyed by INGRESS. -/
structure Ingress where
  /-- MISS | 1 | 09 R275 | 0 -/
  miss : Nat := 0
  /-- MAX_FRAME | 16 | 09 R275 | 1,522 -/
  maxFrame : Nat := 1522
  /-- DEFAULT_QUEUE | 16 | 09 R275 | 0 -/
  defQueue : Nat := 0
  /-- PCP_OFFSET | 24 | 09 R275 | 0 -/
  pcpOff : Nat := 0
  /-- DEFAULT_POLICER | 16 | 09 R275 | 0xFFFF -/
  defPol : Nat := 0xFFFF
  deriving DecidableEq, Repr

/-- One port's gate windows (R268, R278 section 1). -/
structure Gates where
  /-- LINE_RATE, Mbit/s | 32 | 09 R278 | 0 -/
  lineRate : Nat := 0
  /-- START of each window | 8 × 32 | 09 R278 | one window at 0 -/
  starts : List Nat := [0]
  /-- MASK of each window | 8 × 8 | 09 R278 | 0xFF -/
  masks : List Nat := [0xFF]
  deriving DecidableEq, Repr

/-- A scheduler port's running state (R263, R268), keyed by port. -/
structure SchPort where
  /-- windows in force | record | 09 R268 | one window, mask 0xFF -/
  gates : Gates := {}
  /-- windows that take effect at the next cycle start, and elapsed ns of their command | record, time | 09 R272 | none -/
  next : Option (Gates × Nat) := none
  /-- elapsed ns at which the running gate cycle started | time | 09 R269 | 0 -/
  cycle : Nat := 0
  /-- subscriber whose turn it is, among the funded and among the borrowing | 9 each | 09 R263 | 0 -/
  turnF : Nat := 0
  turnB : Nat := 0
  /-- frames it has sent in this turn | 8 each | 09 R263 | 0 -/
  sentF : Nat := 0
  sentB : Nat := 0
  /-- elapsed ns at which the previous frame has finished at the pacing rate | time | 09 R264 | 0 -/
  freeAt : Nat := 0
  deriving DecidableEq, Repr

/-- The packet path (chapter 09). -/
structure Pkt where
  queues : Tab PQueue := []
  shapers : Tab Shaper := []
  policers : Tab Policer := []
  /-- flow table | 65,536 entries | 09 R253 | all invalid -/
  flows : Tab Flow := []
  ingress : Tab Ingress := []
  sch : Tab SchPort := []
  /-- GATE_CFG section 0 in force: REF, TICK_PHASE, GATE_PHASE | 1, 16, 32 | 09 R278 | 0 -/
  ref : Nat := 0
  tickPhase : Nat := 0
  gatePhase : Nat := 0
  /-- REF and GATE_PHASE that take effect at the next cycle start, and elapsed ns of their command | — | 09 R272 | none -/
  nextRef : Option (Nat × Nat × Nat) := none
  /-- local, remote fault received now, keyed by port | 1 each | 09 R251 | 0 -/
  locFault : Tab Bool := []
  remFault : Tab Bool := []
  /-- elapsed ns of the last 8 ns shaper update | time | 09 R265 | 0 -/
  updated : Nat := 0
  deriving DecidableEq, Repr

/-- A timing reference (R282–R293, R312 section 0), keyed by index. RSTATE: 0 OFF, 1 FAILED, 2 WTR, 3 AVAILABLE. -/
structure TRef where
  /-- FLAGS.ENABLE, TYPE (1PPS), QL_SRC | 1 each | 10 R312 | 0 -/
  enable : Bool := false
  pps : Bool := false
  qlSrc : Bool := false
  /-- PRIO | 8 | 10 R312 | 0 -/
  prio : Nat := 0
  /-- QL of the command | 4 | 10 R312 | 0xF -/
  ql : Nat := 0xF
  /-- BW, mHz | 16 | 10 R312 | 0 -/
  bw : Nat := 0
  /-- REF_FREQ, Hz | 32 | 10 R312 | 0 -/
  freq : Nat := 0
  /-- SOFT_PPB, HARD_PPB, DRIFT_PPBS | 32, 32, 16 | 10 R312 | 4,000, 9,200, 50 -/
  soft : Nat := 4000
  hard : Nat := 9200
  drift : Nat := 50
  /-- WTR, s | 16 | 10 R312 | 300 -/
  wtr : Nat := 300
  /-- REF_DELAY, ns signed | 32 | 10 R312 | 0 -/
  delay : Int := 0
  /-- STEER_TIMEOUT, s | 8 | 10 R312 | 10 -/
  steerTo : Nat := 10
  /-- REF_STATUS.RSTATE | 2 | 10 R287 | 0 -/
  st : Nat := 0
  /-- REF_STATUS.FAIL_CAUSE | 3 | 10 R315 | 0 -/
  cause : Nat := 0
  /-- REF_STATUS.SOFT_WARN, DISPUTED, ACTIVE | 1 each | 10 R315 | 0 -/
  softWarn : Bool := false
  disputed : Bool := false
  active : Bool := false
  /-- signal fail: computed from the port (Dev.refSf), so this field keeps its reset value | 1 | 10 R284 | 0 -/
  sf : Bool := false
  /-- accepted S1 QL (QL_SRC 1), candidate and run | 4, 4, 4 | 10 R289 | 0xF, 0 -/
  s1 : Nat := 0xF
  s1Cand : Nat := 0xF
  s1Run : Nat := 0
  /-- OFFSET and DRIFT in ppt and ppt/s, none until measured | 32 signed | 10 R285 | none -/
  offset : Option Int := none
  driftM : Option Int := none
  /-- OFFSETs of the last DRIFT interval, newest first, each with its elapsed ns; and the phases, in ns, of the last 16 pulses
  of a 1PPS reference, newest first | time and 32 signed, 32 signed | 10 R285 | none, none -/
  offs : List (Nat × Int) := []
  pulses : List Int := []
  /-- it has been AVAILABLE since its last enable | 1 | 10 R287 | 0 -/
  been : Bool := false
  /-- elapsed ns at entry to WTR | time | 10 R287 | 0 -/
  wtrSince : Nat := 0
  /-- the WTR timer is Q, not WTR | 1 | 10 R287 | 0 -/
  wtrQ : Bool := false
  deriving DecidableEq, Repr

/-- A clock or frame-pulse output (R307–R310, R312 section 2), keyed 0–5. -/
structure TOut where
  /-- MODE | 8 | 10 R312 | 0 -/
  mode : Nat := 0
  /-- FLAGS: SQUELCH, INVERT | 3 | 10 R312 | 0 -/
  flags : Nat := 0
  /-- FREQ, Hz | 32 | 10 R312 | 0 -/
  freq : Nat := 0
  /-- WIDTH, ns | 32 | 10 R312 | 0 -/
  width : Nat := 0
  /-- OFFSET, ns | 32 | 10 R312 | 0 -/
  offset : Nat := 0
  /-- ns by which the output's rising edge lies after its aligned phase: FPO_PHASE for FPO0 | signed | 10 R309 | 0 -/
  phase : Int := 0
  deriving DecidableEq, Repr

/-- A pending output alignment (R309, R314). -/
structure Realign where
  /-- output mask -/
  mask : Nat
  /-- elapsed ns before which no second boundary counts (1 ms after execution) -/
  notBefore : Nat
  /-- the TSU_REALIGN that waits; none for a section 2 change -/
  job : Option Nat
  deriving DecidableEq, Repr

/-- The TSU (chapter 10). STATE: 0 FREE_RUN, 1 ACQUIRING, 2 LOCKED, 3 HOLDOVER, 4 LOST. -/
structure Tsu where
  /-- time counter seconds | 48 | 10 R303 | 0 -/
  sec : BitVec 48 := 0
  /-- time counter nanoseconds, 0–999,999,999 | 30 | 10 R303 | 0 -/
  ns : Nat := 0
  /-- elapsed-time base in ns (unbounded) | time | 10 R304 | 0 -/
  elapsed : Nat := 0
  /-- TIME_SEC_LO, TIME_SEC_HI, TIME_NS: latched copies | 48, 30 | 10 R315 | 0 -/
  capSec : BitVec 48 := 0
  capNs : Nat := 0
  refs : Tab TRef := []
  outs : Tab TOut := []
  realign : List Realign := []
  /-- global settings of section 1: MODE, REVERTIVE, QL_EN, HO_EN, FORCE_REF, OWN_QL, DISPUTE_PPB, HOLDOVER_MAX | 2, 1, 1, 1, 8, 4, 16, 32 | 10 R312 | 0, 0, 1, 1, 0, 0xB, 100, 86,400 -/
  mode : Nat := 0
  revertive : Bool := false
  qlEn : Bool := true
  hoEn : Bool := true
  forceRef : Nat := 0
  ownQl : Nat := 0xB
  dispute : Nat := 100
  hoMax : Nat := 86400
  /-- TSU_STATE.STATE | 3 | 10 R298 | 0 FREE_RUN -/
  st : Nat := 0
  /-- selected reference, none shows 0x7F | 7 | 10 R315 | none -/
  sel : Option Nat := none
  /-- SEL_QL last shown | 4 | 10 R315 | 0xF -/
  selQl : Nat := 0xF
  /-- history of R299, newest first, ppt | ≤ 300, and two more (log entry 120) | 10 R299 | empty -/
  hist : List Int := []
  /-- elapsed ns at which the running history second began; of reference 69 the sum of STEER_PPT over it in ppt × ns, up to
  elapsed ns `meanAt` | time, signed, time | 10 R299 | 0, 0, 0 -/
  histAt : Nat := 0
  meanSum : Int := 0
  meanAt : Nat := 0
  /-- elapsed ns of entry to the present state | time | 10 R298 | 0 -/
  since : Nat := 0
  /-- elapsed ns of the last entry to LOCKED | time | 11 R325 | 0 -/
  lockedAt : Nat := 0
  /-- frequency term in ppt | signed | 10 R300 | 0 -/
  freqTerm : Int := 0
  /-- frequency term of the last whole second | signed | 10 R300 | 0 -/
  lastTerm : Int := 0
  /-- phase error at the detector, ns: TSU_PHASE | signed | 10 R315 | 0 -/
  phaseErr : Int := 0
  /-- elapsed ns since which the phase error has been inside the lock window, outside four windows | time | 10 R298 | 0 -/
  inSince : Nat := 0
  outSince : Nat := 0
  /-- TSU_STATE.DCO_CLAMP | 1 | 10 R300 | 0 -/
  clamp : Bool := false
  /-- last STEER_PPT and its elapsed time | 32 signed, time | 10 R302 | 0 -/
  steer : Int := 0
  steerAt : Nat := 0
  deriving DecidableEq, Repr

/-- A CAL_RUN in progress (R324–R328). -/
structure CalRun where
  set : Nat
  point : Nat
  window : Nat
  job : Nat
  /-- elapsed ns and temperature at the start -/
  start : Nat
  temp0 : Int
  /-- the DCO value and the temperature summed over the run in units × ns, up to elapsed ns `mark` -/
  sumDco : Int := 0
  sumTemp : Int := 0
  mark : Nat
  deriving DecidableEq, Repr

/-- A correction point (R317). -/
structure CalPoint where
  temp : Int := 0
  value : Int := 0
  deriving DecidableEq, Repr

/-- The calibration block (chapter 11); CAL_CFG is in the register file. -/
structure Cal where
  /-- correction sets: their points in order, NPOINTS their number | 4 × 8 × 48 | 11 R317 | NPOINTS 0 -/
  sets : Tab (List CalPoint) := []
  /-- ACTIVE_SET | 2 | 11 R331 | 0 -/
  active : Nat := 0
  /-- C in force: CAL_CORR | 32 signed | 11 R318 | 0 -/
  corr : Int := 0
  /-- CAL_STATUS.TEMP | 16 signed | 11 R332 | 0 -/
  temp : Int := 0
  /-- CAL_STATUS.SRC_IN_USE: I2C | 1 | 11 R332 | 0 -/
  i2c : Bool := false
  /-- CAL_STATUS.SRC_FAIL | 1 | 11 R322 | 0 -/
  srcFail : Bool := false
  /-- consecutive failed I2C reads | 3 | 11 R322 | 0 -/
  fails : Nat := 0
  /-- seconds of the elapsed-time base in which C was last recomputed, and in which the source was last read | time | 11 R319, R321 | 0, none -/
  corrSec : Nat := 0
  readSec : Option Nat := none
  /-- run in progress | record | 11 R326 | none -/
  run : Option CalRun := none
  deriving DecidableEq, Repr

/-- A Twill engine's own running state (R334–R353), keyed by global number g. -/
structure Engine where
  /-- message registers of the taps are occupied (R346) | 1 | 12 R346 | 0 -/
  tapBusy : Bool := false
  deriving DecidableEq, Repr

/-- A move of an engine's functions in progress (R353). -/
structure Move where
  slice : Nat
  src : Nat
  dst : Nat
  job : Nat
  deriving DecidableEq, Repr

/-- A package (R337). -/
structure Pkg where
  /-- PKG_ID, VERSION | 32 each | 12 R337 | the boot image's -/
  id : Word := 0
  ver : Word := 0
  /-- CAT_REV | 8 | 12 R337 | 1 -/
  cat : Nat := 1
  deriving DecidableEq, Repr

/-- The HDLC receiver of a DCC monitor in one plane: flags 0x7E and zero-bit deletion (R363). -/
structure Hdlc where
  /-- a flag has been seen since the last abort -/
  inFrame : Bool := false
  /-- ones received in a row, up to 7 -/
  ones : Nat := 0
  /-- bits since the last flag after zero-bit deletion, the last first -/
  bits : List Bool := []
  deriving DecidableEq, Repr

/-- A DCC monitor (R361–R363), keyed by instance. -/
structure Dcc where
  port : Nat := 0
  channel : Nat := 0
  crcN : Nat := 0
  crcS : Nat := 0
  engine : Option Nat := none
  /-- SUSPECT of the running second -/
  suspect : Bool := true
  made : Bool := false
  /-- the HDLC receivers of the copies in planes N and S -/
  rxN : Hdlc := {}
  rxS : Hdlc := {}
  deriving DecidableEq, Repr

/-- An OP 1 load of a package into a plane in progress (R355): what it writes, and the command that waits. -/
structure Loading where
  plane : Fin 2
  job : Nat
  pkg : Pkg
  bytes : List Byte
  deriving DecidableEq, Repr

/-- Packages, budgets, moves and monitors (chapter 12). -/
structure Twill where
  engines : Tab Engine := []
  /-- BUDGET of each slice | 14 | 12 TW_BUDGET | 16,000 -/
  budgets : Tab Nat := []
  moves : List Move := []
  /-- loaded package of plane N, of plane S, staged package | records | 12 R338 | none before the boot loads the planes -/
  pkgN : Option Pkg := none
  pkgS : Option Pkg := none
  staged : Option Pkg := none
  /-- an OP 1 load in progress | record | 12 R355 | none -/
  loading : Option Loading := none
  dcc : Tab Dcc := []
  deriving DecidableEq, Repr

/-- A message of the Jersey control sub-channel (R431), as sent. -/
structure JyMsg where
  /-- TYPE | 8 -/
  ty : Nat
  /-- MSEQ | 16 -/
  mseq : BitVec 16 := 0
  /-- payload -/
  payload : List Byte := []
  /-- the place of its class in the order of R431, 1–5 (the model's own) -/
  cls : Nat := 1
  /-- elapsed ns at which it was last sent, R431 -/
  sentAt : Nat := 0
  deriving DecidableEq, Repr

/-- A Jersey link (R428–R442), keyed 0–7. LSTATE: 0 OFF, 1 ACQUIRE, 2 ALIGN, 3 HELLO, 4 BOOT, 5 MISMATCH, 6 BOOT_FAIL, 7 RUN. -/
structure JyLink where
  /-- JY_LINK_STATUS.LSTATE | 3 | 15 R432 | 0 OFF -/
  st : Nat := 0
  /-- elapsed ns at entry to ACQUIRE | time | 15 R432 | 0 -/
  acqSince : Nat := 0
  /-- the receiver is in frame | 1 | 15 R429 | 0 -/
  inFrame : Bool := false
  /-- consecutive frames with an errored MARKER or HCRC | 3 | 15 R429 | 0 -/
  bad : Nat := 0
  /-- the search for MARKER: byte positions of its open candidates, and the position from which the scanner tests | 2 positions, position | 15 R429 | none, 0 -/
  cands : List Nat := []
  scanFrom : Nat := 0
  /-- byte position of the frame with which the receiver came into frame | position | 15 R429 | 0 -/
  framePos : Nat := 0
  /-- JY_LINK_STATUS.RDI_RX | 1 | 15 R444 | 0 -/
  rdi : Bool := false
  /-- JY_LINK_STATUS.PEER | 8 | 15 R444 | 0 -/
  peer : Nat := 0
  /-- JY_LINK_STATUS.BOOT_REASON | 8 | 15 R444 | 0 -/
  bootReason : Nat := 0
  /-- elapsed ns of the last HELLO sent | time | 15 R432 | 0 -/
  helloAt : Nat := 0
  /-- this link's own boot transfer runs, and since when | time | 15 R433 | none -/
  bootAt : Option Nat := none
  /-- D of R439 in ns: JY_LINK_DELAY | 16 | 15 R444 | 0 -/
  delay : Nat := 0
  /-- MSEQ of the next message to send, and the next expected | 16 each | 15 R431 | 0 -/
  txSeq : BitVec 16 := 0
  rxSeq : BitVec 16 := 0
  /-- messages sent and not acknowledged, oldest first | list | 15 R431 | none -/
  unacked : List JyMsg := []
  /-- messages sent that no frame carries yet, and the bytes still to go of the one that a frame has begun | list, bytes | 15 R431 | none -/
  txQ : List JyMsg := []
  txCur : List Byte := []
  /-- FRAME of the next frame sent, and elapsed ns at which the MARKER of the last one left | 16, time | 15 R428 | 0, none -/
  txFrame : BitVec 16 := 0
  frameAt : Option Nat := none
  /-- number of the last tick for which a frame with TICK was due (the manager) | 32 | 15 R428 | 0 -/
  txTick : Nat := 0
  /-- the last 58 bits that the scrambler sent | 58 | 15 R428 | 0 (DESIGN CHOICE 132: the manual states none) -/
  scr : BitVec 58 := 0
  /-- elapsed ns of the last advance of ACK_SEQ, or of the first outstanding message | time | 15 R431 | 0 -/
  ackAt : Nat := 0
  /-- messages that wait for CREDIT, in the class order of R431 | list | 15 R431 | none -/
  waiting : List JyMsg := []
  /-- CREDIT last received, bytes | 22 | 15 R431 | 65,536 -/
  credit : Nat := 65536
  /-- previous COUNT of each connected region, keyed by its first slot | 16 each | 15 R430 | 0 -/
  counts : Tab Nat := []
  /-- worker: elapsed ns at which the last TICK frame places the manager's tick, before D is taken off | time | 15 R440 | none -/
  tickMark : Option Nat := none
  /-- worker: its time counter in ns at the arrival of the MARKER of that frame | time | 15 R440 | none -/
  tickTime : Option Int := none
  /-- worker: its time counter less the manager's, ns, as the last TIME message since RUN was entered left it | time | 15 R440 | none -/
  timeDiff : Option Int := none
  /-- slip count of the ingress edge queue at the last frame | 32 | 15 R429 | 0 -/
  slipSeen : Nat := 0
  /-- worker: time of a JY_LINK_DOWN that waits for the link | 48, 30 | 15 R442 | none -/
  downEv : Option (BitVec 48 × Nat) := none
  /-- worker: events and statistics entries that could not be sent | count | 15 R442 | 0 -/
  lostEv : Nat := 0
  lostSt : Nat := 0
  deriving DecidableEq, Repr

/-- The Jersey block (chapter 15); JY_BUILD, JY_RMT_ADDR and JY_RMT_DATA are in the register file. -/
structure Jersey where
  links : Tab JyLink := []
  /-- JY_RMT_CTRL.BUSY, DENIED | 1 each | 15 R444 | 0 -/
  rmtBusy : Bool := false
  rmtDenied : Bool := false
  /-- the remote access in progress is a read | 1 | 15 R437 | 0 -/
  rmtRead : Bool := false
  /-- the READ that follows the WRITE in progress | 1 | 15 R437 | 0 -/
  rmtAlso : Bool := false
  /-- one further access queued by the GO rule: read, write bits | 2 | 14 R410 | none -/
  rmtNext : Option (Bool × Bool) := none
  /-- worker: bytes of the boot image received in boot blocks | ≤ 1 MiB | 15 R433 | none -/
  bootBuf : List Byte := []
  /-- OUT_QL carried by the last TIME message (reference 68) | 4 | 15 R440 | 0xF -/
  ql : Nat := 0xF
  deriving DecidableEq, Repr

/-- The supplies, the Felt governor and the warm resets (chapter 17); PWR_CFG and RST_CTRL are in the register file. -/
structure Power where
  /-- PWR_STATUS.SSTATE: 0 NORMAL, 1 WARN, 2 SAG, 3 RECOVER | 2 | 17 R483 | 0 -/
  st : Nat := 0
  /-- PWR_STATUS.WARN_PIN | 1 | 17 R490 | 0 -/
  warnPin : Bool := false
  /-- PWR_STATUS.FILLER | 1 | 17 R490 | 0 -/
  filler : Bool := false
  /-- PWR_STATUS.KEEP_AT_RISK | 1 | 17 R486 | 0 -/
  keepRisk : Bool := false
  /-- PWR_STATUS.INRUSH | 1 | 17 R475 | 1 -/
  inrush : Bool := true
  /-- PWR_STATUS.VCORE, mV | 10 | 17 R490 | 0 -/
  vcore : Nat := 0
  /-- PWR_MON.TCELL, ps | 12 | 17 R490 | 0 -/
  tcell : Nat := 0
  /-- PWR_MON.IEST, 0.1 A | 12 | 17 R490 | 0 -/
  iEst : Nat := 0
  /-- I_CEIL and I_FLOOR, mA | — | 17 R474 | 0 -/
  ceil : Int := 0
  floor : Int := 0
  /-- elapsed ns at entry to RECOVER | time | 17 R483 | 0 -/
  recSince : Nat := 0
  /-- RST_STATUS.BUSY: the warm reset that runs (block, instance) | 8, 6 | 17 R489 | none -/
  reset : Option (Nat × Nat) := none
  /-- one further warm reset queued (R410) | 1 | 14 R410 | false -/
  resetNext : Bool := false
  /-- RST_STATUS.DENIED, LAST_BLOCK, LAST_INST | 1, 8, 6 | 17 R490 | 0 -/
  denied : Bool := false
  lastBlock : Nat := 0
  lastInst : Nat := 0
  deriving DecidableEq, Repr

/-- What the security processor serves or holds in its order of service (R504). -/
inductive SecWork where
  | attest (nonce : List Byte)
  | keyAdmin (body : List Byte)
  | stage (length : Nat)
  deriving DecidableEq, Repr

/-- A command that waits for, or is in, service of the security processor. -/
structure SecJob where
  job : Nat
  work : SecWork
  /-- host address of the bulk buffer -/
  addr : Data := 0
  /-- the report's bytes 0–511 as they are at the start of the service (R504, R506) -/
  snap : List Byte := []
  deriving DecidableEq, Repr

/-- The security processor and OTP (chapter 18). OTP and the counter outlive POR_N. -/
structure Sec where
  /-- owner slot states: 0 EMPTY, 1 ACTIVE, 2 REVOKED | 4 × 2 | 18 R500 | EMPTY (DESIGN CHOICE 12: OTP content is not reset) -/
  slotSt : List Nat := [0, 0, 0, 0]
  /-- owner slot hashes, 64 bytes each | 4 × 512 | 18 R500 | zero (DESIGN CHOICE 12) -/
  slotHash : List (List Byte) := [[], [], [], []]
  /-- anti-rollback counter: value of the last valid record | 64 | 18 R499 | 0 (DESIGN CHOICE 12) -/
  counter : Nat := 0
  /-- counter records used, record 0 included | 128 | 18 R499 | 1 (DESIGN CHOICE 12) -/
  used : Nat := 1
  /-- SEC_BOOT_STATUS.BOOTED, SLOT, REASON_A, REASON_B | 1, 1, 4, 4 | 18 R508 | 0 -/
  booted : Bool := false
  slot : Nat := 0
  reasonA : Nat := 0
  reasonB : Nat := 0
  /-- SVN and IMG_VERSION of the booted image | 64, 32 | 18 R493 | 0 -/
  svn : Nat := 0
  imgVer : Nat := 0
  /-- the whole booted image, header to the last signature block (the image store) | 640 KiB | 18 R495 | empty -/
  image : List Byte := []
  /-- header and code of the packages held by plane N, plane S and the staging slot, for their measurements | ≤ 16,448 bytes each | 18 R498 | empty -/
  pkgBytesN : List Byte := []
  pkgBytesS : List Byte := []
  pkgBytesStage : List Byte := []
  /-- SEC_CHALLENGE: number of the random draw in force | 256 random bits | 18 R503 | draw 0 (free value) -/
  chal : Nat := 0
  /-- the command in service, and those that wait, oldest first | records | 18 R504 | none -/
  service : Option SecJob := none
  waiting : List SecJob := []
  /-- a warm reset waits for the KEY_ADMIN in service | 1 | 17 R489 | false -/
  resetAfter : Bool := false
  deriving DecidableEq, Repr

/-- The configuration CRC (R412–R415); CFG_CRC_REF is in the register file. -/
structure RegCrc where
  /-- CFG_CRC_LAST | 32 | 14 R413 | 0 -/
  last : Word := 0
  /-- CFG_STATUS.BLOCKS | 18 | 14 R413 | 0 -/
  blocks : BitVec 18 := 0
  /-- CFG_STATUS.BLOCKS_VALID | 1 | 14 R414 | 0 -/
  blocksValid : Bool := false
  /-- CFG_STATUS.MISMATCH | 1 | 14 R413 | 0 -/
  mismatch : Bool := false
  /-- CFG_STATUS.COMMIT_BUSY | 1 | 14 R414 | 0 -/
  busy : Bool := false
  /-- a further commit pass is queued (R410) | 1 | 14 R410 | 0 -/
  again : Bool := false
  /-- block values stored at the last commit | 18 × 32 | 14 R413 | none -/
  stored : List Word := []
  /-- the previous pass mismatched | 1 | 14 R413 | 0 -/
  bad : Bool := false
  /-- writes to RWC fields that the matrix holds back during a commit pass, oldest first (2^26 × master + BAR0 offset,
  value) | list | 14 R414 | none -/
  heldBack : List (Nat × Word) := []
  deriving DecidableEq, Repr

/-- A table window's status (R417, R207). -/
structure Window where
  /-- stored check field of the last word read | 8 | 14 TBL_CHK, 07 XC_TBL_CHK | 0 -/
  check : Byte := 0
  /-- POISON | 1 | 14 TBL_CHK, 07 XC_TBL_CHK | 0 -/
  poison : Bool := false
  /-- DENIED | 1 | 14 TBL_CTRL | 0 -/
  denied : Bool := false
  /-- data registers of the XC window (GLOBAL's are RW registers) | 64 | 07 XC_TBL_LO, XC_TBL_HI | 0 -/
  data : Data := 0
  deriving DecidableEq, Repr

/-- A bus master's ordering state (R421, R423), keyed by master. -/
structure Master where
  /-- MX_MASTER.SLOTS | 6 | 14 R421 | 0 -/
  slots : Nat := 0
  /-- MX_MASTER.DRAINING | 1 | 14 R423 | 0 -/
  draining : Bool := false
  /-- MX_MASTER.HELD | 1 | 14 R422 | 0 -/
  held : Bool := false
  deriving DecidableEq, Repr

/-- A write to an engine's input queue that waits at its master for a grant of the bus matrix (R420–R422). -/
structure MxReq where
  master : Nat
  /-- the engine -/
  target : Fin 256
  /-- class of R420 -/
  cls : Nat
  /-- grants of class 2 at its target that it has waited through -/
  aged : Nat := 0
  /-- held back for a cycle (R422) -/
  held : Bool := false
  /-- the message that it writes -/
  item : QItem := {}
  deriving DecidableEq, Repr

/-- The arbiters of the bus matrix (R420–R422). -/
structure Matrix where
  /-- requests that wait, oldest first | list | 14 R420 | none -/
  waiting : List MxReq := []
  /-- master that the last grant of a class went to, plus 1, keyed 8 × target + class | 5 each | 14 R420 | 0 -/
  turn : Tab Nat := []
  deriving DecidableEq, Repr

/-- A command that has executed and whose completion is still to be posted (RING_STATUS.OUTSTANDING counts them). -/
structure Job where
  id : Nat
  /-- OPCODE of the descriptor -/
  op : Nat := 0
  desc : Desc
  /-- the device that executes it, 0 this one -/
  device : Nat := 0
  deriving DecidableEq, Repr

/-- The part of a ring that its registers do not hold (R369–R371, R393, R399), keyed 0–10. -/
structure Ring where
  /-- PHASE of the next entry | 1 | 13 R371 | 1 -/
  phase : Bool := true
  /-- RING_STATUS.FETCH_STOP | 1 | 13 R398 | 0 -/
  fetchStop : Bool := false
  /-- entries discarded since the previous loss notice | 32 | 13 R388 | 0 -/
  lost : Nat := 0
  /-- elapsed ns at which each unread entry was written, oldest first | times | 13 R393 | none -/
  unread : List Nat := []
  /-- an MSI-X message has been sent since the last CI write | 1 | 13 R393 | 0 -/
  sent : Bool := false
  deriving DecidableEq, Repr

/-- A completion entry (R383), before it is laid out in bytes. -/
structure Completion where
  opcode : Nat
  status : Nat
  tag : BitVec 16
  seq : Word
  body : List Byte
  resKind : Nat := 0
  resPart : Nat := 0xFF
  device : Nat := 0
  resId : Nat := 0
  sec : BitVec 48
  ns : Nat
  ring : Nat
  phase : Bool
  deriving DecidableEq, Repr

/-- A Jersey frame as it is sent (R428, R430, R431): FRAME, TIMING, ACK_SEQ, CREDIT, the 396 bytes of the message stream, and for
each connection its first slot, its slots and the ODU bytes that it carries. -/
structure JySent where
  frame : BitVec 16
  timing : BitVec 16
  ack : BitVec 16
  credit : BitVec 16
  stream : List Byte
  regions : List (Nat × Nat × List Byte)
  deriving DecidableEq, Repr

/-- What the device has sent out of itself: the model's record of its writes to host memory, its messages and the
signals that leave it, newest first. -/
inductive Out where
  /-- a completion entry in slot `slot` of ring `ring` -/
  | completion (ring slot : Nat) (c : Completion)
  /-- an event entry (R385): ring, slot, code, device, phase, ESEQ, seconds, nanoseconds, ARGS -/
  | event (ring slot code device : Nat) (phase : Bool) (eseq : Word) (sec : BitVec 48) (ns : Nat) (args : List Byte)
  /-- a statistics entry (R390): slot, device, phase, SSEQ, 56-byte body -/
  | stats (slot device : Nat) (phase : Bool) (sseq : Word) (body : List Byte)
  /-- an MSI-X message of a vector: the address and the data of its table entry -/
  | msix (vector : Nat) (addr : Data) (data : Word)
  /-- a write of bytes to host memory (dump, result body) -/
  | hostMem (addr : Data) (bytes : List Byte)
  /-- a message sent on the control sub-channel of a Jersey link -/
  | jersey (link : Nat) (m : JyMsg)
  /-- a frame sent on a Jersey link, and the last 58 bits that its scrambler sent before it -/
  | jyFrame (link : Nat) (f : JySent) (scr : BitVec 58)
  /-- what ODU `o` sends in its OPU from now on (R149, R151): PT, and for each tributary slot the TPN of its client, or none
  for the unallocated indication with all-zero content -/
  | opu (o pt : Nat) (msi : List (Option Nat))
  /-- the justification bytes that the GMP mapper of ODU `o` writes in the frame that points at tributary slot `ts`: row,
  column, byte (R152) -/
  | justification (o ts : Nat) (bytes : List (Nat × Nat × Byte))
  /-- AMP of ODU `o` (R154): JC sent in rows 1–3, and whether its NJO and PJO are data -/
  | ampTx (o jc : Nat) (njoData pjoData : Bool)
  /-- client bytes that the AMP demapper of ODU `o` takes from NJO and PJO (R154) -/
  | ampRx (o : Nat) (bytes : List Byte)
  /-- a mapper's store overflowed or underflowed (R177): client units discarded and inserted -/
  | rateLimit (odu : Bool) (n discarded inserted : Nat)
  /-- the C-12 of a multiframe that entry `e` maps: the four groups of 34 bytes after its V bytes (R161) -/
  | c12 (e : Nat) (bytes : List Byte)
  /-- E1 bits that the demapper of entry `e` delivers, at 2,048 kbit/s of the TSU clock when `tsu` (R162, R165) -/
  | e1 (e : Nat) (bits : List Bool) (tsu : Bool)
  /-- the bytes of a GFP frame that packet ODU `o` sends (R168), and its words with P = 1 -/
  | gfp (o : Nat) (bytes : List Byte) (bad : List Nat)
  /-- a frame sent by scheduler port `n`, with its FCS; the words of eight bytes that leave both planes with P = 1 (R257) -/
  | frame (n : Nat) (bytes : List Byte) (bad : List Nat)
  /-- a SAToP packet built by circuit `e`, without its FCS, and its words with P = 1 -/
  | satop (e : Nat) (bytes : List Byte) (bad : List Nat)
  /-- E1 data played out by circuit `e`, and its words with P = 1 -/
  | playout (e : Nat) (bytes : List Byte) (bad : List Nat)
  /-- the APS bytes, or K1 and K2, that selector `k` transmits on W and P from now on (R220) -/
  | aps (k : Nat) (bytes : Word)
  /-- the signal that leaves SDH port `p` is the structure of port `src` from now on (R211) -/
  | mspStructure (p src : Nat)
  /-- what input position `e` of the LO table carries from now on: the VC-12 as received (0), retimed (2), or played out
  from SAToP (3) (R188) -/
  | loInput (e mode : Nat)
  /-- a word transmitted by lane `l`, on its recovered clock or on the TSU system clock (R80, R81) -/
  | laneWord (l : Nat) (d : Data) (poison recovered : Bool)
  /-- a control block that lane `l` of an Ethernet port transmits where it sends no word, on which clock -/
  | laneFill (l : Nat) (b : EthBlock) (recovered : Bool)
  /-- the content of port `p`'s FlexO instances as it is transmitted from now on: the OTUC slice that each carries, or none
  for an all-zero payload (R67) -/
  | flexo (p : Nat) (slices : List (Option Nat))
  /-- the consequent actions of point `k` from now on (R133, R134) -/
  | consequent (k : Nat) (a : Actions)
  /-- the overhead that the reverse point of `k` sends (R113, R116–R118) -/
  | overhead (k : Nat) (o : TxOh)
  /-- what an output position of Damask carries from now on where no source feeds it, or `normal` (R135, R189): table (3 for
  a Jersey slot) and position -/
  | position (table pos : Nat) (sig : TxSig)
  /-- a word that the fork of lane `l` pushes into the first core stage of a plane, in a pipeline of a slice (R19, R22) -/
  | forkWord (plane slice pipeline : Nat) (d : Data) (poison : Bool)
  /-- the SLIP mark that lane l's fork sets on the cell that begins here (R77) -/
  | slipMark (l : Nat)
  /-- a transfer on MSCL and MSDA: register pointer `ptr` written to address `addr`, and 2 bytes read (R321) -/
  | i2c (addr ptr : Nat)
  /-- a word forwarded by the plane selector of port `p`, and the lane that its cell leaves by (R19) -/
  | selWord (p lane cell w : Nat) (d : Data) (poison : Bool)
  /-- a unit forwarded by merge group `g`: its bytes, its words that leave both planes with P = 1, or ODU-AIS; in native mode
  whether the overhead is WEST's, in standard mode the recomputed BIP-8 of PM (0) and of TCM levels (R233) -/
  | mergeUnit (g : Nat) (bytes : List Byte) (bad : List Nat) (ais ohWest : Bool) (bips : List (Nat × Byte))
  /-- a block that the insert side of group `g` sends on EAST or WEST (R228) -/
  | insertBlock (g : Nat) (west : Bool) (bytes : List Byte) (bad : List Nat)
  /-- a word that a storage, queue or demapper function delivered, with its datapath parity -/
  | word (src : Nat) (d : Data) (c : Byte) (poison : Bool)
  deriving DecidableEq, Repr

/-- A STATS_SNAP that has read its counters and whose dump and completion are still to come (R392). -/
structure Snap where
  job : Nat
  /-- host address of the dump, and its bytes -/
  addr : Data
  bytes : List Byte
  /-- COUNTERS -/
  count : Nat
  deriving DecidableEq, Repr

/-- How a command ends: its status, the RO fields of its body (offset and bytes), and the resource it names. -/
structure Done where
  status : Nat := 0
  patch : List (Nat × List Byte) := []
  kind : Nat := 0
  part : Nat := 0xFF
  id : Nat := 0
  /-- the command has written data to the host, behind which its completion goes (R375, R392) -/
  afterData : Bool := false
  deriving DecidableEq, Repr

/-- What software writes at the PCIe endpoint beside BAR0 (R367). -/
structure Pci where
  /-- configuration space, the bits that software writes, keyed 64 × function + word: command, BARs, MSI-X control | 32 each | 13 R367 | 0 (PRESUMED 39) -/
  cfg : Tab Word := []
  /-- MSI-X table, keyed 4 × vector + word: message address, upper address, data, vector control | 128 × 32 | 13 R367 | 0, vector control 1 (PRESUMED 39) -/
  table : Tab Word := []
  /-- pending-bit array | 32 | 13 R367 | 0 (PRESUMED 39) -/
  pend : BitVec 32 := 0
  deriving DecidableEq, Repr

/-- The host queue engine (chapter 13); ring set-up registers are in the register file. -/
structure HostQ where
  /-- PCIe configuration space, MSI-X table and pending bits -/
  pci : Pci := {}
  /-- HQ_LINK: UP, GEN, WIDTH | 1, 3, 3 | 13 R398 | 0 -/
  up : Bool := false
  gen : Nat := 0
  width : Nat := 0
  rings : Tab Ring := []
  /-- commands executed and not yet completed, newest first | records | 13 RING_STATUS.OUTSTANDING | none -/
  jobs : List Job := []
  /-- commands that the running step has ended, with their opcodes and results, until the completions that follow the step's
  events | records | 13 R372 | none -/
  ending : List (Nat × Nat × Done) := []
  /-- STATS_SNAPs in progress, oldest first | records | 13 R392 | none -/
  snaps : List Snap := []
  /-- number of the next job (the model's own) | count | model | 0 -/
  nextJob : Nat := 0
  /-- urgent queue, oldest first | 16 words | 13 R395 | empty -/
  urgent : List Word := []
  /-- URGENT_STATUS.LAST, EXECUTED | 3, 24 | 13 R398 | 0 -/
  urgLast : Nat := 0
  urgDone : Nat := 0
  /-- what the device has sent out (the model's own record, newest first) | list | model | empty -/
  out : List Out := []
  deriving DecidableEq, Repr

/-- A report that its source holds while the pair that carries it is invalid (R449, R450), with its TIME of R452. -/
structure HeldReport where
  r : FaultRec
  at_ : Nat
  deriving DecidableEq, Repr

/-- An armed checker (R462–R465), keyed 16 × source + checker: MASK, ANY_ADDR, and the armed reads that remain. -/
structure InjArm where
  mask : Byte := 0
  any : Bool := false
  count : Nat := 0
  deriving DecidableEq, Repr

/-- The device: everything but the words of its storage memories and the queue of waiting commands. -/
structure Dev where
  /-- life since POR_N | — | 17 R487, R488 | POR_N low -/
  life : Life := .por
  /-- GL_STRAP: ROLE and DEVID as sampled | 1, 3 | 15 R425 | 0 until sampled (DESIGN CHOICE 11) -/
  worker : Bool := false
  devid : Nat := 0
  /-- POR_N is low at its pin | 1 | 17 R487 | true -/
  porLow : Bool := true
  /-- the register file, keyed by base-window address: every RW, RWC and RS field and every pure counter | 32 each | 14 R401, the register maps | the maps' reset values -/
  regs : Tab Word := []
  /-- the planes and their fences -/
  plane : PlaneSt := {}
  /-- armed checkers | records | 16 R465 | none armed -/
  arms : Tab InjArm := []
  /-- fault-report pairs that read A = B now: FLT_SRC.WIRE, keyed by source ID, one bit a class | 3 each | 16 R450 | none -/
  wires : Tab (BitVec 3) := []
  /-- reports that sources hold until the collector takes them, oldest first | records | 16 R449 | none -/
  reports : List HeldReport := []
  /-- U records of slice logic within a second: elapsed ns of each, newest first, keyed by slice instance | times | 16 R454 | none -/
  sliceU : Tab (List Nat) := []
  /-- lanes L00–L63 -/
  lanes : Tab Lane := []
  /-- ports, keyed by lowest lane -/
  ports : Tab Port := []
  /-- fall-through queues, keyed by QId.key -/
  queues : Tab FQueue := []
  /-- CRC units 0–15 -/
  crc : Tab CrcUnit := []
  /-- framers, keyed 16 × port + slice -/
  framers : Tab Framer := []
  /-- FlexO instances' multiframes, keyed 16 × port + instance | records | 04 R99 | searching -/
  flexo : Tab MfAlign := []
  /-- FRM_STATUS.OOF_CAUSE of each port | 2 each | 04 R109 | 0 -/
  oofCause : Tab Nat := []
  /-- E1 framers 0–8,063 -/
  e1s : Tab E1 := []
  /-- monitored points, keyed by MpId.key -/
  points : Tab Point := []
  /-- DAY_OFFSET in s | 32 | 05 R143 | 0 -/
  dayOffset : Nat := 0
  /-- causes of the ports' groups of causes 1 and 2 | 3 each | 05 R146 | none -/
  groupCause : Tab Nat := []
  /-- created ODUs -/
  odus : Tab (Option Odu) := []
  /-- creates and deletes that wait for the server's frame, oldest first | records | 06 R151 | none -/
  mapJobs : List MapJob := []
  /-- created VC-4s -/
  vc4s : Tab (Option Vc4) := []
  /-- lower-order entries 0–8,063 -/
  los : Tab Lo := []
  /-- SAToP circuits 0–8,063 -/
  circuits : Tab Circuit := []
  /-- the jitter reserve -/
  reserve : Reserve := {}
  /-- the cross-connect -/
  xc : Xc := {}
  /-- selectors, keyed 4,096 × SCHEME + SEL -/
  sels : Tab (Option Selector) := []
  /-- merge groups 0–1,023 -/
  groups : Tab (Option MGroup) := []
  /-- plane selectors of ports -/
  psels : Tab PSel := []
  /-- the packet path -/
  pkt : Pkt := {}
  /-- the TSU -/
  tsu : Tsu := {}
  /-- calibration -/
  cal : Cal := {}
  /-- Twill engines, packages, monitors -/
  twill : Twill := {}
  /-- the host queue engine -/
  host : HostQ := {}
  /-- Jersey links -/
  jersey : Jersey := {}
  /-- supplies and warm resets -/
  power : Power := {}
  /-- security processor and OTP -/
  sec : Sec := {}
  /-- configuration CRC -/
  cfg : RegCrc := {}
  /-- GLOBAL's and the cross-connect's table windows -/
  tbl : Window := {}
  xcTbl : Window := {}
  /-- bus masters M0–M20 -/
  masters : Tab Master := []
  /-- the arbiters of the bus matrix -/
  mx : Matrix := {}
  /-- test access port: its instruction | 3 | 20 R531 | IDCODE (PRESUMED 13: IEEE 1149.1) -/
  tap : TapIr := .idcode
  /-- free values drawn so far: the model's own counter, not the manual's | count | model | 0 (DESIGN CHOICE 2) -/
  fresh : Nat := 0
  deriving DecidableEq, Repr

/-- The state: the device, the words of its storage memories (nine byte cells a word, R36, in canonical form), and the
queue of the commands that wait, first in, first out. -/
structure State where
  dev : Dev
  mem : List Host.Cell
  pending : List Instr
  deriving DecidableEq, Repr

/-- The state right after reset: POR_N low, every block in its reset state, no memory word listed, no command waiting. -/
def State.reset : State := { dev := {}, mem := [], pending := [] }

end Sys2Proof.Machine
end

