-- ==== Sys2Proof/Machine/Tab.lean ====
section
/-! DEFINITION. Operations of sparse tables in canonical form: keys strictly rising, no entry equal to what an unlisted
key reads as. Memory is such a table of bytes. -/

namespace Sys2Proof.Machine

/-- The value at key `k`; `z` where the key is not listed. -/
def tget {α : Type} (z : α) : Tab α → Nat → α
  | [], _ => z
  | (k', v) :: t, k => if k' = k then v else tget z t k

/-- The table without key `k`. -/
def terase {α : Type} (t : Tab α) (k : Nat) : Tab α := t.filter (fun e => decide (e.1 ≠ k))

/-- The table with an entry for `k` before the first greater key. -/
def tins {α : Type} : Tab α → Nat → α → Tab α
  | [], k, v => [(k, v)]
  | e :: t, k, v => if k < e.1 then (k, v) :: e :: t else e :: tins t k v

/-- The table with `v` at key `k`; writing `z` removes the entry. -/
def tput {α : Type} [DecidableEq α] (z : α) (t : Tab α) (k : Nat) (v : α) : Tab α :=
  if v = z then terase t k else tins (terase t k) k v

/-- The table with `f` applied to the value at key `k`. -/
def tupd {α : Type} [DecidableEq α] (z : α) (t : Tab α) (k : Nat) (f : α → α) : Tab α :=
  tput z t k (f (tget z t k))

/-- Canonical form: every key above `lo`, keys strictly rising, no entry equal to `z`. -/
def tabWfFrom {α : Type} [DecidableEq α] (z : α) : Nat → Tab α → Bool
  | _, [] => true
  | lo, (k, v) :: t => decide (lo ≤ k) && decide (v ≠ z) && tabWfFrom z (k + 1) t

/-- Canonical form of a table. -/
def tabWf {α : Type} [DecidableEq α] (z : α) (t : Tab α) : Bool := tabWfFrom z 0 t

end Sys2Proof.Machine
end

