-- ==== Sys2Proof/Machine/Ops.lean ====
section
/-! DEFINITION. The shared operations over the state: registers and their event bits, time, ring entries, events,
statistics records, completions, messages of the Jersey control sub-channel. -/

namespace Sys2Proof.Machine

/-- What every step of `exec` answers. -/
abbrev Out1 := Host.Outcome State Fault Refusal

/-- A command that changes nothing but the device: memory and the queue of waiting commands stay. -/
def onDev (f : Dev → Dev) (s : State) : Out1 := .next { s with dev := f s.dev }

/-- A command that changes the device and the storage memories. -/
def onMem (f : Dev → List Host.Cell → Dev × List Host.Cell) (s : State) : Out1 :=
  .next { s with dev := (f s.dev s.mem).1, mem := (f s.dev s.mem).2 }

/-- A command acts only while the device runs (R488). -/
def live (f : Dev → Dev) (d : Dev) : Dev := if d.life = .running then f d else d

/-- A command on device and memory acts only while the device runs. -/
def liveMem (f : Dev → List Host.Cell → Dev × List Host.Cell) (d : Dev) (m : List Host.Cell) : Dev × List Host.Cell :=
  if d.life = .running then f d m else (d, m)

/-- The lengthy steps of a command in order. -/
def forEach {α σ : Type} (xs : List α) (s : σ) (f : σ → α → σ) : σ := xs.foldl f s

/-! ### Time -/

/-- Now, on the elapsed-time base, in ns (R304). -/
def Dev.now (d : Dev) : Nat := d.tsu.elapsed

/-- Whether `t` ns have passed since `since`. -/
def Dev.after (d : Dev) (since t : Nat) : Bool := since + t ≤ d.now

/-- Time of a record: seconds [33:0] above nanoseconds (R452). -/
def Dev.stamp (d : Dev) : Nat := d.tsu.sec.toNat % 2 ^ 34 * 2 ^ 30 + d.tsu.ns

/-! ### Registers -/

/-- The register file at an address. -/
def Dev.reg (d : Dev) (a : Nat) : Word := tget (resetOf a) d.regs a

/-- The register file with `w` at an address. -/
def Dev.setReg (d : Dev) (a : Nat) (w : Word) : Dev := { d with regs := tput (resetOf a) d.regs a w }

/-- A counter field of a register raised by `k`, saturating. -/
def Dev.count (d : Dev) (a lo n : Nat) (k : Nat := 1) : Dev := d.setReg a (countUp (d.reg a) lo n k)

/-- A 32-bit counter register raised by `k`, saturating. -/
def Dev.count32 (d : Dev) (a : Nat) (k : Nat := 1) : Dev := d.count a 0 32 k

/-- The device sends something out of itself (log entry 10). -/
def Dev.emit (d : Dev) (o : Out) : Dev := { d with host.out := o :: d.host.out }

/-! ### Bytes -/

/-- `n` bytes of a number, least significant first (R10). -/
def le : Nat → Nat → List Byte
  | 0, _ => []
  | n + 1, x => BitVec.ofNat 8 x :: le n (x / 256)

/-- The number that bytes spell, least significant first (R10). -/
def leNat : List Byte → Nat
  | [] => 0
  | b :: bs => b.toNat + 256 * leNat bs

/-- An integer in two's complement of `n` bits, as a number. -/
def twos (n : Nat) (x : Int) : Nat := (x % (2 ^ n : Int)).toNat

/-- A number of `n` bits read as two's complement. -/
def signed (n x : Nat) : Int := if x % 2 ^ n < 2 ^ (n - 1) then (x % 2 ^ n : Nat) else (x % 2 ^ n : Nat) - (2 ^ n : Int)

/-- An integer held within bounds. -/
def clampI (lo hi x : Int) : Int := if x < lo then lo else if hi < x then hi else x

/-- The bytes with `new` written over them from byte `off` on. -/
def patchBytes (bs : List Byte) (off : Nat) (new : List Byte) : List Byte :=
  bs.take off ++ new ++ bs.drop (off + new.length)

/-! ### Jersey control sub-channel (R431) -/

/-- Bytes of a message on the link. -/
def JyMsg.size (m : JyMsg) : Nat := 10 + m.payload.length

/-- The place of a message in the order in which a side sends (R397, R431): 1 urgent words, HELLO, TIME, DELAY, ring 0 and
urgent event entries; 2 rings 1–3 and register messages; 3 normal events; 4 bulk data and boot blocks; 5 statistics. -/
def jyClass (ring0 : Bool) : Nat → Nat
  | 0x01 | 0x02 => if ring0 then 1 else 2
  | 0x03 => if ring0 then 1 else 3
  | 0x04 => 5
  | 0x06 | 0x07 => 2
  | 0x08 | 0x0C => 4
  | _ => 1

/-- Whether a link can carry a message of a type in its state (R432): HELLO in HELLO, boot messages in BOOT, and every
other message in RUN. -/
def jyCarries (st ty : Nat) : Bool :=
  if ty = 0x0B then st = 3 else if ty = 0x0C ∨ ty = 0x0D then st = 4 else st = 7

/-- Jersey link j. -/
def Dev.link (d : Dev) (j : Nat) : JyLink := tget {} d.jersey.links j
/-- The device with link j changed. -/
def Dev.updLink (d : Dev) (j : Nat) (f : JyLink → JyLink) : Dev :=
  { d with jersey.links := tupd {} d.jersey.links j f }

/-- Sends the messages that wait, as far as CREDIT reaches; the length bounds the work. -/
def jyPump (j : Nat) : Nat → Dev → Dev
  | 0, d => d
  | n + 1, d =>
    let l := d.link j
    match l.waiting with
    | [] => d
    | m :: rest =>
      if (l.unacked.map JyMsg.size).sum + m.size ≤ l.credit then
        let m := { m with mseq := l.txSeq, sentAt := d.now }
        let l' := { l with
          waiting := rest, txSeq := l.txSeq + 1, unacked := l.unacked ++ [m], txQ := l.txQ ++ [m]
          ackAt := if l.unacked.isEmpty then d.now else l.ackAt }
        jyPump j n { d.updLink j (fun _ => l') with host.out := .jersey j m :: d.host.out }
      else d

/-- A message takes its place behind every waiting message of its class and of the classes before it (R431). -/
def jyPlace (m : JyMsg) (ms : List JyMsg) : List JyMsg :=
  ms.takeWhile (fun x => decide (x.cls ≤ m.cls)) ++ m :: ms.dropWhile (fun x => decide (x.cls ≤ m.cls))

/-- Sends a message of a class on link j, or holds it until CREDIT lets it go. -/
def Dev.jySendAt (d : Dev) (j ty : Nat) (payload : List Byte) (cls : Nat) : Dev :=
  if jyCarries (d.link j).st ty then
    let d := d.updLink j (fun l => { l with waiting := jyPlace { ty := ty, payload := payload, cls := cls } l.waiting })
    jyPump j (d.link j).waiting.length d
  else d

/-- Sends a message on link j. The class of an entry of ring 0 or of the urgent event ring is told by `ring0`. -/
def Dev.jySend (d : Dev) (j ty : Nat) (payload : List Byte) (ring0 : Bool := false) : Dev :=
  d.jySendAt j ty payload (jyClass ring0 ty)

/-- The class in which a worker's completion is sent (R375, R380, R431): that of its ring, but behind data that the command has
written to the host, and behind the completions of its ring that wait (DEDUCED 84). -/
def JyLink.doneClass (l : JyLink) (ring : Nat) (afterData : Bool) : Nat :=
  (l.waiting.filter (fun m => m.ty = 0x02 && m.payload[84]? = some (BitVec.ofNat 8 ring))).foldl (fun c m => max c m.cls)
    (if afterData then jyClass false 0x08 else jyClass (decide (ring = 0)) 0x02)

/-- Sends data of host memory on link j, in messages of at most 4,096 bytes of payload (R431, R436): each carries the host
address of its first byte, then the bytes (log entry 40). -/
def Dev.jyData (d : Dev) (j addr : Nat) (bs : List Byte) : Dev :=
  (List.range ((bs.length + 4087) / 4088)).foldl (fun d i =>
    d.jySend j 0x08 (le 8 (addr + 4088 * i) ++ (bs.drop (4088 * i)).take 4088)) d

/-- Whether worker w is present in the build (R427). -/
def Dev.present (d : Dev) (w : Nat) : Bool := !d.worker && decide (1 ≤ w) && decide (w ≤ 7) && decide ((d.link w).st = 7)

/-- A Jersey link present in the build (R427): in a worker, link 0 to its manager. -/
def Dev.linkPresent (d : Dev) (j : Nat) : Bool := if d.worker then j = 0 && (d.link 0).st = 7 else d.present j

/-! ### Rings (R369–R372, R388, R390, R393) -/

def Dev.ring (d : Dev) (r : Nat) : Ring := tget {} d.host.rings r
def Dev.updRing (d : Dev) (r : Nat) (f : Ring → Ring) : Dev :=
  { d with host.rings := tupd {} d.host.rings r f }

def Dev.ringOn (d : Dev) (r : Nat) : Bool := bit (d.reg (aRing r 0x08)) 0
def Dev.ringSize (d : Dev) (r : Nat) : Nat := 2 ^ fld (d.reg (aRing r 0x08)) 4 5
def Dev.ringPi (d : Dev) (r : Nat) : Nat := fld (d.reg (aRing r 0x10)) 0 16
def Dev.ringCi (d : Dev) (r : Nat) : Nat := fld (d.reg (aRing r 0x14)) 0 16

/-- Entries between CI and PI. -/
def Dev.ringUsed (d : Dev) (r : Nat) : Nat := (d.ringPi r + d.ringSize r - d.ringCi r) % d.ringSize r
/-- Entries that the ring can still take (R371). -/
def Dev.ringFree (d : Dev) (r : Nat) : Nat := d.ringSize r - 1 - d.ringUsed r

/-- The vector of a ring. -/
def Dev.ringVector (d : Dev) (r : Nat) : Nat := fld (d.reg (aRing r 0x08)) 16 5

/-- Whether ring r is due (R393). -/
def Dev.ringDue (d : Dev) (r : Nat) : Bool :=
  let u := (d.ring r).unread
  let n := fld (d.reg (aRing r 0x08)) 24 8
  let t := fld (d.reg (aRing r 0x0C)) 0 16
  match u with
  | [] => false
  | o :: _ => decide (n ≤ 1) || decide (t = 0) || decide (n ≤ u.length) || d.after o (1000 * t)

/-- A word of the MSI-X table: a vector is masked until software unmasks it (PRESUMED 39). -/
def msixReset (k : Nat) : Word := if k % 4 = 3 then 1 else 0
def Dev.msixWord (d : Dev) (k : Nat) : Word := tget (msixReset k) d.host.pci.table k

/-- Message Control of the MSI-X capability, in [31:16] of its word. -/
def Dev.msixCtl (d : Dev) : Word := tget 0 d.host.pci.cfg 16

/-- MSI-X is enabled, and neither the function nor the vector is masked (R393). -/
def Dev.msixOpen (d : Dev) (v : Nat) : Bool := bit d.msixCtl 31 && !bit d.msixCtl 30 && !bit (d.msixWord (4 * v + 3)) 0

/-- A vector sends its message, or has its pending bit set until it may (R393). -/
def Dev.msixSend (d : Dev) (v : Nat) : Dev :=
  let one := BitVec.ofNat 32 (2 ^ v)
  if d.msixOpen v then
    { d with
      host.pci.pend := d.host.pci.pend &&& ~~~one
      host.out := .msix v ((d.msixWord (4 * v + 1)).setWidth 64 <<< 32 ||| (d.msixWord (4 * v)).setWidth 64) (d.msixWord (4 * v + 2))
        :: d.host.out }
  else { d with host.pci.pend := d.host.pci.pend ||| one }

/-- The pending vectors that may send do so. -/
def Dev.msixFlush (d : Dev) : Dev :=
  (List.range 32).foldl (fun d v => if d.host.pci.pend.getLsbD v && d.msixOpen v then d.msixSend v else d) d

/-- A due ring sends one MSI-X message until the next CI write (R393). -/
def Dev.ringNotify (d : Dev) (r : Nat) : Dev :=
  if d.ringOn r && d.ringDue r && !(d.ring r).sent then (d.updRing r (fun x => { x with sent := true })).msixSend (d.ringVector r)
  else d

/-- A vector for which no ring waits any more is pending no longer (PRESUMED 39). -/
def Dev.msixSettle (d : Dev) (v : Nat) : Dev :=
  if (List.range 11).any (fun r => decide (d.ringVector r = v) && (d.ring r).sent) then d
  else { d with host.pci.pend := d.host.pci.pend &&& ~~~(BitVec.ofNat 32 (2 ^ v)) }

/-- Writes one entry on a device-written ring: `mk` gives it from its slot, its PHASE and its entry number (R371, R372). -/
def Dev.writeEntry (d : Dev) (r : Nat) (mk : Nat → Bool → Word → Out) : Dev :=
  let slot := d.ringPi r
  let x := d.ring r
  let seq := d.reg (aRing r 0x18)
  let pi := if slot + 1 = d.ringSize r then 0 else slot + 1
  let d := d.setReg (aRing r 0x10) (BitVec.ofNat 32 pi)
  let d := if 8 ≤ r then d.setReg (aRing r 0x18) (seq + 1) else d
  let d := d.updRing r (fun x => { x with phase := if pi = 0 then !x.phase else x.phase, unread := x.unread ++ [d.now] })
  let d := { d with host.out := mk slot x.phase seq :: d.host.out }
  d.ringNotify r

/-- The event codes of the urgent event ring, from the event tables of the chapters. -/
def urgentCode (c : Nat) : Bool :=
  c ∈ [0x1002, 0x1006, 0x1013, 0x1014, 0x101B, 0x1102, 0x1104, 0x1202, 0x1204, 0x1205, 0x1206, 0x1207, 0x1208, 0x1209,
    0x1301, 0x1401, 0x1405, 0x1481, 0x1503, 0x1601, 0x1602, 0x1603]
  || c ∈ [0x1641, 0x1643, 0x1644, 0x1645, 0x1681, 0x1682, 0x1684, 0x1701, 0x1731, 0x1732, 0x1801, 0x1804, 0x1805, 0x1807,
    0x1808, 0x1841, 0x1903, 0x1A01, 0x1A02, 0x1A13, 0x1A1B, 0x1A43, 0x1B03, 0x1B05, 0x1B06]
  || c ∈ [0x1C01, 0x1C02, 0x1C03, 0x1C04, 0x1C11, 0x1C12, 0x1C13, 0x1D01, 0x1D02, 0x1D04, 0x1E01, 0x1E03, 0x1F02, 0x1F03,
    0x1F05, 0x1F13, 0x1F14, 0x1F1B, 0x2001, 0x2004]

/-- An event entry's 32 bytes (R385, R386). -/
def eventBytes (code device flags : Nat) (eseq : Word) (sec : BitVec 48) (ns : Nat) (args : List Byte) : List Byte :=
  le 2 code ++ le 1 device ++ le 1 flags ++ le 4 eseq.toNat ++ le 6 sec.toNat ++ le 2 0 ++ le 4 ns
    ++ (args ++ le 12 0).take 12

/-- Counts an entry that its ring cannot take (R388, R390): RING_LOST, the notice's count, and HQ_EVENT.EVENTS_LOST (bit 2)
or STATS_LOST (bit 3). -/
def Dev.loseEntry (d : Dev) (r : Nat) (evBit : Nat) : Dev :=
  let d := (d.count32 (aRing r 0x1C)).updRing r (fun x => { x with lost := x.lost + 1 })
  d.setReg (aHq 8) (rsSet (d.reg (aHq 8)) (bitAt true evBit))

/-- Posts an event that arose at the given time in the given device on the manager's ring, or counts it as lost. -/
def Dev.postAt (d : Dev) (device code : Nat) (sec : BitVec 48) (ns : Nat) (args : List Byte) : Dev :=
  let r := if urgentCode code then 8 else 9
  if d.ringOn r && decide (2 ≤ d.ringFree r) then
    d.writeEntry r (fun slot ph seq => .event r slot code device ph seq sec ns args)
  else d.loseEntry r 2

/-- Posts an event (R385–R388): on this device's rings, or, in a worker, to the manager (R435); a worker's event that
cannot be sent is counted (R442). -/
def Dev.post (d : Dev) (code : Nat) (args : List Byte) : Dev :=
  if d.worker then
    if (d.link 0).st = 7 then
      d.jySend 0 0x03 (eventBytes code d.devid 0 0 d.tsu.sec d.tsu.ns args) (urgentCode code)
    else d.updLink 0 (fun l => { l with lostEv := l.lostEv + 1 })
  else d.postAt 0 code d.tsu.sec d.tsu.ns args

/-- Sets an event bit of an RS register and posts its event when the bit is new (R387, R409). -/
def Dev.raise (d : Dev) (a i code : Nat) (args : List Byte) : Dev :=
  let w := d.reg a
  let d := d.setReg a (rsSet w (bitAt true i))
  if bit w i then d else d.post code args

/-- Sets an event bit of an RS register that has no event of its own. -/
def Dev.raiseQuiet (d : Dev) (a i : Nat) : Dev := d.setReg a (rsSet (d.reg a) (bitAt true i))

/-- Sets several event bits at one instant, so that SEQ rises once (R409), then posts the events of the new ones. -/
def Dev.raiseAll (d : Dev) (a : Nat) (evs : List (Nat × Option (Nat × List Byte))) : Dev :=
  let w := d.reg a
  let d := d.setReg a (rsSet w (evs.foldl (fun m e => m ||| bitAt true e.1) 0))
  evs.foldl (fun d e => if bit w e.1 then d else match e.2 with | some (c, args) => d.post c args | none => d) d

/-- Posts a statistics record of `device` on the manager's ring, or counts it as lost (R390). -/
def Dev.statAt (d : Dev) (device : Nat) (body : List Byte) : Dev :=
  if d.ringOn 10 && decide (2 ≤ d.ringFree 10) then
    d.writeEntry 10 (fun slot ph seq => .stats slot device ph seq ((body ++ le 56 0).take 56))
  else
    let new := !bit (d.reg (aHq 8)) 3
    let d := d.loseEntry 10 3
    if new then d.post 0x1B04 [] else d

/-- Delivers a statistics record (R390; in a worker R435, R442). -/
def Dev.stat (d : Dev) (body : List Byte) : Dev :=
  if d.worker then
    if (d.link 0).st = 7 then d.jySend 0 0x04 (le 2 0 ++ le 1 d.devid ++ le 5 0 ++ (body ++ le 56 0).take 56)
    else d.updLink 0 (fun l => { l with lostSt := l.lostSt + 1 })
  else d.statAt 0 body

/-- Writes the loss notice of an event ring or of the statistics ring when entries have been discarded and two are free
(R388, R390). -/
def Dev.lossNotice (d : Dev) (r : Nat) : Dev :=
  let n := (d.ring r).lost
  if d.ringOn r && decide (0 < n) && decide (2 ≤ d.ringFree r) then
    let d := d.updRing r (fun x => { x with lost := 0 })
    if r = 10 then
      d.writeEntry r (fun slot ph seq => .stats slot 0 ph seq (le 1 0x42 ++ le 1 1 ++ le 6 0 ++ le 4 n ++ le 44 0))
    else
      d.writeEntry r (fun slot ph seq => .event r slot 0x1B01 0 ph seq d.tsu.sec d.tsu.ns (le 4 n))
  else d

/-! ### Commands' completions (R378, R383) -/

/-- OK. -/
def okDone : Done := {}
/-- REFUSED, with the first field at fault (0xFF: none). -/
def refusedDone (part : Nat := 0xFF) : Done := { status := 1, part := part }
/-- CONFLICT, naming the resource. -/
def conflictDone (kind id : Nat) (part : Nat := 0xFF) : Done := { status := 2, kind := kind, id := id, part := part }
/-- PENDING. -/
def pendingDone : Done := { status := 3 }
/-- ABORTED. -/
def abortedDone : Done := { status := 4 }
/-- NOT_PERMITTED. -/
def notPermitted : Done := { status := 5 }

/-- A completion entry's 128 bytes (R383). -/
def completionBytes (c : Completion) : List Byte :=
  le 1 c.opcode ++ le 1 c.status ++ le 2 c.tag.toNat ++ le 4 c.seq.toNat ++ (c.body ++ le 56 0).take 56
    ++ le 2 c.resKind ++ le 1 c.resPart ++ le 1 c.device ++ le 4 c.resId ++ le 6 c.sec.toNat ++ le 2 0 ++ le 4 c.ns
    ++ le 1 c.ring ++ le 42 0 ++ le 1 (if c.phase then 1 else 0)

/-- Posts a completion entry on completion ring 4 + ring (R372, R383). -/
def Dev.writeCompletion (d : Dev) (c : Completion) : Dev :=
  if d.ringOn (4 + c.ring) then
    d.writeEntry (4 + c.ring) (fun slot ph _ => .completion (4 + c.ring) slot { c with phase := ph })
  else d

/-- The command's completion: its job ends, and the entry goes on its ring, or, from a worker, to the manager (R435). A
command that is no longer outstanding has lost its completion (R368). -/
def Dev.complete (d : Dev) (op jid : Nat) (r : Done) : Dev :=
  match d.host.jobs.find? (fun j => j.id = jid) with
  | none => d
  | some j =>
    let d := { d with host.jobs := d.host.jobs.filter (fun x => x.id ≠ jid) }
    let c : Completion := {
      opcode := op, status := r.status, tag := j.desc.tag, seq := j.desc.seq
      body := r.patch.foldl (fun b p => patchBytes b p.1 p.2) j.desc.body
      resKind := r.kind, resPart := r.part, device := j.device, resId := r.id
      sec := d.tsu.sec, ns := d.tsu.ns, ring := j.desc.ring.val, phase := false }
    if d.worker then d.jySendAt 0 0x02 (completionBytes { c with device := d.devid }) ((d.link 0).doneClass c.ring r.afterData)
    else d.writeCompletion c

/-- A command that the running step ends: its completion comes after every event of the step (R372). -/
def Dev.ends (d : Dev) (op jid : Nat) (r : Done) : Dev := { d with host.ending := d.host.ending ++ [(op, jid, r)] }

/-- A command that the running step aborts. -/
def Dev.later (d : Dev) (op jid : Nat) (patch : List (Nat × List Byte) := []) : Dev :=
  d.ends op jid { status := 4, patch := patch }

/-- The commands that the step has ended complete. -/
def Dev.endAborted (d : Dev) : Dev :=
  d.host.ending.foldl (fun d x => d.complete x.1 x.2.1 x.2.2) { d with host.ending := [] }

/-- A free value of the model: the draw and the device with the counter advanced (log entry 2). -/
def Dev.draw (d : Dev) : BitVec 64 × Dev := (Config.freeBits d.fresh, { d with fresh := d.fresh + 1 })

/-! ### Accessors of the tables -/

def Dev.lane (d : Dev) (l : Nat) : Lane := tget {} d.lanes l
def Dev.updLane (d : Dev) (l : Nat) (f : Lane → Lane) : Dev := { d with lanes := tupd {} d.lanes l f }
def Dev.port (d : Dev) (p : Nat) : Port := tget {} d.ports p
def Dev.updPort (d : Dev) (p : Nat) (f : Port → Port) : Dev := { d with ports := tupd {} d.ports p f }
def Dev.queue (d : Dev) (q : QId) : FQueue := tget {} d.queues (qkey q)
def Dev.updQueue (d : Dev) (q : QId) (f : FQueue → FQueue) : Dev := { d with queues := tupd {} d.queues (qkey q) f }
def Dev.crcU (d : Dev) (u : Nat) : CrcUnit := tget {} d.crc u
def Dev.updCrc (d : Dev) (u : Nat) (f : CrcUnit → CrcUnit) : Dev := { d with crc := tupd {} d.crc u f }
def Dev.framer (d : Dev) (k : Nat) : Framer := tget {} d.framers k
def Dev.updFramer (d : Dev) (k : Nat) (f : Framer → Framer) : Dev := { d with framers := tupd {} d.framers k f }
def Dev.e1 (d : Dev) (e : Nat) : E1 := tget {} d.e1s e
def Dev.updE1 (d : Dev) (e : Nat) (f : E1 → E1) : Dev := { d with e1s := tupd {} d.e1s e f }
def Dev.point (d : Dev) (k : Nat) : Point := tget {} d.points k
def Dev.updPoint (d : Dev) (k : Nat) (f : Point → Point) : Dev := { d with points := tupd {} d.points k f }
def Dev.odu (d : Dev) (o : Nat) : Option Odu := tget none d.odus o
def Dev.setOdu (d : Dev) (o : Nat) (v : Option Odu) : Dev := { d with odus := tput none d.odus o v }
def Dev.updOdu (d : Dev) (o : Nat) (f : Odu → Odu) : Dev := d.setOdu o ((d.odu o).map f)
def Dev.vc4 (d : Dev) (v : Nat) : Option Vc4 := tget none d.vc4s v
def Dev.setVc4 (d : Dev) (v : Nat) (x : Option Vc4) : Dev := { d with vc4s := tput none d.vc4s v x }
def Dev.updVc4 (d : Dev) (v : Nat) (f : Vc4 → Vc4) : Dev := d.setVc4 v ((d.vc4 v).map f)
def Dev.lo (d : Dev) (e : Nat) : Lo := tget {} d.los e
def Dev.updLo (d : Dev) (e : Nat) (f : Lo → Lo) : Dev := { d with los := tupd {} d.los e f }
def Dev.circuit (d : Dev) (e : Nat) : Circuit := tget {} d.circuits e
def Dev.updCircuit (d : Dev) (e : Nat) (f : Circuit → Circuit) : Dev := { d with circuits := tupd {} d.circuits e f }
def Dev.sel (d : Dev) (k : Nat) : Option Selector := tget none d.sels k
def Dev.setSel (d : Dev) (k : Nat) (v : Option Selector) : Dev := { d with sels := tput none d.sels k v }
def Dev.updSel (d : Dev) (k : Nat) (f : Selector → Selector) : Dev := d.setSel k ((d.sel k).map f)
def Dev.group (d : Dev) (g : Nat) : Option MGroup := tget none d.groups g
def Dev.setGroup (d : Dev) (g : Nat) (v : Option MGroup) : Dev := { d with groups := tput none d.groups g v }
def Dev.updGroup (d : Dev) (g : Nat) (f : MGroup → MGroup) : Dev := d.setGroup g ((d.group g).map f)
def Dev.psel (d : Dev) (p : Nat) : PSel := tget {} d.psels p
def Dev.updPsel (d : Dev) (p : Nat) (f : PSel → PSel) : Dev := { d with psels := tupd {} d.psels p f }
def Dev.pq (d : Dev) (q : Nat) : PQueue := tget {} d.pkt.queues q
def Dev.updPq (d : Dev) (q : Nat) (f : PQueue → PQueue) : Dev := { d with pkt.queues := tupd {} d.pkt.queues q f }
def Dev.shaper (d : Dev) (k : Nat) : Shaper := tget {} d.pkt.shapers k
def Dev.updShaper (d : Dev) (k : Nat) (f : Shaper → Shaper) : Dev := { d with pkt.shapers := tupd {} d.pkt.shapers k f }
def Dev.policer (d : Dev) (k : Nat) : Policer := tget {} d.pkt.policers k
def Dev.updPolicer (d : Dev) (k : Nat) (f : Policer → Policer) : Dev :=
  { d with pkt.policers := tupd {} d.pkt.policers k f }
def Dev.flow (d : Dev) (k : Nat) : Flow := tget {} d.pkt.flows k
def Dev.setFlow (d : Dev) (k : Nat) (v : Flow) : Dev := { d with pkt.flows := tput {} d.pkt.flows k v }
def Dev.ingr (d : Dev) (k : Nat) : Ingress := tget {} d.pkt.ingress k
def Dev.setIngr (d : Dev) (k : Nat) (v : Ingress) : Dev := { d with pkt.ingress := tput {} d.pkt.ingress k v }
def Dev.schP (d : Dev) (k : Nat) : SchPort := tget {} d.pkt.sch k
def Dev.updSch (d : Dev) (k : Nat) (f : SchPort → SchPort) : Dev := { d with pkt.sch := tupd {} d.pkt.sch k f }
def Dev.tref (d : Dev) (r : Nat) : TRef := tget {} d.tsu.refs r
def Dev.updRef (d : Dev) (r : Nat) (f : TRef → TRef) : Dev := { d with tsu.refs := tupd {} d.tsu.refs r f }
def Dev.tout (d : Dev) (o : Nat) : TOut := tget {} d.tsu.outs o
def Dev.updOut (d : Dev) (o : Nat) (f : TOut → TOut) : Dev := { d with tsu.outs := tupd {} d.tsu.outs o f }
def Dev.engine (d : Dev) (g : Nat) : Engine := tget {} d.twill.engines g
def Dev.updEngine (d : Dev) (g : Nat) (f : Engine → Engine) : Dev := { d with twill.engines := tupd {} d.twill.engines g f }

/-- Whether a unit is fenced (R447). -/
def Dev.fenced (d : Dev) (src : Nat) : Bool := tget false d.plane.fences src
/-- Whether plane p is fenced as a whole. -/
def Dev.planeFenced (d : Dev) (p : Nat) : Bool := d.fenced (0xF000 + p)

/-- A plane takes the words of traffic: one that is fenced as a whole does so while it is resynchronised alone (R28, R31). -/
def Dev.takesWords (d : Dev) (p : Nat) : Bool := !d.planeFenced p || d.plane.resync.any (fun r => r.plane.val = p)

/-- PLANE_STATE.STATE (R27): 0 DUAL, 1 SINGLE-N, 2 SINGLE-S, 3 FROZEN. -/
def Dev.fencedState (d : Dev) : Nat := if d.planeFenced 1 then 1 else if d.planeFenced 0 then 2 else 0
def Dev.planeState (d : Dev) : Nat := if d.plane.frozen then 3 else d.fencedState

/-- Whether the unit at fault or read is fenced, itself or by its whole plane. -/
def Dev.fencedOrPlane (d : Dev) (src : Nat) : Bool := d.fenced src || d.planeFenced (planeOf src)

end Sys2Proof.Machine
end

