-- ==== Sys2Proof/WellFormed.lean ====
section
/-! DEFINITION. Well-formed commands: what no sender can break. The commands' meanings refuse nothing on these grounds but
a descriptor whose body is not 56 bytes, which is no descriptor (R10). -/

namespace Sys2Proof

/-- A descriptor body is 56 bytes (R10). -/
def Desc.wf (d : Desc) : Bool := d.body.length == 56

/-- The device never pushes a reserved item tag, nor the idle tag (R45). -/
def tagWf (t : BitVec 4) : Bool := 1 ≤ t.toNat && t.toNat ≤ 4

/-- STAT and K2 bits 6–8 are 3-bit fields (R116, R117). -/
def OhFrame.wf (f : OhFrame) : Bool := f.stat < 8 && f.k2 < 8

/-- A frame's header is 10 bytes, and a region begins with 3 (R428, R430). -/
def JyFrame.wf (f : JyFrame) : Bool := f.head.length == 10 && f.regions.all (fun r => r.2.length == 3)

/-- A command that a sender, or the device's surroundings, can give. -/
def Instr.wf : Instr → Bool
  | .nop d | .laneCfg d | .portCfg d | .defectCfg d | .mapCfg d | .xcWrite d | .xcSwap d | .mergeGroupCfg d
  | .apsCfg d | .protCommand d | .queueCfg d | .shaperCfg d | .policerCfg d | .gateCfg d | .satopCfg d
  | .tsuRefCfg d | .tsuSteer d | .tsuRealign d | .calRun d | .calTableCommit d | .statsSnap d | .enginePkgLoad d
  | .planeHandover d | .engineCfg d | .faultAction d | .unknownOpcode _ d => d.wf
  | .attest d _ | .keyAdmin d _ => d.wf
  | .ingressWordPush _ _ t | .queuePush _ _ t _ => tagWf t
  | .overheadFrame _ f => f.wf
  | .jyFrame _ f => f.wf
  | .jyTime _ _ ns _ _ _ => ns < 1000000000
  | _ => true

end Sys2Proof
end

