-- ==== Sys2Proof/Machine/Operands.lean ====
section
/-! DEFINITION. The operand forms: the fields of a descriptor's body (R10), the range checks that refuse a descriptor with
the first field at fault (R12, R13, R383), the passage of a descriptor through the host queue engine (R373–R379), and the
payloads of messages that carry descriptors, data and urgent words over Jersey. -/

namespace Sys2Proof.Machine

/-- Field of `n` bytes from body byte `off`, least significant byte first. -/
def bodyN (b : List Byte) (off n : Nat) : Nat := leNat ((b.drop off).take n)

end Sys2Proof.Machine

namespace Sys2Proof

open Machine

/-- Fields of a descriptor's body. -/
def Desc.u8 (c : Desc) (off : Nat) : Nat := bodyN c.body off 1
def Desc.u16 (c : Desc) (off : Nat) : Nat := bodyN c.body off 2
def Desc.u24 (c : Desc) (off : Nat) : Nat := bodyN c.body off 3
def Desc.u32 (c : Desc) (off : Nat) : Nat := bodyN c.body off 4
def Desc.u40 (c : Desc) (off : Nat) : Nat := bodyN c.body off 5
def Desc.u64 (c : Desc) (off : Nat) : Nat := bodyN c.body off 8
def Desc.s16 (c : Desc) (off : Nat) : Int := signed 16 (c.u16 off)
def Desc.s32 (c : Desc) (off : Nat) : Int := signed 32 (c.u32 off)
def Desc.s64 (c : Desc) (off : Nat) : Int := signed 64 (c.u64 off)
def Desc.bytes (c : Desc) (off n : Nat) : List Byte := (c.body.drop off).take n

/-- Bit i of body byte `off`. -/
def Desc.bit (c : Desc) (off i : Nat) : Bool := c.u8 off / 2 ^ i % 2 = 1

/-- The reserved bytes from `lo` to `hi` are 0 (R12), as a check that names the first byte that is not. -/
def Desc.zeros (c : Desc) (lo hi : Nat) : Nat × Bool :=
  match ((List.range (hi + 1 - lo)).map (fun i => lo + i)).find? (fun i => c.u8 i ≠ 0) with
  | some i => (i, false)
  | none => (lo, true)

/-- FLAGS of R373. -/
def Desc.bulk (c : Desc) : Bool := c.flags.getLsbD 0
def Desc.barrier (c : Desc) : Bool := c.flags.getLsbD 1
def Desc.dest (c : Desc) : Nat := c.flags.toNat / 16 % 8

end Sys2Proof

namespace Sys2Proof.Machine

/-- A field check: the body byte offset of the field and whether it holds. -/
abbrev Check := Nat × Bool

/-- The field is at most `hi`. -/
def atMost (off x hi : Nat) : Check := (off, decide (x ≤ hi))
/-- The field lies in a range. -/
def within (off x lo hi : Nat) : Check := (off, decide (lo ≤ x) && decide (x ≤ hi))

/-- The first field at fault. -/
def firstBad (cs : List Check) : Option Nat := (cs.find? (fun x => !x.2)).map (fun x => x.1)

/-- Goes on when every check holds, and is REFUSED with the first field at fault otherwise. -/
def checked {α : Type} (cs : List Check) (k : Except Done α) : Except Done α :=
  match firstBad cs with
  | some off => .error (refusedDone off)
  | none => k

/-- Goes on when the condition holds, and ends the command otherwise. -/
def need {α : Type} (b : Bool) (r : Done) (k : Except Done α) : Except Done α := if b then k else .error r

/-- What a command's own rule makes of it: refused with nothing changed, or the new device with its completion, or with the
completion still to come. -/
abbrev Ran := Except Done (Dev × Option Done)

/-- The command has completed. -/
def ran (d : Dev) (r : Done := okDone) : Ran := .ok (d, some r)
/-- The command has executed and completes later. -/
def ranLater (d : Dev) : Ran := .ok (d, none)

/-- Opens a job for a descriptor: RING_STATUS.OUTSTANDING counts it until its completion is posted. -/
def Dev.openJob (d : Dev) (op : Nat) (c : Desc) (device : Nat := 0) : Dev × Nat :=
  ({ d with host.jobs := { id := d.host.nextJob, op := op, desc := c, device := device } :: d.host.jobs
            host.nextJob := d.host.nextJob + 1 }, d.host.nextJob)

/-- Runs a command under its own rule. A command refused changes no state. -/
def Dev.execute (d : Dev) (op : Nat) (c : Desc) (run : Dev → Nat → Ran) : Dev :=
  let (d, j) := d.openJob op c
  match run d j with
  | .error r => d.complete op j r
  | .ok (d', some r) => d'.complete op j r
  | .ok (d', none) => d'

/-- Jobs of a command ring that have not completed. -/
def Dev.outstanding (d : Dev) (r : Nat) : Nat := (d.host.jobs.filter (fun j => j.desc.ring.val = r)).length

/-- Ring r holds a descriptor that the device may take, whatever its FLAGS, but for BARRIER (R370, R371, R379). -/
def Dev.holdsNext (d : Dev) (r : Nat) : Bool :=
  d.ringOn r && !(d.ring r).fetchStop && decide (d.ringPi r ≠ d.ringCi r)
    && d.ringOn (4 + r) && decide (d.outstanding r < d.ringFree (4 + r))

/-- Whether the host queue engine can take the next descriptor of the ring (R370, R371, R379): no lower-numbered ring holds one
that is ready. Of such a ring the row does not bring the descriptor; it is ready for sure while nothing of its ring is
outstanding, which BARRIER could wait for (DESIGN CHOICE 133). -/
def Dev.ready (d : Dev) (c : Desc) : Bool :=
  let r := c.ring.val
  d.host.up && d.holdsNext r && (!c.barrier || decide (d.outstanding r = 0))
    && !(List.range r).any (fun q => d.holdsNext q && decide (d.outstanding q = 0))

/-- Takes a descriptor from its ring: CI passes its slot (R371). -/
def Dev.takeSlot (d : Dev) (r : Nat) : Dev :=
  d.setReg (aRing r 0x14) (BitVec.ofNat 32 ((d.ringCi r + 1) % d.ringSize r))

/-- Payload of a message that carries a descriptor: its 64 bytes and its ring (log entry 40). -/
def descPayload (op : Nat) (c : Desc) : List Byte :=
  le 1 op ++ [c.flags] ++ le 2 c.tag.toNat ++ le 4 c.seq.toNat ++ c.body ++ le 1 c.ring.val

/-- The host data that goes with a forwarded descriptor (R436): a bulk body, or the package that an ENGINE_PKG_LOAD stages; a
package that could not be read goes as a message without data (log entry 40). -/
def Dev.forwardData (d : Dev) (op : Nat) (c : Desc) (bulk : HostRead) : Dev :=
  if c.bulk then (match bulk with | .data bs => d.jyData c.dest (c.u64 0) bs | .failed => d)
  else if op = 0x70 && decide (c.u8 0 = 0) then
    (match c.pkg with | .data bs => d.jyData c.dest (c.u64 8) bs | .failed => d.jySend c.dest 0x08 (le 8 (c.u64 8)))
  else d

/-- The header checks of R376 after SEQ: the status, if one fails. `bulkOk` is whether the opcode accepts BULK, `bulk` what
the device read of the bulk body. -/
def Dev.header (d : Dev) (op : Nat) (c : Desc) (known bulkOk : Bool) (bulk : HostRead) : Option Done :=
  if !known || c.flags.toNat % 16 / 4 ≠ 0 || c.flags.toNat / 128 ≠ 0 then some refusedDone
  else if c.bulk && (!bulkOk || decide (c.u32 8 < 56) || decide (65536 < c.u32 8)
      || (match bulk with | .failed => true | .data bs => decide (bs.length ≠ c.u32 8))) then some refusedDone
  else if c.bulk && !(c.zeros 12 55).2 then some (refusedDone (c.zeros 12 55).1)
  else if !d.worker && decide (c.dest ≠ 0) then (if d.present c.dest then none else some refusedDone)
  else if d.plane.frozen && decide (op ≠ 0x90) && decide (op ≠ 0x60) then some notPermitted
  else none

/-- A descriptor in this device: from a command ring of the manager, or, in a worker, as the manager forwarded it. -/
def Dev.command (d : Dev) (op : Nat) (c : Desc) (run : Dev → Nat → Ran)
    (known bulkOk : Bool := true) (bulk : HostRead := .failed) : Dev :=
  if d.life ≠ .running then d
  else if d.worker then
    d.execute op c (fun d' j => match d'.header op c known bulkOk bulk with | some r => .error r | none => run d' j)
  else if !d.ready c then d
  else
    let r := c.ring.val
    let expected := d.reg (aRing r 0x18)
    let d := (d.takeSlot r).setReg (aRing r 0x18) (c.seq + 1)
    if c.seq ≠ expected then
      let d := (d.count32 (aRing r 0x1C)).raise (aHq 8) 0 0x1B02 (le 1 r)
      d.execute op c (fun _ _ => .error { status := 1, kind := 0x27, id := expected.toNat })
    else match d.header op c known bulkOk bulk with
      | some x => d.execute op c (fun _ _ => .error x)
      | none =>
        if c.dest = 0 then d.execute op c run
        else
          let (d, _) := d.openJob op c c.dest
          (d.jySend c.dest 0x01 (descPayload op c) (decide (r = 0))).forwardData op c bulk

/-- A host opcode row that does not accept BULK: it stops on a descriptor whose body is not 56 bytes, which is none (R10). -/
def hostRow (op : Nat) (c : Desc) (run : Desc → Dev → Nat → Ran) (s : State) : Out1 :=
  if c.wf then onDev (fun d => d.command op c (run c) (bulkOk := false)) s else .fault .malformedDescriptor

/-- A host opcode row that accepts BULK (R375): the body in force is the bulk body. -/
def bulkRow (op : Nat) (c : Desc) (bulk : HostRead) (run : List Byte → Dev → Nat → Ran) (s : State) : Out1 :=
  if c.wf then
    onDev (fun d => d.command op c
      (run (if c.bulk then (match bulk with | .data bs => bs | .failed => []) else c.body)) true true bulk) s
  else .fault .malformedDescriptor

end Sys2Proof.Machine
end

