-- ==== Sys2Proof/Machine/Net.lean ====
section
/-! DEFINITION. Which object carries which: lanes and ports, ODUs and their servers, VC-4s and lower-order entries, Damask
positions and connection words, and the signal fail of monitored points. -/

namespace Sys2Proof.Machine

/-! ### Ports (R66, R68) -/

def isOtn (f : Nat) : Bool := f = 1 || f = 2
def isSdh (f : Nat) : Bool := 0x10 ≤ f && f ≤ 0x13
def isEth (f : Nat) : Bool := 0x20 ≤ f && f ≤ 0x25

/-- Kind of a format: 0 none, 1 OTN, 2 SDH, 3 Ethernet. -/
def formatKind (f : Nat) : Nat := if isOtn f then 1 else if isSdh f then 2 else if isEth f then 3 else 0

/-- N of an STM-N format. -/
def stmN (f : Nat) : Nat := match f with | 0x10 => 64 | 0x11 => 16 | 0x12 => 4 | 0x13 => 1 | _ => 0

/-- A hold is on the port: it was frozen by an urgent word, or it is shed (R395, R485). -/
def Port.onHold (q : Port) : Bool := q.frozenUrg || q.shedNow

def Dev.portOn (d : Dev) (p : Nat) : Bool := (d.port p).format ≠ 0

/-- The enabled port that owns lane l. -/
def Dev.laneOwner (d : Dev) (l : Nat) : Option Nat :=
  (d.ports.find? (fun x => x.2.format ≠ 0 && x.1 ≤ l && l < x.1 + x.2.lanes)).map (fun x => x.1)

/-- The lanes of a port. -/
def Dev.portLanes (d : Dev) (p : Nat) : List Nat := (List.range (d.port p).lanes).map (fun i => p + i)

/-- The enabled ports. -/
def Dev.enabledPorts (d : Dev) : List Nat := (d.ports.filter (fun x => x.2.format ≠ 0)).map (fun x => x.1)

/-- Framers of an enabled port, by their keys: one, or one for each OTUC slice (R95). -/
def Dev.framersOf (d : Dev) (p : Nat) : List Nat :=
  let q := d.port p
  if q.format = 1 then (List.range q.otucN).map (fun i => 16 * p + i)
  else if q.format = 2 || isSdh q.format then [16 * p] else []

/-- FlexO instances of a port (R67). -/
def Dev.flexoCount (d : Dev) (p : Nat) : Nat :=
  if (d.port p).format = 1 then (if (d.lane p).rate = 1 then 2 else 1) * (d.port p).lanes else 0

/-- What each FlexO instance of an OTUCn port transmits (R67): the OTUC slice of instances 1 to n, and none, an all-zero
payload, in instances n+1 to x. -/
def Dev.flexoTx (d : Dev) (p : Nat) : List (Option Nat) :=
  (List.range (d.flexoCount p)).map (fun i => if i < (d.port p).otucN then some (i + 1) else none)

def Dev.portInFrame (d : Dev) (p : Nat) : Bool :=
  !(d.framersOf p).isEmpty && (d.framersOf p).all (fun k => (d.framer k).inFrame)

/-- The ODU multiframe of a port is locked (R97, R98): every slice's X equals slice 1's X. A slice whose MFAS of the frame in
progress is still to come after slice 1's has an X one behind. -/
def Dev.portMfLock (d : Dev) (p : Nat) : Bool :=
  let one := d.framer (16 * p)
  !(d.framersOf p).isEmpty && (d.framersOf p).all (fun k =>
    let f := d.framer k
    f.mf.lock && (k = 16 * p || decide ((f.mf.x + (if f.mfHere then 0 else 1)) % 256 = one.mf.x)))

/-! ### ODUs (R147–R150, R185) -/

/-- Damask-H slots of an ODU as a leaf (R148). -/
def leafSlots (ty flexTs flags : Nat) : Nat :=
  match ty with
  | 0x00 | 0x01 => 1
  | 0x02 | 0x03 => 2
  | 0x04 => 20
  | 0x05 | 0x06 => if flags % 2 = 1 then flexTs else (flexTs + 3) / 4
  | _ => 0

/-- Nominal bit rate of an ODUflex in bit/s, as a fraction: FLEX_TS times the rate of a slot that G.709 gives for its number of
slots (R552; PRESUMED 101). -/
def flexRate (o : Odu) : Nat × Nat :=
  if o.flags % 2 = 1 then (o.flexTs * 239 * 5156250000, 238)
  else (o.flexTs * (if o.flexTs ≤ 8 then 1249177230 else if o.flexTs ≤ 32 then 1254470354 else 1301467133), 1)

def Odu.leafK (o : Odu) : Nat := leafSlots o.ty o.flexTs o.flags

/-- The ODUs that name `o` as their server. -/
def Dev.clients (d : Dev) (o : Nat) : List Nat :=
  (d.odus.filter (fun x => match x.2 with | some c => c.kind = 1 && c.server = o | none => false)).map (fun x => x.1)

/-- A leaf: no ODU names it as its server (R150). -/
def Dev.isLeaf (d : Dev) (o : Nat) : Bool := (d.odu o).isSome && (d.clients o).isEmpty

/-- The structure as the waiting creates and deletes will leave it. -/
def Dev.planned (d : Dev) : Dev := d.mapJobs.foldl (fun d j => d.setOdu j.odu j.make) d

/-- The port at which an ODU's chain of servers ends; none for a packet ODU (R150). -/
def Dev.oduPort (d : Dev) : Nat → Nat → Option Nat
  | 0, _ => none
  | n + 1, o => match d.odu o with
    | some x => if x.kind = 0 then some x.server else if x.kind = 1 then d.oduPort n x.server else none
    | none => none

/-- The local slots of an ODU, in ascending order (R185). -/
def Dev.slotsOf (d : Dev) (o : Nat) : List Nat := (d.xc.slots.filter (fun x => x.2 = o + 1)).map (fun x => x.1)

/-- The line ODU of a port. -/
def Dev.lineOdu (d : Dev) (p : Nat) : Option Nat :=
  (d.odus.find? (fun x => match x.2 with | some c => c.kind = 0 && c.server = p | none => false)).map (fun x => x.1)

/-! ### VC-4s and lower-order entries (R156, R157, R187) -/

/-- The VC-4s of a port, by their first numbers. -/
def Dev.portVc4s (d : Dev) (p : Nat) : List Nat :=
  (d.vc4s.filter (fun x => match x.2 with | some v => v.port = p | none => false)).map (fun x => x.1)

/-- The MSP group whose working port or protection port is `p` (R211). -/
def Dev.mspOf (d : Dev) (p : Nat) (working : Bool) : Option Selector :=
  (d.sels.find? (fun x => x.1 / 4096 = 1 && (match x.2 with
    | some v => (if working then v.work else v.prot) = p
    | none => false))).bind (fun x => x.2)

/-- The port whose received signal feeds the VC-4s of a port: of an MSP group's working port, the selected one (R211). -/
def Dev.feedPort (d : Dev) (p : Nat) : Nat :=
  match d.mspOf p true with
  | some v => if v.selected then v.prot else v.work
  | none => p

/-- The VC-4s that the received signal of a port feeds. -/
def Dev.fedVc4s (d : Dev) (p : Nat) : List Nat :=
  (d.vc4s.filter (fun x => match x.2 with | some v => d.feedPort v.port = p | none => false)).map (fun x => x.1)

/-- The port whose structure is sent on a port: on an MSP group's protection port, the working port's (R211). -/
def Dev.sentPort (d : Dev) (p : Nat) : Nat := match d.mspOf p false with | some v => v.work | none => p

/-- The VC-4 number `v`, if any VC-4 holds it: its first number. -/
def Dev.vc4Holding (d : Dev) (v : Nat) : Option Nat :=
  (d.vc4s.find? (fun x => match x.2 with | some c => x.1 ≤ v && v < x.1 + c.concat | none => false)).map (fun x => x.1)

/-- The opened VC-4 of lower-order slot k. -/
def Dev.loVc4 (d : Dev) (k : Nat) : Option Nat :=
  (d.vc4s.find? (fun x => match x.2 with | some c => c.struct && c.loSlot = k | none => false)).map (fun x => x.1)

/-- Whether an entry lies in a TUG-3 that carries a TU-3. -/
def Dev.inTu3 (d : Dev) (e : Nat) : Bool :=
  match (d.loVc4 (e / 63)).bind d.vc4 with
  | some v => v.tug3.getLsbD (e % 63 / 21)
  | none => false

/-- Whether an entry exists: it lies in a created lower-order slot and is not an unused entry of a TU-3 (R143, R157). -/
def Dev.entryExists (d : Dev) (e : Nat) : Bool :=
  (d.loVc4 (e / 63)).isSome && (!d.inTu3 e || decide (e % 63 % 21 = 0))

/-- An entry that carries a VC-3. -/
def Dev.isVc3 (d : Dev) (e : Nat) : Bool := d.inTu3 e && decide (e % 63 % 21 = 0)

/-- The port of an entry's VC-4. -/
def Dev.entryPort (d : Dev) (e : Nat) : Option Nat := ((d.loVc4 (e / 63)).bind d.vc4).map (fun v => v.port)

/-! ### Connection memory words (R190) -/

/-- The page that is active in a table (0 slot, 1 VC-4, 2 LO). -/
def Dev.activePage (d : Dev) (table : Nat) : Nat := if table = 2 then d.xc.lPhys.val else d.xc.hPhys.val
def Dev.standbyPage (d : Dev) (table : Nat) : Nat := 1 - d.activePage table

/-- Key of a word in `Xc.words`. -/
def xcKey (page table pos : Nat) : Nat := (page * 3 + table) * 8192 + pos

/-- The word of an unconnected position that no ODU owns, at reset. -/
def xcReset (table : Nat) : Data := if table = 0 then (1 <<< 44) ||| (1 <<< 60) else 0

def Dev.xcWord (d : Dev) (page table pos : Nat) : Data := tget (xcReset table) d.xc.words (xcKey page table pos)
def Dev.setXcWord (d : Dev) (page table pos : Nat) (w : Data) : Dev :=
  { d with xc.words := tput (xcReset table) d.xc.words (xcKey page table pos) w }

def wFld (w : Data) (lo n : Nat) : Nat := w.toNat / 2 ^ lo % 2 ^ n

/-- SRC_KIND, SRC and INDEX of a word. -/
def srcKind (w : Data) : Nat := wFld w 0 3
def srcVal (table : Nat) (w : Data) : Nat := match table with | 0 => wFld w 4 12 | 1 => wFld w 4 9 | _ => wFld w 4 13
def srcIndex (w : Data) : Nat := wFld w 16 9

/-- Positions of a table. -/
def tableSize : Nat → Nat | 0 => 2720 | 1 => 512 | 2 => 8064 | _ => 0

/-- The slot-table word of position x, connected or not, with the owners of R185. -/
def Dev.slotWord (d : Dev) (x kind src index : Nat) : Data :=
  let dst := tget 0 d.xc.slots x
  let own := if kind = 1 then tget 0 d.xc.slots src else 0
  BitVec.ofNat 64 (kind + src * 2 ^ 4 + index * 2 ^ 16 + (if dst = 0 then 2 ^ 44 else (dst - 1) * 2 ^ 32)
    + (if own = 0 then 2 ^ 60 else (own - 1) * 2 ^ 48))

/-- The VC-4 table word. -/
def vcWord (kind src concat part : Nat) : Data :=
  if kind = 0 then 0 else BitVec.ofNat 64 (kind + src * 2 ^ 4 + concat * 2 ^ 16 + part * 2 ^ 23)

/-- The LO table word. -/
def loWord (kind src : Nat) (vc3 : Bool) : Data :=
  if kind = 0 then 0 else BitVec.ofNat 64 (kind + src * 2 ^ 4 + (if vc3 then 2 ^ 17 else 0))

/-- The listed words of a page of a table: positions and words. -/
def Dev.pageWords (d : Dev) (page table : Nat) : List (Nat × Data) :=
  (d.xc.words.filter (fun x => x.1 / 8192 = page * 3 + table)).map (fun x => (x.1 % 8192, x.2))

/-- The connected positions of a page of a table. -/
def Dev.connected (d : Dev) (page table : Nat) : List (Nat × Data) :=
  (d.pageWords page table).filter (fun x => srcKind x.2 ≠ 0)

/-- Whether a position is connected in either page. -/
def Dev.inEitherPage (d : Dev) (table pos : Nat) : Bool :=
  srcKind (d.xcWord 0 table pos) ≠ 0 || srcKind (d.xcWord 1 table pos) ≠ 0

/-- Whether either page of a table connects a position from the given source. -/
def Dev.feedsAny (d : Dev) (table kind src : Nat) : Bool :=
  [0, 1].any (fun pg => (d.connected pg table).any (fun x => srcKind x.2 = kind && srcVal table x.2 = src))

/-- Whether an ODU's slots appear in either page, as a destination or a source. -/
def Dev.oduInPages (d : Dev) (o : Nat) : Bool :=
  (d.slotsOf o).any (fun s => d.inEitherPage 0 s || d.feedsAny 0 1 s)

/-- The Jersey link from whose slots a word of the slot table takes its ODU. -/
def wordLink (table : Nat) (w : Data) : Option Nat :=
  if table = 0 && decide (srcKind w = 1) && decide (2560 ≤ srcVal 0 w) then some ((srcVal 0 w - 2560) / 20) else none

/-- What an output position carries by its word in a page (R135, R189): an unconnected ODU ODU-OCI, an unconnected VC the
unequipped signal, an unconnected Jersey slot all-zero content; ODU-AIS from the slots of a link that is down (R442). -/
def Dev.positionSig (d : Dev) (page table pos : Nat) : TxSig :=
  let w := d.xcWord page table pos
  if srcKind w ≠ 0 then (match wordLink table w with | some j => if d.linkPresent j then .normal else .ais | none => .normal)
  else match table with
    | 0 => if 2560 ≤ pos then .zeros else .oci
    | _ => .unequipped

/-- Output positions carry from now on what their words in a page say (R189, R202). -/
def Dev.sendPositions (d : Dev) (page table : Nat) (ps : List Nat) : Dev :=
  ps.foldl (fun d p => d.emit (.position (if table = 0 && decide (2560 ≤ p) then 3 else table) p (d.positionSig page table p))) d

/-- The output positions fed from the slots of a Jersey link carry what its state gives them from now on (R442). -/
def Dev.sendFromLink (d : Dev) (j : Nat) : Dev :=
  let pg := d.activePage 0
  d.sendPositions pg 0 (((d.connected pg 0).filter (fun x => wordLink 0 x.2 = some j)).map (fun x => x.1))

/-- Gives free local slots to ODU `o` (or frees them, owner 0) and brings the owners in the words of those positions up to
date in both pages (R185, R190). A leaf's output positions carry ODU-OCI from then on (R135). -/
def Dev.ownSlots (d : Dev) (ss : List Nat) (owner : Nat) : Dev :=
  let d := ss.foldl (fun d s =>
    let d := { d with xc.slots := tput 0 d.xc.slots s owner }
    [0, 1].foldl (fun d pg => d.setXcWord pg 0 s (d.slotWord s 0 0 0)) d) d
  if owner = 0 then d else d.sendPositions (d.activePage 0) 0 ss

/-- The k lowest-numbered free local slots. -/
def Dev.freeSlots (d : Dev) (k : Nat) : List Nat :=
  ((List.range 2560).filter (fun s => tget 0 d.xc.slots s = 0)).take k

/-! ### Points: what they watch, and signal fail (R112, R125, R126) -/

/-- Bits of R126 that give a point signal fail by themselves, with TIM_ACT for dTIM. -/
def sfBits (raw : BitVec 24) (timAct : Bool) : Bool :=
  raw &&& 0x00367F ≠ 0 || (timAct && raw.getLsbD 8)

/-- The server point of a point, by its key (R126). -/
def Dev.serverOf (d : Dev) (ty index : Nat) : Option Nat :=
  match ty with
  | 2 | 3 => match d.odu index with
    | some o => if o.kind = 0 then some (mpKeyOf 1 0 o.server) else if o.kind = 1 then some (mpKeyOf 2 0 o.server) else none
    | none => none
  | 5 => some (mpKeyOf 4 0 index)
  | 6 => (d.vc4 index).map (fun v => mpKeyOf 5 0 (d.feedPort v.port))
  | 7 => (d.loVc4 (index / 63)).map (fun v => mpKeyOf 6 0 v)
  | 8 => some (mpKeyOf 7 0 index)
  | _ => none

/-- Type, level and index of a key. -/
def mpTyOf (k : Nat) : Nat := k / 8192 / 8
def mpLevelOf (k : Nat) : Nat := k / 8192 % 8
def mpIndexOf (k : Nat) : Nat := k % 8192

/-- Signal fail of a point (R126): by its own detected defects while it has ROLE ≥ 1, or by its server. -/
def Dev.sfN (d : Dev) : Nat → Nat → Bool
  | 0, _ => false
  | n + 1, k =>
    let x := d.point k
    (match d.serverOf (mpTyOf k) (mpIndexOf k) with | some s => d.sfN n s | none => false)
      || (decide (x.role ≠ 0) && sfBits x.raw x.timAct)

/-- Signal fail of a point. The longest chain of servers is E1, LO, HO, MS, RS, or four ODUs and an SM. -/
def Dev.sf (d : Dev) (k : Nat) : Bool := d.sfN 8 k

/-- Signal fail of a point's server. -/
def Dev.serverSf (d : Dev) (k : Nat) : Bool :=
  match d.serverOf (mpTyOf k) (mpIndexOf k) with | some s => d.sf s | none => false

/-- The port of a point's object; none for a packet ODU's. -/
def Dev.pointPort (d : Dev) (k : Nat) : Option Nat :=
  let i := mpIndexOf k
  match mpTyOf k with
  | 1 | 4 | 5 => some i
  | 2 | 3 => d.oduPort 5 i
  | 6 => (d.vc4 i).map (fun v => v.port)
  | 7 | 8 => d.entryPort i
  | _ => none

/-- The port through which the device receives a point's signal now (R211). -/
def Dev.pointFeed (d : Dev) (k : Nat) : Option Nat :=
  (d.pointPort k).map (fun p => if 6 ≤ mpTyOf k then d.feedPort p else p)

/-- The slice that serves a point (R340): that of its port, and slice o mod 8 for packet ODU o. -/
def Dev.pointSlice (d : Dev) (k : Nat) : Nat :=
  match d.pointPort k with
  | some p => p / 8
  | none => mpIndexOf k % 8

/-- Whether the object of a point exists (R143). -/
def Dev.pointExists (d : Dev) (ty index : Nat) : Bool :=
  match ty with
  | 1 => isOtn (d.port index).format
  | 2 | 3 => (d.odu index).isSome
  | 4 | 5 => isSdh (d.port index).format
  | 6 => (d.vc4 index).isSome
  | 7 => d.entryExists index
  | 8 => decide ((d.lo index).e1Mode ≠ 0)
  | _ => false

/-- The port's SM or RS point has SF while it has ROLE ≥ 1: signal fail of a lane reference (R284). -/
def Dev.refSf (d : Dev) (l : Nat) : Bool :=
  match d.laneOwner l with
  | some p =>
    let k := if isSdh (d.port p).format then mpKeyOf 4 0 p else mpKeyOf 1 0 p
    decide ((d.point k).role ≠ 0) && d.sf k
  | none => false

/-! ### What the framers show (R89, R109, R110) -/

/-- Bits of a list of conditions, from bit 0 on. -/
def bitsOf (bs : List Bool) : Word := (bs.zipIdx).foldl (fun w x => w ||| bitAt x.1 x.2) 0

/-- The plane that status shows (R89). -/
def Dev.shownPlane (d : Dev) : Nat := if d.planeFenced 1 then 0 else if d.planeFenced 0 then 1 else d.plane.preferred.val

/-- OMFI is used by an ODU4 that serves clients (R100). -/
def Odu.usesOmfi (o : Odu) : Bool := o.ty = 4 && o.payload = 0

/-- H4 lock of the AU-4s of a port, 32 from number `from1` on. -/
def Dev.h4Map (d : Dev) (p from1 : Nat) : Word :=
  bitsOf ((List.range 32).map (fun i => (d.fedVc4s p).any (fun v => match d.vc4 v with
    | some x => x.au4 = from1 + i && x.struct && x.h4.lock
    | none => false)))

/-- The E1 of an entry is demapped, and the E1_FRAMING in force: 0 where it is not (R102, R164). -/
def Dev.e1Framing (d : Dev) (e : Nat) : Nat :=
  if (d.lo e).e1Mode = 0 then 0 else (d.point (mpKeyOf 8 0 e)).e1Framing

/-- The ODU4s whose OPU4 multiframe a port's framer aligns. -/
def Dev.omfiOdus (d : Dev) (p : Nat) : List Odu :=
  d.odus.filterMap (fun x => x.2.filter (fun o => o.usesOmfi && d.oduPort 5 x.1 = some p))

/-- FRM_STATUS of a port as its framers are. Several ODU4s of one port show lock when each has it (DESIGN CHOICE 98). -/
def Dev.frStatus (d : Dev) (p : Nat) : Word :=
  let q := d.port p
  let os := d.omfiOdus p
  bitAt (d.portInFrame p) 0 ||| bitAt (d.portMfLock p) 1 ||| bitAt (!os.isEmpty && os.all (fun o => o.omfi.lock)) 2
    ||| bitAt (q.format = 1 && (List.range q.otucN).all (fun k => (tget {} d.flexo (16 * p + k)).lock)) 3
    ||| fldAt (tget 0 d.oofCause p) 4 2 ||| fldAt (d.framer (16 * p)).mfas 8 8
    ||| (if q.format = 1 then fldAt (bitsOf ((d.framersOf p).map (fun k => (d.framer k).inFrame))).toNat 16 16 else 0)

/-- E1_STATUS of an E1 as its framer is; an entry whose E1 is not demapped reads 0 (R110). -/
def Dev.e1Status (d : Dev) (e : Nat) : Word :=
  let x := d.e1 e
  if (d.lo e).e1Mode = 0 then 0
  else fldAt (match x.st with | .none => 0 | .oof => 1 | .ifBasic => 2 | .ifMf => 3) 0 2 ||| bitAt x.noCrc4 2
    ||| fldAt (d.e1Framing e) 3 2 ||| fldAt x.mfRestarts 8 8 ||| fldAt x.oofCount 16 16

/-- The slice of a port is fenced in a plane: the framers of the port have stopped there (R455). -/
def Dev.frStopped (d : Dev) (plane p : Nat) : Bool := d.fenced (srcOf 14 (8 * plane + p / 8))

/-- The framers of a port in the plane that status shows run (R89, R455). -/
def Dev.frSeen (d : Dev) (p : Nat) : Bool := !d.frStopped d.shownPlane p

/-- The framers of a port run in a plane: the register file holds the counts of such a one. -/
def Dev.frRuns (d : Dev) (p : Nat) : Bool := [0, 1].any (fun q => !d.planeFenced q && !d.frStopped q p)

/-- A framer word as the host reads it: that of the shown plane, which a fence of its slice there has stopped (R89, R455). -/
def Dev.frView (d : Dev) (p a : Nat) (now : Word) : Word :=
  if d.frSeen p then now else tget 0 d.plane.framerHeld (2 ^ 26 * d.shownPlane + a)

/-- The status words of a port's framers as they are now (R109). -/
def Dev.frPortWords (d : Dev) (p : Nat) : List (Nat × Word) :=
  [(aPort p 0x10, d.frStatus p), (aPort p 0x24, d.h4Map p 1), (aPort p 0x28, d.h4Map p 33)]

/-- The stopped framers of a port show these words from now on. -/
def Dev.frHold (d : Dev) (p : Nat) (ws : List (Nat × Word)) : Dev :=
  { d with plane.framerHeld := ([0, 1].filter (fun q => d.frStopped q p)).foldl (fun t q =>
      ws.foldl (fun t x => tput 0 t (2 ^ 26 * q + x.1) x.2) t) d.plane.framerHeld }

/-- The framer words of slice k of a plane as they are now, by their keys in `PlaneSt.framerHeld`. -/
def Dev.frWords (d : Dev) (plane k : Nat) : List (Nat × Word) :=
  let ports : List (Nat × Word) := (List.range 8).flatMap (fun i =>
    let p := 8 * k + i
    d.frPortWords p ++ [0x18, 0x1C, 0x20].map (fun o => (aPort p o, d.reg (aPort p o))))
  let e1s : List (Nat × Word) :=
    (d.e1s.filter (fun x => (d.entryPort x.1).any (fun p => p / 8 = k))).map (fun x => (0x300000 + 4 * x.1, d.e1Status x.1))
  (ports ++ e1s).map (fun x => (2 ^ 26 * plane + x.1, x.2))

end Sys2Proof.Machine
end

