-- ==== Sys2Proof/Machine/Points.lean ====
section
/-! DEFINITION. Monitored points: the detected state of every defect (R125), the declared state in Service and Settling
(R128–R131), the triggers of Settling with their events (R130, R146), and the consequent actions (R133–R135). -/

namespace Sys2Proof.Machine

/-- Address of a point's status group (R145). -/
def pointRegs (k : Nat) : Nat :=
  let i := mpIndexOf k
  match mpTyOf k with
  | 1 | 4 => aPort i 0x40
  | 5 => aPort i 0x50
  | 6 => 0x308000 + 0x10 * i
  | 7 => 0x310000 + 0x10 * i
  | 8 => 0x330000 + 0x10 * i
  | 2 => 0x350000 + 0x80 * i
  | _ => 0x350000 + 0x80 * i + 0x10 * mpLevelOf k

/-- MP_TYPE, MP_INDEX and LEVEL as an event carries them (R146). -/
def pointArgs (k : Nat) : List Byte := le 1 (mpTyOf k) ++ le 2 (mpIndexOf k) ++ le 1 (mpLevelOf k)

/-- dLOM of an E1 (R125): it begins in IF_BASIC in mode 2, or in mode 3 without NO_CRC4; it ends in IF_MF or with NO_CRC4, and
lasts through OOF. Modes 0 and 1 ask for no multiframe (DEDUCED 99). -/
def e1Lom (mode : Nat) (x : E1) (was : Bool) : Bool :=
  if mode < 2 || x.st = .ifMf || x.noCrc4 then false else was || decide (x.st = .ifBasic)

/-- The expected label of a point (R143): the V5 label of a VC-12 is in the low three bits of EXP_PT. -/
def Dev.expLabel (d : Dev) (k expPt : Nat) : Nat :=
  if mpTyOf k = 7 && !d.isVc3 (mpIndexOf k) then expPt % 8 else expPt

/-- The MSI of an ODU: for each tributary slot, the TPN of the client that holds it, none where none does (R124, R151). -/
def Dev.sentMsi (d : Dev) (o n : Nat) : List (Option Nat) :=
  let cs := (d.clients o).filterMap d.odu
  (List.range n).map (fun i => (cs.find? (fun c => c.ts.contains (i + 1))).map Odu.tpn)

/-- The expected MSI of an ODU, 0 for a slot that no client holds (R124). -/
def Dev.expMsi (d : Dev) (o n : Nat) : List Nat := (d.sentMsi o n).map (fun t => t.getD 0)

/-- Tributary slots of an ODU as a server (R149). -/
def Dev.serverTs (d : Dev) (o : Nat) : Nat :=
  match d.odu o with
  | some x => match x.ty with | 0x07 => 20 * (d.port x.server).otucN | 0x04 => 80 | 0x02 => 4 | _ => 0
  | none => 0

/-- Tributary slots that an ODU's MSI describes: none where its payload is not tributaries (R125, R149). -/
def Dev.msiTs (d : Dev) (o : Nat) : Nat :=
  if (d.odu o).any (fun x => x.payload = 0) then d.serverTs o else 0

/-- Tributary slots of an ODU whose accepted MSI differs from the expected one (R124, R133). -/
def Dev.badSlots (d : Dev) (k : Nat) : List Nat :=
  let x := d.point k
  let n := d.msiTs (mpIndexOf k)
  if x.msi.isEmpty then []
  else ((List.range n).filter (fun i => x.msi.getD i 0 ≠ (d.expMsi (mpIndexOf k) n).getD i 0)).map (fun i => i + 1)

/-- Their number. -/
def Dev.msiBad (d : Dev) (k : Nat) : Nat := (d.badSlots k).length

/-- Bytes `lo` to `hi` of a TTI, a missing byte being 0. -/
def ttiPart (t : List Byte) (lo n : Nat) : List Byte := (List.range n).map (fun i => t.getD (lo + i) 0)

/-- The accepted TTI differs from the expected one in the fields of R123. -/
def timOf (ty : Nat) (x : Point) : Bool :=
  if x.tti.isEmpty then false
  else
    let differ := fun lo n => ttiPart x.tti lo n ≠ ttiPart x.expTti lo n
    if ty ≤ 3 then
      match x.timMode with
      | 1 => differ 0 16 | 2 => differ 16 16 | 3 => differ 0 32 | _ => false
    else
      match x.timMode with
      | 1 => differ 1 15 | 2 => differ 0 1 | 3 => differ 0 64 | _ => false

/-- One bit of a defect word. -/
def dbit (b : Bool) (i : Nat) : BitVec 24 := if b then BitVec.ofNat 24 (2 ^ i) else 0

/-- The copy of an engine in a plane does not run: it, its slice or its plane is fenced (R350, R423). -/
def Dev.engineDead (d : Dev) (plane slice k : Nat) : Bool :=
  d.fenced (srcOf 9 (128 * plane + 16 * slice + k)) || d.fenced (srcOf 14 (8 * plane + slice)) || d.planeFenced plane

/-- Both copies of the engine that runs a point's function have stopped: its accepted values and declared defects hold, and
it posts nothing (R351). -/
def Dev.pointHeld (d : Dev) (k : Nat) : Bool :=
  match (d.point k).engine with
  | some e => d.engineDead 0 (d.pointSlice k) e && d.engineDead 1 (d.pointSlice k) e
  | none => false

/-- The defects of R125 that follow directly from other state. -/
def Dev.rawFollow (d : Dev) (k : Nat) (x : Point) : BitVec 24 :=
  let ty := mpTyOf k
  let i := mpIndexOf k
  let p := d.port i
  let los := decide (p.astate ≠ .aligned)
  let label := fun (st : Nat) =>
    let plm := match x.pt with | some v => v ≠ 0 && v ≠ d.expLabel k x.expPt && v ≠ 1 | none => false
    dbit (st = 2) 4 ||| dbit (x.pt = some 0) 5 ||| dbit (timOf ty x) 8 ||| dbit plm 9 ||| dbit (st = 3) 12
  if !d.pointExists ty i then 0
  else match ty with
  | 1 => x.raw &&& 0x000886 ||| dbit los 0 ||| dbit (timOf ty x) 8
  | 4 => x.raw &&& 0x000802 ||| dbit los 0 ||| dbit (timOf ty x) 8
  | 5 => x.raw &&& 0x000890
  | 2 => x.raw &&& 0x000888 ||| dbit (x.stat = 7) 4 ||| dbit (x.stat = 6) 5 ||| dbit (x.stat = 5) 6
      ||| dbit (timOf ty x) 8
      ||| dbit (match x.pt with | some v => v ≠ x.expPt | none => false) 9 ||| dbit (d.msiBad k ≠ 0) 10
  | 3 => x.raw &&& 0x000880 ||| dbit (x.stat = 7) 4 ||| dbit (x.stat = 6) 5 ||| dbit (x.stat = 5) 6
      ||| dbit (timOf ty x) 8 ||| dbit (x.stat = 0) 13
  | 6 => x.raw &&& 0x000884 ||| label (match d.vc4 i with | some v => v.ptr.st | none => 0)
  | 7 => x.raw &&& 0x000880 ||| label (if d.entryExists i then (d.lo i).ptr.st else 0)
  | 8 =>
    let f := d.e1 i
    x.raw &&& (if x.e1Framing = 0 then 0x000810 else 0x000890) ||| dbit (f.st = .oof) 1
      ||| dbit (e1Lom x.e1Framing f (x.raw.getLsbD 2)) 2
  | _ => 0

/-- The detected state that a point keeps: the comparisons of dTIM, dPLM and dMSIM run on its engine, and hold while that has
stopped in both planes (R114, R351). -/
def Dev.rawNow (d : Dev) (k : Nat) (x : Point) : BitVec 24 :=
  let new := d.rawFollow k x
  if d.pointHeld k then new &&& ~~~(0x700 : BitVec 24) ||| x.raw &&& 0x700 else new

/-- Declares and clears defects: DEF_HIST and DEF_CLRHIST, with an event for each bit that newly sets (R146). -/
def Dev.declare (d : Dev) (k : Nat) (new : BitVec 24) : Dev :=
  let x := d.point k
  if new = x.dec || d.pointHeld k then d
  else
    let d := d.updPoint k (fun x => { x with dec := new })
    let rise := new &&& ~~~x.dec
    let fall := x.dec &&& ~~~new
    let evs := fun (bits : BitVec 24) (code : Nat) =>
      (List.range 24).filterMap (fun i => if bits.getLsbD i then some (i, some (code, pointArgs k ++ le 1 i)) else none)
    let d := if rise = 0 then d else d.raiseAll (pointRegs k + 8) (evs rise 0x1301)
    if fall = 0 then d else d.raiseAll (pointRegs k + 0xC) (evs fall 0x1302)

/-! ### Consequent actions (R133–R136): what the device sends because of a point -/

/-- What a point at ROLE 2 does downstream for its own SF (R133): AIS on all that is demultiplexed from its signal, or, when
dMSIM alone gives it SF, on the tributary slots that mismatch. -/
def Dev.downstream (d : Dev) (k : Nat) : Bool × List Nat :=
  let x := d.point k
  if x.role ≠ 2 || mpTyOf k = 8 then (false, [])
  else if mpTyOf k = 2 then
    let others := d.serverSf k || sfBits (x.raw &&& ~~~(0x400 : BitVec 24)) x.timAct
    (others, if others || !x.raw.getLsbD 10 then [] else d.badSlots k)
  else (d.sf k, [])

/-- AIS that a point further out inserts already reaches the point's signal: from its server, from a tandem connection of
its server ODU, or from a server further out (R136). -/
def Dev.aisReaches (d : Dev) : Nat → Nat → Bool
  | 0, _ => false
  | n + 1, k =>
    match d.serverOf (mpTyOf k) (mpIndexOf k) with
    | none => false
    | some s =>
      let (all, slots) := d.downstream s
      let mine := match d.odu (mpIndexOf k) with | some o => mpTyOf k ≤ 3 && o.ts.any slots.contains | none => false
      let tcm := mpTyOf s = 2 && (List.range 6).any (fun l => (d.downstream (mpKeyOf 3 (l + 1) (mpIndexOf s))).1)
      all || mine || tcm || d.aisReaches n s

/-- The maintenance signal that MAINT orders (R134). -/
def maintSig (ty maint : Nat) : TxSig :=
  match maint with
  | 0 => .normal
  | 1 => .ais
  | 2 => .lck
  | _ => if ty ≤ 3 then .oci else .unequipped

/-- A point has a reverse direction in the device (R113): its signal comes through a port. An E1 that is only monitored
leaves in a VC-12 that passes unchanged (DEDUCED 100). -/
def Dev.hasReverse (d : Dev) (k : Nat) : Bool :=
  (d.pointPort k).isSome && (mpTyOf k ≠ 8 || decide (2 ≤ (d.lo (mpIndexOf k)).e1Mode))

/-- The tables of R133 and R134. AIS that is already present passes, and nothing further is inserted; the signal that MAINT
orders waits for a frame boundary (R136). -/
def Dev.actions (d : Dev) (k : Nat) : Actions :=
  let x := d.point k
  if x.role ≠ 2 then {}
  else
    let (all, slots) := d.downstream k
    let here := d.aisReaches 8 k
    { ais := all && !here, aisSlots := if here then [] else slots
      back := d.sf k && decide (mpTyOf k ≠ 4) && d.hasReverse k, sig := x.act.sig }

/-- The consequent actions of a point follow its state: a change starts or stops them (R133, R136). -/
def Dev.act (d : Dev) (k : Nat) : Dev :=
  let a := d.actions k
  if a = (d.point k).act then d else (d.updPoint k (fun x => { x with act := a })).emit (.consequent k a)

/-- A frame boundary of a point's transmitted signal: the signal that MAINT orders takes effect, or ends (R134, R136). -/
def Dev.maintStart (d : Dev) (k : Nat) : Dev :=
  let x := d.point k
  let a := { x.act with sig := maintSig (mpTyOf k) x.maint }
  if x.role ≠ 2 || a = x.act then d else (d.updPoint k (fun x => { x with act := a })).emit (.consequent k a)

/-- Brings one point up to date: its own detected defects, the detected state that its server's SF hides (R126), the
instant of each change, the defect second (R137), its consequent actions (R133), and in Service the declared state (R128). -/
def Dev.refreshPoint (d : Dev) (k : Nat) : Dev :=
  let x := d.point k
  if x.role = 0 then d
  else
    let raw := d.rawNow k x
    let d := d.updPoint k (fun x => { x with raw := raw })
    let det := if d.serverSf k then 0 else raw
    let ch := det ^^^ x.det
    let changed := (List.range 24).foldl (fun t i => if ch.getLsbD i then tput 0 t i d.now else t) x.changed
    let sf := d.sf k
    let d := d.updPoint k (fun x => { x with
      det := det, changed := changed, neDef := x.neDef || sf, feDef := x.feDef || det.getLsbD 7 })
    let d := d.act k
    if x.settling then d else d.declare k det

/-- Brings every point up to date after a change of what they watch. Own defects first, since a client sees its server's. -/
def Dev.refresh (d : Dev) : Dev :=
  let keys := d.points.map (fun x => x.1)
  let d := keys.foldl (fun d k =>
    let x := d.point k
    if x.role = 0 then d else d.updPoint k (fun y => { y with raw := d.rawNow k x })) d
  keys.foldl Dev.refreshPoint d

/-! ### Settling (R128, R130, R131, R146) -/

/-- Takes a point out of its port's group; the port's SETTLING_ENDED posts when the group becomes empty. -/
def Dev.ungroup (d : Dev) (k : Nat) : Dev :=
  match (d.point k).group with
  | none => d
  | some p =>
    let d := d.updPoint k (fun x => { x with group := none })
    if d.points.any (fun y => y.2.group = some p) then d
    else
      let c := tget 0 d.groupCause p
      let d := { d with groupCause := tput 0 d.groupCause p 0 }
      d.post 0x1304 (le 1 0 ++ le 2 p ++ le 1 0 ++ le 1 c)

/-- A point enters Settling with its recovery timer restarted; each persistence count starts now. -/
def Dev.enterSettling (d : Dev) (k cause : Nat) : Dev :=
  let d := d.updPoint k (fun x => { x with
    settling := true, recStart := d.now, cause := cause
    changed := (List.range 24).foldl (fun t i => tput 0 t i d.now) x.changed })
  d.ungroup k

/-- A trigger of R130 with cause 0, 3, 4 or 5 on one point: it and its event. -/
def Dev.settle (d : Dev) (cause : Nat) (k : Nat) : Dev :=
  if (d.point k).role = 0 then d
  else
    let d := d.enterSettling k cause
    if d.pointHeld k then d else d.post 0x1303 (pointArgs k ++ le 1 cause)

/-- A trigger of cause 1 or 2: every point at ROLE ≥ 1 whose signal comes through the port forms the port's group. -/
def Dev.settlePort (d : Dev) (p cause : Nat) : Dev :=
  let ks := (d.points.filter (fun x => x.2.role ≠ 0 && d.pointFeed x.1 = some p
      && d.pointExists (mpTyOf x.1) (mpIndexOf x.1))).map (fun x => x.1)
  if ks.isEmpty then d
  else
    let d := ks.foldl (fun d k => d.enterSettling k cause) d
    let d := ks.foldl (fun d k => d.updPoint k (fun x => { x with group := some p })) d
    let d := { d with groupCause := tput 0 d.groupCause p cause }
    d.post 0x1303 (le 1 0 ++ le 2 p ++ le 1 0 ++ le 1 cause)

/-- Whether `k` is `top` or lies below it in the chain of servers. -/
def Dev.under (d : Dev) (top : Nat) : Nat → Nat → Bool
  | 0, _ => false
  | n + 1, k => decide (k = top) || (match d.serverOf (mpTyOf k) (mpIndexOf k) with | some s => d.under top n s | none => false)

/-- Points at ROLE ≥ 1 that belong to an ODU's, VC-4's or entry's signal and every point it serves (R130): the object by
the key of its path point. -/
def Dev.pointsServedBy (d : Dev) (top : Nat) : List Nat :=
  (d.points.filter (fun x => x.2.role ≠ 0
    && (d.under top 8 x.1 || (mpTyOf top = 2 && mpTyOf x.1 = 3 && mpIndexOf x.1 = mpIndexOf top)
      || (mpTyOf x.1 = 3 && d.under top 8 (mpKeyOf 2 0 (mpIndexOf x.1)))))).map (fun x => x.1)

/-- A trigger on an object's signal and everything it serves. -/
def Dev.settleBelow (d : Dev) (top cause : Nat) : Dev := (d.pointsServedBy top).foldl (fun d k => d.settle cause k) d

/-- Whether the E1 of an entry is delivered as all ones: the LO point or a server of it has SF, or the TU pointer interpreter
is in AIS or LOP (R165), or AIS of a point further out reaches it (R133). -/
def Dev.e1Ais (d : Dev) (e : Nat) : Bool :=
  d.sf (mpKeyOf 7 0 e) || decide ((d.lo e).ptr.st ≠ 1) || d.aisReaches 8 (mpKeyOf 8 0 e)

/-! ### The bins in progress (R140) -/

/-- Start of the 15-minute bin that holds second `s`, and of its 24-hour bin under DAY_OFFSET. -/
def start15 (s : Nat) : Nat := s / 900 * 900
def start24 (off s : Nat) : Nat := if s < off then 0 else (s - off) / 86400 * 86400 + off

/-- The current bins of a point with second `s` in them: bins that have ended before it give way to new ones. A 24-hour bin
that a new DAY_OFFSET has ended in this second has given way already. -/
def Point.roll (x : Point) (off s : Nat) : Point :=
  let x := if x.cur15.start = start15 s then x else { x with ended15 := x.cur15 :: x.ended15, cur15 := { start := start15 s } }
  if x.cur24.start < start24 off s || s + 1 < x.cur24.start then
    { x with ended24 := x.cur24 :: x.ended24, cur24 := { start := start24 off s } }
  else x

/-- Both current bins of a point become suspect. -/
def Point.suspects (x : Point) : Point :=
  { x with cur15 := { x.cur15 with suspect := true }, cur24 := { x.cur24 with suspect := true } }

/-- A step of the time counter from second `s` to second `n`: the bins in progress on both sides of it become suspect (R140). -/
def Point.stepped (x : Point) (off s n : Nat) : Point := ((x.roll off s).suspects.roll off n).suspects

end Sys2Proof.Machine
end

