-- ==== Sys2Proof/Machine/Framing.lean ====
section
/-! DEFINITION. Frame alignment (chapter 04): the search with candidates, the frame states of OTN and SDH framers, the
multiframes, and the E1 framers. Stream positions count from the port's last start of alignment: bytes for ports, bits for
E1s. -/

namespace Sys2Proof.Machine

/-! ### Ports -/

/-- Frame length in bytes (R90). -/
def Dev.frameLen (d : Dev) (p : Nat) : Nat :=
  match (d.port p).format with
  | 1 => 15296
  | 2 => 16320
  | f => 2430 * stmN f

/-- N_OOF (R95). -/
def nOof (format : Nat) : Nat := if isOtn format then 5 else 4

/-- A framer of an enabled port exists: slice 0 of any OTN or SDH port, or a slice of its OTUCn. -/
def Dev.framerAt (d : Dev) (k : Nat) : Bool := (d.framersOf (k / 16)).contains k

/-! ### Patterns (R90) -/

/-- Bits of a byte as they are transmitted, bit 1 first (R11). -/
def bitsOfByte (b : Byte) : List Bool := (List.range 8).map (fun i => b.getLsbD (7 - i))

/-- The remainder of bits, in order of transmission, by a polynomial of degree `n`, from 0 on. -/
def bitCrc (n poly : Nat) (bits : List Bool) : Nat :=
  bits.foldl (fun s b => let t := s * 2 % 2 ^ n; if s.testBit (n - 1) != b then t ^^^ poly else t) 0

/-- The 48-bit pattern of OTN and SDH frames, 0xF6F6_F628_2828. -/
def fasBits : List Bool := ([0xF6, 0xF6, 0xF6, 0x28, 0x28, 0x28] : List Byte).flatMap bitsOfByte

/-- The E1 FAS, 0b001_1011. -/
def e1FasBits : List Bool := [false, false, true, true, false, true, true]

/-- The pattern begins at a bit phase of the stream's bits from a byte position on. -/
def fasAt (bits : List Bool) (phase : Nat) : Bool := (bits.drop phase).take 48 = fasBits

/-- The bit phases that a port's framer tests: the byte boundary alone where the lane PCS has fixed it, all 8 on 1-lane OTU4
and on SDH ports. -/
def Dev.phases (d : Dev) (p : Nat) : List Nat :=
  if (d.port p).format = 1 || (decide ((d.port p).format = 2) && decide ((d.port p).lanes ≠ 1)) then [0] else List.range 8

/-- The lowest matching bit phase at a byte position. -/
def Dev.matchPhase (d : Dev) (p : Nat) (bits : List Bool) : Option Nat := (d.phases p).find? (fasAt bits)

/-- The FlexO instance that carries an OTUC slice is locked; other ports have none (R99). -/
def Dev.flexoOk (d : Dev) (k : Nat) : Bool := (d.port (k / 16)).format ≠ 1 || (tget {} d.flexo k).lock

/-- Brings the port's frame and multiframe conditions with their times up to date, and the points that watch them (R125). -/
def Dev.frTouch (d : Dev) (p : Nat) : Dev :=
  let inF := d.portInFrame p
  let code := if !inF then 0 else if d.portMfLock p then 2 else 1
  let q := d.port p
  let d := if q.frIn = inF then d else d.updPort p (fun q => { q with frIn := inF, frSince := d.now })
  let d := if q.mfCode = code then d else d.updPort p (fun q => { q with mfCode := code, mfSince := d.now })
  d.refresh

/-- Sets bits of a port's FRM_EVENT at one instant, with their events (R111), from the plane that status shows (R89). -/
def Dev.frRaise (d : Dev) (p : Nat) (bits : List Nat) (more : List Byte := []) : Dev :=
  if d.frSeen p then d.raiseAll (aPort p 0x14) (bits.map (fun b => (b, some (0x1201 + b, le 1 p ++ more)))) else d

/-- Counts in a framer counter of the port, in the planes in which its framers run (R88, R109). -/
def Dev.frCount (d : Dev) (p off : Nat) : Dev := if d.frRuns p then d.count32 (aPort p off) else d

/-- An aligner back in search; the time of the change is kept. -/
def Dev.unlocked (d : Dev) : MfAlign := { since := d.now }

/-- The ODU4s of a port whose multiframe has left MF_LOCK lose OMFI, and those in search start it afresh (R100). -/
def Dev.dropOmfi (d : Dev) (p : Nat) : Dev :=
  if d.portMfLock p then d
  else
    let os := (d.odus.filter (fun x => x.2.isSome && d.oduPort 5 x.1 = some p)).map (fun x => x.1)
    let locked := os.any (fun o => ((d.odu o).map (fun x => x.omfi.lock)).getD false)
    let d := os.foldl (fun d o => d.updOdu o (fun x => { x with
      omfi := if x.omfi.lock then d.unlocked else { x.omfi with prev := none } })) d
    if locked then d.frRaise p [4] else d

/-- A VC-4 loses its TU multiframe (R101). -/
def Dev.dropH4 (d : Dev) (v : Nat) : Dev :=
  match d.vc4 v with
  | some x =>
    if x.h4.lock then (d.updVc4 v (fun x => { x with h4 := d.unlocked })).frRaise (d.feedPort x.port) [6] (le 1 x.au4)
    else d.updVc4 v (fun x => { x with h4 := { x.h4 with prev := none } })
  | none => d

/-- A framer of port p leaves IF, or, in OOF, its search restarts or stops (R95, R551). -/
def Dev.oofOne (d : Dev) (k cause from_ : Nat) (stop : Bool) : Dev :=
  let p := k / 16
  let was := (d.framer k).inFrame
  let d := d.updFramer k (fun f => { f with inFrame := false, err := 0, cands := [], scanFrom := from_, stopped := f.stopped && cause = 1 || stop })
  if was then
    let d := { d with oofCause := tput 0 d.oofCause p cause }
    let d := d.frCount p 0x18
    let d := if cause = 1 then d.frCount p 0x20 else d
    d.frRaise p (if cause = 1 then [1, 7] else [1])
  else d

/-- FlexO instances of a port lose lock, with their event; the OTUC slice that a lost instance carries leaves IF (R99). -/
def Dev.dropFlexo (d : Dev) (p : Nat) (ins : List Nat) : Dev :=
  let lost := ins.filter (fun i => (tget {} d.flexo (16 * p + i)).lock)
  let flexo := ins.foldl (fun t i => tput {} t (16 * p + i) { since := d.now }) d.flexo
  let d := { d with flexo := flexo }
  if lost.isEmpty then d
  else lost.foldl (fun d i => if (d.framer (16 * p + i)).inFrame then d.oofOne (16 * p + i) 2 0 false
    else d.updFramer (16 * p + i) (fun f => { f with cands := [] })) (d.frRaise p [5])

/-- Every multiframe state of the port returns to search (R96): those of its FlexO instances (DEDUCED 97), of its framers, of its
ODU4s, and of its VC-4s. -/
def Dev.dropMf (d : Dev) (p : Nat) : Dev :=
  let d := if (d.port p).format = 1 then d.dropFlexo p (List.range 16) else d
  let d := (d.framersOf p).foldl (fun d k => d.updFramer k (fun f => { f with mf := {}, skewRun := 0 })) d
  let d := d.dropOmfi p
  (d.fedVc4s p).foldl Dev.dropH4 d

/-- Framers of port p leave IF together, or, in OOF, their searches restart or stop; an entry to OOF returns every multiframe
state of the port to search (R95, R96, R551). -/
def Dev.oof (d : Dev) (p : Nat) (ks : List Nat) (cause from_ : Nat) (stop : Bool) : Dev :=
  let was := ks.any (fun k => (d.framer k).inFrame)
  let d := ks.foldl (fun d k => d.oofOne k cause from_ stop) d
  if was then d.dropMf p else d

/-- The framers of a port stop until it is ALIGNED again (causes 2 and 3 of R95; R107). -/
def Dev.framersStop (d : Dev) (p cause : Nat) : Dev := ((d.oof p (d.framersOf p) cause 0 true).dropMf p).frTouch p

/-- The port is ALIGNED: its framers search from the first word. -/
def Dev.framersGo (d : Dev) (p : Nat) : Dev :=
  ((d.framersOf p).foldl (fun d k => d.updFramer k (fun f => { f with stopped := false, scanFrom := 0 })) d).frTouch p

/-- A framer enters IF at the bit phase of the candidate that passed: it discards every candidate (R92). -/
def Dev.frIn (d : Dev) (k phase : Nat) : Dev :=
  let d := d.updFramer k (fun f => { f with inFrame := true, phase := phase, err := 0, cands := [], mf := {}, skewRun := 0 })
  (d.frRaise (k / 16) [0]).frTouch (k / 16)

/-! ### E1 framers -/

/-- Whether an event code may be posted now: at most once a second (R105, R183). -/
def mayPost (posted : Tab Nat) (code now : Nat) : Bool :=
  match tget 0 posted code with
  | 0 => true
  | t + 1 => t + 1000000000 ≤ now

/-- Posts an event of an E1. -/
def Dev.e1Post (d : Dev) (e code : Nat) : Dev :=
  if d.frSeen ((d.entryPort e).getD 0) && mayPost (d.e1 e).posted code d.now then
    (d.updE1 e (fun x => { x with posted := tput 0 x.posted code (d.now + 1) })).post code (le 2 e)
  else d

/-- Entry to OOF, with the search from a bit on. A restart after 8 ms keeps the 400 ms timer (R104). -/
def Dev.e1Oof (d : Dev) (e from_ : Nat) (restart : Bool) : Dev :=
  let was := (d.e1 e).st = .ifBasic || (d.e1 e).st = .ifMf
  let d := d.updE1 e (fun x => { x with
    st := .oof, fe := 0, me := 0, cands := [], scanFrom := from_, mfasSeen := [], subs := []
    ban := if restart then some (x.fasPos % 512, from_ + 512) else none
    oofCount := if was then min (x.oofCount + 1) 65535 else x.oofCount
    timer400 := if restart then x.timer400 else none, timerDone := restart && x.timerDone })
  d.refresh

/-- The framer of an entry's E1 starts, or stops with mode 0. A change of mode clears NO_CRC4, which mode 3 alone
concludes. -/
def Dev.e1Start (d : Dev) (e : Nat) : Dev :=
  let d := if d.e1Framing e = 0 then
      (d.updE1 e (fun x => { ({} : E1) with mfRestarts := x.mfRestarts, oofCount := x.oofCount, posted := x.posted })).refresh
    else (d.e1Oof e 0 false).updE1 e (fun x => { x with noCrc4 := false })
  d.frHold ((d.entryPort e).getD 0) [(0x300000 + 4 * e, d.e1Status e)]

/-- The bit after the FAS last checked. -/
def E1.afterFas (x : E1) : Nat := x.fasPos + 7

/-- Entry to IF_BASIC from OOF. -/
def Dev.e1In (d : Dev) (e pos : Nat) : Dev :=
  let mode := d.e1Framing e
  let d := d.updE1 e (fun x => { x with
    st := .ifBasic, fe := 0, me := 0, cands := [], ban := none, ifSince := d.now, fasPos := pos + 512, mfasSeen := []
    timer400 := if mode = 3 && x.timer400.isNone && !x.timerDone then some d.now else x.timer400 })
  (d.e1Post e 0x1281).refresh

/-! ### Scanner and candidates (R91–R94) -/

/-- The scanner tests a position, at which the stream goes on with `bits`; a match opens a candidate. -/
def scanMatch (f : FrId) (pos : Nat) (bits : List Bool) (d : Dev) : Dev :=
  match f with
  | .port p s =>
    let k := 16 * p.val + s.val
    let x := d.framer k
    let len := d.frameLen p.val
    if d.framerAt k && !x.inFrame && !x.stopped && d.flexoOk k && decide (x.scanFrom ≤ pos) && decide (x.cands.length < 2) then
      d.updFramer k (fun x => { x with
        scanFrom := pos + 1
        cands := match d.matchPhase p.val bits with
          | some ph => if x.cands.any (fun c => c.pos % len = pos % len) then x.cands else x.cands ++ [{ pos := pos, phase := ph }]
          | none => x.cands })
    else d
  | .e1 e =>
    let x := d.e1 e.val
    let banned := match x.ban with | some (o, n) => decide (pos % 512 = o) && decide (pos < n) | none => false
    if x.st = .oof && decide (x.scanFrom ≤ pos) && decide (x.cands.length < 4) then
      d.updE1 e.val (fun x => { x with
        scanFrom := pos + 1
        cands := if bits.take 7 ≠ e1FasBits || banned || x.cands.any (fun c => c.pos % 512 = pos % 512) then x.cands
          else x.cands ++ [{ pos := pos }] })
    else d

def execScanMatch (f : FrId) (x : ScanAt) (s : State) : Out1 := onDev (live (scanMatch f x.pos x.bits)) s

/-- What checks of one instant leave of a framer's candidates: the candidate that passed its last check, the candidates
left, and the position at which the scanner goes on. `unit` is the distance between checks, `last` the number of them. -/
def judge (unit last : Nat) (cs : List Cand) (scan : Nat) (rs : List (Nat × Bool)) : Option Nat × List Cand × Nat :=
  let hit := fun (c : Cand) => (rs.find? (fun r => r.1 = c.pos)).map (fun r => r.2)
  let won := (cs.filter (fun c => hit c = some true && c.passed + 1 = last)).map Cand.pos
  let first := won.foldl (fun b p => match b with | some m => some (min m p) | none => some p) none
  let left := cs.filterMap (fun c => match hit c with
    | some true => some { c with passed := c.passed + 1 }
    | some false => none
    | none => some c)
  let resume := (cs.filter (fun c => hit c = some false)).foldl (fun n c => max n (c.pos + unit * (c.passed + 1) + 1)) scan
  (first, left, resume)

/-- The results of the checks of candidates: each is found by its position, and judged on the bits that stand at its check
(R92). `last` is the number of checks: with one the pattern is tested at the candidate's phase; of an E1's two the first asks
for a 1. -/
def judged (last : Nat) (cs : List Cand) (seen : List (Nat × List Bool)) : List (Nat × Bool) :=
  seen.filterMap (fun r => (cs.find? (fun c => c.pos = r.1)).map (fun c => (r.1,
    if last = 1 then fasAt r.2 c.phase else if c.passed = 0 then r.2.head? = some true else decide (r.2.take 7 = e1FasBits))))

/-- The checks of candidates that arrive at one instant: for each its position and the stream's bits at its check. A slice of a
FlexO instance that has lost lock reaches no frame (R99). -/
def candidateCheck (f : FrId) (seen : List (Nat × List Bool)) (d : Dev) : Dev :=
  match f with
  | .port p s =>
    let k := 16 * p.val + s.val
    let x := d.framer k
    if d.framerAt k && !x.inFrame && !x.stopped && d.flexoOk k then
      match judge (d.frameLen p.val) 1 x.cands x.scanFrom (judged 1 x.cands seen) with
      | (some q, _, _) => d.frIn k (((x.cands.find? (fun c => c.pos = q)).map Cand.phase).getD 0)
      | (none, left, n) => d.updFramer k (fun x => { x with cands := left, scanFrom := n })
    else d
  | .e1 e =>
    let x := d.e1 e.val
    if x.st = .oof then
      match judge 256 2 x.cands x.scanFrom (judged 2 x.cands seen) with
      | (some q, _, _) => d.e1In e.val q
      | (none, left, n) => d.updE1 e.val (fun x => { x with cands := left, scanFrom := n })
    else d

def execCandidateCheck (f : FrId) (seen : List (Nat × List Bool)) (s : State) : Out1 :=
  onDev (live (candidateCheck f seen)) s

/-! ### Frames of ports (R95, R96, R106) -/

/-- The FAS position of a frame, at which the stream goes on with `bits`. -/
def fasPosition (k : Nat) (bits : List Bool) (pos : Nat) (d : Dev) : Dev :=
  let p := k / 16
  let f := d.framer k
  if !d.framerAt k || !f.inFrame then d
  else if fasAt bits f.phase then d.updFramer k (fun f => { f with err := 0 })
  else
    let d := d.frCount p 0x1C
    if f.err + 1 < nOof (d.port p).format then d.updFramer k (fun f => { f with err := f.err + 1 })
    else (d.oof p [k] 0 (pos + 1) false).frTouch p

def execFasPosition (p : Fin 64) (slice : Fin 16) (bits : List Bool) (pos : Nat) (s : State) : Out1 :=
  onDev (live (fasPosition (16 * p.val + slice.val) bits pos)) s

/-- A cell with the SLIP mark arrives at the framers of a port. -/
def slipMarked (p pos : Nat) (d : Dev) : Dev := (d.oof p (d.framersOf p) 1 pos false).frTouch p

def execSlipMark (p : Fin 64) (pos : Nat) (s : State) : Out1 := onDev (live (slipMarked p.val pos)) s

/-! ### Multiframes (R97–R101) -/

/-- What a value does to an aligner. -/
inductive MfDid where
  | nothing | locked | lost
  deriving DecidableEq, Repr

/-- An aligner of modulus `m` that loses lock on its `n`th consecutive mismatch. The value on which it loses lock is no first
value of the new search, and neither is a value that is not below `m`, an OMFI of 80 to 127 (DESIGN CHOICE 97). -/
def MfAlign.take (x : MfAlign) (m n v now : Nat) : MfAlign × MfDid :=
  if x.lock then
    if v = x.x then ({ x with merr := 0, x := (x.x + 1) % m }, .nothing)
    else if x.merr + 1 < n then ({ x with merr := x.merr + 1, x := (x.x + 1) % m }, .nothing)
    else ({ since := now }, .lost)
  else if x.prev.map (fun q => (q + 1) % m) = some v then
    ({ lock := true, x := (v + 1) % m, since := now }, .locked)
  else ({ x with prev := if v < m then some v else none }, .nothing)

/-- The slices of an OTUCn disagree on MFAS in five consecutive frames (R98). A slice's MFAS is compared with the last that
slice 1 has received: slice 1's comes first in each frame (DESIGN CHOICE 97). -/
def Dev.sliceSkew (d : Dev) (k : Nat) : Dev :=
  let p := k / 16
  let f := d.framer k
  let one := d.framer (16 * p)
  if k % 16 = 0 || !f.mf.lock || !one.mf.lock then d.updFramer k (fun f => { f with skewRun := 0 })
  else if f.mfas = one.mfas then d.updFramer k (fun f => { f with skewRun := 0 })
  else if f.skewRun + 1 < 5 then d.updFramer k (fun f => { f with skewRun := f.skewRun + 1 })
  else
    let d := (d.framersOf p).foldl (fun d k => d.updFramer k (fun f => { f with mf := {}, skewRun := 0 })) d
    (d.frRaise p [8, 3]).dropOmfi p

/-- The MFAS of a frame in IF. -/
def mfasByte (k v : Nat) (d : Dev) : Dev :=
  let p := k / 16
  let f := d.framer k
  if !d.framerAt k || !f.inFrame || !isOtn (d.port p).format then d
  else
    let (mf, did) := f.mf.take 256 5 v d.now
    let d := if k % 16 = 0 then (d.framersOf p).foldl (fun d j => d.updFramer j (fun f => { f with mfHere := false })) d else d
    let d := d.updFramer k (fun f => { f with mf := mf, mfas := v, mfHere := true })
    let d := match did with
      | .locked => d.frRaise p [2]
      | .lost => (d.frRaise p [3]).dropOmfi p
      | .nothing => d
    (d.sliceSkew k).frTouch p

def execMfas (p : Fin 64) (slice : Fin 16) (v : Byte) (s : State) : Out1 :=
  onDev (live (mfasByte (16 * p.val + slice.val) v.toNat)) s

/-- The multiframe indicator of a FlexO instance of an aligned port. Instances n+1 to x are ignored (R67): the port's lock is
that of the instances that carry its OTUCn (DEDUCED 97). -/
def flexoIndicator (p i v : Nat) (d : Dev) : Dev :=
  if (d.port p).format = 1 && decide (i < (d.port p).otucN) && (d.port p).astate = .aligned && !(d.port p).onHold then
    let (mf, did) := (tget {} d.flexo (16 * p + i)).take 256 5 v d.now
    let d := { d with flexo := tput {} d.flexo (16 * p + i) mf }
    match did with
    | .lost =>
      let d := d.frRaise p [5]
      (if d.framerAt (16 * p + i) then d.oof p [16 * p + i] 2 0 false else d).frTouch p
    | _ => d
  else d

def execFlexoMfIndicator (p : Fin 64) (inst : Fin 16) (v : Byte) (s : State) : Out1 :=
  onDev (live (flexoIndicator p.val inst.val v.toNat)) s

/-- The OMFI of a frame of an ODU4 that serves clients. -/
def omfiByte (o v : Nat) (d : Dev) : Dev :=
  match d.odu o, d.oduPort 5 o with
  | some x, some p =>
    if x.usesOmfi && d.portMfLock p then
      let (mf, did) := x.omfi.take 80 5 v d.now
      let d := d.updOdu o (fun x => { x with omfi := mf })
      if did = .lost then d.frRaise p [4] else d
    else d
  | _, _ => d

def execOmfi (o : Fin 4096) (v : BitVec 7) (s : State) : Out1 := onDev (live (omfiByte o.val v.toNat)) s

/-- H4 bits 7–8 of a frame of an opened VC-4 in pointer state NORM, while its port's framer is in frame (R96). -/
def h4Byte (v h : Nat) (d : Dev) : Dev :=
  match d.vc4 v with
  | some x =>
    let p := d.feedPort x.port
    if x.struct && x.ptr.st = 1 && d.portInFrame p then
      let (mf, did) := x.h4.take 4 4 h d.now
      let d := d.updVc4 v (fun x => { x with h4 := mf })
      if did = .lost then d.frRaise p [6] (le 1 x.au4) else d
    else d
  | none => d

def execH4 (v : Fin 512) (h : BitVec 2) (s : State) : Out1 := onDev (live (h4Byte v.val h.toNat)) s

/-! ### E1 frames (R103, R104) -/

/-- The seven bits at the FAS position of an E1 in frame. -/
def e1Fas (e : Nat) (bits : List Bool) (pos : Nat) (d : Dev) : Dev :=
  let x := d.e1 e
  let good := decide (bits = e1FasBits)
  if x.st ≠ .ifBasic && x.st ≠ .ifMf then d
  else
    let d := d.updE1 e (fun x => { x with fasPos := pos, fe := if good then 0 else x.fe + 1 })
    if good || x.fe < 2 then d else (d.e1Oof e (pos + 7) false).e1Post e 0x1282

def execE1Fas (e : Fin 8064) (bits : List Bool) (pos : Nat) (s : State) : Out1 := onDev (live (e1Fas e.val bits pos)) s

/-- A valid CRC-4 multiframe alignment signal (R103). -/
def crc4MfasBits : List Bool := [false, false, true, false, true, true]

/-- A multiframe alignment signal at a phase, once a multiframe: two valid ones in consecutive multiframes at one phase reach
IF_MF, in which the signal of that phase is checked. -/
def e1Mfas (e : Nat) (bits : List Bool) (phase : Nat) (d : Dev) : Dev :=
  let x := d.e1 e
  let valid := decide (bits = crc4MfasBits)
  let mode := d.e1Framing e
  match x.st with
  | .ifBasic =>
    if mode = 2 || mode = 3 then
      if valid && x.mfasSeen.contains phase then
        ((d.updE1 e (fun x => { x with
          st := .ifMf, me := 0, noCrc4 := false, subs := [], mfasSeen := [], mfPhase := phase })).e1Post e 0x1283).refresh
      else d.updE1 e (fun x => { x with
        mfasSeen := if valid then phase :: x.mfasSeen else x.mfasSeen.filter (fun y => y ≠ phase) })
    else d
  | .ifMf =>
    if phase ≠ x.mfPhase then d
    else if valid then d.updE1 e (fun x => { x with me := 0 })
    else if x.me < 3 then d.updE1 e (fun x => { x with me := x.me + 1 })
    else (d.updE1 e (fun x => { x with st := .ifBasic, me := 0, ifSince := d.now, mfasSeen := [] })).refresh
  | _ => d

def execE1Crc4Mfas (e : Fin 8064) (x : MfasAt) (s : State) : Out1 := onDev (live (e1Mfas e.val x.bits x.phase.val)) s

/-- The CRC-4 of the bits of a sub-multiframe, x^4 + x + 1, its C bits taken as 0 (PRESUMED 102). -/
def crc4 (bits : List Bool) : Nat := bitCrc 4 3 bits

/-- A CRC-4 sub-multiframe. In IF_MF it is a block of the E1 point (R119), with the far end's E bit (R120), and 915 errored of the
last 1,000 lose frame. A reverse point that sources CRC-4 sends its E bit and its C bits in every state of the receiving framer:
only a sub-multiframe that is received in IF_MF is errored (R118, DEDUCED 118). -/
def e1Sub (e : Nat) (r : E1Smf) (eBit : Bool) (d : Dev) : Dev :=
  let x := d.e1 e
  let k := mpKeyOf 8 0 e
  let y := d.point k
  let inMf := decide (x.st = .ifMf)
  let errored := inMf && decide (crc4 r.bits ≠ r.c.toNat)
  let d := if y.role ≠ 2 || !d.hasReverse k || !(y.e1Framing = 2 || y.e1Framing = 3 && !x.noCrc4) then d
    else d.emit (.overhead k { fields := [(.eBit, if errored then 0 else 1), (.crc4, crc4 r.tx)], sig := y.act.sig })
  if !inMf then d
  else
    let d := if y.role = 0 then d else d.updPoint k (fun y => { y with
      neEb := y.neEb + (if errored then 1 else 0), feEb := y.feEb + (if eBit then 0 else 1) })
    let subs := (errored :: x.subs).take 1000
    let d := d.updE1 e (fun x => { x with subs := subs })
    if 915 ≤ (subs.filter (fun b => b)).length then (d.e1Oof e x.afterFas false).e1Post e 0x1286 else d

def execE1Submultiframe (e : Fin 8064) (x : E1Smf) (eBit : Bool) (s : State) : Out1 :=
  onDev (live (e1Sub e.val x eBit)) s

/-- T_IF has reached 8 ms in IF_BASIC. -/
def e1Restart (e : Nat) (d : Dev) : Dev :=
  let x := d.e1 e
  let mode := d.e1Framing e
  if x.st = .ifBasic && (mode = 2 || mode = 3 && !x.noCrc4) && d.after x.ifSince 8000000 then
    let d := d.updE1 e (fun x => { x with mfRestarts := min (x.mfRestarts + 1) 255 })
    (d.e1Oof e x.afterFas true).e1Post e 0x1284
  else d

def execE1MfRestart (e : Fin 8064) (s : State) : Out1 := onDev (live (e1Restart e.val)) s

/-- The 400 ms timer of mode 3 expires. -/
def e1NoCrc (e : Nat) (d : Dev) : Dev :=
  let x := d.e1 e
  match x.timer400 with
  | some t =>
    if d.e1Framing e = 3 && d.after t 400000000 then
      let d := d.updE1 e (fun x => { x with timer400 := none, timerDone := true })
      if x.st = .ifMf then d else ((d.updE1 e (fun x => { x with noCrc4 := true })).e1Post e 0x1285).refresh
    else d
  | none => d

def execE1NoCrc4 (e : Fin 8064) (s : State) : Out1 := onDev (live (e1NoCrc e.val)) s

end Sys2Proof.Machine
end

