-- ==== Sys2Proof/Machine/Engines.lean ====
section
/-! DEFINITION. Twill engines as resources: the functions that run on them with their load units and data bytes (R339), the
slice that serves each (R340), and the admission and placement of a new function (R341, R342). -/

namespace Sys2Proof.Machine

/-- ALLOC_RATE of R235, in Mbit/s. -/
def allocRate (ty flexTs flags : Nat) : Nat :=
  match ty with
  | 0x00 => 1250
  | 0x01 => 2500
  | 0x02 => 10040
  | 0x03 => 10400
  | 0x04 => 104800
  | 0x05 | 0x06 => if flags % 2 = 1 then flexTs * 5300 else flexTs * 1310
  | _ => 0

/-- U and B of the function of a monitored point (R339). -/
def Dev.pointLoad (d : Dev) (k : Nat) : Nat × Nat :=
  let i := mpIndexOf k
  match mpTyOf k with
  | 1 => (44 + 4 * (if (d.port i).format = 2 then 1 else (d.port i).otucN), 1536)
  | 2 | 3 => match d.odu i with
    | some o => (if o.ty = 0x07 then 44 else 2 + (allocRate o.ty o.flexTs o.flags + 2499) / 2500, 768)
    | none => (0, 0)
  | 4 => (4, 512)
  | 5 => (6, 512)
  | 6 => (3, 256)
  | 7 => if d.isVc3 i then (3, 256) else (1, 56)
  | _ => (1, 40)

/-- U and B of a selector's function (R339). -/
def selLoad (scheme : Nat) : Nat × Nat := match scheme with | 2 => (2, 64) | 3 => (1, 32) | _ => (6, 128)

/-- U and B of a DCC monitor (R339). -/
def dccLoad (channel : Nat) : Nat × Nat := (match channel with | 0 => 8 | 1 => 16 | _ => 32, 256)

/-- The slice that serves a source of a selector (R222, R340). -/
def Dev.selSlice (d : Dev) (scheme prot : Nat) : Nat :=
  match scheme with
  | 0 => d.pointSlice (mpKeyOf 2 0 prot)
  | 1 => prot / 8
  | 2 => d.pointSlice (mpKeyOf 6 0 prot)
  | _ => d.pointSlice (mpKeyOf 7 0 prot)

/-- A function on an engine: its slice, its engine, U and B. -/
structure Func where
  slice : Nat
  k : Nat
  units : Nat
  bytes : Nat
  deriving DecidableEq, Repr

/-- Engine on which a function counts: that to which a move in progress takes it (R353). -/
def Dev.movedTo (d : Dev) (slice k : Nat) : Nat :=
  match d.twill.moves.find? (fun m => m.slice = slice && m.src = k) with
  | some m => m.dst
  | none => k

/-- Every function that runs (R339). -/
def Dev.functions (d : Dev) : List Func :=
  let mk := fun (slice : Nat) (e : Option Nat) (l : Nat × Nat) =>
    e.map (fun k => ({ slice := slice, k := d.movedTo slice k, units := l.1, bytes := l.2 } : Func))
  d.points.filterMap (fun x => mk (d.pointSlice x.1) x.2.engine (d.pointLoad x.1))
    ++ d.sels.filterMap (fun x => match x.2 with
        | some v => mk (d.selSlice (x.1 / 4096) v.prot) v.engine (selLoad (x.1 / 4096))
        | none => none)
    ++ d.twill.dcc.filterMap (fun x => mk (x.2.port / 8) x.2.engine (dccLoad x.2.channel))

/-- Functions of one engine of a slice. -/
def Dev.funcsOn (d : Dev) (slice k : Nat) : List Func := d.functions.filter (fun f => f.slice = slice && f.k = k)

/-- UNITS_k and BYTES_k (R341). -/
def Dev.unitsOn (d : Dev) (slice k : Nat) : Nat := ((d.funcsOn slice k).map Func.units).sum
def Dev.bytesOn (d : Dev) (slice k : Nat) : Nat := ((d.funcsOn slice k).map Func.bytes).sum

/-- USED_j (R341). -/
def Dev.used (d : Dev) (slice : Nat) : Nat := ((d.functions.filter (fun f => f.slice = slice)).map Func.units).sum

/-- BUDGET_j. -/
def Dev.budget (d : Dev) (slice : Nat) : Nat := tget 16000 d.twill.budgets slice

/-- Engine k of a slice in a plane, by its global number (R334). -/
def engineNo (plane slice k : Nat) : Nat := 128 * plane + 16 * slice + k

/-- The engine or its partner carries a fence of its own. -/
def Dev.engineFencedAny (d : Dev) (slice k : Nat) : Bool :=
  d.fenced (srcOf 9 (engineNo 0 slice k)) || d.fenced (srcOf 9 (engineNo 1 slice k))

/-- Whether an engine may take a new function (R341). -/
def Dev.eligible (d : Dev) (slice k : Nat) : Bool :=
  !d.engineFencedAny slice k && !d.twill.moves.any (fun m => m.slice = slice && m.src = k)

/-- The best of the engines that have room for U and B: the most free load units, then the most free data bytes, then the
lowest k (R342). -/
def Dev.bestEngine (d : Dev) (slice u b : Nat) (ok : Nat → Bool) : Option Nat :=
  let free := fun k => ((1000 - d.unitsOn slice k) * 30721 + (30720 - d.bytesOn slice k))
  ((List.range 16).filter (fun k => ok k
      && decide (d.unitsOn slice k + u ≤ 1000) && decide (d.bytesOn slice k + b ≤ 30720))).foldl
    (fun best k => match best with
      | none => some k
      | some m => if free m < free k then some k else some m) none

/-- Admission and placement of a new function (R341, R342); none when either condition fails. -/
def Dev.allocate (d : Dev) (slice u b : Nat) : Option Nat :=
  if d.used slice + u ≤ d.budget slice then d.bestEngine slice u b (d.eligible slice) else none

/-- CONFLICT that names a slice's engine budget. -/
def budgetConflict (slice : Nat) : Done := conflictDone 0x19 slice

/-- Points, selectors and monitors whose function runs on an engine. -/
def Dev.pointsOn (d : Dev) (slice k : Nat) : List Nat :=
  (d.points.filter (fun x => d.pointSlice x.1 = slice && x.2.engine.map (d.movedTo slice) = some k)).map (fun x => x.1)

end Sys2Proof.Machine
end

