-- ==== Sys2Proof/Machine/Levels.lean ====
section
/-! DEFINITION. The level of a fall-through queue against its watermarks, and the notices that a queue posts through its
owning block (R48, R51, R86, R366, R386, R445). -/

namespace Sys2Proof.Machine

/-- Level of a queue: items pushed and not released (R48). -/
def FQueue.level (q : FQueue) : Nat := q.items.length + q.held.length

end Sys2Proof.Machine

namespace Sys2Proof

open Machine

/-- Capacity K (R48, R76, R334, R444). -/
def QId.cap : QId → Nat
  | .laneIn _ | .laneEg _ | .jyIn _ | .jyEg _ => 1024
  | .twIn _ => 1024
  | .twOut _ => 256
  | .slice _ _ n => min 4096 (Config.sliceK n.val + 1)
  | .emu _ g => min 4096 (Config.emuK g.val + 1)

/-- Mark and rewind are enabled: the forwarding queue of the errorless merge unit alone (R76, R232, R334). -/
def QId.mr : QId → Bool
  | .emu _ _ => true
  | _ => false

/-- Edge queues (R76, R444). -/
def QId.edge : QId → Bool
  | .laneIn _ | .laneEg _ | .jyIn _ | .jyEg _ => true
  | _ => false

/-- Edge queues whose producer is the clocked edge: the ingress queues. -/
def QId.clockedIn : QId → Bool
  | .laneIn _ | .jyIn _ => true
  | _ => false

/-- Event code of a queue notice for QSTAT bit b, and the number of the owning instance. A queue of slice logic or of the
merge unit has no notice of its own in the event tables. -/
def QId.notice (b : Nat) : QId → Option (Nat × List Byte)
  | .laneIn l => some (0x1010 + b, le 1 l.val)
  | .laneEg l => some (0x1018 + b, le 1 l.val)
  | .jyIn j => some (0x1F10 + b, le 1 j.val)
  | .jyEg j => some (0x1F18 + b, le 1 j.val)
  | .twIn g => some (0x1A10 + b, le 2 g.val)
  | .twOut g => some (0x1A18 + b, le 2 g.val)
  | _ => none

end Sys2Proof

namespace Sys2Proof.Machine

/-- Sets a sticky bit of a queue's QSTAT, with its notice when the bit is new. -/
def Dev.qNotice (d : Dev) (q : QId) (b : Nat) : Dev :=
  match q.notice b with
  | some (code, who) => d.raise (qbase q + 8) b code (who ++ le 2 (d.queue q).items.length)
  | none => d.raiseQuiet (qbase q + 8) b

/-- Watermarks of a queue (R51). -/
def Dev.hwm (d : Dev) (q : QId) : Nat := fld (d.reg (qbase q)) 0 13
def Dev.lwm (d : Dev) (q : QId) : Nat := fld (d.reg (qbase q)) 16 13

/-- The notices of a change of level from `a` to `b` (R51): none while LWM ≥ HWM. -/
def Dev.levelMoved (d : Dev) (q : QId) (a b : Nat) : Dev :=
  let h := d.hwm q
  let l := d.lwm q
  if h ≤ l then d
  else
    let d := if a < h && h ≤ b then d.qNotice q 0 else d
    if l < a && b ≤ l then d.qNotice q 1 else d

/-- Discards everything that a queue holds. -/
def Dev.emptyQueue (d : Dev) (q : QId) : Dev :=
  let a := (d.queue q).level
  (d.updQueue q (fun x => { x with items := [], held := [], waiting := [] })).levelMoved q a 0

end Sys2Proof.Machine
end

