-- ==== Sys2Proof/Machine/Timing.lean ====
section
/-! DEFINITION. The timing unit's operations (chapter 10) and the calibration block's (chapter 11): quality levels and
selection, the states of references and of the TSU, the history and the DCO value, steps of the time counter, the
correction C and the end of a calibration run. Frequencies are in ppt, times in ns. -/

namespace Sys2Proof.Machine

/-- Addresses of TSU_HIST, of a reference's REF_EVENT, and of CAL_EVENT. -/
def aTsuHist : Nat := 0x50004
def aRefEvent (r : Nat) : Nat := 0x50104 + 0x10 * r
def aCalEvent : Nat := 0x6000C

/-! ### Quality levels (R288, R289) -/

/-- QLR of a QL code; none is never selected. -/
def qlRank (ql : Nat) : Option Nat :=
  match ql with
  | 0x2 => some 1 | 0x4 => some 2 | 0x8 => some 3 | 0xB => some 4 | 0x0 => some 5 | _ => none

/-- QL in force of a reference: that of the last TIME message for 68, the accepted S1, or the command's. -/
def Dev.refQl (d : Dev) (r : Nat) : Nat :=
  if r = 68 then d.jersey.ql else if (d.tref r).qlSrc then (d.tref r).s1 else (d.tref r).ql

/-- QLR for selection. -/
def Dev.refRank (d : Dev) (r : Nat) : Option Nat := if d.tsu.qlEn then qlRank (d.refQl r) else some 1

/-- OFFSET as the comparisons read it: the last STEER_PPT for reference 69 (R285, R291). -/
def Dev.refOffset (d : Dev) (r : Nat) : Int := if r = 69 then d.tsu.steer else (d.tref r).offset.getD 0

/-- SEL_QL (R315). -/
def Dev.selQlNow (d : Dev) : Nat := match d.tsu.sel with | some r => d.refQl r | none => 0xF

/-- OUT_QL of R290. -/
def Dev.outQl (d : Dev) : Nat := if d.tsu.st = 1 || d.tsu.st = 2 then d.selQlNow else d.tsu.ownQl

/-- S1 bits 5–8 that a port sends (R290). -/
def Dev.s1Sent (d : Dev) (p : Nat) : Nat :=
  if (d.tsu.sel.map (fun r => d.laneOwner r == some p && decide (r < 64))).getD false then 0xF else d.outQl

/-! ### The DCO value (R300, R320) -/

/-- DCO value: the clamped sum of the frequency term and C. -/
def Dev.dco (d : Dev) : Int := clampI (-200000000) 200000000 (d.tsu.freqTerm + d.cal.corr)

/-- A TSU event's items. -/
def Dev.tsuArgs (d : Dev) : List Byte := le 1 (d.tsu.sel.getD 0x7F) ++ le 1 d.tsu.st

/-- Sets bits of TSU_HIST at one instant, each with its event (R311, R316). -/
def Dev.tsuRaise (d : Dev) (evs : List (Nat × List Byte)) : Dev :=
  d.raiseAll aTsuHist (evs.map (fun e => (e.1, some (0x1801 + e.1, d.tsuArgs ++ e.2))))

/-- DCO_CLAMP follows the sum, and TSU_HIST.DCO_CLAMP sets once per clamping. -/
def Dev.dcoCheck (d : Dev) : Dev :=
  let c := decide (d.dco ≠ d.tsu.freqTerm + d.cal.corr)
  let was := d.tsu.clamp
  let d := { d with tsu.clamp := c }
  if c && !was then d.tsuRaise [(7, [])] else d

/-- The running calibration sums the DCO value and the temperature up to now, before one of them changes (R327). -/
def CalRun.upTo (r : CalRun) (dco temp : Int) (now : Nat) : CalRun :=
  { r with sumDco := r.sumDco + dco * (now - r.mark : Nat), sumTemp := r.sumTemp + temp * (now - r.mark : Nat), mark := now }
def Dev.calMark (d : Dev) : Dev := { d with cal.run := d.cal.run.map (fun r => r.upTo d.dco d.cal.temp d.now) }

/-- A new frequency term, as one step. -/
def Dev.setTerm (d : Dev) (x : Int) : Dev := ({ d.calMark with tsu.freqTerm := x }).dcoCheck

/-- A new C, as one step. In ACQUIRING and LOCKED on a reference other than the host servo, which bypasses the loop, the
frequency term moves by the opposite (R320). -/
def Dev.setCorr (d : Dev) (c : Int) : Dev :=
  let loop := (d.tsu.st = 1 || d.tsu.st = 2) && d.tsu.sel ≠ some 69
  let term := if loop then d.tsu.freqTerm + d.cal.corr - c else d.tsu.freqTerm
  ({ d.calMark with cal.corr := c, tsu.freqTerm := term }).dcoCheck

/-- An exact quotient rounded to the nearest, ties away from zero (R318); `den` is positive. -/
def roundDiv (num den : Int) : Int :=
  if 0 ≤ num then (2 * num + den) / (2 * den) else -((2 * (-num) + den) / (2 * den))

/-- Interpolation between the points of a set, in order (R318). -/
def corrIn (t : Int) : List CalPoint → Int
  | [] => 0
  | [p] => p.value
  | p :: q :: rest =>
    if t ≤ p.temp then p.value
    else if q.temp ≤ t then corrIn t (q :: rest)
    else roundDiv (p.value * (q.temp - p.temp) + (q.value - p.value) * (t - p.temp)) (q.temp - p.temp)

/-- C of the active set at the temperature in use. -/
def Dev.corrNow (d : Dev) : Int := corrIn d.cal.temp (tget [] d.cal.sets d.cal.active)

/-- C is recomputed at once (R319). -/
def Dev.recompute (d : Dev) : Dev := d.setCorr d.corrNow

/-! ### Free values of unstated rounding -/

/-- A mean with a part below the unit: the spec names no rounding, so which neighbour it is stays free. -/
def Dev.meanFree (d : Dev) (sum : Int) (n : Nat) : Int × Dev :=
  if sum % (n : Int) = 0 then (sum / (n : Int), d)
  else (sum / (n : Int) + (if (d.draw.1).getLsbD 0 then 1 else 0), d.draw.2)

/-- A mean to the nearest unit; the spec names no rule for a tie, so a tie's neighbour stays free. -/
def Dev.meanNearest (d : Dev) (sum : Int) (n : Nat) : Int × Dev :=
  if 2 * (sum % (n : Int)) = (n : Int) then d.meanFree sum n
  else ((2 * sum + (n : Int)) / (2 * (n : Int)), d)

/-! ### Calibration runs (R325–R328) -/

/-- Ends the running CAL_RUN without a result, with its event; its command completes at the end of the step. -/
def Dev.calDrop (d : Dev) (reason : Nat) : Dev :=
  match d.cal.run with
  | none => d
  | some r =>
    (({ d with cal.run := none }).raise aCalEvent 1 0x1902 (le 1 r.set ++ le 1 r.point ++ le 1 reason)).later 0x53 r.job
      [(8, le 1 reason)]

/-- A step that only ends the running CAL_RUN without a result. -/
def Dev.calAbort (d : Dev) (reason : Nat) : Dev := (d.calDrop reason).endAborted

/-- The QL that a running calibration needs is gone (reason 3). -/
def Dev.calQl (d : Dev) : Dev :=
  match qlRank d.selQlNow with
  | some q => if q ≤ 2 then d else d.calDrop 3
  | none => d.calDrop 3

/-! ### TSU states (R298–R300) -/

/-- Entries that the history keeps: the 300 that count, and two more, so that an exit from LOCKED, which discards the two
newest, leaves a valid history, as the HOLDOVER rows of R298 and R300 need (DEDUCED 120). -/
def histMax : Nat := 302

/-- HIST_VALID: 300 entries (R299). -/
def Dev.histValid (d : Dev) : Bool := 300 ≤ d.tsu.hist.length

/-- Entry to a state: the exit from LOCKED first (R299, reason 1 of R325), then the term of R300 and the state's TSU_HIST
bit, with `extra` bits of the same instant. -/
def Dev.tsuEnter (d : Dev) (st : Nat) (sel : Option Nat) (extra : List (Nat × List Byte) := []) : Dev :=
  let d := if d.tsu.st = 2 then ({ d with tsu.hist := d.tsu.hist.drop 2 }).calDrop 1 else d
  let d := { d with
    tsu.st := st, tsu.sel := sel, tsu.since := d.now, tsu.phaseErr := 0, tsu.inSince := d.now, tsu.outSince := d.now
    tsu.lockedAt := if st = 2 then d.now else d.tsu.lockedAt
    tsu.histAt := d.now, tsu.meanSum := 0, tsu.meanAt := d.now
    tsu.hist := if st = 0 then [] else d.tsu.hist }
  let (term, d) : Int × Dev :=
    if st = 1 then
      if sel = some 69 then (d.tsu.steer, d)
      else (Config.loopTerm d.fresh 0, { d with fresh := d.fresh + 1 })
    else if st = 2 then (if sel = some 69 then d.tsu.steer else d.tsu.freqTerm, d)
    else if st = 3 then d.meanFree ((d.tsu.hist.take 300).foldl (· + ·) 0) 300
    else if st = 4 then (d.tsu.lastTerm, d)
    else (0, d)
  let q := d.selQlNow
  let ql := if q ≠ d.tsu.selQl then [(10, [])] else []
  let d := { d with tsu.selQl := q }
  (d.tsuRaise ([(st, [])] ++ extra ++ ql)).setTerm term

/-- SEL_QL has changed. -/
def Dev.selQlCheck (d : Dev) : Dev :=
  let q := d.selQlNow
  if q = d.tsu.selQl then d else (({ d with tsu.selQl := q }).tsuRaise [(10, [])])

/-- LOST: no reference is selected. -/
def Dev.tsuLost (d : Dev) : Dev := d.tsuEnter 4 none

/-- HOLDOVER where the history is valid and HO_EN is 1, FREE_RUN otherwise; MODE 3 forbids HOLDOVER from LOST (R298). -/
def Dev.holdOrFree (d : Dev) : Dev :=
  if d.histValid && d.tsu.hoEn && decide (d.tsu.mode ≠ 3) then d.tsuEnter 3 none else d.tsuEnter 0 none

/-- The reaction to a class U record of the TSU (R298, R454): the history keeps the entries that both copies hold equal. -/
def Dev.tsuFault (d : Dev) (equal : Option (List Bool)) : Dev :=
  let d := match equal with
    | some es => { d with tsu.hist := ((d.tsu.hist.zipIdx).filter (fun x => es.getD x.2 false)).map (fun x => x.1) }
    | none => d
  -- an exit from LOCKED discards two entries before the history is valid or not (R299)
  let left := d.tsu.hist.length - (if d.tsu.st = 2 then 2 else 0)
  if d.tsu.st = 0 then d
  else if decide (300 ≤ left) && d.tsu.hoEn then d.tsuEnter 3 none else d.tsuEnter 0 none

/-! ### The time counter (R303–R305) -/

/-- 8 ns pass: one step of the elapsed-time base and of the time counter (R303, R304). -/
def Dev.tick (d : Dev) : Dev :=
  let n := d.tsu.ns + 8
  if n < 1000000000 then { d with tsu.elapsed := d.tsu.elapsed + 8, tsu.ns := n }
  else { d with tsu.elapsed := d.tsu.elapsed + 8, tsu.ns := n - 1000000000, tsu.sec := d.tsu.sec + 1 }

/-- The time counter as nanoseconds since its zero. -/
def Dev.timeNs (d : Dev) : Int := (d.tsu.sec.toNat * 1000000000 + d.tsu.ns : Nat)

/-- The step as the event carries it: 8 bytes, signed; a step beyond them has no stated image, so it is free. -/
def Dev.stepBytes (d : Dev) (x : Int) : List Byte × Dev :=
  if -(2 ^ 63) ≤ x && x < 2 ^ 63 then (le 8 (twos 64 x), d) else (le 8 d.draw.1.toNat, d.draw.2)

/-- A phase in ns within half a period on either side; which end of the range stands for half a period is the model's choice
(DESIGN CHOICE 129). -/
def centred (x period : Int) : Int := if 2 * (x % period) ≤ period then x % period else x % period - period

/-- The time after which an output's edges repeat: 125 µs of a frame pulse, 1 s of a 1PPS and of any whole FREQ (R309). -/
def outCycle (o : Nat) (x : TOut) : Int := if o = 4 || (o = 5 && x.mode ≠ 2) then 125000 else 1000000000

/-- An output's edges move against their aligned place by some ns. -/
def TOut.shifted (x : TOut) (o : Nat) (by_ : Int) : TOut := { x with phase := centred (x.phase + by_) (outCycle o x) }

/-- Sets the time counter to `t`, modulo its width, by a step of a cause. Output phases keep their place on the
elapsed-time base, so each moves against the counter; PM bins and queue samples in progress become suspect (R140, R273); the
tick follows R196 at once. -/
def Dev.stepTo (d : Dev) (t : Int) (cause : Nat) : Dev :=
  let step := t - d.timeNs
  let (b, d) := d.stepBytes step
  let n := (t % (2 ^ 48 * 1000000000 : Int)).toNat
  let shifted := [0, 1, 2, 3, 4, 5].foldl (fun t o => tupd {} t o (fun y : TOut => y.shifted o step)) d.tsu.outs
  let points := d.points.map (fun y => if y.2.role = 0 then y
    else (y.1, y.2.stepped d.dayOffset d.tsu.sec.toNat (n / 1000000000)))
  let queues := d.pkt.queues.map (fun y => if y.2.sampleEn then (y.1, { y.2 with suspect := true }) else y)
  let d := { d with
    tsu.sec := BitVec.ofNat 48 (n / 1000000000), tsu.ns := n % 1000000000, tsu.outs := shifted
    points := points, pkt.queues := queues, xc.notBefore := none }
  d.tsuRaise [(8, le 1 cause ++ b)]

/-! ### References (R284–R287) -/

/-- Activity of a reference: of a line reference, the recovered clock that its lane offers while it is locked (R65, R284). -/
def Dev.refActive (d : Dev) (r : Nat) : Bool :=
  if r < 64 then decide ((d.lane r).bstate = .locked)
  else if r = 68 then d.worker && decide ((d.link 0).st = 7)
  else (d.tref r).active

/-- What a reference fails, if anything (R286). Where several checks fail at once, FAIL_CAUSE is the first of 1, 5, 4, 6, 2, 3
(DESIGN CHOICE 119). -/
def Dev.refFail (d : Dev) (r : Nat) : Option Nat :=
  let x := d.tref r
  let beyond := fun (v : Int) (lim : Nat) => decide ((lim * 1000 : Nat) < v.natAbs)
  if !d.refActive r then some (if r = 69 then (if x.cause = 6 then 6 else 5) else if x.cause = 6 && r ≥ 64 then 6 else 1)
  else if r = 69 then none
  else if decide (r < 64) && d.refSf r then some 4
  else match x.offset, x.driftM with
    | some o, some v => if beyond o x.hard then some 2 else if beyond v x.drift then some 3 else none
    | _, _ => some 6

/-- Items of a reference event. -/
def Dev.refArgs (d : Dev) (r : Nat) : List Byte := le 1 r ++ le 1 (d.tref r).cause

/-- Length of the timer of WTR (R285, R287), in ns. -/
def Dev.wtrLength (d : Dev) (r : Nat) : Nat :=
  let x := d.tref r
  if x.wtrQ then (if r = 69 then 0 else if r = 68 then 100000000 else if x.pps then 64000000000 else 10000000000)
  else x.wtr * 1000000000

/-- WTR → AVAILABLE when the timer has run out. -/
def Dev.refExpire (d : Dev) (r : Nat) : Dev :=
  let x := d.tref r
  if x.st = 2 && d.after x.wtrSince (d.wtrLength r) then
    (d.updRef r (fun x => { x with st := 3, been := true })).raise (aRefEvent r) 1 0x1842 (d.refArgs r)
  else d

/-- FAILED with a cause, from WTR or AVAILABLE with its event; the selected reference leaves through LOST (R298). -/
def Dev.refFailed (d : Dev) (r cause : Nat) : Dev :=
  let was := (d.tref r).st
  let d := d.updRef r (fun x => { x with st := 1, cause := cause, disputed := false })
  let d := if was = 2 || was = 3 then d.raise (aRefEvent r) 0 0x1841 (d.refArgs r) else d
  if d.tsu.sel = some r then d.tsuLost else d

/-- Brings a reference's state up to date with its checks (R287). -/
def Dev.refEval (d : Dev) (r : Nat) : Dev :=
  let x := d.tref r
  if x.st = 0 then d
  else match d.refFail r with
    | some c => if x.st = 1 then d.updRef r (fun x => { x with cause := c }) else d.refFailed r c
    | none =>
      if x.st = 1 then
        let d := d.updRef r (fun x => { x with st := 2, cause := 0, wtrSince := d.now, wtrQ := !x.been })
        if d.wtrLength r = 0 then d.refExpire r else d
      else d

/-- DISPUTED of every reference (R293). -/
def Dev.disputes (d : Dev) : Dev :=
  let rs := (d.tsu.refs.filter (fun x => x.2.st = 3)).map (fun x => x.1)
  let bad := fun (a : Nat) => decide ((d.tref a).st = 3) && rs.any (fun b => b ≠ a && (d.refRank a).isSome
    && d.refRank a = d.refRank b && (d.tref a).prio = (d.tref b).prio
    && decide (d.tsu.dispute * 1000 < (d.refOffset a - d.refOffset b).natAbs))
  (d.tsu.refs.map (fun x => x.1)).foldl (fun d a =>
    if bad a && !(d.tref a).disputed then
      (d.updRef a (fun x => { x with disputed := true })).raise (aRefEvent a) 3 0x1844 (d.refArgs a)
    else if !bad a && (d.tref a).disputed then d.updRef a (fun x => { x with disputed := false }) else d) d

/-- The least of a list of numbers. -/
def least : List Nat → Nat
  | [] => 0
  | x :: xs => xs.foldl min x

/-- The selection of R291: its choice. -/
def Dev.choose (d : Dev) : Option Nat :=
  let c := (d.tsu.refs.filter (fun x => x.2.st = 3 && x.2.prio ≠ 0 && (d.refRank x.1).isSome)).map (fun x => x.1)
  let c := if d.tsu.mode = 1 then c.filter (fun r => r = d.tsu.forceRef) else c
  if d.tsu.mode = 2 || d.tsu.mode = 3 || c.isEmpty then none
  else
    let q := least (c.map (fun r => (d.refRank r).getD 0))
    let b := c.filter (fun r => (d.refRank r).getD 0 = q)
    let act := d.tsu.sel
    if !d.tsu.revertive && (act.map b.contains).getD false then act
    else
      let p := least (b.map (fun r => (d.tref r).prio))
      let e := b.filter (fun r => (d.tref r).prio = p)
      if (act.map e.contains).getD false then act
      else
        let m := least (e.map (fun r => (d.refOffset r).natAbs))
        e.find? (fun r => decide ((d.refOffset r).natAbs ≤ m + 1000))

/-- Entry to ACQUIRING on a reference. On a 1PPS reference a phase error of more than 1 µs steps the counter (R305). -/
def Dev.acquire (d : Dev) (r : Nat) (phaseErr : Int) (extra : List (Nat × List Byte) := []) : Dev :=
  let d := d.tsuEnter 1 (some r) extra
  if 64 ≤ r && r < 68 && (d.tref r).pps && decide (1000 < phaseErr.natAbs) then d.stepTo (d.timeNs - phaseErr) 2 else d

/-- Runs the selection and acts on a change (R292, R296, R305): `phaseErr` is the phase error found at entry to ACQUIRING,
the counter's time at a 1PPS edge less REF_DELAY, from the nearest second. -/
def Dev.select (d : Dev) (phaseErr : Int) : Dev :=
  let c := d.choose
  if c = d.tsu.sel then d.selQlCheck.calQl
  else match c with
    | none => d.tsuLost
    | some r => d.acquire r phaseErr [(5, [])]

end Sys2Proof.Machine
end

