-- ==== Sys2Proof/Machine/Fence.lean ====
section
/-! DEFINITION. Fences: which egress ports a fenced unit exposes (R550, R32), what stops traffic and drives FAULT_N and
SAFE_N (R456), the fencing of units and planes (R28, R350, R455), the end of a resynchronisation or unfence (R31, R461), and
entry to FROZEN (R458). -/

namespace Sys2Proof.Machine

/-! ### What a path crosses (R550) -/

/-- What the paths into an output cross: monitored points' objects by their keys, other units by the source ID of their
plane N instance. -/
structure Crossed where
  points : List Nat := []
  units : List Nat := []
  deriving DecidableEq, Repr

def Crossed.add (a b : Crossed) : Crossed := { points := a.points ++ b.points, units := a.units ++ b.units }

def Crossed.all (xs : List Crossed) : Crossed := xs.foldl Crossed.add {}

/-- An object's points: its own, its TCM levels, and those of its servers in turn. -/
def Dev.chainOf (d : Dev) : Nat → Nat → List Nat
  | 0, _ => []
  | n + 1, k =>
    let own := if mpTyOf k = 2 then k :: (List.range 6).map (fun l => mpKeyOf 3 (l + 1) (mpIndexOf k)) else [k]
    own ++ (match d.serverOf (mpTyOf k) (mpIndexOf k) with | some s => d.chainOf n s | none => [])

/-- The engine that runs a selector (R222), in plane N. -/
def Dev.selEngine (d : Dev) (scheme : Nat) (v : Selector) : Crossed :=
  let slice := d.selSlice scheme v.prot
  { units := (v.engine.map (fun e => srcOf 9 (engineNo 0 slice (d.movedTo slice e)))).toList }

/-- An object at an end of a path: its points, an entry's E1 point among them, the slice that serves it, and the engine of the
MSP selector that feeds its VC-4. -/
def Dev.endOf (d : Dev) (k : Nat) : Crossed :=
  let e1 := if mpTyOf k = 7 && (d.lo (mpIndexOf k)).e1Mode ≠ 0 then [mpKeyOf 8 0 (mpIndexOf k)] else []
  let msp := if mpTyOf k = 6 || mpTyOf k = 7 then (d.pointPort k).bind (fun p => d.mspOf p true) else none
  Crossed.add { points := e1 ++ d.chainOf 6 k, units := [srcOf 14 (d.pointSlice k)] }
    ((msp.map (d.selEngine 1)).getD {})

/-- The 32 packet-buffer banks of plane N: a packet's cells may lie in any of them. -/
def packetBanks : Crossed := { units := (List.range 32).map (srcOf 12) }

/-- The banks of plane N in which packets wait for their playout: the packet buffer, or the merge-store banks of the jitter
reserve (R175). -/
def Dev.jitterBanks (d : Dev) : Crossed :=
  if d.reserve.region = 1 then { units := (List.range d.reserve.size).map (fun i => srcOf 11 (31 - i)) } else packetBanks

/-- Offset of PCP p in PCP_OFFSET (R275). -/
def pcpOffset (off p : Nat) : Nat := off / 2 ^ (3 * p) % 8

/-- Scheduler port that serves an output: its SHAPER_CFG TARGET names the Ethernet port. -/
def Dev.schedulerOf (d : Dev) (p : Nat) : Option Nat :=
  (d.pkt.shapers.find? (fun x => x.1 / 4096 = 2 && x.2.target = 0x8000 + p)).map (fun x => x.1 % 4096)

mutual
/-- Paths into scheduler port n: the flows and default queues of its subscribers, for every PCP, from their ingress sources,
and its circuits, each from the received entry whose E1 it packs (R171). -/
def Dev.intoSch (d : Dev) : Nat → Nat → Crossed
  | 0, _ => {}
  | f + 1, n =>
    let mine := fun (q : Nat) => (d.shaper (4096 + q / 8)).parent = n
    let ings := ((d.pkt.flows.filter (fun x => x.2.valid && mine x.2.queue)).map (fun x => x.2.ingress))
      ++ ((d.pkt.ingress.filter (fun x => x.2.miss = 1 &&
        (List.range 8).any (fun p => mine (x.2.defQueue + pcpOffset x.2.pcpOff p)))).map (fun x => x.1))
    let ckts := (d.circuits.filter (fun x => x.2.made && mine x.2.queue)).map (fun x => x.1)
    (Crossed.all (ings.map (fun i =>
      if i / 4096 = 0 then { units := [srcOf 14 (i % 4096 / 8)] }
      else (d.endOf (mpKeyOf 2 0 (i % 4096))).add (d.intoOdu f (i % 4096))))).add
      ((Crossed.all (ckts.map (fun e => d.endOf (mpKeyOf 7 0 e)))).add packetBanks)
/-- Paths into a leaf ODU, through the slot table. -/
def Dev.intoOdu (d : Dev) : Nat → Nat → Crossed
  | 0, _ => {}
  | f + 1, o =>
    Crossed.all ((d.slotsOf o).map (fun x =>
      let w := d.xcWord (d.activePage 0) 0 x
      let bank : Crossed := { units := [srcOf 13 (x % 8)] }
      let src := srcVal 0 w
      bank.add (match srcKind w with
        | 1 =>
          let own := tget 0 d.xc.slots src
          if own = 0 then {} else d.fromOdu f (own - 1)
        | 2 => match d.group src with
          | some g => ((d.fromOdu f g.east).add (d.fromOdu f g.west)).add
              { units := g.units.map (fun u => srcOf 11 (u / 32)) }
          | none => {}
        | 3 => match d.sel src with
          | some v => (d.selEngine 0 v).add (d.fromOdu f (if v.selected then v.prot else v.work))
          | none => {}
        | _ => {})))
/-- Paths from a leaf ODU that enters Damask: from its port, or from the packet path. -/
def Dev.fromOdu (d : Dev) : Nat → Nat → Crossed
  | 0, _ => {}
  | f + 1, o =>
    (d.endOf (mpKeyOf 2 0 o)).add (match d.odu o with
      | some x => if x.kind = 2 then d.intoSch f x.gfpPort else {}
      | none => {})
/-- Paths into a lower-order entry, through the LO table. -/
def Dev.intoLo (d : Dev) : Nat → Nat → Crossed
  | 0, _ => {}
  | f + 1, e =>
    let w := d.xcWord (d.activePage 2) 2 e
    let bank : Crossed := { units := [srcOf 13 (8 + e % 8)] }
    let src := srcVal 2 w
    let from' := fun (x : Nat) => (d.endOf (mpKeyOf 7 0 x)).add
      (if (d.lo x).e1Mode = 3 then
        d.jitterBanks.add (Crossed.all (((d.pkt.flows.filter (fun y =>
          y.2.valid && (d.circuit x).made && y.2.flowTag = (d.circuit x).flowTag)).map (fun y => y.2.ingress)).map (fun i =>
            if i / 4096 = 0 then ({ units := [srcOf 14 (i % 4096 / 8)] } : Crossed)
            else (d.endOf (mpKeyOf 2 0 (i % 4096))).add (d.intoOdu f (i % 4096)))))
      else {})
    bank.add (match srcKind w with
      | 1 => from' src
      | 3 => match d.sel (selKey 3 src) with
        | some v => (d.selEngine 3 v).add (from' (if v.selected then v.prot else v.work))
        | none => {}
      | _ => {})
end

/-- Paths into a VC-4, through the VC-4 table, or of an opened one through the LO table. -/
def Dev.intoVc4 (d : Dev) (v : Nat) : Crossed :=
  match d.vc4 v with
  | none => {}
  | some x =>
    if x.struct then
      Crossed.all ((List.range 63).map (fun i =>
        let e := 63 * x.loSlot + i
        if srcKind (d.xcWord (d.activePage 2) 2 e) = 0 then {} else (d.intoLo 8 e).add (d.endOf (mpKeyOf 7 0 e))))
    else
      let w := d.xcWord (d.activePage 1) 1 v
      let src := srcVal 1 w
      let bank : Crossed := { units := [srcOf 13 (v % 8)] }
      bank.add (match srcKind w with
        | 1 => d.endOf (mpKeyOf 6 0 src)
        | 3 => match d.sel (selKey 2 src) with
          | some y => (d.selEngine 2 y).add (d.endOf (mpKeyOf 6 0 (if y.selected then y.prot else y.work)))
          | none => {}
        | _ => {})

/-- Leaf ODUs that leave through a port. -/
def Dev.leavesOf (d : Dev) (p : Nat) : List Nat :=
  (d.odus.filter (fun x => d.isLeaf x.1 && d.oduPort 5 x.1 = some p)).map (fun x => x.1)

/-- Whether a path egresses at a port (R550). -/
def Dev.egresses (d : Dev) (p : Nat) : Bool :=
  match formatKind (d.port p).format with
  | 1 => (d.lineOdu p).isSome
  | 2 => !(d.portVc4s (d.sentPort p)).isEmpty
  | 3 => (d.schedulerOf p).isSome
  | _ => false

/-- What the paths that leave through a port cross. -/
def Dev.pathsOut (d : Dev) (p : Nat) : Crossed :=
  let own : Crossed := { units := [srcOf 14 (p / 8)] }
  own.add (match formatKind (d.port p).format with
    | 1 => Crossed.all ((d.leavesOf p).map (fun o => (d.intoOdu 8 o).add (d.endOf (mpKeyOf 2 0 o))))
    | 2 => Crossed.all ((d.portVc4s (d.sentPort p)).map (fun v => (d.intoVc4 v).add (d.endOf (mpKeyOf 6 0 v))))
    | 3 => match d.schedulerOf p with | some n => d.intoSch 8 n | none => {}
    | _ => {})

/-- A unit or its partner is fenced. -/
def Dev.eitherFenced (d : Dev) (u : Nat) : Bool := d.fenced u || d.fenced (partner u)

/-- EXPOSED bit of a port (R550). -/
def Dev.exposedPort (d : Dev) (p : Nat) : Bool :=
  d.egresses p && (d.planeFenced 0 || d.planeFenced 1 ||
    (let c := d.pathsOut p
     c.units.any d.eitherFenced || c.points.any (fun k => match (d.point k).engine with
      | some e => d.eitherFenced (srcOf 9 (engineNo 0 (d.pointSlice k) (d.movedTo (d.pointSlice k) e)))
      | none => false)))

/-- The ports that are exposed. -/
def Dev.exposedNow (d : Dev) : BitVec 64 :=
  if d.plane.fences.isEmpty then 0
  else (d.enabledPorts).foldl (fun b p => if d.exposedPort p then b ||| BitVec.ofNat 64 (2 ^ p) else b) 0

/-- Brings PLANE_EXPOSED up to date and posts every newly set bit (R32). -/
def Dev.expose (d : Dev) : Dev :=
  let new := d.exposedNow
  let old := d.plane.exposed
  let d := { d with plane.exposed := new }
  (List.range 64).foldl (fun d p =>
    if new.getLsbD p && !old.getLsbD p then d.post 0x1C03 (le 1 p) else d) d

/-! ### Stopped traffic and the pins (R456) -/

/-- A fence, or a fault left without one, has stopped traffic. A unit inside a plane fenced as a whole counts as fenced. -/
def Dev.stopped (d : Dev) : Bool :=
  d.plane.unfencedFault || d.plane.fences.any (fun x =>
    x.2 && decide (srcFamily x.1 ≠ 15) && d.fencedOrPlane (partner x.1))

/-- FAULT_N and SAFE_N are asserted. -/
def Dev.faultPin (d : Dev) : Bool := d.plane.frozen || d.stopped || bit (d.reg 0x40040) 2 || decide (d.life = .strapBad)
def Dev.safePin (d : Dev) : Bool := d.plane.frozen

/-! ### Ends of a resynchronisation or an unfence -/

/-- A resynchronisation ends without admitting its plane; the command that started it will complete with ABORTED (R31). -/
def Dev.abortResync (d : Dev) : Dev :=
  match d.plane.resync with
  | none => d
  | some r => ({ d with plane.resync := none }).later (if r.why = ResyncFor.unfence then 0x80 else 0x71) r.job

/-- An unfence ends with its unit left fenced; its command will complete with ABORTED (R461). -/
def Dev.abortUnfence (d : Dev) : Dev :=
  match d.plane.unfence with
  | none => d
  | some u => ({ d with plane.unfence := none }).later 0x80 u.job

/-! ### Plane selectors at a fence (R241, R455) -/

/-- The lane that an egress cell leaves by: the cells of a port are distributed over its lanes, and the pipelines of those lanes,
in rotation, lowest lane first (R19). The rotation goes by the cell number, which both planes share (DESIGN CHOICE 115). -/
def Dev.egressLane (d : Dev) (p cell : Nat) : Nat := p + cell % (d.port p).lanes

/-- A word leaves the plane selector of a port: with P = 1 it is counted (R241). -/
def Dev.selOut (d : Dev) (p : Nat) (x : PWord) : Dev :=
  let d := d.emit (.selWord p (d.egressLane p x.cell) (x.cell % 65536) x.w x.d x.p)
  let d := d.updPsel p (fun s => { s with pos := 8 * x.cell + x.w + 1 })
  if x.p then (d.count32 (0xC00104 + 0x10 * p)).raise (0xC00100 + 0x10 * p) 0 0x1681 (le 1 p) else d

/-- The selector of a port pairs no words any more: held words of the plane that carries leave, the other's are dropped. -/
def Dev.unpair (d : Dev) (p carrier : Nat) : Dev :=
  let s := d.psel p
  let d := d.updPsel p (fun s => { s with held := [], run := 0, joining := none })
  if s.ahead.val = carrier then s.held.foldl (fun d x => d.selOut p x) d else d

/-! ### Fencing -/

/-- Disarms the injections of a unit (R455). -/
def Dev.disarm (d : Dev) (src : Nat) : Dev := { d with arms := d.arms.filter (fun x => x.1 / 16 ≠ src) }

/-- A copy of a monitor's engine has stopped in either plane. -/
def Dev.dccDead (d : Dev) (x : Dcc) : Bool :=
  match x.engine with
  | some k => d.engineDead 0 (x.port / 8) k || d.engineDead 1 (x.port / 8) k
  | none => false

/-- Framer words of a slice of a plane are held from its fence to its unfence (R89, R455). -/
def Dev.holdFramers (d : Dev) (src : Nat) (on : Bool) : Tab Word :=
  let i := srcInst src
  (d.frWords (i / 8) (i % 8)).foldl (fun t x => tput 0 t x.1 (if on then x.2 else 0)) d.plane.framerHeld

/-- Requests of the bus matrix that a fence drops: those to an engine that it stops (R350), and those of the clusters that stop
with a slice or a plane (R423). -/
def Dev.mxKept (d : Dev) (src : Nat) : List MxReq :=
  let i := srcInst src
  d.mx.waiting.filter (fun r =>
    !(decide (srcFamily src = 9) && decide (r.target.val = i))
      && !(decide (srcFamily src = 14) && decide (r.master = 2 + i))
      && !(decide (srcFamily src = 15) && decide (2 ≤ r.master) && decide (r.master ≤ 17) && decide ((r.master - 2) / 8 = i)))

/-- Sets or clears a fence. The running second of a DCC monitor whose engine was fenced in it is suspect (R363). -/
def Dev.setFence (d : Dev) (src : Nat) (on : Bool) : Dev :=
  let held := if srcFamily src = 14 then d.holdFramers src on else d.plane.framerHeld
  let d' := { d with
    plane.fences := tput false d.plane.fences src on, plane.framerHeld := held
    mx.waiting := if on then d.mxKept src else d.mx.waiting }
  let dcc := d.twill.dcc.map (fun x => if d.dccDead x.2 || d'.dccDead x.2 then (x.1, { x.2 with suspect := true }) else x)
  { d' with twill.dcc := dcc }

/-- The redundancy state has changed since `was`: it is posted (R32). -/
def Dev.postState (d : Dev) (was : Nat) : Dev := if d.planeState = was then d else d.post 0x1C02 (le 1 d.planeState)

/-- Fences plane p as a whole: the redundancy state moves as R28 states, the preferred plane becomes the other, and every
plane selector forwards the other plane's words alone. -/
def Dev.planeOut (d : Dev) (p : Fin 2) : Dev :=
  let was := d.planeState
  let o : Fin 2 := if p = 0 then 1 else 0
  let d := (d.setFence (0xF000 + p.val) true).disarm (0xF000 + p.val)
  let d := { d with plane.preferred := if d.plane.preferred = p then o else d.plane.preferred }
  let d := d.post 0x1C04 (le 2 (0xF000 + p.val))
  let d := (d.postState was)
  let d := d.enabledPorts.foldl (fun d q => d.unpair q o.val) d
  d.expose

/-- Fences plane p as a whole, which also fences a unit inside it that is being returned (R461). -/
def Dev.fencePlane (d : Dev) (p : Fin 2) : Dev :=
  let d := d.planeOut p
  if d.plane.unfence.any (fun u => planeOf u.unit = p.val) then d.abortUnfence else d

/-- A move whose TO is fenced keeps its functions on FROM and will complete with ABORTED (R353). -/
def Dev.abortMoves (d : Dev) (slice k : Nat) : Dev :=
  let dead := d.twill.moves.filter (fun m => m.slice = slice && m.dst = k)
  let d := { d with twill.moves := d.twill.moves.filter (fun m => !(m.slice = slice && m.dst = k)) }
  dead.foldl (fun d m => d.later 0x72 m.job) d

/-- An engine stops: its queued messages are discarded (R350). -/
def Dev.engineOut (d : Dev) (g : Nat) : Dev :=
  let d := if h : g < 256 then (d.emptyQueue (.twIn ⟨g, h⟩)).emptyQueue (.twOut ⟨g, h⟩) else d
  d.updEngine g (fun e => { e with tapBusy := false })

/-- Fences a unit inside a plane (R350, R455). A fence ends the resynchronisation of the plane that holds the unit (R31), the
moves to an engine, and the return of a unit that a fault fences again before it is admitted (R461). -/
def Dev.fenceUnit (d : Dev) (src : Nat) : Dev :=
  if d.fenced src then (if d.plane.unfence.any (fun u => u.unit = src) then d.abortUnfence else d)
  else
    let i := srcInst src
    let d := (d.setFence src true).disarm src
    let d := match srcFamily src with
      | 9 => (d.raise (aEng i 4) 0 0x1A01 (le 2 i)).engineOut i
      | 14 =>
        let d := d.post 0x1C04 (le 2 src)
        (d.enabledPorts.filter (fun q => q / 8 = i % 8)).foldl (fun d q => d.unpair q (1 - i / 8)) d
      | _ => d.raise (fwBase src) 5 0x1C04 (le 2 src)
    let d := d.expose
    let d := if srcFamily src = 9 then d.abortMoves (i % 128 / 16) (i % 16) else d
    if d.plane.resync.any (fun r => r.plane.val = planeOf src) then d.abortResync else d

/-- Fences any fenceable unit. -/
def Dev.fence (d : Dev) (src : Nat) : Dev :=
  if srcFamily src = 15 then (if d.planeFenced (srcInst src) then d else d.fencePlane (if srcInst src = 0 then 0 else 1))
  else d.fenceUnit src

/-- Clears a unit's fence (R461, R468). -/
def Dev.unfence (d : Dev) (src result : Nat) : Dev :=
  let was := d.planeState
  let d := d.setFence src false
  let d := if srcFamily src = 15 then d.postState was else d
  (d.post 0x1C05 (le 2 src ++ le 1 result)).expose

/-! ### FROZEN (R28, R204, R457, R458) -/

/-- Armed swaps are cancelled, with their events; their commands will complete with ABORTED. -/
def Dev.dropArms (d : Dev) (keep : Arm → Bool) : Dev :=
  (d.xc.arms.filter (fun a => !keep a)).foldl (fun d a => (d.raise 0xA00004 1 0x1502 (le 1 a.mask ++ le 4 a.tick)).later 0x21 a.job)
    { d with xc.arms := d.xc.arms.filter keep }

/-- A step that only cancels armed swaps. -/
def Dev.cancelArms (d : Dev) (keep : Arm → Bool) : Dev := (d.dropArms keep).endAborted

/-- Entry to FROZEN. -/
def Dev.freeze (d : Dev) : Dev :=
  if d.plane.frozen then d
  else
    let was := d.planeState
    let d := { d with plane.frozen := true, plane.frozenFrom := BitVec.ofNat 2 was }
    let d := (((d.post 0x1C01 (le 1 was)).postState was).dropArms (fun a => a.swapping)).calDrop 8
    (d.abortResync.abortUnfence).endAborted

end Sys2Proof.Machine
end

