-- ==== Sys2Proof/Machine/Mem.lean ====
section
/-! DEFINITION. The storage memories (R17, R36, R37, R416): nine byte cells a word, eight of data and one of check. A word
that nothing has written reads as the memory's reset content: an unconnected position in a Damask bank, 0 elsewhere
(DESIGN CHOICE 5). -/

namespace Sys2Proof.Machine

/-- Number of a memory in the address space of cells. -/
def memNo : MemId → Nat
  | .merge b => b.val
  | .packet b => 64 + b.val
  | .damask n => 128 + n.val
  | .twInstr g => 160 + g.val
  | .twData g => 416 + g.val
  | .config p => 672 + p.val
  | .tsuHist => 674
  | .hostBuf => 675
  | .mxBuf => 676
  | .secMem => 677
  | .regCrc => 678
  | .psel p => 679 + p.val

/-- Words of a memory, where the manual gives their number (R17, R334, R416); a memory that it does not size has no bound
but the address's width. -/
def memWords : MemId → Nat
  | .packet _ => 131072
  | .damask _ => 2048
  | .twInstr _ => 2048
  | .twData _ => 4096
  | .tsuHist => 300
  | .psel _ => 64
  | _ => 262144

/-- Source ID and checker of a memory (R447, R451). -/
def memSource : MemId → Nat × Nat
  | .merge b => (srcOf 11 b.val, 0)
  | .packet b => (srcOf 12 b.val, 0)
  | .damask n => (srcOf 13 n.val, 0)
  | .twInstr g => (srcOf 9 g.val, 0)
  | .twData g => (srcOf 9 g.val, 1)
  | .config p => (srcOf 8 p.val, 0)
  | .tsuHist => (srcOf 1 0, 1)
  | .hostBuf => (srcOf 2 0, 0)
  | .mxBuf => (srcOf 3 0, 0)
  | .secMem => (srcOf 4 0, 0)
  | .regCrc => (srcOf 5 0, 0)
  | .psel p => (srcOf 7 p.val, 0)

/-- MASTER of a datapath read of a memory (R452): an engine's cluster, the datapath, or unknown. -/
def memMaster : MemId → Byte
  | .twInstr g | .twData g => BitVec.ofNat 8 (2 + 8 * (g.val / 128) + g.val % 128 / 16)
  | .merge _ | .packet _ | .damask _ | .config _ | .psel _ => 0xFE
  | _ => 0xFF

/-- Cell number of byte i (8: the check field) of a word. -/
def cellOf (num addr i : Nat) : Nat := (num * 262144 + addr) * 9 + i

/-- The word that a memory holds where nothing has been written. -/
def wordReset (num addr : Nat) : Data :=
  if 128 ≤ num && num < 160 && num % 16 < 8 && addr % 1024 < 340 && addr < 2048 then xcReset 0 else 0

/-- What an unlisted cell reads as. -/
def cellReset (a : Nat) : Byte :=
  let w := a / 9
  let d := wordReset (w / 262144) (w % 262144)
  if a % 9 < 8 then byteOf d (a % 9) else secded d

/-- One byte cell. -/
def readCell (m : List Host.Cell) (a : Nat) : Byte := tget (cellReset a) m a
def writeCell (m : List Host.Cell) (a : Nat) (b : Byte) : List Host.Cell := tput (cellReset a) m a b

/-- Canonical form from cell `lo` on: cells strictly rising, none equal to what an unlisted cell reads as. -/
def memWfFrom : Nat → List Host.Cell → Bool
  | _, [] => true
  | lo, (a, b) :: m => decide (lo ≤ a) && decide (b ≠ cellReset a) && memWfFrom (a + 1) m

/-- The memory is in canonical form. -/
def Memory.wf (m : List Host.Cell) : Bool := memWfFrom 0 m

/-- The data bits of a stored word. -/
def wordData (m : List Host.Cell) (num addr : Nat) : Data :=
  (List.range 8).foldl (fun d i => d ||| ((readCell m (cellOf num addr i)).setWidth 64 <<< (8 * i))) 0

/-- The check field of a stored word. -/
def wordCheck (m : List Host.Cell) (num addr : Nat) : Byte := readCell m (cellOf num addr 8)

/-- Stores a word with a check field. -/
def putRaw (m : List Host.Cell) (num addr : Nat) (d : Data) (c : Byte) : List Host.Cell :=
  writeCell ((List.range 8).foldl (fun m i => writeCell m (cellOf num addr i) (byteOf d i)) m) (cellOf num addr 8) c

/-- A write into storage: with P = 1 the word is stored as stored poison (R41). -/
def putWord (m : List Host.Cell) (num addr : Nat) (d : Data) (p : Bool) : List Host.Cell :=
  putRaw m num addr d (if p then poisonCheck d else secded d)

/-- An upset of the array: the given bits of data (low 64) and check (high 8) flip. -/
def flipWord (m : List Host.Cell) (num addr : Nat) (u : BitVec 72) : List Host.Cell :=
  if u = 0 then m
  else putRaw m num addr (wordData m num addr ^^^ u.setWidth 64) (wordCheck m num addr ^^^ (u >>> 64).setWidth 8)

/-- The syndrome of a stored word (R38). -/
def syndrome (m : List Host.Cell) (num addr : Nat) : Byte := wordCheck m num addr ^^^ secded (wordData m num addr)

/-- The eight bytes of a list from `off` on as a word, the first in bits 7–0; a byte beyond the list's end is 0. -/
def wordOf (bs : List Byte) (off : Nat) : Data := BitVec.ofNat 64 (leNat ((bs.drop off).take 8))

/-- The bytes of a word, bits 7–0 first. -/
def bytesOfWord (w : Data) : List Byte := (List.range 8).map (byteOf w)

/-- Words that bytes fill. -/
def wordsFor (n : Nat) : Nat := (n + 7) / 8

/-- The listed words of a memory, by address. -/
def listedWords (m : List Host.Cell) (num : Nat) : List Nat :=
  ((m.filter (fun c => c.1 / 9 / 262144 = num)).map (fun c => c.1 / 9 % 262144)).eraseDups

/-- A memory forgets what it holds: every word is as at reset. -/
def clearMem (m : List Host.Cell) (n : Nat) : List Host.Cell :=
  (listedWords m n).foldl (fun m a => putWord m n a (wordReset n a) false) m

/-! ### Damask connection memories (R190, R205, R416) -/

/-- Bank and address of a position in a page. -/
def damaskAt (page table pos : Nat) : Nat × Nat :=
  (if table = 2 then 8 + pos % 8 else pos % 8,
   page * 1024 + (match table with | 0 => pos / 8 | 1 => 340 + pos / 8 | _ => pos / 8))

/-- Writes a connection word into the bank of each plane. A fenced bank discards the write (R455), and so does a plane fenced as a
whole that is not being resynchronised (R31). -/
def putDamask (d : Dev) (m : List Host.Cell) (page table pos : Nat) (w : Data) : List Host.Cell :=
  let (b, a) := damaskAt page table pos
  [0, 1].foldl (fun m pl =>
    if d.fenced (srcOf 13 (16 * pl + b)) || !d.takesWords pl then m else putWord m (128 + 16 * pl + b) a w false) m

/-- Brings the banks up to date with the connection words that changed between `old` and `d`. -/
def damaskSync (old d : Dev) (m : List Host.Cell) : List Host.Cell :=
  let keys := (old.xc.words ++ d.xc.words).map (fun x => x.1)
  keys.foldl (fun m k =>
    let z := xcReset (k / 8192 % 3)
    let w := tget z d.xc.words k
    if tget z old.xc.words k = w then m else putDamask d m (k / 8192 / 3) (k / 8192 % 3) (k % 8192) w) m

/-- A command that may change connection words. -/
def onSync (f : Dev → Dev) (s : State) : Out1 :=
  onMem (fun d m => (f d, damaskSync d (f d) m)) s

/-- A host opcode row that may change connection words. -/
def hostSync (op : Nat) (c : Desc) (run : Desc → Dev → Nat → Ran) (s : State) : Out1 :=
  if c.wf then onSync (fun d => d.command op c (run c) (bulkOk := false)) s else .fault .malformedDescriptor

end Sys2Proof.Machine
end

