-- ==== Sys2Proof/Machine/Record.lean ====
section
/-! DEFINITION. Fault records: injection (R462–R464), arbitration, capture and counts of a fault window (R452, R453), and the
reaction to each record (R29, R454). -/

namespace Sys2Proof.Machine

/-! ### Injection (R462, R463) -/

/-- FW_INJ_ADDR of a window. -/
def Dev.injAddr (d : Dev) (b : Nat) : Nat := fld (d.reg (b + 0x2C)) 0 16 * 2 ^ 32 + (d.reg (b + 0x28)).toNat

/-- The mask that an armed checker applies to a read of an address; 0 where none is armed. -/
def Dev.armMask (d : Dev) (src checker addr : Nat) : Byte :=
  let a := tget {} d.arms (16 * src + checker)
  if a.count ≠ 0 && (a.any || decide (d.injAddr (fwBase src) = addr)) then a.mask else 0

/-- An armed read counts down COUNT, which its window shows; at 0 the checker is disarmed. -/
def Dev.armUse (d : Dev) (src checker : Nat) : Dev :=
  let b := fwBase src
  let left := (tget {} d.arms (16 * src + checker)).count - 1
  let d := { d with arms := tupd {} d.arms (16 * src + checker) (fun a => if left = 0 then {} else { a with count := left }) }
  if fld (d.reg (b + 0x24)) 8 4 = checker && (b ≠ 0x40040 || fld (d.reg (b + 0x2C)) 16 16 = src) then
    d.setReg (b + 0x24) (setFld (d.reg (b + 0x24)) 16 8 left)
  else d

/-! ### Records (R452, R453) -/

/-- A record that the manual's sources can make. -/
def recordOk (r : FaultRec) : Bool :=
  let f := srcFamily r.source.toNat
  decide (1 ≤ r.cls.val) && decide (1 ≤ f) && decide (f ≤ 13) && decide (srcInst r.source.toNat < familySize f)

/-- The window's arbiter prefers `a` to `b`. -/
def arbiter (a b : FaultRec) : Bool :=
  if a.cls ≠ b.cls then b.cls < a.cls
  else if a.source ≠ b.source then a.source.toNat < b.source.toNat
  else if a.inj ≠ b.inj then !a.inj
  else a.checker < b.checker

/-- The record that wins. -/
def winner (r : FaultRec) (rs : List FaultRec) : FaultRec := rs.foldl (fun w x => if arbiter x w then x else w) r

/-- CAP_INFO of a captured record. -/
def capInfo (r : FaultRec) : Word :=
  bitAt true 0 ||| fldAt r.cls.val 1 2 ||| bitAt r.inj 3 ||| bitAt r.real 4 ||| fldAt r.access.val 5 3
    ||| fldAt r.master.toNat 8 8 ||| fldAt r.syndrome.toNat 16 8 ||| fldAt r.checker.val 24 4

/-- Captures a record in a window; `t` is its TIME. -/
def Dev.captureRec (d : Dev) (b : Nat) (r : FaultRec) (t : Nat) : Dev :=
  let d := (d.setReg (b + 4) (capInfo r)).setReg (b + 8) (fldAt (r.addr.toNat / 2 ^ 32) 0 16 ||| fldAt r.source.toNat 16 16)
  let d := (d.setReg (b + 12) (BitVec.ofNat 32 r.addr.toNat)).setReg (b + 16) (BitVec.ofNat 32 t)
  d.setReg (b + 20) (BitVec.ofNat 32 (t / 2 ^ 32))

/-- Counts one record in its window, and in the source's FLT_SRC or an engine's TW_CORR. -/
def Dev.countRec (d : Dev) (b : Nat) (r : FaultRec) : Dev :=
  let s := r.source.toNat
  let d := match r.cls.val with
    | 1 => d.count (b + 0x1C) 0 16
    | 2 => d.count (b + 0x1C) 16 16
    | _ => d.count (b + 0x20) 0 16
  let d := match fltSrcAddr s with
    | some a => d.count a (8 * (r.cls.val - 1)) 8
    | none => d
  if srcFamily s = 9 && r.cls.val = 1 then d.count32 (aEng (srcInst s) 0x10) else d

/-- Records that pend together in one fault window: counts, capture, FW_EVENT with SEQ raised once, and the events; `at_` is their
TIME where it is not now. The collector records nothing in FROZEN (R458). -/
def Dev.recordIn (d : Dev) (b : Nat) (r : FaultRec) (rs : List FaultRec) (at_ : Option Nat := none) : Dev :=
  let all := r :: rs
  let own := fwSource b
  if own = 0 && d.plane.frozen then d
  else
    let d := all.foldl (fun d x => d.countRec b x) d
    let free := !bit (d.reg (b + 4)) 0
    let d := if free then d.captureRec b (winner r rs) (at_.getD d.stamp) else d
    let lost := if free then rs.length else 0
    let d := if lost = 0 then d else d.count (b + 0x20) 16 16 lost
    let cap := fld (d.reg (b + 8)) 16 16
    let has := fun (c : Nat) => all.any (fun x => x.cls.val = c)
    let eng := srcFamily own = 9
    let items := le 2 own ++ le 2 cap
    let wire := all.find? (fun x => decide (own = 0) && decide (x.access.val = 6) && decide (12 ≤ x.checker.val) && decide (x.checker.val ≤ 14))
    let evs := (if has 1 then [(0, if eng then none else some (0x1C10, items))] else [])
      ++ (if has 2 then [(1, some (0x1C11, items))] else [])
      ++ (if has 3 then [(2, some (0x1C12, items))] else [])
      ++ (match wire with | some x => [(3, some (0x1C13, le 2 x.source.toNat ++ le 1 x.checker.val))] | none => [])
      ++ (if all.any (fun x => x.inj) then [(4, none)] else [])
      ++ (if lost = 0 then [] else [(6, some (0x1C14, le 2 own))])
    let d := d.raiseAll b evs
    if eng && has 1 then d.raise (aEng (srcInst own) 4) 1 0x1A04 (le 2 (srcInst own)) else d

/-- The pair over which a record would reach the collector is invalid: the collector takes no report from it (R450). -/
def Dev.pairBad (d : Dev) (r : FaultRec) : Bool := (tget 0 d.wires r.source.toNat).getLsbD (r.cls.val - 1)

/-- Records the records of one instant, window by window. A report over an invalid pair stays with its source (R449, R450; the
source holds every one, DESIGN CHOICE 123). -/
def Dev.recordAll (d : Dev) (rs : List FaultRec) : Dev :=
  let t := d.stamp
  let d := { d with reports := d.reports ++ (rs.filter d.pairBad).map (fun r => { r := r, at_ := t }) }
  let rs := rs.filter (fun r => !d.pairBad r)
  let bases := (rs.map (fun r => fwBase r.source.toNat)).eraseDups
  bases.foldl (fun d b => match rs.filter (fun r => fwBase r.source.toNat = b) with
    | r :: more => d.recordIn b r more
    | [] => d) d

/-! ### Reactions (R454) -/

/-- A fault that fences plane p as a whole; of the carrying plane it fences `instead`, or nothing (R29). A fault of the plane
that is being resynchronised ends that (R31). -/
def Dev.planeFault (d : Dev) (p : Nat) (instead : Option Nat) : Dev :=
  if d.planeFenced p then (if d.plane.resync.any (fun r => r.plane.val = p) then d.abortResync else d)
  else if d.planeFenced (1 - p) then
    match instead with
    | some u => d.fenceUnit u
    | none => { d with plane.unfencedFault := true }
  else d.fencePlane (if p = 0 then 0 else 1)

/-- The reaction to a record is suppressed (R464). -/
def Dev.suppressed (d : Dev) (r : FaultRec) : Bool := r.inj && !r.real && decide (r.cls.val ≠ 3) && !bit (d.reg 0x40004) 0

/-- The reaction to a record. -/
def Dev.react (d : Dev) (r : FaultRec) : Dev :=
  let s := r.source.toNat
  let i := srcInst s
  let k := r.checker.val
  if d.suppressed r || decide (r.cls.val ≤ 1) || decide (12 ≤ k) then d
  else match srcFamily s with
    | 1 => d.tsuFault none
    | 7 => if r.cls.val = 3 && k = 2 then d.planeFault (r.addr.toNat % 2) none else d
    | 8 =>
      if k = 0 && r.cls.val = 2 then
        let c := (Config.configSlice r.addr.toNat).toNat
        let e := d.planeFault i (if c < 8 then some (srcOf 14 (8 * i + c)) else none)
        if d.planeFenced i then e else e.abortResync
      else if k = 1 && r.cls.val = 2 then
        let u := 8 * i + r.addr.toNat / 2 ^ 40 % 8
        let ts := d.now :: ((tget [] d.sliceU u).filter (fun t => decide (d.now < t + 1000000000)))
        let d := { d with sliceU := tput [] d.sliceU u ts }
        if 16 ≤ ts.length then ({ d with sliceU := tput [] d.sliceU u [] }).fenceUnit (srcOf 14 u) else d
      else if k = 2 && r.cls.val = 3 then d.planeFault i (some (srcOf 14 (8 * i + r.addr.toNat / 8 % 8)))
      else d
    | 9 | 11 | 12 | 13 =>
      if r.cls.val ≠ 2 then d
      else if d.plane.unfence.any (fun u => u.unit = s) then d.abortUnfence
      else d.fenceUnit s
    | _ => d

/-- The records of one instant, and their reactions. -/
def Dev.faults (d : Dev) (rs : List FaultRec) : Dev :=
  ((rs.filter recordOk).foldl Dev.react (d.recordAll (rs.filter recordOk))).endAborted

/-- One record and its reaction. -/
def Dev.fault1 (d : Dev) (r : FaultRec) : Dev := d.faults [r]

/-! ### Reads of storage (R38, R39, R41, R463) -/

/-- What a read of a storage word delivers and leaves. -/
structure Read1 where
  d : Dev
  mem : List Host.Cell
  data : Data
  check : Byte
  poison : Bool

/-- A read of the stored word under R38, with the checker's injection: delivery, write-back, record and reaction. -/
def readStored (d : Dev) (mem : List Host.Cell) (m : MemId) (addr : Nat) (master : Byte) (access : Fin 8) : Read1 :=
  let n := memNo m
  let (src, k) := memSource m
  let w := wordData mem n addr
  let c := wordCheck mem n addr
  let s := syndrome mem n addr
  let mask := d.armMask src k addr
  let rec1 := fun (cls : Fin 4) (syn : Byte) (inj real : Bool) =>
    ({ source := BitVec.ofNat 16 src, cls := cls, checker := if k = 1 then 1 else 0, addr := BitVec.ofNat 48 addr
       master := master, access := access, syndrome := syn, inj := inj, real := real } : FaultRec)
  if eccOf s = .poison then { d := d, mem := mem, data := w, check := c, poison := true }
  else if mask ≠ 0 then
    let d := d.armUse src k
    let t := s ^^^ mask
    match eccOf t with
    | .clean => { d := d, mem := mem, data := w, check := c, poison := false }
    | .checkOnly | .data _ => { d := d.fault1 (rec1 1 t true (s ≠ 0)), mem := mem, data := w, check := c, poison := false }
    | .poison | .bad => { d := d.fault1 (rec1 2 t true (s ≠ 0)), mem := mem, data := w, check := c, poison := true }
  else match eccOf s with
    | .clean | .poison => { d := d, mem := mem, data := w, check := c, poison := false }
    | .checkOnly => { d := d.fault1 (rec1 1 s false false), mem := putWord mem n addr w false, data := w, check := c, poison := false }
    | .data j =>
      let w' := w ^^^ BitVec.ofNat 64 (2 ^ j)
      { d := d.fault1 (rec1 1 s false false), mem := putWord mem n addr w' false, data := w', check := c, poison := false }
    | .bad => { d := d.fault1 (rec1 2 s false false), mem := mem, data := w, check := c, poison := true }

/-- A word that leaves a storage memory on the datapath: its parity is generated afresh from its data (R41). -/
def Dev.deliver (d : Dev) (src : Nat) (w : Data) (p : Bool) : Dev := d.emit (.word src w (parity w) p)

/-- The unit that holds a memory is fenced: a bank is silent and an engine has stopped (R350, R455). -/
def Dev.memFenced (d : Dev) (m : MemId) : Bool := d.fenced (memSource m).1

/-- A read by a datapath stage: a fenced bank delivers P = 1 and makes no record (R455). -/
def readPath (d : Dev) (mem : List Host.Cell) (m : MemId) (addr : Nat) : Read1 :=
  if d.memFenced m && srcFamily (memSource m).1 ≠ 9 then
    { d := d, mem := mem, data := wordData mem (memNo m) addr, check := wordCheck mem (memNo m) addr, poison := true }
  else readStored d mem m addr (memMaster m) 0

/-- A read by the datapath, after an upset of the array. A word of the carrying plane's configuration store delivered with
P = 1 ends a resynchronisation (R31). -/
def storageRead (m : MemId) (addr : Nat) (u : BitVec 72) (d : Dev) (mem : List Host.Cell) : Dev × List Host.Cell :=
  let a := addr % memWords m
  let mem := flipWord mem (memNo m) a u
  let src := (memSource m).1
  if d.memFenced m && srcFamily src = 9 then (d, mem)
  else
    let r := readPath d mem m a
    let d := r.d.deliver src r.data r.poison
    match m with
    | .config p => (if r.poison && d.plane.resync.any (fun x => x.plane ≠ p) then d.abortResync.endAborted else d, r.mem)
    | _ => (d, r.mem)

/-- A read by the background scrub, which stops in a fenced bank or engine. -/
def memoryScrub (m : MemId) (addr : Nat) (u : BitVec 72) (d : Dev) (mem : List Host.Cell) : Dev × List Host.Cell :=
  let a := addr % memWords m
  let mem := flipWord mem (memNo m) a u
  if d.memFenced m then (d, mem)
  else
    let r := readStored d mem m a 0xFE 4
    (r.d, r.mem)

/-! ### Copies (R31, R461) -/

/-- A word copied from one memory to another: read under R38 with its record and write-back, and stored as it was delivered
(R41). -/
def copyWord (d : Dev) (mem : List Host.Cell) (src dst : MemId) (a b : Nat) : Dev × List Host.Cell :=
  let r := readPath d mem src a
  (r.d, putWord r.mem (memNo dst) b r.data r.poison)

/-- Memory `dst` becomes a copy of memory `src`. -/
def copyMem (src dst : MemId) (d : Dev) (mem : List Host.Cell) : Dev × List Host.Cell :=
  (listedWords mem (memNo src)).foldl (fun x a => copyWord x.1 x.2 src dst a a) (d, clearMem mem (memNo dst))

/-! ### Traffic in the banks of both planes (R17, R24, R34, R42) -/

/-- The slice logic that produces traffic's words is fenced in a plane: there they have P = 1 (R455). -/
def Dev.sliceDead (d : Dev) (plane : Nat) (slice : Option Nat) : Bool := slice.any (fun s => d.fenced (srcOf 14 (8 * plane + s)))

/-- A word that traffic stores in a bank of each plane: a fenced bank discards it (R455), and so does a plane fenced as a whole
that is not being resynchronised (R31). A word that arrives with P = 1 or with bad parity is stored as poison (R41), and so is
every word of a slice in the plane in which that is fenced (R455). -/
def Dev.putBoth (d : Dev) (bank : Fin 2 → MemId) (addr : Nat) (w : Data) (p : Bool) (slice : Option Nat)
    (mem : List Host.Cell) : List Host.Cell :=
  [0, 1].foldl (fun m (pl : Fin 2) =>
    if d.memFenced (bank pl) || !d.takesWords pl.val then m
    else putWord m (memNo (bank pl)) addr w (p || d.sliceDead pl.val slice)) mem

/-- What the planes' copies of a stored word come to at the plane selectors (R24): the preferred plane's, or the other's
where that one is poisoned; with P = 1 where each is. -/
structure Taken where
  d : Dev
  mem : List Host.Cell
  data : Data
  poison : Bool

/-- The logic of `slice` reads a plane's copy of a stored word and sends it on: where the slice is fenced, with P = 1 (R455). -/
def readSlice (d : Dev) (mem : List Host.Cell) (bank : Fin 2 → MemId) (addr : Nat) (slice : Option Nat) (pl : Fin 2) : Taken :=
  let a := readPath d mem (bank pl) addr
  { d := a.d, mem := a.mem, data := a.data, poison := a.poison || d.sliceDead pl.val slice }

/-- Each plane in service reads its copy of a stored word. -/
def readBoth (d : Dev) (mem : List Host.Cell) (bank : Fin 2 → MemId) (addr : Nat) (slice : Option Nat) : Taken :=
  let first : Fin 2 := if d.planeFenced d.plane.preferred.val then 1 - d.plane.preferred else d.plane.preferred
  let a := readSlice d mem bank addr slice first
  if d.planeFenced (1 - first).val then a
  else
    let b := readSlice a.d a.mem bank addr slice (1 - first)
    if a.poison && !b.poison then b else { b with data := a.data, poison := a.poison }

/-- Bytes that come through slice logic, stored word by word at the given places in the banks of both planes; `bad` numbers the
words that arrive with P = 1 or with bad parity. -/
def Dev.putBytes (d : Dev) (places : List ((Fin 2 → MemId) × Nat)) (bs : List Byte) (bad : List Nat) (slice : Option Nat)
    (mem : List Host.Cell) : List Host.Cell :=
  (places.zipIdx).foldl (fun m x => d.putBoth x.1.1 x.1.2 (wordOf bs (8 * x.2)) (bad.contains x.2) slice m) mem

/-- What stored words come to as they leave. -/
structure TakenBytes where
  d : Dev
  mem : List Host.Cell
  bytes : List Byte := []
  /-- the words that leave with P = 1, by number -/
  bad : List Nat := []

/-- Words read from the given places of the banks of both planes, in order, and sent on by the logic of `slice`. -/
def readBytes (d : Dev) (mem : List Host.Cell) (places : List ((Fin 2 → MemId) × Nat)) (slice : Option Nat) : TakenBytes :=
  places.zipIdx.foldl (fun (t : TakenBytes) x =>
    let r := readBoth t.d t.mem x.1.1 x.1.2 slice
    { d := r.d, mem := r.mem, bytes := t.bytes ++ bytesOfWord r.data, bad := if r.poison then t.bad ++ [x.2] else t.bad })
    { d := d, mem := mem }

end Sys2Proof.Machine
end

