-- ==== Sys2Proof/Machine/Queues.lean ====
section
/-! DEFINITION. The fall-through queues (R44–R54) with the edge queues of the lanes (R76–R79), and the CRC units (R56–R62). -/

namespace Sys2Proof.Machine

/-! ### Items -/

/-- An item as the queue stores it on push: datapath parity and QP generated (R41, R46). -/
def newItem (w : Data) (tag : BitVec 4) (p : Bool) : QItem :=
  let c := parity w
  { d := w, c := c, tag := tag, p := p, qp := qpOf w c tag p }

end Sys2Proof.Machine

namespace Sys2Proof

open Machine

/-- The exclusive-OR of all 78 bits of an item is 0 (R44). -/
def QItem.good (x : QItem) : Bool := x.qp = qpOf x.d x.c x.tag x.p

/-- An item after an upset of the array. -/
def QItem.upset (x u : QItem) : QItem :=
  { d := x.d ^^^ u.d, c := x.c ^^^ u.c, tag := x.tag ^^^ u.tag, p := x.p != u.p, qp := x.qp != u.qp }

/-- Source ID, checker, master and, for a queue of slice logic, ADDR of the queue's record (R451, R452); where ADDR is a
slot it depends on the read. -/
def QId.owner : QId → Nat × Fin 16 × Byte × Option Nat
  | .laneIn l => (srcOf 10 l.val, 0, 0xFE, none)
  | .laneEg l => (srcOf 10 l.val, 1, 0xFE, none)
  | .jyIn j => (srcOf 10 (64 + j.val), 0, 0xFE, none)
  | .jyEg j => (srcOf 10 (64 + j.val), 1, 0xFE, none)
  | .twIn g => (srcOf 9 g.val, 2, BitVec.ofNat 8 (2 + 8 * (g.val / 128) + g.val % 128 / 16), none)
  | .twOut g => (srcOf 9 g.val, 3, BitVec.ofNat 8 (2 + 8 * (g.val / 128) + g.val % 128 / 16), none)
  | .slice p s n => (srcOf 8 p.val, 1, 0xFE, some (s.val * 2 ^ 40 + n.val))
  | .emu p g => (srcOf 8 p.val, 1, 0xFE, some (g.val % 8 * 2 ^ 40 + 256 + g.val))

/-- Whether a queue's engine, slice or plane is fenced: an engine's queue then takes and gives nothing (R350). -/
def QId.engine : QId → Option Nat
  | .twIn g | .twOut g => some g.val
  | _ => none

end Sys2Proof

namespace Sys2Proof.Machine

/-- The queue of a fenced engine, which has stopped. -/
def Dev.qDead (d : Dev) (q : QId) : Bool := match q.engine with | some g => d.fenced (srcOf 9 g) | none => false

/-- The check of an item as a read makes it, with the checker's injection (R46, R462, R463): whether it fails, and the record.
`good` is whether QP holds, which bit 0 of MASK inverts; `sound` whether the datapath parity of the word does (R41) with a mask
applied to C[7:0]: one that does not is handled as a QP that fails (log entry 110). -/
def Dev.itemCheck (d : Dev) (src : Nat) (k : Fin 16) (addr : Nat) (master : Byte) (good : Bool)
    (sound : Byte → Bool := fun _ => true) : Bool × Dev :=
  let mask := d.armMask src k.val addr
  let d := if mask = 0 then d else d.armUse src k.val
  let fails := decide (good = mask.getLsbD 0) || !sound mask
  (fails, if fails then
    d.fault1 { source := BitVec.ofNat 16 src, cls := 2, checker := k, addr := BitVec.ofNat 48 addr, master := master
               access := 5, inj := mask ≠ 0, real := mask ≠ 0 && !(good && sound 0) }
  else d)

/-! ### Push (R50–R53) -/

/-- An item enters a queue that has space. -/
def Dev.qEnter (d : Dev) (q : QId) (x : QItem) : Dev :=
  let f := d.queue q
  let d := d.updQueue q (fun f => { f with
    items := f.items ++ [x]
    since := if f.items.isEmpty then d.now else f.since
    expired := if f.items.isEmpty then false else f.expired })
  d.levelMoved q f.level (f.level + 1)

/-- An edge queue drops an arriving item (R53). -/
def Dev.qSlip (d : Dev) (q : QId) : Dev :=
  ((d.updQueue q (fun f => { f with drops := f.drops + 1 })).count32 (qbase q + 0x10)).qNotice q 4

/-- A push: into a full queue it waits, and from a clocked edge it is dropped. -/
def Dev.qPush (d : Dev) (q : QId) (x : QItem) : Dev :=
  if d.qDead q then d
  else
    let f := d.queue q
    if f.level < q.cap && f.waiting.isEmpty then d.qEnter q x
    else if q.clockedIn then d.qSlip q
    else d.updQueue q (fun f => { f with waiting := f.waiting ++ [x] })

/-- Pushes that waited complete while there is space (R52); the number bounds the work. -/
def Dev.qAdmit (q : QId) : Nat → Dev → Dev
  | 0, d => d
  | n + 1, d =>
    let f := d.queue q
    match f.waiting with
    | x :: rest =>
      if f.level < q.cap then Dev.qAdmit q n ((d.updQueue q (fun f => { f with waiting := rest })).qEnter q x) else d
    | [] => d

/-- Space has been freed: the level fell from `a`, and waiting pushes complete. -/
def Dev.qFreed (d : Dev) (q : QId) (a : Nat) : Dev :=
  let d := d.levelMoved q a (d.queue q).level
  Dev.qAdmit q (d.queue q).waiting.length d

/-- The egress PCS begins to transmit when its queue holds 64 items, after the port has reached ALIGNED or a PORT_CFG has
configured it (R79). -/
def Dev.startSending (d : Dev) (l : Nat) (h : l < 64) : Dev :=
  if 64 ≤ (d.queue (.laneEg ⟨l, h⟩)).items.length
      && (match d.laneOwner l with | some p => (d.port p).egress && !(d.port p).onHold | none => false) then
    d.updLane l (fun x => { x with sending := true })
  else d

def execQueuePush (q : QId) (w : Data) (tag : BitVec 4) (p : Bool) (s : State) : Out1 :=
  onDev (live (fun d =>
    let d := d.qPush q (newItem w tag p)
    match q with
    | .laneEg l => d.startSending l.val l.isLt
    | _ => d)) s

/-! ### Pop, rewind and release (R46, R47, R49) -/

/-- A read of a queue after an upset of its output stage: the item, with P, and none for the idle item. -/
def Dev.qRead (d : Dev) (q : QId) (u : QItem) : Option QItem × Dev :=
  let f := d.queue q
  match f.items with
  | [] => (none, d)
  | x :: rest =>
    let x := x.upset u
    let (src, k, master, addr) := q.owner
    let d := d.updQueue q (fun f => { f with
      items := rest, held := if q.mr then f.held ++ [x] else f.held, since := d.now, expired := false })
    -- the number of the slot that a read takes is open (log entry 2)
    let (slot, d) := d.draw
    let (fails, d) := d.itemCheck src k (addr.getD (slot.toNat % q.cap)) master x.good (fun k => parityOk x.d (x.c ^^^ k))
    let d := if fails then d.qNotice q 3 else d
    let d := if q.mr then d else d.qFreed q f.level
    (some { x with p := x.p || fails }, d)

/-- The message that waits in an engine's tap register enters the input queue when it has space (R52, R346); its content is
internal to the package. -/
def Dev.tapEnters (d : Dev) (g : Fin 256) : Dev :=
  if (d.engine g.val).tapBusy && decide ((d.queue (.twIn g)).level < (QId.twIn g).cap) then
    let (w, d) := d.draw
    (d.updEngine g.val (fun e => { e with tapBusy := false })).qEnter (.twIn g) (newItem w 4 false)
  else d

/-- A tap gives an engine a message (R345, R346): whether the engine gets it. That of an engine that has stopped is discarded
(R350); one that finds the register occupied is dropped and counted; one that finds the queue full waits in the register. The
function acts on what the message carries at once (log entry 111). -/
def Dev.tapMessage (d : Dev) (g : Fin 256) : Bool × Dev :=
  if d.engineDead (g.val / 128) (g.val % 128 / 16) (g.val % 16) then (false, d)
  else if (d.engine g.val).tapBusy then (false, (d.count32 (aEng g.val 0xC)).raise (aEng g.val 4) 2 0x1A03 (le 2 g.val))
  else
    let d := d.updEngine g.val (fun e => { e with tapBusy := true })
    (true, d.tapEnters g)

/-- The ingress fork keeps the slip count and marks the next cell (R77). -/
def Dev.forkMark (d : Dev) (l : Fin 64) (x : QItem) : Dev :=
  if x.tag = 2 then
    let n := (d.queue (.laneIn l)).drops
    let d := if (d.lane l.val).slipSeen = n then d else d.emit (.slipMark l.val)
    d.updLane l.val (fun y => { y with slipSeen := n })
  else d

/-- The fork of a lane feeds a plane (R22, R31, R455): it does not wait for a plane that is fenced, unless that is being
resynchronised, or whose slice is fenced, and has stopped feeding one that stalled it. -/
def Dev.forkFeeds (d : Dev) (l plane : Nat) : Bool :=
  d.takesWords plane && !d.fenced (srcOf 14 (8 * plane + l / 8)) && !tget false d.plane.forkStopped (64 * plane + l)

/-- The fork hands a word to the first core stage of each plane that it feeds: pipeline l mod 8 of slice l ÷ 8 (R19, R22).
The next word is taken when both pushes have completed. -/
def Dev.forkPush (d : Dev) (l : Nat) (x : QItem) : Dev :=
  [0, 1].foldl (fun d plane =>
    if d.forkFeeds l plane then d.emit (.forkWord plane (l / 8) (l % 8) x.d x.p) else d) d

/-- The queue is one of slice logic that is fenced: its words reach the next stage with P = 1 (R455). -/
def Dev.qSilent (d : Dev) (q : QId) : Bool :=
  match q with
  | .slice p s _ => d.sliceDead p.val (some s.val)
  | .emu p g => d.sliceDead p.val (some (g.val % 8))
  | _ => false

/-- A consumer takes an item. The fork of a port frozen by an urgent word discards it (R395). -/
def Dev.qPop (d : Dev) (q : QId) (u : QItem) : Dev :=
  if d.qDead q then d
  else
    let (x, d) := d.qRead q u
    match x with
    | none => d
    | some x =>
      match q with
      | .laneIn l =>
        if (match d.laneOwner l.val with | some p => (d.port p).onHold | none => false) then d
        else (d.forkMark l x).forkPush l.val x
      | .twIn g => (d.emit (.word q.owner.1 x.d x.c x.p)).tapEnters g
      | _ => d.emit (.word q.owner.1 x.d x.c (x.p || d.qSilent q))

/-- REWIND, where mark and rewind are enabled. -/
def Dev.qRewind (d : Dev) (q : QId) : Dev :=
  if q.mr then
    d.updQueue q (fun f =>
      let rise := f.items.isEmpty && !f.held.isEmpty
      { f with items := f.held ++ f.items, held := []
               since := if rise then d.now else f.since, expired := if rise then false else f.expired })
  else d

def execRewind (q : QId) (s : State) : Out1 := onDev (live (fun d => d.qRewind q)) s

/-- RELEASE, where mark and rewind are enabled. -/
def Dev.qRelease (d : Dev) (q : QId) : Dev :=
  if q.mr then
    let a := (d.queue q).level
    (d.updQueue q (fun f => { f with held := [] })).qFreed q a
  else d

def execRelease (q : QId) (s : State) : Out1 := onDev (live (fun d => d.qRelease q)) s

/-- The expiry of QTIMEOUT (R50). -/
def Dev.qExpire (d : Dev) (q : QId) : Dev :=
  let f := d.queue q
  let t := fld (d.reg (qbase q + 4)) 0 16
  if t ≠ 0 && !f.items.isEmpty && !f.expired && d.after f.since (16 * t) then
    (d.updQueue q (fun f => { f with expired := true })).qNotice q 2
  else d

def execQueueTimeout (q : QId) (s : State) : Out1 := onDev (live (fun d => d.qExpire q)) s

/-! ### The lanes' edge queues (R76–R79) -/

/-- A control block as an item of an Ethernet lane's queue holds it, with TAG CONTROL: block type in byte 0, then its codes
(IEEE 802.3, 64B/66B; PRESUMED 95). -/
def EthBlock.word : EthBlock → Data
  | .idle => 0x1E
  | .error => 0x1E ||| (List.range 8).foldl (fun d i => d ||| ((0x1E : Data) <<< (8 + 7 * i))) 0
  | .remoteFault => 0x4B ||| ((0x02 : Data) <<< 24)

/-- The clock that a lane transmits on (R80, R81): true for its own recovered clock, in loop timing while it is LOCKED or in
a line loopback; false for the TSU system clock. -/
def Lane.onRecovered (x : Lane) : Bool := x.loopback = 1 || x.ctrl.getLsbD 4 && x.bstate = .locked

/-- The port takes a cell's words in one lane, and goes on with the next lane after its last word (R19, R77). -/
def Port.turn (q : Port) (tag : BitVec 4) : Port :=
  if tag = 3 then { q with inTurn := if q.inTurn + 1 < q.lanes then q.inTurn + 1 else 0 } else q

/-- A decoded word of an aligned port reaches the lane's ingress queue, when it is the lane's turn (R77). A word of an
uncorrectable codeword of an Ethernet port is pushed as an error block (R78). -/
def Dev.laneTake (d : Dev) (l : Fin 64) (w : Data) (tag : BitVec 4) : Dev :=
  match d.laneOwner l.val with
  | none => d
  | some p =>
    let q := d.port p
    if q.astate ≠ .aligned || l.val ≠ p + q.inTurn then d
    else
      let bad := isEth q.format && decide ((d.lane l.val).errBlocks ≠ 0)
      let d := if bad then d.updLane l.val (fun x => { x with errBlocks := x.errBlocks - 1 }) else d
      (d.updPort p (fun q => q.turn tag)).qPush (.laneIn l)
        (if bad then newItem EthBlock.error.word 4 false else newItem w tag false)

/-- The PCS of a locked lane gives a word at its recovered clock. In a line loopback the lane also retransmits it; in a local
loopback the line input is ignored (R81). -/
def Dev.laneWordIn (d : Dev) (l : Fin 64) (w : Data) (tag : BitVec 4) : Dev :=
  let x := d.lane l.val
  if x.bstate ≠ .locked || x.loopback = 2 then d
  else (if x.loopback = 1 then d.emit (.laneWord l.val w false true) else d).laneTake l w tag

def execIngressWordPush (l : Fin 64) (w : Data) (tag : BitVec 4) (s : State) : Out1 :=
  onDev (live (fun d => d.laneWordIn l w tag)) s

/-- What a lane transmits goes out, and in a local loopback returns to its own receiver (R81). In a line loopback the core's
words are discarded. `w` and `tag` are the word as the receiver takes it. -/
def Dev.laneSend (d : Dev) (l : Fin 64) (o : Bool → Out) (w : Data) (tag : BitVec 4) : Dev :=
  let x := d.lane l.val
  if x.loopback = 1 then d
  else
    let d := d.emit (o x.onRecovered)
    if x.loopback = 2 && x.bstate = .locked then d.laneTake l w tag else d

/-- A control block leaves an Ethernet lane. -/
def Dev.laneBlock (d : Dev) (l : Fin 64) (b : EthBlock) : Dev := d.laneSend l (.laneFill l.val b) b.word 4

/-- A packet that stops inside is broken: nothing more of it is sent (R79). -/
def PktTx.lost (s : PktTx) : PktTx := if s = .inside then .broken else s

/-- The MAC of an Ethernet port transmits no frames: it receives a fault (R251). -/
def Dev.macSilent (d : Dev) (p : Nat) : Bool := tget false d.pkt.locFault p || tget false d.pkt.remFault p

/-- The block that an Ethernet lane transmits in place of a missing word (R79): an error block once inside a packet, idle
otherwise; a MAC that receives local fault transmits remote fault, and one that receives remote fault idle (R251). -/
def Dev.missingBlock (d : Dev) (p : Nat) : EthBlock :=
  if tget false d.pkt.locFault p then .remoteFault
  else if (d.port p).pktTx = .inside && !d.macSilent p then .error
  else .idle

/-- What a lane transmits in place of a missing word (R79): all ones, or the Ethernet block of the place where the stream
stands. The packet that is being sent is broken. -/
def Dev.missingWord (d : Dev) (l : Fin 64) (p : Nat) : Dev :=
  if !isEth (d.port p).format then d.laneSend l (.laneWord l.val (BitVec.allOnes 64) false) (BitVec.allOnes 64) 1
  else (d.updPort p (fun q => { q with pktTx := q.pktTx.lost })).laneBlock l (d.missingBlock p)

/-- The stream of an Ethernet port after a block: a start block opens a packet, a terminate block ends it (PRESUMED 95). -/
def PktTx.next (s : PktTx) (x : QItem) : PktTx :=
  if x.tag ≠ 4 then s
  else if (byteOf x.d 0).toNat ∈ [0x78, 0x33, 0x66] then .inside
  else if (byteOf x.d 0).toNat ∈ [0x87, 0x99, 0xAA, 0xB4, 0xCC, 0xD2, 0xE1, 0xFF] then .between
  else s

/-- A word of the egress queue leaves the lane: on an OTN or SDH lane with its data bits unchanged. An Ethernet lane sends none
while the MAC is silent (R251), idle blocks for what is left of a broken packet (R79), and an error block in the place of a
poisoned word (R241), which breaks no packet (log entry 114). -/
def Dev.wordOut (d : Dev) (l : Fin 64) (p : Nat) (x : QItem) : Dev :=
  let q := d.port p
  let at_ := q.pktTx.next x
  let d' := d.updPort p (fun q => { q with pktTx := at_ })
  if !isEth q.format then d.laneSend l (.laneWord l.val x.d x.p) x.d x.tag
  else if d.macSilent p then d'.missingWord l p
  else if q.pktTx = .broken && at_ ≠ .inside then d'.laneBlock l .idle
  else if x.p then d'.laneBlock l .error
  else d'.laneSend l (.laneWord l.val x.d false) x.d x.tag

/-- One step of the PRBS31 generator of ITU-T O.150, x^31 + x^28 + 1, and the bit it sends, inverted (PRESUMED 94). -/
def prbsStep (s : BitVec 31) : BitVec 31 × Bool :=
  let b := s.getLsbD 30 != s.getLsbD 27
  ((s <<< 1) ||| (if b then 1 else 0), !b)

/-- 64 bits of PRBS31, the first in bit 0, and the register after them. -/
def prbsWord (s : BitVec 31) : Data × BitVec 31 :=
  (List.range 64).foldl (fun (x : Data × BitVec 31) i =>
    let (t, b) := prbsStep x.2
    (if b then x.1 ||| BitVec.ofNat 64 (2 ^ i) else x.1, t)) (0, s)

/-- An enabled lane of no enabled port transmits PRBS31 (R73). -/
def Dev.prbsOut (d : Dev) (l : Fin 64) : Dev :=
  if (d.lane l.val).bstate = .off then d
  else
    let (w, t) := prbsWord (d.lane l.val).prbs
    (d.updLane l.val (fun x => { x with prbs := t })).laneSend l (.laneWord l.val w false) w 1

/-- The egress PCS takes a word. -/
def Dev.laneWordOut (d : Dev) (l : Fin 64) : Dev :=
  match d.laneOwner l.val with
  | none => d.prbsOut l
  | some p =>
    if !(d.lane l.val).sending || (d.port p).onHold then d.missingWord l p
    else
      let (x, d) := d.qRead (.laneEg l) { c := 0 }
      match x with
      | some x => d.wordOut l p x
      | none => ((d.count32 (aLane l.val 0x18)).raise (aLane l.val 4) 4 0x1006 (le 1 l.val)).missingWord l p

def execEgressWordPop (l : Fin 64) (s : State) : Out1 := onDev (live (fun d => d.laneWordOut l)) s

/-- Blocks of a codeword of RS(528,514) or RS(544,514): 5,140 bits of 257-bit groups of four (PRESUMED 95). -/
def codewordBlocks : Nat := 80

/-- A codeword of the lane PCS (R78). On an aligned Ethernet port the blocks of one that is not correctable follow as errored. -/
def Dev.fecWord (d : Dev) (l : Nat) (correctable : Bool) : Dev :=
  match d.laneOwner l with
  | none => d
  | some p =>
    if (d.port p).fec = 0 then d
    else if correctable then d.count32 (aLane l 0x10)
    else
      let d := if isEth (d.port p).format && (d.port p).astate = .aligned then
          d.updLane l (fun x => { x with errBlocks := codewordBlocks }) else d
      (d.count32 (aLane l 0x14)).raise (aLane l 4) 2 0x1003 (le 1 l)

def execFecCodeword (l : Fin 64) (correctable : Bool) (s : State) : Out1 :=
  onDev (live (fun d => d.fecWord l.val correctable)) s

/-! ### CRC units (R56–R62) -/

/-- Width, polynomial, reflection and final XOR of a POLY (R57). -/
def crcWidth (p : BitVec 2) : Nat := match p.toNat with | 0 | 1 => 32 | 2 => 16 | _ => 8
def crcPoly (p : BitVec 2) : Word := match p.toNat with | 0 => 0x1EDC6F41 | 1 => 0x04C11DB7 | 2 => 0x1021 | _ => 0x1D
def crcReflected (p : BitVec 2) : Bool := p.toNat < 2
def crcFinal (p : BitVec 2) : Word := match p.toNat with | 0 | 1 => 0xFFFFFFFF | 2 => 0 | _ => 0xFF

/-- The low `n` bits of a word. -/
def lowBits (w : Word) (n : Nat) : Word := w &&& BitVec.ofNat 32 (2 ^ n - 1)

/-- One bit into the running state, unreflected (R60). -/
def crcBit (p : BitVec 2) (s : Word) (b : Bool) : Word :=
  let n := crcWidth p
  let t := lowBits (s <<< 1) n
  if s.getLsbD (n - 1) != b then t ^^^ crcPoly p else t

/-- One byte-step (R58). -/
def crcByte (p : BitVec 2) (s : Word) (b : Byte) : Word :=
  (List.range 8).foldl (fun s i => crcBit p s (b.getLsbD (if crcReflected p then i else 7 - i))) s

/-- A word reversed bit for bit across `n` bits. -/
def reverseBits (w : Word) (n : Nat) : Word :=
  (List.range n).foldl (fun r i => if w.getLsbD i then r ||| BitVec.ofNat 32 (2 ^ (n - 1 - i)) else r) 0

/-- CRC_RESULT of a running state (R60). -/
def crcResult (p : BitVec 2) (s : Word) : Word :=
  (if crcReflected p then reverseBits s (crcWidth p) else s) ^^^ crcFinal p

/-- CRC of bytes under R57 with the standard init. -/
def crcOf (p : BitVec 2) (bs : List Byte) : Word :=
  crcResult p (bs.foldl (crcByte p) (lowBits 0xFFFFFFFF (crcWidth p)))

/-- A unit processes an item of its input queue (R59, R60). -/
def CrcUnit.process (c : CrcUnit) : CrcItem → CrcUnit
  | .load p init => { c with
      poly := p, count := 0, blank := false
      state := match init with | some w => lowBits w (crcWidth p) | none => lowBits 0xFFFFFFFF (crcWidth p) }
  | .bytes bs => { c with
      blank := false, state := bs.foldl (crcByte c.poly) c.state
      count := BitVec.ofNat 32 (min (c.count.toNat + bs.length) (2 ^ 32 - 1)) }

/-- An item enters a unit's input queue; every item that has reached the unit is processed before any read of it (R59), so
the unit drains at once. The read of each slot is checked, with its injection. -/
def Dev.crcFeed (d : Dev) (u : Nat) (x : CrcItem) : Dev :=
  let (slot, d) := d.draw
  let (_, d) := d.itemCheck (srcOf 6 u) 0 (slot.toNat % 16) 0xFF true
  d.updCrc u (fun c => ((c.queue ++ [x]).foldl CrcUnit.process { c with queue := [] }))

/-- The owner in force of a unit, as a master: the host for M0 and M1 (R61). -/
def Dev.crcOwns (d : Dev) (u m : Nat) : Bool :=
  let o := (d.crcU u).owner.toNat
  if m ≤ 1 then o = 0 else o = m

/-- Bytes taken from a data register: 1, 2 or 4, lower byte first (R58). -/
def dataBytes (n : Nat) (w : Word) : List Byte := le n w.toNat

end Sys2Proof.Machine
end

