-- ==== Sys2Proof/Machine/Matrix.lean ====
section
/-! DEFINITION. The bus matrix between the host queue engine, the clusters of engines and the engines' input queues
(R345, R347, R419–R422). -/

namespace Sys2Proof.Machine

/-- The master of an engine's cluster (R334). -/
def clusterOf (g : Fin 256) : Nat := 2 + 8 * (g.val / 128) + g.val % 128 / 16

/-- An engine waits on the host queue engine: its output queue is full (R419). -/
def Dev.engineWaits (d : Dev) (g : Fin 256) : Bool := (QId.twOut g).cap ≤ (d.queue (.twOut g)).level

/-- Free entries of an engine's input queue. -/
def Dev.mxFree (d : Dev) (g : Fin 256) : Nat :=
  let f := d.queue (.twIn g)
  if f.waiting.isEmpty then (QId.twIn g).cap - f.level else 0

/-- The target has an entry for a request. It takes every message of another engine; for M1 it may wait, and keeps its last
free entry back from a request on whose master it waits (R419, R422). A fenced engine discards what is sent to it (R350). -/
def Dev.mxFits (d : Dev) (r : MxReq) : Bool :=
  d.qDead (.twIn r.target) || decide (2 ≤ d.mxFree r.target)
    || (decide (d.mxFree r.target = 1) && (decide (r.master ≠ 1) || !d.engineWaits r.target))

/-- The ordering domain of a request: its master, of which M1 has one for class 1 beside that of class 2 (R421). -/
def MxReq.domain (r : MxReq) : Nat := if r.master = 1 && r.cls = 1 then 21 else r.master

/-- The oldest request of each ordering domain: a later one waits until it is accepted (R421). -/
def mxHeads (ws : List MxReq) : List MxReq :=
  ws.foldl (fun hs r => if hs.any (fun h => decide (h.domain = r.domain)) then hs else hs ++ [r]) []

/-- The order of grants (R420): by class, a request of class 3 that has waited through 8 grants of class 2 ahead of class 2,
and round robin in a class from the master after the last one granted. -/
def MxReq.rank (r : MxReq) (turn : Nat) : Nat :=
  32 * (if r.cls = 3 && decide (8 ≤ r.aged) then 3 else 2 * r.cls) + (r.master + 21 - turn) % 21

/-- The key of a target's turn in a class. -/
def MxReq.turnKey (r : MxReq) : Nat := 8 * r.target.val + r.cls

/-- The request that a target grants next, of those that it has an entry for. -/
def Dev.mxNext (d : Dev) : Option MxReq :=
  let rs := (mxHeads d.mx.waiting).filter (fun r => d.mxFits r)
  let rank := fun (r : MxReq) => r.rank (tget 0 d.mx.turn r.turnKey)
  match rs with
  | [] => none
  | c :: _ => (rs.filter (fun r => decide (r.target = c.target))).foldl (fun b r => match b with
      | none => some r
      | some x => if rank r < rank x then some r else some x) none

/-- A grant: the message enters the engine's queue. -/
def Dev.mxGrant (d : Dev) (r : MxReq) : Dev :=
  let rest := d.mx.waiting.eraseP (fun x => decide (x.domain = r.domain))
  let aged := fun (x : MxReq) => if r.cls = 2 && x.cls = 3 && x.target = r.target then { x with aged := x.aged + 1 } else x
  let d := { d with mx.waiting := rest.map aged, mx.turn := tput 0 d.mx.turn r.turnKey (r.master + 1) }
  d.qPush (.twIn r.target) r.item

/-- Grants until no request has an entry; the number bounds the work. -/
def mxGrants : Nat → Dev → Dev
  | 0, d => d
  | n + 1, d => match d.mxNext with
    | some r => mxGrants n (d.mxGrant r)
    | none => d

/-- The oldest request of an ordering domain, marked as held back. -/
def mxMark (domain : Nat) : List MxReq → List MxReq
  | [] => []
  | r :: rs => if r.domain = domain then { r with held := true } :: rs else r :: mxMark domain rs

/-- A request of M1 for the last free entry of an engine that waits on it would close a cycle: it is held back, and counted
in MX_HOLD_CYCLE (R422). The oldest of each of M1's domains is looked at. -/
def Dev.mxHold (d : Dev) : Dev :=
  ((mxHeads d.mx.waiting).filter (fun r => decide (r.master = 1))).foldl (fun d r =>
    if !r.held && decide (d.mxFree r.target = 1) && d.engineWaits r.target then
      ({ d with mx.waiting := mxMark r.domain d.mx.waiting }).count32 0x90004
    else d) d

/-- The matrix grants what it can. -/
def Dev.mxRun (d : Dev) : Dev := (mxGrants d.mx.waiting.length d).mxHold

/-- A master's request reaches the matrix. -/
def Dev.mxRequest (d : Dev) (r : MxReq) : Dev := ({ d with mx.waiting := d.mx.waiting ++ [r] }).mxRun

/-- M1 is reset: its requests that wait are held back and not yet issued, so they are dropped (R423). -/
def Dev.mxDropM1 (d : Dev) : Dev := { d with mx.waiting := d.mx.waiting.filter (fun r => decide (r.master ≠ 1)) }

/-- The class of M1's requests for a descriptor: 1 for ring 0, 2 for another (R420). -/
def Dev.jobClass (d : Dev) (job : Nat) : Nat :=
  if d.host.jobs.any (fun j => decide (j.id = job) && decide (j.desc.ring = 0)) then 1 else 2

/-- The host queue engine sends an engine's copies in both planes the parameters of a command of a class (R345, R420), and those
of TO while the engine's functions move (R353). -/
def Dev.tellEngine (d : Dev) (cls slice k : Nat) : Dev :=
  let k := d.movedTo slice k
  [0, 1].foldl (fun d plane =>
    let (w, d) := d.draw
    let g : Fin 256 := Fin.ofNat 256 (128 * plane + 16 * slice + k)
    d.mxRequest { master := 1, target := g, cls := cls, item := newItem w 4 false }) d

/-- The same, for a function that may have an engine of a slice. -/
def Dev.tell (d : Dev) (cls slice : Nat) (e : Option Nat) : Dev :=
  match e with
  | some k => d.tellEngine cls slice k
  | none => d

/-- A message that leaves an engine's output queue goes to the host queue engine, or to an engine of the same plane: through
the matrix where that is of another slice (R345, R347). Which one is internal to the package (log entry 111). -/
def Dev.engineSends (d : Dev) (g : Fin 256) (x : QItem) : Dev :=
  let (w, d) := d.draw
  let n := w.toNat % 129
  let t : Fin 256 := Fin.ofNat 256 (128 * (g.val / 128) + n)
  let item := newItem x.d x.tag x.p
  if n = 128 then d
  else if clusterOf t = clusterOf g then d.qPush (.twIn t) item
  else d.mxRequest { master := clusterOf g, target := t, cls := 3, item := item }

/-- A pop of a queue by its consumer: a message of an engine goes on to where it is sent, and an entry that it frees may be
granted. -/
def Dev.queuePop (d : Dev) (q : QId) (u : QItem) : Dev :=
  match q with
  | .twOut g =>
    if d.qDead q then d
    else
      let (x, d) := d.qRead q u
      match x with
      | some x => ((d.emit (.word q.owner.1 x.d x.c x.p)).engineSends g x).mxRun
      | none => d
  | .twIn _ => if (d.queue q).items.isEmpty then d else (d.qPop q u).mxRun
  | _ => d.qPop q u

def execQueuePop (q : QId) (flip : QItem) (s : State) : Out1 := onDev (live (fun d => d.queuePop q flip)) s

end Sys2Proof.Machine
end

