-- ==== Sys2Proof/Machine/Defects.lean ====
section
/-! DEFINITION. Overhead, defects and performance monitoring (chapter 05): DEFECT_CFG, the overhead of a frame, the
persistence of defects, the settle filter, and the seconds and bins of a point. -/

namespace Sys2Proof.Machine

/-! ### Performance monitoring (R137–R142) -/

/-- A PM record or an accepted-overhead record (R142): its first eight bytes. -/
def recHead (k record flags : Nat) : List Byte :=
  le 1 (mpTyOf k) ++ le 1 record ++ le 2 (mpIndexOf k) ++ le 1 (mpLevelOf k) ++ le 1 flags ++ le 2 0

/-- The record of a bin. -/
def pmRecord (k : Nat) (day partial_ : Bool) (b : Bin) : List Byte :=
  recHead k (if day then 2 else 1) ((if b.suspect then 1 else 0) + (if partial_ then 2 else 0))
    ++ le 6 b.start ++ le 2 0 ++ (b.counts.map (le 4)).flatten ++ le 4 b.neEb ++ le 4 b.feEb

/-- The functions of a point hand the host queue engine an event or a record: each copy of their engine that runs puts a message
into its output queue (R345). The content is internal to the package, and what it says leaves the device at once (log
entry 111). -/
def Dev.funcSays (d : Dev) (k : Nat) : Dev :=
  match (d.point k).engine with
  | none => d
  | some e => [0, 1].foldl (fun d plane =>
      if d.engineDead plane (d.pointSlice k) e then d
      else
        let (w, d) := d.draw
        d.qPush (.twOut (Fin.ofNat 256 (engineNo plane (d.pointSlice k) e))) (newItem w 4 false)) d

/-- The oldest ended bin of a point closes: its record is delivered, and it is the previous bin (R140). -/
def Dev.closeBin (d : Dev) (k : Nat) (day : Bool) : Dev :=
  let x := d.point k
  match (if day then x.ended24 else x.ended15).getLast? with
  | none => d
  | some b =>
    let d := d.updPoint k (fun x => if day then { x with prev24 := b, ended24 := x.ended24.dropLast }
      else { x with prev15 := b, ended15 := x.ended15.dropLast })
    (d.stat (pmRecord k day false b)).funcSays k

/-- The bin that contains second `s`, of bins newest first, changed. -/
def inBin (f : Bin → Bin) (s : Nat) : List Bin → List Bin
  | [] => []
  | b :: bs => if b.start ≤ s then f b :: bs else b :: inBin f s bs

/-- A count of a bin raised. At the top of its 32 bits it stays there (DESIGN CHOICE 117). -/
def Bin.bump (b : Bin) (i n : Nat) : Bin := { b with counts := b.counts.modify i (fun c => min (c + n) (2 ^ 32 - 1)) }

/-- A bin with one second's results (R137, R139): in unavailable time UAS alone counts. -/
def Bin.add (b : Bin) (r : SecRes) (unavail : Bool) : Bin :=
  if unavail then b.bump 3 1
  else
    let b := if r.es then b.bump 0 1 else b
    let b := if r.ses then b.bump 1 1 else b.bump 2 r.eb
    let b := if r.feEs then b.bump 4 1 else b
    let b := if r.feSes then b.bump 5 1 else b.bump 6 r.feEb
    { b with neEb := min (b.neEb + r.eb) (2 ^ 32 - 1), feEb := min (b.feEb + r.feEb) (2 ^ 32 - 1) }

/-- Thresholds of a 15-minute bin that are reached and not posted (R141). -/
def crossed (x : Point) (b : Bin) : List Nat :=
  (List.range 4).filter (fun i => x.tca.getD i 0 ≠ 0 && decide (x.tca.getD i 0 ≤ b.counts.getD i 0) && !b.tca.getLsbD i)

/-- A bin whose crossings `cs` have been posted. -/
def Bin.crossedBy (b : Bin) (cs : List Nat) : Bin :=
  { b with tca := cs.foldl (fun t i => t ||| BitVec.ofNat 4 (2 ^ i)) b.tca }

/-- A resolved second goes to the bins that contain it. -/
def Dev.binSecond (d : Dev) (k : Nat) (r : SecRes) : Dev :=
  let x := d.point k
  let all15 := inBin (fun b => b.add r x.unavail) r.sec (x.cur15 :: x.ended15)
  let all24 := inBin (fun b => b.add r x.unavail) r.sec (x.cur24 :: x.ended24)
  let cs := match all15.find? (fun b => b.start ≤ r.sec) with | some b => crossed x b | none => []
  let all15 := inBin (fun b => b.crossedBy cs) r.sec all15
  let d := d.updPoint k (fun x => { x with
    cur15 := all15.headD {}, ended15 := all15.tail, cur24 := all24.headD {}, ended24 := all24.tail })
  cs.foldl (fun d i => (d.post 0x1320 (pointArgs k ++ le 1 i)).funcSays k) d

/-- Frame period of an ODU in ns, as a fraction (R90, R201); of an ODUflex 122,368 bits at its nominal rate (R552). -/
def oduPeriod (o : Odu) : Nat × Nat :=
  match o.ty with
  | 0x00 => (98360, 1)
  | 0x01 => (48970, 1)
  | 0x02 | 0x03 => (12200, 1)
  | 0x04 => (1168, 1)
  | 0x07 => (1163, 1)
  | _ => (122368 * 1000000000 * (flexRate o).2, (flexRate o).1)

/-- Blocks a second of a point, as a fraction (R119). -/
def Dev.blocks (d : Dev) (k : Nat) : Nat × Nat :=
  let i := mpIndexOf k
  let per := fun (n : Nat) (x : Nat × Nat) => (n * 1000000000 * x.2, x.1)
  match mpTyOf k with
  | 1 => if (d.port i).format = 1 then per (d.port i).otucN (1163, 1) else per 1 (1168, 1)
  | 2 | 3 => match d.odu i with
    | some o => per (if o.ty = 7 then (d.port o.server).otucN else 1) (oduPeriod o)
    | none => (0, 1)
  | 7 => (if d.isVc3 i then 8000 else 2000, 1)
  | 8 => (1000, 1)
  | _ => (8000, 1)

/-- `pct` per cent of a point's blocks, rounded up to a whole block. -/
def Dev.blockShare (d : Dev) (k pct : Nat) : Nat :=
  let (n, m) := d.blocks k
  (pct * n + 100 * m - 1) / (100 * m)

/-- Default percentage of a type (R127, R137). -/
def autoPct (ty : Nat) : Nat := if ty ≤ 3 then 15 else 30

/-- dDEG's run after a second (R127). -/
def Point.degSecond (x : Point) (bad : Bool) : Point :=
  let x := if bad then { x with badRun := x.badRun + 1, goodRun := 0 } else { x with goodRun := x.goodRun + 1, badRun := 0 }
  if bad && x.degm ≤ x.badRun then { x with raw := x.raw ||| 0x800 }
  else if !bad && x.degm ≤ x.goodRun then { x with raw := x.raw &&& 0xFFF7FF }
  else x

/-- An E1 has blocks in the second. -/
def Dev.e1Blocks (d : Dev) (k : Nat) (x : Point) : Bool :=
  mpTyOf k ≠ 8 || (d.e1 (mpIndexOf k)).st = .ifMf || decide (x.neEb ≠ 0)

/-- A point's current bins brought to a second: those that have ended give way (R140). -/
def Dev.rollPoint (d : Dev) (k : Nat) : Dev := d.updPoint k (fun x => x.roll d.dayOffset d.tsu.sec.toNat)

/-- The bins that contain a second become suspect. -/
def Point.suspectAt (x : Point) (s : Nat) : Point :=
  let mark := inBin (fun b => { b with suspect := true }) s
  let all15 := mark (x.cur15 :: x.ended15)
  let all24 := mark (x.cur24 :: x.ended24)
  { x with cur15 := all15.headD {}, ended15 := all15.tail, cur24 := all24.headD {}, ended24 := all24.tail }

/-- The result of the second that ends, `d.tsu.sec - 1`, is held, and the second's counts start again. -/
def Dev.pmTake (d : Dev) (k : Nat) : Dev :=
  let x := d.point k
  let sf := d.sf k
  let def_ := x.neDef || sf
  let limit := d.blockShare k (if x.sesPct = 0 then autoPct (mpTyOf k) else x.sesPct)
  let has := d.e1Blocks k x
  let ses := def_ || has && decide (limit ≤ x.neEb)
  let feSes := x.feDef || has && decide (limit ≤ x.feEb)
  let r : SecRes := { sec := d.tsu.sec.toNat - 1, ses := ses, es := ses || decide (0 < x.neEb), eb := x.neEb
                      feSes := feSes, feEs := feSes || decide (0 < x.feEb), feEb := x.feEb }
  let bad := decide ((if x.degThr = 0 then d.blockShare k (autoPct (mpTyOf k)) else x.degThr) ≤ x.neEb)
  d.updPoint k (fun x =>
    let x := if !has then { x with raw := x.raw &&& 0xFFF7FF } else if def_ then x else x.degSecond bad
    { x with neEb := 0, feEb := 0, neDef := sf, feDef := x.det.getLsbD 7, held := r :: x.held })

/-- The one-second summary was lost: its second has no result, is neither bad nor good, and makes its bins suspect (R346). -/
def Dev.pmLost (d : Dev) (k : Nat) : Dev :=
  let s := d.tsu.sec.toNat - 1
  let sf := d.sf k
  d.updPoint k (fun x => { x.suspectAt s with
    neEb := 0, feEb := 0, neDef := sf, feDef := x.det.getLsbD 7, held := { sec := s } :: x.held })

/-- The taps of both planes give the point's engine its message: whether the copy that status shows has it; of a fenced copy
the partner's counts (R350). While a move runs, the engine is the one that the functions start on (R353). -/
def Dev.tapPoint (d : Dev) (k : Nat) : Bool × Dev :=
  match (d.point k).engine with
  | none => (true, d)
  | some e =>
    let s := d.pointSlice k
    let e := d.movedTo s e
    let (a, d) := d.tapMessage (Fin.ofNat 256 (engineNo 0 s e))
    let (b, d) := d.tapMessage (Fin.ofNat 256 (engineNo 1 s e))
    (if d.engineDead 0 s e then b else if d.engineDead 1 s e then a else if d.shownPlane = 0 then a else b, d)

/-- A result that has been held for 10 s, ten later ones behind it, goes into its bins; unavailable time begins or ends with
it when it is the first of ten consecutive seconds that are SES, or are not (R139). -/
def Dev.pmPass (d : Dev) (k : Nat) : Dev :=
  let x := d.point k
  if x.held.length < 11 then d
  else
    let ten := x.held.drop 1
    let d :=
      if !x.unavail && ten.all (fun h => h.ses) then d.updPoint k (fun x => { x with unavail := true })
      else if x.unavail && ten.all (fun h => !h.ses) then d.updPoint k (fun x => { x with unavail := false })
      else d
    let d := d.updPoint k (fun x => { x with held := x.held.take 10 })
    match x.held.getLast? with
    | some old => d.binSecond k old
    | none => d

/-- A second of a point ends: the hardware's counts go to the engine in a message (R345). -/
def Dev.pmSecond (d : Dev) (k : Nat) : Dev :=
  let x := d.point k
  if x.role = 0 || !d.pointExists (mpTyOf k) (mpIndexOf k) then d
  else if d.pointHeld k then d.updPoint k (fun x => { x.suspects with neEb := 0, feEb := 0, neDef := false, feDef := false })
  else
    let (got, d) := d.tapPoint k
    (((if got then d.pmTake k else d.pmLost k).rollPoint k).pmPass k).refresh

def execPmSecond (m : MpId) (s : State) : Out1 := onDev (live (fun d => d.pmSecond (mpKey m))) s

/-- The end of the oldest ended bin of a point: the start of the bin after it. -/
def Point.endOf (x : Point) (day : Bool) : Nat :=
  ((((if day then x.cur24 :: x.ended24 else x.cur15 :: x.ended15)).dropLast.getLast?).map Bin.start).getD 0

/-- A bin closes 10 s after its end, when no second of it is held any more (R140). -/
def Dev.pmClose (d : Dev) (k : Nat) (day : Bool) : Dev :=
  let x := d.point k
  let n := x.endOf day
  if x.role = 0 || d.pointHeld k || decide (d.tsu.sec.toNat < n + 10 ∧ n ≤ d.tsu.sec.toNat)
    || decide (n ≤ d.tsu.sec.toNat) && x.held.any (fun r => r.sec < n) then d
  else d.closeBin k day

def execPmBinClose (m : MpId) (day : Bool) (s : State) : Out1 := onDev (live (fun d => d.pmClose (mpKey m) day)) s

/-- A change of DAY_OFFSET ends every current 24-hour bin at the end of the running second (R140). -/
def Dev.setDayOffset (d : Dev) (off : Nat) : Dev :=
  if d.dayOffset = off then d
  else
    let d := { d with dayOffset := off }
    let n := d.tsu.sec.toNat + 1
    (d.points.map (fun y => y.1)).foldl (fun d k =>
      if (d.point k).role = 0 then d
      else d.updPoint k (fun x => { x with
        ended24 := { x.cur24 with suspect := true } :: x.ended24, cur24 := { start := n, suspect := true } })) d

/-! ### Acceptance (R122, R123) -/

/-- A candidate's run: the candidate, the run, and whether it has just been accepted as a new value. -/
def takeRun {α : Type} [DecidableEq α] (n : Nat) (v cand : α) (run : Nat) (accepted : Option α) : Nat × Bool :=
  let run := if v = cand then min (run + 1) n else 1
  (run, decide (run = n) && accepted ≠ some v)

/-- The accepted-overhead records of a point, delivered together (R142). A value that has not been accepted reads 0, and so do
the bytes behind a shorter TTI (DESIGN CHOICE 116). -/
def Dev.acceptedRecs (d : Dev) (k : Nat) : Dev :=
  let x := d.point k
  let tti := (x.tti ++ le 64 0).take 64
  ((d.stat (recHead k 3 0 ++ tti.take 32 ++ le 1 (x.pt.getD 0) ++ le 2 (d.msiBad k))).stat (recHead k 4 0 ++ tti.drop 32)).funcSays k

/-- The length of a TTI message of a point: 64 bytes on OTN points, by TIM_MODE on SDH points (R123). -/
def ttiLen (ty timMode : Nat) : Nat := if ty ≤ 3 then 64 else match timMode with | 2 => 1 | 3 => 64 | _ => 16

/-- A TTI message. -/
def Dev.takeTti (d : Dev) (k : Nat) (bs : List Byte) (crcOk : Bool) : Dev :=
  let x := d.point k
  let n := ttiLen (mpTyOf k) x.timMode
  let v := (bs ++ le 64 0).take n
  if n = 16 && !crcOk then d
  else
    let (run, new) := takeRun 3 v x.ttiCand x.ttiRun (if x.tti.isEmpty then none else some x.tti)
    let d := d.updPoint k (fun x => { x with ttiCand := v, ttiRun := run, tti := if new then v else x.tti })
    if new then (d.post 0x1310 (pointArgs k)).acceptedRecs k else d

/-- A PT, C2 or V5 label. -/
def Dev.takePt (d : Dev) (k v : Nat) : Dev :=
  let x := d.point k
  let (run, new) := takeRun (if mpTyOf k = 2 then 3 else 5) v x.ptCand x.ptRun x.pt
  let d := d.updPoint k (fun x => { x with ptCand := v, ptRun := run, pt := if new then some v else x.pt })
  if new then (d.post 0x1311 (pointArgs k)).acceptedRecs k else d

/-- An MSI. -/
def Dev.takeMsi (d : Dev) (k : Nat) (v : List Nat) : Dev :=
  let x := d.point k
  let (run, new) := takeRun 3 v x.msiCand x.msiRun (if x.msi.isEmpty then none else some x.msi)
  d.updPoint k (fun x => { x with msiCand := v, msiRun := run, msi := if new then v else x.msi })

/-- A STAT. -/
def Dev.takeStat (d : Dev) (k v : Nat) : Dev :=
  let x := d.point k
  let (run, new) := takeRun 3 v x.statCand x.statRun (some x.stat)
  d.updPoint k (fun x => { x with statCand := v, statRun := run, stat := if new then v else x.stat })

/-- The acceptance runs of the engine that a lost frame message would have extended restart (R346). -/
def Point.lostFrame (x : Point) (f : OhFrame) : Point :=
  { x with ttiRun := if f.tti.isSome then 0 else x.ttiRun, ptRun := if f.pt.isSome then 0 else x.ptRun
           msiRun := if f.msi.isSome then 0 else x.msiRun }

/-! ### A frame's overhead (R116–R122, R125) -/

/-- Near-end errored blocks of a frame (R119, R120). -/
def nearBlocks (ty : Nat) (f : OhFrame) : Nat :=
  if ty = 8 || ty = 1 && f.iae then 0 else (f.nBip.filter (fun n => n ≠ 0)).length

/-- Far-end errored blocks of a frame (R120): one for each BEI, REI or REI bit of 1 to 8, or for a count in M1 and M0. -/
def farBlocks (ty : Nat) (f : OhFrame) : Nat :=
  match ty with
  | 1 | 2 | 3 | 6 | 7 => (f.bei.filter (fun b => decide (1 ≤ b) && decide (b ≤ 8))).length
  | 5 => if f.bei.sum = 0 then 0 else 1
  | _ => 0

/-- A defect that a run of `n` frames sets and a run of `n` frames clears. -/
def runBit (raw : BitVec 24) (bit n set clr : Nat) : BitVec 24 :=
  if n ≤ set then raw ||| BitVec.ofNat 24 (2 ^ bit) else if n ≤ clr then raw &&& ~~~(BitVec.ofNat 24 (2 ^ bit)) else raw

/-- The runs of dAIS: of K2 at an MS point, of the zeros in the 512-bit periods of an E1, in frame or not (R125). -/
def Point.aisFrame (x : Point) (ty : Nat) (f : OhFrame) : Point :=
  match (match ty with | 5 => some (decide (f.k2 = 7)) | 8 => f.zeros.map (fun z => decide (z < 3)) | _ => none) with
  | none => x
  | some a =>
    let set := if a then min (x.aisRun + 1) 3 else 0
    let clr := if a then 0 else min (x.noAisRun + 1) 3
    { x with aisRun := set, noAisRun := clr, raw := runBit x.raw 4 (if ty = 8 then 2 else 3) set clr }

/-- The runs of dBDI and dRDI. The A bit of an E1 is read in modes 1–3 (R118). -/
def Point.rdiFrame (x : Point) (ty : Nat) (f : OhFrame) : Point :=
  let rdi := if ty = 5 then f.k2 = 6 else f.bdi && (ty ≠ 8 || x.e1Framing ≠ 0)
  let set := if rdi then min (x.rdiRun + 1) 5 else 0
  let clr := if rdi then 0 else min (x.noRdiRun + 1) 5
  { x with rdiRun := set, noRdiRun := clr, raw := if ty = 4 then x.raw else runBit x.raw 7 (if ty = 8 then 3 else 5) set clr }

/-- The hardware's part of a frame: blocks, and the runs of dBDI, dRDI and dAIS. -/
def Point.frame (x : Point) (ty : Nat) (f : OhFrame) : Point :=
  let y := (x.rdiFrame ty f).aisFrame ty f
  { y with neEb := x.neEb + nearBlocks ty f, feEb := x.feEb + farBlocks ty f }

/-- A frame whose structure is not there carries no overhead: every run of consecutive frames is broken (R96, DEDUCED 118). The
zeros of an E1 are counted all the same. -/
def Point.unframed (x : Point) (ty : Nat) (f : OhFrame) : Point :=
  let y := if ty = 8 then x.aisFrame ty f else { x with aisRun := 0, noAisRun := 0 }
  { y with rdiRun := 0, noRdiRun := 0, statRun := 0, ttiRun := 0, ptRun := 0, msiRun := 0 }

/-- The frame structure that carries a point's overhead is there: the port through which the signal comes is in frame, and an
E1's own framer (R96). -/
def Dev.framed (d : Dev) (k : Nat) : Bool :=
  (match d.pointFeed k with | some p => d.portInFrame p | none => true)
    && (mpTyOf k ≠ 8 || (d.e1 (mpIndexOf k)).st = .ifBasic || (d.e1 (mpIndexOf k)).st = .ifMf)

/-- The engine's part of a frame. -/
def Dev.engineFrame (d : Dev) (k : Nat) (f : OhFrame) : Dev :=
  let ty := mpTyOf k
  let d := match f.tti with | some (bs, ok) => if ty = 5 || ty = 8 then d else d.takeTti k bs ok | none => d
  let d := match f.pt with | some v => if ty = 2 || ty = 6 || ty = 7 then d.takePt k v else d | none => d
  match f.msi with | some v => if ty = 2 then d.takeMsi k v else d | none => d

/-! ### What the reverse point sends (R113, R116–R118, R121, R123) -/

/-- CRC-7 of a 16-byte trace message, x^7 + x^3 + 1 over its bits in order of transmission, bit 1 of byte 0 set and the CRC's
own bits 0 (PRESUMED 102). -/
def crc7 (bs : List Byte) : Nat := bitCrc 7 0x09 (bs.flatMap bitsOfByte)

/-- The TTI message that a point transmits: the 64 bytes of an OTN point; on an SDH point one byte, 64 bytes, or 16 with the
CRC-7 in byte 0, by TIM_MODE (R123). -/
def Point.sentTti (x : Point) (ty : Nat) : List Byte :=
  let t := ttiPart x.txTti 0 (ttiLen ty x.timMode)
  if t.length = 16 then
    let m := 0x80 :: t.drop 1
    BitVec.ofNat 8 (0x80 + crc7 m) :: t.drop 1
  else t

/-- STAT of an OTN point that sends (R116, R134). -/
def TxSig.stat : TxSig → Nat
  | .normal | .unequipped | .zeros => 1 | .ais => 7 | .lck => 5 | .oci => 6

/-- The count in M0 and M1 (R121): the B2 errors of the received frame, at most 255, or 1,536 in an STM-64. -/
def msRei (n : Nat) (stm64 : Bool) : Nat := min n (if stm64 then 1536 else 255)

/-- One bit of a sent byte. -/
def ohBit (b : Bool) (w : Nat) : Nat := if b then w else 0

/-- Bit-interleaved parity of bytes, n bytes wide (R116, R117). -/
def bip (n : Nat) (bs : List Byte) : List Byte :=
  (List.range n).map (fun j => (bs.zipIdx.filter (fun x => x.2 % n = j)).foldl (fun p x => p ^^^ x.1) 0)

/-- BIP-8 of bytes. -/
def bip8 (bs : List Byte) : Nat := ((bip 1 bs).headD 0).toNat

/-- BIP-2 of bytes: the parity of their odd bits above that of their even bits. -/
def bip2 (bs : List Byte) : Nat := let x := bip8 bs; (x ^^^ (x / 4) ^^^ (x / 16) ^^^ (x / 64)) % 4

/-- The device sources the point's layer afresh: a section, an ODU that it multiplexes or fills with packets, a VC-4 that it
builds from lower-order entries, and a VC-12 into which it maps an E1 (DEDUCED 118). A TCM has no other overhead. -/
def Dev.sourcesAfresh (d : Dev) (k : Nat) : Bool :=
  let i := mpIndexOf k
  match mpTyOf k with
  | 1 | 4 | 5 => true
  | 2 => (d.odu i).any (fun o => o.kind = 2) || !(d.clients i).isEmpty
  | 6 => (d.vc4 i).any (fun v => v.struct)
  | 7 => decide (2 ≤ (d.lo i).e1Mode)
  | _ => false

/-- The bytes that the reverse point writes beside its TTI (R116–R118), for a received frame with the mismatches `f.nBip`. BIAE
and IAE are 0, and S1 bits 1–4 are 0000 (R290). -/
def Dev.ohFields (d : Dev) (k : Nat) (f : OhFrame) : List (OhField × Nat) :=
  let x := d.point k
  let ty := mpTyOf k
  let i := mpIndexOf k
  let back := x.act.back
  let n := f.nBip.sum
  let label := if x.act.sig = .unequipped then 0 else x.wroteLabel
  let sent := f.tx.headD []
  (match ty with
  | 1 => f.nBip.zipIdx.flatMap (fun b => [(.smByte b.2, b.1 * 16 + ohBit back 8), (.bip b.2, bip8 (f.tx.getD b.2 []))])
  | 2 | 3 => [(.pmByte, f.nBip.headD 0 * 16 + ohBit back 8 + x.act.sig.stat), (.bip 0, bip8 sent)]
  | 4 => [(.bip 0, bip8 sent)]
  | 5 =>
    let rei := msRei n ((d.port i).format = 0x10)
    [(.k2, ohBit back 6), (.m1, rei % 256)] ++ (if (d.port i).format = 0x10 then [(.m0, rei / 256)] else [])
      ++ [(.s1, d.s1Sent i)] ++ (bip (3 * stmN (d.port i).format) sent).zipIdx.map (fun b => (.bip b.2, b.1.toNat))
  | 6 => [(.c2, label), (.g1, n * 16 + ohBit back 8), (.bip 0, bip8 sent)]
  | 7 =>
    if d.isVc3 i then [(.c2, label), (.g1, n * 16 + ohBit back 8), (.bip 0, bip8 sent)]
    else [(.v5, bip2 sent * 64 + ohBit (decide (n ≠ 0)) 32 + label * 2 + ohBit back 1)]
  | 8 => if x.e1Framing = 0 then [] else [(.aBit, ohBit back 1)]
  | _ => []) ++ (if d.sourcesAfresh k then [(.afresh, 0)] else [])

/-- The functions of a point write its TTI and its label into the insertion tables (R345), unless both copies of their engine
have stopped: the hardware then goes on with what they last wrote (R351). -/
def Dev.funcWrites (d : Dev) (k : Nat) : Dev :=
  if d.pointHeld k then d
  else d.updPoint k (fun x => { x with wroteTti := x.sentTti (mpTyOf k), wroteLabel := d.expLabel k x.expPt })

/-- The planes in whose copy the words that a point's engine writes leave with P = 1: that of a copy that has stopped while
the other runs (R350). -/
def Dev.deadCopies (d : Dev) (k : Nat) : List (Fin 2) :=
  match (d.point k).engine with
  | some e => if d.pointHeld k then [] else [0, 1].filter (fun (p : Fin 2) => d.engineDead p.val (d.pointSlice k) e)
  | none => []

/-- The byte of a repeating message that its n-th frame carries. -/
def ttiByte (t : List Byte) (n : Nat) : Byte := t.getD (n % t.length) 0

/-- A received frame makes the reverse point of a terminating point send its overhead with the back-reports of that frame
(R113, R133); a point without a reverse direction sends nothing. -/
def Dev.sendBack (d : Dev) (k : Nat) (f : OhFrame) : Dev :=
  if (d.point k).role = 2 && d.hasReverse k then
    let d := d.funcWrites k
    let x := d.point k
    d.emit (.overhead k { tti := if mpTyOf k = 5 || mpTyOf k = 8 then none else some (ttiByte x.wroteTti f.txMf)
                          fields := d.ohFields k f, sig := x.act.sig, poison := d.deadCopies k })
  else d

/-- The hardware's part of a received frame, STAT among it (R114). -/
def Dev.hardFrame (d : Dev) (k : Nat) (f : OhFrame) : Dev :=
  let d := d.updPoint k (fun x => x.frame (mpTyOf k) f)
  if mpTyOf k = 2 || mpTyOf k = 3 then d.takeStat k f.stat else d

/-- The taps send the frame's fields to the engine, which takes them unless the message is lost (R345, R346, R351). -/
def Dev.softFrame (d : Dev) (k : Nat) (f : OhFrame) : Dev :=
  if d.pointHeld k then d
  else
    let (got, d) := d.tapPoint k
    if got then d.engineFrame k f else d.updPoint k (fun x => x.lostFrame f)

/-- The overhead of a frame at a point. A frame whose structure is not there brings none (R96), and the reverse point sends its
own all the same. -/
def Dev.overhead (d : Dev) (k : Nat) (f : OhFrame) : Dev :=
  if (d.point k).role = 0 || !d.pointExists (mpTyOf k) (mpIndexOf k) then d
  else
    let d := d.maintStart k
    if d.framed k then (((d.hardFrame k f).softFrame k f).refresh).sendBack k f
    else ((d.updPoint k (fun x => x.unframed (mpTyOf k) f)).refresh).sendBack k { f with nBip := f.nBip.map (fun _ => 0) }

def execOverheadFrame (m : MpId) (f : OhFrame) (s : State) : Out1 := onDev (live (fun d => d.overhead (mpKey m) f)) s

/-! ### Persistence of 3 ms (R125) -/

/-- Whether the condition of a defect that needs 3 ms holds now, or its opposite, and since when. -/
def Dev.lasting (d : Dev) (k bit : Nat) : Option (Bool × Nat) :=
  let i := mpIndexOf k
  match mpTyOf k, bit with
  | 1, 1 | 4, 1 => some (!(d.port i).frIn, (d.port i).frSince)
  | 1, 2 => match (d.port i).mfCode with
    | 1 => some (true, (d.port i).mfSince)
    | 2 => some (false, (d.port i).mfSince)
    | _ => none
  | 6, 2 => match d.vc4 i with
    | some v => if v.struct then some (!v.h4.lock, v.h4.since) else none
    | none => none
  | 2, 3 => match d.odu i with
    | some o => if o.usesOmfi then some (!o.omfi.lock, o.omfi.since) else none
    | none => none
  | _, _ => none

/-- A condition has lasted 3 ms: its defect is detected, or its detection ends. -/
def Dev.persists (d : Dev) (k bit : Nat) : Dev :=
  if (d.point k).role = 0 || !d.pointExists (mpTyOf k) (mpIndexOf k) then d
  else match d.lasting k bit with
    | some (on, since) =>
      if d.after since 3000000 then
        let b := BitVec.ofNat 24 (2 ^ bit)
        (d.updPoint k (fun x => { x with raw := if on then x.raw ||| b else x.raw &&& ~~~b })).refresh
      else d
    | none => d

def execDefectPersistence (m : MpId) (bit : Fin 24) (s : State) : Out1 :=
  onDev (live (fun d => d.persists (mpKey m) bit.val)) s

/-! ### The settle filter (R128, R131) -/

/-- Whether a run of a defect has lasted `n` tenths of a second in Settling. -/
def Dev.runDone (d : Dev) (k bit n : Nat) : Bool :=
  let x := d.point k
  decide (x.role ≠ 0) && x.settling && d.after (tget 0 x.changed bit) (n * 100000000)

/-- A defect has been detected for SET_INT. -/
def Dev.setDone (d : Dev) (k bit : Nat) : Dev :=
  let x := d.point k
  if x.det.getLsbD bit && !x.dec.getLsbD bit && d.runDone k bit x.setInt && !d.pointHeld k then
    (d.declare k (x.dec ||| BitVec.ofNat 24 (2 ^ bit))).funcSays k
  else d

def execSetIntExpiry (m : MpId) (bit : Fin 24) (s : State) : Out1 := onDev (live (fun d => d.setDone (mpKey m) bit.val)) s

/-- A declared defect has been absent for CLR_INT. -/
def Dev.clrDone (d : Dev) (k bit : Nat) : Dev :=
  let x := d.point k
  if !x.det.getLsbD bit && x.dec.getLsbD bit && d.runDone k bit x.clrInt && !d.pointHeld k then
    (d.declare k (x.dec &&& ~~~(BitVec.ofNat 24 (2 ^ bit)))).funcSays k
  else d

def execClrIntExpiry (m : MpId) (bit : Fin 24) (s : State) : Out1 := onDev (live (fun d => d.clrDone (mpKey m) bit.val)) s

/-- The recovery timer expires: Service, with the declared states equal to the detected ones. -/
def Dev.recovers (d : Dev) (k : Nat) : Dev :=
  let x := d.point k
  if x.role = 0 || !x.settling || d.pointHeld k || !d.after x.recStart (x.recovery * 1000000000) then d
  else
    let d := d.updPoint k (fun x => { x with settling := false })
    let d := d.declare k x.det
    match x.group with
    | some _ => (d.ungroup k).funcSays k
    | none => (d.post 0x1304 (pointArgs k ++ le 1 x.cause)).funcSays k

def execRecoveryExpiry (m : MpId) (s : State) : Out1 := onDev (live (fun d => d.recovers (mpKey m))) s

/-! ### DEFECT_CFG (R143, R144) -/

/-- Largest MP_INDEX of a type. -/
def maxIndex : Nat → Nat
  | 1 | 4 | 5 => 63
  | 2 | 3 => 4095
  | 6 => 511
  | 7 | 8 => 8063
  | _ => 0

/-- TIM_MODE 2 and 3 where R123 allows them. -/
def Dev.timOk (d : Dev) (ty index mode : Nat) : Bool :=
  mode < 2 || (match ty with
    | 1 | 2 | 3 => mode ≤ 3
    | 4 => mode = 2
    | 6 => mode = 3
    | 7 => mode = 3 && d.isVc3 index
    | _ => false)

/-- MAINT codes of a type (R134). -/
def maintOk (ty maint role : Nat) : Bool :=
  maint = 0 || (role = 2 && (match ty with
    | 2 | 3 => maint ≤ 3
    | 6 | 7 => maint = 1 || maint = 3
    | 8 => maint = 1
    | _ => false))

/-- TTI bytes that the point compares under its TIM_MODE: first and number (R123). -/
def comparedTti (ty mode : Nat) : Nat × Nat :=
  if ty ≤ 3 then match mode with | 1 => (0, 16) | 2 => (16, 16) | 3 => (0, 32) | _ => (0, 0)
  else match mode with | 1 => (1, 15) | 2 => (0, 1) | 3 => (0, 64) | _ => (0, 0)

/-- The parameters of section 0, stored in a point. -/
def Point.params (x : Point) (c : Desc) (ty : Nat) : Point :=
  { x with
    role := c.u8 5 % 4, timAct := c.bit 5 2, timMode := c.u8 6, e1Framing := if ty = 8 then c.u8 7 else x.e1Framing
    expPt := c.u8 8, maint := c.u8 9, degm := c.u8 10, sesPct := c.u8 11, degThr := c.u24 12
    setInt := c.u16 16, clrInt := c.u16 18, recovery := c.u16 20, tca := [c.u16 24, c.u16 26, c.u32 28, c.u16 32] }

/-- A point without a function: its parameters and its TTIs alone. Its bins, ended ones and held seconds among them, are
discarded and deliver no record when ROLE returns to 0 (DESIGN CHOICE 103). -/
def Point.idle (x : Point) : Point :=
  { role := x.role, timAct := x.timAct, timMode := x.timMode, e1Framing := x.e1Framing, expPt := x.expPt, maint := x.maint
    degm := x.degm, sesPct := x.sesPct, degThr := x.degThr, setInt := x.setInt, clrInt := x.clrInt, recovery := x.recovery
    tca := x.tca, expTti := x.expTti, txTti := x.txTti, act := x.act }

/-- Section 0 (R115, R144). Parameters that are repeated complete with OK also where the point's object is gone, and a rise of
ROLE from 0 is one trigger, of cause 0 (DESIGN CHOICE 103). -/
def defectParams (c : Desc) (k : Nat) (d : Dev) (job : Nat) : Ran :=
  let ty := mpTyOf k
  let i := mpIndexOf k
  let role := c.u8 5 % 4
  checked [ (5, role ≤ 2 && c.u8 5 < 16), (6, c.u8 6 ≤ 3 && d.timOk ty i (c.u8 6)), (7, if ty = 8 then c.u8 7 ≤ 3 else c.u8 7 = 0)
          , (9, c.u8 9 ≤ 3 && maintOk ty (c.u8 9) role), within 10 (c.u8 10) 2 10, atMost 11 (c.u8 11) 100
          , (12, c.u8 15 = 0), within 16 (c.u16 16) 1 100, within 18 (c.u16 18) 1 600, within 20 (c.u16 20) 1 600
          , c.zeros 22 23, c.zeros 34 55 ] <|
  let x := d.point k
  let y := x.params c ty
  if x = y && !c.bit 5 3 then ran d
  else
    need (role = 0 || (d.pointExists ty i && d.planned.pointExists ty i)) refusedDone <|
    let rise := x.role = 0 && role ≠ 0
    let slice := d.pointSlice k
    let (u, b) := d.pointLoad k
    let place := d.allocate slice u b
    need (!rise || place.isSome) (budgetConflict slice) <|
      let s := d.tsu.sec.toNat
      let fresh := fun (x : Point) => { x.idle with
        engine := place, cur15 := { start := start15 s, suspect := true }
        cur24 := { start := start24 d.dayOffset s, suspect := true } }
      let fall := x.role ≠ 0 && role = 0
      let d := if fall then d.ungroup k else d
      let d := d.updPoint k (fun x =>
        let y := x.params c ty
        if rise then fresh y else if fall then y.idle else if x.role ≠ role then (y.roll d.dayOffset s).suspects else y)
      let d := if ty = 8 && x.e1Framing ≠ y.e1Framing then d.e1Start i else d
      let five := c.bit 5 3 || x.role ≠ role || x.timMode ≠ y.timMode || x.expPt ≠ y.expPt || x.e1Framing ≠ y.e1Framing
        || x.maint ≠ y.maint
      let d := if rise then d.settle 0 k else if role ≠ 0 && five then d.settle 5 k else d
      let d := if role = 0 then d else d.funcWrites k
      ran ((if fall then d.act k else d).refresh.expose.tell (d.jobClass job) slice (if rise then place else x.engine))

/-- Sections 1 to 4: 32 TTI bytes; sections 1 and 2 use 16 of them on an SDH point in TIM_MODE 0, 1 or 2. -/
def defectTti (c : Desc) (k : Nat) (d : Dev) (job : Nat) : Ran :=
  checked [c.zeros 5 7, c.zeros 40 55] <|
    let sec := c.u8 1
    let off := if sec = 3 || sec = 4 then 32 else 0
    let n := if off = 0 && decide (4 ≤ mpTyOf k) && (d.point k).timMode ≠ 3 then 16 else 32
    let full := fun (t : List Byte) => patchBytes ((t ++ le 64 0).take 64) off (c.bytes 8 n)
    let tell := fun (d : Dev) =>
      (if (d.point k).role = 0 then d else d.funcWrites k).tell (d.jobClass job) (d.pointSlice k) (d.point k).engine
    if sec = 2 || sec = 3 then ran (tell (d.updPoint k (fun x => { x with txTti := full x.txTti })))
    else
      let x := d.point k
      let (lo, n) := comparedTti (mpTyOf k) x.timMode
      let d := d.updPoint k (fun x => { x with expTti := full x.expTti })
      ran (tell (if ttiPart x.expTti lo n = ttiPart (full x.expTti) lo n then d else (d.settle 5 k).refresh))

/-- DEFECT_CFG. -/
def defectCfg (c : Desc) (d : Dev) (job : Nat) : Ran :=
  let ty := c.u8 0
  checked [ atMost 0 ty 8, (1, c.u8 1 ≤ 4 && (ty ≠ 0 || c.u8 1 = 0)), atMost 2 (c.u16 2) (maxIndex ty)
          , (4, if ty = 3 then 1 ≤ c.u8 4 && c.u8 4 ≤ 6 else c.u8 4 = 0) ] <|
  if ty = 0 then
    checked [c.zeros 5 11, atMost 12 (c.u32 12) 86399, c.zeros 16 55] (ran (d.setDayOffset (c.u32 12)))
  else
    let k := mpKeyOf ty (c.u8 4) (c.u16 2)
    if c.u8 1 = 0 then defectParams c k d job else defectTti c k d job

def execDefectCfg (c : Desc) (s : State) : Out1 := hostRow 0x12 c defectCfg s

end Sys2Proof.Machine
end

