-- ==== Sys2Proof/Machine/Faults.lean ====
section
/-! DEFINITION. The meanings of the fault commands (chapter 16): reports and wire faults, the collector's mismatch,
FAULT_ACTION with the return of a unit or a plane, and the reads of storage (chapter 02). -/

namespace Sys2Proof.Machine

def execStorageRead (m : MemId) (addr : BitVec 18) (upset : BitVec 72) (s : State) : Out1 :=
  onMem (liveMem (storageRead m addr.toNat upset)) s

def execMemoryScrub (m : MemId) (addr : BitVec 18) (upset : BitVec 72) (s : State) : Out1 :=
  onMem (liveMem (memoryScrub m addr.toNat upset)) s

/-! ### Reports (R449, R450) -/

/-- A report as the collector captures it when its field word cannot be corrected (R449). -/
def fieldless (r : FaultRec) : FaultRec :=
  if srcFamily r.source.toNat ≤ 8 then { r with addr := 0, master := 0xFF, access := 7 } else r

/-- Records reported at one instant; every reaction happens whatever the collector records. -/
def Dev.report (d : Dev) (r : FaultRec) (others : List FaultRec) (fields : Bool) : Dev :=
  let rs := (r :: others).filter recordOk
  (rs.foldl Dev.react (d.recordAll (if fields then rs else rs.map (fun x => if x = r then fieldless x else x)))).endAborted

def execFaultReport (r : FaultRec) (others : List FaultRec) (fields : Bool) (s : State) : Out1 :=
  onDev (live (fun d => d.report r others fields)) s

/-- The sources that report over wires (R449). -/
def wired (src : Nat) : Bool := 1 ≤ srcFamily src && srcFamily src ≤ 8 && srcInst src < familySize (srcFamily src)

/-- A wire fault (R450): recorded as class U, with no reaction. -/
def Dev.wireFault (d : Dev) (src : BitVec 16) (pair : Fin 3) : Dev :=
  let w := tget 0 d.wires src.toNat
  if !wired src.toNat || w.getLsbD pair.val then d
  else
    let d := { d with wires := tput 0 d.wires src.toNat (w ||| BitVec.ofNat 3 (2 ^ pair.val)) }
    d.recordIn 0x40040 { source := src, cls := 2, checker := ⟨12 + pair.val, by omega⟩, master := 0xFF, access := 6 } []

def execWireFault (src : BitVec 16) (pair : Fin 3) (s : State) : Out1 := onDev (live (fun d => d.wireFault src pair)) s

/-- A pair reads valid again: the collector hears it, and takes the reports that the source has held, in their order (R449,
R450). -/
def Dev.wireValid (d : Dev) (src : BitVec 16) (pair : Fin 3) : Dev :=
  let w := tget 0 d.wires src.toNat &&& ~~~(BitVec.ofNat 3 (2 ^ pair.val))
  let mine := fun (x : HeldReport) => decide (x.r.source = src) && decide (x.r.cls.val = pair.val + 1)
  let freed := d.reports.filter mine
  freed.foldl (fun d x => d.recordIn 0x40040 x.r [] (some x.at_))
    { d with wires := tput 0 d.wires src.toNat w, reports := d.reports.filter (fun x => !mine x) }

def execWirePairValid (src : BitVec 16) (pair : Fin 3) (s : State) : Out1 := onDev (live (fun d => d.wireValid src pair)) s

/-- A comparison of the two copies of a register of FAULT (R457): `x.diff` are the bits in which they differ, to which an armed
comparison adds MASK (R462). Any difference is class F, then FROZEN. -/
def Dev.collectorFault (d : Dev) (x : CopyCmp) : Dev :=
  if d.plane.frozen then d
  else
    let mask := d.armMask 0 15 x.offset.toNat
    let d := if mask = 0 then d else d.armUse 0 15
    if x.diff ^^^ mask.setWidth 32 = 0 then d
    else
      let r : FaultRec := { source := 0, cls := 3, checker := 15, addr := x.offset.setWidth 48, master := 0xFF, access := 6
                            inj := mask ≠ 0, real := mask ≠ 0 && x.diff ≠ 0 }
      (d.recordIn 0x40040 r []).freeze

def execCollectorMismatch (x : CopyCmp) (s : State) : Out1 := onDev (live (fun d => d.collectorFault x)) s

/-- A comparison of the two TSU copies (R25): `x.diff` are the bits in which their words differ, to which an armed comparison adds
MASK (R462). A disagreement is class U, with the reaction unless it comes from the injection alone (R464). -/
def Dev.lockstep (d : Dev) (x : LockCmp) : Dev :=
  let mask := d.armMask 0x1000 0 0
  let d := if mask = 0 then d else d.armUse 0x1000 0
  if x.diff ^^^ mask.setWidth 64 = 0 then d
  else
    let r : FaultRec := { source := 0x1000, cls := 2, checker := 0, master := 0xFF, access := 6
                          inj := mask ≠ 0, real := mask ≠ 0 && x.diff ≠ 0 }
    let d := d.recordAll [r]
    if d.suppressed r then d else (d.tsuFault (some x.equal)).endAborted

def execLockstepDisagreement (x : LockCmp) (s : State) : Out1 := onDev (live (fun d => d.lockstep x)) s

/-- A plane that has not accepted a word for 256 ns is stalled (R22): the fork stops feeding it, class F. A plane that the fork
does not feed does not stall. -/
def Dev.forkStalled (d : Dev) (l plane : Nat) : Dev :=
  if !d.forkFeeds l plane then d
  else
    let d := { d with plane.forkStopped := tput false d.plane.forkStopped (64 * plane + l) true }
    d.fault1 { source := BitVec.ofNat 16 (srcOf 8 plane), cls := 3, checker := 2, addr := BitVec.ofNat 48 l, master := 0xFE }

def execForkStall (l : Fin 64) (plane : Fin 2) (s : State) : Out1 := onDev (live (fun d => d.forkStalled l plane)) s

/-! ### FAULT_ACTION (R459–R461) -/

/-- The carrying plane while the other is fenced as a whole. -/
def Dev.carrier (d : Dev) : Option Nat := if d.planeFenced 1 then some 0 else if d.planeFenced 0 then some 1 else none

/-- The plane that a resynchronisation or an unfence in progress concerns. -/
def Dev.returning (d : Dev) : Option Nat :=
  match d.plane.resync, d.plane.unfence with
  | some r, _ => some r.plane.val
  | none, some u => some (planeOf u.unit)
  | none, none => none

/-- Package held by a plane. -/
def Dev.pkgOf (d : Dev) (p : Nat) : Option Pkg := if p = 0 then d.twill.pkgN else d.twill.pkgS

/-- A fence by the host. -/
def faultFence (u : Nat) (allow : Bool) (d : Dev) : Ran :=
  let plane := srcFamily u = 15
  need (!d.fenced u) refusedDone <|
  need (!plane || d.planeState = 0) refusedDone <|
  need (allow || plane || !d.fenced (partner u)) (conflictDone 0x23 (partner u)) <|
  need (allow || plane || d.carrier ≠ some (planeOf u)) (conflictDone 0x1D (1 - planeOf u)) <|
    ran (d.fence u).endAborted { patch := [(4, le 1 0)] }

/-- The forks feed a plane that begins to be resynchronised again, since it receives the same words as the other (R22, R31). -/
def Dev.feedAgain (d : Dev) (p : Nat) : Dev :=
  { d with plane.forkStopped := d.plane.forkStopped.filter (fun x => x.1 / 64 ≠ p) }

/-- The start of an unfence. -/
def faultUnfence (u : Nat) (d : Dev) (job : Nat) : Ran :=
  let plane := srcFamily u = 15
  let p := planeOf u
  need (d.fenced u) refusedDone <|
  need (plane || !d.planeFenced p) (conflictDone 0x1D p) <|
  need (!plane || (d.pkgOf 0).map (fun k => (k.id, k.ver)) = (d.pkgOf 1).map (fun k => (k.id, k.ver))) (conflictDone 0x1B p) <|
    ranLater (if plane then { d.feedAgain p with plane.resync := some { plane := if p = 0 then 0 else 1, why := .unfence, job := job } }
      else { d with plane.unfence := some { unit := u, job := job, restart := d.fencedOrPlane (partner u) } })

/-- FAULT_ACTION. -/
def faultAction (c : Desc) (d : Dev) (job : Nat) : Ran :=
  checked [ atMost 0 (c.u8 0) 1, atMost 1 (c.u8 1) 1, (2, fenceable (c.u16 2)), c.zeros 5 55 ] <|
  match d.returning with
  | some p => .error (conflictDone 0x1D p)
  | none => if c.u8 0 = 0 then faultFence (c.u16 2) (c.bit 1 0) d else faultUnfence (c.u16 2) d job

def execFaultAction (c : Desc) (s : State) : Out1 := hostRow 0x80 c faultAction s

/-- A function of a point restarts from its initial state (R352): its accepted values and runs, its declared defects and the state
of dDEG, which it keeps; its bins become suspect. What the hardware detects stays (R114). -/
def Point.restart (x : Point) : Point :=
  { x with
    tti := [], ttiCand := [], ttiRun := 0, pt := none, ptCand := 0, ptRun := 0
    msi := [], msiCand := [], msiRun := 0, badRun := 0, goodRun := 0, held := [], unavail := false
    raw := x.raw &&& 0xFFF7FF, dec := 0
    cur15 := { x.cur15 with suspect := true }, cur24 := { x.cur24 with suspect := true } }

/-- A point restarts with the hardware that detects its defects, when its slice does (R461). -/
def Point.restartAll (x : Point) : Point :=
  { x.restart with
    stat := 1, statCand := 1, statRun := 0, aisRun := 0, noAisRun := 0, rdiRun := 0, noRdiRun := 0, raw := 0 }

/-- A selector restarts as it was created (R224). -/
def Selector.restart (x : Selector) : Selector :=
  { work := x.work, prot := x.prot, bidir := x.bidir, revertive := x.revertive, sncN := x.sncN, sdEn := x.sdEn
    holdoff := x.holdoff, wtr := x.wtr, engine := x.engine, wtrFor := x.wtr }

/-- Points handled as on cause 0 of R130, restarted by `f`. -/
def Dev.restartPoints (d : Dev) (f : Point → Point) (ks : List Nat) : Dev :=
  (ks.foldl (fun d k => (d.updPoint k f).settle 0 k) d).refresh

/-- The selectors and monitors of engine k of a slice restart. -/
def Dev.restartSels (d : Dev) (slice k : Nat) : Dev :=
  let mine := fun (key : Nat) (v : Selector) => d.selSlice (key / 4096) v.prot = slice && v.engine = some k
  let sels := d.sels.map (fun x => match x.2 with
    | some v => if mine x.1 v then (x.1, some v.restart) else x
    | none => x)
  let dcc := d.twill.dcc.map (fun x =>
    if x.2.port / 8 = slice && x.2.engine = some k then (x.1, { x.2 with suspect := true, rxN := {}, rxS := {} }) else x)
  { d with sels := sels, twill.dcc := dcc }

/-- Every function of engine k of a slice restarts. -/
def Dev.restartEngine (d : Dev) (slice k : Nat) : Dev :=
  (d.restartSels slice k).restartPoints Point.restart (d.pointsOn slice k)

/-- A slice restarts from its initial state (R461): its framers and pointers search again, its points as on cause 0. -/
def Dev.restartSlice (d : Dev) (k : Nat) : Dev :=
  let mine := fun (p : Nat) => p / 8 = k
  let e1 := fun (e : Nat) => (d.entryPort e).any mine
  let again := fun (x : E1) => { x with
    st := if x.st = .none then .none else .oof, fe := 0, me := 0, cands := [], ban := none, mfasSeen := []
    noCrc4 := false, timer400 := none, timerDone := false, subs := [] }
  let e1s := d.e1s.map (fun x => if e1 x.1 then (x.1, again x.2) else x)
  let vc4s := d.vc4s.map (fun x => (x.1, x.2.map (fun v => if mine v.port then { v with ptr := {}, h4 := {} } else v)))
  let los := d.los.map (fun x => if e1 x.1 then (x.1, { x.2 with ptr := { fill := 8 } }) else x)
  let framers := d.framers.filter (fun x => !mine (x.1 / 16))
  let flexo := d.flexo.filter (fun x => !mine (x.1 / 16))
  let d := { d with framers := framers, flexo := flexo, e1s := e1s, vc4s := vc4s, los := los }
  -- a port that is not ALIGNED or is on hold keeps its scanners stopped (R95), and OMFI goes with MF_LOCK (R100)
  let d := (d.enabledPorts.filter mine).foldl (fun d p =>
    let off := (d.port p).astate ≠ .aligned || (d.port p).onHold
    (((d.framersOf p).foldl (fun d k => d.updFramer k (fun f => { f with stopped := off })) d).dropOmfi p).frTouch p) d
  d.restartPoints Point.restartAll ((d.points.filter (fun x => x.2.role ≠ 0 && d.pointSlice x.1 = k)).map (fun x => x.1))

/-- The instruction store of engine g takes the code of a package, after its 64-byte header (R352, R355, R498). -/
def loadInstr (bs : List Byte) (g : Nat) (m : List Host.Cell) : List Host.Cell :=
  (List.range 2048).foldl (fun m a => putWord m (160 + g) a (wordOf bs (64 + 8 * a)) false) m

/-- Package bytes of a plane. -/
def Dev.pkgBytes (d : Dev) (p : Nat) : List Byte := if p = 0 then d.sec.pkgBytesN else d.sec.pkgBytesS

/-- Every word of a memory becomes stored poison, its data as they were. -/
def poisonMem (m : List Host.Cell) (n words : Nat) : List Host.Cell :=
  (List.range words).foldl (fun m a => putWord m n a (wordData m n a) true) m

/-- The positions of a Damask bank, unconnected in both pages. -/
def Dev.clearBank (d : Dev) (b : Nat) : Dev :=
  d.xc.words.foldl (fun d x =>
    let t := x.1 / 8192 % 3
    let pos := x.1 % 8192
    if (damaskAt 0 t pos).1 = b then
      d.setXcWord (x.1 / 8192 / 3) t pos (if t = 0 then d.slotWord pos 0 0 0 else 0)
    else d) d

/-- A Damask bank written from the connection words. -/
def Dev.fillBank (d : Dev) (n : Nat) (m : List Host.Cell) : List Host.Cell :=
  d.xc.words.foldl (fun m x =>
    let (b, a) := damaskAt (x.1 / 8192 / 3) (x.1 / 8192 % 3) (x.1 % 8192)
    if b = n % 16 then putWord m (128 + n) a x.2 false else m) (clearMem m (128 + n))

/-- The queues of a plane, or of one of its engines, by their keys: what `mine` picks is discarded, and takes what the queues
`shift` keys above or below it hold. -/
def Dev.copyQueues (d : Dev) (mine : Nat → Bool) (up : Bool) (shift : Nat) : Dev :=
  let from_ := fun (k : Nat) => if up then k + shift else k - shift
  let theirs := d.queues.filterMap (fun x =>
    let k := if up then x.1 - shift else x.1 + shift
    if mine k && decide (from_ k = x.1) then some (k, x.2) else none)
  { d with queues := theirs.foldl (fun t x => tput {} t x.1 x.2) (d.queues.filter (fun x => !mine x.1)) }

/-- An engine's queues and running state, copied from its partner (R31, R352). -/
def Dev.copyEngine (d : Dev) (g : Nat) : Dev :=
  let up := decide (g < 128)
  let o := if up then g + 128 else g - 128
  (d.copyQueues (fun k => k = 256 + 2 * g || k = 257 + 2 * g) up 256).updEngine g (fun _ => d.engine o)

/-- The queues of a slice of a plane, copied from the other plane's. -/
def Dev.copySlice (d : Dev) (i : Nat) : Dev :=
  d.copyQueues (fun k => k / 256 = 0x10 + i) (decide (i < 8)) 2048

/-- The stores of a unit that returns: copied from its partner, or restarted (R461). An engine's code is reloaded (R352). -/
def unitStores (u : Nat) (restart : Bool) (d : Dev) (m : List Host.Cell) : Dev × List Host.Cell :=
  let i := srcInst u
  let o := srcInst (partner u)
  match srcFamily u with
  | 9 =>
    let m := loadInstr (d.pkgBytes (i / 128)) i m
    if restart then (d, clearMem m (416 + i)) else copyMem (.twData (Fin.ofNat 256 o)) (.twData (Fin.ofNat 256 i)) d m
  | 11 =>
    if restart then (d, poisonMem m i 262144) else copyMem (.merge (Fin.ofNat 64 o)) (.merge (Fin.ofNat 64 i)) d m
  | 12 =>
    if restart then (d, poisonMem m (64 + i) 131072) else copyMem (.packet (Fin.ofNat 64 o)) (.packet (Fin.ofNat 64 i)) d m
  | 13 =>
    if restart then
      let d' := d.clearBank (i % 16)
      (d', d'.fillBank i m)
    else copyMem (.damask (Fin.ofNat 32 o)) (.damask (Fin.ofNat 32 i)) d m
  | _ => (d, m)

/-- The queues and the running state of an engine or slice that returns: copied from its partner, or empty. -/
def Dev.unitQueues (d : Dev) (u : Nat) (restart : Bool) : Dev :=
  let i := srcInst u
  match srcFamily u with
  | 9 => if restart then d.engineOut i else d.copyEngine i
  | 14 => if restart then { d with queues := d.queues.filter (fun x => x.1 / 256 ≠ 0x10 + i) } else d.copySlice i
  | _ => d

/-- Every function of a unit restarts, after both copies have been fenced (R352, R461). -/
def Dev.unitRestart (d : Dev) (u : Nat) : Dev :=
  let i := srcInst u
  match srcFamily u with
  | 9 => d.restartEngine (i % 128 / 16) (i % 16)
  | 14 => d.restartSlice (i % 8)
  | _ => d

/-- The stores of a unit. -/
def unitMems (u : Nat) : List MemId :=
  let i := srcInst u
  match srcFamily u with
  | 9 => [.twInstr (Fin.ofNat 256 i), .twData (Fin.ofNat 256 i)]
  | 11 => [.merge (Fin.ofNat 64 i)]
  | 12 => [.packet (Fin.ofNat 64 i)]
  | 13 => [.damask (Fin.ofNat 32 i)]
  | _ => []

/-- The read-back of a store under R38, with write-backs and records. It stops when a class U record has ended the unfence. -/
def backMem (d : Dev) (m : List Host.Cell) (id : MemId) : Dev × List Host.Cell :=
  (listedWords m (memNo id)).foldl (fun x a =>
    if x.1.plane.unfence.isNone then x
    else
      let r := readStored x.1 x.2 id a 0xFE 0
      (r.d, r.mem)) (d, m)

/-- A queue is one of the partner of an engine or slice, which the unit that returns takes over. -/
def backQueue (u : Nat) (q : QId) : Bool :=
  match q with
  | .twIn g | .twOut g => srcOf 9 g.val = partner u
  | .slice p s _ => srcOf 14 (8 * p.val + s.val) = partner u
  | _ => false

/-- The read-back of the oldest item of a queue that a unit takes over: where its parity fails, a class U record of the unit. -/
def Dev.backItem (d : Dev) (u : Nat) (q : QId) (flip : QItem) : Dev :=
  match (d.queue q).items with
  | [] => d
  | x :: _ =>
    let (_, k, master, addr) := q.owner
    let (slot, d) := d.draw
    if !backQueue u q || (x.upset flip).good then d
    else
      let r : FaultRec := { source := BitVec.ofNat 16 (if srcFamily u = 14 then srcOf 8 (planeOf u) else u), cls := 2, checker := k
                            addr := BitVec.ofNat 48 (addr.getD (slot.toNat % q.cap)), master := master, access := 5 }
      (d.fault1 r).abortUnfence.endAborted

/-- The upset that the sender gives of the stores read back. -/
def unitUpset (b : ReadBack) (u : Nat) (m : List Host.Cell) : List Host.Cell :=
  match unitMems u with
  | [id] => flipWord m (memNo id) (b.addr.toNat % memWords id) b.upset
  | [a, c] =>
    let id := if b.data then c else a
    flipWord m (memNo id) (b.addr.toNat % memWords id) b.upset
  | _ => m

/-- The stores of a unit written and read back. -/
def unitBack (b : ReadBack) (u : Nat) (restart : Bool) (d : Dev) (m : List Host.Cell) : Dev × List Host.Cell :=
  let x := unitStores u restart d m
  (unitMems u).foldl (fun y id => backMem y.1 y.2 id) (x.1, unitUpset b u x.2)

/-- The end of an unfence (R461): the unit's stores are copied or restarted and read back while it is still fenced, and a class U
record leaves it so, its command completing with ABORTED. Otherwise it is admitted. -/
def unfenceDone (b : ReadBack) (d : Dev) (m : List Host.Cell) : Dev × List Host.Cell :=
  match d.plane.unfence with
  | none => (d, m)
  | some x =>
    let (d, m) := unitBack b x.unit x.restart d m
    let d := match b.queue with | some q => if x.restart then d else d.backItem x.unit q b.flip | none => d
    if d.plane.unfence.isNone then (d, m)
    else
      let res := if x.restart then 1 else 0
      let d := (({ d with plane.unfence := none }).unitQueues x.unit x.restart).unfence x.unit res
      ((if x.restart then d.unitRestart x.unit else d).complete 0x80 x.job { patch := [(4, le 1 res)] }, m)

def execUnfenceDone (b : ReadBack) (s : State) : Out1 := onMem (liveMem (unfenceDone b)) s

/-- The queues of a plane and its engines' running state, copied from the other plane's (R31). -/
def Dev.copyState (d : Dev) (p : Nat) : Dev :=
  let up := decide (p = 0)
  let d := d.copyQueues (fun k => k / 2048 = 2 + p) up 2048
  let d := d.copyQueues (fun k => k / 1024 = 8 + p) up 1024
  let d := d.copyQueues (fun k => decide (256 ≤ k) && decide (k < 768) && decide ((k - 256) / 256 = p)) up 256
  (List.range 128).foldl (fun d i => d.updEngine (128 * p + i) (fun _ => d.engine (128 * (1 - p) + i))) d

/-- The memories of a plane that a resynchronisation copies: its merge-store and packet-buffer banks, both pages of its
Damask banks, its engines' data stores, its controller's configuration store. -/
def planeMems (p : Nat) : List MemId :=
  ((List.range 32).map (fun b => .merge (Fin.ofNat 64 (32 * p + b))))
    ++ ((List.range 32).map (fun b => .packet (Fin.ofNat 64 (32 * p + b))))
    ++ ((List.range 16).map (fun b => .damask (Fin.ofNat 32 (16 * p + b))))
    ++ ((List.range 128).map (fun g => .twData (Fin.ofNat 256 (128 * p + g)))) ++ [.config (Fin.ofNat 2 p)]

/-- The configuration store of a plane has a word that a read delivers with P = 1. -/
def configBad (p : Nat) (m : List Host.Cell) : Bool :=
  (listedWords m (672 + p)).any (fun a => match eccOf (syndrome m (672 + p) a) with | .poison | .bad => true | _ => false)

/-- The state of plane p copied from the other plane (R31). -/
def copyPlane (p : Nat) (d : Dev) (m : List Host.Cell) : Dev × List Host.Cell :=
  ((planeMems (1 - p)).zip (planeMems p)).foldl (fun x y => copyMem y.1 y.2 x.1 x.2) (d.copyState p, m)

/-- The plane selectors wait for the first cell number that both planes present (R243). -/
def Dev.admitPlane (d : Dev) (pl : Fin 2) : Dev :=
  d.enabledPorts.foldl (fun d q => d.updPsel q (fun s => { s with joining := some pl })) d

/-- The copy of a resynchronisation ends (R31): a returning plane is admitted, or, where the carrying plane delivered a
poisoned word of its configuration store, be it by an injection into a read of the copy, it stays fenced. A handover goes on with
its third stage (R357). -/
def resyncComplete (carrierBad : Bool) (d : Dev) (m : List Host.Cell) : Dev × List Host.Cell :=
  match d.plane.resync with
  | none => (d, m)
  | some r =>
    if carrierBad || configBad (1 - r.plane.val) m then (d.abortResync.endAborted, m)
    else
      let x := copyPlane r.plane.val d m
      let d := x.1
      if d.plane.resync.isNone then x
      else match r.why with
      | .handover => ({ d with plane.resync := some { r with copied := true } }, x.2)
      | .unfence =>
        let d := ({ d with plane.resync := none }).admitPlane r.plane
        ((d.unfence (0xF000 + r.plane.val) 0).complete 0x80 r.job { patch := [(4, le 1 0)] }, x.2)

def execResyncComplete (carrierBad : Bool) (s : State) : Out1 := onMem (liveMem (resyncComplete carrierBad)) s

end Sys2Proof.Machine
end

