-- ==== Sys2Proof/Machine/Lanes.lean ====
section
/-! DEFINITION. Lanes and ports (chapter 03): the bring-up of a lane, the alignment of a port, LANE_CFG and PORT_CFG, and the
holds on a port (R395, R485). -/

namespace Sys2Proof.Machine

/-! ### Ports (R74, R75) -/

/-- Sets bits of PORT_EVENT at one instant. -/
def Dev.portRaise (d : Dev) (p : Nat) (bits : List Nat) : Dev :=
  d.raiseAll (aPort p 4) (bits.map (fun b => (b, some (0x1101 + b, le 1 p))))

/-- A lane whose port carries no traffic: it sends no items, and no errored block waits for it (R78, R79). -/
def Lane.quiet (x : Lane) : Lane := { x with sending := false, errBlocks := 0 }

/-- The traffic of a port stops (R68, R69, R75): its lanes send no items, and take none while it is not ALIGNED. A packet that
is being sent ends with an error block (R79). -/
def Dev.trafficStop (d : Dev) (p : Nat) : Dev :=
  ((d.portLanes p).foldl (fun d l => d.updLane l Lane.quiet) d).updPort p (fun q => { q with egress := false })

/-- A port leaves ALIGNED: its traffic and its framers stop (cause 2 of R95). -/
def Dev.portLost (d : Dev) (p : Nat) (also_ : List Nat := []) : Dev :=
  (((d.updPort p (fun q => { q with astate := .aligning })).trafficStop p).portRaise p (1 :: also_)).framersStop p 2

/-- Alignment of an enabled port starts again; it counts as left when it was ALIGNED. -/
def Dev.portRestart (d : Dev) (p cause : Nat) : Dev :=
  let was := (d.port p).astate
  let d := (d.updPort p (fun q => { q with astate := .aligning, laneLeft := false })).trafficStop p
  let d := if was = .aligned then d.portRaise p [1] else d
  d.framersStop p cause

/-- A lane of an enabled port left LOCKED. -/
def Dev.portLaneLeft (d : Dev) (l : Nat) : Dev :=
  match d.laneOwner l with
  | none => d
  | some p =>
    match (d.port p).astate with
    | .aligned => d.portLost p
    | .skewFail => d.updPort p (fun q => { q with laneLeft := true })
    | _ => d

/-- The egress of each lane of a port starts to count towards 64 items (R79). -/
def Dev.egressRestart (d : Dev) (p : Nat) : Dev :=
  let held := (d.port p).onHold
  let d := d.updPort p (fun q => { q with egress := true })
  (d.portLanes p).foldl (fun d l =>
    if h : l < 64 then
      d.updLane l (fun x => { x with sending := !held && decide (64 ≤ (d.queue (.laneEg ⟨l, h⟩)).items.length) })
    else d) d

/-- Every lane of the port is LOCKED. -/
def Dev.lanesLocked (d : Dev) (p : Nat) : Bool := (d.portLanes p).all (fun l => (d.lane l).bstate = .locked)

/-- The skew of the port as a measurement shows it. -/
def Dev.shownSkew (d : Dev) (p skew : Nat) : Nat := if (d.port p).lanes = 1 then 0 else min skew 1023

/-- Every lane is LOCKED and the skew is measured. A rise above SKEW_WARN that an earlier measurement has warned of is not
warned of again; a measurement that enters SKEW_FAIL warns of nothing besides (DESIGN CHOICE 96). -/
def Dev.portAligned (d : Dev) (p skew : Nat) : Dev :=
  let q := d.port p
  if q.format ≠ 0 && q.astate = .aligning && d.lanesLocked p then
    let k := d.shownSkew p skew
    if k ≤ 512 then
      let warn := decide (q.skewWarn < k)
      let d := d.updPort p (fun q => { q with astate := .aligned, skew := k, aboveWarn := warn, inTurn := 0 })
      let d := d.portRaise p (if warn && !q.aboveWarn then [0, 2] else [0])
      let d := d.egressRestart p
      if q.onHold then d.refresh else d.framersGo p
    else
      (d.updPort p (fun q => { q with astate := .skewFail, skew := k, laneLeft := false })).portRaise p [3]
  else d

def execPortAligned (p : Fin 64) (skew : Nat) (s : State) : Out1 := onDev (live (fun d => d.portAligned p.val skew)) s

/-- A 1-lane port passes to ALIGNED as soon as its lane is LOCKED (R74). -/
def Dev.alignOne (d : Dev) (p : Nat) : Dev := if (d.port p).lanes = 1 then d.portAligned p 0 else d

/-- The measurement of a marker period of an aligned port. One lane has no order that could change. -/
def Dev.skewMeasured (d : Dev) (p skew : Nat) (order : Bool) : Dev :=
  let q := d.port p
  if q.format ≠ 0 && q.astate = .aligned then
    let k := d.shownSkew p skew
    let warn := decide (q.skewWarn < k)
    let new := if warn && !q.aboveWarn then [2] else []
    let d := d.updPort p (fun q => { q with skew := k, aboveWarn := warn })
    if (order && q.lanes ≠ 1) || decide (512 < k) then d.portLost p new else d.portRaise p new
  else d

def execSkewMeasurement (p : Fin 64) (skew : Nat) (orderChanged : Bool) (s : State) : Out1 :=
  onDev (live (fun d => d.skewMeasured p.val skew orderChanged)) s

/-! ### Holds (R395, R485) -/

/-- A hold is placed on a port that carries: its framers stop and its egress sends no items. -/
def Dev.holdOn (d : Dev) (p : Nat) (f : Port → Port) : Dev :=
  let was := (d.port p).onHold
  let d := d.updPort p f
  if was then d else (d.trafficStop p).framersStop p 2

/-- A hold is released: when it was the last, the port restarts alignment and its points enter Settling. -/
def Dev.holdOff (d : Dev) (p : Nat) (f : Port → Port) : Dev :=
  let was := (d.port p).onHold
  let d := d.updPort p f
  if was && !(d.port p).onHold then ((d.portRestart p 2).settlePort p 1).alignOne p else d

/-! ### Lanes (R70–R72) -/

/-- Bound of ACQUIRE by RATE (R71), in ns. -/
def acqBound (rate : Nat) : Nat := if rate ≤ 5 then 100000000 else if rate ≤ 9 then 20000000 else 5000000

/-- Entry to ACQUIRE. -/
def Dev.toAcquire (d : Dev) (l : Nat) : Dev :=
  d.updLane l (fun x => { x with bstate := .acquire, cdrLock := false, pcsLock := false, acqSince := d.now })

/-- An exit from LOCKED that is not a loss, if the lane was there: its port reacts (R70, R74). -/
def Dev.unlockLane (d : Dev) (l : Nat) (was : BState) : Dev := if was = .locked then d.portLaneLeft l else d

/-- Bring-up begins: CAL with RX_CAL, ACQUIRE without. -/
def Dev.bringUp (d : Dev) (l : Nat) : Dev :=
  let was := (d.lane l).bstate
  let d := if (d.lane l).ctrl.getLsbD 3 then
      d.updLane l (fun x => { x with bstate := .cal, cdrLock := false, pcsLock := false })
    else d.toAcquire l
  d.unlockLane l was

/-- The lane is off. -/
def Dev.laneOff (d : Dev) (l : Nat) : Dev :=
  let was := (d.lane l).bstate
  (d.updLane l (fun x => { x with bstate := .off, cdrLock := false, pcsLock := false })).unlockLane l was

/-- LANE_CFG (R82). -/
def laneCfg (c : Desc) (d : Dev) (_ : Nat) : Ran :=
  let l := c.u8 0
  let rate := c.u8 1
  let pre := signed 8 (c.u8 4)
  let post := signed 8 (c.u8 6)
  let tap := fun (x : Int) => decide (-16 ≤ x) && decide (x ≤ 15)
  checked [ atMost 0 l 63, (1, rate ≤ 9 || rate ≤ 12 && 48 ≤ l), atMost 2 (c.u8 2) 31, atMost 3 (c.u8 3) 2, (4, tap pre), atMost 5 (c.u8 5) 63
          , (6, tap post), atMost 7 (c.u8 7) 1, c.zeros 8 55 ] <|
  need (pre.natAbs + c.u8 5 + post.natAbs ≤ 63) refusedDone <|
  let x := d.lane l
  need (rate = x.rate || (d.laneOwner l).isNone) (conflictDone 2 ((d.laneOwner l).getD 0)) <|
    let ctrl := BitVec.ofNat 8 (c.u8 2)
    let d := d.updLane l (fun x => { x with
      rate := rate, ctrl := ctrl, loopback := c.u8 3, txPre := BitVec.ofNat 8 (c.u8 4), txMain := BitVec.ofNat 8 (c.u8 5)
      txPost := BitVec.ofNat 8 (c.u8 6), rxAdapt := BitVec.ofNat 8 (c.u8 7) })
    let moved := rate ≠ x.rate || c.u8 3 ≠ x.loopback || ctrl.getLsbD 1 != x.ctrl.getLsbD 1
    let d := if !ctrl.getLsbD 0 || rate = 0 then d.laneOff l
      else if x.bstate = .off || moved then d.bringUp l
      else d
    ran (if c.u8 3 = x.loopback then d
      else match d.laneOwner l with
        | some p => d.settlePort p 2
        | none => d)

def execLaneCfg (c : Desc) (s : State) : Out1 := hostRow 0x10 c laneCfg s

/-- Calibration completes (R330). -/
def Dev.laneCalDone (d : Dev) (l : Nat) (offsets : BitVec 32) : Dev :=
  if (d.lane l).bstate = .cal then (d.updLane l (fun x => { x with offsets := some offsets, calOk := true })).toAcquire l else d

def execLaneCalComplete (l : Fin 64) (offsets : BitVec 32) (s : State) : Out1 :=
  onDev (live (fun d => d.laneCalDone l.val offsets)) s

/-- Calibration aborts on activity (R72, R329). -/
def Dev.laneCalAborted (d : Dev) (l : Nat) : Dev :=
  if (d.lane l).bstate = .cal then
    ((d.updLane l (fun x => { x with calOk := false })).raise (aLane l 4) 3 0x1004 (le 1 l)).toAcquire l
  else d

def execLaneCalAbort (l : Fin 64) (s : State) : Out1 := onDev (live (fun d => d.laneCalAborted l.val)) s

/-- The acquisition bound passes in ACQUIRE (R71). -/
def Dev.acqRetries (d : Dev) (l : Nat) : Dev :=
  if (d.lane l).bstate = .acquire && d.after (d.lane l).acqSince (acqBound (d.lane l).rate) then
    (d.count32 (aLane l 0x1C)).toAcquire l
  else d

def execAcqRetry (l : Fin 64) (s : State) : Out1 := onDev (live (fun d => d.acqRetries l.val)) s

/-- Lane PCS lock is clock recovery lock alone (R72): the lane belongs to an OTU4 port of 1 lane, to an SDH port or to no
enabled port. -/
def Dev.cdrOnly (d : Dev) (l : Nat) : Bool :=
  match d.laneOwner l with
  | none => true
  | some p => isSdh (d.port p).format || (decide ((d.port p).format = 2) && decide ((d.port p).lanes = 1))

/-- Lane PCS lock (R72): the lane is LOCKED; a port in SKEW_FAIL that a lane had left aligns again, and a 1-lane port is ALIGNED
(R74). -/
def Dev.laneLocks (d : Dev) (l : Nat) : Dev :=
  if (d.lane l).bstate = .pcsWait then
    let d := (d.updLane l (fun x => { x with bstate := .locked, pcsLock := true })).raise (aLane l 4) 0 0x1001 (le 1 l)
    match d.laneOwner l with
    | some p =>
      if (d.port p).astate = .skewFail && (d.port p).laneLeft then
        d.updPort p (fun q => { q with astate := .aligning, laneLeft := false })
      else d.alignOne p
    | none => d
  else d

def execLaneLocked (l : Fin 64) (s : State) : Out1 := onDev (live (fun d => d.laneLocks l.val)) s

/-- A lane in PCS_WAIT that needs no more than clock recovery has lane PCS lock (R72). -/
def Dev.laneNoWait (d : Dev) (l : Nat) : Dev := if d.cdrOnly l then d.laneLocks l else d

/-- Clock recovery locks on an input within ±200 ppm (R64). -/
def Dev.laneAcquires (d : Dev) (l : Nat) (ppm : Int) : Dev :=
  if (d.lane l).bstate = .acquire && decide (ppm.natAbs ≤ 200) then
    (d.updLane l (fun x => { x with bstate := .pcsWait, cdrLock := true, waitSince := d.now })).laneNoWait l
  else d

def execLaneAcquired (l : Fin 64) (ppm : Int) (s : State) : Out1 := onDev (live (fun d => d.laneAcquires l.val ppm)) s

/-- Clock recovery is lost in PCS_WAIT. -/
def Dev.laneCdrGone (d : Dev) (l : Nat) : Dev := if (d.lane l).bstate = .pcsWait then d.toAcquire l else d

def execLaneCdrLost (l : Fin 64) (s : State) : Out1 := onDev (live (fun d => d.laneCdrGone l.val)) s

/-- Loss of signal or of clock recovery lock (`cdr`), or of lane PCS lock alone, in LOCKED: clock recovery stays locked in the
last case (R84). -/
def Dev.laneLoses (d : Dev) (l : Nat) (cdr : Bool) : Dev :=
  if (d.lane l).bstate = .locked then
    (((d.toAcquire l).updLane l (fun x => { x with cdrLock := !cdr })).raise (aLane l 4) 1 0x1002 (le 1 l)).portLaneLeft l
  else d

def execLaneLost (l : Fin 64) (cdr : Bool) (s : State) : Out1 := onDev (live (fun d => d.laneLoses l.val cdr)) s

/-! ### PORT_CFG (R66–R69, R83, R180) -/

/-- The combinations of LANES, RATE and FEC that a format accepts (R66). -/
def formatOk (f lanes rate fec : Nat) : Bool :=
  let any := fun (xs : List (Nat × Nat)) => xs.contains (lanes, rate)
  match f with
  | 0x01 => (rate = 1 || rate = 2) && fec = 2
  | 0x02 => any [(1, 4), (2, 5), (4, 7)] && (fec = 0 || fec = 3)
  | 0x10 => any [(1, 9)] && fec = 0
  | 0x11 => any [(1, 10)] && fec = 0
  | 0x12 => any [(1, 11)] && fec = 0
  | 0x13 => any [(1, 12)] && fec = 0
  | 0x20 => any [(1, 8)] && fec = 0
  | 0x21 => any [(1, 6)] && fec ≤ 1
  | 0x22 => any [(1, 3)] && fec = 2
  | 0x23 => any [(4, 6)] && fec ≤ 1 || any [(2, 3), (1, 2)] && fec = 2
  | 0x24 => any [(4, 3), (2, 2), (1, 1)] && fec = 2
  | 0x25 => any [(8, 3), (4, 2), (2, 1)] && fec = 2
  | _ => false

/-- Slots that the leaves whose chain of servers ends at port p take (R150). -/
def Dev.portSlots (d : Dev) (p : Nat) : Nat := ((d.leavesOf p).map (fun o => ((d.odu o).map Odu.leafK).getD 0)).sum

/-- What forbids a change of a port (R180): `format` 0 disables it. The structure in force counts, and not that which MAP_CFG
creates and deletes that still wait for their server's frame will leave (DESIGN CHOICE 58). -/
def Dev.portBlocked (d : Dev) (p format lanes otucN : Nat) : Option Done :=
  let line : Option Done := match d.lineOdu p with
    | none => none
    | some o =>
      let ty := ((d.odu o).map Odu.ty).getD 0
      let used := ((d.clients o).filterMap d.odu).foldl (fun m c => max m (max c.tpn (c.ts.foldl max 0))) 0
      if format ≠ (if ty = 4 then 2 else 1) || (ty = 7 && 20 * otucN < used) then some (conflictDone 4 o)
      else if 40 * lanes < d.portSlots p then some (conflictDone 3 p)
      else none
  match line with
  | some r => some r
  | none =>
    let vs := (d.portVc4s p).filterMap d.vc4
    let bad := vs.filter (fun v => !isSdh format || stmN format < v.au4 + v.concat - 1)
    if bad.isEmpty then none
    else some (conflictDone 8 (p + 256 * least (bad.map Vc4.au4)))

/-- A port that is disabled: no framer from then on (R551), its lanes released. -/
def Dev.portDisable (d : Dev) (p : Nat) : Dev :=
  let lanes := d.portLanes p
  let framers := d.framers.filter (fun x => x.1 / 16 ≠ p)
  let flexo := d.flexo.filter (fun x => x.1 / 16 ≠ p)
  let d := { d with
    framers := framers, flexo := flexo, oofCause := tput 0 d.oofCause p 0, psels := tput {} d.psels p {}
    pkt.locFault := tput false d.pkt.locFault p false, pkt.remFault := tput false d.pkt.remFault p false }
  let d := lanes.foldl (fun d l => d.updLane l Lane.quiet) d
  let d := d.updPort p (fun q => { frozenUrg := q.frozenUrg })
  let d := lanes.foldl Dev.laneNoWait d
  (d.frHold p (d.frPortWords p)).refresh.expose

/-- A port enabled, or an enabled one changed so that it restarts alignment. A lane that the port takes over while it is LOCKED
by clock recovery alone stays LOCKED, whatever the lane PCS lock of the new format needs (DESIGN CHOICE 113). -/
def Dev.portApply (d : Dev) (c : Desc) (p : Nat) : Dev :=
  let isOn := d.portOn p
  let old := d.portLanes p
  let d := if isOn then
      let d := d.portRestart p 3
      d.enabledPorts.foldl (fun d q => if q = p then { d with psels := tput {} d.psels p {} } else d) d
    else d
  let was := d.framers
  let d := { d with framers := was.filter (fun x => x.1 / 16 ≠ p) }
  let d := d.updPort p (fun q => { q with
    lanes := c.u8 1, format := c.u8 2, otucN := c.u8 3, fec := c.u8 4, shed := c.bit 5 1, skewWarn := c.u16 6
    astate := .aligning, skew := if isOn && c.u8 1 ≠ 1 then q.skew else 0
    aboveWarn := isOn && c.u8 1 ≠ 1 && decide (c.u16 6 < q.skew), laneLeft := false
    pktTx := if isEth q.format && isEth (c.u8 2) then q.pktTx else .between, shedNow := q.shedNow && c.bit 5 1
    frSince := if isOn then q.frSince else d.now, mfSince := if isOn then q.mfSince else d.now })
  let d := (d.framersOf p).foldl (fun d k => d.updFramer k (fun _ => { stopped := true, mfas := (tget ({} : Framer) was k).mfas })) d
  let d := (old ++ d.portLanes p).foldl Dev.laneNoWait d
  let d := if c.u8 2 = 1 then d.emit (.flexo p (d.flexoTx p)) else d
  let d := d.frHold p (d.frPortWords p)
  ((((d.egressRestart p).frTouch p).settlePort p 1).alignOne p).expose

/-- PORT_CFG (R83). -/
def portCfg (c : Desc) (d : Dev) (_ : Nat) : Ran :=
  let p := c.u8 0
  let lanes := c.u8 1
  let f := c.u8 2
  if f = 0 || !c.bit 5 0 then
    checked [ atMost 0 p 63, atMost 5 (c.u8 5) 3, c.zeros 8 55 ] <|
      if !d.portOn p then ran d
      else match d.portBlocked p 0 0 0 with
        | some r => .error r
        | none => ran (d.portDisable p)
  else
    checked [ atMost 0 p 63, (1, lanes ∈ [1, 2, 4, 8]), (2, formatKind f ≠ 0)
            , (3, if f = 1 then 1 ≤ c.u8 3 && c.u8 3 ≤ 16 else c.u8 3 = 0), atMost 4 (c.u8 4) 3, atMost 5 (c.u8 5) 3
            , within 6 (c.u16 6) 16 512, c.zeros 8 55 ] <|
    need (p % lanes = 0) refusedDone <|
    let ls := (List.range lanes).map (fun i => p + i)
    let rate := (d.lane p).rate
    need (ls.all (fun l => (d.lane l).rate = rate) && formatOk f lanes rate (c.u8 4)
      && (f ≠ 1 || c.u8 3 ≤ (if rate = 1 then 2 * lanes else lanes))) refusedDone <|
    let taken := ls.find? (fun l => match d.laneOwner l with | some q => q ≠ p | none => false)
    need taken.isNone (conflictDone 1 (taken.getD 0)) <|
    match d.portBlocked p f lanes (c.u8 3) with
    | some r => .error r
    | none =>
      let q := d.port p
      if d.portOn p && q.lanes = lanes && q.format = f && q.otucN = c.u8 3 && q.fec = c.u8 4 then
        let d := d.updPort p (fun q => { q with shed := c.bit 5 1, skewWarn := c.u16 6 })
        ran (if q.shedNow && !c.bit 5 1 then d.holdOff p (fun q => { q with shedNow := false }) else d)
      else ran (d.portApply c p)

def execPortCfg (c : Desc) (s : State) : Out1 := hostRow 0x11 c portCfg s

end Sys2Proof.Machine
end

