-- ==== Sys2Proof/Machine/Mapping.lean ====
section
/-! DEFINITION. Mapping, multiplexing and justification (chapter 06): MAP_CFG, GMP and AMP, the pointer interpreters and
generators, and the asynchronous E1 in C-12 with its desynchroniser. -/

namespace Sys2Proof.Machine

/-! ### Events (R183) and rate alarms (R177) -/

/-- Posts an event of an ODU at most once a second. -/
def Dev.oduPost (d : Dev) (o code : Nat) : Dev :=
  match d.odu o with
  | some x => if mayPost x.posted code d.now then
      (d.updOdu o (fun x => { x with posted := tput 0 x.posted code (d.now + 1) })).post code (le 2 o) else d
  | none => d

/-- Posts an event of a lower-order entry at most once a second. -/
def Dev.loPost (d : Dev) (e code : Nat) : Dev :=
  if mayPost (d.lo e).posted code d.now then
    (d.updLo e (fun x => { x with posted := tput 0 x.posted code (d.now + 1) })).post code (le 2 e) else d

/-- A client of an ODU mapper or demapper runs outside its range. -/
def Dev.oduAlarm (d : Dev) (o : Nat) : Dev :=
  match d.odu o with
  | some x =>
    let d := d.updOdu o (fun x => { x with rateAlarm := true, inRange := d.now })
    if x.rateAlarm then d else d.oduPost o 0x1401
  | none => d

/-- The E1 of an entry runs outside its range. -/
def Dev.loAlarm (d : Dev) (e : Nat) : Dev :=
  let was := (d.lo e).rateAlarm
  let d := d.updLo e (fun x => { x with rateAlarm := true, inRange := d.now })
  if was then d else d.loPost e 0x1401

/-- RATE_ALARM clears after 1 s continuously within range. -/
def rateAlarmClear (odu : Bool) (n : Nat) (d : Dev) : Dev :=
  if odu then
    match d.odu n with
    | some x => if x.rateAlarm && d.after x.inRange 1000000000 then
        (d.updOdu n (fun x => { x with rateAlarm := false })).oduPost n 0x1402 else d
    | none => d
  else
    let x := d.lo n
    if x.rateAlarm && d.after x.inRange 1000000000 then
      (d.updLo n (fun x => { x with rateAlarm := false })).loPost n 0x1402 else d

def execRateAlarmClear (odu : Bool) (n : Fin 8064) (s : State) : Out1 := onDev (live (rateAlarmClear odu n.val)) s

/-! ### Slot budgets and local slots (R150, R185) -/

/-- Slots of all leaves. -/
def Dev.leafTotal (d : Dev) : Nat :=
  (d.odus.map (fun x => match x.2 with | some o => if d.isLeaf x.1 then o.leafK else 0 | none => 0)).sum

/-- The first budget that the structure breaks. -/
def Dev.budgetBroken (d : Dev) : Option Done :=
  match (d.enabledPorts).find? (fun p => decide (40 * (d.port p).lanes < d.portSlots p)) with
  | some p => some (conflictDone 3 p)
  | none => if 2560 < d.leafTotal then some (conflictDone 3 0xFFFFFFFF) else none

/-- Gives every leaf its slots and takes those of servers: servers first. -/
def Dev.reslot (d : Dev) : Dev :=
  let os := d.odus.map (fun x => x.1)
  let d := os.foldl (fun d o => if d.isLeaf o then d else d.ownSlots (d.slotsOf o) 0) d
  os.foldl (fun d o => match d.odu o with
    | some x => if d.isLeaf o && (d.slotsOf o).isEmpty then d.ownSlots (d.freeSlots x.leafK) (o + 1) else d
    | none => d) d

/-! ### MAP_CFG (R178, R179, R549) -/

/-- Tributary slots that a client takes in its server (R148, R149); none where the server does not carry it. -/
def tsNeed (ty flexTs gran server : Nat) : Option Nat :=
  if server = 7 then
    if ty = 5 || ty = 6 then (if gran = 1 then some flexTs else none)
    else match ty with | 0 | 1 => some 1 | 2 | 3 => some 2 | 4 => some 20 | _ => none
  else if server = 4 then
    if ty = 5 || ty = 6 then (if gran = 0 then some flexTs else none)
    else match ty with | 0 => some 1 | 1 => some 2 | 2 | 3 => some 8 | _ => none
  else if server = 2 && ty = 1 then some 1
  else none

/-- Types of each SERVER_KIND (R147, R148, R549). -/
def kindTypes (kind ty : Nat) : Bool :=
  match kind with | 0 => ty = 4 || ty = 7 | 1 => ty ≤ 6 | _ => ty = 2 || ty = 4 || ty = 5

/-- The combinations of PAYLOAD, type and kind of R549. -/
def payloadOk (pay ty kind : Nat) : Bool :=
  match pay with
  | 0 => (ty = 7 && kind = 0) || (ty = 4 && (kind = 0 || kind = 1)) || (ty = 2 && kind = 1)
  | 1 => kind = 2 && (ty = 2 || ty = 4 || ty = 5)
  | 2 => ty = 6 && kind = 1
  | 3 => (ty ≤ 5 && kind = 1) || (ty = 4 && kind = 0)
  | _ => false

/-- TS_MAP of a body. -/
def tsMap (c : Desc) : List Nat :=
  (List.range 320).filterMap (fun i => if c.bit (16 + i / 8) (i % 8) then some (i + 1) else none)

/-- The ODU of a section 0 body. -/
def mapOdu (c : Desc) : Odu :=
  { ty := c.u8 4, kind := c.u8 5, server := c.u16 6, payload := c.u8 8, flags := c.u8 9, flexTs := c.u16 10, tpn := c.u16 12
    gfpPort := c.u16 14, ts := tsMap c, gfp := if c.u8 8 = 1 then 1 else 0 }

/-- Checks of section 0 that rest on the server (R148, R149). -/
def serverChecks (x : Odu) (server : Odu) (cap : Nat) : List Check :=
  let flex := x.ty = 5 || x.ty = 6
  match tsNeed x.ty x.flexTs (x.flags % 2) server.ty with
  | none => [(4, false)]
  | some n =>
    [(10, !flex || (decide (1 ≤ x.flexTs) && decide (x.flexTs ≤ cap))), within 12 x.tpn 1 cap,
     (16, decide (x.ts.length = n) && x.ts.all (fun s => decide (s ≤ cap)))]

/-- The first tributary slot, or the TPN, that another client of the server holds. -/
def Dev.taken (d : Dev) (x : Odu) : Option Done :=
  let cs := (d.clients x.server).filterMap d.odu
  match x.ts.find? (fun s => cs.any (fun c => c.ts.contains s)) with
  | some s => some (conflictDone 5 (x.server + s * 2 ^ 16))
  | none => if cs.any (fun c => c.tpn = x.tpn) then some (conflictDone 6 (x.server + x.tpn * 2 ^ 16)) else none

/-- A scheduler port that cannot serve a new packet ODU (R262). -/
def Dev.gfpTaken (d : Dev) (n : Nat) : Bool :=
  2 ^ 15 ≤ (d.shaper (2 * 4096 + n)).target
    || d.odus.any (fun x => match x.2 with | some o => o.kind = 2 && o.gfpPort = n | none => false)

/-- The PT that a mapper writes (R149). -/
def sentPt (ty payload : Nat) : Option Nat :=
  match payload, ty with
  | 0, 7 => some 0x22
  | 0, 4 => some 0x21
  | 0, 2 => some 0x20
  | 1, _ => some 0x05
  | _, _ => none

/-- An ODU sends its PT and MSI from now on: the unallocated indication and all-zero content in a slot without a client
(R149, R151). -/
def Dev.sendOpu (d : Dev) (o : Nat) : Dev :=
  match d.odu o with
  | some x => match sentPt x.ty x.payload with
    | some pt => d.emit (.opu o pt (if x.payload = 0 then d.sentMsi o (d.serverTs o) else []))
    | none => d
  | none => d

/-- The structure with an ODU created, or deleted: leaves and slots follow (R150, R185). -/
def Dev.withOdu (d : Dev) (o : Nat) (make : Option Odu) : Dev :=
  match make with
  | some x => (d.setOdu o (some { x with omfi := d.unlocked })).reslot
  | none => ((d.ownSlots (d.slotsOf o) 0).setOdu o none).reslot

/-- A create or delete takes effect: the ODU that is gone or made, its server, and the MSI that each sends. -/
def Dev.mapApply (d : Dev) (o : Nat) (make : Option Odu) : Dev :=
  let sv := (if make.isSome then make else d.odu o).filter (fun x => x.kind = 1)
  let d := (d.withOdu o make).sendOpu o
  match sv with
  | some x => d.sendOpu x.server
  | none => d

/-- A change of a tributary ODU waits for the server's frame (R151); any other takes effect and completes at once. -/
def Dev.mapWait (d : Dev) (o j : Nat) (x : Odu) (make : Option Odu) : Ran :=
  if x.kind = 1 then ranLater { d with mapJobs := d.mapJobs ++ [{ odu := o, job := j, make := make }] }
  else ran (d.mapApply o make).refresh.expose

/-- Section 0, OP 1. The structure that the waiting creates and deletes will leave is the one that is checked (DEDUCED 58). -/
def mapCreate (c : Desc) (d : Dev) (j : Nat) : Ran :=
  let o := c.u16 2
  let x := mapOdu c
  let flex := x.ty = 5 || x.ty = 6
  let t := d.planned
  let server := if x.kind = 1 then t.odu x.server else none
  let f := (d.port x.server).format
  let line := if x.ty = 4 then 2 else 1
  checked ([ atMost 2 o 4095, atMost 5 x.kind 2, (4, kindTypes x.kind x.ty)
      , (6, match x.kind with | 0 => decide (x.server ≤ 63) | 1 => decide (x.server ≤ 4095) | _ => decide (x.server = 0))
      , (8, payloadOk x.payload x.ty x.kind), (9, decide (x.flags < 8) && (flex || decide (x.flags % 2 = 0)))
      , (10, if flex then x.kind = 1 || (decide (1 ≤ x.flexTs) && decide (x.flexTs ≤ if x.flags % 2 = 1 then 320 else 80))
          else decide (x.flexTs = 0))
      , (12, x.kind = 1 || x.tpn = 0), (14, decide (x.gfpPort ≤ 127) && (x.payload = 1 || x.gfpPort = 0))
      , (16, x.kind = 1 || x.ts.isEmpty), (4, x.kind ≠ 0 || f = 0 || f = line) ]
      ++ (match server with | some s => serverChecks x s (t.serverTs x.server) | none => [])) <|
  need (t.odu o).isNone (conflictDone 4 o) <|
  need (match x.kind with
    | 0 => decide (f = line)
    | 1 => server.any (fun s => s.payload = 0)
    | _ => true) refusedDone <|
  need (x.kind ≠ 0 || (t.lineOdu x.server).isNone) (conflictDone 2 x.server) <|
  match (if x.kind = 1 then t.taken x else if x.kind = 2 && t.gfpTaken x.gfpPort then some (conflictDone 0x17 x.gfpPort)
      else none) with
  | some r => .error r
  | none =>
    match (t.setOdu o (some x)).budgetBroken with
    | some r => .error r
    | none =>
      need (x.kind ≠ 1 || !d.isLeaf x.server || !d.oduInPages x.server)
        (conflictDone 0xA ((d.slotsOf x.server).headD 0)) <|
      d.mapWait o j x (some x)

/-- Section 0, OP 0: it reads only bytes 0–3. -/
def mapDelete (c : Desc) (d : Dev) (j : Nat) : Ran :=
  let o := c.u16 2
  let t := d.planned
  checked [atMost 2 o 4095] <|
  match t.odu o with
  | none => .error refusedDone
  | some x =>
    match (t.setOdu o none).budgetBroken with
    | some r => .error r
    | none =>
      need (t.isLeaf o) (conflictDone 4 ((t.clients o).headD 0)) <|
      need (!d.oduInPages o) (conflictDone 0xA ((d.slotsOf o).headD 0)) <|
      match ((mpKeyOf 2 0 o) :: (List.range 6).map (fun l => mpKeyOf 3 (l + 1) o)).find? (fun k => (d.point k).role ≠ 0) with
      | some k => .error (conflictDone 0xD (o + mpLevelOf k * 2 ^ 16 + mpTyOf k * 2 ^ 24))
      | none => d.mapWait o j x none

/-- The MSP group whose protection port is p (R211). -/
def Dev.mspProt (d : Dev) (p : Nat) : Option Nat :=
  (d.sels.find? (fun x => x.1 / 4096 = 1 && (match x.2 with | some v => v.prot = p | none => false))).map (fun x => x.1 % 4096)

/-- CONFLICT that names a selector. -/
def selConflict (scheme n : Nat) : Done := conflictDone 0xE (n + scheme * 2 ^ 16)

/-- The entries of a lower-order slot. -/
def slotEntries (k : Nat) : List Nat := (List.range 63).map (fun i => 63 * k + i)

/-- The output positions of a VC-4 that comes into being carry the unequipped signal until they are connected (R135). -/
def Dev.sendVc4 (d : Dev) (v : Nat) : Dev :=
  match d.vc4 v with
  | some x =>
    if x.struct then d.sendPositions (d.activePage 2) 2 ((slotEntries x.loSlot).filter d.entryExists)
    else d.sendPositions (d.activePage 1) 1 ((List.range x.concat).map (fun i => v + i))
  | none => d

/-- Section 1, OP 1. An overlapping AU-4 is named before a taken LO_SLOT (DESIGN CHOICE 59). -/
def vcCreate (c : Desc) (d : Dev) (_j : Nat) : Ran :=
  let p := c.u8 2
  let a := c.u8 3
  let n := c.u8 4
  let v := c.u16 6
  let struct := c.u8 5 = 1
  let top := stmN (d.port p).format
  checked [ (2, decide (p ≤ 63) && isSdh (d.port p).format), within 3 a 1 top
          , (4, n ∈ [1, 4, 16, 64] && decide (n ≤ top) && decide ((a - 1) % n = 0)), (5, c.u8 5 ≤ 1 && (c.u8 5 = 0 || n = 1))
          , atMost 6 (v + n - 1) 511, (8, decide (c.u8 8 ≤ 127) && (struct || c.u8 8 = 0))
          , (9, decide (c.u8 9 < 8) && (struct || c.u8 9 = 0)), c.zeros 10 55 ] <|
  need (d.mspProt p).isNone (selConflict 1 ((d.mspProt p).getD 0)) <|
  let inUse := ((List.range n).map (fun i => v + i)).find? (fun u => (d.vc4Holding u).isSome)
  need inUse.isNone (conflictDone 7 (inUse.getD 0)) <|
  let hits := ((d.portVc4s p).filterMap d.vc4).filter (fun y => decide (a < y.au4 + y.concat) && decide (y.au4 < a + n))
  need hits.isEmpty (conflictDone 8 (p + 256 * least (hits.map (fun y => max a y.au4)))) <|
  need (!struct || (d.loVc4 (c.u8 8)).isNone) (conflictDone 9 (c.u8 8)) <|
  let d := d.setVc4 v (some { port := p, au4 := a, concat := n, struct := struct, loSlot := c.u8 8
                              tug3 := BitVec.ofNat 8 (c.u8 9), h4 := d.unlocked })
  ran (d.sendVc4 v).refresh.expose

/-- What holds an entry of an opened VC-4 as a client. -/
def Dev.entryHeld (d : Dev) (e : Nat) : Option Done :=
  if d.inEitherPage 2 e || d.feedsAny 2 1 e then some (conflictDone 0xA (e + 2 * 2 ^ 16))
  else match [mpKeyOf 7 0 e, mpKeyOf 8 0 e].find? (fun k => (d.point k).role ≠ 0) with
    | some k => some (conflictDone 0xD (e + mpTyOf k * 2 ^ 24))
    | none =>
      if (d.circuit e).made || d.sels.any (fun x => x.1 / 4096 = 3 && (match x.2 with
          | some v => v.work = e || v.prot = e | none => false)) then some (conflictDone 0x25 e)
      else none

/-- Section 1, OP 0: PORT and AU4 name the VC-4. -/
def vcDelete (c : Desc) (d : Dev) (_j : Nat) : Ran :=
  let p := c.u8 2
  checked [atMost 2 p 63] <|
  need (d.mspProt p).isNone (selConflict 1 ((d.mspProt p).getD 0)) <|
  match (d.portVc4s p).find? (fun v => match d.vc4 v with | some x => x.au4 = c.u8 3 | none => false) with
  | none => .error refusedDone
  | some v =>
    match d.vc4 v with
    | none => .error refusedDone
    | some x =>
      let es := if x.struct then slotEntries x.loSlot else []
      match es.findSome? d.entryHeld with
      | some r => .error r
      | none =>
        need (!(d.inEitherPage 1 v || d.feedsAny 1 1 v)) (conflictDone 0xA (v + 2 ^ 16)) <|
        need ((d.point (mpKeyOf 6 0 v)).role = 0) (conflictDone 0xD (v + 6 * 2 ^ 24)) <|
        let d := es.foldl (fun d e => (d.updLo e (fun _ => {})).updE1 e (fun _ => {})) d
        ran (d.setVc4 v none).refresh.expose

/-- What the input position of an entry carries (R188): the VC-12 or VC-3 received, in E1_MODE 2 the retimed VC-12, in E1_MODE
3 the VC-12 into which its SAToP circuit plays out. -/
def loInput (mode : Nat) : Nat := if mode = 2 || mode = 3 then mode else 0

/-- The E1_MODE of an entry has changed from `was`: its input position carries what the new one says. -/
def Dev.sendInput (d : Dev) (e was : Nat) : Dev :=
  let m := (d.lo e).e1Mode
  if loInput was = loInput m then d else d.emit (.loInput e (loInput m))

/-- Section 2. The fills of the C-12 mapper and of the desynchroniser are kept over a change of E1_MODE (DESIGN CHOICE 107). -/
def entryCfg (c : Desc) (d : Dev) (_j : Nat) : Ran :=
  let e := c.u16 2
  let m := c.u8 4
  checked [(1, c.u8 1 = 0), atMost 2 e 8063, (4, m ≤ 3 && (m = 0 || !d.isVc3 e)), c.zeros 5 55] <|
  need (d.entryExists e) refusedDone <|
  need (m = 3 || !(d.circuit e).made) (conflictDone 0x12 e) <|
  need (m ≠ 0 || (d.point (mpKeyOf 8 0 e)).role = 0) (conflictDone 0xD (e + 8 * 2 ^ 24)) <|
  let was := (d.lo e).e1Mode
  let d := (d.updLo e (fun x => { x with e1Mode := m })).sendInput e was
  ran (if m = 0 then d.updE1 e (fun _ => {}) else if was = 0 then d.e1Start e else d).refresh.expose

def mapCfg (c : Desc) (d : Dev) (j : Nat) : Ran :=
  if c.u8 0 = 2 then entryCfg c d j
  else checked [atMost 0 (c.u8 0) 2, atMost 1 (c.u8 1) 1] <|
    match c.u8 0, c.u8 1 with
    | 0, 0 => mapDelete c d j
    | 0, _ => mapCreate c d j
    | _, 0 => vcDelete c d j
    | _, _ => vcCreate c d j

def execMapCfg (c : Desc) (s : State) : Out1 := hostSync 0x13 c mapCfg s

/-- A frame of the server of an ODU, with its MFAS, or its OMFI for an ODU4 server: at 0 the waiting creates and deletes of the
ODU take effect, in order, and complete (R151). -/
def mapTakesEffect (o mf : Nat) (d : Dev) : Dev :=
  let js := d.mapJobs.filter (fun j => j.odu = o)
  if js.isEmpty || mf ≠ 0 then d
  else
    let d := { d with mapJobs := d.mapJobs.filter (fun j => j.odu ≠ o) }
    let d := (js.foldl (fun d j => d.mapApply o j.make) d).refresh.expose
    js.foldl (fun d j => d.complete 0x13 j.job okDone) d

def execMapCfgTakesEffect (x : ServerFrame) (s : State) : Out1 := onSync (live (mapTakesEffect x.odu.val x.mf.toNat)) s

/-! ### GMP and AMP (R152–R154, R177) -/

/-- The server of a tributary ODU. -/
def Dev.serverTy (d : Dev) (o : Nat) : Option Nat :=
  (d.odu o).bind (fun x => if x.kind = 1 then (d.odu x.server).map Odu.ty else none)

/-- Nominal bit rate of an ODU in bit/s, as a fraction (PRESUMED 101). -/
def oduRate (x : Odu) : Nat × Nat :=
  match x.ty with
  | 0 => (1244160000, 1)
  | 1 => (239 * 2488320000, 238)
  | 2 => (239 * 9953280000, 237)
  | 3 => (239 * 10312500000, 237)
  | 4 => (239 * 99532800000, 227)
  | _ => flexRate x

/-- GMP of a server (R149; PRESUMED 37): payload units of a tributary slot in a multiframe, bytes of a unit for each slot of the
client, and the bit rate of a slot. -/
def gmpServer (server : Nat) : Nat × Nat × Nat := if server = 7 then (952, 16, 5240886372) else (15200, 1, 1301709251)

/-- The range of Cm of a client: the nominal value with ±200 ppm of the client and ±20 ppm of the server (R153, R176). -/
def cmRange (x : Odu) (server : Nat) : Nat × Nat :=
  let (p, _, rate) := gmpServer server
  let n := p * (oduRate x).1
  let m := (oduRate x).2 * x.ts.length * rate * 1000000
  (n * (1000000 - 220) / m, (n * (1000000 + 220) + m - 1) / m)

/-- Whether a Cm lies in range. -/
def cmOk (x : Odu) (server cm : Nat) : Bool := decide ((cmRange x server).1 ≤ cm) && decide (cm ≤ (cmRange x server).2)

/-- CRC-8 over JC1 and JC2, x^8 + x^3 + x^2 + 1, and CRC-5 over bits 4–8 of JC4 and JC5, x^5 + x + 1 (PRESUMED 37). -/
def jcCrc8 (jc1 jc2 : Byte) : Nat := bitCrc 8 0x0D (bitsOfByte jc1 ++ bitsOfByte jc2)
def jcCrc5 (jc4 jc5 : Byte) : Nat := bitCrc 5 0x03 ((bitsOfByte jc4).drop 3 ++ (bitsOfByte jc5).drop 3)

/-- The justification bytes of a Cm and a ΣCnD, by row and column (R152). II and DI are both 1 with a Cm that differs from the
one before, which stands in C1–C14 as it is (DESIGN CHOICE 105). -/
def jcBytes (cm cnd : Nat) (new : Bool) : List (Nat × Nat × Byte) :=
  let b := fun (n : Nat) => (BitVec.ofNat 8 n : Byte)
  let jc1 := b (cm / 64)
  let jc2 := b (cm % 64 * 4 + (if new then 3 else 0))
  let jc4 := b (cnd / 32 % 32)
  let jc5 := b (cnd % 32)
  [(1, 16, jc1), (2, 16, jc2), (3, 16, b (jcCrc8 jc1 jc2)), (1, 15, jc4), (2, 15, jc5), (3, 15, b (jcCrc5 jc4 jc5))]

/-- A mapper's store overflowed or underflowed (R177): what it discards and inserts, and RATE_ALARM. -/
def Dev.oduLimit (d : Dev) (o discarded inserted : Nat) : Dev :=
  if discarded = 0 && inserted = 0 then d else (d.emit (.rateLimit true o discarded inserted)).oduAlarm o

/-- One multiframe of the GMP mapper (R152): the client bytes that wait and the `n` that have arrived fill Cm units, and ΣCnD
is the rest. Outside the range Cm is clamped: the bytes too many are discarded, and 0x00 bytes are inserted for those that
miss (R177). -/
def Dev.gmpMap (d : Dev) (o : Nat) (x : Odu) (server n : Nat) : Dev :=
  let m := (gmpServer server).2.1 * x.ts.length
  let total := x.cndTx + n
  let (lo, hi) := cmRange x server
  let cm := max lo (min hi (total / m))
  let cnd := if total / m = cm then total % m else 0
  let d := d.updOdu o (fun x => { x with cmTx := cm, cndTx := cnd })
  let d := d.emit (.justification o (x.ts.foldl max 0) (jcBytes cm cnd (decide (cm ≠ x.cmTx))))
  d.oduLimit o (if hi < total / m then total - cm * m else 0) (if total / m < lo then cm * m - total else 0)

/-- The justification bytes that the GMP demapper receives, JC1 in the low byte (R153). -/
def Dev.gmpDemap (d : Dev) (o : Nat) (x : Odu) (server : Nat) (jc : BitVec 48) : Dev :=
  let b := fun (i : Nat) => byteOf (jc.setWidth 64) i
  let cm := (b 0).toNat * 64 + (b 1).toNat / 4
  let crc8 := decide (jcCrc8 (b 0) (b 1) = (b 2).toNat)
  let d := if jcCrc5 (b 3) (b 4) = (b 5).toNat % 32 then
    d.updOdu o (fun x => { x with cnd := (b 3).toNat % 32 * 32 + (b 4).toNat % 32 }) else d
  if crc8 && cmOk x server cm then d.updOdu o (fun x => { x with cm := cm, jcBad := false })
  else
    let d := d.updOdu o (fun x => { x with jcBad := true, jcErr := min (x.jcErr + 1) 255 })
    let d := if x.jcBad then d else d.oduPost o 0x1403
    if crc8 then d.oduAlarm o else d

/-- The frame structure that carries a received tributary ODU is there: the port at which its servers end is in frame (R96). -/
def Dev.oduFramed (d : Dev) (o : Nat) : Bool := match d.oduPort 5 o with | some p => d.portInFrame p | none => true

/-- One server multiframe of a GMP client: the demapper reads the justification bytes received, where there is a frame (R96), and
the mapper sends its own for the client bytes that have arrived. -/
def gmpFrame (o : Nat) (jc : BitVec 48) (bytes : Nat) (d : Dev) : Dev :=
  match d.odu o, d.serverTy o with
  | some x, some sv =>
    if sv = 7 || sv = 4 then (if d.oduFramed o then d.gmpDemap o x sv jc else d).gmpMap o x sv bytes else d
  | _, _ => d

/-- JC1 and JC2 in `cm`, JC3 in `crc8`, JC4 to JC6 in `cnd`, each with the lowest number in its low byte. -/
def execGmpMultiframe (o : Fin 4096) (cm : BitVec 16) (crc8 : Byte) (cnd : BitVec 24) (bytes : Nat) (s : State) : Out1 :=
  onDev (live (gmpFrame o.val (cnd ++ crc8 ++ cm) bytes)) s

/-- Majority of three bits. -/
def majority (a b c : Bool) : Bool := (a && b) || (b && c) || (a && c)

/-- JC on which the AMP demapper acts: the majority of each bit, 10 read as 00. -/
def jcActs (a b c : BitVec 2) : Nat :=
  match majority (a.getLsbD 1) (b.getLsbD 1) (c.getLsbD 1), majority (a.getLsbD 0) (b.getLsbD 0) (c.getLsbD 0) with
  | true, true => 3
  | false, true => 1
  | _, _ => 0

/-- JC that the AMP mapper sends for a fill of its store. -/
def jcSends (fill : Nat) : Nat := if 20 ≤ fill then 1 else if fill ≤ 12 then 3 else 0

/-- Whether NJO and PJO are data under a JC (R154). -/
def njoData (jc : Nat) : Bool := jc = 1
def pjoData (jc : Nat) : Bool := jc = 0 || jc = 1

/-- Client bytes of an ODU1 `p` ppm off its nominal rate that a multiframe of the ODU2 brings beyond its payload, in units of
1 / (952 × 10^6) byte: an ODU1 has 237 / 952 of the ODU2's rate, and the ODTU12 of four frames 15,232 bytes. -/
def ampExcess (p : Int) : Int := 237 * 61184 * (1000000 + p) - 15232 * 952 * 1000000

/-- The justification of a client at the limit of ±20 ppm: a byte more or less whenever its excess has come to one; JC, and the
excess that is left. -/
def ampLimit (acc p : Int) : Nat × Int :=
  let a := acc + ampExcess (clampI (-20) 20 p)
  if 952000000 ≤ a then (1, a - 952000000) else if a ≤ -952000000 then (3, a + 952000000) else (0, a)

/-- The AMP mapper's part of a multiframe (R154): it decides on the fill of its 32-byte store. For a client beyond ±20 ppm it
clamps its justification at the limit and sets RATE_ALARM (R176, R177; DESIGN CHOICE 127). A fill beyond the store is an overflow,
and an empty store an underflow. -/
def ampMap (o : Nat) (acc : Int) (x : AmpFill) (d : Dev) : Dev :=
  let f := min x.fill 32
  let beyond := decide (x.ppm < -20) || decide (20 < x.ppm)
  let (tx, acc) := if beyond then ampLimit acc x.ppm else (jcSends f, 0)
  let d := d.updOdu o (fun y => { y with
    jcTx := tx, ampAcc := acc, ampFill := if tx = 1 then f - 1 else if tx = 3 then min (f + 1) 32 else f })
  let d := d.emit (.ampTx o tx (njoData tx) (pjoData tx))
  let d := if beyond then d.oduAlarm o else d
  d.oduLimit o (x.fill - 32) (if x.fill = 0 then 1 else 0)

/-- The demapper's part: it votes the received JC and takes NJO and PJO where they are data. -/
def ampDemap (o : Nat) (jc : BitVec 2 × BitVec 2 × BitVec 2) (njo pjo : Byte) (d : Dev) : Dev :=
  let rx := jcActs jc.1 jc.2.1 jc.2.2
  (d.updOdu o (fun x => { x with jcRx := rx })).emit
    (.ampRx o ((if njoData rx then [njo] else []) ++ (if pjoData rx then [pjo] else [])))

/-- One AMP multiframe. -/
def ampFrame (o : Nat) (jc : BitVec 2 × BitVec 2 × BitVec 2) (njo pjo : Byte) (fill : AmpFill) (d : Dev) : Dev :=
  if d.serverTy o = some 2 then
    ampMap o (((d.odu o).map Odu.ampAcc).getD 0) fill (if d.oduFramed o then ampDemap o jc njo pjo d else d)
  else d

def execAmpJc (o : Fin 4096) (rx : AmpRx) (fill : AmpFill) (s : State) : Out1 :=
  onDev (live (ampFrame o.val rx.jc rx.njo rx.pjo fill)) s

/-! ### Pointers (R158–R160) -/

/-- The interpreter's table and pointer range: largest offset. -/
structure PtrKind where
  top : Nat
  store : Nat
  setPoint : Nat
  low : Nat
  high : Nat
  bytes : Nat

def ptrAu : PtrKind := { top := 782, store := 48, setPoint := 24, low := 12, high := 36, bytes := 3 }
def ptrTu3 : PtrKind := { top := 764, store := 16, setPoint := 8, low := 4, high := 12, bytes := 1 }
def ptrTu12 : PtrKind := { top := 139, store := 16, setPoint := 8, low := 4, high := 12, bytes := 1 }

/-- A received pointer of one frame, as the interpreter reads it (R158, R159). -/
inductive PtrRx where
  | normal (off : Nat)
  | ndf (off : Nat)
  | ais
  /-- ≥ 3 I bits, ≥ 3 D bits inverted with NDF disabled -/
  | inc | dec
  | invalid
  deriving DecidableEq, Repr

/-- Bits of a number at given places. -/
def bitsAt (n : Nat) (is : List Nat) : Nat := (is.filter (fun i => n.testBit i)).length

/-- NDF of the four N bits: enabled at 1001, disabled at 0110, with one bit in error at most (PRESUMED 104). -/
def ndfOf (n : Nat) : Option Bool :=
  if bitsAt (n ^^^ 9) (List.range 4) ≤ 1 then some true else if bitsAt (n ^^^ 6) (List.range 4) ≤ 1 then some false else none

/-- A pointer word H1/H2 or V1/V2, H1 above H2 (R158): four N bits, two SS bits, ignored, and ten bits that alternate I and D. A
step is the inversion of ≥ 3 I bits, or of ≥ 3 D bits and not of the others, of the offset in force, ≥ 3 frames after its last
change; AIS and LOP have none in force (DEDUCED 104). -/
def ptrRead (x : Ptr) (w : BitVec 16) : PtrRx :=
  let n := w.toNat
  let off := n % 1024
  let i := bitsAt (off ^^^ x.off) [9, 7, 5, 3, 1]
  let dn := bitsAt (off ^^^ x.off) [8, 6, 4, 2, 0]
  if w = 0xFFFF then .ais
  else match ndfOf (n / 4096) with
    | some true => .ndf off
    | some false =>
      if x.st = 1 && decide (2 ≤ x.sinceChange) && decide (3 ≤ i) && decide (dn < 3) then .inc
      else if x.st = 1 && decide (2 ≤ x.sinceChange) && decide (3 ≤ dn) && decide (i < 3) then .dec
      else .normal off
    | none => .invalid

/-- A value out of range is invalid. -/
def ptrClass (top : Nat) : PtrRx → PtrRx
  | .normal o => if o ≤ top then .normal o else .invalid
  | .ndf o => if o ≤ top then .ndf o else .invalid
  | r => r

/-- The runs of consecutive pointers after one more. -/
def ptrRuns (top : Nat) (x : Ptr) (rx : PtrRx) : Ptr :=
  let c := ptrClass top rx
  let x := { x with
    sinceChange := min (x.sinceChange + 1) 3
    aisRun := if c = PtrRx.ais then min (x.aisRun + 1) 15 else 0
    invRun := if c = PtrRx.invalid then min (x.invRun + 1) 15 else 0
    ndfRun := match rx with | .ndf _ => min (x.ndfRun + 1) 15 | _ => 0 }
  match c with
  | .normal o => { x with cand := o, candRun := if x.cand = o then min (x.candRun + 1) 3 else 1 }
  | _ => { x with candRun := 0 }

/-- A new offset. -/
def Ptr.to (x : Ptr) (o : Nat) : Ptr := { x with st := 1, off := o, sinceChange := 0 }

/-- One pointer of one frame. -/
def ptrStep (top : Nat) (x : Ptr) (rx : PtrRx) : Ptr :=
  let c := ptrClass top rx
  let x := ptrRuns top x rx
  let three := x.candRun = 3
  match x.st with
  | 1 =>
    let y := match c with
      | .ndf o => x.to o
      | .normal _ => if three && x.cand ≠ x.off then x.to x.cand else x
      | .inc => { x.to ((x.off + 1) % (top + 1)) with inc := min (x.inc + 1) 255 }
      | .dec => { x.to ((x.off + top) % (top + 1)) with dec := min (x.dec + 1) 255 }
      | _ => x
    if 3 ≤ y.aisRun then { y with st := 2 } else if 8 ≤ y.invRun || 8 ≤ y.ndfRun then { y with st := 3 } else y
  | 2 =>
    match c with
    | .ndf o => x.to o
    | _ => if three then x.to x.cand else if 8 ≤ x.invRun then { x with st := 3 } else x
  | _ => if 3 ≤ x.aisRun then { x with st := 2 } else if three then x.to x.cand else x

/-- The concatenation indication of G.707: NDF enabled with an offset of all ones. -/
def isConc (r : PtrRx) : Bool := r = .ndf 1023

/-- One frame of an AU-4-Nc (R159): an AIS pointer counts only when all N show it. -/
def ptrFrame (top : Nat) (x : Ptr) (rx : PtrRx) (others : List PtrRx) : Ptr :=
  let ais := others.all (fun r => r = .ais)
  let y := if rx = .ais && !ais then { x with aisRun := 0, invRun := 0, ndfRun := 0, candRun := 0, sinceChange := min (x.sinceChange + 1) 3 }
    else ptrStep top x rx
  let runs := (others.zipIdx).map (fun r => if isConc r.1 || r.1 = .ais then 0 else min (x.concRuns.getD r.2 0 + 1) 15)
  let y := { y with concRuns := if runs.all (· = 0) then [] else runs }
  if runs.any (fun n => 8 ≤ n) then { y with st := 3 } else y

/-- Desynchroniser fill `f` of an entry (R166, R167): at 0 or 256 bits it returns to 128, and a slip is counted. -/
def Dev.desyncTo (d : Dev) (e : Nat) (f : Int) : Dev :=
  if f ≤ 0 || 256 ≤ f then
    let d := d.updLo e (fun x => { x with desync := 128, slips := min (x.slips + 1) 255 })
    (d.loPost e 0x1407).loAlarm e
  else d.updLo e (fun x => { x with desync := f.toNat })

/-- The frame structure that carries an entry's tributary unit is there: the port that feeds its VC-4 is in frame (R96). -/
def Dev.loFramed (d : Dev) (e : Nat) : Bool := match d.entryPort e with | some p => d.portInFrame (d.feedPort p) | none => true

/-- A received pointer; a port out of frame brings none (R96). The TU multiframe is read only in NORM (R101). A TU-12 pointer
adjustment changes the buffer of a desynchroniser by 8 bits at once, and its loop receives the change through the leak (R166). -/
def pointerFrame (x : PtrObj) (w : BitVec 16) (others : List (BitVec 16)) (d : Dev) : Dev :=
  match x with
  | .au v =>
    match (d.vc4 v.val).filter (fun y => d.portInFrame (d.feedPort y.port)) with
    | some y =>
      let p := ptrFrame 782 y.ptr (ptrRead y.ptr w) ((others.take (y.concat - 1)).map (ptrRead y.ptr))
      let d := d.updVc4 v.val (fun y => { y with ptr := p })
      (if p.st = 1 then d else d.dropH4 v.val).refresh
    | none => d
  | .tu e =>
    if d.entryExists e.val && d.loFramed e.val then
      let vc3 := d.isVc3 e.val
      let y := d.lo e.val
      let rx := ptrRead y.ptr w
      let p := ptrStep (if vc3 then 764 else 139) y.ptr rx
      let k : Int := if vc3 || y.e1Mode = 0 || p.off = y.ptr.off then 0 else if rx = .dec then 8 else if rx = .inc then -8 else 0
      let d := d.updLo e.val (fun y => { y with
        ptr := p, leak := y.leak + k, leakAt := if y.leak = 0 then d.now else y.leakAt })
      (if k = 0 then d else d.desyncTo e.val ((y.desync : Int) + k)).refresh
    else d

def execPointerFrame (x : PtrObj) (w : BitVec 16) (others : List (BitVec 16)) (s : State) : Out1 :=
  onDev (live (pointerFrame x w others)) s

/-- One outgoing frame of a pointer generator (R160), on the fill of its store; the offset sent after a change of source
follows from the new signal's phase, which is a free value. The frame with NDF counts for the spacing of justifications
(DESIGN CHOICE 61). -/
def ptrGen (k : PtrKind) (x : Ptr) (fill phase : Nat) : Ptr :=
  if x.ndfDue then { x with ndfDue := false, fill := k.setPoint, txOff := phase % (k.top + 1), genGap := 0 }
  else
    let f := min fill k.store
    let gap := min (x.genGap + 1) 4
    if gap < 4 then { x with fill := f, genGap := gap }
    else if f ≤ k.low then { x with fill := min (f + k.bytes) k.store, txOff := (x.txOff + 1) % (k.top + 1), genGap := 0 }
    else if k.high ≤ f then { x with fill := f - k.bytes, txOff := (x.txOff + k.top) % (k.top + 1), genGap := 0 }
    else { x with fill := f, genGap := gap }

def pointerJustification (x : PtrObj) (fill : Nat) (d : Dev) : Dev :=
  let (w, d) := d.draw
  match x with
  | .au v => d.updVc4 v.val (fun y => { y with ptr := ptrGen ptrAu y.ptr fill w.toNat })
  | .tu e =>
    if d.entryExists e.val then
      d.updLo e.val (fun y => { y with ptr := ptrGen (if d.isVc3 e.val then ptrTu3 else ptrTu12) y.ptr fill w.toNat })
    else d

def execPointerJustification (x : PtrObj) (fill : Nat) (s : State) : Out1 := onDev (live (pointerJustification x fill)) s

/-! ### The E1 in C-12 and the desynchroniser (R161–R167) -/

/-- C1 and C2 for a fill of the mapper's store (R163): bit 0 is C1, bit 1 is C2. -/
def cBits (fill : Nat) : Nat := if 20 ≤ fill then 0 else if 13 ≤ fill then 1 else 3

/-- E1 bits that a multiframe carries with these C bits. -/
def e1Bits (c : Nat) : Nat := 1025 - c % 2 - c / 2 % 2

/-- Bits of bytes as they are transmitted, and bytes of bits; a last byte is filled with 0. -/
def packBits : List Bool → List Byte
  | a :: b :: c :: d :: e :: f :: g :: h :: r =>
    BitVec.ofNat 8 ([a, b, c, d, e, f, g, h].foldl (fun n x => 2 * n + x.toNat) 0) :: packBits r
  | _ => []

/-- The C-12 of a multiframe with its C bits and E1 bits (R161): the 34 bytes after each of V5, J2, N2 and K4. C1 and C2 stand
in the bytes after J2, N2 and K4, S1 and S2 around the last; O and R bits are 0. -/
def c12Bytes (c : Nat) (bits : List Bool) : List Byte :=
  let j1 := c.testBit 0
  let j2 := c.testBit 1
  let n := (if j1 then 0 else 1) + (if j2 then 0 else 1)
  let s1 := !j1 && bits.getD 768 false
  let s2 := !j2 && bits.getD (if j1 then 768 else 769) false
  let part := fun (i k : Nat) => (List.range k).map (fun x => bits.getD (i + x) false)
  let cb := [j1, j2, false, false, false, false, false]
  packBits (List.replicate 8 false ++ part 0 256 ++ List.replicate 8 false
    ++ cb ++ [false] ++ part 256 256 ++ List.replicate 8 false
    ++ cb ++ [false] ++ part 512 256 ++ List.replicate 8 false
    ++ cb ++ [s1, s2] ++ part (768 + n) 255 ++ List.replicate 8 false)

/-- The clock of an E1 over one multiframe of 500 µs: 1,024 bits at an offset in ppb, with the fraction of a bit kept in
2^-32 bit: whole bits, and the fraction. -/
def e1Clock (phase : Nat) (ppb : Int) : Nat × Nat :=
  let t := ((phase : Int) + 1024 * 2 ^ 32 + 1024 * 2 ^ 32 * ppb / 1000000000).toNat
  (t / 2 ^ 32, t % 2 ^ 32)

/-- Largest offset that the device accepts, in ppb (R174, R176). -/
def e1Range : Int := 200000

/-- One C-12 multiframe at the mapper of an entry that maps its E1 afresh (R163, R164): the fill that the last one left
decides, and the E1 bits that have come since enter the store: from the desynchroniser, or at the circuit's playout clock
(R174). A store that overflows loses bits, and one that underflows inserts 1 bits (R177). `bits` are the E1 bits that leave. -/
def c12Map (e : Nat) (bits : List Bool) (d : Dev) : Dev :=
  let x := d.lo e
  if x.e1Mode = 2 || x.e1Mode = 3 then
    let c := cBits x.mapFill
    let out := e1Bits c
    let (n, phase) := if x.e1Mode = 3 then e1Clock x.mapPhase (d.circuit e).dev else (x.arrived, x.mapPhase)
    let total := x.mapFill + n
    let ones := x.e1Mode = 3 && (d.circuit e).lops
    let d := d.updLo e (fun x => { x with cBits := c, mapFill := min (total - out) 32, arrived := 0, mapPhase := phase })
    let d := d.emit (.c12 e (c12Bytes c ((List.range out).map (fun i => ones || bits.getD i true))))
    if 32 + out < total || total < out then (d.emit (.rateLimit false e (total - out - 32) (out - total))).loAlarm e else d
  else d

def execC12MultiframeMap (e : Fin 8064) (bits : List Bool) (s : State) : Out1 := onDev (live (c12Map e.val bits)) s

/-- The E1 bits that a multiframe delivers (R161, R162): with the majority of the three copies of C1 and of C2, S1 and S2 are
data or are discarded. -/
def c12Read (bs : List Byte) : List Bool :=
  let b := fun (i : Nat) => bs.getD i 0
  let vote := fun (i : Nat) => majority ((b 34).getLsbD i) ((b 68).getLsbD i) ((b 102).getLsbD i)
  let part := fun (i k : Nat) => (List.range k).flatMap (fun x => bitsOfByte (b (i + x)))
  part 1 32 ++ part 35 32 ++ part 69 32 ++ (if vote 7 then [] else [(b 102).getLsbD 0])
    ++ (if vote 6 then [] else [(b 103).getLsbD 7]) ++ (bitsOfByte (b 103)).drop 1 ++ part 104 31

/-- Pointer bits not yet leaked after some time: 1 bit per 14 ms (R166). -/
def Lo.leakTo (x : Lo) (now : Nat) : Lo :=
  let n := (now - x.leakAt) / 14000000
  if x.leak = 0 || n = 0 then x
  else { x with
    leak := if x.leak < 0 then min 0 (x.leak + (n : Int)) else max 0 (x.leak - (n : Int))
    leakAt := x.leakAt + 14000000 * n }

/-- The desynchroniser after `n` bits have entered its buffer: its loop, steered on the fill less what has still to leak, sets
the oscillator (R166), within ±200 ppm (R176). The loop filter is free (DESIGN CHOICE 107). With `tsu` the oscillator stands at
2,048 kbit/s (R165). It gives the bits that leave, and whether the loop asks for more than the range. -/
def Lo.desyncStep (x : Lo) (n : Nat) (tsu : Bool) : Lo × Nat × Bool :=
  let loop := if tsu then x.loop else Config.loopNext 0 ((x.desync : Int) + n - 1024 - 128 - x.leak) x.loop
  let ppb := if tsu then 0 else Config.loopPpb loop
  let (sent, osc) := e1Clock x.osc (clampI (-e1Range) e1Range ppb)
  ({ x with loop := loop, osc := osc, arrived := x.arrived + (if x.e1Mode = 2 then sent else 0) }, sent,
    decide (ppb < -e1Range) || decide (e1Range < ppb))

/-- One C-12 multiframe at the demapper: its E1 bits, or all ones at 2,048 kbit/s of the TSU clock while the entry's E1 is AIS
(R165), go to the framer and the desynchroniser (R162, R166, R167). A port out of frame brings none (R96). -/
def c12Demap (e : Nat) (bytes : List Byte) (d : Dev) : Dev :=
  if (d.lo e).e1Mode = 0 then d
  else
    let ais := d.e1Ais e
    let bits := if ais then List.replicate 1024 true else if d.loFramed e then c12Read bytes else []
    let (x, sent, beyond) := ((d.lo e).leakTo d.now).desyncStep bits.length ais
    let d := (d.updLo e (fun _ => x)).emit (.e1 e bits ais)
    let d := if beyond then d.loAlarm e else d
    d.desyncTo e ((x.desync : Int) + bits.length - sent)

/-- The bytes of a multiframe after V5 (`v`), after J2 (`j`), and after N2 and K4 (`nk`). -/
def execC12MultiframeDemap (e : Fin 8064) (v j nk : List Byte) (s : State) : Out1 :=
  onDev (live (c12Demap e.val (v ++ j ++ nk))) s

end Sys2Proof.Machine
end

