-- ==== Sys2Proof/Machine/Packet.lean ====
section
/-! DEFINITION. The packet path (chapter 09): the packet buffer and its queues, policers, the scheduling hierarchy with its
credits and gates, the GFP-F mapper of its packet ODUs (R168), sampling, and QUEUE_CFG, SHAPER_CFG, POLICER_CFG and
GATE_CFG. -/

namespace Sys2Proof.Machine

/-! ### Packet buffer and queues (R257–R260) -/

/-- Cells of a frame of length L. -/
def cellsOf (len : Nat) : Nat := (len - 4 + 63) / 64

/-- CELLS_q. -/
def PQueue.cells (q : PQueue) : Nat := (q.frames.map (fun f => cellsOf f.len)).sum

/-- Cells of the pool. -/
def Dev.poolCells (d : Dev) : Nat := 524288 - (if d.reserve.region = 0 then 16 * d.reserve.size else 0)

/-- FREE: free pool cells. -/
def Dev.freeCells (d : Dev) : Int := (d.poolCells : Int) - ((d.pkt.queues.map (fun x => x.2.cells)).sum : Nat)

/-- Σ RESERVE_q. -/
def Dev.reservedCells (d : Dev) : Nat := (d.pkt.queues.map (fun x => x.2.reserve)).sum

/-- shared_free. -/
def Dev.sharedFree (d : Dev) : Int :=
  d.freeCells - ((d.pkt.queues.map (fun x => x.2.reserve - x.2.cells)).sum : Nat)

/-- POOL_EMPTY: shared_free has reached 0 since it was `before`. -/
def Dev.poolWatch (d : Dev) (before : Int) : Dev :=
  if 0 < before && d.sharedFree ≤ 0 then d.raise 0x900004 0 0x1701 [] else d

/-- Base of a queue's window. -/
def aPq (q off : Nat) : Nat := 0x910000 + 0x20 * q + off

/-- The bank of each plane that holds a cell of the packet buffer (R17, R257; the layout is DESIGN CHOICE 108). -/
def cellBank (n : Nat) (pl : Fin 2) : MemId := .packet ⟨32 * pl.val + n % 32, by omega⟩

/-- The places of the words of cells, in order: eight words a cell. -/
def cellPlaces (cells : List Nat) : List ((Fin 2 → MemId) × Nat) :=
  cells.flatMap (fun n => (List.range 8).map (fun j => (cellBank n, 8 * (n / 32 % 16384) + j)))

/-- The lowest `k` cells from `n` on that are not in use; the first number bounds the search. -/
def lowestFree (used : List Nat) : Nat → Nat → Nat → List Nat
  | 0, _, _ => []
  | _, 0, _ => []
  | fuel + 1, k + 1, n =>
    if used.contains n then lowestFree used fuel (k + 1) (n + 1) else n :: lowestFree used fuel k (n + 1)

/-! ### The jitter buffers' part of the stores (R17, R175; the layout is DESIGN CHOICE 112) -/

/-- The places of the 64 words of a block of the jitter reserve. In REGION 0 block k takes eight cells, counted down from the last
cell of the packet buffer; in REGION 1 a part of a merge bank, counted down from bank 31 of plane N and bank 63 of plane S. -/
def blockPlaces (region k : Nat) : List ((Fin 2 → MemId) × Nat) :=
  (List.range 64).map (fun j =>
    if region = 0 then
      let c := 524287 - 8 * k - j / 8
      (cellBank c, 8 * (c / 32) + j % 8)
    else
      (fun pl => .merge ⟨32 * pl.val + (31 - k / 4096), by omega⟩, k % 4096 * 64 + j))

/-- The blocks that circuits hold. -/
def Dev.usedBlocks (d : Dev) : List Nat := d.circuits.flatMap (fun x => x.2.blocks)

/-- The cells that hold frames. -/
def Dev.frameCells (d : Dev) : List Nat := d.pkt.queues.flatMap (fun x => x.2.frames.flatMap (fun f => f.cells))

/-- The cells that hold frames or jitter buffers. -/
def Dev.usedCells (d : Dev) : List Nat :=
  d.frameCells ++ (if d.reserve.region = 0 then
    d.usedBlocks.flatMap (fun k => (List.range 8).map (fun i => 524287 - 8 * k - i)) else [])

/-- The lowest `n` blocks that are free. -/
def Dev.freeBlocks (d : Dev) (n : Nat) : List Nat :=
  let used := d.usedBlocks ++ (if d.reserve.region = 0 then d.frameCells.map (fun c => (524287 - c) / 8) else [])
  lowestFree used (used.length + n) n 0

/-! ### Admission (R258, R259) -/

/-- A frame takes its place in its queue: after those of earlier cell boundaries, and in the order of R258 among those of its
own. -/
def placeFrame (f : PFrame) : List PFrame → List PFrame
  | [] => [f]
  | x :: xs => if x.at_ = f.at_ && f.key < x.key then f :: x :: xs else x :: placeFrame f xs

/-- Queue q admits a frame of c cells (R259). A queue stopped by an urgent word admits none (R395). -/
def Dev.admits (d : Dev) (q c : Nat) : Bool :=
  let x := d.pq q
  let now := x.cells
  x.enable && !x.stopped && decide (now + c ≤ x.limit)
    && (decide (now + c ≤ x.reserve) || decide (((now + c : Nat) : Int) - (max x.reserve now : Nat) ≤ d.sharedFree))

/-- A frame is tail-dropped. -/
def Dev.tailDrop (d : Dev) (q : Nat) : Dev :=
  let d := d.updPq q (fun x => if x.sampleEn then { x with secDrops := x.secDrops + 1 } else x)
  (d.count (aPq q 0x10) 0 16).raise (aPq q 0xC) 0 0x1710 (le 2 q)

/-- A frame is admitted to queue q, or tail-dropped. -/
def Dev.admitFrame (d : Dev) (q : Nat) (f : PFrame) : Dev :=
  if d.admits q (cellsOf f.len) then d.updPq q (fun x => { x with frames := placeFrame f x.frames }) else d.tailDrop q

/-- A frame among others with their queues, by its key. -/
def byKey (x : Nat × PFrame) : List (Nat × PFrame) → List (Nat × PFrame)
  | [] => [x]
  | y :: ys => if x.2.key < y.2.key then x :: y :: ys else y :: byKey x ys

/-- A frame of this instant that the order of R258 puts behind `key`. -/
def Dev.isBehind (d : Dev) (key : Nat) (f : PFrame) : Bool := decide (f.at_ = d.now) && decide (key < f.key)

/-- Those frames with their queues, in order. -/
def Dev.behind (d : Dev) (key : Nat) : List (Nat × PFrame) :=
  (d.pkt.queues.flatMap (fun x => (x.2.frames.filter (d.isBehind key)).map (fun f => (x.1, f)))).foldl (fun l x => byKey x l) []

/-- The queues without those frames. -/
def Dev.withoutBehind (d : Dev) (key : Nat) : Dev :=
  (d.behind key).foldl (fun d x => d.updPq x.1 (fun y => { y with frames := y.frames.filter (fun f => !d.isBehind key f) })) d

/-- Offers a frame that the logic of `slice` delivers to a queue: admitted, with its bytes stored in the banks, or tail-dropped
(R259). `bytes` are the frame without its FCS, `bad` numbers its words that arrive with P = 1 or bad parity. `key` is its order
of R258: frames of the same instant that stand behind it are decided after it; one that has been dropped stays dropped (DESIGN
CHOICE 108). -/
def Dev.offer (d : Dev) (q : Nat) (bytes : List Byte) (bad : List Nat) (slice : Option Nat) (key : Nat) (mem : List Host.Cell) :
    Dev × List Host.Cell :=
  let c := cellsOf (bytes.length + 4)
  let used := d.usedCells
  let cells := lowestFree used (used.length + c) c 0
  let f : PFrame := { len := bytes.length + 4, cells := cells, at_ := d.now, key := key }
  let e := d.withoutBehind key
  (((d.behind key).foldl (fun d x => d.admitFrame x.1 x.2) (e.admitFrame q f)).poolWatch d.sharedFree,
    if e.admits q c then d.putBytes ((cellPlaces cells).take (wordsFor bytes.length)) bytes bad slice mem else mem)

/-! ### Policers (R256) -/

/-- A frame meets a policer (0xFFFF: none): whether it passes. -/
def Dev.police (d : Dev) (n : Nat) : Bool × Dev :=
  if n = 0xFFFF then (true, d)
  else
    let x := d.policer n
    if x.rate = 0 then (true, d.count32 (0x940000 + 0x10 * n))
    else if 65536 ≤ x.credit then
      (true, (d.updPolicer n (fun x => { x with credit := x.credit - 65536 })).count32 (0x940000 + 0x10 * n))
    else (false, d.count32 (0x940004 + 0x10 * n))

/-! ### Credit (R265–R267) -/

/-- One 8 ns update of an accruing credit: the new credit and ACC. -/
def accrue (rate cap acc : Nat) (credit : Int) : Int × Nat :=
  let a := acc + rate * 524288
  (min (credit + (a / 10 ^ 12 : Nat)) ((cap * 65536 : Nat) : Int), a % 10 ^ 12)

/-- The queue of service q holds a frame. -/
def Dev.holds (d : Dev) (q : Nat) : Bool := !(d.pq q).frames.isEmpty

/-- Any service of subscriber s holds a frame. -/
def Dev.subHolds (d : Dev) (s : Nat) : Bool := (List.range 8).any (fun v => d.holds (8 * s + v))

/-- Subscribers attached to scheduler port n, in ascending order. -/
def Dev.attached (d : Dev) (n : Nat) : List Nat :=
  (d.pkt.shapers.filter (fun x => x.1 / 4096 = 1 && x.2.parent = n)).map (fun x => x.1 % 4096)

/-- Whether a shaper accrues. -/
def Dev.accrues (d : Dev) (key : Nat) : Bool :=
  match key / 4096 with
  | 0 => d.holds (key % 4096)
  | 1 => d.subHolds (key % 4096)
  | _ => (d.attached (key % 4096)).any d.subHolds

/-- The 8 ns update of every shaper and policer, when it is due. -/
def shaperUpdate (d : Dev) : Dev :=
  if d.pkt.updated + 8 ≤ d.now then
    let d := { d with pkt.updated := d.pkt.updated + 8 }
    let d := (d.pkt.shapers.map (fun x => x.1)).foldl (fun d k =>
      let isOn := d.accrues k
      d.updShaper k (fun x =>
        if isOn then { x with credit := (accrue x.rate x.cap x.acc x.credit).1, acc := (accrue x.rate x.cap x.acc x.credit).2 }
        else if 0 < x.credit then { x with credit := 0, acc := 0 } else x)) d
    (d.pkt.policers.map (fun x => x.1)).foldl (fun d k => d.updPolicer k (fun x =>
      if x.rate = 0 then x
      else { x with credit := (accrue x.rate x.cap x.acc x.credit).1, acc := (accrue x.rate x.cap x.acc x.credit).2 })) d
  else d

def execShaperUpdate (s : State) : Out1 := onDev (live shaperUpdate) s

/-! ### Gates (R268–R272) -/

/-- The packet ODU that scheduler port n serves: its GFP_PORT is n. -/
def Dev.gfpOdu (d : Dev) (n : Nat) : Option Nat :=
  (d.odus.find? (fun x => match x.2 with | some o => o.kind = 2 && o.gfpPort = n | none => false)).map (fun x => x.1)

/-- The Ethernet port that scheduler port n targets. -/
def Dev.schEth (d : Dev) (n : Nat) : Option Nat :=
  let t := (d.shaper (2 * 4096 + n)).target
  if 2 ^ 15 ≤ t then some (t % 64) else none

/-- OVH of R270. -/
def Dev.overheadOf (d : Dev) (n : Nat) : Nat :=
  match d.schEth n with
  | some _ => 24
  | none => match (d.gfpOdu n).bind d.odu with | some o => if o.flags / 2 % 2 = 1 then 16 else 12 | none => 12

/-- Nothing is gated: one window with mask 0xFF. -/
def Gates.open_ (g : Gates) : Bool := g.starts.length = 1 && g.masks.headD 0 % 256 = 255

/-- Length of window w. -/
def Gates.windowLen (g : Gates) (w : Nat) : Nat := g.starts.getD (w + 1) 125000 - g.starts.getD w 0

/-- A frame of length L fits in `ns`: t ≤ ns, exactly (R270). -/
def Gates.fits (g : Gates) (len ovh ns : Nat) : Bool := (len - 4 + ovh) * 8000 ≤ ns * g.lineRate

/-- The head frame of service v fits in no window that admits it (R271). -/
def Gates.oversize (g : Gates) (v len ovh : Nat) : Bool :=
  !g.open_ && (List.range g.starts.length).all (fun w =>
    !((BitVec.ofNat 8 (g.masks.getD w 0)).getLsbD v && g.fits len ovh (g.windowLen w)))

/-- A frame of service v may start at `u` ns of the cycle. -/
def Gates.admits (g : Gates) (v len ovh u : Nat) : Bool :=
  g.open_ || (List.range g.starts.length).any (fun w =>
    let lo := g.starts.getD w 0
    let hi := g.starts.getD (w + 1) 125000
    decide (lo ≤ u) && decide (u < hi) && (BitVec.ofNat 8 (g.masks.getD w 0)).getLsbD v && g.fits len ovh (hi - u))

/-- Phase of the tick in force, and the elapsed ns since the last instant at which a gate cycle starts. -/
def Dev.cycleAge (d : Dev) : Nat :=
  if d.pkt.ref = 1 then (d.now - d.xc.tickAt) % 125000
  else ((d.timeNs - (d.pkt.gatePhase : Int)) % 125000).toNat

/-- A port's gate cycle starts at an instant: windows whose command was there take effect (R272). -/
def SchPort.startCycle (x : SchPort) (at_ : Nat) : SchPort :=
  if at_ ≤ x.cycle then x
  else match x.next with
    | some (g, t) => if t ≤ at_ then { x with cycle := at_, gates := g, next := none } else { x with cycle := at_ }
    | none => { x with cycle := at_ }

/-- A gate cycle of a port starts: the settings of commands that were there at its start take effect (R272). A new reference takes
effect as the cycles of all ports start, which they do together. -/
def gateCycle (n : Nat) (d : Dev) : Dev :=
  let at_ := d.now - d.cycleAge
  if (d.schP n).cycle < at_ then
    let d := d.updSch n (fun x => x.startCycle at_)
    match d.pkt.nextRef with
    | some (r, ph, t) =>
      if t ≤ at_ then
        let d := (d.pkt.sch.map (fun x => x.1)).foldl (fun d m => d.updSch m (fun x => x.startCycle at_)) d
        { d with pkt.ref := r, pkt.gatePhase := ph, pkt.nextRef := none }
      else d
    | none => d
  else d

def execGateCycleStart (n : Fin 128) (s : State) : Out1 := onDev (live (gateCycle n.val)) s

/-! ### The scheduler (R261–R264, R271) -/

/-- MAC rate of a format in Gbit/s. -/
def macRate : Nat → Nat
  | 0x20 => 10 | 0x21 => 25 | 0x22 => 50 | 0x23 => 100 | 0x24 => 200 | _ => 400

/-- ns that a frame takes at the pacing rate with its 20 bytes of preamble and gap (R264). -/
def pacing (format len : Nat) : Nat := ((len + 20) * 80000 + macRate format * 9997 - 1) / (macRate format * 9997)

/-- Discards the head frames of a queue that no window can hold; the number bounds the work (R271). -/
def Dev.dropOversize (n q : Nat) : Nat → Dev → Dev
  | 0, d => d
  | k + 1, d =>
    match (d.pq q).frames with
    | f :: rest =>
      if (d.schP n).gates.oversize (q % 8) f.len (d.overheadOf n) then
        let d := d.updPq q (fun x => { x with frames := rest })
        Dev.dropOversize n q k ((d.count (aPq q 0x10) 16 16).raise (aPq q 0xC) 1 0x1711 (le 2 q))
      else d
    | [] => d

/-- Shaper permits a frame. -/
def Shaper.funded (x : Shaper) : Bool := x.rate = 0 || decide (65536 ≤ x.credit)

/-- Service q of scheduler port n is ready (R263). -/
def Dev.serviceReady (d : Dev) (n q : Nat) : Bool :=
  match (d.pq q).frames with
  | f :: _ => !(d.pq q).stopped && (d.shaper q).funded
      && (d.schP n).gates.admits (q % 8) f.len (d.overheadOf n) d.cycleAge
  | [] => false

/-- The subscriber may borrow. -/
def Shaper.mayBorrow (x : Shaper) : Bool := x.borrow && decide (-((x.debt * 65536 : Nat) : Int) ≤ x.credit - 65536)

/-- Weighted round robin: the member of the set whose turn it is, and the frames it has then sent in this turn. -/
def wrr (set : List Nat) (turn sent weight : Nat) : Option (Nat × Nat) :=
  if set.contains turn && decide (sent < weight) then some (turn, sent + 1)
  else match set.find? (fun s => decide (turn < s)) with
    | some s => some (s, 1)
    | none => set.head?.map (fun s => (s, 1))

/-- Charges a shaper for a frame. -/
def Dev.charge (d : Dev) (key : Nat) : Dev :=
  d.updShaper key (fun x => if x.rate = 0 then x else { x with credit := x.credit - 65536 })

/-- A frame as it leaves, with its FCS (R250): the CRC-32 of R57, least significant byte first. -/
def withFcs (bs : List Byte) : List Byte := bs ++ le 4 (crcOf 1 bs).toNat

/-- Scheduler port n may send: its target takes a frame and its shaper permits one. -/
def Dev.portMaySend (d : Dev) (n : Nat) : Bool :=
  (d.shaper (2 * 4096 + n)).funded && (match d.schEth n with
    | some p => isEth (d.port p).format && (d.port p).astate = .aligned && !(d.port p).onHold
        && !tget false d.pkt.locFault p && !tget false d.pkt.remFault p && decide ((d.schP n).freeAt ≤ d.now)
    | none => (d.gfpOdu n).isSome)

/-! ### The GFP-F mapper (R168, R264) -/

/-- Bytes of a number, most significant first, as packets and GFP frames carry them. -/
def be (n x : Nat) : List Byte := (le n x).reverse

/-- The CRC-16 of a core or type header (G.7041; PRESUMED 106). -/
def gfpHec (bs : List Byte) : Nat := bitCrc 16 0x1021 (bs.flatMap bitsOfByte)

/-- The payload FCS of G.7041 (PRESUMED 106): CRC-32, bit 1 of each byte first, from all ones, complemented. -/
def gfpFcs (bs : List Byte) : Nat :=
  2 ^ 32 - 1 - bitCrc 32 0x04C11DB7 ((bs.flatMap bitsOfByte).zipIdx.map (fun x => x.1 != decide (x.2 < 32)))

/-- Four bytes exclusive-ORed with the sequence of G.7041. -/
def gfpScramble (h : List Byte) : List Byte := (h.zip [0xB6, 0xAB, 0x31, 0xE0]).map (fun x => x.1 ^^^ x.2)

/-- A core header: PLI and cHEC. -/
def gfpCoreHead (pli : Nat) : List Byte := gfpScramble (be 2 pli ++ be 2 (gfpHec (be 2 pli)))

/-- The x^43 + 1 self-synchronous scrambler over bits: the scrambled bits, and its state. -/
def scramble (s : BitVec 43) (bits : List Bool) : List Bool × BitVec 43 :=
  let r := bits.foldl (fun (x : List Bool × BitVec 43) b =>
    let o := b != x.2.getLsbD 42
    (o :: x.1, (x.2 <<< 1) ||| (if o then 1 else 0))) ([], s)
  (r.1.reverse, r.2)

/-- The GFP frame of an Ethernet frame with its FCS (R168), and the scrambler after it: PTI 000, PFI, EXI 0000, UPI 0x01. -/
def gfpBuild (pfcs : Bool) (frame : List Byte) (s : BitVec 43) : List Byte × BitVec 43 :=
  let ty : List Byte := [if pfcs then 0x10 else 0, 1]
  let area := ty ++ be 2 (gfpHec ty) ++ frame ++ (if pfcs then be 4 (gfpFcs frame) else [])
  let (bits, s) := scramble s (area.flatMap bitsOfByte)
  (gfpCoreHead area.length ++ packBits bits, s)

/-- Bytes still in the store of a GFP-F mapper, which drains at the rate of its payload. -/
def Dev.gfpLevel (d : Dev) (o : Odu) : Nat :=
  o.gfpFill - (d.now - o.gfpFillAt) * 15232 * (oduPeriod o).2 / (oduPeriod o).1

/-- Bytes that a frame of length L takes in the store. -/
def gfpNeed (o : Odu) (len : Nat) : Nat := len + (if o.flags.testBit 1 then 12 else 8)

/-- The GFP-F mapper has room for a frame of length L; an Ethernet port's frames need none (R264). -/
def Dev.gfpRoom (d : Dev) (n len : Nat) : Bool :=
  match d.schEth n with
  | some _ => true
  | none => match (d.gfpOdu n).bind d.odu with
    | some o => d.gfpLevel o = 0 || decide (d.gfpLevel o + gfpNeed o len ≤ Config.gfpStore)
    | none => false

/-- Words of a packet that hold a byte of the `bad` words of a part that stands at byte `off` of it (R42). -/
def badIn (bad : List Nat) (off : Nat) : List Nat := (bad.flatMap (fun b => [(off + 8 * b) / 8, (off + 8 * b + 7) / 8])).eraseDups

/-- Words of the part from byte `off` on, `n` bytes long, that hold a byte of a packet's `bad` words (R42). -/
def badOf (bad : List Nat) (off n : Nat) : List Nat :=
  (List.range (wordsFor n)).filter (fun j => bad.contains ((off + 8 * j) / 8) || bad.contains ((off + min (8 * j + 7) (n - 1)) / 8))

/-- Words with P = 1 of a packet with a check sequence in its bytes from `off` to `off + n - 1`, computed from the others (R42). -/
def badWithCheck (bad : List Nat) (off n : Nat) : List Nat :=
  if bad.isEmpty then [] else (bad ++ [off / 8, (off + n - 1) / 8]).eraseDups

/-- The packet ODU that scheduler port n serves maps a frame; `bad` are the frame's words with P = 1. -/
def Dev.gfpSend (d : Dev) (n : Nat) (frame : List Byte) (bad : List Nat) : Dev :=
  match d.gfpOdu n with
  | some k => match d.odu k with
    | some o =>
      let (bytes, scr) := gfpBuild (o.flags.testBit 1) frame o.scr
      let bad := badIn bad 8
      let bad := if o.flags.testBit 1 then badWithCheck bad (8 + frame.length) 4 else bad
      (d.updOdu k (fun x => { x with
        scr := scr, gfpFill := d.gfpLevel o + gfpNeed o frame.length, gfpFillAt := d.now })).emit (.gfp k bytes bad)
    | none => d
  | none => d

/-- A packet ODU whose mapper has no client frame sends an idle frame: a core header with PLI 0 (R168). -/
def Dev.gfpIdle (d : Dev) (n : Nat) : Dev :=
  match d.schEth n, d.gfpOdu n with
  | none, some k => match d.odu k with
    | some o => if d.gfpLevel o = 0 then d.emit (.gfp k (gfpCoreHead 0) []) else d
    | none => d
  | _, _ => d

/-! ### A frame leaves (R250, R257, R263) -/

/-- The slice whose logic sends the frames of scheduler port n (R340). -/
def Dev.schSlice (d : Dev) (n : Nat) : Option Nat :=
  match d.schEth n with
  | some p => some (p / 8)
  | none => (d.gfpOdu n).map (fun o => d.pointSlice (mpKeyOf 2 0 o))

/-- The head frame of service v of subscriber s leaves its queue: its words are read from the banks of both planes, and its
FCS is computed afresh from them, poisoned with them. -/
def Dev.sendFrame (d : Dev) (n s v : Nat) (borrowed : Bool) (mem : List Host.Cell) : Dev × List Host.Cell :=
  let q := 8 * s + v
  match (d.pq q).frames with
  | f :: rest =>
    let d := d.updPq q (fun x => { x with frames := rest })
    let d := ((d.charge q).charge (4096 + s)).charge (2 * 4096 + n)
    let d := if borrowed then d.count32 (0x930004 + 0x10 * s) else d
    let d := d.count32 (0x934004 + 0x10 * n)
    let d := match d.schEth n with
      | some p => (d.count32 (aPort p 0x20C)).updSch n (fun x => { x with freeAt := d.now + pacing (d.port p).format f.len })
      | none => d
    let t := readBytes d mem ((cellPlaces f.cells).take (wordsFor (f.len - 4))) (d.schSlice n)
    let frame := withFcs (t.bytes.take (f.len - 4))
    let bad := badWithCheck t.bad (f.len - 4) 4
    let d := t.d.emit (.frame n frame bad)
    (if (d.schEth n).isNone then d.gfpSend n frame bad else d, t.mem)
  | [] => (d, mem)

/-- The lowest-numbered ready service of a subscriber. -/
def Dev.readyService (d : Dev) (n s : Nat) : Option Nat := (List.range 8).find? (fun v => d.serviceReady n (8 * s + v))

/-- The attached subscribers with a ready service that are funded, and those that may borrow (R263). -/
def Dev.schSets (d : Dev) (n : Nat) : List Nat × List Nat :=
  let c := (d.attached n).filter (fun s => (d.readyService n s).isSome)
  (c.filter (fun s => (d.shaper (4096 + s)).funded), c.filter (fun s => (d.shaper (4096 + s)).mayBorrow))

/-- The port's choice of R263: subscriber, frames it has then sent in its turn, service, and whether it borrows. -/
def Dev.nextFrame (d : Dev) (n : Nat) : Option (Nat × Nat × Nat × Bool) :=
  let (f, b) := d.schSets n
  let x := d.schP n
  let pick := if f.isEmpty then wrr b x.turnB x.sentB (d.shaper (4096 + x.turnB)).weight
    else wrr f x.turnF x.sentF (d.shaper (4096 + x.turnF)).weight
  pick.bind (fun p => (d.readyService n p.1).map (fun v => (p.1, p.2, v, f.isEmpty)))

/-- A subscriber that has begun its turn and has left its set gives the turn up (R263). -/
def SchPort.leave (x : SchPort) (f b : List Nat) : SchPort :=
  { x with sentF := if x.sentF ≠ 0 && !f.contains x.turnF then 256 else x.sentF
           sentB := if x.sentB ≠ 0 && !b.contains x.turnB then 256 else x.sentB }

/-- The turn passes to the chosen subscriber. -/
def SchPort.take (x : SchPort) (s k : Nat) (borrowed : Bool) : SchPort :=
  if borrowed then { x with turnB := s, sentB := k } else { x with turnF := s, sentF := k }

/-- Frames of the attached services that fit in no window are discarded; a service that an urgent word has stopped keeps its
frames (R395). -/
def Dev.dropAll (d : Dev) (n : Nat) : Dev :=
  ((d.attached n).flatMap (fun s => (List.range 8).map (fun v => 8 * s + v))).foldl (fun d q =>
    if (d.pq q).stopped then d else Dev.dropOversize n q (d.pq q).frames.length d) d

/-- Scheduler port n may start a frame: the decision of R263. Where no frame starts, the mapper of a packet ODU sends idle
frames. -/
def frameStart (n : Nat) (d : Dev) (mem : List Host.Cell) : Dev × List Host.Cell :=
  let d := d.dropAll n
  if !d.portMaySend n then (d.gfpIdle n, mem)
  else
    let (f, b) := d.schSets n
    let d := d.updSch n (fun x => x.leave f b)
    match d.nextFrame n with
    | some (s, k, v, borrowed) =>
      if d.gfpRoom n (((d.pq (8 * s + v)).frames.head?.map PFrame.len).getD 0) then
        (d.updSch n (fun x => x.take s k borrowed)).sendFrame n s v borrowed mem
      else (d, mem)
    | none => (d.gfpIdle n, mem)

def execFrameStart (n : Fin 128) (s : State) : Out1 := onMem (liveMem (frameStart n.val)) s

/-! ### Sampling (R273, R274) -/

/-- One sample of a queue, when an instant of its grid has come. -/
def queueSample (q : Nat) (d : Dev) : Dev :=
  let x := d.pq q
  let age := d.tsu.ns % (2 ^ x.k * 1000)
  if x.sampleEn && decide (x.sampAt ≤ d.now - age) then
    let hol := match x.frames with | f :: _ => d.now - f.at_ | [] => 0
    d.updPq q (fun x => { x with samples := (x.frames.length, hol) :: x.samples, sampAt := d.now - age + 1 })
  else d

def execQueueSample (q : Fin 4096) (s : State) : Out1 := onDev (live (queueSample q.val)) s

/-- Minimum, maximum and mean of a quantity as three 32-bit values; with no sample the manual states none, so they are free. -/
def Dev.threeOf (d : Dev) (xs : List Nat) : List Byte × Dev :=
  match xs with
  | [] =>
    let (a, d) := d.draw
    let (b, d) := d.draw
    (le 8 a.toNat ++ le 4 b.toNat, d)
  | x :: rest =>
    let sat := fun (v : Nat) => le 4 (min v (2 ^ 32 - 1))
    (sat (rest.foldl min x) ++ sat (rest.foldl max x) ++ sat ((x :: rest).sum / (x :: rest).length), d)

/-- The record of the past second. -/
def queueRecord (q : Nat) (d : Dev) : Dev :=
  let x := d.pq q
  let now := d.tsu.sec.toNat
  if x.sampleEn && decide (x.recSec ≠ now) then
    let (a, d) := d.threeOf (x.samples.map (fun s => s.1))
    let (b, d) := d.threeOf (x.samples.map (fun s => s.2))
    let body := [0x40, 0x01] ++ le 2 q ++ le 1 x.k ++ le 1 (if x.suspect then 1 else 0) ++ le 2 0 ++ le 6 (now - 1) ++ le 2 0
      ++ le 4 x.samples.length ++ a ++ b ++ le 4 (min x.secDrops (2 ^ 32 - 1)) ++ le 8 0
    let d := d.updPq q (fun x => { x with samples := [], secDrops := 0, suspect := false, recSec := now })
    d.stat body
  else d

def execQueueSampleRecord (q : Fin 4096) (s : State) : Out1 := onDev (live (queueRecord q.val)) s

/-! ### QUEUE_CFG (R260, R275) -/

/-- Whether an INGRESS exists (R248). -/
def Dev.ingressExists (d : Dev) (i : Nat) : Bool :=
  match i / 4096 with
  | 0 => decide (i ≤ 63) && isEth (d.port i).format
  | 1 => match d.odu (i % 4096) with | some o => o.kind = 2 && o.payload = 1 | none => false
  | _ => false

/-- INGRESS lies in its range. -/
def ingressRange (off i : Nat) : Check := (off, decide (i ≤ 63) || (decide (4096 ≤ i) && decide (i < 8192)))

/-- POLICER lies in its range. -/
def policerRange (off p : Nat) : Check := (off, decide (p ≤ 4095) || p = 0xFFFF)

/-- Section 0. -/
def queueCfg0 (c : Desc) (d : Dev) : Ran :=
  let q := c.u16 2
  let x := d.pq q
  let limit := c.u32 4
  let reserve := c.u32 8
  checked [atMost 1 (c.u8 1) 3, atMost 2 q 4095, atMost 4 limit 524288, atMost 8 reserve limit, atMost 12 (c.u8 12) 10
          , c.zeros 13 55] <|
  need (decide (reserve ≤ x.reserve) || decide (d.reservedCells - x.reserve + reserve ≤ d.poolCells)) (conflictDone 0x16 0) <|
  let y := { x with enable := c.bit 1 0, sampleEn := c.bit 1 1, limit := limit, reserve := reserve, k := c.u8 12 }
  if y = x then ran d
  else
    let y := if y.sampleEn && !x.sampleEn then { y with samples := [], secDrops := 0, recSec := d.tsu.sec.toNat, sampAt := d.now }
      else y
    ran ((d.updPq q (fun _ => { y with suspect := y.sampleEn })).poolWatch d.sharedFree)

/-- Two valid entries have the same key (R254). -/
def Flow.sameKey (a b : Flow) : Bool :=
  a.ingress = b.ingress && a.tagged = b.tagged && a.vid = b.vid && a.pcpAny = b.pcpAny && (a.pcpAny || a.pcp = b.pcp)

/-- Fields of a flow entry as OP 2 returns them. -/
def Flow.image (x : Flow) : List Byte :=
  le 2 x.ingress ++ le 2 (x.vid + (if x.tagged then 4096 else 0))
    ++ le 1 (x.pcp + (if x.pcpAny then 8 else 0) + (if x.valid then 16 else 0)) ++ le 1 0
    ++ le 2 x.flowTag ++ le 2 x.queue ++ le 2 x.policer

/-- Section 1. An entry that is not valid reads with every field at its reset value (DESIGN CHOICE 124). -/
def queueCfg1 (c : Desc) (d : Dev) : Ran :=
  let e := c.u16 2
  let new : Flow := {
    ingress := c.u16 4, vid := c.u16 6 % 4096, tagged := c.bit 7 4, pcp := c.u8 8 % 8, pcpAny := c.bit 8 3
    flowTag := c.u16 10, queue := c.u16 12, policer := c.u16 14, valid := true }
  checked [ atMost 1 (c.u8 1) 2, ingressRange 4 (c.u16 4), (6, decide (c.u16 6 < 8192) && (new.tagged || new.vid = 0))
          , (8, decide (c.u8 8 < 32) && (!new.pcpAny || new.pcp = 0)), (9, c.u8 9 = 0), atMost 12 (c.u16 12) 4095
          , policerRange 14 (c.u16 14), c.zeros 16 55 ] <|
  need (d.ingressExists new.ingress) refusedDone <|
  match c.u8 1 with
  | 0 => ran (d.setFlow e {}).expose
  | 2 => ran d { patch := [(4, (d.flow e).image)] }
  | _ =>
    match d.pkt.flows.find? (fun x => x.1 ≠ e && x.2.valid && x.2.sameKey new) with
    | some x => .error (conflictDone 0x15 x.1)
    | none => ran (d.setFlow e new).expose



/-- Section 2. -/
def queueCfg2 (c : Desc) (d : Dev) : Ran :=
  let i := c.u16 2
  let off := c.u24 8
  checked [ atMost 1 (c.u8 1) 1, ingressRange 2 i, within 4 (c.u16 4) 64 9216, atMost 6 (c.u16 6) 4095, (11, c.u8 11 = 0)
          , policerRange 12 (c.u16 12), c.zeros 14 55 ] <|
  need ((List.range 8).all (fun p => decide (c.u16 6 + pcpOffset off p ≤ 4095))) refusedDone <|
  need (d.ingressExists i) refusedDone <|
  ran (d.setIngr i { miss := c.u8 1, maxFrame := c.u16 4, defQueue := c.u16 6, pcpOff := off, defPol := c.u16 12 }).expose

def queueCfg (c : Desc) (d : Dev) (_j : Nat) : Ran :=
  checked [atMost 0 (c.u8 0) 2] <|
  match c.u8 0 with
  | 0 => queueCfg0 c d
  | 1 => queueCfg1 c d
  | _ => queueCfg2 c d

def execQueueCfg (c : Desc) (s : State) : Out1 := hostRow 0x40 c queueCfg s

/-! ### SHAPER_CFG (R262, R267, R276) and POLICER_CFG (R256, R277) -/

/-- Range of RATE and CAP. -/
def rateChecks (c : Desc) : List Check := [atMost 4 (c.u40 4) 600000000000, (9, decide (1 ≤ c.u24 9))]

def shaperCfg (c : Desc) (d : Dev) (_j : Nat) : Ran :=
  let l := c.u8 0
  let n := c.u16 2
  let parent := c.u16 12
  let target := c.u16 18
  checked ([ atMost 0 l 2, (1, decide (c.u8 1 < 4) && (l = 1 || !c.bit 1 1))
      , atMost 2 n (match l with | 0 => 4095 | 1 => 511 | _ => 127) ] ++ rateChecks c ++
      [ (12, if l = 1 then decide (parent ≤ 127) || parent = 0xFFFF else parent = 0)
      , (14, if l = 1 then decide (1 ≤ c.u8 14) else c.u8 14 = 0), (15, c.u8 15 = 0), (16, l = 1 || c.u16 16 = 0)
      , (18, if l = 2 then target = 0 || (decide (2 ^ 15 ≤ target) && decide (target % 2 ^ 15 < 64)) else target = 0)
      , c.zeros 20 55 ]) <|
  need (target = 0 || isEth (d.port (target % 64)).format) refusedDone <|
  let other := d.pkt.shapers.find? (fun x => x.1 / 4096 = 2 && x.1 % 4096 ≠ n && x.2.target = target)
  need (l ≠ 2 || target = 0 || other.isNone) (conflictDone 0x17 ((other.map (fun x => x.1 % 4096)).getD 0)) <|
  let key := 4096 * l + n
  let x := d.shaper key
  need (l ≠ 1 || x.parent = parent || !d.subHolds n) (conflictDone 0x18 n) <|
  let y := { x with
    resetFull := c.bit 1 0, borrow := c.bit 1 1, rate := c.u40 4, cap := c.u24 9
    parent := if l = 1 then parent else x.parent, weight := if l = 1 then c.u8 14 else x.weight
    debt := c.u16 16, target := target }
  if y = x then ran d
  else ran (d.updShaper key (fun _ => { y with
    credit := if y.resetFull then ((y.cap * 65536 : Nat) : Int) else 0, acc := 0 })).expose

def execShaperCfg (c : Desc) (s : State) : Out1 := hostRow 0x41 c shaperCfg s

def policerCfg (c : Desc) (d : Dev) (_j : Nat) : Ran :=
  let n := c.u16 2
  checked ([atMost 0 (c.u8 0) 1, (1, c.u8 1 = 0), atMost 2 n 4095] ++ rateChecks c ++ [c.zeros 12 55]) <|
  let x := d.policer n
  let y := { x with resetFull := c.bit 0 0, rate := c.u40 4, cap := c.u24 9 }
  if y = x then ran d
  else ran (d.updPolicer n (fun _ => { y with credit := if y.resetFull then ((y.cap * 65536 : Nat) : Int) else 0 }))

def execPolicerCfg (c : Desc) (s : State) : Out1 := hostRow 0x42 c policerCfg s

/-! ### GATE_CFG (R269, R272, R278) -/

/-- The tick phase in force is written: a change waits for the next tick (R198). A worker ignores it (R196). -/
def Dev.writePhase (d : Dev) (ph : Nat) : Dev :=
  if d.worker then d else { d with xc.newPhase := if ph = d.xc.phase then none else some ph }

/-- START and MASK of a body. -/
def gateStart (c : Desc) (i : Nat) : Nat := c.u32 (8 + 4 * i)
def gateMask (c : Desc) (i : Nat) : Nat := c.u8 (40 + i)

def gateCfg (c : Desc) (d : Dev) (_j : Nat) : Ran :=
  if c.u8 0 = 0 then
    checked [atMost 1 (c.u8 1) 1, atMost 2 (c.u16 2) 999, atMost 4 (c.u32 4) 124999, c.zeros 8 55] <|
    need (c.u8 1 = 0 || d.xc.owner) (conflictDone 0xC 0) <|
    let d := { d with pkt.tickPhase := c.u16 2, pkt.nextRef := some (c.u8 1, c.u32 4, d.now) }
    ran (if d.xc.owner then d.writePhase (c.u16 2) else d)
  else
    let w := c.u8 1
    let n := c.u16 2
    checked ([ atMost 0 (c.u8 0) 1, within 1 w 1 8, atMost 2 n 127
        , (4, decide (c.u32 4 ≤ 400000) && (c.u32 4 ≠ 0 || (w = 1 && gateMask c 0 = 0xFF))) ]
        ++ (List.range 8).map (fun i => ((8 + 4 * i,
          if i = 0 || w ≤ i then decide (gateStart c i = 0)
          else decide (gateStart c (i - 1) + 1000 ≤ gateStart c i) && decide (gateStart c i ≤ 124000)) : Check))
        ++ (List.range 8).map (fun i => ((40 + i, decide (i < w) || decide (gateMask c i = 0)) : Check)) ++ [c.zeros 48 55]) <|
    ran (d.updSch n (fun x => { x with next := some ({
      lineRate := c.u32 4, starts := (List.range w).map (gateStart c), masks := (List.range w).map (gateMask c) }, d.now) }))

def execGateCfg (c : Desc) (s : State) : Out1 := hostRow 0x43 c gateCfg s

end Sys2Proof.Machine
end

