-- ==== Sys2Proof/Machine/Satop.lean ====
section
/-! DEFINITION. SAToP (R171–R175, R181), GFP-F reception (R168–R170), the Ethernet MAC (R249–R251) and the classifier (R252,
R253). -/

namespace Sys2Proof.Machine

/-! ### SAToP circuits -/

/-- Posts an event of a circuit at most once a second (R183). -/
def Dev.satopPost (d : Dev) (e code : Nat) : Dev :=
  if mayPost (d.circuit e).posted code d.now then
    (d.updCircuit e (fun x => { x with posted := tput 0 x.posted code (d.now + 1) })).post code (le 2 e) else d

/-- One more, saturating at 16 bits. -/
def inc16 (n : Nat) : Nat := min (n + 1) 65535

/-- Bytes of a circuit's jitter buffer (R175). -/
def Circuit.bytes (x : Circuit) : Nat := (x.jb + 7) / 8 * 512

/-- Packets that the buffer can span. -/
def Circuit.span (x : Circuit) : Nat := x.bytes / x.payload

/-- Jitter-buffer fill in bytes. -/
def Circuit.level (x : Circuit) : Nat := x.buf.length * x.payload

/-- The buffer holds JB_DEPTH of data: 32 bytes for each unit of 125 µs. -/
def Circuit.filled (x : Circuit) : Bool := 32 * x.jb ≤ x.level

/-- Places of a sequence number after another, modulo 65,536, as a signed number. -/
def seqDiff (a b : BitVec 16) : Int := signed 16 (a - b).toNat

/-- A packet placed in sequence order. -/
def placePkt (p : JbPkt) : List JbPkt → List JbPkt
  | [] => [p]
  | x :: xs => if seqDiff p.seq x.seq < 0 then p :: x :: xs else x :: placePkt p xs

/-- Playout begins when the buffer first holds JB_DEPTH of data: its first instant is now. -/
def Circuit.begin_ (x : Circuit) (now : Nat) : Circuit :=
  if x.st = 1 && x.filled then { x with st := 2, next := x.buf.head?.map JbPkt.seq, playAt := 1000 * now } else x

/-- Time that the playout of one packet takes, in ps: PAYLOAD_BYTES at 2,048 kbit/s with the offset of the circuit's clock
(R174). -/
def Circuit.period (x : Circuit) : Nat := x.payload * 8 * 10 ^ 21 / (2048000 * (1000000000 + x.dev).toNat)

/-- The loop of CLOCK 0 or 1 takes an error, and sets the offset of the playout clock within ±200 ppm (R174); its filter is
free (DESIGN CHOICE 107). -/
def Circuit.steer (x : Circuit) (kind : Nat) (err : Int) : Circuit :=
  let l := Config.loopNext kind err x.loop
  { x with loop := l, dev := clampI (-e1Range) e1Range (Config.loopPpb l) }

/-- The loop of a circuit takes an error; where it asks for more than the range the playout stays at its limit, and the entry's
RATE_ALARM is set (R176, R177). -/
def Dev.satopSteer (d : Dev) (e kind : Nat) (err : Int) : Dev :=
  let d := d.updCircuit e (fun x => x.steer kind err)
  let ppb := Config.loopPpb (d.circuit e).loop
  if ppb < -e1Range || e1Range < ppb then d.loAlarm e else d

/-- The circuit leaves LOPS, or enters it (R173). -/
def Dev.lopsCheck (d : Dev) (e : Nat) : Dev :=
  let x := d.circuit e
  if x.lops && decide (x.lopsClr ≤ x.goodRun) then
    (d.updCircuit e (fun x => { x with lops := false, missRun := 0 })).satopPost e 0x1482
  else if !x.lops && decide (x.lopsSet ≤ x.missRun) then
    (d.updCircuit e (fun x => { x with lops := true, goodRun := 0 })).satopPost e 0x1481
  else d

/-- TS_RATE in Hz. -/
def tsRate (flags : Nat) : Nat := match flags / 2 % 4 with | 0 => 8000 | 1 => 2048000 | 2 => 19440000 | _ => 25000000

/-- Ticks of TS_RATE on the TSU clock up to now, modulo 2^32. -/
def Dev.tsTicks (d : Dev) (flags : Nat) : Nat := d.now * tsRate flags / 1000000000 % 2 ^ 32

/-- The places of a packet's words in the circuit's blocks: packets lie one after the other, each from a word's start (DESIGN
CHOICE 112). -/
def Dev.pktPlaces (d : Dev) (x : Circuit) (place : Nat) : List ((Fin 2 → MemId) × Nat) :=
  (List.range (wordsFor x.payload)).map (fun i =>
    let w := place * wordsFor x.payload + i
    ((blockPlaces d.reserve.region (x.blocks.getD (w / 64) 0)).getD (w % 64) (cellBank 0, 0)))

/-- The lowest free place of a circuit's blocks; none where they are full. -/
def Circuit.freePlace (x : Circuit) : Option Nat :=
  let used := x.buf.filterMap JbPkt.place
  (lowestFree used (used.length + 1) 1 0).head?.filter (fun p => decide ((p + 1) * wordsFor x.payload ≤ 64 * x.blocks.length))

/-- A packet's E1 data and their words with P = 1 as the logic of the circuit's entry reads them. -/
def Dev.readPkt (d : Dev) (e : Nat) (p : JbPkt) (mem : List Host.Cell) : TakenBytes :=
  let x := d.circuit e
  match p.place with
  | some i =>
    let t := readBytes d mem (d.pktPlaces x i) (some (d.pointSlice (mpKeyOf 7 0 e)))
    { t with bytes := t.bytes.take x.payload }
  | none => { d := d, mem := mem, bytes := p.bytes, bad := p.bad }

/-- The playout of a sequence number has begun (R172), counted modulo 65,536 back from the last that began. -/
def Circuit.hasBegun (x : Circuit) (s : BitVec 16) : Bool :=
  (match x.next with | some n => decide (seqDiff s n < 0) | none => false)
    || (match x.began with | some b => decide (seqDiff s b ≤ 0) | none => false)

/-- A packet's data go into the circuit's blocks in both planes, or, where no place is free, into the staging buffer; the logic of
`slice` delivers them. A packet with L = 1 plays out all ones, and its data are not kept. -/
def Dev.keepPkt (d : Dev) (e : Nat) (k : SatopRx) (slice : Option Nat) (mem : List Host.Cell) : JbPkt × List Host.Cell :=
  let x := d.circuit e
  if k.l then ({ seq := k.seq, l := true }, mem)
  else match x.freePlace with
    | some i => ({ seq := k.seq, l := false, place := some i }, d.putBytes (d.pktPlaces x i) k.payload k.bad slice mem)
    | none => ({ seq := k.seq, l := false, bytes := k.payload, bad := k.bad }, mem)

/-- A packet that comes into its circuit's jitter buffer, or is discarded (R172). -/
def Dev.satopStore (d : Dev) (e : Nat) (k : SatopRx) (slice : Option Nat) (mem : List Host.Cell) : Dev × List Host.Cell :=
  let x := d.circuit e
  if x.buf.any (fun q => q.seq = k.seq) then (d.updCircuit e (fun x => { x with dup := inc16 x.dup }), mem)
  else if x.hasBegun k.seq then (d.updCircuit e (fun x => { x with late := inc16 x.late }), mem)
  else
    let seqs := (placePkt { seq := k.seq, l := k.l } x.buf).map JbPkt.seq
    let first := x.next.getD (seqs.headD k.seq)
    if (x.span : Int) ≤ seqDiff (seqs.getLastD k.seq) first then
      let d := d.updCircuit e (fun x => { x with buf := [], st := 1, next := none, overrun := inc16 x.overrun })
      let (p, mem) := d.keepPkt e k slice mem
      ((d.updCircuit e (fun x => { x with buf := [p] }.begin_ d.now)).satopPost e 0x1484, mem)
    else
      let (p, mem) := d.keepPkt e k slice mem
      (d.updCircuit e (fun x => { x with buf := placePkt p x.buf }.begin_ d.now), mem)

/-- A packet that the logic of `slice` delivers to a circuit (R172, R173). Its RTP timestamp steers the playout clock of CLOCK 1
(R174), and one beyond its range alarms (R177). -/
def Dev.satopRx (d : Dev) (e : Nat) (k : SatopRx) (slice : Option Nat) (mem : List Host.Cell) : Dev × List Host.Cell :=
  let x := d.circuit e
  if !x.made then (d, mem)
  else if k.payload.length ≠ x.payload && !k.l then (d.updCircuit e (fun x => { x with malformed := inc16 x.malformed }), mem)
  else
    let seqOk := match x.lastSeq with | some s => decide (k.seq = s + 1) | none => true
    let d := d.updCircuit e (fun x => { x with
      lRx := k.l, rRx := k.r, lastSeq := some k.seq, goodRun := if seqOk then min (x.goodRun + 1) 15 else 1 })
    let d := if k.r && !x.rRx then d.satopPost e 0x1485 else d
    let d := d.lopsCheck e
    let d := if x.clock = 1 then d.satopSteer e 2 (signed 32 (twos 32 ((k.ts.toNat : Int) - d.tsTicks x.flags))) else d
    d.satopStore e k slice mem

/-- A packet delivered to a circuit by the packet path, whose own logic no fence of a slice touches. -/
def execSatopPacketRx (e : Fin 8064) (k : SatopRx) (s : State) : Out1 :=
  onMem (liveMem (fun d mem => d.satopRx e.val k none mem)) s

/-- The E1 data that a circuit plays out into its VC-12: the bytes given, or all ones where there are none or in LOPS. -/
def Dev.playOut (d : Dev) (e : Nat) (data : Option (List Byte × List Nat)) : Dev :=
  let x := d.circuit e
  let ones := List.replicate x.payload 0xFF
  match data with
  | some (bytes, bad) => if x.lops then d.emit (.playout e ones []) else d.emit (.playout e bytes bad)
  | none => d.emit (.playout e ones [])

/-- A packet is missing at its playout (R173). -/
def Dev.satopMiss (d : Dev) (e : Nat) : Dev :=
  (d.updCircuit e (fun x => { x with missRun := min (x.missRun + 1) 15 })).lopsCheck e

/-- What a circuit plays at an instant (R172, R173). -/
def Dev.satopPlay (d : Dev) (e : Nat) (mem : List Host.Cell) : Dev × List Host.Cell :=
  let x := d.circuit e
  match x.st, x.next with
  | 2, some n =>
    match x.buf with
    | [] =>
      let d := d.updCircuit e (fun x => { x with st := 1, next := none, began := some n, underrun := inc16 x.underrun })
      (((d.satopPost e 0x1483).satopMiss e).playOut e none, mem)
    | p :: rest =>
      if p.seq = n then
        let d := d.updCircuit e (fun x => { x with buf := rest, next := some (n + 1), began := some n, missRun := 0 })
        if p.l then (d.playOut e none, mem)
        else
          let t := d.readPkt e p mem
          (t.d.playOut e (some (t.bytes, t.bad)), t.mem)
      else
        let d := d.updCircuit e (fun x => { x with next := some (n + 1), began := some n, lost := inc16 x.lost })
        ((d.satopMiss e).playOut e none, mem)
  | _, _ =>
    -- filling: after an underrun the packet of each further instant is missing while nothing has arrived
    ((if x.buf.isEmpty && x.missRun ≠ 0 then d.satopMiss e else d).playOut e none, mem)

/-- A playout instant of a circuit, when it has come (R172–R174): the playout clock goes on by the packet's duration, and the
fill steers the clock of CLOCK 0. -/
def satopPlayout (e : Nat) (d : Dev) (mem : List Host.Cell) : Dev × List Host.Cell :=
  let x := d.circuit e
  if !x.made || decide (1000 * d.now < x.playAt) then (d, mem)
  else
    let (d, mem) := d.satopPlay e mem
    let d := if x.clock = 0 then d.satopSteer e 1 (((d.circuit e).level : Int) - 32 * x.jb) else d
    (d.updCircuit e (fun x => { x with playAt := x.playAt + x.period }), mem)

def execSatopPlayout (e : Fin 8064) (s : State) : Out1 := onMem (liveMem (satopPlayout e.val)) s

/-- Bytes before the E1 data of a packet that a circuit builds. -/
def Circuit.headLen (x : Circuit) : Nat := (x.tmpl.take x.tmplLen).length + 4 + (if x.flags % 2 = 1 then 12 else 0)

/-- A packet that a circuit builds, without its FCS (R171): template, control word, RTP header, E1 data. -/
def Dev.satopPacket (d : Dev) (e : Nat) (payload : List Byte) : List Byte :=
  let x := d.circuit e
  let ais := d.e1Ais e
  let ctl := le 1 ((if ais then 8 else 0) + (if x.lops then 4 else 0)) ++ le 1 0 ++ be 2 x.txSeq.toNat
  let ts := (Config.rtpBase e).toNat + d.now * tsRate x.flags / 1000000000
  let rtp := if x.flags % 2 = 1 then [0x80] ++ le 1 x.rtpPt ++ be 2 x.txSeq.toNat ++ be 4 ts ++ be 4 x.ssrc.toNat else []
  let data := (List.range x.payload).map (fun i => if ais then 0xFF else payload.getD i 0)
  x.tmpl.take x.tmplLen ++ ctl ++ rtp ++ data

/-- A circuit has PAYLOAD_BYTES of E1 data: its packet enters its queue, after the frames of its cell boundary that ingress
sources gave (R171, R255, R258). -/
def satopTx (e : Nat) (k : SatopTx) (d : Dev) (mem : List Host.Cell) : Dev × List Host.Cell :=
  let x := d.circuit e
  if !x.made then (d, mem)
  else
    let b := d.satopPacket e k.bytes
    let bad := if d.e1Ais e then [] else badIn k.bad x.headLen
    let d := d.updCircuit e (fun x => { x with txSeq := x.txSeq + 1 })
    (d.emit (.satop e b bad)).offer x.queue b bad (some (d.pointSlice (mpKeyOf 7 0 e))) (65536 + e) mem

def execSatopPacketTx (e : Fin 8064) (k : SatopTx) (s : State) : Out1 := onMem (liveMem (satopTx e.val k)) s

/-! ### SAToP_CFG (R175, R181) -/

/-- Bytes that the circuits' jitter buffers take. -/
def Dev.jitterUse (d : Dev) : Nat := ((d.circuits.filter (fun x => x.2.made)).map (fun x => x.2.bytes)).sum

/-- Bytes of a reserve of a size in a region: KiB, or banks of 32 units of 64 KiB. -/
def reserveBytes (region size : Nat) : Nat := if region = 0 then 1024 * size else 2097152 * size

/-- Circuits exist. -/
def Dev.anyCircuit (d : Dev) : Bool := d.circuits.any (fun x => x.2.made)

/-- Section 0. A delete takes the circuit's counts with it (DESIGN CHOICE 125). -/
def satopCfg0 (c : Desc) (d : Dev) : Ran :=
  let e := c.u16 2
  let x := d.circuit e
  checked [ atMost 1 (c.u8 1) 1, atMost 2 e 8063, within 4 (c.u16 4) 32 1024, within 6 (c.u16 6) 8 256, atMost 8 (c.u8 8) 2
          , atMost 9 (c.u8 9) 7, atMost 12 (c.u16 12) 4095, within 14 (c.u8 14) 2 15, within 15 (c.u8 15) 2 15
          , within 16 (c.u8 16) 14 64, atMost 17 (c.u8 17) 127, c.zeros 18 19, c.zeros 24 55 ] <|
  if c.u8 1 = 0 then
    need x.made refusedDone <|
    ran (d.updCircuit e (fun x => { tmplLen := x.tmplLen, tmpl := x.tmpl, posted := x.posted })).expose
  else
    let y := { x with
      made := true, payload := c.u16 4, jb := c.u16 6, clock := c.u8 8, flags := c.u8 9, flowTag := c.u16 10, queue := c.u16 12
      lopsSet := c.u8 14, lopsClr := c.u8 15, rxHdr := c.u8 16, rtpPt := c.u8 17, ssrc := BitVec.ofNat 32 (c.u32 20)
      playAt := 1000 * d.now }
    need (x.tmplLen ≠ 0 && (y.clock ≠ 1 || y.flags % 2 = 1) && decide (2 * y.payload ≤ 32 * y.jb)
      && (d.lo e).e1Mode = 3) refusedDone <|
    need (!x.made) (conflictDone 0x12 e) <|
    need (!d.circuits.any (fun z => z.2.made && z.2.flowTag = y.flowTag)) (conflictDone 0x14 y.flowTag) <|
    need (decide (d.jitterUse + y.bytes ≤ reserveBytes d.reserve.region (d.reserve.cut.getD d.reserve.size)))
      (conflictDone 0x13 0) <|
    ran (d.updCircuit e (fun _ => { y with blocks := d.freeBlocks (y.bytes / 512) })).expose

/-- Section 1: the template of a circuit, created or not; it takes effect at the next packet. -/
def satopCfg1 (c : Desc) (d : Dev) : Ran :=
  let n := c.u8 4
  checked [(1, c.u8 1 = 0), atMost 2 (c.u16 2) 8063, within 4 n 14 48, c.zeros 5 7, c.zeros (8 + n) 55] <|
  ran (d.updCircuit (c.u16 2) (fun x => { x with tmplLen := n, tmpl := c.bytes 8 48 }))

/-- Merge-store banks of plane N that a reserve of `n` banks takes, counted down from bank 31. -/
def reserveBanks (region n : Nat) : List Nat := if region = 1 then (List.range n).map (fun i => 31 - i) else []

/-- Banks that hold allocations of merge groups. -/
def Dev.usedBanks (d : Dev) : List Nat :=
  d.groups.flatMap (fun x => match x.2 with | some g => g.units.map (fun u => u / 32) | none => [])

/-- Section 2: the jitter reserve. -/
def satopCfg2 (c : Desc) (d : Dev) : Ran :=
  let r := c.u8 1
  let n := c.u32 4
  let x := d.reserve
  checked [atMost 1 r 1, c.zeros 2 3, atMost 4 n (if r = 0 then 16384 else 16), c.zeros 8 55] <|
  need (r = x.region || !d.anyCircuit) (conflictDone 0x13 0) <|
  let hit := (reserveBanks r n).find? (fun b => d.usedBanks.contains b)
  need hit.isNone (conflictDone 0x11 (hit.getD 0)) <|
  need (r = 1 || (x.region = 0 && decide (n ≤ x.size)) || decide (d.reservedCells + 16 * n ≤ 524288)) (conflictDone 0x16 0) <|
  if reserveBytes r n < d.jitterUse then ran { d with reserve.cut := some n } pendingDone
  else ran (({ d with reserve := { region := r, size := n, cut := none } }).poolWatch d.sharedFree)

def satopCfg (c : Desc) (d : Dev) (_j : Nat) : Ran :=
  checked [atMost 0 (c.u8 0) 2] <|
  match c.u8 0 with
  | 0 => satopCfg0 c d
  | 1 => satopCfg1 c d
  | _ => satopCfg2 c d

/-- Blocks of the jitter reserve. -/
def Dev.reserveBlocks (d : Dev) : Nat := reserveBytes d.reserve.region d.reserve.size / 512

/-- Block i of circuit e moves into the reserve, where it lies beyond its end and a block is free there. -/
def Dev.moveBlock (e i : Nat) (d : Dev) (mem : List Host.Cell) : Dev × List Host.Cell :=
  let k := (d.circuit e).blocks.getD i 0
  match d.freeBlocks 1 with
  | [b] =>
    if k < d.reserveBlocks || k ≤ b then (d, mem)
    else
      let t := readBytes d mem (blockPlaces d.reserve.region k) none
      (t.d.updCircuit e (fun x => { x with blocks := x.blocks.set i b }),
        t.d.putBytes (blockPlaces d.reserve.region b) t.bytes t.bad none t.mem)
  | _ => (d, mem)

/-- Jitter buffers stay held over a cut of the reserve (R175): their blocks move into what is left of it. -/
def Dev.moveBlocks (d : Dev) (mem : List Host.Cell) : Dev × List Host.Cell :=
  (d.circuits.flatMap (fun x => (List.range x.2.blocks.length).map (fun i => (x.1, i)))).foldl
    (fun s x => Dev.moveBlock x.1 x.2 s.1 s.2) (d, mem)

def execSatopCfg (c : Desc) (s : State) : Out1 :=
  if c.wf then onMem (fun d mem => (d.command 0x44 c (satopCfg c) (bulkOk := false)).moveBlocks mem) s
  else .fault .malformedDescriptor

/-- A pending cut of the jitter reserve applies when use permits it. Its event belongs to no circuit and carries no item (DESIGN
CHOICE 62). -/
def satopReserveApplied (d : Dev) : Dev :=
  match d.reserve.cut with
  | some n => if d.jitterUse ≤ reserveBytes d.reserve.region n then
      ({ d with reserve.size := n, reserve.cut := none }).post 0x1486 [] else d
  | none => d

def execSatopReserveApplied (s : State) : Out1 := onMem (liveMem (fun d mem => (satopReserveApplied d).moveBlocks mem)) s

/-! ### The classifier (R252, R253) -/

/-- The flow entry that a frame matches: exact, then with any PCP. -/
def Dev.flowOf (d : Dev) (i : Nat) (tagged : Bool) (vid pcp : Nat) : Option Flow :=
  let k := fun (x : Flow) => x.valid && x.ingress = i && x.tagged = tagged && x.vid = vid
  match (d.pkt.flows.find? (fun x => k x.2 && !x.2.pcpAny && x.2.pcp = pcp)) with
  | some x => some x.2
  | none => (d.pkt.flows.find? (fun x => k x.2 && x.2.pcpAny)).map (fun x => x.2)

/-- A number that bytes spell, most significant first. -/
def beNat (bs : List Byte) : Nat := leNat bs.reverse

/-- The two bytes after the source address, as a number: the EtherType or the TPID of the outer tag. -/
def etherType (bs : List Byte) : Nat := beNat ((bs.drop 12).take 2)

/-- The outer VLAN tag of a frame: VID and PCP, with TPID 0x8100 or 0x88A8 directly after the source address (R252). -/
def vlanOf (bs : List Byte) : Option (Nat × Nat) :=
  if etherType bs = 0x8100 || etherType bs = 0x88A8 then
    let tci := beNat ((bs.drop 14).take 2)
    some (tci % 4096, tci / 8192)
  else none

/-- A received packet of a circuit, from the control word of RFC 4553 at byte `hdr` on (R171, R173): L and R, the length that
LEN gives where it is not 0, the sequence number, and with RTP the timestamp (PRESUMED 63). `bad` are the frame's words with
P = 1 or bad parity. -/
def satopParse (hdr : Nat) (rtp : Bool) (bs : List Byte) (bad : List Nat) : SatopRx :=
  let c := bs.drop hdr
  let head := if rtp then 16 else 4
  let len := (c.getD 1 0).toNat % 64
  let payload := if len = 0 then c.drop head else (c.drop head).take (len - head)
  { seq := BitVec.ofNat 16 (beNat ((c.drop 2).take 2))
    l := (c.getD 0 0).getLsbD 3
    r := (c.getD 0 0).getLsbD 2
    payload := payload
    bad := badOf bad (hdr + head) payload.length
    ts := BitVec.ofNat 32 (beNat ((c.drop 8).take 4)) }

/-- What the classifier decides for a frame of an ingress source (R253): flow tag, queue and policer; none where it is
discarded. -/
def Dev.flowFor (d : Dev) (i : Nat) (bytes : List Byte) : Option (Option Nat × Nat × Nat) :=
  let (vid, pcp) := (vlanOf bytes).getD (0, 0)
  let g := d.ingr i
  match d.flowOf i (vlanOf bytes).isSome vid pcp with
  | some x => some (some x.flowTag, x.queue, x.policer)
  | none => if g.miss = 1 then some (none, g.defQueue + pcpOffset g.pcpOff pcp, g.defPol) else none

/-- The slice whose logic delivers the frames of an ingress source (R340). -/
def Dev.ingressSlice (d : Dev) (i : Nat) : Option Nat :=
  some (if i < 4096 then i / 8 else d.pointSlice (mpKeyOf 2 0 (i % 4096)))

/-- A frame from an ingress source meets its policer, and goes to the SAToP circuit of its tag or is offered to its queue. -/
def Dev.classify (d : Dev) (i : Nat) (f : MacRx) (mem : List Host.Cell) : Dev × List Host.Cell :=
  match d.flowFor i f.bytes with
  | some (tag, q, pol) =>
    let (ok, d) := d.police pol
    if !ok then (d, mem)
    else match d.circuits.find? (fun x => x.2.made && tag = some x.2.flowTag) with
      | some x => d.satopRx x.1 (satopParse x.2.rxHdr (x.2.flags.testBit 0) f.bytes f.bad) (d.ingressSlice i) mem
      | none => d.offer q f.bytes f.bad (d.ingressSlice i) i mem
  | none => ((d.count32 0x900008).raise 0x900004 1 0x1702 [], mem)

/-! ### The MAC (R249–R251) -/

/-- Register of ODU_GFP_DISCARD. -/
def aGfp (o : Nat) : Nat := 0x3D0004 + 8 * o

/-- A received frame meets the checks of R249 in order; L counts its FCS. A port that is not ALIGNED, or on hold, takes none
(R68, R69, R75, R395). -/
def Dev.macRx (d : Dev) (i : Nat) (f : MacRx) (mem : List Host.Cell) : Dev × List Host.Cell :=
  if !d.ingressExists i then (d, mem)
  else
    let port := decide (i < 4096)
    let len := f.bytes.length + 4
    let drop := fun (off lo : Nat) => (if port then d.count (aPort i off) lo 16 else d.count32 (aGfp (i % 4096)), mem)
    if port && ((d.port i).onHold || decide ((d.port i).astate ≠ .aligned)) then (d, mem)
    else if f.slip then drop 0x208 0
    else if !f.fcsOk || f.errored then drop 0x204 0
    else if len < 64 || (d.ingr i).maxFrame < len then drop 0x204 16
    else if etherType f.bytes = 0x8808 then drop 0x208 16
    else (if port then d.count32 (aPort i 0x200) else d).classify i f mem

def execMacFrameRx (ingress : BitVec 16) (f : MacRx) (s : State) : Out1 :=
  onMem (liveMem (fun d mem => d.macRx ingress.toNat f mem)) s

/-- A fault sequence begins, or link faults end. -/
def macFault (p : Nat) (k : FaultSeq) (d : Dev) : Dev :=
  if isEth (d.port p).format then
    let set := fun (d : Dev) (l r : Bool) =>
      { d with pkt.locFault := tput false d.pkt.locFault p l, pkt.remFault := tput false d.pkt.remFault p r }
    match k with
    | .localFault => (set d true false).raise (aPort p 0x210) 0 0x1731 (le 1 p)
    | .remoteFault => (set d false true).raise (aPort p 0x210) 1 0x1732 (le 1 p)
    | .ok => set d false false
  else d

def execMacFaultSequence (p : Fin 64) (k : FaultSeq) (s : State) : Out1 := onDev (live (macFault p.val k)) s

/-! ### GFP-F (R168–R170) -/

/-- The verdict on a received core header (R168): the four bytes without the sequence that the sender has combined with them, PLI
and cHEC; one error is corrected where a single bit of them is wrong. -/
def chec (h : List Byte) : Chec :=
  let ok := fun (b : List Byte) => beNat (b.drop 2) = gfpHec (b.take 2)
  let b := gfpScramble h
  if ok b then .correct
  else if (List.range 32).any (fun i => ok (b.modify (i / 8) (fun x => x ^^^ BitVec.ofNat 8 (2 ^ (i % 8))))) then .single
  else .bad

/-- A core header at the delineator of a packet ODU. -/
def gfpCore (o : Nat) (c : Chec) (d : Dev) : Dev :=
  match d.odu o with
  | some x =>
    let good := c = Chec.correct
    match x.gfp with
    | 1 => if good then d.updOdu o (fun x => { x with gfp := 2 }) else d
    | 2 => if good then (d.updOdu o (fun x => { x with gfp := 3 })).oduPost o 0x1404
      else d.updOdu o (fun x => { x with gfp := 1 })
    | 3 => if good || (c = Chec.single && x.flags / 4 % 2 = 1) then d
      else (d.updOdu o (fun x => { x with gfp := 1 })).oduPost o 0x1405
    | _ => d
  | none => d

def execGfpCoreHeader (o : Fin 4096) (h : List Byte) (s : State) : Out1 := onDev (live (gfpCore o.val (chec h))) s

/-- The x^43 + 1 descrambler over received bits: the bits, and its state, the last 43 received. -/
def descramble (s : BitVec 43) (bits : List Bool) : List Bool × BitVec 43 :=
  let r := bits.foldl (fun (x : List Bool × BitVec 43) b =>
    ((b != x.2.getLsbD 42) :: x.1, (x.2 <<< 1) ||| (if b then 1 else 0))) ([], s)
  (r.1.reverse, r.2)

/-- The fields of a descrambled payload area (R168): its type header with tHEC, and its pFCS where PFI says there is one. -/
def gfpParse (area : List Byte) : GfpRx :=
  let t := (area.getD 0 0).toNat
  let pfi := decide (t / 16 % 2 = 1)
  let body := area.drop 4
  let n := body.length - 4
  { thecOk := decide (beNat ((area.drop 2).take 2) = gfpHec (area.take 2))
    pti := BitVec.ofNat 3 (t / 32), pfi := pfi, exi := BitVec.ofNat 4 t, upi := area.getD 1 0
    pfcsOk := decide (beNat (body.drop n) = gfpFcs (body.take n)), payload := if pfi then body.take n else body }

/-- The Ethernet frame of a payload, its FCS checked and taken off (R249, R250). -/
def gfpClient (p : List Byte) (x : RxWords) : MacRx :=
  let n := p.length - 4
  { slip := x.slip, fcsOk := decide (withFcs (p.take n) = p), bytes := p.take n, bad := badOf x.bad 4 n }

/-- A received GFP frame: its payload area is descrambled, and in SYNC it meets the checks of R170. A frame without a type header
is an idle or control frame, and is discarded. -/
def gfpFrame (o : Nat) (area : List Byte) (w : RxWords) (d : Dev) (mem : List Host.Cell) : Dev × List Host.Cell :=
  match d.odu o with
  | some x =>
    let (bits, st) := descramble x.descr (area.flatMap bitsOfByte)
    let f := gfpParse (packBits bits)
    let d := if x.gfp < 2 then d else d.updOdu o (fun x => { x with descr := st })
    let discard := (d.count32 (aGfp o), mem)
    if x.gfp ≠ 3 || decide (area.length < 4) then (d, mem)
    else if !f.thecOk || (f.pfi && !f.pfcsOk) then discard
    else if f.pti = 4 then (if f.upi = 1 || f.upi = 2 then (d.oduPost o 0x1406, mem) else discard)
    else if f.pti = 0 && f.exi = 0 && f.upi = 1 then d.macRx (4096 + o) (gfpClient f.payload w) mem
    else discard
  | none => (d, mem)

def execGfpFrame (o : Fin 4096) (area : List Byte) (w : RxWords) (s : State) : Out1 :=
  onMem (liveMem (gfpFrame o.val area w)) s

end Sys2Proof.Machine
end

