-- ==== Sys2Proof/Machine/Xc.lean ====
section
/-! DEFINITION. Damask cross-connect (chapter 07): XC_WRITE and XC_SWAP, the swap tick with its phase, and the swap at each
position's own boundary. -/

namespace Sys2Proof.Machine

/-! ### Objects of a connection (R186, R187, R192–R194) -/

/-- What likeness compares (R194). -/
inductive XcShape where
  | odu (ty flexTs gran : Nat)
  | jersey
  | vc4 (concat : Nat)
  | lo (vc3 : Bool)
  deriving DecidableEq, Repr

/-- A destination or source that exists: its table, its positions (of a source input; empty for a merge group or selector,
which supplies as many as the destination takes), its count of slots, and its shape. -/
structure XcObj where
  table : Nat
  pos : List Nat := []
  count : Nat
  shape : XcShape
  deriving DecidableEq, Repr

def shapeOfOdu (o : Odu) : XcShape := .odu o.ty o.flexTs (o.flags % 2)

/-- A created leaf ODU that is switched (R185, R194), and that no waiting create or delete will take away (DESIGN CHOICE 58). -/
def Dev.leafOdu (d : Dev) (o : Nat) : Option Odu :=
  (d.odu o).filter (fun x => x.ty ≠ 7 && d.isLeaf o && d.planned.isLeaf o)

/-- An ODU of the shape crosses a Jersey link: ODU0, ODU1, ODU2 and ODU2e (R430). -/
def XcShape.crosses : XcShape → Bool
  | .odu ty _ _ => decide (ty ≤ 3)
  | .jersey => true
  | _ => false

/-- A source and a destination are alike (R194), or an ODU that crosses and Jersey slots of its length (R430). -/
def XcObj.alike (a b : XcObj) : Bool :=
  if a.shape = .jersey || b.shape = .jersey then a.shape.crosses && b.shape.crosses && decide (a.count = b.count)
  else decide (a.shape = b.shape)

/-- Jersey position of a value: link and first slot. -/
def jyPos (v : Nat) : Nat := 2560 + 20 * (v % 8) + v / 256 % 32



/-- The object of a kind and value; `n` is the length of a Jersey range, and `scheme` the number space of a selector. -/
def Dev.xcObj (d : Dev) (kind v n scheme : Nat) : Option XcObj :=
  match kind with
  | 0 => (d.leafOdu v).map (fun x => { table := 0, pos := d.slotsOf v, count := x.leafK, shape := shapeOfOdu x })
  | 1 => if d.linkPresent (v % 8) then
      some { table := 0, pos := (List.range n).map (fun i => jyPos v + i), count := n, shape := .jersey } else none
  | 2 => match d.vc4 v with
    | some x => if x.struct then none
      else some { table := 1, pos := (List.range x.concat).map (fun i => v + i), count := x.concat, shape := .vc4 x.concat }
    | none => none
  | 3 => if d.entryExists v then some { table := 2, pos := [v], count := 1, shape := .lo (d.isVc3 v) } else none
  | 4 => match (d.group v).bind (fun g => d.odu g.east) with
    | some x => some { table := 0, count := x.leafK, shape := shapeOfOdu x }
    | none => none
  | _ => match d.sel (selKey scheme v) with
    | some s => match scheme with
      | 0 => (d.odu s.work).map (fun x => { table := 0, count := x.leafK, shape := shapeOfOdu x })
      | 2 => (d.vc4 s.work).map (fun x => { table := 1, count := x.concat, shape := .vc4 x.concat })
      | _ => some { table := 2, count := 1, shape := .lo (d.isVc3 s.work) }
    | none => none

/-- The number space of a selector source, by the destination's kind (R210); a Jersey destination carries ODUs. -/
def schemeOf (dstKind : Nat) : Nat := match dstKind with | 2 => 2 | 3 => 3 | _ => 0

/-- A value lies in the range of its kind. -/
def xcRange (kind v scheme : Nat) : Bool :=
  match kind with
  | 0 => v ≤ 4095
  | 1 => v / 8 % 32 = 0 && decide (v / 256 % 32 ≤ 19) && v / 8192 = 0
  | 2 => v ≤ 511
  | 3 => v ≤ 8063
  | 4 => v ≤ 1023
  | _ => v ≤ (match scheme with | 0 => 1023 | 2 => 255 | _ => 4031)

def dstKinds (tsi kind : Nat) : Bool := if tsi = 0 then kind ≤ 2 else kind = 3
def srcKinds (tsi kind : Nat) : Bool := if tsi = 0 then kind ∈ [0, 1, 2, 4, 5] else kind = 3 || kind = 5

/-- A connection that continues from one Jersey position to the next: the same multi-slot source. -/
def continues (a b : Data) : Bool :=
  srcKind a = srcKind b && (match srcKind a with
    | 0 => false
    | 1 => if wFld a 60 1 = 1 then wFld b 60 1 = 1 && srcVal 0 b = srcVal 0 a + 1 else wFld a 48 13 = wFld b 48 13
    | _ => srcVal 0 a = srcVal 0 b && srcIndex b = srcIndex a + 1)

/-- Slots of the connection that begins at a Jersey position of a page, up to the end of its link; the number bounds it. -/
def Dev.jyRun (d : Dev) (page x : Nat) : Nat → Nat
  | 0 => 1
  | n + 1 => if (x + 1 - 2560) % 20 ≠ 0 && continues (d.xcWord page 0 x) (d.xcWord page 0 (x + 1)) then
      1 + d.jyRun page (x + 1) n else 1

/-- The word of position i of a destination, from an object or none. -/
def Dev.connWord (d : Dev) (dst : XcObj) (kind v i : Nat) (src : Option XcObj) : Data :=
  let x := dst.pos.getD i 0
  match dst.table, src with
  | 0, some s =>
    if kind = 4 then d.slotWord x 2 v i else if kind = 5 then d.slotWord x 3 v i else d.slotWord x 1 (s.pos.getD i 0) 0
  | 0, none => d.slotWord x 0 0 0
  | 1, some _ => vcWord (if kind = 5 then 3 else 1) v dst.count (if i = 0 then 0 else 1)
  | 2, some _ => loWord (if kind = 5 then 3 else 1) v (dst.shape = .lo true)
  | _, _ => 0

/-- Writes every position of a destination in a page. -/
def Dev.connect (d : Dev) (page : Nat) (dst : XcObj) (kind v : Nat) (src : Option XcObj) : Dev :=
  (List.range dst.pos.length).foldl (fun d i =>
    d.setXcWord page dst.table (dst.pos.getD i 0) (d.connWord dst kind v i src)) d

/-- The tables of a TSI. -/
def tablesOf (tsi : Nat) : List Nat := if tsi = 0 then [0, 1] else [2]

/-- The TSI has a swap armed or in progress. -/
def Dev.tsiArmed (d : Dev) (tsi : Nat) : Bool := d.xc.arms.any (fun a => a.mask / 2 ^ tsi % 2 = 1)

/-- The page is wholly unconnected. -/
def Dev.clearPage (d : Dev) (page table : Nat) : Dev :=
  (d.pageWords page table).foldl (fun d x => d.setXcWord page table x.1 (if table = 0 then d.slotWord x.1 0 0 0 else 0)) d

/-- One page becomes a copy of the other. -/
def Dev.copyPage (d : Dev) (src dst table : Nat) : Dev :=
  (d.pageWords src table).foldl (fun e x => e.setXcWord dst table x.1 (d.xcWord src table x.1)) (d.clearPage dst table)

/-! ### XC_WRITE (R192–R194) -/

/-- One connection record, on what the earlier parts have left. -/
def xcRecord (c : Desc) (tsi : Nat) (armed : Bool) (r : Nat) (d : Dev) : Except Done Dev :=
  let b := 8 + 12 * r
  let op := c.u8 b
  let dk := c.u8 (b + 1)
  let dv := c.u16 (b + 2)
  let sk := c.u8 (b + 4)
  let n := c.u8 (b + 5)
  let sv := c.u16 (b + 6)
  let sch := schemeOf dk
  checked [ atMost b op 1, (b + 1, dstKinds tsi dk), (b + 2, xcRange dk dv sch)
          , (b + 4, if op = 0 then sk = 0 else srcKinds tsi sk)
          , (b + 5, if op = 1 && dk = 1 && sk = 1 then decide (1 ≤ n) && decide (n ≤ 20) else dk ≠ 1 || decide (n ≤ 20))
          , (b + 6, if op = 0 then sv = 0 else xcRange sk sv sch), c.zeros (b + 8) (b + 11) ] <|
  let page := d.standbyPage (if tsi = 0 then 0 else 2)
  -- length of a Jersey range: SLOTS between two of them, the other side's slot count, or the connection's own run
  let src0 := if op = 1 && sk ≠ 1 then d.xcObj sk sv 0 sch else none
  let len := if n ≠ 0 then n else match src0 with
    | some s => s.count
    | none => if dk = 1 then d.jyRun page (jyPos dv) 20 else ((d.xcObj dk dv 0 sch).map XcObj.count).getD 0
  match d.xcObj dk dv len sch, (if op = 1 then (d.xcObj sk sv len sch).map some else some none) with
  | some dst, some src =>
    let alike := match src with
      | none => true
      | some s => dst.alike s
    let inLink := (dk ≠ 1 || decide (dv / 256 % 32 + len ≤ 20)) && (op = 0 || sk ≠ 1 || decide (sv / 256 % 32 + len ≤ 20))
    need (alike && inLink && (n = 0 || n = dst.count)) (refusedDone r) <|
    need (!armed) (conflictDone 0xB tsi r) <|
    let used := dst.pos.find? (fun x => srcKind (d.xcWord page dst.table x) ≠ 0)
    need (op = 0 || used.isNone) (conflictDone 0xA (used.getD 0 + dst.table * 2 ^ 16) r) <|
    .ok (d.connect page dst sk sv src)
  | _, _ => .error (refusedDone r)

/-- The records in order. -/
def xcRecords (c : Desc) (tsi : Nat) (armed : Bool) : List Nat → Dev → Except Done Dev
  | [], d => .ok d
  | r :: rs, d => match xcRecord c tsi armed r d with
    | .error e => .error e
    | .ok d => xcRecords c tsi armed rs d

/-- XC_WRITE. With COUNT 0, RECORD0 (bytes 8–19) is not read and may hold anything: R192 asks for zeros behind COUNT in RECORD1
to RECORD3 alone (DESIGN CHOICE 130). -/
def xcWrite (c : Desc) (d : Dev) (_j : Nat) : Ran :=
  let tsi := c.u8 0
  let n := c.u8 1
  let f := c.u8 2
  checked [atMost 0 tsi 1, atMost 1 n 4, atMost 2 f 2, c.zeros 3 7, c.zeros (8 + 12 * max n 1) 55] <|
  let armed := d.tsiArmed tsi
  need (!(armed && (f ≠ 0 || n = 0))) (conflictDone 0xB tsi) <|
  let d1 := (tablesOf tsi).foldl (fun d t =>
    if f = 1 then d.copyPage (d.activePage t) (d.standbyPage t) t
    else if f = 2 then d.clearPage (d.standbyPage t) t else d) d
  match xcRecords c tsi armed (List.range n) d1 with
  | .error e => .error e
  | .ok d => ran d

def execXcWrite (c : Desc) (s : State) : Out1 := hostSync 0x20 c xcWrite s

/-! ### The swap tick (R196–R198) -/

/-- The tick number that R196 gives now. -/
def Dev.tickFormula (d : Dev) : Nat :=
  (((d.timeNs - (1000 * d.xc.phase : Nat)) / 1000000 + (d.xc.tickBase : Int)) % (2 ^ 32 : Int)).toNat

/-- The number of the tick that has fallen last, whether or not its effects have been taken. A worker counts its own, 1 ms
apart (R440, R441). -/
def Dev.tickNow (d : Dev) : Nat :=
  if d.worker then (d.xc.tick + (d.now - d.xc.tickAt) / 1000000) % 2 ^ 32
  else match d.xc.notBefore with
    | some t => if t ≤ d.timeNs then d.tickFormula else d.xc.tick
    | none => d.tickFormula

/-- ns since the last tick fell, and until the next. -/
def Dev.tickAge (d : Dev) : Nat :=
  if d.worker then (d.now - d.xc.tickAt) % 1000000
  else match d.xc.notBefore with
    | some t => if t ≤ d.timeNs then ((d.timeNs - (1000 * d.xc.phase : Nat)) % 1000000).toNat else d.now - d.xc.tickAt
    | none => ((d.timeNs - (1000 * d.xc.phase : Nat)) % 1000000).toNat
def Dev.tickWait (d : Dev) : Nat :=
  match d.worker, d.xc.notBefore with
  | false, some t => if t ≤ d.timeNs then 1000000 - d.tickAge else (t - d.timeNs).toNat
  | _, _ => 1000000 - d.tickAge

/-- Tick numbers that lie ahead of `a` up to `b`, going forward. -/
def ahead (a b : Nat) : Nat := (b + 2 ^ 32 - a) % 2 ^ 32

/-- Moving forward from tick `o` to tick `n` passes or reaches tick `a`. -/
def passes (o a n : Nat) : Bool := ahead o n < 2 ^ 31 && 0 < ahead o a && ahead o a ≤ ahead o n

/-! ### The swap (R200–R204) -/

/-- Items of a swap event (R208). -/
def Arm.args (a : Arm) : List Byte := le 1 a.mask ++ le 4 a.tick

/-- The positions of a TSI whose words differ between the pages (R191). -/
def Dev.changes (d : Dev) (tsi : Nat) : List (Nat × Nat) :=
  (tablesOf tsi).flatMap (fun t =>
    let ps := ((d.pageWords 0 t).map (fun x => x.1) ++ (d.pageWords 1 t).map (fun x => x.1)).eraseDups
    (ps.filter (fun p => d.xcWord 0 t p ≠ d.xcWord 1 t p)).map (fun p => (t, p)))

/-- Base of a merge group's window (R244). -/
def aMg (g off : Nat) : Nat := 0x810000 + 0x20 * g + off

/-- The insert outputs of a group carry different sources in the active page (R228). -/
def Dev.insertDiffers (d : Dev) (g : MGroup) : Bool :=
  let src := fun (o : Nat) => (d.slotsOf o).map (fun x =>
    let w := d.xcWord (d.activePage 0) 0 x
    (srcKind w, srcVal 0 w, srcIndex w))
  src g.east ≠ src g.west

/-- Brings INSERT_DIFF of every inserting group up to date. -/
def Dev.insertWatch (d : Dev) : Dev :=
  (d.groups.map (fun x => x.1)).foldl (fun d k => match d.group k with
    | some g =>
      if !g.insert then d
      else
        let now := d.insertDiffers g
        let d := d.updGroup k (fun g => { g with insDiff := now })
        if now && !g.insDiff then d.raise (aMg k 4) 7 0x1648 (le 2 k) else d
    | none => d) d

/-- The swap of a TSI is complete: the standby page becomes active, and COPY_BACK is applied (R201). -/
def Dev.tsiDone (d : Dev) (tsi : Nat) (copyBack : Bool) : Dev :=
  let d := if tsi = 0 then { d with xc.hPhys := 1 - d.xc.hPhys } else { d with xc.lPhys := 1 - d.xc.lPhys }
  let d := if copyBack then (tablesOf tsi).foldl (fun d t => d.copyPage (d.activePage t) (d.standbyPage t) t) d else d
  (if tsi = 0 then d.insertWatch else d).expose

/-- Completes every TSI of a swap in progress whose last position has changed, and the arm with its last TSI. -/
def Dev.armSettle (d : Dev) (j : Nat) : Dev :=
  match d.xc.arms.find? (fun a => a.job = j && a.swapping) with
  | none => d
  | some a =>
    let done := [0, 1].filter (fun t => a.busy / 2 ^ t % 2 = 1 && !a.left.any (fun x => (tablesOf t).contains x.1))
    let busy := a.busy - (done.map (fun t => 2 ^ t)).sum
    let arms := d.xc.arms.map (fun b => if b.job = j then { b with busy := busy } else b)
    let d := done.foldl (fun d t => d.tsiDone t a.copyBack) { d with xc.arms := arms }
    if busy ≠ 0 then d
    else
      let arms := d.xc.arms.filter (fun b => b.job ≠ j)
      (({ d with xc.arms := arms }).raise 0xA00004 0 0x1501 a.args).ends 0x21 j okDone

/-- An armed swap takes effect at this tick. -/
def Dev.startSwap (d : Dev) (a : Arm) (late : Bool) : Dev :=
  let left := ([0, 1].filter (fun t => a.mask / 2 ^ t % 2 = 1)).flatMap d.changes
  let arms := d.xc.arms.map (fun b => if b.job = a.job then
    { b with swapping := true, busy := a.mask, left := left, late := false } else b)
  let d := { d with xc.arms := arms }
  let d := if late then d.raise 0xA00004 2 0x1503 a.args else d
  d.armSettle a.job

/-- A tick falls with number n: the swaps that it brings into force. A worker off its manager's tick performs none (R441). -/
def Dev.tickFalls (d : Dev) (n : Nat) : Dev :=
  let o := d.xc.tick
  let age := d.tickAge
  let d := { d with xc.tick := n, xc.tickAt := d.now - age }
  if d.worker && !d.xc.haveTick then d
  else
    let due := d.xc.arms.filter (fun a => !a.swapping && (a.late || passes o a.tick n))
    due.foldl (fun d a => d.startSwap a (a.late || a.tick ≠ n)) d

/-- A new phase takes effect at tick n: tick n + 1 falls at the first instant at least 1 ms later that it allows (R198). -/
def Dev.takePhase (d : Dev) : Dev :=
  match d.xc.newPhase with
  | none => d
  | some p =>
    let t := d.timeNs - ((d.now - d.xc.tickAt : Nat) : Int)
    let x := t + 1000000
    let next := x + ((1000 * p : Nat) - x) % 1000000
    let base := ((d.xc.tick : Int) + 1 - (next - (1000 * p : Nat)) / 1000000) % (2 ^ 32 : Int)
    { d with xc.phase := p, xc.newPhase := none, xc.notBefore := some next, xc.tickBase := base.toNat }

/-- ns until the MARKER of the next frame of a link leaves: frames follow each other every 1,600 ns (R428). -/
def Dev.markerWait (d : Dev) (j : Nat) : Nat :=
  match (d.link j).frameAt with
  | none => 0
  | some t => if d.now < t + 1600 then t + 1600 - d.now else (1600 - (d.now - t) % 1600) % 1600

/-- The manager's TIME messages of a tick (R440), to every worker present: tick number, the time counter as it will be when the
MARKER of the TICK frame, which is the next to leave, departs, D and OUT_QL. -/
def Dev.sendTime (d : Dev) (n : Nat) : Dev :=
  [1, 2, 3, 4, 5, 6, 7].foldl (fun d j =>
    if d.present j then
      let t := ((d.timeNs + (d.markerWait j : Nat)) % (2 ^ 48 * 1000000000 : Int)).toNat
      d.jySend j 0x09 (le 4 n ++ le 6 (t / 1000000000) ++ le 4 (t % 1000000000) ++ le 2 (d.link j).delay ++ le 1 d.outQl)
    else d) d

/-- The swap tick, when one is due. -/
def swapTick (d : Dev) : Dev :=
  let n := d.tickNow
  if n = d.xc.tick then d
  else
    let d := (d.tickFalls n).endAborted
    (({ d with xc.notBefore := none }).takePhase).sendTime n

def execSwapTick (s : State) : Out1 := onSync (live swapTick) s

/-- The positions that change together with a position: all of its ODU's or VC-4-Nc's, or of its connection's on a link. -/
def Dev.together (d : Dev) (table pos : Nat) : List Nat :=
  match table with
  | 0 =>
    let own := tget 0 d.xc.slots pos
    if own ≠ 0 then d.slotsOf (own - 1)
    else if 2560 ≤ pos then
      let pg := d.standbyPage 0
      let base := pos - (pos - 2560) % 20
      let starts := ((List.range 20).map (fun i => base + i)).filter (fun x => decide (x ≤ pos)
        && decide (pos < x + d.jyRun pg x 20))
      (List.range 20).filterMap (fun i => if starts.any (fun x => decide (x ≤ base + i)
        && decide (base + i < x + d.jyRun pg x 20)) then some (base + i) else none)
    else [pos]
  | 1 => match d.vc4Holding pos with
    | some v => (List.range (((d.vc4 v).map Vc4.concat).getD 1)).map (fun i => v + i)
    | none => [pos]
  | _ => [pos]

/-- The object at an output position begins with a new source: a VC's generator sends NDF, and its points enter Settling with
the given cause (R160, R202, R221). -/
def Dev.newSource (d : Dev) (table pos cause : Nat) : Dev :=
  match table with
  | 0 =>
    let own := tget 0 d.xc.slots pos
    if own = 0 then d else d.settleBelow (mpKeyOf 2 0 (own - 1)) cause
  | 1 => match d.vc4Holding pos with
    | some v => (d.updVc4 v (fun x => { x with ptr.ndfDue := true })).settleBelow (mpKeyOf 6 0 v) cause
    | none => d
  | _ => (d.updLo pos (fun x => { x with ptr.ndfDue := true })).settleBelow (mpKeyOf 7 0 pos) cause

/-- What a swap does at the boundary of an output position: its object begins with the new source, and the positions that
change with it carry what the page that comes into force says (R202). -/
def Dev.boundaryActs (d : Dev) (table pos : Nat) (ps : List Nat) : Dev :=
  (d.newSource table pos 4).sendPositions (d.standbyPage table) table ps

/-- An output position reaches the first boundary of its own signal after the tick (R201, R202). -/
def swapBoundary (table pos : Nat) (d : Dev) : Dev :=
  match d.xc.arms.find? (fun a => a.swapping && a.left.contains (table, pos)) with
  | none => d
  | some a =>
    let ps := d.together table pos
    let arms := d.xc.arms.map (fun b => if b.job = a.job then
      { b with left := b.left.filter (fun x => !(x.1 = table && (ps.contains x.2 || x.2 = pos))) } else b)
    ((({ d with xc.arms := arms }).boundaryActs table pos ps).armSettle a.job).endAborted

def execSwapBoundary (table : Fin 3) (pos : Fin 8064) (s : State) : Out1 := onSync (live (swapBoundary table.val pos.val)) s

/-! ### XC_SWAP (R199, R200) -/

def xcSwap (c : Desc) (d : Dev) (j : Nat) : Ran :=
  let m := c.u8 0
  let at_ := c.u32 4
  checked [within 0 m 1 3, atMost 1 (c.u8 1) 1, atMost 2 (c.u8 2) 1, (3, c.u8 3 = 0), c.zeros 8 55] <|
  let n := d.tickNow
  let far := decide (100000 ≤ d.tickWait)
  let tsis := [0, 1].filter (fun t => m / 2 ^ t % 2 = 1)
  if c.u8 1 = 0 then
    let k := ahead n at_
    need (at_ = 0 || (decide (1 ≤ k) && decide (k ≤ 60000) && (decide (2 ≤ k) || far))) (refusedDone 4) <|
    let hit := tsis.find? d.tsiArmed
    need hit.isNone (conflictDone 0xB (hit.getD 0)) <|
    let t := if at_ = 0 then (n + (if far then 1 else 2)) % 2 ^ 32 else at_
    let arms := d.xc.arms ++ [{ mask := m, tick := t, copyBack := c.bit 2 0, job := j }]
    ranLater { d with xc.arms := arms }
  else
    let mine := fun (a : Arm) => !a.swapping && !a.late && !passes d.xc.tick a.tick n && tsis.any (fun t => a.mask / 2 ^ t % 2 = 1)
    need (d.xc.arms.any mine) refusedDone <|
    ran (d.cancelArms (fun a => !mine a))

def execXcSwap (c : Desc) (s : State) : Out1 := hostRow 0x21 c xcSwap s

end Sys2Proof.Machine
end

