-- ==== Sys2Proof/Machine/Protect.lean ====
section
/-! DEFINITION. Linear protection (R209–R225): the conditions of a selector's sources with their holdoff, its requests and
their priorities, the far-end protocol with its failures, APS_CFG and PROT_COMMAND. -/

namespace Sys2Proof.Machine

/-! ### Conditions (R213) -/

/-- The monitored point that gives a source its SF and SD; none where its server is no point. -/
def Dev.watched (d : Dev) (scheme : Nat) (sncN : Bool) (src : Nat) : Option Nat :=
  let at_ := fun (ty : Nat) => if sncN then some (mpKeyOf ty 0 src) else d.serverOf ty src
  match scheme with
  | 0 => at_ 2
  | 1 => some (mpKeyOf 5 0 src)
  | 2 => at_ 6
  | _ => at_ 7

/-- SF of a source. -/
def Dev.srcSf (d : Dev) (scheme : Nat) (sncN : Bool) (src : Nat) : Bool :=
  let p := match d.watched scheme sncN src with | some k => d.sf k | none => false
  let st := match scheme with
    | 2 => ((d.vc4 src).map (fun v => v.ptr.st)).getD 1
    | 3 => (d.lo src).ptr.st
    | _ => 1
  p || (!sncN && st ≠ 1)

/-- SD of a source: dDEG detected. -/
def Dev.srcSd (d : Dev) (scheme : Nat) (sncN : Bool) (src : Nat) : Bool :=
  match d.watched scheme sncN src with | some k => (d.point k).det.getLsbD 11 | none => false

/-! ### Requests (R215) -/

/-- The requests, in the order of their priorities. -/
inductive Req where
  | lo | sfP | fs | sfW | sdW | sdP | msP | msW | wtr | dnr | nr
  deriving DecidableEq, Repr

def Req.prio : Req → Nat
  | .lo => 1 | .sfP => 2 | .fs => 3 | .sfW => 4 | .sdW | .sdP => 5 | .msP | .msW => 6 | .wtr => 7 | .dnr => 8 | .nr => 9

/-- The request selects P. -/
def Req.selectsP : Req → Bool
  | .fs | .sfW | .sdW | .msP | .wtr | .dnr => true
  | _ => false

/-- The request code that a selector transmits: ODU byte 1 bits 1–4, or K1 bits 1–4. -/
def Req.code (scheme : Nat) : Req → Nat
  | .lo => 15
  | .sfP => if scheme = 1 then 13 else 14
  | .fs => if scheme = 1 then 14 else 13
  | .sfW => if scheme = 1 then 13 else 11
  | .sdW | .sdP => if scheme = 1 then 11 else 9
  | .msP | .msW => if scheme = 1 then 8 else 7
  | .wtr => if scheme = 1 then 6 else 5
  | .dnr => 1
  | .nr => 0

/-- The request that a received code and channel (requested signal) are read as. A channel other than 0 or 1 is read as the
working one (DESIGN CHOICE 131). -/
def reqOf (scheme : Nat) (r : FarReq) : Req :=
  let w := decide (r.ch ≠ 0)
  if scheme = 1 then
    match r.code with
    | 15 => .lo
    | 14 => .fs
    | 13 | 12 => if w then .sfW else .sfP
    | 11 | 10 => if w then .sdW else .sdP
    | 8 => if w then .msP else .msW
    | 6 => .wtr
    | 1 => .dnr
    | _ => .nr
  else
    match r.code with
    | 15 => .lo
    | 14 => .sfP
    | 13 => .fs
    | 11 => .sfW
    | 9 => if w then .sdW else .sdP
    | 7 => if w then .msP else .msW
    | 5 => .wtr
    | 1 => .dnr
    | _ => .nr

/-- The stored command as a request. -/
def cmdReq : Nat → Option Req
  | 1 => some .lo | 2 => some .fs | 3 => some .msP | 4 => some .msW | _ => none

/-- The local requests of priority 1 to 6. -/
def Selector.locals (x : Selector) : List Req :=
  (cmdReq x.cmd).toList ++ (if x.sfP then [.sfP] else []) ++ (if x.sfW then [.sfW] else []) ++ (if x.sdW then [.sdW] else [])
    ++ (if x.sdP then [.sdP] else [])

/-- The highest of some requests. -/
def highest (rs : List Req) : Req := rs.foldl (fun a b => if b.prio < a.prio then b else a) .nr

/-- The highest-priority local request (R216). -/
def Selector.top (x : Selector) : Req :=
  highest (x.locals ++ (if x.wtrStart.isSome then [.wtr] else []) ++ (if x.dnr then [.dnr] else []))

/-- A failure of protocol is declared. -/
def Selector.fop (x : Selector) : Bool := x.fopPm || x.fopNr

/-- The request that decides: the far one when it is higher and may be used. -/
def Selector.decides (scheme : Nat) (x : Selector) : Req :=
  match x.far with
  | some f => if x.bidir && !x.fop && decide ((reqOf scheme f).prio < x.top.prio) then reqOf scheme f else x.top
  | none => x.top

/-- The evaluation of R216 with the states WTR and DNR of R218. `left` says that SF-W or SD-W has just left. -/
def Selector.eval (scheme : Nat) (left : Bool) (x : Selector) : Selector :=
  let high := !x.locals.isEmpty
  let cmd := if 3 ≤ x.cmd && (x.sfP || x.sfW || x.sdW || x.sdP) then 0 else x.cmd
  let x := { x with cmd := cmd }
  let x := { x with
    dnr := !x.revertive && x.selected && x.locals.isEmpty
    wtrStart := if high || !x.selected then none else x.wtrStart }
  let x := if left && x.revertive && x.selected && x.locals.isEmpty && x.wtrStart.isNone then { x with wtrFor := x.wtr } else x
  let r := x.decides scheme
  let x := if r.prio ≤ 6 then { x with dnr := false } else x
  { x with want := if r.prio = 5 && x.sdW && x.sdP then x.selected else r.selectsP }

/-! ### Running a selector -/

/-- Both copies of the engine that runs a selector have stopped: its function does nothing (R351). -/
def Dev.selHeld (d : Dev) (k : Nat) : Bool :=
  match d.sel k with
  | some x => match x.engine with
    | some e => d.engineDead 0 (d.selSlice (k / 4096) x.prot) e && d.engineDead 1 (d.selSlice (k / 4096) x.prot) e
    | none => false
  | none => false

/-- SEL_EVENT of a selector (R245), and its event items. -/
def aSel (k off : Nat) : Nat :=
  (match k / 4096 with | 0 => 0x840000 | 1 => 0x858000 | 2 => 0x844000 | _ => 0x848000) + 0x10 * (k % 4096) + off
def selArgs (k : Nat) : List Byte := le 1 (k / 4096) ++ le 2 (k % 4096)

/-- Brings the conditions of FOP_PM and FOP_NR up to date (R219); FOP_PM is declared at once. -/
def Dev.fopTouch (d : Dev) (k : Nat) : Dev :=
  match d.sel k with
  | none => d
  | some x =>
    let s := k / 4096
    let isOn := x.bidir && decide (s ≤ 1)
    let (pm, nr) := match x.far with
      | some f => (isOn && (if s = 1 then f.b else f.b || f.d != x.bidir), isOn && f.ch ≠ (if x.want then 1 else 0))
      | none => (false, false)
    let d := d.updSel k (fun x => { x with
      pmNow := pm, nrNow := nr, pmSince := if pm = x.pmNow then x.pmSince else d.now
      nrSince := if nr = x.nrNow then x.nrSince else d.now, fopPm := x.fopPm || pm })
    if pm && !x.fopPm then d.raise (aSel k 4) 1 0x1602 (selArgs k) else d

/-- The protocol fields that a selector transmits (R220): the APS bytes, or K1 and K2, the first on top. -/
def Selector.apsBytes (scheme : Nat) (x : Selector) : Word :=
  let code := x.top.code scheme
  let want := x.want.toNat
  if scheme = 1 then BitVec.ofNat 32 ((16 * code + want) * 2 ^ 24 + 0x10 * 2 ^ 16)
  else BitVec.ofNat 32 ((16 * code + 8 + 2 * x.bidir.toNat + x.revertive.toNat) * 2 ^ 24 + want * 2 ^ 16 + 2 ^ 8)

/-- A selector of SCHEME 0 or 1 transmits new protocol fields on W and P, where they differ from those that it sends. -/
def Dev.apsSend (d : Dev) (k : Nat) : Dev :=
  match d.sel k with
  | some x =>
    let b := x.apsBytes (k / 4096)
    if 1 < k / 4096 || b = x.apsTx then d else (d.updSel k (fun x => { x with apsTx := b })).emit (.aps k b)
  | none => d

/-- The selector evaluates its requests. -/
def Dev.selEval (d : Dev) (k : Nat) (left : Bool) : Dev :=
  if d.selHeld k then d
  else
    let d := d.updSel k (fun x =>
      let y := x.eval (k / 4096) left
      if left && y.revertive && y.selected && y.locals.isEmpty && y.wtrStart.isNone then
        ({ y with wtrStart := some d.now, wtrFor := y.wtr }).eval (k / 4096) false
      else y)
    let was := match d.sel k with | some x => x.fop | none => false
    let d := d.fopTouch k
    -- a failure of protocol declared now takes the far request out of the decision
    let d := if !was && (match d.sel k with | some x => x.fop | none => false) then
      d.updSel k (fun x => x.eval (k / 4096) false) else d
    d.apsSend k

/-- Brings the requests of one source up to date with its conditions (R214); `expire` lets those of a holdoff that has run
out enter. -/
def Dev.selConds (d : Dev) (k : Nat) (isP expire : Bool) : Dev :=
  match d.sel k with
  | none => d
  | some x =>
    if d.selHeld k then d
    else
      let s := k / 4096
      let src := if isP then x.prot else x.work
      let sf := d.srcSf s x.sncN src
      let sd := x.sdEn && d.srcSd s x.sncN src
      let was := fun (p : Bool × Bool) => if isP then p.2 else p.1
      let newSf := sf && !was x.condSf
      let newSd := sd && !was x.condSd
      let begun := newSf || newSd
      -- with HOLDOFF 0 a condition enters as it begins; one whose timer runs waits for that timer (R223)
      let enter := fun (new : Bool) => expire || (x.holdoff = 0 && new)
      let set := fun (p : Bool × Bool) (v : Bool) => if isP then (p.1, v) else (v, p.2)
      let start := begun && x.holdoff ≠ 0 && (if isP then x.holdP.isNone else x.holdW.isNone)
      let y := { x with condSf := set x.condSf sf, condSd := set x.condSd sd }
      let y := if isP then { y with
          sfP := sf && (x.sfP || enter newSf), sdP := sd && (x.sdP || enter newSd)
          holdP := if start then some d.now else x.holdP, holdForP := if start then x.holdoff else x.holdForP }
        else { y with
          sfW := sf && (x.sfW || enter newSf), sdW := sd && (x.sdW || enter newSd)
          holdW := if start then some d.now else x.holdW, holdForW := if start then x.holdoff else x.holdForW }
      let left := !isP && ((x.sfW && !y.sfW) || (x.sdW && !y.sdW))
      (d.setSel k (some y)).selEval k left

def execSourceCondition (s : SelId) (isP : Bool) (st : State) : Out1 :=
  onDev (live (fun d => d.selConds (selKey s.scheme.val s.n.val) isP false)) st

/-- A holdoff timer expires: the conditions still detected become requests. -/
def holdoffExpiry (k : Nat) (isP : Bool) (d : Dev) : Dev :=
  match d.sel k with
  | none => d
  | some x =>
    match (if isP then x.holdP else x.holdW) with
    | none => d
    | some t =>
      if d.selHeld k || !d.after t (100000000 * (if isP then x.holdForP else x.holdForW)) then d
      else (d.updSel k (fun x => if isP then { x with holdP := none } else { x with holdW := none })).selConds k isP true

def execHoldoffExpiry (s : SelId) (isP : Bool) (st : State) : Out1 :=
  onDev (live (holdoffExpiry (selKey s.scheme.val s.n.val) isP)) st

/-- The output positions of a table that a source feeds in the active page, one for each object that it feeds. -/
def Dev.fedPositions (d : Dev) (t kind src : Nat) : List Nat :=
  let ps := ((d.connected (d.activePage t) t).filter (fun y => srcKind y.2 = kind && srcVal t y.2 = src)).map (fun y => y.1)
  (ps.map (fun p => match t with
    | 0 => (d.slotsOf (tget 0 d.xc.slots p - 1)).headD p
    | 1 => (d.vc4Holding p).getD p
    | _ => p)).eraseDups

/-- What a change of SELECTED does downstream (R130, R221): the points of the objects that the selector feeds, or of the VC-4s
of an MSP group's working port, enter Settling with cause 3, and the VC outputs that it feeds begin with NDF. -/
def Dev.selSettle (d : Dev) (k : Nat) (x : Selector) : Dev :=
  let s := k / 4096
  if s = 1 then
    let vs := d.portVc4s x.work
    let d := vs.foldl (fun d v => d.settleBelow (mpKeyOf 6 0 v) 3) d
    vs.foldl (fun d v => match d.vc4 v with
      | some y =>
        if y.struct then ((slotEntries y.loSlot).flatMap (d.fedPositions 2 1)).foldl (fun d p => d.newSource 2 p 3) d
        else (d.fedPositions 1 1 v).foldl (fun d p => d.newSource 1 p 3) d
      | none => d) d
  else
    let t := if s = 0 then 0 else s - 1
    (d.fedPositions t 3 (k % 4096)).foldl (fun d p => d.newSource t p 3) d

/-- The first frame boundary of the new source: SELECTED becomes want (R216, R221). -/
def selectedChange (k : Nat) (d : Dev) : Dev :=
  match d.sel k with
  | none => d
  | some x =>
    if x.want = x.selected || d.selHeld k then d
    else
      let d := d.updSel k (fun x => { x with selected := x.want })
      let d := (d.count32 (aSel k 8)).raise (aSel k 4) 0 0x1601 (selArgs k)
      (((d.selSettle k x).selEval k false).refresh).expose

def execSelectedChange (s : SelId) (st : State) : Out1 :=
  onDev (live (selectedChange (selKey s.scheme.val s.n.val))) st

/-! ### The protocol (R219, R220) -/

/-- What of the received fields counts as their value: the whole APS byte set, or K1 and K2 bits 1–5 (R219). -/
def apsValue (scheme : Nat) (w : Word) : Word := if scheme = 1 then w &&& 0xFFF80000 else w

/-- The fields that are read of a value (R220). -/
def apsRead (scheme : Nat) (w : Word) : FarReq :=
  if scheme = 1 then { code := fld w 28 4, ch := fld w 24 4, b := bit w 19 }
  else { code := fld w 28 4, ch := fld w 16 8, b := bit w 26, d := bit w 25 }

/-- One occurrence of the protocol fields on the received P. -/
def apsAccept (k : Nat) (rx : ApsRx) (d : Dev) : Dev :=
  match d.sel k with
  | none => d
  | some x =>
    if 1 < k / 4096 || d.selHeld k then d
    else
      let v := apsValue (k / 4096) rx.bytes
      let f := apsRead (k / 4096) v
      let run := if x.farCand = v && x.farRun ≠ 0 then min (x.farRun + 1) 3 else 1
      let d := d.updSel k (fun x => { x with farCand := v, farRun := run, far := if run = 3 then some f else x.far })
      if run = 3 && x.far ≠ some f then (d.fopTouch k).selEval k false else d

def execApsAccept (s : SelId) (rx : ApsRx) (st : State) : Out1 :=
  onDev (live (apsAccept (selKey s.scheme.val s.n.val) rx)) st

/-- The timers of the protocol failures (R219). -/
def fopTimer (k : Nat) (d : Dev) : Dev :=
  match d.sel k with
  | none => d
  | some x =>
    if d.selHeld k then d
    else
      let declare := x.nrNow && !x.fopNr && decide (x.nrSince + 50000000 < d.now)
      let pm := x.fopPm && !(!x.pmNow && d.after x.pmSince 50000000)
      let nr := declare || (x.fopNr && !(!x.nrNow && d.after x.nrSince 50000000))
      if pm = x.fopPm && nr = x.fopNr then d
      else
        let d := d.updSel k (fun x => { x with fopPm := pm, fopNr := nr })
        let d := if declare then d.raise (aSel k 4) 2 0x1603 (selArgs k) else d
        d.selEval k false

def execFopTimer (s : SelId) (st : State) : Out1 := onDev (live (fopTimer (selKey s.scheme.val s.n.val))) st

/-- WTR expires: the selector goes to NR (R218). -/
def wtrExpiry (k : Nat) (d : Dev) : Dev :=
  match d.sel k with
  | none => d
  | some x =>
    match x.wtrStart with
    | some t => if d.selHeld k || !d.after t (1000000000 * x.wtrFor) then d
      else (d.updSel k (fun x => { x with wtrStart := none })).selEval k false
    | none => d

def execWtrExpiry (s : SelId) (st : State) : Out1 := onDev (live (wtrExpiry (selKey s.scheme.val s.n.val))) st

/-! ### Commands (R217, R225) -/

/-- A command to a selector: REFUSED, or the device after its evaluation. -/
def Dev.protApply (d : Dev) (k cmd : Nat) : Option Dev :=
  match d.sel k with
  | none => none
  | some x =>
    let sf := x.sfP || x.sfW || x.sdW || x.sdP
    let ok := match cmd with
      | 0 | 1 => true
      | 2 => x.cmd ≠ 1 && !x.sfP
      | 3 => x.cmd ≠ 1 && x.cmd ≠ 2 && !sf
      | 4 => x.cmd ≠ 1 && x.cmd ≠ 2 && !sf && !x.revertive
      | _ => false
    if !ok then none
    else some ((d.updSel k (fun x => { x with cmd := cmd, wtrStart := if cmd = 0 then none else x.wtrStart })).selEval k false)

/-- A command's parameters reach the engine of a selector (R345). -/
def Dev.tellSel (d : Dev) (cls k : Nat) : Dev :=
  match d.sel k with
  | some x => d.tell cls (d.selSlice (k / 4096) x.prot) x.engine
  | none => d

/-- PROT_COMMAND (R217). -/
def protCommand (c : Desc) (d : Dev) (j : Nat) : Ran :=
  checked [atMost 0 (c.u8 0) 3, atMost 1 (c.u8 1) 4, c.zeros 4 55] <|
  need (decide (c.u16 2 < 4096)) (refusedDone 2) <|
  match d.protApply (selKey (c.u8 0) (c.u16 2)) (c.u8 1) with
  | some d => ran (d.tellSel (d.jobClass j) (selKey (c.u8 0) (c.u16 2)))
  | none => .error refusedDone

def execProtCommand (c : Desc) (s : State) : Out1 := hostRow 0x32 c protCommand s

/-! ### APS_CFG (R222–R224) -/

/-- Selector numbers of a scheme end here. -/
def selMax : Nat → Nat | 0 => 1023 | 1 => 31 | 2 => 255 | _ => 4031
/-- Sources of a scheme end here. -/
def srcMax : Nat → Nat | 0 => 4095 | 1 => 63 | 2 => 511 | _ => 8063

/-- A source as the scheme wants it; its kind for the likeness of the two. -/
def Dev.apsSource (d : Dev) (scheme n : Nat) : Option XcShape :=
  match scheme with
  | 0 => ((d.leafOdu n).filter (fun o => decide (o.ty ≤ 5))).map shapeOfOdu
  | 1 => if isSdh (d.port n).format then some (.vc4 (d.port n).format) else none
  | 2 => ((d.vc4 n).filter (fun v => !v.struct)).map (fun v => .vc4 v.concat)
  | _ => if d.entryExists n then some (.lo (d.isVc3 n)) else none

/-- The point that a selector needs has ROLE ≥ 1. -/
def Dev.apsPoint (d : Dev) (scheme : Nat) (sncN : Bool) (n : Nat) : Bool :=
  match d.watched scheme sncN n with | some k => (d.point k).role ≠ 0 | none => false

/-- A source that a selector or, for an ODU, a merge group already holds (R212). -/
def Dev.sourceHeld (d : Dev) (scheme n : Nat) : Bool :=
  d.sels.any (fun x => x.1 / 4096 = scheme && (match x.2 with | some v => v.work = n || v.prot = n | none => false))
    || (scheme = 0 && d.groups.any (fun x => match x.2 with | some g => g.east = n || g.west = n | none => false))

/-- RES_KIND of a source. -/
def sourceKind : Nat → Nat | 0 => 4 | 1 => 2 | 2 => 7 | _ => 0x25

/-- The table in which a scheme's selectors are sources. -/
def schemeTable : Nat → Option Nat | 0 => some 0 | 2 => some 1 | 3 => some 2 | _ => none

/-- The first position of either page that a source feeds. -/
def Dev.fedBy (d : Dev) (table kind n : Nat) : Option Nat :=
  ([0, 1].flatMap (fun pg => (d.connected pg table).filter (fun x => srcKind x.2 = kind && srcVal table x.2 = n))).head?.map
    (fun x => x.1)

/-- The AU-4s of a port with VC-4s defined, the first of them. -/
def Dev.firstAu4 (d : Dev) (p : Nat) : Option Nat :=
  match (d.portVc4s p).filterMap d.vc4 with
  | [] => none
  | vs => some (least (vs.map Vc4.au4))

/-- What leaves the two ports of an MSP group from now on (R211): the working port's structure on the working port, and that
of `src` on the protection port. -/
def Dev.sendMsp (d : Dev) (w p src : Nat) : Dev := (d.emit (.mspStructure w w)).emit (.mspStructure p src)

def apsCfg (c : Desc) (d : Dev) (job : Nat) : Ran :=
  let op := c.u8 0
  let s := c.u8 1
  let n := c.u16 2
  let w := c.u16 4
  let p := c.u16 6
  let f := c.u8 8
  checked [ atMost 0 op 2, atMost 1 s 3, atMost 2 n (selMax s), atMost 4 w (srcMax s), atMost 6 p (srcMax s)
          , (8, decide (f < 16) && (s ≤ 1 || !c.bit 8 0) && (s ≠ 1 || !c.bit 8 2)), (9, c.u8 9 = 0), atMost 10 (c.u16 10) 100
          , within 12 (c.u16 12) 30 720, c.zeros 14 55 ] <|
  need (w ≠ p) refusedDone <|
  let k := selKey s n
  match d.sel k with
  | none =>
    need (op = 1) refusedDone <|
    need ((d.apsSource s w).isSome && d.apsSource s w = d.apsSource s p) refusedDone <|
    need (d.apsPoint s (c.bit 8 2) w && d.apsPoint s (c.bit 8 2) p) refusedDone <|
    need (!d.sourceHeld s w) (conflictDone (sourceKind s) w) <|
    need (!d.sourceHeld s p) (conflictDone (sourceKind s) p) <|
    need (s ≠ 1 || (d.firstAu4 p).isNone) (conflictDone 8 (p + 256 * (d.firstAu4 p).getD 0)) <|
    let slice := d.selSlice s p
    match d.allocate slice (selLoad s).1 (selLoad s).2 with
    | none => .error (budgetConflict slice)
    | some e =>
      let d := d.setSel k (some {
        work := w, prot := p, bidir := c.bit 8 0, revertive := c.bit 8 1, sncN := c.bit 8 2, sdEn := c.bit 8 3
        holdoff := c.u16 10, wtr := c.u16 12, wtrFor := c.u16 12, engine := some e, pmSince := d.now, nrSince := d.now })
      ran (((if s = 1 then d.sendMsp w p w else d).apsSend k).expose.tellSel (d.jobClass job) k)
  | some x =>
    need (op ≠ 1) (selConflict s n) <|
    if op = 2 then
      need (x.work = w && x.prot = p && x.bidir = c.bit 8 0 && x.sncN = c.bit 8 2) refusedDone <|
      let y := { x with revertive := c.bit 8 1, sdEn := c.bit 8 3, holdoff := c.u16 10, wtr := c.u16 12 }
      if y = x then ran d else ran ((((d.setSel k (some y)).selConds k false false).selConds k true false).tellSel (d.jobClass job) k)
    else
      let hit := (schemeTable s).bind (fun t => (d.fedBy t (3) n).map (fun pos => pos + t * 2 ^ 16))
      need hit.isNone (conflictDone 0xA (hit.getD 0)) <|
      let d := d.setSel k none
      ran ((if s = 1 then d.sendMsp w p p else d).refresh.expose.tell (d.jobClass job) (d.selSlice s x.prot) x.engine)

def execApsCfg (c : Desc) (s : State) : Out1 := hostRow 0x31 c apsCfg s

end Sys2Proof.Machine
end

