-- ==== Sys2Proof/Machine/Merge.lean ====
section
/-! DEFINITION. The errorless merge (R226–R239): copy states, the merge store, playout, allocation and MERGE_GROUP_CFG; and
the plane selector (R240–R243). -/

namespace Sys2Proof.Machine

/-! ### Units (R226, R227) -/

/-- Numbers of unit positions: SEQ in native mode, MFAS in standard mode. -/
def MGroup.modulus (g : MGroup) : Nat := if g.std then 256 else 2 ^ 32

/-- Position `a` is at or after position `b`. -/
def MGroup.reached (g : MGroup) (a b : Nat) : Bool := (a + g.modulus - b) % g.modulus < g.modulus / 2

/-- CRC field of a block's trailer. -/
def crcField (bs : List Byte) : Nat := leNat ((bs.drop 1020).take 4)

/-- Bytes of a unit: a native block, or an ODU frame of four rows of 3,824. -/
def MGroup.unitSize (g : MGroup) : Nat := if g.std then 15296 else 1024

end Sys2Proof.Machine

namespace Sys2Proof

open Machine

/-- The number that an arriving unit carries: the trailer's SEQ, or MFAS. -/
def MUnit.number (u : MUnit) (std : Bool) : Nat :=
  if std then u.num.toNat % 256 else leNat ((u.bytes.drop 1016).take 4).reverse

/-- The check at arrival (R226, R231): the trailer's CRC; in standard mode no defect, while the BIP-8 of the frame is still to
come (DESIGN CHOICE 109). -/
def MUnit.good (u : MUnit) (std : Bool) : Bool :=
  if std then !u.defect
  else decide (u.bytes.length = 1024) && decide ((crcOf 0 (u.bytes.take 1020)).toNat = crcField u.bytes)

end Sys2Proof

namespace Sys2Proof.Machine

/-- A merge block of 1,016 bytes of data with the trailer of R227, its CRC field inverted where `inv`. -/
def trailerBlock (data : List Byte) (seq : Nat) (inv : Bool) : List Byte :=
  let b := (data ++ le (1016 - data.length) 0).take 1016 ++ be 4 seq
  let c := crcOf 0 b
  b ++ le 4 (if inv then ~~~c else c).toNat

/-- The unit that stands for a missing one in native mode (R232). -/
def emptyBlock (seq : Nat) : List Byte := trailerBlock [] seq true

/-! ### Copy states and the reference (R229, R230) -/

def MGroup.copy (g : MGroup) (west : Bool) : MCopy := if west then g.w else g.e
def MGroup.setCopy (g : MGroup) (west : Bool) (c : MCopy) : MGroup := if west then { g with w := c } else { g with e := c }
def MGroup.up (g : MGroup) (west : Bool) : Bool := (g.copy west).st = .up

/-- Lag in force: it moves towards MAX_SKEW at 100 ppm (R237). -/
def MGroup.lagNow (g : MGroup) (now : Nat) : Nat :=
  let moved := (now - g.lagSince) / 10000000
  if !g.playing then g.maxSkew
  else if g.lag < g.maxSkew then min g.maxSkew (g.lag + moved) else max g.maxSkew (g.lag - moved)

/-- Reference, playout and skew after a change of a copy's state: with no copy UP the output is ODU-AIS, and a reference that
left UP gives way to the other copy. -/
def MGroup.follow (g : MGroup) : MGroup :=
  if !g.merge then g
  else if !g.up false && !g.up true then { g with playing := false, outAis := true, slots := [], skew := 0, later := false }
  else if g.up false && g.up true then g
  else { g with ref := if g.playing then g.up true else g.ref, skew := 0, later := false }

/-- A copy enters a state: its runs start again, and the state's event is set. -/
def Dev.copyTo (d : Dev) (k : Nat) (west : Bool) (st : CopySt) : Dev :=
  let d := d.updGroup k (fun g =>
    let c := g.copy west
    (g.setCopy west { c with
      st := st, goodRun := 0, oddRun := 0, lateRun := 0, earlyRun := 0
      last := match st with | .down | .aligning => none | _ => c.last
      stage := match st with | .down => [] | _ => c.stage }).follow)
  match st with
  | .down => d.raise (aMg k 4) 0 0x1641 (le 2 k)
  | .up => d.raise (aMg k 4) 1 0x1642 (le 2 k)
  | .skew => d.raise (aMg k 4) 2 0x1643 (le 2 k)
  | .aligning => d

/-- SF of a copy: that of its ODU's PM point, or of the PM point's server. -/
def Dev.copySf (d : Dev) (o : Nat) : Bool := d.sf (mpKeyOf 2 0 o)

/-- SF of a copy is brought up to date. -/
def mergeCopySf (k : Nat) (west : Bool) (d : Dev) : Dev :=
  match d.group k with
  | none => d
  | some g =>
    if !g.merge then d
    else
      let sf := d.copySf (if west then g.west else g.east)
      let st := (g.copy west).st
      let d := d.updGroup k (fun g => g.setCopy west { g.copy west with sf := sf })
      if sf && st ≠ .down then d.copyTo k west .down
      else if !sf && st = .down then d.copyTo k west .aligning
      else d

def execMergeCopySf (g : Fin 1024) (west : Bool) (s : State) : Out1 := onDev (live (mergeCopySf g.val west)) s

/-! ### The merge store (R17, R231, R235) -/

/-- The bank of each plane that holds a unit of 64 KiB of the merge store. -/
def mergeBank (u : Nat) (pl : Fin 2) : MemId := .merge ⟨32 * pl.val + u / 32 % 32, by omega⟩

/-- The places of a slot's words, its place in the group's allocation being `p` (DESIGN CHOICE 109): the allocation is the
group's units one after the other, 8,192 words each. -/
def MGroup.slotPlaces (g : MGroup) (p len : Nat) : List ((Fin 2 → MemId) × Nat) :=
  (List.range (wordsFor (min len g.unitSize))).map (fun i =>
    let w := p * wordsFor g.unitSize + i
    let u := g.units.getD (w / 8192) 0
    (mergeBank u, u % 32 * 8192 + w % 8192))

/-- Slots that `n` units of 64 KiB hold. -/
def MGroup.capacity (g : MGroup) (n : Nat) : Nat := n * 65536 / g.unitSize

/-- The lowest free place of the group's first `n` units; none where they are full. -/
def MGroup.freePlace (g : MGroup) (n : Nat) : Option Nat :=
  let used := g.slots.filterMap (fun x => x.2.place)
  (lowestFree used (used.length + 1) 1 0).head?.filter (fun p => decide (p < g.capacity n))

/-- The slice whose logic delivers the units of a copy: that of its ODU (R340). -/
def Dev.copyUnitSlice (d : Dev) (g : MGroup) (west : Bool) : Nat := d.pointSlice (mpKeyOf 2 0 (if west then g.west else g.east))

/-- A unit that the logic of `slice` delivers is written into the slot of a position, at the slot's place or the lowest free one of
the group's first `n` units; where none is free it stands in the staging buffers. `mark` sets what the slot says of it. -/
def Dev.putSlot (d : Dev) (k pos n : Nat) (bs : List Byte) (bad : List Nat) (slice : Option Nat) (mark : MSlot → MSlot)
    (mem : List Host.Cell) : Dev × List Host.Cell :=
  match d.group k with
  | none => (d, mem)
  | some g =>
    let s := tget {} g.slots pos
    let place := match s.place with | some p => some p | none => g.freePlace n
    let s' := mark { s with
      full := true, place := place, len := bs.length, bytes := if place.isSome then [] else bs
      bad := if place.isSome then [] else bad }
    (d.updGroup k (fun g => { g with slots := tput {} g.slots pos s' }),
      match place with | some p => d.putBytes (g.slotPlaces p bs.length) bs bad slice mem | none => mem)

/-- A read of a slot's unit. -/
def Dev.readSlot (d : Dev) (g : MGroup) (s : MSlot) (mem : List Host.Cell) : TakenBytes :=
  match s.place with
  | some p =>
    let t := readBytes d mem (g.slotPlaces p s.len) none
    { t with bytes := t.bytes.take s.len }
  | none => { d := d, mem := mem, bytes := s.bytes, bad := s.bad }

/-! ### Arrival (R229–R231) -/

/-- What a slot says of a unit of a copy that has been found bad. -/
def MSlot.note (s : MSlot) (west good : Bool) : MSlot :=
  { s with badE := s.badE || (!west && !good), badW := s.badW || (west && !good) }

/-- A copy of a group, changed. -/
def Dev.updCopy (d : Dev) (k : Nat) (west : Bool) (f : MCopy → MCopy) : Dev :=
  d.updGroup k (fun g => g.setCopy west (f (g.copy west)))

/-- A slot of a group, changed. -/
def Dev.updSlot (d : Dev) (k pos : Nat) (f : MSlot → MSlot) : Dev :=
  d.updGroup k (fun g => { g with slots := tupd {} g.slots pos f })

/-- The later copy replaces a bad unit: when it is good, or when it is the preferred one (R231). -/
def MGroup.replaces (g : MGroup) (s : MSlot) (west good : Bool) : Bool := !s.good && (good || decide (west = g.prefer))

/-- A unit at a position is written into its slot, or compared with the one that is there; the skew of the two arrivals is
measured. In standard mode the later copy's frame waits in staging for its BIP-8. -/
def Dev.storeUnit (d : Dev) (k : Nat) (west : Bool) (pos : Nat) (u : MUnit) (mem : List Host.Cell) : Dev × List Host.Cell :=
  match d.group k with
  | none => (d, mem)
  | some g =>
    let s := tget {} g.slots pos
    let good := u.good g.std
    let stage := fun (d : Dev) (later : Bool) => if g.std then
        d.updCopy k west (fun c => { c with stage := { pos := pos, defect := u.defect
                                                       bytes := if later then u.bytes else []
                                                       bad := if later then u.bad else [] } :: c.stage })
      else d
    let put := d.putSlot k pos g.units.length u.bytes u.bad (some (d.copyUnitSlice g west))
    if !s.full then
      let (d, mem) := put (fun s => { s with
        west := west, good := good, at_ := d.now, crc := crcField u.bytes }.note west good) mem
      (stage d false, mem)
    else if s.west = west then (stage d false, mem)
    else
      let both := g.up false && g.up true
      let seen := fun (d : Dev) => (d.updGroup k (fun g => { g with
        skew := if both then min ((d.now - s.at_) / 1000) 16383 else g.skew
        later := if both then west else g.later })).updSlot k pos (fun s => s.note west good)
      if g.std then (stage (seen d) true, mem)
      else if g.replaces s west good then
        let (d, mem) := put (fun s => { s with west := west, good := good, crc := crcField u.bytes }) mem
        (seen d, mem)
      else if s.good && good && decide (s.crc ≠ crcField u.bytes) then
        (((seen d).count32 (aMg k 0x1C)).raise (aMg k 4) 5 0x1646 (le 2 k), mem)
      else (seen d, mem)

/-- A frame of a copy in standard mode brings the BIP-8 of the copy's frame two before: that one is good or bad now, and where
it waits in staging it may replace the frame in the slot (R231). -/
def Dev.stageVerdict (d : Dev) (k : Nat) (west : Bool) (nBip : Nat) (mem : List Host.Cell) : Dev × List Host.Cell :=
  match d.group k with
  | none => (d, mem)
  | some g =>
    match (g.copy west).stage with
    | x :: e :: _ =>
      let d := d.updCopy k west (fun c => { c with stage := [x] })
      let s := tget {} g.slots e.pos
      let good := !e.defect && decide (nBip = 0)
      if !s.full then (d, mem)
      else if s.west = west then (d.updSlot k e.pos (fun s => { s with good := good }.note west good), mem)
      else if e.bytes.isEmpty then (d, mem)
      else if g.replaces s west good then
        d.putSlot k e.pos g.units.length e.bytes e.bad (some (d.copyUnitSlice g west))
          (fun s => { s with west := west, good := good }.note west good) mem
      else (d.updSlot k e.pos (fun s => s.note west good), mem)
    | _ => (d, mem)

/-- The first copy reaches UP: it becomes the reference, and its unit plays out MAX_SKEW after its arrival (R230). -/
def Dev.startPlayout (d : Dev) (k : Nat) (west : Bool) (pos : Nat) : Dev :=
  d.updGroup k (fun g => if g.playing then g else { g with
    playing := true, outAis := false, ref := west, slots := [], nextUnit := pos, behind := 0
    nextAt := 1000 * (d.now + 1000 * g.maxSkew), lag := g.maxSkew, lagSince := d.now })

/-- The unit at a position comes after its playout. -/
def MGroup.late (g : MGroup) (p : Nat) : Bool := g.playing && !g.reached p g.nextUnit

/-- The number that the running count gives a unit of a copy. -/
def MCopy.next (c : MCopy) (g : MGroup) : Option Nat := c.last.map (fun l => (l + 1) % g.modulus)

/-- A unit whose number counts for the copy's state (R229): any frame's MFAS, and the SEQ of a block with a good CRC. -/
def unitClear (u : MUnit) (std : Bool) : Bool := std || u.good std

/-- A unit of a copy in ALIGNING; with it, the position at which it is stored, if it is. -/
def unitAligning (k : Nat) (west : Bool) (g : MGroup) (u : MUnit) (d : Dev) : Dev × Option Nat :=
  let c := g.copy west
  let num := u.number g.std
  let clear := unitClear u g.std
  let run := if !clear then 0 else if c.next g = some num && c.goodRun ≠ 0 then c.goodRun + 1 else 1
  let d := d.updCopy k west (fun c => { c with last := if clear then some num else none, goodRun := run })
  let d := if clear && g.late num then d.count (aMg k 0x18) 0 16 else d
  if run < 2 then (d, none)
  else if g.late num then (d.copyTo k west .skew, none)
  else ((d.copyTo k west .up).startPlayout k west num, some num)

/-- A unit of a copy that is UP. -/
def unitUp (k : Nat) (west : Bool) (g : MGroup) (u : MUnit) (d : Dev) : Dev × Option Nat :=
  let c := g.copy west
  let num := u.number g.std
  let here := (c.next g).getD num
  let odd := unitClear u g.std && decide (num ≠ here)
  let pos := if !g.std && u.good g.std then num else here
  let oddRun := if odd then c.oddRun + 1 else 0
  let lateRun := if g.late pos then c.lateRun + 1 else 0
  let d := d.updCopy k west (fun c => { c with last := some here, oddRun := oddRun, lateRun := lateRun })
  let d := if g.late pos then d.count (aMg k 0x18) 0 16 else d
  if (if g.std then 5 else 4) ≤ oddRun then (d.copyTo k west .aligning, none)
  else if 8 ≤ lateRun then (d.copyTo k west .skew, none)
  else (d, if g.late pos then none else some pos)

/-- A unit of a copy in SKEW. -/
def unitSkew (k : Nat) (west : Bool) (g : MGroup) (u : MUnit) (d : Dev) : Dev × Option Nat :=
  let c := g.copy west
  let num := u.number g.std
  let pos := if unitClear u g.std then num else (c.next g).getD num
  let earlyRun := if g.late pos then 0 else c.earlyRun + 1
  let d := d.updCopy k west (fun c => { c with last := some pos, earlyRun := earlyRun })
  let d := if g.late pos then d.count (aMg k 0x18) 0 16 else d
  if 8 ≤ earlyRun then ((d.copyTo k west .up).startPlayout k west pos, some pos) else (d, none)

/-- What a unit does to its copy, by the copy's state; with it, the position at which it is stored. While the copy is UP or in
SKEW its numbers run on from unit to unit; a native block with a good CRC lies where its SEQ says, every other unit where the
running number says. -/
def unitState (k : Nat) (west : Bool) (g : MGroup) (u : MUnit) (d : Dev) : Dev × Option Nat :=
  match (g.copy west).st with
  | .down => (d, none)
  | .aligning => unitAligning k west g u d
  | .up => unitUp k west g u d
  | .skew => unitSkew k west g u d

/-! ### The insert side (R23, R228) -/

/-- The word of an output's first slot in the active page, and whether it names what feeds the insert stage. -/
def Dev.outputFed (d : Dev) (o : Nat) (feeds : Data → Bool) : Bool :=
  match d.slotsOf o with
  | x :: _ => feeds (d.xcWord (d.activePage 0) 0 x)
  | [] => false

/-- Words with P = 1 of a block with a new trailer: the trailer is computed from the others (R42). -/
def blockBad (bad : List Nat) : List Nat :=
  let b := bad.filter (fun i => decide (i < 127))
  if b.isEmpty then [] else b ++ [127]

/-- A block of a source comes to the insert stages that it feeds (R228): the EAST output numbers it, and the WEST output of the
same source takes that number. While the outputs carry different sources a WEST block takes the number of the EAST block that
went last (DESIGN CHOICE 109), with its CRC field inverted. -/
def Dev.insertFeed (d : Dev) (feeds : Data → Bool) (bs : List Byte) (bad : List Nat) : Dev :=
  (d.groups.map (fun x => x.1)).foldl (fun d k => match d.group k with
    | some g =>
      if !g.insert then d
      else
        let e := d.outputFed g.east feeds
        let w := d.outputFed g.west feeds
        let seq := if e then g.insSeq else (g.insSeq + 2 ^ 32 - 1) % 2 ^ 32
        let inv := d.insertDiffers g
        let d := if e then (d.updGroup k (fun g => { g with insSeq := (g.insSeq + 1) % 2 ^ 32 })).emit
            (.insertBlock k false (trailerBlock (bs.take 1016) seq false) (blockBad bad)) else d
        if w then d.emit (.insertBlock k true (trailerBlock (bs.take 1016) seq inv) (blockBad bad)) else d
    | none => d) d

/-- A word of the slot table takes its slot from ODU `o`: as received, or as the source that a selector has selected. -/
def Dev.takesOdu (d : Dev) (o : Nat) (w : Data) : Bool :=
  srcKind w = 1 && tget 0 d.xc.slots (srcVal 0 w) = o + 1
    || srcKind w = 3 && (d.sel (selKey 0 (srcVal 0 w))).any (fun s => (if s.selected then s.prot else s.work) = o)

/-- ODU `o` is a copy of a group. -/
def Dev.isCopy (d : Dev) (o : Nat) : Bool :=
  d.groups.any (fun x => x.2.any (fun g => decide (g.east = o) || decide (g.west = o)))

/-- A block of a native ODU that is no group's copy arrives: the insert stages that the ODU feeds take it (R23, R228). -/
def Dev.nativeArrival (d : Dev) (o : Nat) (u : MUnit) : Dev :=
  if d.isLeaf o && (d.odu o).any (fun x => x.ty = 6) && !d.isCopy o then d.insertFeed (d.takesOdu o) u.bytes u.bad else d

/-- A unit of a copy arrives: its state, its slot, and, of a native block, the insert stages that its ODU feeds as received. -/
def copyArrival (k : Nat) (west : Bool) (u : MUnit) (d : Dev) (mem : List Host.Cell) : Dev × List Host.Cell :=
  match d.group k with
  | none => (d, mem)
  | some g =>
    let o := if west then g.west else g.east
    let feed := fun (d : Dev) => if g.std then d else d.insertFeed (d.takesOdu o) u.bytes u.bad
    if !g.merge then (feed d, mem)
    else
      let (d, mem) := if g.std then d.stageVerdict k west u.nBip mem else (d, mem)
      let (d, pos) := unitState k west ((d.group k).getD g) u d
      let d := if g.ref = west then d.updGroup k (fun g => if g.playing then { g with behind := g.behind + 1 } else g) else d
      match pos with
      | some p =>
        let (d, mem) := d.storeUnit k west p u mem
        (feed d, mem)
      | none =>
        (feed (if g.std then d.updCopy k west (fun c => { c with stage := { pos := g.modulus, defect := true } :: c.stage })
          else d), mem)

/-- A unit arrives: of a copy of the group, or of the native ODU that the unit names. -/
def unitArrival (k : Nat) (west : Bool) (u : MUnit) (d : Dev) (mem : List Host.Cell) : Dev × List Host.Cell :=
  match u.odu with
  | some o => (d.nativeArrival o.val u, mem)
  | none => copyArrival k west u d mem

def execMergeUnitArrival (g : Fin 1024) (west : Bool) (u : MUnit) (s : State) : Out1 :=
  onMem (liveMem (unitArrival g.val west u)) s

/-! ### Playout (R230, R232, R233, R237) -/

/-- The period of a unit at the nominal rate of the group's ODU, in ps. -/
def Dev.unitPeriod (d : Dev) (g : MGroup) : Nat :=
  match d.odu g.east with
  | some o =>
    let (a, b) := oduPeriod o
    if g.std then 1000 * a / b else 1000 * a * 1024 / (15232 * b)
  | none => 0

/-- The offset of the playout clock in ppb while its lag moves to a new MAX_SKEW: 100 ppm slow or fast (R237). -/
def MGroup.slew (g : MGroup) (now : Nat) : Int :=
  let lag := g.lagNow now
  if lag < g.maxSkew then -100000 else if g.maxSkew < lag then 100000 else 0

/-- The playout clock advances by one unit: the loop that follows the reference steers it (R230; its filter is free, DESIGN
CHOICE 107). -/
def MGroup.tick (g : MGroup) (now period : Nat) : MGroup :=
  let l := Config.loopNext 3 g.behind g.loop
  let ppb := clampI (-e1Range) e1Range (Config.loopPpb l) + g.slew now
  { g with
    slots := tput {} g.slots g.nextUnit {}, nextUnit := (g.nextUnit + 1) % g.modulus, loop := l, behind := g.behind - 1
    nextAt := g.nextAt + period * 1000000000 / (1000000000 + ppb).toNat }

/-- BIP-8 of an ODU frame over its OPU: columns 15 to 3,824 of the four rows. -/
def frameBip (bs : List Byte) : Byte :=
  (List.range 4).foldl (fun b r => ((bs.drop (3824 * r + 14)).take 3810).foldl (fun x y => x ^^^ y) b) 0

/-- The BIP-8 that the device recomputes over a forwarded frame of ODU `o` (R233): of PM (0), and of every TCM level whose
point's accepted STAT is not 000; inverted under DOUBLE_BAD. -/
def Dev.recomputed (d : Dev) (o : Nat) (bs : List Byte) (inv : Bool) : List (Nat × Byte) :=
  let b := if inv then ~~~(frameBip bs) else frameBip bs
  (0 :: (List.range' 1 6).filter (fun l =>
    let x := d.point (mpKeyOf 3 l o)
    decide (x.role ≠ 0) && decide (x.stat ≠ 0))).map (fun l => (l, b))

/-- Forwarding with mark and rewind (R49, R232): the unit is read and checked, and read again as it is forwarded. -/
def Dev.forwardSlot (d : Dev) (k : Nat) (g : MGroup) (s : MSlot) (mem : List Host.Cell) : TakenBytes :=
  let both := fun (d : Dev) (f : Dev → QId → Dev) =>
    if h : k < 1024 then [0, 1].foldl (fun d (p : Fin 2) => f d (.emu p ⟨k, h⟩)) d else d
  let t := d.readSlot g s mem
  let t := (both t.d Dev.qRewind).readSlot g s t.mem
  { t with d := both t.d Dev.qRelease }

/-- What the record of a forwarded unit counts (R232). -/
def Dev.forwardCount (d : Dev) (k : Nat) (g : MGroup) (s : MSlot) : Dev :=
  if !s.good then (d.count32 (aMg k 0x14)).raise (aMg k 4) 3 0x1644 (le 2 k)
  else if s.west = g.prefer then d
  else
    let d := d.count32 (aMg k 0xC)
    if g.prefer then (if s.badW then d.count (aMg k 0x10) 16 16 else d)
    else (if s.badE then d.count (aMg k 0x10) 0 16 else d)

/-- The instant of a unit's playout. -/
def mergePlayout (k : Nat) (d : Dev) (mem : List Host.Cell) : Dev × List Host.Cell :=
  match d.group k with
  | none => (d, mem)
  | some g =>
    if !g.playing || decide (1000 * d.now < g.nextAt) then (d, mem)
    else
      let pos := g.nextUnit
      let s := tget {} g.slots pos
      let d := d.updGroup k (fun g => g.tick d.now (d.unitPeriod g))
      let send := fun (d : Dev) (bs : List Byte) (bad : List Nat) (bips : List (Nat × Byte)) =>
        let d := d.emit (.mergeUnit k bs bad (g.std && bs.isEmpty) (g.ref && !g.std) bips)
        if g.std then d else d.insertFeed (fun w => srcKind w = 2 && srcVal 0 w = k) bs bad
      if !s.full then
        let d := (d.count (aMg k 0x18) 16 16).raise (aMg k 4) 4 0x1645 (le 2 k)
        (send d (if g.std then [] else emptyBlock pos) [] [], mem)
      else
        let t := (d.forwardCount k g s).forwardSlot k g s mem
        let o := if s.west then g.west else g.east
        (send t.d t.bytes t.bad (if g.std then t.d.recomputed o t.bytes (!s.good) else []), t.mem)

def execMergePlayout (g : Fin 1024) (s : State) : Out1 := onMem (liveMem (mergePlayout g.val)) s

/-! ### Allocation (R235–R237) -/

/-- UNITS of an ODU's rate and a MAX_SKEW. -/
def unitsFor (o : Odu) (skew : Nat) : Nat := (allocRate o.ty o.flexTs o.flags * skew + 524287) / 524288

/-- Largest MAX_SKEW: below 128 frame periods in standard mode. -/
def skewMax (std : Bool) (o : Odu) : Nat :=
  if !std then 8000
  else match o.ty with
    | 0 => 8000
    | 1 => 6268
    | 2 => 1560
    | 3 => 1506
    | 4 => 149
    | _ => min 8000 ((128 * 122368 - 1) / allocRate o.ty o.flexTs o.flags)

/-- Units of the store that the SAToP reserve holds. -/
def Dev.reservedUnits (d : Dev) : List Nat := reserveBanks d.reserve.region d.reserve.size

/-- Units that groups hold. -/
def Dev.unitsHeld (d : Dev) : List Nat :=
  d.groups.flatMap (fun x => match x.2 with | some g => g.units | none => [])

/-- Units that are free, lowest first. -/
def Dev.freeUnits (d : Dev) : List Nat :=
  (List.range 1024).filter (fun u => !d.unitsHeld.contains u && !d.reservedUnits.contains (u / 32))

/-- A stored unit that lies beyond the first `n` units of its group's allocation moves to a free place within them. -/
def Dev.moveSlot (k n pos : Nat) (d : Dev) (mem : List Host.Cell) : Dev × List Host.Cell :=
  match d.group k with
  | none => (d, mem)
  | some g =>
    let s := tget {} g.slots pos
    match s.place with
    | none => (d, mem)
    | some p =>
      if p < g.capacity n then (d, mem)
      else
        let t := d.readSlot g s mem
        (t.d.updSlot k pos (fun s => { s with place := none })).putSlot k pos n t.bytes t.bad none id t.mem

/-- The cut of a group applies (R237): the group keeps every stored unit, and the freed units return to the store. -/
def mergeResizeApplied (k : Nat) (d : Dev) (mem : List Host.Cell) : Dev × List Host.Cell :=
  match d.group k with
  | none => (d, mem)
  | some g =>
    match g.cut with
    | none => (d, mem)
    | some n =>
      if g.lagNow d.now ≤ g.maxSkew then
        let (d, mem) := (g.slots.map (fun x => x.1)).foldl (fun x pos => Dev.moveSlot k n pos x.1 x.2) (d, mem)
        (((d.updGroup k (fun g => { g with units := g.units.take n, cut := none })).raise (aMg k 4) 6 0x1647 (le 2 k)).expose,
          mem)
      else (d, mem)

def execMergeResizeApplied (g : Fin 1024) (s : State) : Out1 := onMem (liveMem (mergeResizeApplied g.val)) s

/-! ### MERGE_GROUP_CFG (R238, R239) -/

/-- UNITS in a completion. -/
def unitsDone (st n : Nat) : Done := { status := st, patch := [(14, le 2 n)] }

def mergeCreate (c : Desc) (d : Dev) : Ran :=
  let k := c.u16 2
  let std := decide (c.u8 1 = 1)
  let e := c.u16 4
  let w := c.u16 6
  let ok := fun (o : Odu) => if std then decide (o.ty ≤ 5) else decide (o.ty = 6)
  match (d.leafOdu e).filter ok, (d.leafOdu w).filter ok with
  | some x, some y =>
    checked [(10, decide (c.u16 10 ≤ skewMax std x))] <|
    need (d.group k).isNone (conflictDone 0xF k) <|
    need (shapeOfOdu x = shapeOfOdu y && e ≠ w) refusedDone <|
    need (!std || ((d.point (mpKeyOf 2 0 e)).role ≠ 0 && (d.point (mpKeyOf 2 0 w)).role ≠ 0)) refusedDone <|
    need (!d.sourceHeld 0 e) (conflictDone 4 e) <|
    need (!d.sourceHeld 0 w) (conflictDone 4 w) <|
    let n := unitsFor x (c.u16 10)
    let us := d.freeUnits.take n
    need (us.length = n) (conflictDone 0x10 0) <|
    let st := fun (o : Nat) => if c.bit 8 2 && !d.copySf o then CopySt.aligning else .down
    let g : MGroup := {
      std := std, east := e, west := w, prefer := c.bit 8 0, insert := c.bit 8 1, merge := c.bit 8 2
      maxSkew := c.u16 10, lag := c.u16 10, units := us, outAis := c.bit 8 2
      e := { st := st e, sf := d.copySf e }, w := { st := st w, sf := d.copySf w } }
    ran ((d.setGroup k (some g)).insertWatch).expose (unitsDone 0 n)
  | _, _ =>
    need (d.group k).isNone (conflictDone 0xF k) <|
    .error refusedDone

def mergeDelete (k : Nat) (d : Dev) : Ran :=
  match d.group k with
  | none => .error refusedDone
  | some _ =>
    let hit := d.fedBy 0 2 k
    need hit.isNone (conflictDone 0xA (hit.getD 0)) <|
    ran (d.setGroup k none).expose (unitsDone 0 0)

/-- A resize: growth at once, or a cut that stays pending (R237). -/
def mergeResize (c : Desc) (d : Dev) : Ran :=
  let k := c.u16 2
  match d.group k with
  | none => .error refusedDone
  | some g =>
    match d.odu g.east with
    | none => .error refusedDone
    | some x =>
      let skew := c.u16 10
      let n := unitsFor x skew
      checked [(10, decide (skew ≤ skewMax g.std x))] <|
      let more := d.freeUnits.take (n - g.units.length)
      need (n ≤ g.units.length || more.length = n - g.units.length) (conflictDone 0x10 0) <|
      need g.cut.isNone (conflictDone 0xF k) <|
      let g' := { g with lag := g.lagNow d.now, lagSince := d.now, maxSkew := skew }
      if skew < g.maxSkew then ran (d.setGroup k (some { g' with cut := some n })) (unitsDone 3 n)
      else ran (d.setGroup k (some { g' with units := g.units ++ more })).expose (unitsDone 0 n)

/-- FLAGS of a body: INSERT or MERGE is 1, and INSERT is 0 where MODE says standard (R238, R239). -/
def mergeFlags (c : Desc) : Check :=
  (8, decide (c.u8 8 < 8) && decide (2 ≤ c.u8 8) && (c.u8 1 = 0 || !c.bit 8 1))

/-- The preference of a group, from the next unit played out. -/
def mergePrefer (c : Desc) (d : Dev) : Ran :=
  match d.group (c.u16 2) with
  | none => .error refusedDone
  | some g =>
    ran (d.setGroup (c.u16 2) (some { g with prefer := c.bit 8 0 })) (unitsDone 0 g.units.length)

def mergeGroupCfg (c : Desc) (d : Dev) (_j : Nat) : Ran :=
  let op := c.u8 0
  checked [atMost 0 op 3, atMost 1 (c.u8 1) 1, atMost 2 (c.u16 2) 1023] <|
  match op with
  | 1 =>
    checked [ atMost 4 (c.u16 4) 4095, atMost 6 (c.u16 6) 4095, mergeFlags c, (9, c.u8 9 = 0)
            , within 10 (c.u16 10) 1 8000, c.zeros 12 13, c.zeros 16 55 ] <| mergeCreate c d
  | 2 => checked [within 10 (c.u16 10) 1 8000] <| mergeResize c d
  | 3 => checked [mergeFlags c] <| mergePrefer c d
  | _ =>
    checked [ atMost 4 (c.u16 4) 4095, atMost 6 (c.u16 6) 4095, mergeFlags c, (9, c.u8 9 = 0)
            , within 10 (c.u16 10) 1 8000, c.zeros 12 13, c.zeros 16 55 ] <| mergeDelete (c.u16 2) d

def execMergeGroupCfg (c : Desc) (s : State) : Out1 := hostRow 0x30 c mergeGroupCfg s

/-! ### The plane selector (R240–R243) -/

/-- The slice that serves a port is fenced in a plane. -/
def Dev.sliceFenced (d : Dev) (plane p : Nat) : Bool := d.fenced (srcOf 14 (8 * plane + p / 8))

/-- The planes whose words a port's selector takes. -/
def Dev.selTakes (d : Dev) (p : Nat) : List (Fin 2) :=
  [0, 1].filter (fun (q : Fin 2) => !d.planeFenced q.val && !d.sliceFenced q.val p)

/-- The preferred plane, unless it is fenced as a whole. -/
def Dev.preferredNow (d : Dev) : Fin 2 :=
  if d.planeFenced d.plane.preferred.val then 1 - d.plane.preferred else d.plane.preferred

/-- A word leaves alone, as though its partner were poisoned (R240, R241); the 4,096th in a row is a class F fault of the
lagging plane (R243). -/
def Dev.selAlone (d : Dev) (p : Nat) (plane : Fin 2) (x : PWord) : Dev :=
  let d := d.selOut p x
  let d := (d.count32 (0xC0010C + 0x10 * p)).raise (0xC00100 + 0x10 * p) 2 0x1683 (le 1 p)
  let run := (d.psel p).run + 1
  let d := d.updPsel p (fun s => { s with run := if run = 4096 then 0 else run })
  if run = 4096 then
    (d.raise (0xC00100 + 0x10 * p) 3 0x1684 (le 1 p)).fault1 {
      source := BitVec.ofNat 16 (srcOf 7 p), cls := 3, checker := 2, addr := BitVec.ofNat 48 (1 - plane.val)
      master := 0xFE, access := 6 }
  else d

/-- The held words before a position leave alone; the number bounds the work. -/
def selFlush (p q : Nat) : Nat → Dev → Dev
  | 0, d => d
  | n + 1, d =>
    let s := d.psel p
    match s.held with
    | [] => d
    | x :: rest =>
      if 8 * x.cell + x.w < q then
        selFlush p q n ((d.updPsel p (fun s => { s with held := rest })).selAlone p s.ahead x)
      else d

/-- Two copies of one word (R24, R241, R242): `a` from the plane that is preferred. -/
def Dev.selPair (d : Dev) (p : Nat) (a b : PWord) : Dev :=
  let d := d.updPsel p (fun s => { s with run := 0 })
  if a.p && !b.p then d.selOut p b
  else
    let d := d.selOut p a
    if !a.p && !b.p && (a.d ≠ b.d || a.c ≠ b.c) then
      ((d.count32 (0xC00108 + 0x10 * p)).raise (0xC00100 + 0x10 * p) 1 0x1682 (le 1 p)).fault1 {
        source := BitVec.ofNat 16 (srcOf 7 p), cls := 2, checker := 1, addr := BitVec.ofNat 48 (a.cell % 65536)
        master := 0xFE, access := 6 }
    else d

/-- The cell number nearest to where the selector stands that ends in the 16 bits of a word's. -/
def unwrapCell (base : Nat) (cell : BitVec 16) : Nat :=
  let x := base - base % 65536 + cell.toNat
  if base + 32768 ≤ x && 65536 ≤ x then x - 65536 else if x + 32768 < base then x + 65536 else x

/-- A word that no other plane's word is paired with leaves as it is: of a port that only one plane feeds, or, where both
copies of its slice are fenced, poisoned (R241, R455). -/
def Dev.selSingle (d : Dev) (p : Nat) (plane : Fin 2) (x : PWord) : Dev :=
  match d.selTakes p with
  | [q] => if plane = q then d.selOut p x else d
  | _ => if plane = d.preferredNow then d.selOut p { x with p := true } else d

/-- A word while the selector waits for the first cell number that both planes present, after the plane `back` has been
resynchronised (R243): the carrying plane's words leave unpaired and uncounted, and the other's wait for them. -/
def Dev.selJoin (d : Dev) (p : Nat) (back plane : Fin 2) (x : PWord) : Dev :=
  let q := 8 * x.cell + x.w
  let s := d.psel p
  if plane = back then
    if q < s.pos then d.updPsel p (fun s => { s with joining := none, held := [] })
    else d.updPsel p (fun s => { s with held := (s.held ++ [x]).drop (s.held.length - 63), ahead := back })
  else
    let d := d.updPsel p (fun s => { s with held := s.held.filter (fun y => decide (q < 8 * y.cell + y.w)) })
    match s.held.find? (fun y => 8 * y.cell + y.w = q) with
    | some y =>
      let d := d.updPsel p (fun s => { s with joining := none })
      if d.plane.preferred = plane then d.selPair p x y else d.selPair p y x
    | none => d.selOut p x

/-- A word from the egress stage of a plane. -/
def pselWord (p : Nat) (plane : Fin 2) (w : SelWord) (d : Dev) : Dev :=
  if !d.portOn p then d
  else
    let s := d.psel p
    let base := if s.pos ≠ 0 then s.pos / 8 else match s.held with | x :: _ => x.cell | [] => 65536 + w.cell.toNat
    let x : PWord := { cell := unwrapCell base w.cell, w := w.w.val, d := w.d, c := w.c, p := w.p || !parityOk w.d w.c }
    let q := 8 * x.cell + x.w
    if (d.selTakes p).length ≠ 2 then d.selSingle p plane x
    else if let some back := s.joining then d.selJoin p back plane x
    else if q < s.pos then d
    else
      let d := if s.ahead = plane then d else selFlush p q s.held.length d
      if (d.selTakes p).length ≠ 2 then d.selSingle p plane x
      else
        match (d.psel p).held with
        | [] => d.updPsel p (fun s => { s with held := [x], ahead := plane })
        | y :: rest =>
          if s.ahead = plane then
            if rest.length < 62 then d.updPsel p (fun s => { s with held := s.held ++ [x] })
            else (d.updPsel p (fun s => { s with held := rest ++ [x] })).selAlone p plane y
          else if 8 * y.cell + y.w = q then
            let d := d.updPsel p (fun s => { s with held := rest })
            if d.plane.preferred = plane then d.selPair p x y else d.selPair p y x
          else d.selAlone p plane x

def execPselWord (p : Fin 64) (plane : Fin 2) (w : SelWord) (s : State) : Out1 := onDev (live (pselWord p.val plane w)) s

end Sys2Proof.Machine
end

