-- ==== Sys2Proof/Machine/Tsu.lean ====
section
/-! DEFINITION. The meanings of the timing commands (chapter 10) and of the calibration commands (chapter 11). -/

namespace Sys2Proof.Machine

/-- Selection inside a command: the phase error at entry to ACQUIRING on a 1PPS reference is free. -/
def Dev.selectFree (d : Dev) : Dev :=
  match d.choose with
  | some r =>
    if 64 ≤ r && r < 68 && (d.tref r).pps then (d.draw.2).select ((d.draw.1.toNat % 1000000000 : Nat) - 500000000)
    else d.select 0
  | none => d.select 0

/-! ### TSU_REF_CFG (R312) -/

/-- Ranges of BW (R295). -/
def bwOk (r : Nat) (pps : Bool) (bw : Nat) : Bool :=
  if r < 64 then bw ∈ [0, 1000, 3500, 10000]
  else if r < 68 then (if pps then decide (bw ≤ 100) else bw = 0 || (50 ≤ bw && bw ≤ 1000))
  else true

/-- The range checks of section 0, in body order. -/
def refChecks (c : Desc) : List Check :=
  let r := c.u8 1
  let pps := c.bit 2 1
  [ atMost 1 r 69,
    (2, decide (c.u8 2 < 8) && (!pps || (64 ≤ r && r ≤ 67))),
    atMost 4 (c.u8 4) 15, c.zeros 5 5, (6, bwOk r pps (c.u16 6)),
    (8, if 64 ≤ r && r ≤ 67 then (if pps then c.u32 8 = 1 else 1000 ≤ c.u32 8 && c.u32 8 ≤ 200000000) else c.u32 8 = 0),
    within 12 (c.u32 12) 100 50000, within 16 (c.u32 16) 200 100000, within 20 (c.u16 20) 1 1000, atMost 22 (c.u16 22) 1200,
    (24, decide ((c.s32 24).natAbs ≤ 1000000) && (pps || c.s32 24 = 0)),
    (28, r ≠ 69 || decide (1 ≤ c.u8 28)), c.zeros 29 55 ]

/-- Whether the reference is the lowest lane of an enabled SDH port (R289). -/
def Dev.sdhLane (d : Dev) (r : Nat) : Bool := decide (r < 64) && isSdh (d.port r).format

/-- A reference without a measurement (R285). -/
def TRef.unmeasured (x : TRef) : TRef := { x with offset := none, driftM := none, offs := [], pulses := [] }

/-- A timing row: the runs that it has aborted complete after its events (R372). -/
def tsuRow (f : Dev → Dev) (s : State) : Out1 := onDev (live (fun d => (f d).endAborted)) s

/-- A change that returns the reference to FAILED or OFF (R287, R312). -/
def Dev.refRestart (d : Dev) (r : Nat) (enable was : Bool) : Dev :=
  let st := (d.tref r).st
  let d := d.updRef r (fun x => { x.unmeasured with
    st := if enable then 1 else 0, cause := if enable then 6 else 0, softWarn := false
    disputed := false, active := false, s1 := 0xF, s1Cand := 0xF, s1Run := 0, been := x.been && was })
  let d := if r = 69 && enable then { d with tsu.steerAt := d.now } else d
  let d := if enable && (st = 2 || st = 3) then d.raise (aRefEvent r) 0 0x1841 (d.refArgs r) else d
  if d.tsu.sel = some r then d.tsuLost else d

/-- Section 0: one reference. -/
def tsuRefCfg0 (c : Desc) (d : Dev) : Ran :=
  let r := c.u8 1
  let x := d.tref r
  let enable := c.bit 2 0
  let qlSrc := c.bit 2 2
  checked (refChecks c) <|
  need (decide (c.u32 12 < c.u32 16)) refusedDone <|
  need (if d.worker then r = 68 || c.u8 3 = 0 else !(r = 68 && enable)) refusedDone <|
  need (!qlSrc || d.sdhLane r) refusedDone <|
    let steerTo := if r = 69 then c.u8 28 else x.steerTo
    let new := { x with
      prio := c.u8 3, ql := c.u8 4, soft := c.u32 12, hard := c.u32 16, drift := c.u16 20, wtr := c.u16 22
      enable := enable, pps := c.bit 2 1, qlSrc := qlSrc, bw := c.u16 6, freq := c.u32 8, delay := c.s32 24
      steerTo := steerTo }
    let other := (x.enable, x.pps, x.qlSrc, x.bw, x.freq, x.delay, x.steerTo)
      ≠ (new.enable, new.pps, new.qlSrc, new.bw, new.freq, new.delay, new.steerTo)
    let d := d.updRef r (fun _ => new)
    let d := if other then d.refRestart r enable x.enable else d
    ran d.disputes.selectFree.endAborted

/-- Section 1: the global settings. FORCE_REF is stored with any MODE, and MODE 1 alone uses it (DESIGN CHOICE 122). -/
def tsuRefCfg1 (c : Desc) (d : Dev) : Ran :=
  checked [ atMost 1 (c.u8 1) 3, atMost 2 (c.u8 2) 7, atMost 3 (c.u8 3) 69, atMost 4 (c.u8 4) 15, c.zeros 5 5,
    within 6 (c.u16 6) 10 10000, within 8 (c.u32 8) 60 1209600, c.zeros 12 55 ] <|
    let d := { d with
      tsu.mode := c.u8 1, tsu.revertive := c.bit 2 0, tsu.qlEn := c.bit 2 1, tsu.hoEn := c.bit 2 2
      tsu.forceRef := c.u8 3, tsu.ownQl := c.u8 4, tsu.dispute := c.u16 6, tsu.hoMax := c.u32 8 }
    let d := if c.u8 1 = 3 && d.tsu.st ≠ 0 then d.tsuEnter 0 none else d
    ran d.disputes.selectFree.endAborted

/-- The range checks of section 2, in body order. With MODE 0, which has no function, the ranges are those of a CLKOUT or of
FPO0's frame pulse, and of FPO1 the wider ones of a 1PPS; FREQ and WIDTH are refused at 0 there too (DESIGN CHOICE 121). -/
def outChecks (c : Desc) : List Check :=
  let o := c.u8 1
  let m := c.u8 2
  let f := c.u32 4
  let w := c.u32 8
  let pps := o = 5 && (m = 2 || m = 0)
  [ atMost 1 o 5, atMost 2 m (if o = 5 then 2 else 1), (3, decide (c.u8 3 < 8) && c.u8 3 % 4 ≠ 3),
    (4, if o < 4 then 1 ≤ f && f ≤ 312500000 else f = 0),
    (8, if o < 4 then w = 0 else w % 8 = 0 && 8 ≤ w && w ≤ (if pps then 500000000 else 62496)),
    atMost 12 (c.u32 12) (if pps then 999999999 else 124999), c.zeros 16 55 ]

/-- Section 2: one output. -/
def tsuRefCfg2 (c : Desc) (d : Dev) : Ran :=
  let o := c.u8 1
  let x := d.tout o
  checked (outChecks c) <|
  need (!(o = 5 && x.mode ≠ 0 && c.u8 2 ≠ 0 && x.mode ≠ c.u8 2)) (conflictDone 0x22 5) <|
    let new := { x with mode := c.u8 2, flags := c.u8 3, freq := c.u32 4, width := c.u32 8, offset := c.u32 12 }
    -- the edges stay, and their aligned place moves with OFFSET (R309)
    let d := d.updOut o (fun _ => new.shifted o (x.offset - new.offset))
    let moved := (x.mode, x.freq, x.offset) ≠ (new.mode, new.freq, new.offset)
    ran (if moved then
      { d with tsu.realign := d.tsu.realign ++ [{ mask := 2 ^ o, notBefore := d.now + 1000000, job := none }] } else d)

/-- TSU_REF_CFG. -/
def tsuRefCfg (c : Desc) (d : Dev) (_job : Nat) : Ran :=
  match c.u8 0 with
  | 0 => tsuRefCfg0 c d
  | 1 => tsuRefCfg1 c d
  | 2 => tsuRefCfg2 c d
  | _ => .error (refusedDone 0)

def execTsuRefCfg (c : Desc) (s : State) : Out1 := hostRow 0x50 c tsuRefCfg s

/-! ### TSU_STEER (R302, R305, R313) -/

/-- OP 0: the frequency of the host servo. -/
def Dev.steer0 (d : Dev) (ppt : Int) (lock : Bool) : Dev :=
  let d := ({ d with
    tsu.meanSum := d.tsu.meanSum + d.tsu.steer * (d.now - d.tsu.meanAt : Nat), tsu.meanAt := d.now
    tsu.steer := ppt, tsu.steerAt := d.now }).updRef 69 (fun x => { x with active := true })
  let d := if d.tsu.sel = some 69 && (d.tsu.st = 1 || d.tsu.st = 2) then d.setTerm ppt else d
  let d :=
    if d.tsu.sel = some 69 && d.tsu.st = 1 && lock then d.tsuEnter 2 (some 69)
    else if d.tsu.sel = some 69 && d.tsu.st = 2 && !lock then d.tsuEnter 1 (some 69)
    else d
  (d.refEval 69).disputes.endAborted

/-- TSU_STEER. -/
def tsuSteer (c : Desc) (d : Dev) (_job : Nat) : Ran :=
  let op := c.u8 0
  checked [ atMost 0 op 2, (1, c.u8 1 = 0 || (op = 0 && c.u8 1 = 1)), c.zeros 2 7,
    (8, decide ((c.s32 8).natAbs ≤ 200000000)), (12, decide ((c.s64 12).natAbs ≤ 10 ^ 15)),
    c.zeros 26 27, (28, decide (c.u32 28 ≤ 999999999)), c.zeros 32 55 ] <|
  if op = 0 then need (d.tref 69).enable refusedDone (ran (d.steer0 (c.s32 8) (c.bit 1 0)))
  else need (!d.worker) refusedDone <|
    if op = 1 then ran (d.stepTo (d.timeNs + c.s64 12) 0)
    else ran (d.stepTo (bodyN c.body 20 6 * 1000000000 + c.u32 28 : Nat) 1)

def execTsuSteer (c : Desc) (s : State) : Out1 := hostRow 0x51 c tsuSteer s

/-! ### Output alignment (R309, R314) -/

/-- The first named output that awaits alignment. -/
def Dev.awaiting (d : Dev) (mask : Nat) : Option Nat :=
  (List.range 6).find? (fun o => mask.testBit o && d.tsu.realign.any (fun r => r.mask.testBit o))

/-- TSU_REALIGN. -/
def tsuRealign (c : Desc) (d : Dev) (job : Nat) : Ran :=
  checked [ within 0 (c.u8 0) 1 63, c.zeros 1 55 ] <|
  match d.awaiting (c.u8 0) with
  | some o => .error (conflictDone 0x22 o)
  | none => ranLater { d with
      tsu.realign := d.tsu.realign ++ [{ mask := c.u8 0, notBefore := d.now + 1000000, job := some job }] }

def execTsuRealign (c : Desc) (s : State) : Out1 := hostRow 0x52 c tsuRealign s

/-- An alignment is due: the counter has just come to a second boundary, 1 ms or more after the command (R309, R314). -/
def Dev.alignDue (d : Dev) (r : Realign) : Bool := decide (d.tsu.ns < 8) && decide (r.notBefore + d.tsu.ns ≤ d.now)

/-- At a second boundary the outputs that have waited 1 ms jump to their aligned phase, and their commands complete. -/
def Dev.align (d : Dev) : Dev :=
  let due := d.tsu.realign.filter d.alignDue
  if due.isEmpty then d
  else
    let d := { d with tsu.realign := d.tsu.realign.filter (fun r => !d.alignDue r) }
    let d := (List.range 6).foldl (fun d o =>
      if due.any (fun r => r.mask.testBit o) then d.updOut o (fun x => { x with phase := 0 }) else d) d
    let d := d.tsuRaise [(9, [])]
    due.foldl (fun d r => match r.job with | some j => d.complete 0x52 j okDone | none => d) d

def execOutputAlignment (s : State) : Out1 := onDev (live Dev.align) s

/-- A clock or frame-pulse output is held low (R310, R312). -/
def Dev.outLow (d : Dev) (o : Nat) : Bool :=
  let x := d.tout o
  x.mode = 0 || (x.flags % 4 = 1 && d.tsu.st = 0) || (x.flags % 4 = 2 && (d.tsu.st = 0 || d.tsu.st = 3 || d.tsu.st = 4))

/-- The frequency of an output in 10^-12 Hz: FREQ, 8 kHz of a frame pulse or 1 Hz of a 1PPS, scaled by the DCO value (R307). -/
def Dev.outRate (d : Dev) (o : Nat) : Int :=
  let x := d.tout o
  (if o < 4 then (x.freq : Int) else if o = 5 && x.mode = 2 then 1 else 8000) * (1000000000000 + d.dco)

/-- The level that an output drives now: high for WIDTH, and a CLKOUT for half of each cycle (DESIGN CHOICE 129), from each
rising edge on; the other way round with INVERT; low while it is off or squelched (R307, R309, R310, R312). -/
def Dev.outPin (d : Dev) (o : Nat) : Bool :=
  let x := d.tout o
  let t := d.timeNs - x.offset - x.phase
  !d.outLow o && (decide (if o < 4 then t * x.freq % 1000000000 < 500000000 else t % outCycle o x < x.width) != x.flags.testBit 2)

/-! ### References -/

/-- OFFSETs, newest first, back to the one that was in force at elapsed ns `t`. -/
def keepOffs (t : Nat) : List (Nat × Int) → List (Nat × Int)
  | [] => []
  | e :: es => if e.1 ≤ t then [e] else e :: keepOffs t es

/-- The DRIFT interval of a reference in s (R285). -/
def TRef.driftLen (x : TRef) : Nat := if x.pps then 64 else 10

/-- The least-squares slope, in ppt, of the phases of the last 16 pulses in ns, one second apart, newest first. The spec
rounds no part of a ppt, so which neighbour it is stays free. -/
def Dev.slope (d : Dev) (ps : List Int) : Int × Dev :=
  d.meanFree (1000 * ((ps.zipIdx.map (fun x => (15 - 2 * (x.2 : Int)) * x.1)).sum)) 680

/-- OFFSET of a measurement: of a frequency input its mean over the preceding second; of a 1PPS the slope of the phases of the
last 16 pulses, none before there are 16 (R285). `phase` is by how much the pulse comes before its place on the local
oscillator. -/
def Dev.offsetOf (d : Dev) (r : Nat) (offset phase : Int) : Option Int × Dev :=
  if !(d.tref r).pps then (some offset, d)
  else
    let d := d.updRef r (fun x => { x with pulses := (phase :: x.pulses).take 16 })
    if (d.tref r).pulses.length < 16 then (none, d) else ((some (d.slope (d.tref r).pulses).1), (d.slope (d.tref r).pulses).2)

/-- DRIFT by the oldest OFFSET kept: none before the DRIFT interval of `k` s is full (R285). -/
def Dev.driftOf (d : Dev) (k : Nat) (o : Int) (oldest : Option (Nat × Int)) : Option Int × Dev :=
  match oldest with
  | some (t, old) =>
    if t + k * 1000000000 ≤ d.now then (some (d.meanFree (o - old) k).1, (d.meanFree (o - old) k).2) else (none, d)
  | none => (none, d)

/-- The OFFSETs of an input within its DRIFT interval, newest first. -/
def Dev.offsOf (d : Dev) (x : TRef) (o : Int) : List (Nat × Int) :=
  (d.now, o) :: keepOffs (d.now - x.driftLen * 1000000000) x.offs

/-- A new OFFSET and the DRIFT that it gives (R285). -/
def Dev.takeOffset (d : Dev) (r : Nat) (o : Int) : Dev :=
  let x := d.tref r
  let offs := d.offsOf x o
  let drift := d.driftOf x.driftLen o offs.getLast?
  let soft := decide (x.soft * 1000 < o.natAbs)
  let d := drift.2.updRef r (fun x => { x with offset := some o, driftM := drift.1, offs := offs, softWarn := soft })
  if soft && !x.softWarn then d.raise (aRefEvent r) 2 0x1843 (d.refArgs r) else d

/-- A frequency input has been measured within the last second. -/
def Dev.measuredNow (d : Dev) (r : Nat) : Bool :=
  !(d.tref r).pps && (d.tref r).offs.head?.any (fun e => decide (d.now < e.1 + 1000000000))

/-- A measurement (R285, R286), of a frequency input once a second, of a 1PPS at each pulse. -/
def Dev.measure (d : Dev) (r : Nat) (offset phase : Int) : Dev :=
  if !(d.tref r).enable || r = 69 || (r < 64 || r = 68) && !d.refActive r || d.measuredNow r then d
  else
    let (o, d) := (d.updRef r (fun x => { x with active := true })).offsetOf r offset phase
    ((match o with | some o => d.takeOffset r o | none => d).refEval r).disputes

def execRefMeasurement (r : Fin 70) (offset : Int) (phase : Int) (s : State) : Out1 :=
  tsuRow (fun d => d.measure r offset phase) s

/-- Loss of activity (R284): of a lane or of reference 68 as their own state shows it, of a REFIN as the row reports it. -/
def Dev.activityLost (d : Dev) (r : Nat) : Dev :=
  let x := d.tref r
  if x.st = 0 || r = 69 || ((r < 64 || r = 68) && d.refActive r) then d
  else
    let d := d.updRef r (fun x => { x.unmeasured with active := false })
    (d.refFailed r 1).disputes

def execRefActivityLost (r : Fin 70) (s : State) : Out1 := tsuRow (fun d => d.activityLost r) s

def execRefSignalFail (r : Fin 70) (s : State) : Out1 :=
  tsuRow (fun d => if r.val < 64 && d.refSf r then (d.refEval r).disputes else d) s

/-- STEER_TIMEOUT without a TSU_STEER OP 0 (R284). -/
def Dev.steerTimeout (d : Dev) : Dev :=
  let x := d.tref 69
  if x.st ≠ 0 && d.after d.tsu.steerAt (x.steerTo * 1000000000) then
    ((d.updRef 69 (fun x => { x with active := false })).refFailed 69 5).disputes
  else d

def execRefSteerTimeout (s : State) : Out1 := tsuRow Dev.steerTimeout s

def execRefWtrExpiry (r : Fin 70) (s : State) : Out1 :=
  tsuRow (fun d => if (d.refFail r).isNone then (d.refExpire r).disputes else d) s

/-- One received S1 of a lane reference: accepted when 8 consecutive frames carry it (R289). -/
def Dev.s1Frame (d : Dev) (r ql : Nat) : Dev :=
  let x := d.tref r
  if !(x.enable && x.qlSrc) then d
  else
    let run := if x.s1Cand = ql then min 8 (x.s1Run + 1) else 1
    let d := d.updRef r (fun x => { x with s1Cand := ql, s1Run := run })
    if run = 8 && x.s1 ≠ ql then
      let d := (d.updRef r (fun x => { x with s1 := ql })).raise (aRefEvent r) 4 0x1845 (d.refArgs r)
      d.disputes.selQlCheck.calQl
    else d

def execRefQlChange (r : Fin 70) (ql : BitVec 4) (s : State) : Out1 := tsuRow (fun d => d.s1Frame r ql.toNat) s

/-! ### TSU states -/

/-- Lock window in ns and dwell in ns of a reference's input type (R295). -/
def Dev.lockOf (d : Dev) (r : Nat) : Nat × Nat :=
  if r < 64 then (50, 1000000000)
  else if r < 68 then (if (d.tref r).pps then (100, 100000000000) else (50, 10000000000))
  else (10, 100000000)

/-- The phase error at the detector, as the selection row reports it once a second, against the lock window. -/
def Dev.seePhase (d : Dev) (e : Int) : Dev :=
  match d.tsu.sel with
  | some r =>
    if (d.tsu.st = 1 || d.tsu.st = 2) && r ≠ 69 then
      let w := (d.lockOf r).1
      { d with
        tsu.phaseErr := e
        tsu.inSince := if e.natAbs ≤ w then d.tsu.inSince else d.now
        tsu.outSince := if 4 * w < e.natAbs then d.tsu.outSince else d.now }
    else d
  | none => d

def execRefSelection (phaseErr : Int) (s : State) : Out1 :=
  tsuRow (fun d => if d.choose = d.tsu.sel then (d.select phaseErr).seePhase phaseErr else d.select phaseErr) s

def Dev.tsuLockedNow (d : Dev) : Dev :=
  match d.tsu.sel with
  | some r =>
    let (w, t) := d.lockOf r
    if d.tsu.st = 1 && r ≠ 69 && d.after d.tsu.inSince t && decide (d.tsu.phaseErr.natAbs ≤ w) then d.tsuEnter 2 (some r) else d
  | none => d

def execTsuLocked (s : State) : Out1 := tsuRow Dev.tsuLockedNow s

/-- A phase error outside four lock windows for the dwell: ACQUIRING again, with the step of R305 on a 1PPS reference. -/
def Dev.phaseLoss (d : Dev) : Dev :=
  match d.tsu.sel with
  | some r =>
    let (w, t) := d.lockOf r
    if d.tsu.st = 2 && r ≠ 69 && d.after d.tsu.outSince t && decide (4 * w < d.tsu.phaseErr.natAbs) then d.acquire r d.tsu.phaseErr
    else d
  | none => d

def execTsuPhaseLoss (s : State) : Out1 := tsuRow Dev.phaseLoss s

def execTsuLostResolve (s : State) : Out1 :=
  tsuRow (fun d => if d.tsu.st ≠ 4 then d else if d.choose.isSome then d.selectFree else d.holdOrFree) s

/-- HOLDOVER_MAX; a reference chosen at that instant wins. -/
def Dev.holdoverExpired (d : Dev) : Dev :=
  if d.tsu.st = 3 && d.after d.tsu.since (d.tsu.hoMax * 1000000000) then
    if d.choose.isSome then d.selectFree else d.tsuEnter 0 none [(6, [])]
  else d

def execTsuHoldoverExpired (s : State) : Out1 := tsuRow Dev.holdoverExpired s

/-- An entry of the history, the mean of the second that ends (R299). -/
def Dev.learn (d : Dev) (mean : Int) : Dev :=
  { d with tsu.hist := (mean :: d.tsu.hist).take histMax, tsu.histAt := d.now, tsu.meanSum := 0, tsu.meanAt := d.now }

/-- A second spent wholly in LOCKED: its mean term enters the history. The loop's mean, which the row brings, stands as the
term until the next report; that of reference 69 is the mean of STEER_PPT, whose part below 1 ppt is free (R299). -/
def Dev.historySecond (d : Dev) (mean : Int) : Dev :=
  if d.tsu.st = 2 && d.after d.tsu.histAt 1000000000 then
    if d.tsu.sel = some 69 then
      let (m, d) := d.meanFree (d.tsu.meanSum + d.tsu.steer * (d.now - d.tsu.meanAt : Nat)) (d.now - d.tsu.histAt)
      d.learn m
    else (d.learn mean).setTerm mean
  else d

def execHistorySecond (mean : Int) (s : State) : Out1 := onDev (live (fun d => d.historySecond mean)) s

/-- TIME_CTRL.CAPTURE latches seconds and nanoseconds together. -/
def Dev.capture (d : Dev) : Dev := { d with tsu.capSec := d.tsu.sec, tsu.capNs := d.tsu.ns }

/-! ### Calibration -/

/-- The running second of the elapsed-time base. -/
def Dev.elapsedSec (d : Dev) : Nat := d.now / 1000000000

/-- Once in each second of the elapsed-time base: C from the temperature (R319), and the term of the last whole second. -/
def Dev.calSecond (d : Dev) : Dev :=
  if d.elapsedSec ≤ d.cal.corrSec then d
  else
    let d := ({ d with cal.corrSec := d.elapsedSec }).recompute
    { d with tsu.lastTerm := d.tsu.freqTerm }

def execCalSecond (s : State) : Out1 := onDev (live Dev.calSecond) s

/-- A new temperature; more than 0.5 °C from its value at the start aborts a run (reason 5). -/
def Dev.newTemp (d : Dev) (t : Int) (i2c : Bool) : Dev :=
  let t := signed 16 (twos 16 t)
  let d := { d.calMark with cal.temp := t, cal.i2c := i2c }
  match d.cal.run with
  | some r => if 128 < (t - r.temp0).natAbs then d.calAbort 5 else d
  | none => d

/-- A read of the I2C sensor (R321, R322): the transfer on the bus, and its answer. After the fifth failure in a row the
on-die sensor is used from the next second. -/
def Dev.i2cRead (d : Dev) (ans : Option (Byte × Byte)) : Dev :=
  let cfg := d.reg 0x60000
  let d := d.emit (.i2c (fld cfg 1 7) (fld cfg 8 8))
  match ans with
  | some (hi, lo) => ({ d with cal.fails := 0 }).newTemp (256 * hi.toNat + lo.toNat : Nat) true
  | none =>
    let d := { d with cal.fails := d.cal.fails + 1, cal.i2c := true }
    if d.cal.fails = 5 then (({ d with cal.srcFail := true }).raise aCalEvent 2 0x1903 []).calAbort 6 else d

/-- A reading of a temperature source, once in each second of the elapsed-time base, that of the I2C sensor in its first 100 ms
(R321). One of a source that is not in use changes nothing. -/
def Dev.tempRead (d : Dev) (res : TempReading) : Dev :=
  let i2c := bit (d.reg 0x60000) 0 && !d.cal.srcFail
  if d.cal.readSec = some d.elapsedSec then d
  else
    let d' := { d with cal.readSec := some d.elapsedSec }
    match res with
    | .onDie t => if i2c then d else d'.newTemp t false
    | .i2c ans => if i2c && decide (d.now % 1000000000 < 100000000) then d'.i2cRead ans else d

def execTempRead (res : TempReading) (s : State) : Out1 := onDev (live (fun d => d.tempRead res)) s

/-- Points of a correction set. -/
def Dev.calSet (d : Dev) (s : Nat) : List CalPoint := tget [] d.cal.sets s

/-- The first precondition of R325 that fails at a start. -/
def Dev.calReason (d : Dev) : Option Nat :=
  if d.tsu.st ≠ 2 then some 1
  else if !d.after d.tsu.lockedAt 600000000000 then some 2
  else if (match qlRank d.selQlNow with | some q => decide (2 < q) | none => true) then some 3
  else if d.tsu.sel = some 69 then some 4
  else if d.cal.srcFail then some 6
  else none

/-- A refusal that gives no reason returns REASON 0 (R326). -/
def noReason (k : Ran) : Ran :=
  match k with
  | .error r => .error { r with patch := if r.patch.isEmpty then [(8, le 1 0)] else r.patch }
  | .ok x => .ok x

/-- CAL_RUN (R324, R326). OP 1 reads only byte 0, and has no measured VALUE and TEMP. -/
def calRunCmd (c : Desc) (d : Dev) (job : Nat) : Ran := noReason <|
  checked [atMost 0 (c.u8 0) 1] <|
  if c.u8 0 = 1 then
    match d.cal.run with
    | none => .error refusedDone
    | some r =>
      need (!(d.after r.start (r.window * 1000000000))) refusedDone <| ran (d.calAbort 7) { patch := [(8, le 10 0)] }
  else
    checked [ atMost 1 (c.u8 1) 3, (2, c.u8 2 ≤ 7 && c.u8 2 ≤ (d.calSet (c.u8 1)).length), c.zeros 3 3,
      within 4 (c.u16 4) 100 10000, c.zeros 6 7, c.zeros 9 11, c.zeros 18 55 ] <|
    match d.cal.run with
    | some _ => .error (conflictDone 0x1F 0)
    | none => match d.calReason with
      | some x => .error { status := 1, patch := [(8, le 1 x)] }
      | none => ranLater { d with
          cal.run := some { set := c.u8 1, point := c.u8 2, window := c.u16 4, job := job, start := d.now, temp0 := d.cal.temp
                            mark := d.now } }

def execCalRun (c : Desc) (s : State) : Out1 := hostRow 0x53 c calRunCmd s

/-- Temperatures rise strictly (R317). -/
def risesOk : List CalPoint → Bool
  | p :: q :: rest => decide (p.temp < q.temp) && risesOk (q :: rest)
  | _ => true

/-- The end of the window (R327), or an abort with reason 9 (R325): the means are those over the time of the run. -/
def Dev.calWindowEnd (d : Dev) : Dev :=
  match d.calMark.cal.run with
  | none => d
  | some r =>
    if !d.after r.start (r.window * 1000000000) then d
    else
      let (v, d) := d.meanNearest r.sumDco (d.now - r.start)
      let (t, d) := d.meanFree r.sumTemp (d.now - r.start)
      let ps := d.calSet r.set
      let new : CalPoint := { temp := t, value := v }
      let ps' := ps.take r.point ++ [new] ++ ps.drop (r.point + 1)
      if !risesOk ps' then d.calAbort 9
      else
        let d := { d with cal.run := none, cal.sets := tput [] d.cal.sets r.set ps' }
        let d := d.raise aCalEvent 0 0x1901 (le 1 r.set ++ le 1 r.point ++ le 1 0)
        let d := if d.cal.active = r.set then d.recompute else d
        d.complete 0x53 r.job { patch := [(8, le 1 0), (12, le 4 (twos 32 v)), (16, le 2 (twos 16 t))] }

def execCalRunWindowEnd (s : State) : Out1 := onDev (live Dev.calWindowEnd) s

/-- The points of a CAL_TABLE_COMMIT body. -/
def calPoints (c : Desc) (n : Nat) : List CalPoint :=
  (List.range n).map (fun p => { temp := c.s16 (8 + 6 * p), value := c.s32 (10 + 6 * p) })

/-- The first point at fault: its TEMP does not rise or its VALUE is out of range, or it is not 0 beyond NPOINTS. -/
def calPointChecks (c : Desc) (n : Nat) : List Check :=
  (List.range 8).flatMap (fun p =>
    if p < n then
      [(8 + 6 * p, p = 0 || decide (c.s16 (8 + 6 * p - 6) < c.s16 (8 + 6 * p))),
       (10 + 6 * p, decide ((c.s32 (10 + 6 * p)).natAbs ≤ 200000000))]
    else [c.zeros (8 + 6 * p) (9 + 6 * p), c.zeros (10 + 6 * p) (13 + 6 * p)])

/-- CAL_TABLE_COMMIT (R323). OP 1 reads only bytes 0–1. -/
def calTableCommit (c : Desc) (d : Dev) (_job : Nat) : Ran :=
  let op := c.u8 0
  let set := c.u8 1
  checked [atMost 0 op 2, atMost 1 set 3] <|
  if op = 1 then ran ({ d with cal.active := set }).recompute
  else
    checked ([atMost 2 (c.u8 2) 8, c.zeros 3 7] ++ calPointChecks c (c.u8 2)) <|
    need (!(d.cal.run.any (fun r => r.set = set))) (conflictDone 0x1E set) <|
      let d := { d with cal.sets := tput [] d.cal.sets set (calPoints c (c.u8 2)) }
      let d := if op = 2 then { d with cal.active := set } else d
      ran (if d.cal.active = set then d.recompute else d)

def execCalTableCommit (c : Desc) (s : State) : Out1 := hostRow 0x54 c calTableCommit s

end Sys2Proof.Machine
end

