-- ==== Sys2Proof/Machine/RegRead.lean ====
section
/-! DEFINITION. Reads of the register map: the RO fields that show other state (the register maps of every chapter), and the
value of a 32-bit read (R402–R408). Pure counters, RS registers and RW fields are read from the register file. -/

namespace Sys2Proof.Machine

/-- The number of whole seconds left of `t` ns since `since`, rounded up (log entry 41). -/
def Dev.secondsLeft (d : Dev) (since t : Nat) : Nat := (since + t - d.now + 999999999) / 1000000000

/-- A signed value of 32 bits, saturating. -/
def sat32 (x : Int) : Word := BitVec.ofNat 32 (twos 32 (clampI (-(2 ^ 31)) (2 ^ 31 - 1) x))

/-- The queue whose registers lie at an address. -/
def queueAt (a : Nat) : Option QId :=
  let lane := (a - 0x100000) / 0x400
  let j := (a - 0x120100) / 0x80
  let g := (a - 0x400000) / 0x800
  if 0x100000 ≤ a && a < 0x110000 then
    if h : lane < 64 then some (if (a - 0x100000) % 0x400 < 0x120 then .laneIn ⟨lane, h⟩ else .laneEg ⟨lane, h⟩) else none
  else if 0x120100 ≤ a && a < 0x120500 then
    if h : j < 8 then some (if (a - 0x120100) % 0x80 < 0x60 then .jyIn ⟨j, h⟩ else .jyEg ⟨j, h⟩) else none
  else if 0x400000 ≤ a && a < 0x480000 then
    if h : g < 256 then some (if (a - 0x400000) % 0x800 < 0x120 then .twIn ⟨g, h⟩ else .twOut ⟨g, h⟩) else none
  else none

/-- The point whose status group holds an address (R145). -/
def Dev.pointAt (d : Dev) (a : Nat) : Nat :=
  if a < 0x300000 then
    let p := (a - 0x200000) / 0x1000
    if (a - 0x200000) % 0x1000 < 0x50 then mpKeyOf (if isSdh (d.port p).format then 4 else 1) 0 p else mpKeyOf 5 0 p
  else if a < 0x310000 then mpKeyOf 6 0 ((a - 0x308000) / 0x10)
  else if a < 0x330000 then mpKeyOf 7 0 ((a - 0x310000) / 0x10)
  else if a < 0x350000 then mpKeyOf 8 0 ((a - 0x330000) / 0x10)
  else
    let l := (a - 0x350000) % 0x80 / 0x10
    mpKeyOf (if l = 0 then 2 else 3) l ((a - 0x350000) / 0x80)

/-- The point of a status group exists and has a ROLE: any other group reads 0 and takes no write (R145). -/
def Dev.groupShown (d : Dev) (a : Nat) : Bool :=
  let k := d.pointAt a
  (d.point k).role ≠ 0 && d.pointExists (mpTyOf k) (mpIndexOf k)

/-- A queue's QLEVEL (R48, R51). -/
def Dev.qlevel (d : Dev) (q : QId) : Word :=
  let f := d.queue q
  let isOn := d.lwm q < d.hwm q
  fldAt f.level 0 13 ||| bitAt (isOn && d.hwm q ≤ f.level) 13 ||| bitAt (isOn && f.level ≤ d.lwm q) 14 ||| fldAt f.held.length 16 13

/-- The armed checkers of a source. -/
def Dev.srcArmed (d : Dev) (src : Nat) : Bool := d.arms.any (fun x => x.1 / 16 = src && x.2.count ≠ 0)

/-- The source that the injection fields of a fault window concern: the window's own, or the collector's TARGET. -/
def Dev.injSource (d : Dev) (b : Nat) : Nat := if b = 0x40040 then fld (d.reg (b + 0x2C)) 16 16 else fwSource b

/-- The unit of a fault window is fenced, and its partner. -/
def Dev.windowFences (d : Dev) (b : Nat) : Word :=
  let s := fwSource b
  if fenceable s then bitAt (d.fenced s) 1 ||| bitAt (d.fenced (partner s)) 2 else 0

/-- Ports that are shed now. -/
def Dev.shedMap (d : Dev) (half : Nat) : Word := bitsOf ((List.range 32).map (fun i => (d.port (32 * half + i)).shedNow))

/-- One word of FLT_FENCED (R467). -/
def Dev.fencedMap (d : Dev) (w : Nat) : Word :=
  if w = 13 then
    bitsOf ((List.range 18).map (fun k => if k < 16 then d.fenced (srcOf 14 k) else d.fenced (srcOf 15 (k - 16))))
  else
    let u := fun (k : Nat) => if w < 8 then srcOf 9 (32 * w + k) else if w < 10 then srcOf 11 (32 * (w - 8) + k)
      else if w < 12 then srcOf 12 (32 * (w - 10) + k) else srcOf 13 k
    bitsOf ((List.range 32).map (fun k => d.fenced (u k)))

/-- Staged owner fields differ from the owners in force (R415). -/
def Dev.ownersPending (d : Dev) : Bool :=
  (List.range 16).any (fun u => fld (d.reg (aCrc u 0)) 8 5 ≠ (d.crcU u).owner.toNat) || bit (d.reg 0xA00008) 31 != d.xc.owner

/-- CFG_STATUS (R413–R415). -/
def Dev.cfgStatus (d : Dev) : Word :=
  (if d.cfg.blocksValid then fldAt d.cfg.blocks.toNat 0 18 else 0) ||| bitAt d.cfg.blocksValid 24 ||| bitAt d.cfg.mismatch 25
    ||| bitAt d.cfg.busy 26 ||| bitAt d.ownersPending 27

/-- PLANE_STATE (R27–R31). -/
def Dev.planeWord (d : Dev) : Word :=
  let units := fun (p : Nat) => d.plane.fences.any (fun x => x.2 && srcFamily x.1 ≠ 15 && planeOf x.1 = p)
  fldAt d.planeState 0 2 ||| bitAt (d.planeFenced 0) 2 ||| bitAt (d.planeFenced 1) 3 ||| bitAt (units 0) 4 ||| bitAt (units 1) 5
    ||| bitAt d.plane.resync.isSome 6 ||| bitAt (d.plane.resync.any (fun r => r.plane = 1)) 7 ||| bitAt (d.plane.preferred = 1) 8
    ||| fldAt d.plane.frozenFrom.toNat 16 2

/-- A command's job waits at, or is in service of, the security processor as a package stage. -/
def Dev.staging (d : Dev) : Bool :=
  (d.sec.service.toList ++ d.sec.waiting).any (fun j => match j.work with | .stage _ => true | _ => false)

/-- Package record x of R365. -/
def Dev.pkgRecord (d : Dev) (x : Nat) : Option Pkg :=
  match x with | 0 => d.twill.pkgN | 1 => d.twill.pkgS | _ => d.twill.staged

/-- The plane whose engines are being written by an OP 1 load. -/
def Dev.loadingPlane (d : Dev) : Option Nat := d.twill.loading.map (fun x => x.plane.val)

/-- Counter records left (R499). -/
def Dev.recordsLeft (d : Dev) : Nat := 128 - d.sec.used

/-- Owner slot states, two bits each (R500). -/
def Dev.ownerStates (d : Dev) : Nat := (List.range 4).foldl (fun n s => n + d.sec.slotSt.getD s 0 * 4 ^ s) 0

/-- Views of the blocks below LANE: host interface, configuration CRC, CRC units, collector, TSU, calibration, supplies,
security, bus matrix. -/
def viewLow (d : Dev) (name : String) (a : Nat) (inst : List Nat) : Word :=
  let i := inst.headD 0
  let tr := fun (_ : Unit) => d.tref i
  match name with
  | "GL_ID" => resetOf a ||| bitAt Config.gradeTC 20
  | "GL_STRAP" => bitAt d.worker 0 ||| fldAt d.devid 1 3
  | "TBL_CHK" => fldAt d.tbl.check.toNat 0 8 ||| bitAt d.tbl.poison 8
  | "TBL_CTRL" => bitAt d.tbl.denied 3
  | "HQ_LINK" => bitAt d.host.up 0 ||| fldAt d.host.gen 1 3 ||| fldAt d.host.width 4 3
  | "URGENT_STATUS" => fldAt d.host.urgent.length 0 5 ||| fldAt d.host.urgLast 5 3 ||| fldAt d.host.urgDone 8 24
  | "RING_STATUS" => bitAt (d.ringOn i && !(d.ring i).fetchStop) 0 ||| bitAt (d.ring i).fetchStop 1
      ||| (if i < 4 then fldAt (d.outstanding i) 2 16 else 0)
  | "CFG_CRC_LAST" => d.cfg.last
  | "CFG_STATUS" => d.cfgStatus
  | "CRC_RESULT" => if (d.crcU i).blank then 0 else crcResult (d.crcU i).poly (d.crcU i).state
  | "CRC_STATE" => (d.crcU i).state
  | "CRC_COUNT" => (d.crcU i).count
  | "FLT_STATUS" => bitAt d.plane.frozen 0 ||| bitAt d.faultPin 1 ||| bitAt d.safePin 2 ||| bitAt (d.arms.any (fun x => x.2.count ≠ 0)) 3
      ||| bitAt d.stopped 4 ||| bitAt (d.life = .strapBad) 5
  | "FLT_SRC" =>
    let k := (a - 0x40100) / 4
    let s := if k < 5 then srcOf (k + 1) 0 else if k < 32 then srcOf 6 (k - 16) else if k < 96 then srcOf 7 (k - 32) else srcOf 8 (k - 96)
    (d.reg a &&& 0x00FFFFFF) ||| fldAt (tget 0 d.wires s).toNat 24 3 ||| bitAt (d.srcArmed s) 27
  | "FLT_FENCED" => d.fencedMap i
  | "TSU_STATE" => fldAt d.tsu.st 0 3 ||| bitAt d.histValid 3 ||| fldAt d.tsu.mode 4 2 ||| bitAt d.tsu.clamp 6
      ||| fldAt (d.tsu.sel.getD 0x7F) 8 7 ||| fldAt d.selQlNow 16 4 ||| fldAt d.outQl 20 4
  | "TSU_DCO" => sat32 d.dco
  | "TSU_HOLD" => fldAt (min d.tsu.hist.length 300) 0 9
      ||| (if d.tsu.st = 3 then fldAt ((d.now - d.tsu.since) / 1000000000) 11 21 else 0)
  | "TIME_SEC_LO" => fldAt d.tsu.capSec.toNat 0 32
  | "TIME_SEC_HI" => fldAt (d.tsu.capSec.toNat / 2 ^ 32) 0 16
  | "TIME_NS" => fldAt d.tsu.capNs 0 30
  | "TSU_PHASE" => if d.tsu.st = 1 || d.tsu.st = 2 then sat32 d.tsu.phaseErr else 0
  | "FPO_PHASE" => sat32 (d.tout 4).phase
  | "REF_STATUS" => let r := tr ()
    fldAt r.st 0 2 ||| bitAt (d.tsu.sel = some i) 2 ||| bitAt r.softWarn 3 ||| bitAt r.disputed 4 ||| bitAt (r.enable && d.refActive i) 5
      ||| fldAt (d.refQl i) 8 4 ||| fldAt r.cause 12 3
      ||| (if r.st = 2 then fldAt (d.secondsLeft r.wtrSince (d.wtrLength i)) 16 11 else 0)
  | "REF_OFFSET" => sat32 (d.refOffset i)
  | "REF_DRIFT" => sat32 ((tr ()).driftM.getD 0)
  | "CAL_STATUS" => fldAt (twos 16 d.cal.temp) 0 16 ||| bitAt d.cal.i2c 16 ||| bitAt d.cal.srcFail 17 ||| bitAt d.cal.run.isSome 18
      ||| (match d.cal.run with | some r => fldAt r.set 19 2 ||| fldAt r.point 21 3 | none => 0) ||| fldAt d.cal.active 24 2
  | "CAL_CORR" => sat32 d.cal.corr
  | "CAL_RUN_LEFT" => match d.cal.run with
    | some r => fldAt (d.secondsLeft r.start (r.window * 1000000000)) 0 14
    | none => 0
  | "CAL_SET_INFO" => fldAt (d.calSet i).length 0 4
  | "CAL_POINT_T" => fldAt (twos 16 ((d.calSet i).getD (inst.getD 1 0) {}).temp) 0 16
  | "CAL_POINT_V" => sat32 ((d.calSet i).getD (inst.getD 1 0) {}).value
  | "PWR_STATUS" => fldAt d.power.st 0 2 ||| bitAt d.power.warnPin 2 ||| bitAt d.power.filler 3 ||| bitAt d.power.keepRisk 4
      ||| bitAt d.power.inrush 5 ||| fldAt d.power.vcore 16 10
  | "PWR_MON" => fldAt d.power.tcell 0 12 ||| fldAt d.power.iEst 16 12
  | "PWR_SHED_LO" => d.shedMap 0
  | "PWR_SHED_HI" => d.shedMap 1
  | "RST_STATUS" => bitAt (d.power.reset.isSome || d.power.resetNext) 0 ||| bitAt d.power.denied 1 ||| fldAt d.power.lastBlock 8 8
      ||| fldAt d.power.lastInst 16 6
  | "SEC_BOOT_STATUS" => bitAt d.sec.booted 0 ||| fldAt d.sec.slot 1 1 ||| bitAt (d.sec.slotSt.contains 1) 2
      ||| fldAt d.sec.reasonA 4 4 ||| fldAt d.sec.reasonB 8 4
  | "SEC_OWNER" => fldAt d.ownerStates 0 8 ||| fldAt d.recordsLeft 8 7
  | "SEC_ID" => match i with
    | 0 => Config.uid 0 | 1 => Config.uid 1
    | 2 => fldAt d.sec.counter 0 32 | 3 => fldAt (d.sec.counter / 2 ^ 32) 0 32
    | 4 => fldAt d.sec.svn 0 32 | _ => fldAt (d.sec.svn / 2 ^ 32) 0 32
  | "SEC_CHALLENGE" => BitVec.ofNat 32 (leNat (((Config.randomDraw d.sec.chal).drop (4 * i)).take 4))
  | "MX_MASTER" => let m := tget {} d.masters i
    let oldest := d.mx.waiting.find? (fun r => decide (r.master = i))
    let commit := d.cfg.heldBack.any (fun x => decide (x.1 / 2 ^ 26 = i))
    fldAt m.slots 0 6 ||| bitAt m.draining 6 ||| bitAt (m.held || oldest.any MxReq.held || commit) 7
  | _ => d.reg a

/-- Views of the lanes, Jersey links, ports and their tables. -/
def viewLine (d : Dev) (name : String) (a : Nat) (inst : List Nat) : Word :=
  let i := inst.headD 0
  match name with
  | "LANE_STATUS" => let l := d.lane i
    fldAt (match l.bstate with | .off => 0 | .cal => 1 | .acquire => 2 | .pcsWait => 3 | .locked => 4) 0 3 ||| bitAt l.cdrLock 3
      ||| bitAt l.pcsLock 4 ||| bitAt l.calOk 5 ||| fldAt ((d.laneOwner i).getD 0xFF) 8 8
  | "LANE_CAL" => bitAt (d.lane i).offsets.isSome 0
  | "PORT_STATUS" => let p := d.port i
    fldAt (match p.astate with | .disabled => 0 | .aligning => 1 | .aligned => 2 | .skewFail => 3) 0 2 ||| fldAt p.skew 16 10
  | "FRM_STATUS" => d.frView i a (d.frStatus i)
  | "MAC_RX_OK" | "MAC_RX_BAD" | "MAC_RX_DROP" | "MAC_TX_OK" | "MAC_EVENT" => if isEth (d.port i).format then d.reg a else 0
  | "FRM_H4_LOCK_LO" => d.frView i a (d.h4Map i 1)
  | "FRM_H4_LOCK_HI" => d.frView i a (d.h4Map i 33)
  | "FRM_OOF_COUNT" | "FRM_ERR_FAS" | "FRM_SLIP_OOF" => d.frView i a (d.reg a)
  | "E1_STATUS" => d.frView ((d.entryPort i).getD 0) a (d.e1Status i)
  | "DEF_DET" => if d.groupShown a then fldAt (d.point (d.pointAt a)).det.toNat 0 24 else 0
  | "DEF_HIST" | "DEF_CLRHIST" => if d.groupShown a then d.reg a else 0
  | "DEF_CUR" => let k := d.pointAt a
    let x := d.point k
    if !d.groupShown a then 0
    else fldAt x.dec.toNat 0 24 ||| bitAt x.settling 24 ||| bitAt (d.sf k) 25 ||| fldAt x.role 26 2
  | "ODU_MAP_STATUS" => match d.odu i with
    | some o => fldAt o.cm 0 14 ||| bitAt o.jcBad 14 ||| bitAt o.rateAlarm 15 ||| fldAt o.gfp 16 2 ||| fldAt o.jcErr 24 8
    | none => 0
  | "ODU_GFP_DISCARD" => if (d.odu i).isSome then d.reg a else 0
  | "PTR_STATUS" =>
    if a < 0x3E0000 then match d.vc4 i with
      | some v => fldAt v.ptr.st 0 2 ||| fldAt v.ptr.inc 16 8 ||| fldAt v.ptr.dec 24 8
      | none => 0
    else if d.entryExists i then
      let x := d.lo i
      fldAt x.ptr.st 0 2 ||| bitAt x.rateAlarm 3 ||| fldAt x.slips 8 8 ||| fldAt x.ptr.inc 16 8 ||| fldAt x.ptr.dec 24 8
    else 0
  | "JY_PRESENT" => if d.worker then bitAt ((d.link 0).st = 7) 0
      else (List.range 7).foldl (fun w k => w ||| bitAt ((d.link (k + 1)).st = 7) (k + 1)) 0
  | "JY_RMT_CTRL" => bitAt d.jersey.rmtBusy 2 ||| bitAt d.jersey.rmtDenied 3
  | "JY_LINK_STATUS" => let l := d.link i
    fldAt l.st 0 3 ||| bitAt l.rdi 3 ||| fldAt l.peer 8 8 ||| fldAt l.bootReason 16 8
  | "JY_LINK_DELAY" => if (d.link i).st = 7 then fldAt (d.link i).delay 0 16 else 0
  | _ => d.reg a

/-- Views of the engines, merge, packet path, cross-connect and planes. A fenced engine whose plane is being loaded shows 3
(loading) in TW_STATUS.STATE (DESIGN CHOICE 41), and PKT_POOL.FREE shows the cells that are free from reset on, the 0 in the
Reset column of its table notwithstanding (DEDUCED 126). -/
def viewHigh (d : Dev) (name : String) (a : Nat) (inst : List Nat) : Word :=
  let i := inst.headD 0
  match name with
  | "TW_STATUS" =>
    let fs := d.funcsOn (i % 128 / 16) (i % 16)
    let dead := d.fenced (srcOf 9 i)
    let loading := d.loadingPlane = some (i / 128)
    fldAt (if loading then 3 else if dead then 2 else if fs.isEmpty then 0 else 1) 0 2
      ||| bitAt (d.fenced (partner (srcOf 9 i))) 2 ||| fldAt fs.length 8 10
  | "TW_LOAD" => fldAt (d.unitsOn (i % 128 / 16) (i % 16)) 0 11 ||| fldAt (d.bytesOn (i % 128 / 16) (i % 16)) 16 15
  | "TW_PKG_ID" => ((d.pkgRecord i).map Pkg.id).getD 0
  | "TW_PKG_VER" => ((d.pkgRecord i).map Pkg.ver).getD 0
  | "TW_PKG_INFO" =>
    let busy := if i = 2 then d.staging else d.loadingPlane = some i
    match d.pkgRecord i with
    | some p => fldAt p.cat 0 8 ||| bitAt true 8 ||| bitAt busy 9
    | none => 0
  | "TW_BUDGET" => fldAt (d.budget i) 0 14
  | "TW_SLICE_USED" => fldAt (d.used i) 0 14
      ||| fldAt ((((d.functions.filter (fun f => f.slice = i)).map Func.bytes).sum + 63) / 64) 16 13
  | "MERGE_STORE" => fldAt d.unitsHeld.length 0 11 ||| fldAt (32 * d.reservedUnits.length) 16 11
  | "MERGE_PENDING" => fldAt ((d.groups.map (fun x => match x.2 with
      | some g => match g.cut with | some n => g.units.length - n | none => 0
      | none => 0)).sum) 0 11
  | "MG_STATUS" => match d.group i with
    | some g =>
      let c := fun (s : CopySt) => match s with | .down => 0 | .aligning => 1 | .up => 2 | .skew => 3
      fldAt (c g.e.st) 0 2 ||| fldAt (c g.w.st) 2 2 ||| bitAt g.ref 4 ||| bitAt g.outAis 5 ||| bitAt g.cut.isSome 6 ||| bitAt g.std 7
        ||| fldAt g.units.length 8 11
    | none => 0
  | "MG_SKEW" => match d.group i with
    | some g => fldAt g.skew 0 14 ||| bitAt g.later 14
    | none => 0
  | "MG_EVENT" | "MG_FWD_OTHER" | "MG_REJECT" | "MG_DOUBLE_BAD" | "MG_MISC" | "MG_DIVERGE" =>
    if (d.group i).isSome then d.reg a else 0
  | "SEL_STATUS" | "SEL_WTR_LEFT" | "SEL_EVENT" | "SEL_SWITCHES" =>
    let s := if a < 0x844000 then 0 else if a < 0x848000 then 2 else if a < 0x858000 then 3 else 1
    match d.sel (selKey s i) with
    | none => 0
    | some x =>
      if name = "SEL_STATUS" then
        bitAt x.selected 0 ||| fldAt (x.top.code s) 1 4 ||| fldAt ((x.far.map FarReq.code).getD 0) 5 4 ||| bitAt x.wtrStart.isSome 9
          ||| bitAt x.holdW.isSome 10 ||| bitAt x.holdP.isSome 11 ||| bitAt x.sfW 12 ||| bitAt x.sfP 13 ||| bitAt x.sdW 14
          ||| bitAt x.sdP 15 ||| bitAt x.fopPm 16 ||| bitAt x.fopNr 17 ||| fldAt x.cmd 18 3
      else if name = "SEL_WTR_LEFT" then
        match x.wtrStart with | some t => fldAt (d.secondsLeft t (1000000000 * x.wtrFor)) 0 10 | none => 0
      else d.reg a
  | "PSEL_FILL" => fldAt (d.psel i).held.length 0 7 ||| bitAt ((d.psel i).ahead = 1) 7
  | "PKT_POOL" => fldAt d.freeCells.toNat 0 20
  | "Q_DEPTH" => fldAt (d.pq i).frames.length 0 20
  | "Q_CELLS" => fldAt (d.pq i).cells 0 20
  | "Q_CREDIT" => sat32 ((d.shaper i).credit / 256)
  | "SCH_CREDIT" => sat32 ((d.shaper (if a < 0x934000 then 4096 + i else 8192 + i)).credit / 256)
  | "SATOP_STATUS" => let x := d.circuit i
    if x.made then fldAt (if x.lops then 3 else x.st) 0 2 ||| bitAt x.lRx 2 ||| bitAt x.rRx 3 ||| fldAt x.level 16 14 else 0
  | "SATOP_LOSS" | "SATOP_BUFFER" | "SATOP_BAD" =>
    let x := d.circuit i
    if !x.made then 0
    else if name = "SATOP_LOSS" then fldAt x.lost 0 16 ||| fldAt x.late 16 16
    else if name = "SATOP_BUFFER" then fldAt x.underrun 0 16 ||| fldAt x.overrun 16 16
    else fldAt x.malformed 0 16 ||| fldAt x.dup 16 16
  | "XC_STATUS" =>
    let armed := fun (t : Nat) => d.xc.arms.any (fun a => a.mask / 2 ^ t % 2 = 1)
    let busy := fun (t : Nat) => d.xc.arms.any (fun a => a.swapping && a.busy / 2 ^ t % 2 = 1)
    bitAt (d.xc.hPhys = 1) 0 ||| bitAt (d.xc.lPhys = 1) 1 ||| bitAt (armed 0) 2 ||| bitAt (armed 1) 3 ||| bitAt (busy 0) 4
      ||| bitAt (busy 1) 5
  | "XC_TICK_COUNT" => fldAt d.tickNow 0 32
  | "XC_H_AT_TICK" => match d.xc.arms.find? (fun a => a.mask % 2 = 1) with | some x => fldAt x.tick 0 32 | none => 0
  | "XC_L_AT_TICK" => match d.xc.arms.find? (fun a => a.mask / 2 % 2 = 1) with | some x => fldAt x.tick 0 32 | none => 0
  | "XC_H_USED" => fldAt (d.connected (d.activePage 0) 0).length 0 12 ||| fldAt (d.connected (d.standbyPage 0) 0).length 16 12
  | "XC_V_USED" => fldAt (d.connected (d.activePage 1) 1).length 0 10 ||| fldAt (d.connected (d.standbyPage 1) 1).length 16 10
  | "XC_L_USED" => fldAt (d.connected (d.activePage 2) 2).length 0 13 ||| fldAt (d.connected (d.standbyPage 2) 2).length 16 13
  | "XC_TBL_LO" => BitVec.ofNat 32 d.xcTbl.data.toNat
  | "XC_TBL_HI" => BitVec.ofNat 32 (d.xcTbl.data.toNat / 2 ^ 32)
  | "XC_TBL_CHK" => fldAt d.xcTbl.check.toNat 0 8 ||| bitAt d.xcTbl.poison 8
  | "PLANE_STATE" => d.planeWord
  | "PLANE_EXPOSED_LO" => fldAt d.plane.exposed.toNat 0 32
  | "PLANE_EXPOSED_HI" => fldAt (d.plane.exposed.toNat / 2 ^ 32) 0 32
  | _ => d.reg a

/-- What the RO fields of a register show. -/
def Dev.roView (d : Dev) (name : String) (a : Nat) (inst : List Nat) : Word :=
  match name with
  | "QLEVEL" => match queueAt a with | some q => d.qlevel q | none => 0
  | "FW_CTRL" => d.windowFences (a - 0x18)
  | "FW_INJ_CTRL" => (d.reg a &&& 0x8000) ||| bitAt (d.srcArmed (d.injSource (a - 0x24))) 14
  | _ =>
    if a < 0x100000 then viewLow d name a inst
    else if a < 0x400000 then viewLine d name a inst
    else viewHigh d name a inst

/-- The blocks that stay implemented when no slot has booted (R496): GLOBAL and SEC. -/
def readable (a : Nat) : Bool := decide (a < 0x10000) || (decide (0x80000 ≤ a) && decide (a < 0x90000))

/-- The RS registers of windows that may not exist: they read 0 in whole there (R145, R244). -/
def windowed (name : String) : Bool :=
  name = "MG_EVENT" || name = "SEL_EVENT" || name = "DEF_HIST" || name = "DEF_CLRHIST"

/-- A register reads as its RW, RWC and RS fields from the register file, its RO fields from what they show; a GO field is
a self-clearing start bit and reads 0 (R14, log entry 41), and a WO field reads 0. A window that does not exist reads 0 in whole (R244). -/
def Dev.readReg (d : Dev) (a : Nat) : Word :=
  match findReg a with
  | none => 0
  | some r =>
   if d.life = .bootFailed && !readable a then 0 else
    let inst := (r.at a).getD []
    let ro := d.roView r.name a inst
    if windowed r.name then ro
    else
      (d.reg a &&& r.maskOf (fun t => t = .rw || t = .rwc || t = .rs)) ||| (ro &&& r.maskOf (fun t => t = .ro))

/-! ### Reads of BAR0 (R402–R408) -/

/-- An address of the block HOSTQ. -/
def inHostq (a : Nat) : Bool := decide (0x10000 ≤ a) && decide (a < 0x20000)

/-- The function of a read reaches a block: PF1 reaches neither HOSTQ nor SEC (R406), and in a worker PF0 has the rights of
PF1 (R435). A register message acts as M1, which has no path to HOSTQ (R419, DEDUCED 134). -/
def Dev.mayRead (d : Dev) (via : Via) (a : Nat) : Bool :=
  let sec := decide (0x80000 ≤ a) && decide (a < 0x90000)
  match via with
  | .pf1 => !inHostq a && !sec
  | .pf0 => !d.worker || (!inHostq a && !sec)
  | .mgr => !inHostq a
  | .bar2 | .cfg _ => false

/-- A read of a table window's data word completes in a poisoned TLP while its POISON is 1 (R43, R207, R417). -/
def Dev.poisonedRead (d : Dev) (a : Nat) : Bool :=
  ((decide (a = 0x104) || decide (a = 0x108)) && d.tbl.poison)
    || ((decide (a = 0xA00104) || decide (a = 0xA00108)) && d.xcTbl.poison)

/-- A word of a function's configuration space (R367): the identifiers, the class code, the BARs, and PF0's MSI-X capability with 32
vectors in BAR2, at the places that PCI Express gives them (PRESUMED 39). -/
def Dev.cfgRead (d : Dev) (pf1 : Bool) (addr : Nat) : Word :=
  let n := addr % 4096 / 4
  let w := tget 0 d.host.pci.cfg ((if pf1 then 64 else 0) + n)
  let id : Word := if pf1 then 0x12C91F0D else 0x12C81F0D
  match n with
  | 0 | 11 => id
  | 1 => if pf1 then w else w ||| 0x00100000
  | 2 => 0x02800000
  | 3 => 0x00800000
  | 4 => w ||| 4
  | 5 => w
  | 6 => if pf1 then 0 else w ||| 4
  | 7 => w
  | 13 => if pf1 then 0 else 0x40
  | 16 => if pf1 then 0 else w ||| 0x001F0011
  | 17 => if pf1 then 0 else 0x00000002
  | 18 => if pf1 then 0 else 0x00002002
  | _ => 0

/-- A word of BAR2 (R367): the MSI-X table at 0, and the pending-bit array at 0x2000. -/
def Dev.bar2Read (d : Dev) (addr : Nat) : Word :=
  let n := addr % 16384 / 4
  if n < 128 then d.msixWord n else if n = 2048 then d.host.pci.pend else 0

/-- What a read of one DW returns, with the EP bit of its completion. In BAR0 every alias window reads as the base window (R408);
a violation completes with data 0 (R404). -/
def Dev.readDw (d : Dev) (via : Via) (addr : Nat) : Word × Bool :=
  match via with
  | .cfg f => (d.cfgRead f addr, false)
  | .bar2 => (d.bar2Read addr, false)
  | _ =>
    let a := addr % 2 ^ 24
    if addr % 4 ≠ 0 || !d.mayRead via a then (0, false) else (d.readReg a, d.poisonedRead a)

/-- The bytes that a pattern of byte enables leaves of a read, or none where the pattern is a violation (R403). -/
def readLanes (be : BitVec 4) : Option Word :=
  match be.toNat with
  | 1 => some 0x000000FF | 2 => some 0x0000FF00 | 4 => some 0x00FF0000 | 8 => some 0xFF000000
  | 3 => some 0x0000FFFF | 12 => some 0xFFFF0000 | 15 => some 0xFFFFFFFF
  | _ => none

/-- What a read request returns by its shape, with the EP bit of its completion (R403). No read has an effect (R405), so no
command reads: this is what the host sees of a state. A read that comes while a write of its master is held back waits (R421), and
sees the state in which none is (DEDUCED 18). -/
def Dev.hostRead (d : Dev) (via : Via) (sh : Shape) (addr : Nat) : Data × Bool :=
  match sh with
  | .dw be => match readLanes be with
    | some m => let (w, ep) := d.readDw via addr
      ((w &&& m).setWidth 64, ep)
    | none => (0, false)
  | .qw =>
    if addr % 8 ≠ 0 then (0, false)
    else
      let (lo, ep) := d.readDw via addr
      let (hi, ep2) := d.readDw via (addr + 4)
      (lo.setWidth 64 ||| hi.setWidth 64 <<< 32, ep || ep2)
  | .other => (0, false)

end Sys2Proof.Machine
end

