-- ==== Sys2Proof/Machine/Security.lean ====
section
/-! DEFINITION. The security processor (chapter 18): signature blocks, boot images and engine packages (R493–R497),
measurements and the attestation report (R498, R506), ATTEST and KEY_ADMIN with their order of service (R501–R504). Hashes,
signatures and random draws are functions of the part that nothing here can evaluate (log entry 31). -/

namespace Sys2Proof.Machine

/-- The first `n` bytes, a missing byte being 0. -/
def fit (n : Nat) (bs : List Byte) : List Byte := (bs ++ le n 0).take n

/-- The `n` bytes from byte `off` on. -/
def slice (bs : List Byte) (off n : Nat) : List Byte := (bs.drop off).take n

/-- SHAKE256 taken to 64 bytes (R494, R498). -/
def shake64 (bs : List Byte) : List Byte := fit 64 (Config.shake256 bs 64)

/-- The device's UID, 8 bytes (R505). -/
def uidBytes : List Byte := le 4 (Config.uid 0).toNat ++ le 4 (Config.uid 1).toNat

/-- Bytes of a signature block (R493). -/
def blockLen : Nat := 29856

/-- A signature block verifies over a message (R494): its key's hash is a trusted one, and its signature verifies. -/
def blockOk (trusted : List Byte → Bool) (msg block : List Byte) : Bool :=
  decide (block.length = blockLen) && trusted (shake64 (block.take 64)) && Config.slhVerify (block.take 64) msg (block.drop 64)

/-- The Gralar root (R494). -/
def vendorTrust (h : List Byte) : Bool := h = fit 64 Config.rootHash

/-! ### Engine packages (R497) -/

/-- CODE_LEN of a package. -/
def pkgCode (bs : List Byte) : Nat := leNat (slice bs 24 4)
/-- Header and code of a package. -/
def pkgBody (bs : List Byte) : List Byte := bs.take (64 + pkgCode bs)
/-- PKG_ID, VERSION and CAT_REV of a package. -/
def pkgHeader (bs : List Byte) : Pkg :=
  { id := BitVec.ofNat 32 (leNat (slice bs 0 4)), ver := BitVec.ofNat 32 (leNat (slice bs 4 4)), cat := leNat (slice bs 8 1) }
/-- SVN of a package. -/
def pkgSvn (bs : List Byte) : Nat := leNat (slice bs 16 8)

/-- The package rules: REASON of the first that fails, 0 when none does. -/
def pkgReason (counter : Nat) (bs : List Byte) : Nat :=
  let n := pkgCode bs
  let zero := fun (off k : Nat) => (slice bs off k).all (fun b => b = 0)
  if !(decide (64 ≤ bs.length) && decide (1 ≤ n) && decide (n ≤ 16384) && decide (bs.length = 64 + n + blockLen)
      && zero 9 7 && zero 28 36) then 2
  else if !blockOk vendorTrust (pkgBody bs) (bs.drop (64 + n)) then 3
  else if pkgSvn bs < counter then 4
  else if (pkgHeader bs).cat ≠ 1 then 5
  else 0

/-! ### Boot images (R493, R495) -/

def imgSvn (bs : List Byte) : Nat := leNat (slice bs 8 8)
def imgFw (bs : List Byte) : Nat := leNat (slice bs 20 4)
def imgPkg (bs : List Byte) : Nat := leNat (slice bs 24 4)
/-- Bytes of header and payload. -/
def imgSigned (bs : List Byte) : Nat := 256 + imgFw bs + imgPkg bs

/-- The header is well-formed and the image fits its slot. -/
def imgHeaderOk (bs : List Byte) : Bool :=
  decide (256 ≤ bs.length) && decide (leNat (slice bs 0 4) = 0x384B4E51) && decide (leNat (slice bs 4 4) = 256)
    && decide (4096 ≤ imgFw bs) && decide (imgFw bs ≤ 393216) && decide (1024 ≤ imgPkg bs) && decide (imgPkg bs ≤ 65536)
    && decide (bs.length ≤ 1048576)

/-- The engine package in an image. -/
def imgPackage (bs : List Byte) : List Byte := slice bs (256 + imgFw bs) (imgPkg bs)

/-- Some owner slot is ACTIVE, and a hash is that of an ACTIVE slot. -/
def Sec.owned (x : Sec) : Bool := x.slotSt.contains 1
def Sec.ownerTrust (x : Sec) (h : List Byte) : Bool :=
  (List.range 4).any (fun i => x.slotSt.getD i 0 = 1 && fit 64 (x.slotHash.getD i []) = h)

/-- REASON of R495 for one slot. -/
def Sec.bootReason (x : Sec) (img : BootImage) : Nat :=
  let bs := img.bytes
  let n := imgSigned bs
  if !img.readOk then 1
  else if !imgHeaderOk bs then 2
  else if !blockOk vendorTrust (bs.take n) (slice bs n blockLen) then 3
  else if x.owned && !blockOk x.ownerTrust (bs.take (n + blockLen)) (slice bs (n + blockLen) blockLen) then 4
  else if imgSvn bs < x.counter then 5
  else if pkgReason x.counter (imgPackage bs) ≠ 0 then 6
  else 0

/-- The slot that the boot ROM tries first is B (R495). -/
def bFirst (a b : BootImage) : Bool :=
  let ok := fun (i : BootImage) => i.readOk && imgHeaderOk i.bytes
  ok b && (!ok a || decide (imgSvn a.bytes < imgSvn b.bytes))

/-- The bytes of an image that the image store keeps: header to the last signature block read. -/
def Sec.imageKept (x : Sec) (bs : List Byte) : List Byte :=
  bs.take (imgSigned bs + blockLen + (if x.owned then blockLen else 0))

/-! ### Measurements and the report (R498, R506) -/

/-- A measurement: all zero when nothing is held. -/
def measureOf (bs : List Byte) : List Byte := if bs.isEmpty then le 64 0 else shake64 bs

/-- What M_OWNER covers: the four slot records, each its hash and then its state (log entry 44). -/
def Sec.ownerRecords (x : Sec) : List Byte :=
  (List.range 4).flatMap (fun i => fit 64 (x.slotHash.getD i []) ++ le 1 (x.slotSt.getD i 0))

/-- Report bytes 0–511. -/
def Dev.report512 (d : Dev) (nonce : List Byte) : List Byte :=
  let x := d.sec
  let flags := (if d.plane.frozen then 1 else 0) + (if d.worker then 2 else 0) + (if x.booted && decide (x.slot = 1) then 4 else 0)
  le 2 1 ++ le 2 flags ++ le 4 50368 ++ uidBytes ++ le 6 d.tsu.sec.toNat ++ le 2 0 ++ le 4 d.tsu.ns
    ++ le 4 d.planeWord.toNat ++ le 4 (d.reg 0x20004).toNat ++ le 4 d.cfgStatus.toNat ++ le 8 x.counter ++ le 8 x.svn
    ++ le 1 d.ownerStates ++ le 1 d.recordsLeft ++ le 6 0
    ++ measureOf (x.image.take (if x.image.isEmpty then 0 else imgSigned x.image)) ++ measureOf x.pkgBytesN ++ measureOf x.pkgBytesS
    ++ measureOf x.pkgBytesStage ++ shake64 x.ownerRecords ++ fit 64 nonce ++ fit 64 Config.identityKey

/-- Writes bytes to host memory: a worker sends them to the manager, which writes them (R436). -/
def Dev.hostWrite (d : Dev) (addr : Data) (bs : List Byte) : Dev :=
  if d.worker then d.jyData 0 addr.toNat bs else d.emit (.hostMem addr bs)

/-! ### Order of service (R504) -/

/-- The security processor of a worker waits on Jersey control: a message of link 0 waits for credit (R419, R431). -/
def Dev.secWaits (d : Dev) : Bool := d.worker && !(d.link 0).waiting.isEmpty

/-- A request for the last entry of the security processor is held back, and counted, where the processor waits on the
request's master: M19, which brings a worker's commands (R422). -/
def Dev.secHold (d : Dev) : Dev :=
  ({ d with masters := tupd {} d.masters 19 (fun m => { m with held := true }) }).count32 0x90004

/-- The request that was held back is held back no longer. -/
def Dev.secGo (d : Dev) : Dev :=
  if (tget {} d.masters 19 : Master).held then { d with masters := tupd {} d.masters 19 (fun m => { m with held := false }) } else d

/-- A command waits for the security processor, in one of its entries or, where none is free, at its master. -/
def Dev.secQueue (d : Dev) (x : SecJob) : Dev :=
  let d := { d with sec.waiting := d.sec.waiting ++ [x] }
  if d.secWaits && decide (d.sec.waiting.length = Config.secSpare + 2) then d.secHold else d

/-- The next command's service starts; an attestation reads the state at that instant. -/
def Dev.secStart (d : Dev) : Dev :=
  match d.sec.service, d.sec.waiting with
  | none, x :: rest =>
    let x := match x.work with
      | .attest nonce => { x with snap := d.report512 nonce }
      | _ => x
    -- an entry frees: a request that was held back takes it, and the one behind it may be held back in turn
    let d := ({ d with sec.service := some x, sec.waiting := rest }).secGo
    if d.secWaits && decide (Config.secSpare + 2 ≤ rest.length) then d.secHold else d
  | _, _ => d

def execSecServiceStart (s : State) : Out1 := onDev (live Dev.secStart) s

/-- Opcode of a command at the security processor. -/
def SecJob.op (x : SecJob) : Nat := match x.work with | .attest _ => 0x90 | .keyAdmin _ => 0x91 | .stage _ => 0x70

/-- A record of a write that a reset left incomplete, with MX_EVENT.INCOMPLETE (R423): ADDR is the address of the first word not
written (R451). -/
def Dev.writeIncomplete (d : Dev) (master addr : Nat) : Dev :=
  let d := d.raise 0x90000 0 0x2004 []
  d.fault1 { source := 0x3000, cls := 2, checker := 1, addr := BitVec.ofNat 48 addr, master := BitVec.ofNat 8 master, access := 3 }

/-- A load into a plane's engines stops: the words already accepted stay written (R423). The first one not written is a word of
its engine's store (R451). -/
def Dev.loadStop (d : Dev) (m : List Host.Cell) : Dev × List Host.Cell :=
  match d.twill.loading with
  | none => (d, m)
  | some x =>
    let n := Config.acceptedWords d.fresh % (128 * 2048)
    let m := (List.range n).foldl (fun m i =>
      putWord m (160 + 128 * x.plane.val + i / 2048) (i % 2048) (wordOf x.bytes (64 + 8 * (i % 2048))) false) m
    let d := { d with fresh := d.fresh + 1, twill.loading := none }
    let d := if x.plane = 0 then { d with twill.pkgN := none, sec.pkgBytesN := [] }
      else { d with twill.pkgS := none, sec.pkgBytesS := [] }
    ((d.writeIncomplete 18 (n % 2048)).later 0x70 x.job, m)

/-! ### ATTEST (R506, R507) -/

def attest (c : Desc) (body : List Byte) (d : Dev) (job : Nat) : Ran :=
  need (c.bulk && decide (body.length = 50368)) refusedDone <|
    ranLater (d.secQueue { job := job, work := .attest (slice body 384 64), addr := wordOf c.body 0 })

def execAttest (c : Desc) (bulk : HostRead) (s : State) : Out1 := bulkRow 0x90 c bulk (attest c) s

/-- The report is signed and written, and the command completes. -/
def Dev.attestDone (d : Dev) : Dev :=
  match d.sec.service with
  | some x => match x.work with
    | .attest _ =>
      let d := { d with sec.service := none }
      (d.hostWrite x.addr (x.snap ++ fit 49856 (Config.slhSign x.snap))).complete 0x90 x.job
        { patch := [(0, x.snap.take 56)], afterData := true }
    | _ => d
  | none => d

def execAttestDone (s : State) : Out1 := onDev (live Dev.attestDone) s

/-! ### KEY_ADMIN (R501–R503) -/

/-- KEY_ADMIN as the host queue engine takes it. -/
def keyAdmin (c : Desc) (body : List Byte) (d : Dev) (job : Nat) : Ran :=
  let b : Desc := { c with body := body }
  let op := b.u8 0
  need (c.bulk && decide (body.length = (if op = 0 then 432 else 29968))) refusedDone <|
  checked [atMost 0 op 3, (1, op = 0 || op = 3 || decide (b.u8 1 ≤ 3)), b.zeros 4 7] <|
    ranLater (d.secQueue { job := job, work := .keyAdmin body, addr := wordOf c.body 0 })

def execKeyAdmin (c : Desc) (bulk : HostRead) (s : State) : Out1 := bulkRow 0x91 c bulk (keyAdmin c) s

/-- The challenge in force. -/
def Sec.challenge (x : Sec) : List Byte := fit 32 (Config.randomDraw x.chal)

/-- The checks of R503 in order: REASON of the first that fails, 0 when none does. -/
def Sec.adminReason (x : Sec) (b : List Byte) : Nat :=
  let op := bodyN b 0 1
  let slot := bodyN b 1 1
  let auth := bodyN b 2 1
  let value := bodyN b 8 8
  let pub := slice b 112 64
  let msg := patchBytes (b.take 112) 3 [0] ++ uidBytes
  if x.owned && slice b 80 32 ≠ x.challenge then 1
  else if (if x.owned then !(auth ≤ 3 && x.slotSt.getD auth 0 = 1 && shake64 pub = fit 64 (x.slotHash.getD auth [])) else auth ≠ 0xFF)
    then 2
  else if x.owned && !Config.slhVerify pub msg (slice b 176 29792) then 3
  else if (op = 1 && x.slotSt.getD slot 0 ≠ 0) || (op = 2 && x.slotSt.getD slot 0 ≠ 1) then 4
  else if op = 2 && decide ((x.slotSt.filter (fun y => y = 1)).length ≤ 1) then 5
  else if op = 3 && (decide (value ≤ x.counter) || decide (x.svn < value)) then 6
  else if op = 3 && decide (128 ≤ x.used) then 7
  else 0

/-- Free bytes. -/
def Dev.drawBytes : Nat → Dev → List Byte × Dev
  | 0, d => ([], d)
  | n + 1, d =>
    let (x, d) := d.draw
    let (bs, d) := Dev.drawBytes n d
    (le 8 x.toNat ++ bs, d)

/-- The element of a list replaced. -/
def setAt {α : Type} (xs : List α) (i : Nat) (v : α) : List α := xs.take i ++ [v] ++ xs.drop (i + 1)

/-- OTP is written by a KEY_ADMIN that passed its checks: `ok` when it reads back right. A failed write leaves the state of
R499 and R500, and the hash of a slot that stays EMPTY is open. -/
def Dev.adminWrite (d : Dev) (b : List Byte) (ok : Bool) : Dev :=
  let op := bodyN b 0 1
  let slot := bodyN b 1 1
  if op = 1 then
    if ok then
      let hs := setAt d.sec.slotHash slot (shake64 (slice b 16 64))
      let st := setAt d.sec.slotSt slot 1
      ({ d with sec.slotHash := hs, sec.slotSt := st }).raise 0x80040 0 0x1E01 (le 1 slot ++ le 1 1)
    else
      let (bs, d) := d.drawBytes 8
      let hs := setAt d.sec.slotHash slot bs
      { d with sec.slotHash := hs }
  else if op = 2 then
    if ok then
      let st := setAt d.sec.slotSt slot 2
      ({ d with sec.slotSt := st }).raise 0x80040 0 0x1E01 (le 1 slot ++ le 1 2)
    else d
  else if op = 3 then
    let d := { d with sec.used := d.sec.used + 1 }
    if ok then ({ d with sec.counter := bodyN b 8 8 }).raise 0x80040 1 0x1E02 (le 4 (bodyN b 8 8)) else d
  else d

/-- The end of a KEY_ADMIN: status, REASON and the new state. -/
def Dev.adminRun (d : Dev) (b : List Byte) (ok : Bool) : Nat × Nat × Dev :=
  if bodyN b 0 1 = 0 then (0, 0, d)
  else
    let r := d.sec.adminReason b
    let d := if r = 1 || r = 2 then d else { d with sec.chal := d.sec.chal + 1 }
    if r = 0 then
      if ok then (0, 0, d.adminWrite b true) else (4, 8, d.adminWrite b false)
    else if r ≤ 3 then (1, r, (d.count32 0x80044).raise 0x80040 2 0x1E03 (le 1 r))
    else (1, r, d)

/-- The body of the KEY_ADMIN in service that is writing OTP: of OP 1 to 3, with checks that pass (DESIGN CHOICE 135). -/
def Sec.writing (x : Sec) : Option (List Byte) :=
  match x.service with
  | some j => match j.work with
    | .keyAdmin b => if bodyN b 0 1 ≠ 0 && decide (x.adminReason b = 0) then some b else none
    | _ => none
  | none => none

/-- Warm reset of the security processor (R489): a KEY_ADMIN that is writing OTP completes first, and the reset then follows. What
the processor serves and what waits for it ends with ABORTED, and a load into a plane stops. -/
def Dev.secReset (d : Dev) (m : List Host.Cell) : Dev × List Host.Cell :=
  if d.sec.writing.isSome then ({ d with sec.resetAfter := true }, m)
  else
    let dead := d.sec.service.toList ++ d.sec.waiting
    let d := ({ d with sec.service := none, sec.waiting := [] }).secGo
    let x := (dead.foldl (fun d x => d.later x.op x.job) d).loadStop m
    (x.1.endAborted, x.2)

/-- Result body: REASON, VALUE as the counter after the command, and for OP 0 the slot hashes. -/
def Dev.adminBody (d : Dev) (b : List Byte) (reason : Nat) : List Byte :=
  let b := patchBytes (patchBytes b 3 (le 1 reason)) 8 (le 8 d.sec.counter)
  if bodyN b 0 1 = 0 then patchBytes b 176 ((List.range 4).flatMap (fun i => fit 64 (d.sec.slotHash.getD i []))) else b

def keyAdminDone (ok : Bool) (d : Dev) (m : List Host.Cell) : Dev × List Host.Cell :=
  match d.sec.service with
  | some x => match x.work with
    | .keyAdmin b =>
      let d := { d with sec.service := none }
      let (st, r, d) := d.adminRun b ok
      let body := d.adminBody b r
      let d := (d.hostWrite x.addr body).complete 0x91 x.job
        { status := st, patch := [(0, body.take 56)], afterData := true }
      if d.sec.resetAfter then ({ d with sec.resetAfter := false }).secReset m else (d, m)
    | _ => (d, m)
  | none => (d, m)

def execKeyAdminDone (otpOk : Bool) (s : State) : Out1 := onMem (liveMem (keyAdminDone otpOk)) s

end Sys2Proof.Machine
end

