-- ==== Sys2Proof/Machine/TwillCmd.lean ====
section
/-! DEFINITION. The commands of the Twill engines (chapter 12): the package slot and the loading of a plane, the handover
between planes, budgets, moves and DCC monitors, and the engines' own events. -/

namespace Sys2Proof.Machine

/-! ### Packages (R354, R355) -/

/-- PKG_ID and VERSION of the package concerned. -/
def pkgPatch (k : Pkg) : List (Nat × List Byte) := [(24, le 4 k.id.toNat), (28, le 4 k.ver.toNat)]

/-- ENGINE_PKG_LOAD. -/
def enginePkgLoad (c : Desc) (d : Dev) (job : Nat) : Ran :=
  let op := c.u8 0
  let p : Fin 2 := if c.u8 1 = 0 then 0 else 1
  checked [ atMost 0 op 2, (1, decide (op ≠ 1) || decide (c.u8 1 ≤ 1)), c.zeros 2 7
          , (16, decide (op ≠ 0) || (decide (1024 ≤ c.u32 16) && decide (c.u32 16 ≤ 65536))), c.zeros 21 23, c.zeros 32 55 ] <|
  need (decide (op = 2) || (!d.staging && d.twill.loading.isNone)) (conflictDone 0x1C 0) <|
  if op = 0 then
    ranLater (d.secQueue { job := job, work := .stage (c.u32 16), addr := wordOf c.body 8 })
  else
    need (decide (op = 2) || (d.planeFenced p.val && d.plane.resync.isNone)) (conflictDone 0x1D p.val) <|
    match d.twill.staged with
    | none => .error refusedDone
    | some k =>
      if op = 1 then
        ranLater { d with twill.loading := some { plane := p, job := job, pkg := k, bytes := d.sec.pkgBytesStage } }
      else ran { d with twill.staged := none, sec.pkgBytesStage := [] } { patch := (20, le 1 0) :: pkgPatch k }

def execEnginePkgLoad (c : Desc) (s : State) : Out1 := hostRow 0x70 c enginePkgLoad s

/-- Items of a package event. -/
def pkgArgs (k : Pkg) (plane : Nat) : List Byte := le 4 k.id.toNat ++ le 4 k.ver.toNat ++ le 1 plane

/-- The security processor has verified a package for the staging slot: it is staged, or the slot is left as it was. -/
def Dev.pkgStaged (d : Dev) (r : HostRead) : Dev :=
  match d.sec.service with
  | some x => match x.work with
    | .stage n =>
      let d := { d with sec.service := none }
      let (reason, bs) : Nat × List Byte := match r with
        | .failed => (1, [])
        | .data bs => if bs.length = n then (pkgReason d.sec.counter bs, bs) else (1, [])
      let k := pkgHeader bs
      if reason = 0 then
        let d := { d with twill.staged := some k, sec.pkgBytesStage := pkgBody bs }
        (d.post 0x1A41 (pkgArgs k 2)).complete 0x70 x.job { patch := (20, le 1 0) :: pkgPatch k }
      else
        d.complete 0x70 x.job
          { status := 1, patch := (20, le 1 reason) :: (if 3 ≤ reason then pkgPatch k else []) }
    | _ => d
  | none => d

def execTwPkgStaged (r : HostRead) (s : State) : Out1 := onDev (live (fun d => d.pkgStaged r)) s

/-- The instruction stores of all 128 engines of a plane take a package. -/
def loadPlane (bs : List Byte) (p : Nat) (m : List Host.Cell) : List Host.Cell :=
  (List.range 128).foldl (fun m i => loadInstr bs (128 * p + i) m) m

/-- A plane holds a package. -/
def Dev.setPkg (d : Dev) (p : Fin 2) (k : Pkg) (bs : List Byte) : Dev :=
  if p = 0 then { d with twill.pkgN := some k, sec.pkgBytesN := bs } else { d with twill.pkgS := some k, sec.pkgBytesS := bs }

/-- The staged package has been written into every engine of its plane. -/
def pkgLoaded (d : Dev) (m : List Host.Cell) : Dev × List Host.Cell :=
  match d.twill.loading with
  | none => (d, m)
  | some x =>
    let d := ({ d with twill.loading := none }).setPkg x.plane x.pkg x.bytes
    ((d.post 0x1A42 (pkgArgs x.pkg x.plane.val)).complete 0x70 x.job { patch := (20, le 1 0) :: pkgPatch x.pkg }, loadPlane x.bytes x.plane.val m)

def execTwPkgLoaded (s : State) : Out1 := onMem (liveMem pkgLoaded) s

/-! ### Handover (R356, R357) -/

/-- The first fenced unit inside a plane. -/
def Dev.firstFenced (d : Dev) (p : Nat) : Option Nat :=
  (d.plane.fences.find? (fun x => x.2 && decide (srcFamily x.1 ≠ 15) && decide (planeOf x.1 = p))).map (fun x => x.1)

/-- PLANE_HANDOVER. -/
def planeHandover (c : Desc) (d : Dev) (job : Nat) : Ran :=
  let op := c.u8 0
  let p : Fin 2 := if c.u8 1 = 0 then 0 else 1
  checked [ atMost 0 op 1, atMost 1 (c.u8 1) 1, c.zeros 2 55 ] <|
  match d.plane.resync with
  | some r => .error (conflictDone 0x1D r.plane.val)
  | none =>
    need (if op = 0 then decide (d.planeState = 0) else d.planeFenced p.val) refusedDone <|
    match d.firstFenced (if op = 0 then 1 - p.val else p.val) with
    | some u => .error (conflictDone 0x23 u)
    | none =>
      if op = 0 then ran (d.fencePlane p).endAborted
      else match d.pkgOf p.val with
        | none => .error refusedDone
        | some k =>
          need (decide ((d.pkgOf (1 - p.val)).map Pkg.cat = some k.cat)) refusedDone <|
            ranLater { d.feedAgain p.val with plane.resync := some { plane := p, why := .handover, job := job } }

def execPlaneHandover (c : Desc) (s : State) : Out1 := hostRow 0x71 c planeHandover s

/-- Stage 3 of a handover: the selectors take the returning plane and the other is fenced as a whole. -/
def Dev.handoverDone (d : Dev) : Dev :=
  match d.plane.resync with
  | none => d
  | some r =>
    if r.why = ResyncFor.handover && r.copied then
      let p := r.plane
      let o := 1 - p.val
      let was := d.planeState
      let d := { d with plane.resync := none, plane.preferred := p }
      let d := ((d.setFence (0xF000 + p.val) false).setFence (0xF000 + o) true).disarm (0xF000 + o)
      let d := (d.post 0x1C05 (le 2 (0xF000 + p.val) ++ le 1 0)).post 0x1C04 (le 2 (0xF000 + o))
      let d := d.postState was
      let d := (d.enabledPorts.foldl (fun d q => d.unpair q p.val) d).expose
      let d := match d.pkgOf p.val with | some k => d.post 0x1A43 (pkgArgs k p.val) | none => d
      d.complete 0x71 r.job okDone
    else d

def execTwHandoverDone (s : State) : Out1 := onDev (live Dev.handoverDone) s

/-! ### ENGINE_CFG (R361–R363) -/

/-- Section 0: a slice's budget. -/
def engineCfg0 (c : Desc) (d : Dev) : Ran :=
  checked [ atMost 1 (c.u8 1) 7, atMost 2 (c.u16 2) 16000, c.zeros 4 55 ] <|
    ran { d with twill.budgets := tput 16000 d.twill.budgets (c.u8 1) (c.u16 2) }

/-- CONFLICT that names an engine. -/
def engineConflict (slice k : Nat) : Done := conflictDone 0x1A (k + 16 * slice)

/-- An engine is the FROM or the TO of a move in progress. -/
def Dev.inMove (d : Dev) (slice k : Nat) : Bool :=
  d.twill.moves.any (fun m => decide (m.slice = slice) && (decide (m.src = k) || decide (m.dst = k)))

/-- An engine of a slice in a plane, as the bus matrix and the queues name it. -/
def engineId (plane slice k : Nat) : Fin 256 := Fin.ofNat 256 (engineNo plane slice k)

/-- The messages that wait for the copy of engine FROM in a plane pass to that of TO, in order: those of the input queue, of
the register of the tap and of the bus matrix (R353). -/
def Dev.passPlane (d : Dev) (slice src dst plane : Nat) : Dev :=
  let f := engineId plane slice src
  let t := engineId plane slice dst
  let q := d.queue (.twIn f)
  let busy := (d.engine f.val).tapBusy
  let (w, d) := d.draw
  let d := (d.emptyQueue (.twIn f)).updEngine f.val (fun e => { e with tapBusy := false })
  let d := (q.items ++ (if busy then [newItem w 4 false] else []) ++ q.waiting).foldl (fun d x => d.qPush (.twIn t) x) d
  { d with mx.waiting := d.mx.waiting.map (fun r => if r.target = f then { r with target := t } else r) }

/-- The same in both planes, after which the matrix grants what it can. -/
def Dev.passMessages (d : Dev) (slice src dst : Nat) : Dev := ([0, 1].foldl (fun d p => d.passPlane slice src dst p) d).mxRun

/-- Section 1: a move of every function of FROM to TO (R353). -/
def engineCfg1 (c : Desc) (d : Dev) (job : Nat) : Ran :=
  let j := c.u8 1
  let src := c.u8 2
  let dstE := c.u8 3
  checked [ atMost 1 j 7, atMost 2 src 15, (3, decide (dstE ≤ 15) || decide (dstE = 0xFF)), c.zeros 5 55 ] <|
  need (decide (dstE ≠ src)) refusedDone <|
  need (!d.inMove j src) (engineConflict j src) <|
  need (decide (dstE = 0xFF) || !d.inMove j dstE) (engineConflict j dstE) <|
  need (!(d.funcsOn j src).isEmpty) refusedDone <|
    let u := d.unitsOn j src
    let b := d.bytesOn j src
    let go := fun (dst : Nat) =>
      ranLater { d.passMessages j src dst with
        twill.moves := d.twill.moves ++ [{ slice := j, src := src, dst := dst, job := job }] }
    if dstE = 0xFF then
      match d.bestEngine j u b (fun k => d.eligible j k && decide (k ≠ src) && !d.inMove j k) with
      | some dst => go dst
      | none => .error (budgetConflict j)
    else
      need (!d.engineFencedAny j dstE && decide (d.unitsOn j dstE + u ≤ 1000) && decide (d.bytesOn j dstE + b ≤ 30720))
        (engineConflict j dstE) <| go dstE

/-- A DCC monitor instance. -/
def Dev.dcc (d : Dev) (i : Nat) : Dcc := tget {} d.twill.dcc i

/-- The monitor instance that claims a CRC unit. -/
def Dev.crcClaim (d : Dev) (u : Nat) : Bool :=
  d.twill.dcc.any (fun x => x.2.made && (decide (x.2.crcN = u) || decide (x.2.crcS = u)))

/-- Section 2: create or delete a DCC monitor (R362). -/
def engineCfg2 (c : Desc) (d : Dev) (job : Nat) : Ran :=
  let op := c.u8 1
  let i := c.u8 2
  let p := c.u8 3
  let ch := c.u8 4
  let n := c.u8 5
  let s := c.u8 6
  checked [ atMost 1 op 1, atMost 2 i 7, atMost 3 p 63, atMost 4 ch 2, atMost 5 n 15, atMost 6 s 15, c.zeros 7 55 ] <|
  if op = 0 then
    need (d.dcc i).made refusedDone <|
      ran { d with twill.dcc := tput {} d.twill.dcc i {} }
  else
    need (decide (n ≠ s)) refusedDone <|
    need (if ch = 2 then isOtn (d.port p).format else isSdh (d.port p).format) refusedDone <|
    need (!(d.dcc i).made) (conflictDone 0x21 i) <|
    match d.twill.dcc.find? (fun x => x.2.made && decide (x.2.port = p) && decide (x.2.channel = ch)) with
    | some x => .error (conflictDone 0x21 x.1)
    | none =>
      need (decide ((d.crcU n).owner.toNat = 2 + p / 8)) (conflictDone 0x20 n) <|
      need (decide ((d.crcU s).owner.toNat = 10 + p / 8)) (conflictDone 0x20 s) <|
      need (!d.crcClaim n) (conflictDone 0x20 n) <|
      need (!d.crcClaim s) (conflictDone 0x20 s) <|
      let l := dccLoad ch
      match d.allocate (p / 8) l.1 l.2 with
      | none => .error (budgetConflict (p / 8))
      | some k =>
        let x : Dcc := { port := p, channel := ch, crcN := n, crcS := s, engine := some k, suspect := true, made := true }
        ran ({ d with twill.dcc := tput {} d.twill.dcc i x }.tellEngine (d.jobClass job) (p / 8) k)

/-- ENGINE_CFG. -/
def engineCfg (c : Desc) (d : Dev) (job : Nat) : Ran :=
  checked [atMost 0 (c.u8 0) 2] <|
  match c.u8 0 with
  | 0 => engineCfg0 c d
  | 1 => engineCfg1 c d job
  | _ => engineCfg2 c d job

def execEngineCfg (c : Desc) (s : State) : Out1 := hostRow 0x72 c engineCfg s

/-- Every function on engine `src` of a slice is on engine `dst`. -/
def Dev.remapEngine (d : Dev) (slice src dst : Nat) : Dev :=
  let subst := fun (e : Option Nat) => if e = some src then some dst else e
  let points := d.points.map (fun x => if d.pointSlice x.1 = slice then (x.1, { x.2 with engine := subst x.2.engine }) else x)
  let sels := d.sels.map (fun x => (x.1, x.2.map (fun v =>
    if d.selSlice (x.1 / 4096) v.prot = slice then { v with engine := subst v.engine } else v)))
  let dcc := d.twill.dcc.map (fun x => if x.2.port / 8 = slice then (x.1, { x.2 with engine := subst x.2.engine }) else x)
  { d with points := points, sels := sels, twill.dcc := dcc }

/-- The first word of the function state in a data store: 2 KiB hold the package runtime (R334). -/
def storeBase : Nat := 256

/-- The state of the moved functions is read in a copy of FROM and written behind the `own` bytes of TO's functions, in each
plane that takes words (R353). Where a package keeps its functions' state is internal to it (DESIGN CHOICE 78). -/
def moveStore (slice src dst bytes own plane : Nat) (d : Dev) (m : List Host.Cell) : Dev × List Host.Cell :=
  ([0, 1].filter (fun p => !d.engineDead p slice dst)).foldl (fun x p =>
    (List.range (bytes / 8)).foldl (fun y i =>
      copyWord y.1 y.2 (.twData (engineId plane slice src)) (.twData (engineId p slice dst)) ((storeBase + i) % 4096)
        ((storeBase + own / 8 + i) % 4096)) x) (d, m)

/-- The points whose function stands on an engine, moves in progress apart. -/
def Dev.standOn (d : Dev) (slice k : Nat) : List Nat :=
  (d.points.filter (fun x => d.pointSlice x.1 = slice && x.2.engine = some k)).map (fun x => x.1)

/-- The functions of FROM run on TO, restarted there where both copies of FROM are fenced (R353, R352). -/
def Dev.startOn (d : Dev) (slice src dst : Nat) (dead : Bool) : Dev :=
  let ks := d.standOn slice src
  let d := (if dead then d.restartSels slice src else d).remapEngine slice src dst
  (if dead then d.restartPoints Point.restart ks else d.refresh).expose

/-- The functions start on TO, with the state of a copy of FROM that is not fenced or, where both are, from their initial
state (R353). -/
def moveDone (slice src : Nat) (d : Dev) (mem : List Host.Cell) : Dev × List Host.Cell :=
  match d.twill.moves.find? (fun m => decide (m.slice = slice) && decide (m.src = src)) with
  | none => (d, mem)
  | some m =>
    let all := d.bytesOn slice m.dst
    let d := { d with twill.moves := d.twill.moves.filter (fun x => !(decide (x.slice = slice) && decide (x.src = src))) }
    let bytes := d.bytesOn slice src
    let deadN := d.engineDead 0 slice src
    let dead := deadN && d.engineDead 1 slice src
    let (d, mem) := if dead then (d, mem) else moveStore slice src m.dst bytes (all - bytes) (if deadN then 1 else 0) d mem
    ((d.startOn slice src m.dst dead).complete 0x72 m.job { patch := [(4, le 1 m.dst)] }, mem)

def execEngineMoveDone (slice : Fin 8) (src : Fin 16) (s : State) : Out1 :=
  onMem (liveMem (moveDone slice.val src.val)) s

/-! ### DCC monitors (R363) -/

/-- What a monitor has counted in a second: GOOD, BAD_FCS, ABORT and OCTETS. -/
structure DccCount where
  good : Nat := 0
  bad : Nat := 0
  aborted : Nat := 0
  octets : Nat := 0

/-- Octets of a frame's bits, the last bit received first in the list: the first bit of an octet is its least significant
(ISO/IEC 13239; PRESUMED 128). -/
def octetsOf (bits : List Bool) : List Byte :=
  let bs := bits.reverse
  (List.range (bs.length / 8)).map (fun i =>
    BitVec.ofNat 8 (((List.range 8).map (fun j => if bs.getD (8 * i + j) false then 2 ^ j else 0)).sum))

/-- CRC_RESULT over a frame with a 32-bit FCS that matches: the residue of POLY 1 (R57). -/
def fcsResidue : Word := 0x2144DF1C

/-- A plane's copy of a monitor as it runs over the bits of a second: its receiver, the frames that it has fed to its CRC
unit, with their octets, and its counts. -/
structure DccRun where
  rx : Hdlc
  frames : List (List Byte) := []
  n : DccCount := {}

/-- A frame ends with a flag: fewer than 6 bytes are an ABORT, and whether the FCS matches is GOOD or BAD_FCS. Bits that are
no whole number of octets hold no FCS that matches (DESIGN CHOICE 128). -/
def DccRun.frameEnds (x : DccRun) (bits : List Bool) : DccRun :=
  if bits.isEmpty then x
  else if bits.length < 48 then { x with n.aborted := x.n.aborted + 1 }
  else
    let bs := octetsOf bits
    let x := { x with frames := x.frames ++ [bs] }
    if bits.length % 8 = 0 && crcOf 1 bs = fcsResidue then
      { x with n.good := x.n.good + 1, n.octets := x.n.octets + (bs.length - 4) }
    else { x with n.bad := x.n.bad + 1 }

/-- One bit: the sixth bit of a run of ones that a zero ends makes a flag, the seventh an abort sequence, and a zero after
five ones is deleted. -/
def DccRun.bit (x : DccRun) (b : Bool) : DccRun :=
  let r := x.rx
  if b then
    if 6 ≤ r.ones then
      let open_ := r.inFrame && decide (6 < r.bits.length)
      { x with rx := { inFrame := false, ones := 7 }, n.aborted := x.n.aborted + (if open_ then 1 else 0) }
    else { x with rx := { r with ones := r.ones + 1, bits := if r.inFrame then true :: r.bits else [] } }
  else if r.ones = 5 then { x with rx := { r with ones := 0 } }
  else if r.ones = 6 then
    let x := if r.inFrame then x.frameEnds (r.bits.drop 7) else x
    { x with rx := { inFrame := true } }
  else { x with rx := { r with ones := 0, bits := if r.inFrame then false :: r.bits else [] } }

/-- A second of a copy: the channel's bytes as its taps brought them, each most significant bit first. Where a message was lost
in the second (R346), the frame that is open is not received, and the receiver searches for a flag (DESIGN CHOICE 128). -/
def dccRun (rx : Hdlc) (bytes : List Byte) (gap : Bool) : DccRun :=
  (bytes.flatMap (fun b => (List.range 8).map (fun i => b.getLsbD (7 - i)))).foldl DccRun.bit { rx := if gap then {} else rx }

/-- A copy feeds each frame to its plane's CRC unit with POLY 1. -/
def Dev.feedFrames (d : Dev) (u : Nat) (frames : List (List Byte)) : Dev :=
  frames.foldl (fun d bs => (d.crcFeed u (.load 1 none)).crcFeed u (.bytes bs)) d

/-- A DCC monitor's second ends. The record is that of the copy that status shows, or of the partner of a fenced one (R350),
whose receiver a fenced copy takes (R352). -/
def Dev.dccSecond (d : Dev) (i : Nat) (north south : List Byte) (gapN gapS : Bool) : Dev :=
  let x := d.dcc i
  match x.engine with
  | none => d
  | some k =>
    let deadN := d.engineDead 0 (x.port / 8) k
    let deadS := d.engineDead 1 (x.port / 8) k
    if !x.made || (deadN && deadS) then d
    else
      let n := dccRun x.rxN north gapN
      let s := dccRun x.rxS south gapS
      let d := if deadN then d else d.feedFrames x.crcN n.frames
      let d := if deadS then d else d.feedFrames x.crcS s.frames
      let d := { d with twill.dcc := tput {} d.twill.dcc i { x with
        suspect := deadN || deadS, rxN := if deadN then s.rx else n.rx, rxS := if deadS then n.rx else s.rx } }
      let c := if deadS || (!deadN && d.shownPlane = 0) then n.n else s.n
      d.stat (le 1 0x41 ++ le 1 1 ++ le 1 i ++ le 1 x.channel ++ le 1 x.port ++ le 1 (if x.suspect || deadN || deadS then 1 else 0)
        ++ le 2 0 ++ le 6 (d.tsu.sec - 1).toNat ++ le 2 0 ++ le 4 c.good ++ le 4 c.bad ++ le 4 c.aborted ++ le 4 c.octets)

def execDccSecond (i : Fin 8) (north south : List Byte) (gapN gapS : Bool) (s : State) : Out1 :=
  onDev (live (fun d => d.dccSecond i.val north south gapN gapS)) s

/-! ### The engines at work (R345, R349) -/

/-- An engine pops a message of its input queue, and the matrix may grant the entry; what the message holds is internal to the
package. -/
def execTwillMessage (g : Fin 256) (s : State) : Out1 :=
  onDev (live (fun d => d.queuePop (.twIn g) { c := 0 })) s

/-- A stall of an engine is recorded as class U, which fences it. -/
def Dev.engineStall (d : Dev) (g : Fin 256) : Dev :=
  let q := d.queue (.twIn g)
  if d.fencedOrPlane (srcOf 9 g.val) || q.items.isEmpty || !d.after q.since 2000000 then d
  else
    (d.raise (aEng g.val 4) 3 0x1A02 (le 2 g.val)).fault1
      { source := BitVec.ofNat 16 (srcOf 9 g.val), cls := 2, checker := 4, master := 0xFF, access := 6 }

def execTwStall (g : Fin 256) (s : State) : Out1 := onDev (live (fun d => d.engineStall g)) s

end Sys2Proof.Machine
end

