-- ==== Sys2Proof/Machine/HostCmd.lean ====
section
/-! DEFINITION. The host interface (chapter 13): NOP and unknown opcodes, STATS_SNAP, fetch errors and coalescing, urgent
words, the completions of workers, and what PCIe events do to the rings. -/

namespace Sys2Proof.Machine

/-! ### NOP and unknown opcodes (R376, R377) -/

/-- NOP: its body is reserved. -/
def nopCmd (c : Desc) (d : Dev) (_job : Nat) : Ran := checked [c.zeros 0 55] <| ran d

def execNop (c : Desc) (s : State) : Out1 := hostRow 0x01 c nopCmd s

/-- A descriptor whose OPCODE is not in the table, as `op` names it. -/
def execUnknownOpcode (op : Byte) (c : Desc) (s : State) : Out1 :=
  if c.wf then onDev (fun d => d.command op.toNat c (fun _ _ => .error refusedDone) (known := false) (bulkOk := false)) s
  else .fault .malformedDescriptor

/-! ### STATS_SNAP (R391, R392) -/

/-- Registers that hold the counters of scopes 1–15, and the part of the map in which each scope's lie. -/
def scopeRegs (scope sub : Nat) : List String × Nat × Nat :=
  match scope with
  | 1 => (["LANE_FEC_CORR", "LANE_FEC_UNCORR", "LANE_UNDERRUN", "LANE_ACQ_RETRY", "QSLIP"], 0x100000, 0x110000)
  | 2 => (["FRM_OOF_COUNT", "FRM_ERR_FAS", "FRM_SLIP_OOF", "MAC_RX_OK", "MAC_RX_BAD", "MAC_RX_DROP", "MAC_TX_OK"], 0x200000, 0x240000)
  | 3 => (["ODU_MAP_STATUS", "ODU_GFP_DISCARD"], 0x3D0000, 0x3D8000)
  | 4 => (["PTR_STATUS"], 0x3D8000, 0x3E0000)
  | 5 => (["PTR_STATUS", "E1_STATUS"], 0x300000, 0x400000)
  | 6 => (["SATOP_LOSS", "SATOP_BUFFER", "SATOP_BAD"], 0x9E0000, 0xA00000)
  | 7 => (["MG_FWD_OTHER", "MG_REJECT", "MG_DOUBLE_BAD", "MG_MISC", "MG_DIVERGE"], 0x810000, 0x840000)
  | 8 => (["SEL_SWITCHES"], match sub with
      | 0 => (0x840000, 0x844000) | 1 => (0x858000, 0x860000) | 2 => (0x844000, 0x848000) | _ => (0x848000, 0x858000))
  | 9 => (["PSEL_POISONED", "PSEL_DIVERGE", "PSEL_UNPAIRED"], 0xC00000, 0x1000000)
  | 10 => (["Q_DROP"], 0x900000, 0xA00000)
  | 11 => (["SCH_COUNT"], 0x930000, 0x934000)
  | 12 => (["SCH_COUNT"], 0x934000, 0x940000)
  | 13 => (["POL_PASS", "POL_DROP"], 0x940000, 0x960000)
  | 14 => (["TW_MSG_DROP", "TW_CORR", "QSLIP"], 0x400000, 0x480000)
  | _ => (["PKT_MISS", "URGENT_DROP", "RING_LOST", "MX_HOLD_CYCLE", "PWR_SAG_COUNT", "JY_HDR_ERR", "JY_CTL_RETX", "QSLIP"], 0, 0x1000000)

/-- Last instance of a scope. -/
def scopeLast (scope sub : Nat) : Nat :=
  match scope with
  | 0 => (match sub with | 2 | 3 => 4095 | 6 => 511 | 7 | 8 => 8063 | _ => 63)
  | 1 | 2 | 9 => 63
  | 3 | 10 | 13 => 4095
  | 4 | 11 => 511
  | 5 | 6 => 8063
  | 7 => 1023
  | 8 => selMax sub
  | 12 => 127
  | 14 => 255
  | _ => 0xFFFF

/-- The counter registers of one scope for a range of instances. -/
def scopeAddrs (scope sub first last : Nat) : List Nat :=
  let (names, lo, hi) := scopeRegs scope sub
  let ofReg := fun (r : RReg) => (r.wins.flatMap (fun w => RWin.addrs w.base w.strides)).filter (fun a =>
    let i := ((r.at a).getD []).headD 0
    decide (lo ≤ a) && decide (a < hi) && decide (first ≤ i) && decide (i ≤ last))
  let jersey := fun (a : Nat) => decide (0x120000 ≤ a) && decide (a < 0x130000)
  let vc4 := fun (a : Nat) => decide (0x3D8000 ≤ a) && decide (a < 0x3E0000)
  (regMap.filter (fun r => names.contains r.name)).flatMap (fun r =>
    (ofReg r).filter (fun a => (decide (scope ≠ 15) || decide (r.name ≠ "QSLIP") || jersey a) && (decide (scope ≠ 5) || !vc4 a)))

/-- The counter registers that a STATS_SNAP covers, in ascending order of address. -/
def snapAddrs (scope sub first last : Nat) : List Nat :=
  let all := if scope = 16 then
      (List.range 15).flatMap (fun i =>
        if i = 7 then (List.range 4).flatMap (fun x => scopeAddrs 8 x 0 0xFFFF) else scopeAddrs (i + 1) 0 0 0xFFFF)
    else if scope = 15 then scopeAddrs 15 0 0 0xFFFF
    else scopeAddrs scope sub first last
  sortOn id 20 all

/-- The words that stopped framers show at an address keep the bits of a mask (R89, R392). -/
def Dev.heldCleared (d : Dev) (a : Nat) (keep : Word) : Dev :=
  { d with plane.framerHeld := [0, 1].foldl (fun t q =>
      tput 0 t (2 ^ 26 * q + a) (tget 0 t (2 ^ 26 * q + a) &&& keep)) d.plane.framerHeld }

/-- A counter register cleared: its counter fields alone become 0. -/
def Dev.clearCounter (d : Dev) (a : Nat) : Dev :=
  match findReg a with
  | none => d
  | some r =>
    let i := ((r.at a).getD []).headD 0
    match r.name with
    | "ODU_MAP_STATUS" => d.updOdu i (fun o => { o with jcErr := 0 })
    | "PTR_STATUS" =>
      if a < 0x3E0000 then d.updVc4 i (fun v => { v with ptr.inc := 0, ptr.dec := 0 })
      else d.updLo i (fun x => { x with ptr.inc := 0, ptr.dec := 0, slips := 0 })
    | "E1_STATUS" => (d.updE1 i (fun e => { e with mfRestarts := 0, oofCount := 0 })).heldCleared a 0xFF
    | "FRM_OOF_COUNT" | "FRM_ERR_FAS" | "FRM_SLIP_OOF" => (d.setReg a 0).heldCleared a 0
    | "SATOP_LOSS" => d.updCircuit i (fun x => { x with lost := 0, late := 0 })
    | "SATOP_BUFFER" => d.updCircuit i (fun x => { x with underrun := 0, overrun := 0 })
    | "SATOP_BAD" => d.updCircuit i (fun x => { x with malformed := 0, dup := 0 })
    | _ => d.setReg a 0

/-- A bin after a STATS_SNAP with clear (R140). -/
def Bin.cleared (b : Bin) : Bin := { start := b.start, suspect := true, tca := b.tca }

/-- Scope 0 on one point: the records of its current bins, or with PREV of its previous ones. -/
def Dev.snapPoint (d : Dev) (k : Nat) (clear prev : Bool) : Dev :=
  if (d.point k).role = 0 || d.pointHeld k then d
  else
    let d := d.rollPoint k
    let x := d.point k
    let d := if prev then (d.stat (pmRecord k false false x.prev15)).stat (pmRecord k true false x.prev24)
      else (d.stat (pmRecord k false true x.cur15)).stat (pmRecord k true true x.cur24)
    if clear then d.updPoint k (fun x => { x with cur15 := x.cur15.cleared, cur24 := x.cur24.cleared }) else d

/-- RO fields that STATS_SNAP returns. -/
def snapPatch (n : Nat) : List (Nat × List Byte) := [(20, le 4 n), (24, le 4 (8 * n))]

/-- STATS_SNAP: the counters are read, and with CLEAR cleared, in one step; the dump and the completion follow. -/
def statsSnap (c : Desc) (d : Dev) (job : Nat) : Ran :=
  let sc := c.u8 0
  let clear := c.bit 1 0
  let dump := c.bit 1 1
  let prev := c.bit 1 2
  let first := c.u16 2
  let last := c.u16 4
  let sub := c.u8 6
  let level := c.u8 7
  let ranged := decide (sc < 15)
  checked [ atMost 0 sc 16, (1, decide (c.u8 1 < 8) && (!prev || decide (sc = 0)) && !(prev && clear) && !(dump && decide (sc = 0)))
          , (4, !ranged || (decide (first ≤ last) && decide (last ≤ scopeLast sc sub)))
          , (6, if sc = 0 then decide (1 ≤ sub) && decide (sub ≤ 8) else if sc = 8 then decide (sub ≤ 3) else decide (sub = 0))
          , (7, if sc = 0 && decide (sub = 3) then decide (1 ≤ level) && decide (level ≤ 6) else decide (level = 0))
          , (8, !dump || decide (c.u64 8 % 8 = 0)), c.zeros 28 55 ] <|
  if sc = 0 then
    let ks := (List.range (last + 1 - first)).map (fun i => mpKeyOf sub level (first + i))
    let d := ks.foldl (fun d k => d.snapPoint k clear prev) d
    ranLater { d with host.snaps := d.host.snaps ++ [{ job := job, addr := 0, bytes := [], count := 0 }] }
  else
    let regs := snapAddrs sc sub first last
    let n := regs.length
    need (!dump || decide (8 * n ≤ c.u32 16)) { status := 1, patch := snapPatch n } <|
      let bytes := if dump then regs.flatMap (fun a => le 4 a ++ le 4 (d.readReg a).toNat) else []
      let d := if clear then regs.foldl Dev.clearCounter d else d
      ranLater { d with host.snaps := d.host.snaps ++ [{ job := job, addr := wordOf c.body 8, bytes := bytes, count := n }] }

def execStatsSnap (c : Desc) (s : State) : Out1 := hostRow 0x60 c statsSnap s

/-- The oldest STATS_SNAP has written its dump. -/
def Dev.snapDone (d : Dev) : Dev :=
  match d.host.snaps with
  | [] => d
  | x :: rest =>
    let d := { d with host.snaps := rest }
    let d := if x.bytes.isEmpty then d else d.hostWrite x.addr x.bytes
    d.complete 0x60 x.job { patch := snapPatch x.count, afterData := !x.bytes.isEmpty }

def execStatsSnapDone (s : State) : Out1 := onDev (live Dev.snapDone) s

/-! ### Fetch errors, coalescing, INT_N (R393, R394, R399) -/

/-- A descriptor fetch has failed: its ring stops. -/
def Dev.fetchError (d : Dev) (r : Nat) : Dev :=
  if !d.host.up || !d.ringOn r || (d.ring r).fetchStop || decide (d.ringPi r = d.ringCi r) then d
  else (d.updRing r (fun x => { x with fetchStop := true })).raise (aHq 8) 1 0x1B03 (le 1 r)

def execDescriptorFetchError (r : Fin 4) (s : State) : Out1 := onDev (live (fun d => d.fetchError r.val)) s

/-- The oldest unread entry of a ring has waited COAL_TIME. -/
def execCoalTimeExpiry (r : Fin 11) (s : State) : Out1 := onDev (live (fun d => d.ringNotify r.val)) s

/-- INT_N is asserted. -/
def Dev.intPin (d : Dev) : Bool := !d.worker && bit (d.reg (aHq 0)) 0 && !(d.ring 8).unread.isEmpty

/-! ### Completions of workers (R382, R435) -/

/-- A worker's completion reaches the manager: the command's entry goes on its ring. -/
def Dev.workerDone (d : Dev) (w : Nat) (c : WorkerDone) : Dev :=
  match d.host.jobs.find? (fun j => decide (j.device = w) && decide (j.desc.ring = c.ring) && decide (j.desc.tag = c.tag)
      && decide (j.desc.seq = c.seq)) with
  | none => d
  | some j =>
    ({ d with host.jobs := d.host.jobs.filter (fun x => x.id ≠ j.id) }).writeCompletion
      { opcode := j.op, status := c.status.val, tag := c.tag, seq := c.seq, body := c.body, resKind := c.resKind
        resPart := c.resPart, device := w, resId := c.resId, sec := d.tsu.sec, ns := d.tsu.ns, ring := c.ring.val, phase := false }

def execWorkerCompletion (w : Fin 8) (c : WorkerDone) (s : State) : Out1 :=
  onDev (live (fun d => if d.present w.val then d.workerDone w.val c else d)) s

/-! ### Urgent words (R395, R396) -/

/-- Freeze port, or release it. -/
def Dev.urgentFreeze (d : Dev) (arg : Nat) : Nat × Dev :=
  let p := arg % 64
  if arg / 64 % 2 ^ 18 ≠ 0 || (d.port p).format = 0 then (1, d)
  else if arg / 2 ^ 24 = 1 then (0, d.holdOn p (fun x => { x with frozenUrg := true }))
  else (0, d.holdOff p (fun x => { x with frozenUrg := false }))

/-- Force selector: FS or LO as PROT_COMMAND has them. -/
def Dev.urgentForce (d : Dev) (arg : Nat) : Nat × Dev :=
  if arg / 2 ^ 15 ≠ 0 then (1, d)
  else match d.protApply (selKey (arg / 2 ^ 12 % 4) (arg % 4096)) (if arg / 2 ^ 14 % 2 = 1 then 1 else 2) with
    | some d => (0, d)
    | none => (1, d)

/-- Stop service of a queue, or restart it. -/
def Dev.urgentStop (d : Dev) (arg : Nat) : Nat × Dev :=
  if arg / 2 ^ 12 % 2 ^ 12 ≠ 0 then (1, d)
  else (0, d.updPq (arg % 4096) (fun x => { x with stopped := decide (arg / 2 ^ 24 = 1) }))

/-- Force plane: the other plane is fenced as a whole. -/
def Dev.urgentPlane (d : Dev) (arg : Nat) : Nat × Dev :=
  if arg / 2 ≠ 0 then (1, d)
  else if d.plane.resync.isSome then (2, d)
  else if d.planeState ≠ 0 then (1, d)
  else (0, d.fencePlane (if arg = 0 then 1 else 0))

/-- An urgent word in the device that it names: its status, and the device after it. -/
def Dev.urgentRun (d : Dev) (w : Word) : Nat × Dev :=
  let arg := w.toNat % 2 ^ 25
  if d.plane.frozen then (5, d)
  else match fld w 28 4 with
    | 1 => d.urgentFreeze arg
    | 2 => d.urgentForce arg
    | 3 => d.urgentStop arg
    | 4 => d.urgentPlane arg
    | _ => (1, d)

/-- An urgent word has executed with a status: it is counted and posted (R398, R400). -/
def Dev.urgentResult (d : Dev) (w : Word) (st : Nat) : Dev :=
  ({ d with host.urgLast := st, host.urgDone := (d.host.urgDone + 1) % 2 ^ 24 }).post 0x1B06 (le 4 w.toNat ++ le 1 st)

/-- Executes an urgent word here. -/
def Dev.urgentHere (d : Dev) (w : Word) : Dev :=
  let (st, d) := d.urgentRun w
  d.urgentResult w st

/-- The link's CREDIT lets a message of n payload bytes of the first class go now. -/
def Dev.canSend (d : Dev) (j n : Nat) : Bool :=
  let l := d.link j
  l.waiting.isEmpty && decide ((l.unacked.map JyMsg.size).sum + 10 + n ≤ l.credit)

/-- The read that takes a word from the urgent queue is checked, with its injection (R451, R462). What its slot is is open, and a
word that fails acts as it was read (DESIGN CHOICE 136). -/
def Dev.urgentTake (d : Dev) (rest : List Word) : Dev :=
  let (slot, d) := ({ d with host.urgent := rest }).draw
  (d.itemCheck 0x2000 1 (slot.toNat % 16) 0xFF true).2

/-- Executes the urgent words that wait, in arrival order; a word for a worker waits for its link's CREDIT. -/
def Dev.urgentServe : Nat → Dev → Dev
  | 0, d => d
  | n + 1, d =>
    match d.host.urgent with
    | [] => d
    | w :: rest =>
      let dest := fld w 25 3
      if dest = 0 then Dev.urgentServe n ((d.urgentTake rest).urgentHere w)
      else if !d.present dest then Dev.urgentServe n ((d.urgentTake rest).urgentResult w 1)
      else if d.canSend dest 4 then Dev.urgentServe n ((d.urgentTake rest).jySend dest 0x05 (le 4 w.toNat))
      else d

/-- A write of URGENT_DB by a function that may make it. -/
def Dev.urgentWrite (d : Dev) (w : Word) : Dev :=
  if d.host.urgent.length < 16 then
    let d := { d with host.urgent := d.host.urgent ++ [w] }
    (d.urgentServe d.host.urgent.length).endAborted
  else (d.count32 (aHq 0x48)).raise (aHq 8) 4 0x1B05 []

/-! ### PCIe events (R368) -/

/-- The host queue engine's part of a PCIe event: every ring is disabled and its set-up registers and the MSI-X table return to
their reset values, the urgent queue empties, and the completions of what is outstanding are lost. RING_LOST keeps its count. What
a worker executes for its manager completes there. -/
def Dev.ringsOff (d : Dev) : Dev :=
  let d := (List.range 11).foldl (fun d r =>
    let d := [0x00, 0x04, 0x08, 0x0C, 0x10, 0x14, 0x18].foldl (fun d o => d.setReg (aRing r o) (resetOf (aRing r o))) d
    d.updRing r (fun x => { lost := x.lost })) d
  { d with host.urgent := [], host.jobs := if d.worker then d.host.jobs else [], host.pci.table := [], host.pci.pend := 0 }

/-- The device answers at its PCIe endpoint: it boots, runs, or has found no slot to boot. -/
def Dev.awake (d : Dev) : Bool := decide (d.life = .booting) || decide (d.life = .running) || decide (d.life = .bootFailed)

/-- The PCIe link is up at a speed and a width. -/
def Dev.linkUp (d : Dev) (gen width : Nat) : Dev :=
  if d.awake && decide (1 ≤ gen) && decide (gen ≤ 5) && decide (width ∈ [1, 2, 4]) then
    { d with host.up := true, host.gen := gen, host.width := width }
  else d

def execPcieLinkUp (gen width : Fin 8) (s : State) : Out1 := onDev (fun d => d.linkUp gen.val width.val) s

/-- A master is reset: its writes that a commit pass holds back are not issued, so they are dropped (R423). -/
def Dev.dropHeld (d : Dev) (m : Nat) : Dev := { d with cfg.heldBack := d.cfg.heldBack.filter (fun x => decide (x.1 / 2 ^ 26 ≠ m)) }

/-- The PCIe link is lost. -/
def Dev.linkLoss (d : Dev) : Dev :=
  if d.awake then (({ d with host.up := false, host.gen := 0, host.width := 0 }).ringsOff).dropHeld 0 else d

def execPcieLinkLoss (s : State) : Out1 := onDev Dev.linkLoss s

/-- The configuration space of a function as it is after its reset (PRESUMED 39). -/
def Dev.cfgClear (d : Dev) (pf1 : Bool) : Dev :=
  { d with host.pci.cfg := d.host.pci.cfg.filter (fun x => decide (x.1 / 64 ≠ (if pf1 then 1 else 0))) }

/-- PERST_N: the endpoint is reset and its link is down. -/
def execPerstN (s : State) : Out1 := onDev (fun d => if d.awake then (d.linkLoss.cfgClear false).cfgClear true else d) s

/-- A function-level reset: of PF0 the rings go, of PF1 nothing else changes. -/
def execFlr (pf1 : Bool) (s : State) : Out1 :=
  onDev (fun d => if !d.awake then d else if pf1 then d.cfgClear true else (d.ringsOff.dropHeld 0).cfgClear false) s

/-- Entry of PF0 to D3hot. -/
def execD3hotEntry (s : State) : Out1 := onDev (fun d => if d.awake then d.ringsOff else d) s

end Sys2Proof.Machine
end

