-- ==== Sys2Proof/Machine/JyLink.lean ====
section
/-! DEFINITION. The states of a Jersey link (R432, R441, R442): acquisition, loss, RUN, and the remote register window
(R437). -/

namespace Sys2Proof.Machine

/-! ### The remote register window (R410, R437) -/

/-- A register request goes to the worker that JY_RMT_ADDR names. -/
def Dev.remoteSend (d : Dev) (write : Bool) : Dev :=
  let w := d.reg 0x120010
  ({ d with jersey.rmtRead := !write }).jySend (fld w 28 3) 0x06 (le 1 (if write then 1 else 0) ++ le 3 (fld w 0 24)
    ++ le 4 (if write then (d.reg 0x120014).toNat else 0))

/-- A remote access begins: WRITE first when both are asked for, and the READ follows its response (log entry 45). With the
worker not present, or ADDR not aligned, nothing is sent. -/
def Dev.remoteStart (d : Dev) (read write : Bool) : Dev :=
  let w := d.reg 0x120010
  if !d.present (fld w 28 3) || decide (fld w 0 24 % 4 ≠ 0) then
    let d := { d with jersey.rmtDenied := true }
    if read then d.setReg 0x120014 0 else d
  else ({ d with jersey.rmtDenied := false, jersey.rmtBusy := true, jersey.rmtAlso := read && write }).remoteSend write

/-- A write of JY_RMT_CTRL with READ, WRITE or both: while an access runs, exactly one further is queued (R410). -/
def Dev.remoteGo (d : Dev) (read write : Bool) : Dev :=
  if !read && !write then d
  else if d.jersey.rmtBusy then
    (if d.jersey.rmtNext.isSome then d else { d with jersey.rmtNext := some (read, write) })
  else d.remoteStart read write

/-- A remote access ends, and a queued one starts. -/
def Dev.remoteEnd (d : Dev) : Dev :=
  let next := d.jersey.rmtNext
  let d := { d with jersey.rmtBusy := false, jersey.rmtAlso := false, jersey.rmtNext := none }
  match next with
  | some (r, w) => d.remoteStart r w
  | none => d

/-- The response to a remote access: of a READ it loads JY_RMT_DATA, and the READ behind a WRITE is sent. -/
def Dev.remoteReply (d : Dev) (w : Word) : Dev :=
  if !d.jersey.rmtBusy then d
  else if d.jersey.rmtAlso then ({ d with jersey.rmtAlso := false }).remoteSend false
  else (if d.jersey.rmtRead then d.setReg 0x120014 w else d).remoteEnd

def execRemoteResponse (w : Word) (s : State) : Out1 := onDev (live (fun d => d.remoteReply w)) s

/-! ### The states of a link (R432, R441, R442) -/

/-- A link's state after a return to ACQUIRE or OFF: what it shows of its peer stays, and so do the frames that it sends and what
waits to be reported. -/
def JyLink.again (l : JyLink) (st now : Nat) : JyLink :=
  { st := st, acqSince := now, peer := l.peer, bootReason := l.bootReason, slipSeen := l.slipSeen, downEv := l.downEv
    lostEv := l.lostEv, lostSt := l.lostSt, txFrame := l.txFrame, frameAt := l.frameAt, txTick := l.txTick, scr := l.scr }

/-- What leaving RUN means at this end (R382, R442): positions fed from the link carry ODU-AIS; the manager ends the worker's
commands with ABORTED and a remote access to it without a response, and serves the urgent words that waited for the link; a
worker loses its messages, its reference 68 and its tick. -/
def Dev.jyLeftRun (d : Dev) (j : Nat) : Dev :=
  let d := d.sendFromLink j
  if d.worker then
    let new := !bit (d.reg (aJy j 4)) 1
    let d := d.raiseQuiet (aJy j 4) 1
    let d := if new then d.updLink j (fun l => { l with downEv := some (d.tsu.sec, d.tsu.ns) }) else d
    let d := { d with host.jobs := [], xc.haveTick := false }
    (d.refEval 68).selectFree
  else
    let d := d.raise (aJy j 4) 1 0x1F02 (le 1 j)
    let dead := (d.host.jobs.filter (fun x => decide (x.device = j))).reverse
    let d := dead.foldl (fun d x => d.ends x.op x.id { status := 4, kind := 0x24, id := j }) d
    let d := if d.jersey.rmtBusy && decide (fld (d.reg 0x120010) 28 3 = j) then
        let (x, d) := d.draw
        (if d.jersey.rmtRead || d.jersey.rmtAlso then d.setReg 0x120014 (x.setWidth 32) else d).remoteEnd
      else d
    d.urgentServe d.host.urgent.length

/-- A link returns to ACQUIRE, or goes to OFF. -/
def Dev.jyBack (d : Dev) (j st : Nat) : Dev :=
  let was := (d.link j).st
  let d := d.updLink j (fun l => l.again st d.now)
  if was = 7 then d.jyLeftRun j else d

/-- The link goes down: clock recovery lost, out of frame, or a stall of the acknowledgement, from ALIGN to RUN. -/
def Dev.jyDown (d : Dev) (j : Nat) : Dev :=
  if (d.link j).st ∈ [2, 3, 4, 7] then d.jyBack j 1 else d

/-- JY_LINK_CTRL.RESTART. -/
def Dev.jyRestart (d : Dev) (j : Nat) : Dev :=
  if (d.link j).st ∈ [5, 6, 7] then d.jyBack j 1 else d

/-- A write of JY_BUILD.EXPECT: links named start, links named no more go off (R432). -/
def Dev.jyExpect (d : Dev) : Dev :=
  let w := d.reg 0x120000
  [1, 2, 3, 4, 5, 6, 7].foldl (fun d j =>
    if bit w j then (if (d.link j).st = 0 then d.jyBack j 1 else d)
    else if (d.link j).st = 0 then d else d.jyBack j 0) d

/-- A worker's reports that waited for the link: the loss notices, then JY_LINK_DOWN and the swaps that the loss cancels. -/
def Dev.jyReport (d : Dev) : Dev :=
  let l := d.link 0
  let d := d.updLink 0 (fun l => { l with lostEv := 0, lostSt := 0, downEv := none })
  let d := if l.lostEv = 0 then d else d.post 0x1B01 (le 4 l.lostEv)
  let d := if l.lostSt = 0 then d else d.stat (le 1 0x42 ++ le 1 1 ++ le 6 0 ++ le 4 l.lostSt)
  let d := match l.downEv with
    | some (sec, ns) => d.jySend 0 0x03 (eventBytes 0x1F02 d.devid 0 0 sec ns (le 1 0)) true
    | none => d
  d.cancelArms (fun a => a.swapping)

/-- A link enters RUN: positions fed from it carry its ODUs. -/
def Dev.jyUp (d : Dev) (j : Nat) (booted : Bool) : Dev :=
  let d := (d.updLink j (fun l => { l with st := 7, bootAt := none, timeDiff := none })).sendFromLink j
  let d := if d.worker then d.jyReport else d
  let d := d.raiseAll (aJy j 4) ((0, some (0x1F01, le 1 j)) :: (if booted then [(3, some (0x1F04, le 1 j))] else []))
  if d.worker then (d.refEval 68).selectFree else d

/-- A boot over a link fails with a reason. -/
def Dev.jyBootFails (d : Dev) (j reason : Nat) : Dev :=
  (d.updLink j (fun l => { l with st := 6, bootAt := none, bootReason := reason })).raise (aJy j 4) 4 0x1F05 (le 1 j ++ le 1 reason)

end Sys2Proof.Machine
end

