-- ==== Sys2Proof/Machine/Resets.lean ====
section
/-! DEFINITION. Warm resets (R489, R423): what each block's reset does, and the start and end of one. -/

namespace Sys2Proof.Machine

/-- Warm reset of the TSU: every enabled reference fails with cause 6, and what waits in the block is aborted. -/
def Dev.resetTsu (d : Dev) : Dev :=
  let d := d.calDrop 8
  let dead := d.tsu.realign.filterMap (fun r => r.job)
  let d := { d with tsu.realign := d.tsu.realign.filter (fun r => r.job.isNone) }
  let d := dead.foldl (fun d j => d.later 0x52 j) d
  let rs := (d.tsu.refs.filter (fun x => x.2.enable)).map (fun x => x.1)
  let d := rs.foldl (fun d r =>
    (d.updRef r (fun x => { x.unmeasured with softWarn := false })).refFailed r 6) d
  d.disputes.endAborted

/-- Warm reset of the CAL block. -/
def Dev.resetCal (d : Dev) : Dev :=
  let d := d.calAbort 8
  { d with cal.srcFail := false, cal.fails := 0, cal.i2c := bit (d.reg 0x60000) 0, cal.readSec := none }

/-- Warm reset of the statistics DMA: a dump in progress stays partly written (R423), and its command is aborted. -/
def Dev.resetStats (d : Dev) : Dev :=
  let xs := d.host.snaps
  let d := { d with host.snaps := [] }
  (xs.foldl (fun d x =>
    let d := if x.bytes.isEmpty then d
      else
        let n := Config.acceptedWords d.fresh % (x.bytes.length / 8)
        let d := { d with fresh := d.fresh + 1 }
        let d := if n = 0 then d else d.hostWrite x.addr (x.bytes.take (8 * n))
        d.writeIncomplete 20 (x.addr.toNat + 8 * n)
    d.ends 0x60 x.job { status := 4, afterData := !x.bytes.isEmpty }) d).endAborted

/-- Warm reset of a CRC unit. -/
def Dev.resetCrc (d : Dev) (u : Nat) : Dev :=
  d.updCrc u (fun c => { c with queue := [], state := 0, count := 0, blank := true })

/-- Warm reset of a line lane. -/
def Dev.resetLane (d : Dev) (l : Nat) : Dev :=
  let d := if h : l < 64 then (d.emptyQueue (.laneIn ⟨l, h⟩)).emptyQueue (.laneEg ⟨l, h⟩) else d
  let d := d.updLane l Lane.quiet
  let d := if (d.lane l).ctrl.getLsbD 0 && decide ((d.lane l).rate ≠ 0) then d.bringUp l else d
  match d.laneOwner l with
  | some p => (d.portRestart p 2).settlePort p 1
  | none => d

/-- What a warm reset does to its block. -/
def resetBlock (block inst : Nat) (d : Dev) (m : List Host.Cell) : Dev × List Host.Cell :=
  match block with
  | 1 => ((d.ringsOff.mxDropM1).dropHeld 1, m)
  | 2 => (d.resetTsu, m)
  | 3 => (d.resetCal, m)
  | 4 => d.secReset m
  | 5 => (d.resetStats, m)
  | 6 => (d.resetCrc inst, m)
  | _ => (d.resetLane inst, m)

/-- The block and instance that RST_CTRL names exist. -/
def resetNamed (block inst : Nat) : Bool :=
  decide (1 ≤ block) && decide (block ≤ 7) && (decide (block ≠ 6) || decide (inst ≤ 15))

/-- A write of RST_CTRL.GO: a warm reset starts, or one is queued behind the one that runs (R410). -/
def warmGo (d : Dev) (m : List Host.Cell) : Dev × List Host.Cell :=
  let w := d.reg 0x70040
  let block := fld w 0 8
  let inst := fld w 8 6
  if !resetNamed block inst then ({ d with power.denied := true }, m)
  else if d.power.reset.isSome then ({ d with power.denied := false, power.resetNext := true }, m)
  else resetBlock block inst { d with power.denied := false, power.reset := some (block, inst) } m

/-- A warm reset ends; a queued one starts with the settings in force then. -/
def warmDone (d : Dev) (m : List Host.Cell) : Dev × List Host.Cell :=
  match d.power.reset with
  | none => (d, m)
  | some (b, i) =>
    if b = 4 && d.sec.resetAfter then (d, m)
    else
      let d := { d with power.reset := none, power.lastBlock := b, power.lastInst := i }
      let d := d.raise 0x70008 4 0x1D05 (le 1 b ++ le 1 i)
      if d.power.resetNext then warmGo { d with power.resetNext := false } m else (d, m)

def execWarmResetDone (s : State) : Out1 := onMem (liveMem warmDone) s

end Sys2Proof.Machine
end

