-- ==== Sys2Proof/Machine/RegWrite.lean ====
section
/-! DEFINITION. Writes to the register map (chapter 14): shapes, privilege and alias windows (R403–R407), sequence-number
clearing (R409), FROZEN (R411), the configuration CRC (R412–R415), the table windows (R207, R417), ring set-up (R370, R371),
CRC units (R58–R61), injection (R465), and each register whose write does something. -/

namespace Sys2Proof.Machine

/-- The value that a write brings: plain (0), or in the SET, CLEAR and TOGGLE windows (R407). -/
def aliasOp (win : Nat) (old w : Word) : Word :=
  match win with | 0 => w | 1 => old ||| w | 2 => old &&& ~~~w | _ => old ^^^ w

/-- A register has fields of a type. -/
def RReg.has (r : RReg) (t : FTy) : Bool := r.fields.any (fun f => f.ty = t)

/-! ### Configuration CRC (R412–R415) -/

/-- First addresses of the blocks, in the order of the BAR0 map (R401). -/
def blockBases : List Nat :=
  [0, 0x10000, 0x20000, 0x30000, 0x40000, 0x50000, 0x60000, 0x70000, 0x80000, 0x90000, 0x100000, 0x120000, 0x200000, 0x400000,
    0x800000, 0x900000, 0xA00000, 0xC00000]

/-- Number of the block that holds an address. -/
def blockOf (a : Nat) : Nat := (blockBases.filter (fun b => decide (b ≤ a))).length - 1

/-- The registers of the configuration image with the masks of their RWC fields, in ascending order of address. -/
def imageRegs : List (Nat × Word) :=
  sortOn Prod.fst 20 ((regMap.filter (fun r => r.has .rwc)).flatMap (fun r =>
    (r.wins.flatMap (fun w => RWin.addrs w.base w.strides)).map (fun a => (a, r.maskOf (fun t => t = .rwc)))))

/-- The configuration image, register by register. -/
def Dev.configImage (d : Dev) : List (Nat × Word) := imageRegs.map (fun x => (x.1, d.reg x.1 &&& x.2))

/-- CRC-32C of a part of the image. -/
def imageCrc (xs : List (Nat × Word)) : Word := crcOf 0 (xs.flatMap (fun x => le 4 x.2.toNat))

/-- CRC-32C of each block's image. -/
def blockCrcs (xs : List (Nat × Word)) : List Word :=
  (List.range 18).map (fun b => imageCrc (xs.filter (fun x => blockOf x.1 = b)))

/-- CFG_CTRL.COMMIT (R414); during a pass it queues one more (R410). -/
def Dev.cfgGo (d : Dev) : Dev := if d.cfg.busy then { d with cfg.again := true } else { d with cfg.busy := true }

/-- A host write of CFG_CRC_REF (R414). -/
def Dev.cfgRef (d : Dev) (w : Word) : Dev :=
  { d.setReg 0x20004 w with cfg.blocksValid := false, cfg.blocks := 0, cfg.bad := false }

/-- A scrubber pass ends (R413). A commit pass holds the scrubber. -/
def Dev.scrubPass (d : Dev) : Dev :=
  if d.cfg.busy then d
  else
    let xs := d.configImage
    let whole := imageCrc xs
    let diff := ((blockCrcs xs).zipIdx).foldl (fun b x =>
      if d.cfg.stored[x.2]? = some x.1 then b else b ||| BitVec.ofNat 18 (2 ^ x.2)) (0 : BitVec 18)
    let d := { d with cfg.last := whole, cfg.blocks := if d.cfg.blocksValid then diff else 0 }
    if whole = d.reg 0x20004 then
      let was := d.cfg.mismatch
      let d := { d with cfg.bad := false, cfg.mismatch := false }
      if was then d.raise 0x20010 1 0x2002 [] else d
    else if d.cfg.bad && !d.cfg.mismatch then
      let d := { d with cfg.mismatch := true }
      let d := d.fault1 { source := 0x5000, cls := 2, checker := 1, addr := d.cfg.blocks.setWidth 48, master := 0xFE, access := 6 }
      d.raise 0x20010 0 0x2001 (le 4 d.cfg.blocks.toNat)
    else { d with cfg.bad := true }

/-- The owners of R415 come into force. -/
def Dev.ownersIn (d : Dev) : Dev :=
  let d := (List.range 16).foldl (fun d u =>
    d.updCrc u (fun c => { c with owner := BitVec.ofNat 5 (fld (d.reg (aCrc u 0)) 8 5) })) d
  let own := bit (d.reg 0xA00008) 31
  if own = d.xc.owner then d
  else ({ d with xc.owner := own }).writePhase (if own then d.pkt.tickPhase else fld (d.reg 0xA00008) 0 10)

/-! ### Rings (R370, R371, R388, R393) -/

/-- A write of RING_CTRL. -/
def Dev.ringCtrl (d : Dev) (r : Nat) (rr : RReg) (v : Word) : Dev :=
  let a := aRing r 8
  let old := d.reg a
  let was := bit old 0
  let v := if was then setFld v 4 5 (fld old 4 5) else v
  let v := if d.worker then setFld v 0 1 0 else v
  let d := d.setReg a (rr.store old v)
  let now := bit (d.reg a) 0
  let d :=
    if now && !was then
      let d := (d.setReg (aRing r 0x10) 0).setReg (aRing r 0x14) 0
      let d := if 8 ≤ r then d.setReg (aRing r 0x18) 0 else d
      let d := d.updRing r (fun x => { lost := x.lost })
      if 8 ≤ r then d.lossNotice r else d
    else if was && !now then d.updRing r (fun x => { lost := x.lost })
    else d
  if 4 ≤ r then d.ringNotify r else d

/-- A write of RING_PI: the doorbell of a command ring. -/
def Dev.ringPi' (d : Dev) (r : Nat) (v : Word) : Dev :=
  if r < 4 && decide (fld v 0 16 < d.ringSize r) then d.setReg (aRing r 0x10) (fldAt (fld v 0 16) 0 16) else d

/-- A write of RING_CI: entries return to the device, which evaluates the ring afresh. -/
def Dev.ringCi' (d : Dev) (r : Nat) (v : Word) : Dev :=
  if 4 ≤ r && decide (fld v 0 16 < d.ringSize r) then
    let d := d.setReg (aRing r 0x14) (fldAt (fld v 0 16) 0 16)
    let n := d.ringUsed r
    let d := d.updRing r (fun x => { x with unread := x.unread.drop (x.unread.length - n), sent := false })
    let d := d.msixSettle (d.ringVector r)
    (if 8 ≤ r then d.lossNotice r else d).ringNotify r
  else d

/-- A write of a ring's register at an offset of its window. -/
def Dev.ringWrite (d : Dev) (r off : Nat) (rr : RReg) (v : Word) : Dev :=
  let a := aRing r off
  let isOn := d.ringOn r
  match off with
  | 0x00 => if isOn || decide (fld v 0 12 ≠ 0) then d else d.setReg a v
  | 0x04 => if isOn then d else d.setReg a v
  | 0x08 => d.ringCtrl r rr v
  | 0x0C => let d := d.setReg a (rr.store (d.reg a) v)
            if 4 ≤ r then d.ringNotify r else d
  | 0x10 => d.ringPi' r v
  | 0x14 => d.ringCi' r v
  | 0x18 => if isOn || decide (4 ≤ r) then d else d.setReg a v
  | _ => d

/-! ### CRC units (R58–R61) -/

/-- A write of CRC_CTRL by a master. A claimed unit keeps its OWNER (R362). -/
def Dev.crcCtrl (d : Dev) (m u : Nat) (rr : RReg) (v : Word) : Dev :=
  if !d.crcOwns u m then d
  else
    let a := aCrc u 0
    let v := if d.crcClaim u then setFld v 8 5 (fld (d.reg a) 8 5) else v
    let d := d.setReg a (rr.store (d.reg a) v)
    if bit v 2 then
      d.crcFeed u (.load (BitVec.ofNat 2 (fld (d.reg a) 0 2)) (if bit (d.reg a) 3 then none else some (d.reg (aCrc u 4))))
    else d

/-- A write of DATA8, DATA16 or DATA32 by a master: `n` bytes. -/
def Dev.crcData (d : Dev) (m u n : Nat) (w : Word) : Dev :=
  if d.crcOwns u m then d.crcFeed u (.bytes (dataBytes n w)) else d

/-! ### Table windows (R207, R416, R417) -/

/-- XC_TBL_SEL.READ by a master, from the plane of R89. -/
def xcTableRead (m : Nat) (d : Dev) (mem : List Host.Cell) : Dev × List Host.Cell :=
  let w := d.reg 0xA00100
  let pos := fld w 0 13
  let t := fld w 13 2
  if tableSize t ≤ pos then ({ d with xcTbl := { d.xcTbl with data := 0, check := 0, poison := false } }, mem)
  else
    let (b, a) := damaskAt (if bit w 15 then d.standbyPage t else d.activePage t) t pos
    let n := 16 * d.shownPlane + b
    if d.fencedOrPlane (srcOf 13 n) then
      ({ d with xcTbl := { d.xcTbl with
          data := wordData mem (128 + n) a, check := wordCheck mem (128 + n) a, poison := true } }, mem)
    else if h : n < 32 then
      let x := readStored d mem (.damask ⟨n, h⟩) a (BitVec.ofNat 8 m) 2
      ({ x.d with xcTbl := { x.d.xcTbl with data := x.data, check := x.check, poison := x.poison } }, x.mem)
    else (d, mem)

/-- The memory, its bank's source and the word that TBL_SEL names: none where it names none. -/
def Dev.tblWord (d : Dev) : Option (MemId × Nat × Nat) :=
  let w := d.reg 0x100
  let i := fld w 20 6
  let a := fld w 0 18
  match fld w 28 2 with
  | 0 => if h : i < 64 then some (.merge ⟨i, h⟩, srcOf 11 i, a) else none
  | 1 => if h : i < 64 then (if a < 131072 then some (.packet ⟨i, h⟩, srcOf 12 i, a) else none) else none
  | 2 => if h : i < 32 then (if a < 2048 then some (.damask ⟨i, h⟩, srcOf 13 i, a) else none) else none
  | _ => none

/-- TBL_CTRL.WRITE. -/
def tblWrite (d : Dev) (mem : List Host.Cell) : Dev × List Host.Cell :=
  match d.tblWord with
  | some (id, src, a) =>
    if d.fencedOrPlane src then
      ({ d with tbl.denied := false }, putWord mem (memNo id) a ((d.reg 0x108).setWidth 64 <<< 32 ||| (d.reg 0x104).setWidth 64) false)
    else ({ d with tbl.denied := true }, mem)
  | none => ({ d with tbl.denied := true }, mem)

/-- What TBL_CTRL.READ loads. -/
def Dev.tblLoad (d : Dev) (w : Data) (check : Byte) (poison denied : Bool) : Dev :=
  let d := (d.setReg 0x104 (w.setWidth 32)).setReg 0x108 ((w >>> 32).setWidth 32)
  { d with tbl := { d.tbl with check := check, poison := poison, denied := denied } }

/-- TBL_CTRL.READ by a master. -/
def tblRead (m : Nat) (d : Dev) (mem : List Host.Cell) : Dev × List Host.Cell :=
  match d.tblWord with
  | some (id, _, a) =>
    let x := readStored d mem id a (BitVec.ofNat 8 m) 2
    (x.d.tblLoad x.data x.check x.poison false, x.mem)
  | none => (d.tblLoad 0 0 false true, mem)

/-- A write of TBL_CTRL: WRITE, then READ. -/
def tblGo (m : Nat) (v : Word) (d : Dev) (mem : List Host.Cell) : Dev × List Host.Cell :=
  let (d, mem) := if bit v 1 then tblWrite d mem else (d, mem)
  if bit v 0 then tblRead m d mem else (d, mem)

/-! ### Injection and fault windows (R453, R465) -/

/-- The reasons of R465 for denying an arm. -/
def Dev.armDenied (d : Dev) (b src checker mask : Nat) : Bool :=
  let f := srcFamily src
  let slice := srcOf 14 (8 * (srcInst src / 128) + srcInst src % 128 / 16)
  decide (mask = 0) || !armable src checker || decide (familySize f ≤ srcInst src)
    || (decide (b = 0x40040) && decide (8 < f))
    || (fenceable src && (d.fencedOrPlane src || d.fencedOrPlane (partner src)))
    || (decide (f = 9) && (d.fencedOrPlane slice || d.fencedOrPlane (partner slice)))
    || (decide (f ∈ [8, 9, 11, 12, 13]) && decide (d.planeState ≠ 0)) || d.plane.resync.isSome

/-- A write of FW_INJ_CTRL. -/
def Dev.injWrite (d : Dev) (b : Nat) (rr : RReg) (v : Word) : Dev :=
  let a := b + 0x24
  let old := d.reg a
  let kept := rr.store old v &&& 0xFFFF7FFF
  if !bit v 13 then d.setReg a (kept ||| (old &&& 0x8000))
  else
    let src := d.injSource b
    let k := fld v 8 4
    let n := fld v 16 8
    if n = 0 then { d.setReg a kept with arms := tput {} d.arms (16 * src + k) {} }
    else if d.armDenied b src k (fld v 0 8) then d.setReg a (old ||| 0x8000)
    else { d.setReg a kept with
        arms := tput {} d.arms (16 * src + k) { mask := BitVec.ofNat 8 (fld v 0 8), any := bit v 12, count := n } }

/-! ### Registers whose write does something -/

/-- A write of CAL_CFG (R322, R325). -/
def Dev.calCfg (d : Dev) (rr : RReg) (v : Word) : Dev :=
  let d := d.setReg 0x60000 (rr.store (d.reg 0x60000) v)
  ({ d with cal.srcFail := false, cal.fails := 0, cal.i2c := bit (d.reg 0x60000) 0 }).calAbort 6

/-- A write of XC_TICK_CFG: TICK_OWNER is staged; TICK_PHASE is in force at once while the cross-connect owns the phase (R198). -/
def Dev.tickCfg (d : Dev) (rr : RReg) (v : Word) : Dev :=
  let d := d.setReg 0xA00008 (rr.store (d.reg 0xA00008) v)
  if !d.xc.owner && decide (fld v 0 10 ≤ 999) then d.writePhase (fld v 0 10) else d

/-- Magnitude of a signed tap. -/
def tapAbs (x : Nat) : Nat := (signed 8 x).natAbs

/-- The taps of a word keep the limit of R82. -/
def tapsFit (w : Word) : Bool := decide (tapAbs (fld w 0 8) + fld w 8 8 + tapAbs (fld w 16 8) ≤ 63)

/-- A write that acts on the device alone, by a master, with the value `v` for a register of the map. -/
def Dev.regAct (d : Dev) (m win a : Nat) (rr : RReg) (v : Word) : Dev :=
  let i := ((rr.at a).getD []).headD 0
  let stored := rr.store (d.reg a) v
  if decide (0x10100 ≤ a) && decide (a < 0x103C0) then d.ringWrite ((a - 0x10100) / 0x40) ((a - 0x10100) % 0x40) rr v
  else match rr.name with
  | "CRC_CTRL" => d.crcCtrl m i rr v
  | "CRC_INIT" => if d.crcOwns i m then d.setReg a stored else d
  | "DATA8" => if win = 0 then d.crcData m i 1 v else d
  | "DATA16" => if win = 0 then d.crcData m i 2 v else d
  | "DATA32" => if win = 0 then d.crcData m i 4 v else d
  | "URGENT_DB" => if win = 0 then d.urgentWrite v else d
  | "TIME_CTRL" => if bit v 0 then d.capture else d
  | "CFG_CTRL" => if bit v 0 then d.cfgGo else d
  | "CFG_CRC_REF" => d.cfgRef v
  | "CAL_CFG" => d.calCfg rr v
  | "XC_TICK_CFG" => d.tickCfg rr v
  | "JY_BUILD" => if d.worker then d else (d.setReg a stored).jyExpect.endAborted
  | "JY_RMT_CTRL" => d.remoteGo (bit v 0) (bit v 1)
  | "JY_LINK_CTRL" => if bit v 0 then (d.jyRestart i).endAborted else d
  | "JY_LINK_TAPS" => if tapsFit v && tapsFit stored then d.setReg a stored else d
  | "FW_CTRL" => if bit v 0 then d.setReg (a - 0x14) (d.reg (a - 0x14) &&& 0xFFFFFFFE) else d
  | "FW_INJ_CTRL" => d.injWrite (a - 0x24) rr v
  | _ => d.setReg a stored

/-- A write that takes effect, by a master, with the value `v`. -/
def regMem (m win a : Nat) (rr : RReg) (v : Word) (d : Dev) (mem : List Host.Cell) : Dev × List Host.Cell :=
  match rr.name with
  | "XC_TBL_SEL" =>
    let d := d.setReg a (rr.store (d.reg a) v)
    if bit v 16 then xcTableRead m d mem else (d, mem)
  | "TBL_CTRL" => tblGo m v d mem
  | "RST_CTRL" =>
    let d := d.setReg a (rr.store (d.reg a) v)
    if bit v 15 then warmGo d mem else (d, mem)
  | _ => (d.regAct m win a rr v, mem)

/-- The value with which a write acts in FROZEN: none where it is ignored (R411). -/
def Dev.frozenValue (d : Dev) (a : Nat) (rr : RReg) (old v : Word) : Option Word :=
  if !d.plane.frozen || (decide (0x10000 ≤ a) && decide (a < 0x20000)) then some v
  else match rr.name with
  | "TIME_CTRL" | "XC_TBL_SEL" | "TBL_SEL" | "GL_SCRATCH" | "DATA8" | "DATA16" | "DATA32" => some v
  | "TBL_CTRL" => some (v &&& 1)
  | "CRC_CTRL" => some ((old &&& 0xFFFFFFFB) ||| (v &&& 4))
  | _ => none

/-- An engine cluster's master whose slice or plane is fenced writes nothing (R423, R455). -/
def Dev.masterDead (d : Dev) (m : Nat) : Bool := decide (2 ≤ m) && d.fencedOrPlane (srcOf 14 (m - 2))

/-- A commit pass holds back writes to RWC fields (R414), and behind one the later writes of its master (R421). -/
def Dev.holdsBack (d : Dev) (m : Nat) (rr : RReg) : Bool :=
  d.cfg.busy && (rr.has .rwc || d.cfg.heldBack.any (fun x => decide (x.1 / 2 ^ 26 = m)))

/-- A 32-bit write that is no violation, by a master, in a window. -/
def writeReg (m win a : Nat) (w : Word) (d : Dev) (mem : List Host.Cell) : Dev × List Host.Cell :=
  match findReg a with
  | none => (d, mem)
  | some rr =>
    if d.masterDead m then (d, mem)
    else if d.holdsBack m rr then ({ d with cfg.heldBack := d.cfg.heldBack ++ [(2 ^ 26 * m + 2 ^ 24 * win + a, w)] }, mem)
    else if rr.has .rs then
      let gone := (rr.name = "DEF_HIST" || rr.name = "DEF_CLRHIST") && !d.groupShown a
      (if win = 0 && !gone then d.setReg a (rsClear (d.reg a) w) else d, mem)
    else
      let old := d.readReg a
      match d.frozenValue a rr old (aliasOp win old w) with
      | some v => regMem m win a rr v d mem
      | none => (d, mem)

/-- The commit pass ends (R414): the reference and the block values load, the owners come into force, and the writes that
were held back take effect; a queued pass starts. -/
def commitDone (d : Dev) (mem : List Host.Cell) : Dev × List Host.Cell :=
  if !d.cfg.busy then (d, mem)
  else
    let xs := d.configImage
    let whole := imageCrc xs
    let held := d.cfg.heldBack
    let again := d.cfg.again
    let d := { d.setReg 0x20004 whole with
      cfg.last := whole, cfg.blocks := 0, cfg.blocksValid := true, cfg.stored := blockCrcs xs, cfg.bad := false
      cfg.busy := false, cfg.again := false, cfg.heldBack := [] }
    let d := d.ownersIn.raise 0x20010 2 0x2003 []
    let (d, mem) := held.foldl (fun s x => writeReg (x.1 / 2 ^ 26) (x.1 / 2 ^ 24 % 4) (x.1 % 2 ^ 24) x.2 s.1 s.2) (d, mem)
    (if again then d.cfgGo else d, mem)

/-! ### Accesses of the host and the manager (R403–R407, R437) -/

/-- The device may be written at an address of the base window through a function. In a worker PF0 has the rights of PF1
(R435). A register message acts as M1, which has no path to HOSTQ (R419, DEDUCED 134). -/
def Dev.mayWrite (d : Dev) (via : Via) (a : Nat) : Bool :=
  (match via with | .pf0 => !d.worker | .mgr => !inHostq a | .pf1 | .bar2 | .cfg _ => false)
    && (decide (d.life = .running) || (decide (d.life = .bootFailed) && readable a))

/-- The master of an access: M0 for PCI Express, M1 for a register message (R26, R437). -/
def viaMaster : Via → Nat | .mgr => 1 | _ => 0

/-- One DW written at a BAR0 offset. -/
def writeDw (via : Via) (addr : Nat) (w : Word) (d : Dev) (mem : List Host.Cell) : Dev × List Host.Cell :=
  let a := addr % 2 ^ 24
  if addr % 4 ≠ 0 || !d.mayWrite via a then (d, mem) else writeReg (viaMaster via) (addr / 2 ^ 24 % 4) a w d mem

/-- A write request by its shape (R403). -/
def writeBar (via : Via) (sh : Shape) (addr : Nat) (x : Data) (d : Dev) (mem : List Host.Cell) : Dev × List Host.Cell :=
  match sh with
  | .dw be => if be = 0xF then writeDw via addr (x.setWidth 32) d mem else (d, mem)
  | .qw =>
    if addr % 8 ≠ 0 then (d, mem)
    else
      let (d, mem) := writeDw via addr (x.setWidth 32) d mem
      writeDw via (addr + 4) ((x >>> 32).setWidth 32) d mem
  | .other => (d, mem)

/-- The bits of a word of configuration space that software writes: memory and bus master enable, BAR0, for PF0 BAR2, MSI-X Enable
and Function Mask (R367, PRESUMED 39). -/
def cfgMask (pf1 : Bool) (n : Nat) : Word :=
  match n with
  | 1 => 0x00000006
  | 4 => 0xFC000000
  | 5 => 0xFFFFFFFF
  | 6 => if pf1 then 0 else 0xFFFFC000
  | 7 => if pf1 then 0 else 0xFFFFFFFF
  | 16 => if pf1 then 0 else 0xC0000000
  | _ => 0

/-- The bits of a word that byte enables select. -/
def laneMask (be : BitVec 4) : Word := (List.range 4).foldl (fun m i => if be.getLsbD i then m ||| (0xFF <<< (8 * i)) else m) 0

/-- A write of one word of configuration space. -/
def Dev.cfgWrite (d : Dev) (pf1 : Bool) (sh : Shape) (addr : Nat) (w : Word) : Dev :=
  match sh with
  | .dw be =>
    let n := addr % 4096 / 4
    let k := (if pf1 then 64 else 0) + n
    let m := cfgMask pf1 n &&& laneMask be
    if !d.awake || decide (64 ≤ n) then d
    else ({ d with host.pci.cfg := tput 0 d.host.pci.cfg k ((tget 0 d.host.pci.cfg k &&& ~~~m) ||| (w &&& m)) }).msixFlush
  | _ => d

/-- A write of one word of BAR2: of the MSI-X table; the pending bits are read only. -/
def Dev.bar2Word (d : Dev) (addr : Nat) (w : Word) : Dev :=
  let k := addr % 16384 / 4
  if !d.awake || decide (addr % 4 ≠ 0) || decide (128 ≤ k) then d
  else ({ d with host.pci.table := tput (msixReset k) d.host.pci.table k (if k % 4 = 3 then w &&& 1 else w) }).msixFlush

/-- A write of BAR2 by its shape: whole words or pairs of words, as PCI Express lets an MSI-X table be written. -/
def Dev.bar2Write (d : Dev) (sh : Shape) (addr : Nat) (x : Data) : Dev :=
  match sh with
  | .dw be => if be = 0xF then d.bar2Word addr (x.setWidth 32) else d
  | .qw => if addr % 8 ≠ 0 then d else (d.bar2Word addr (x.setWidth 32)).bar2Word (addr + 4) ((x >>> 32).setWidth 32)
  | .other => d

/-- A plain write of one register, as its row names it. -/
def rowWrite (via : Via) (a : Nat) (w : Word) (s : State) : Out1 := onMem (writeDw via a w) s

/-- A plain write of one register by a bus master. -/
def masterWrite (m a : Nat) (w : Word) (s : State) : Out1 :=
  onMem (fun d mem => if decide (m ≤ 17) && d.mayWrite (if m = 1 then .mgr else if m = 0 then .pf0 else .mgr) a then
    writeReg m 0 a w d mem else (d, mem)) s

def execRegisterWrite (via : Via) (sh : Shape) (addr : BitVec 26) (x : Data) (s : State) : Out1 :=
  match via with
  | .bar2 => onDev (fun d => d.bar2Write sh addr.toNat x) s
  | .cfg f => onDev (fun d => d.cfgWrite f sh addr.toNat (x.setWidth 32)) s
  | v => onMem (writeBar v sh addr.toNat x) s

def execAliasWrite (via : Via) (win : AliasWin) (addr : BitVec 24) (w : Word) (s : State) : Out1 :=
  rowWrite via ((match win with | .set => 1 | .clear => 2 | .toggle => 3) * 2 ^ 24 + addr.toNat) w s

def execRsSeqClear (via : Via) (addr : BitVec 24) (w : Word) (s : State) : Out1 := rowWrite via addr.toNat w s

def execRingEnable (via : Via) (r : Fin 11) (w : Word) (s : State) : Out1 := rowWrite via (aRing r.val 8) w s

def execRingPiWrite (via : Via) (r : Fin 11) (w : Word) (s : State) : Out1 := rowWrite via (aRing r.val 0x10) w s

def execRingCiWrite (via : Via) (r : Fin 11) (w : Word) (s : State) : Out1 := rowWrite via (aRing r.val 0x14) w s

def execData8 (m : Fin 21) (u : Fin 16) (w : Word) (s : State) : Out1 := masterWrite m.val (aCrc u.val 8) w s

def execData16 (m : Fin 21) (u : Fin 16) (w : Word) (s : State) : Out1 := masterWrite m.val (aCrc u.val 0xC) w s

def execData32 (m : Fin 21) (u : Fin 16) (w : Word) (s : State) : Out1 := masterWrite m.val (aCrc u.val 0x10) w s

/-- A write of CRC_CTRL with LOAD. -/
def execCrcLoad (m : Fin 21) (u : Fin 16) (w : Word) (s : State) : Out1 := masterWrite m.val (aCrc u.val 0) (w ||| 4) s

/-- A write of XC_TBL_SEL with READ. -/
def execXcTableRead (via : Via) (w : Word) (s : State) : Out1 := rowWrite via 0xA00100 (w ||| 0x10000) s

def execTableWindowRead (via : Via) (s : State) : Out1 := rowWrite via 0x110 1 s

def execTableWindowWrite (via : Via) (s : State) : Out1 := rowWrite via 0x110 2 s

def execCfgCommit (via : Via) (s : State) : Out1 := rowWrite via 0x20000 1 s

def execCfgCommitDone (s : State) : Out1 := onMem (liveMem commitDone) s

def execCfgCrcRefWrite (via : Via) (w : Word) (s : State) : Out1 := rowWrite via 0x20004 w s

def execCfgScrubPass (s : State) : Out1 := onDev (live Dev.scrubPass) s

def execTimeCapture (via : Via) (s : State) : Out1 := rowWrite via 0x50010 1 s

def execRemoteRead (via : Via) (s : State) : Out1 := rowWrite via 0x120018 1 s

def execRemoteWrite (via : Via) (s : State) : Out1 := rowWrite via 0x120018 2 s

def execJyLinkRestart (via : Via) (j : Fin 8) (s : State) : Out1 := rowWrite via (aJy j.val 8) 1 s

def execJyBuildWrite (via : Via) (w : Word) (s : State) : Out1 := rowWrite via 0x120000 w s

/-- A write of FW_CTRL.REARM in the window where a source records. -/
def execFwRearm (via : Via) (src : BitVec 16) (s : State) : Out1 := rowWrite via (fwBase src.toNat + 0x18) 1 s

/-- A write of FW_INJ_CTRL with ARM in the window where a source records. -/
def execInjArm (via : Via) (src : BitVec 16) (w : Word) (s : State) : Out1 :=
  rowWrite via (fwBase src.toNat + 0x24) (w ||| 0x2000) s

def execCalCfgWrite (via : Via) (w : Word) (s : State) : Out1 := rowWrite via 0x60000 w s

def execXcTickCfgWrite (via : Via) (w : Word) (s : State) : Out1 := rowWrite via 0xA00008 w s

/-! ### Urgent words (R395) -/

/-- A write of URGENT_DB with CMD, DEST and ARG. -/
def urgentRow (via : Via) (cmd dest : Nat) (arg : BitVec 25) (s : State) : Out1 :=
  rowWrite via 0x10040 (BitVec.ofNat 32 (cmd * 2 ^ 28 + dest * 2 ^ 25 + arg.toNat)) s

def execFreezePort (via : Via) (dest : Fin 8) (arg : BitVec 25) (s : State) : Out1 := urgentRow via 1 dest.val arg s

def execForceSelector (via : Via) (dest : Fin 8) (arg : BitVec 25) (s : State) : Out1 := urgentRow via 2 dest.val arg s

def execStopService (via : Via) (dest : Fin 8) (arg : BitVec 25) (s : State) : Out1 := urgentRow via 3 dest.val arg s

def execForcePlane (via : Via) (dest : Fin 8) (arg : BitVec 25) (s : State) : Out1 := urgentRow via 4 dest.val arg s

/-- A word whose CMD the manual does not define; any other word acts by its own CMD. -/
def execUrgentUnknownCmd (via : Via) (w : Word) (s : State) : Out1 := rowWrite via 0x10040 w s

/-! ### Warm resets (R489) -/

/-- A write of RST_CTRL with a block, an instance and GO. -/
def resetRow (via : Via) (block inst : Nat) (s : State) : Out1 :=
  rowWrite via 0x70040 (BitVec.ofNat 32 (block + inst * 2 ^ 8 + 2 ^ 15)) s

def execWarmResetHostQueueEngine (via : Via) (s : State) : Out1 := resetRow via 1 0 s

def execWarmResetTsu (via : Via) (s : State) : Out1 := resetRow via 2 0 s

def execWarmResetCal (via : Via) (s : State) : Out1 := resetRow via 3 0 s

def execWarmResetSecurity (via : Via) (s : State) : Out1 := resetRow via 4 0 s

def execWarmResetStatisticsDma (via : Via) (s : State) : Out1 := resetRow via 5 0 s

def execWarmResetCrcUnit (via : Via) (u : Fin 16) (s : State) : Out1 := resetRow via 6 u.val s

def execWarmResetLane (via : Via) (l : Fin 64) (s : State) : Out1 := resetRow via 7 l.val s

end Sys2Proof.Machine
end

