-- ==== Sys2Proof/Machine/Jersey.lean ====
section
/-! DEFINITION. The Jersey links' own events (chapter 15): frames, the control sub-channel and its messages, HELLO, boot over
the link, the measurement of D, and a worker's tick and time. -/

namespace Sys2Proof.Machine

/-- The Jersey block runs: the device runs, or it is a worker whose boot ROM has started the link. -/
def Dev.jyLive (d : Dev) : Bool :=
  decide (d.life = .running) || (d.worker && (decide (d.life = .booting) || decide (d.life = .bootFailed)))

/-- A command of the Jersey block; the commands that it ends complete behind its events (R372). -/
def jyDev (f : Dev → Dev) (s : State) : Out1 := onDev (fun d => if d.jyLive then (f d).endAborted else d) s

/-! ### The link (R428–R432) -/

/-- Clock recovery has locked, in the attempt that runs: one that lasts longer than its bound is started again (R70, R71). -/
def Dev.jyLock (d : Dev) (j : Nat) : Dev :=
  let l := d.link j
  let b := acqBound 1
  if l.st = 1 then d.updLink j (fun l => { l with st := 2, acqSince := l.acqSince + b * ((d.now - l.acqSince) / b) }) else d

def execJyClockLocked (j : Fin 8) (s : State) : Out1 := jyDev (fun d => d.jyLock j.val) s

def execJyCdrLost (j : Fin 8) (s : State) : Out1 := jyDev (fun d => d.jyDown j.val) s

/-- HELLO is sent: ROLE, DEVID, the booted flag and GL_ID. -/
def Dev.sendHello (d : Dev) (j : Nat) : Dev :=
  (d.updLink j (fun l => { l with helloAt := d.now })).jySend j 0x0B
    (le 1 (if d.worker then 1 else 0) ++ le 1 d.devid ++ le 1 (if d.life = .running then 1 else 0) ++ le 4 (d.readReg 0).toNat)

/-- The receiver is in frame: the link enters HELLO. -/
def Dev.jyAligned (d : Dev) (j : Nat) : Dev :=
  if (d.link j).st = 2 && (d.link j).inFrame then (d.updLink j (fun l => { l with st := 3 })).sendHello j else d

def execJyInFrame (j : Fin 8) (s : State) : Out1 := jyDev (fun d => d.jyAligned j.val) s

def execJyHelloTimer (j : Fin 8) (s : State) : Out1 :=
  jyDev (fun d => if (d.link j.val).st = 3 && d.after (d.link j.val).helloAt 100000 then d.sendHello j.val else d) s

/-! ### Frames received (R428–R430) -/

/-- MARKER. -/
def jyMarker : List Byte := be 4 0x4A59F628

/-- Bytes of a frame. -/
def jyLen : Nat := 21250

/-- Bytes 0–9 of a frame: MARKER, FRAME, TIMING and HCRC. -/
def jyHead (frame timing : Nat) : List Byte :=
  let x := be 2 frame ++ be 2 timing
  jyMarker ++ x ++ be 2 (crcOf 2 x).toNat

end Sys2Proof.Machine

namespace Sys2Proof

open Machine

/-- MARKER stands in a header, its HCRC is valid, and its TIMING. -/
def JyFrame.marked (f : JyFrame) : Bool := f.head.take 4 = jyMarker
def JyFrame.hcrcOk (f : JyFrame) : Bool := beNat ((f.head.drop 8).take 2) = (crcOf 2 ((f.head.drop 4).take 4)).toNat
def JyFrame.timing (f : JyFrame) : Nat := beNat ((f.head.drop 6).take 2)
def JyFrame.tickOffset (f : JyFrame) : Nat := f.timing % 2048
def JyFrame.tick (f : JyFrame) : Bool := f.timing / 2048 % 2 = 1
def JyFrame.rdi (f : JyFrame) : Bool := f.timing / 4096 % 2 = 1

end Sys2Proof

namespace Sys2Proof.Machine

/-- The search for MARKER (R91–R93, R429) at the position of a header: the check of a candidate one frame length after it, or the
scanner, which opens a candidate where MARKER stands. A SLIP mark restarts it. -/
def JyLink.search (l : JyLink) (f : JyFrame) (slip : Bool) : JyLink :=
  let l := if slip then { l with cands := [], scanFrom := f.pos } else l
  match l.cands.find? (fun p => p + jyLen = f.pos) with
  | some p =>
    if f.marked && f.hcrcOk then { l with inFrame := true, bad := 0, cands := [], framePos := f.pos, rdi := f.rdi }
    else { l with cands := l.cands.erase p, scanFrom := f.pos + 1 }
  | none =>
    if l.scanFrom ≤ f.pos && decide (l.cands.length < 2) then
      { l with
        scanFrom := f.pos + 1
        cands := if f.marked && !l.cands.any (fun p => p % jyLen = f.pos % jyLen) then l.cands ++ [f.pos] else l.cands }
    else l

/-- COUNTs of the connected regions: with an invalid CRC-8 the previous one stays (R430). -/
def Dev.jyRegions (d : Dev) (j : Nat) (rs : List (Fin 20 × List Byte)) : Dev :=
  rs.foldl (fun d r =>
    if beNat ((r.2.drop 2).take 1) = (crcOf 3 (r.2.take 2)).toNat then
      d.updLink j (fun l => { l with counts := tput 0 l.counts r.1.val (beNat (r.2.take 2)) })
    else d.count32 (aJy j 0x14)) d

/-- The receiver is out of frame: its search begins, and the link goes down. -/
def Dev.jyOutOfFrame (d : Dev) (j : Nat) : Dev := (d.updLink j (fun l => { l with inFrame := false, bad := 0 })).jyDown j

/-- What a header brings (R428, R429): with a valid HCRC TICK and RDI; four errored headers in a row lose the frame. -/
def Dev.jyHeader (d : Dev) (j : Nat) (f : JyFrame) : Dev :=
  let d := if f.hcrcOk then
      d.updLink j (fun l => { l with
        rdi := f.rdi
        tickMark := if f.tick && d.worker then some (d.now - f.tickOffset) else l.tickMark
        tickTime := if f.tick && d.worker then some d.timeNs else l.tickTime })
    else d.count32 (aJy j 0x14)
  let d := d.updLink j (fun l => { l with bad := if f.marked && f.hcrcOk then 0 else l.bad + 1 })
  if 4 ≤ (d.link j).bad then d.jyOutOfFrame j else d

/-- A frame arrives (R428, R429): out of frame it is searched for; in frame a SLIP mark loses the frame. -/
def Dev.jyFrameIn (d : Dev) (j : Fin 8) (f : JyFrame) : Dev :=
  let l := d.link j.val
  if l.st < 2 then d
  else
    let slips := (d.queue (.jyIn j)).drops
    let slip := decide (slips ≠ l.slipSeen)
    let d := d.updLink j.val (fun l => { l with slipSeen := slips })
    if !l.inFrame then d.updLink j.val (fun l => l.search f slip)
    else if slip then d.jyOutOfFrame j.val
    else if f.pos % jyLen ≠ l.framePos % jyLen then d
    else (d.jyRegions j.val f.regions).jyHeader j.val f

/-! ### Frames sent (R428, R430, R431, R442) -/

/-- The bytes of a message: TYPE, 0, LENGTH, MSEQ, payload and CRC-32C (R431). -/
def JyMsg.bytes (m : JyMsg) : List Byte :=
  let x := le 1 m.ty ++ [0] ++ be 2 m.payload.length ++ be 2 m.mseq.toNat ++ m.payload
  x ++ be 4 (crcOf 0 x).toNat

/-- The next `n` bytes of the message stream, fill where no message begins, with what is still to go. -/
def jyStream (n : Nat) : List Byte → List JyMsg → List Byte × List Byte × List JyMsg
  | cur, [] => (fit n cur, cur.drop n, [])
  | cur, m :: ms => if n ≤ cur.length then (cur.take n, cur.drop n, m :: ms) else jyStream n (cur ++ m.bytes) ms

/-- A region as it is sent: COUNT, CRC-8, the ODU bytes and 0x00 (R430). -/
def jyRegion (k : Nat) (odu : List Byte) : List Byte :=
  let bs := odu.take (1042 * k - 3)
  let n := be 2 bs.length
  fit (1042 * k) (n ++ le 1 (crcOf 3 n).toNat ++ bs)

/-- The slots from slot t on: the regions in their places, and slots without a connection as 0x00. -/
def jySlots (rs : List (Nat × Nat × List Byte)) : Nat → Nat → List Byte
  | 0, _ => []
  | n + 1, t =>
    if rs.any (fun r => decide (r.1 < t) && decide (t < r.1 + r.2.1)) then jySlots rs n (t + 1)
    else match rs.find? (fun r => r.1 = t) with
      | some r => jyRegion r.2.1 r.2.2 ++ jySlots rs n (t + 1)
      | none => le 1042 0 ++ jySlots rs n (t + 1)

/-- A frame's bytes before scrambling. -/
def JySent.bytes (f : JySent) : List Byte :=
  jyHead f.frame.toNat f.timing.toNat ++ be 4 (f.credit.toNat * 2 ^ 16 + f.ack.toNat) ++ f.stream ++ jySlots f.regions 20 0

/-- One bit through the self-synchronous scrambler x^58 + x^39 + 1. -/
def scrBit (s : BitVec 58) (b : Bool) : Bool := (b != s.getLsbD 57) != s.getLsbD 38

/-- One byte through it, most significant bit first (DESIGN CHOICE 132), with the bits last sent. -/
def scrByte (s : BitVec 58) (b : Byte) : Byte × BitVec 58 :=
  [7, 6, 5, 4, 3, 2, 1, 0].foldl (fun x i =>
    let o := scrBit x.2 (b.getLsbD i)
    ((x.1 <<< 1) ||| (if o then 1 else 0), (x.2 <<< 1) ||| (if o then 1 else 0))) (0, s)

/-- Bytes through it. -/
def jyScramble : BitVec 58 → List Byte → List Byte × BitVec 58
  | s, [] => ([], s)
  | s, b :: bs =>
    let (o, s) := scrByte s b
    let (os, s) := jyScramble s bs
    (o :: os, s)

/-- A frame as it leaves the lane: every byte but MARKER is scrambled. -/
def JySent.wire (f : JySent) (s : BitVec 58) : List Byte × BitVec 58 :=
  let (os, s) := jyScramble s (f.bytes.drop 4)
  (jyMarker ++ os, s)

/-- The connections that leave on the slots of a link, by their first slot and length. -/
def Dev.jyOut (d : Dev) (j : Nat) : List (Nat × Nat) :=
  let pg := d.activePage 0
  let word := fun t => d.xcWord pg 0 (2560 + 20 * j + t)
  ((List.range 20).filter (fun t => srcKind (word t) ≠ 0 && (t = 0 || !continues (word (t - 1)) (word t)))).map
    (fun t => (t, d.jyRun pg (2560 + 20 * j + t) 20))

/-- TIMING of the frame that leaves now (R428): in the manager TICK with its offset in the first frame after a tick, and RDI while
the link's receiver is not in frame. -/
def Dev.jyTiming (d : Dev) (j : Nat) : Nat :=
  let l := d.link j
  let off := d.now - d.xc.tickAt
  (if !d.worker && decide (l.txTick ≠ d.xc.tick) && decide (off ≤ 1599) then 2048 + off else 0) + (if l.inFrame then 0 else 4096)

/-- The frame that leaves now, carrying for its connections the ODU bytes of `odu`: its own acknowledgement, with the whole buffer
free since what arrives is taken at once (R431). -/
def Dev.jyNext (d : Dev) (j : Nat) (odu : List (Fin 20 × List Byte)) : JySent :=
  let l := d.link j
  { frame := l.txFrame, timing := BitVec.ofNat 16 (d.jyTiming j), ack := l.rxSeq, credit := 1024
    stream := (jyStream 396 l.txCur l.txQ).1
    regions := (d.jyOut j).map (fun r => (r.1, r.2, ((odu.find? (fun x => x.1.val = r.1)).map (fun x => x.2)).getD [])) }

/-- A frame leaves, 1,600 ns after the one before it, whatever the receiver finds; an OFF link sends none. -/
def Dev.jyFrameOut (d : Dev) (j : Nat) (odu : List (Fin 20 × List Byte)) : Dev :=
  let l := d.link j
  if l.st = 0 || l.frameAt.any (fun t => decide (d.now < t + 1600)) then d
  else
    let f := d.jyNext j odu
    (d.updLink j (fun l => { l with
      txFrame := l.txFrame + 1, frameAt := some d.now, txTick := d.xc.tick, scr := (f.wire l.scr).2
      txCur := (jyStream 396 l.txCur l.txQ).2.1, txQ := (jyStream 396 l.txCur l.txQ).2.2 })).emit (.jyFrame j f l.scr)

/-- One frame time of a link (DESIGN CHOICE 132): a frame is received and one leaves. -/
def execJyFrame (j : Fin 8) (f : JyFrame) (s : State) : Out1 :=
  jyDev (fun d => (d.jyFrameIn j f).jyFrameOut j.val f.odu) s

/-! ### Acknowledgement (R431) -/

/-- The acknowledgement and CREDIT that a message's frame brings. -/
def Dev.jyAck (d : Dev) (j : Nat) (ack credit : BitVec 16) : Dev :=
  let l := d.link j
  let left := l.unacked.dropWhile (fun m => decide (0 < (ack - m.mseq).toNat) && decide ((ack - m.mseq).toNat < 2 ^ 15))
  let moved := decide (left.length < l.unacked.length)
  let d := d.updLink j (fun l => { l with
    unacked := left, credit := 64 * credit.toNat, ackAt := if moved then d.now else l.ackAt })
  let d := jyPump j (d.link j).waiting.length d
  d.urgentServe d.host.urgent.length

/-- The 20 µs of a message have passed without its acknowledgement: every unacknowledged message goes again. The oldest was sent
first. -/
def Dev.jyResend (d : Dev) (j : Nat) : Dev :=
  match (d.link j).unacked with
  | [] => d
  | m :: ms =>
    if d.after m.sentAt 20000 then
      let again := (m :: ms).map (fun x => { x with sentAt := d.now })
      let d := { d with host.out := (again.reverse.map (fun x => Out.jersey j x)) ++ d.host.out }
      (d.updLink j (fun l => { l with unacked := again, txQ := again })).count32 (aJy j 0x18)
    else d

def execJyRetransmitTimeout (j : Fin 8) (s : State) : Out1 := jyDev (fun d => d.jyResend j.val) s

/-- ACK_SEQ has not advanced for 1 ms. -/
def Dev.jyStalled (d : Dev) (j : Nat) : Dev :=
  if (d.link j).unacked.isEmpty || !d.after (d.link j).ackAt 1000000 then d else d.jyDown j

def execJyAckStall (j : Fin 8) (s : State) : Out1 := jyDev (fun d => d.jyStalled j.val) s

/-! ### HELLO and boot (R432–R434) -/

/-- A worker in BOOT_FAIL whose manager has restarted the link says HELLO again, its numbering afresh (R434, DEDUCED 80). -/
def Dev.jyAgain (d : Dev) (j : Nat) : Dev :=
  if d.worker && decide ((d.link j).st = 6) then
    (d.updLink j (fun l => { l with st := 3, txSeq := 0, unacked := [], waiting := [], txQ := [], txCur := [], credit := 65536 })).sendHello j
  else d

/-- A HELLO arrives. A worker's own state tells it whether it runs; the manager takes it from the HELLO. -/
def Dev.jyHelloIn (d : Dev) (j : Nat) (role : Bool) (devid : Nat) (booted : Bool) : Dev :=
  let d := d.jyAgain j
  let st := (d.link j).st
  if st < 3 then d
  else
    let d := d.updLink j (fun l => { l with peer := (if role then 1 else 0) + 2 * devid })
    if st ≠ 3 then d
    else if !(if d.worker then !role else role && decide (devid = j)) then
      (d.updLink j (fun l => { l with st := 5 })).raise (aJy j 4) 2 0x1F03 (le 1 j)
    else if (if d.worker then decide (d.life = .running) else booted) then d.jyUp j false
    else
      let d := d.updLink j (fun l => { l with st := 4, bootAt := none })
      if d.worker then { d with life := .booting, jersey.bootBuf := [] } else d

def execJyHello (j : Fin 8) (role : Bool) (devid : Fin 8) (booted : Bool) (s : State) : Out1 :=
  jyDev (fun d => d.jyHelloIn j.val role devid.val booted) s

/-- Bytes of the image in a boot block, behind its offset (log entry 40). -/
def bootChunk : Nat := 4092

/-- The manager sends the image from which it booted to the first booting link, one link at a time (R433). -/
def Dev.jyBootSend (d : Dev) : Dev :=
  let js := [1, 2, 3, 4, 5, 6, 7]
  if d.worker || js.any (fun j => (d.link j).bootAt.isSome) then d
  else match js.find? (fun j => (d.link j).st = 4) with
    | none => d
    | some j =>
      let bs := d.sec.image
      (List.range ((bs.length + bootChunk - 1) / bootChunk)).foldl (fun d i =>
        d.jySend j 0x0C (le 4 (bootChunk * i) ++ (bs.drop (bootChunk * i)).take bootChunk))
        (d.updLink j (fun l => { l with bootAt := some d.now }))

def execJyBootStart (s : State) : Out1 := onDev (live Dev.jyBootSend) s

/-- The worker's boot result reaches the manager. -/
def Dev.jyBootEnd (d : Dev) (j reason : Nat) : Dev :=
  if d.worker || decide ((d.link j).st ≠ 4) then d
  else if reason = 0 then (d.updLink j (fun l => { l with bootReason := 0 })).jyUp j true
  else d.jyBootFails j reason

def execJyBootResult (j : Fin 8) (reason : Fin 16) (s : State) : Out1 := onDev (live (fun d => (d.jyBootEnd j.val reason.val).endAborted)) s

/-- 5 s of the link's own transfer have passed, at either end. -/
def Dev.jyBootLate (d : Dev) (j : Nat) : Dev :=
  match (d.link j).st, (d.link j).bootAt with
  | 4, some t =>
    if d.after t 5000000000 then
      let d := d.jyBootFails j 1
      if d.worker then { d with life := .bootFailed, sec.reasonA := 1 } else d
    else d
  | _, _ => d

def execJyBootTimeout (j : Fin 8) (s : State) : Out1 := jyDev (fun d => d.jyBootLate j.val) s

/-! ### D, tick and time (R439–R441) -/

/-- The two-way exchange ends: the worker returns F, t2, G and t3, and the manager sets D. -/
def Dev.jyExchange (d : Dev) (j : Nat) (t1 : Int) (t2 t3 : FrameStamp) (t4 : Int) : Dev :=
  if (d.link j).st ≠ 7 then d
  else if d.worker then
    d.jySend j 0x0A (le 2 t2.frame.toNat ++ le 8 (twos 64 t2.at_) ++ le 2 t3.frame.toNat ++ le 8 (twos 64 t3.at_))
  else
    let (x, d) := d.meanFree ((t4 - t1) - (t3.at_ - t2.at_)) 2
    d.updLink j (fun l => { l with delay := (clampI 0 65535 x).toNat })

def execJyDelayExchange (j : Fin 8) (t1 : Int) (t2 t3 : FrameStamp) (t4 : Int) (s : State) : Out1 :=
  onDev (live (fun d => d.jyExchange j.val t1 t2 t3 t4)) s

/-- The difference of a worker's time counter and its manager's, at the arrival of the MARKER of the TICK frame (R440): the first
one since RUN above 20 ns, or one that has changed by more than 20 ns since the last TIME, which is a step in the manager
(R306), sets the counter. The loop removes any other. -/
def Dev.jyCompare (d : Dev) (diff : Int) : Dev :=
  let jump := match (d.link 0).timeDiff with | some x => decide (20 < (diff - x).natAbs) | none => true
  if jump && decide (20 < diff.natAbs) then
    (d.updLink 0 (fun l => { l with timeDiff := some 0 })).stepTo (d.timeNs - diff) 1
  else
    let d := d.updLink 0 (fun l => { l with timeDiff := some diff })
    if d.tsu.sel = some 68 then d.seePhase diff else d

/-- A TIME message at a worker: the tick's number and place, D, the time counter, and the QL of reference 68. `time` is the
manager's counter at the departure of the MARKER. A tick whose frame brought no TICK keeps the place 1 ms after the last
(DESIGN CHOICE 82). -/
def Dev.jyTimeIn (d : Dev) (tick : Nat) (time : Int) (delay ql : Nat) : Dev :=
  let l := d.link 0
  if !d.worker || decide (l.st ≠ 7) then d
  else
    let d := d.updLink 0 (fun l => { l with delay := delay, tickMark := none, tickTime := none })
    let at_ := match l.tickMark with | some t => t - delay | none => d.xc.tickAt
    let d := { d with jersey.ql := ql, xc.jyTick := tick, xc.haveTick := true, xc.tickAt := at_ }
    let d := if tick = d.xc.tick then d else d.tickFalls tick
    let d := match l.tickTime with | some t => d.jyCompare (t - (time + (delay : Nat))) | none => d
    (d.refEval 68).selectFree

/-- A TIME message by its row, accepted in its sequence (R431). -/
def Dev.jyTimeRow (d : Dev) (mseq : BitVec 16) (tick : Nat) (time : Int) (delay ql : Nat) : Dev :=
  if d.worker && decide ((d.link 0).st = 7) && decide (mseq = (d.link 0).rxSeq) then
    (d.updLink 0 (fun l => { l with rxSeq := l.rxSeq + 1 })).jyTimeIn tick time delay ql
  else d

def execJyTime (tick : Word) (sec : BitVec 48) (ns : Nat) (mseq : BitVec 16) (delay : Nat) (ql : BitVec 4) (s : State) : Out1 :=
  onSync (live (fun d =>
    (d.jyTimeRow mseq tick.toNat (1000000000 * sec.toNat + ns : Nat) (delay % 2 ^ 16) ql.toNat).endAborted)) s

/-! ### Messages (R431, R435–R437) -/

/-- Bytes of a payload as a number. -/
def payN (p : List Byte) (off n : Nat) : Nat := bodyN p off n

/-- A worker's completion, as the message lays it out (R383). -/
def doneOf (p : List Byte) : WorkerDone :=
  { ring := ⟨payN p 84 1 % 4, by omega⟩, tag := BitVec.ofNat 16 (payN p 2 2), seq := BitVec.ofNat 32 (payN p 4 4)
    status := ⟨payN p 1 1 % 6, by omega⟩, body := (p.drop 8).take 56, resKind := payN p 64 2, resPart := payN p 66 1
    resId := payN p 68 4 }

/-- What a message accepted by the manager does. Messages that have a row of their own act there. -/
def Dev.jyAtManager (d : Dev) (j ty : Nat) (p : List Byte) : Dev :=
  match ty with
  | 0x02 => d.workerDone j (doneOf p)
  | 0x03 => d.postAt j (payN p 0 2) (BitVec.ofNat 48 (payN p 8 6)) (payN p 16 4) ((p.drop 20).take 12)
  | 0x04 => d.statAt j ((p.drop 8).take 56)
  | 0x07 => d.remoteReply (BitVec.ofNat 32 (payN p 0 4))
  | 0x08 => d.hostWrite (BitVec.ofNat 64 (payN p 0 8)) (p.drop 8)
  | 0x0B => d.jyHelloIn j (decide (payN p 0 1 % 2 = 1)) (payN p 1 1 % 8) (decide (payN p 2 1 % 2 = 1))
  | 0x0D => d.jyBootEnd j (payN p 0 1 % 16)
  | _ => d

/-- A boot block: the bytes of the image behind its offset. The transfer runs from the first one. -/
def Dev.bootBlock (d : Dev) (p : List Byte) : Dev :=
  { d.updLink 0 (fun l => { l with bootAt := some (l.bootAt.getD d.now) }) with
    jersey.bootBuf := d.jersey.bootBuf.take (payN p 0 4) ++ p.drop 4 }

/-- What a message accepted by a worker does. -/
def jyAtWorker (ty : Nat) (p : List Byte) (d : Dev) (mem : List Host.Cell) : Dev × List Host.Cell :=
  match ty with
  | 0x05 => (if d.life = .running then d.urgentHere (BitVec.ofNat 32 (payN p 0 4)) else d, mem)
  | 0x06 =>
    if payN p 0 1 % 2 = 1 then
      let (d, mem) := writeDw .mgr (payN p 1 3) (BitVec.ofNat 32 (payN p 4 4)) d mem
      (d.jySend 0 0x07 (le 4 0), mem)
    else (d.jySend 0 0x07 (le 4 (d.readDw .mgr (payN p 1 3)).1.toNat), mem)
  | 0x09 => (d.jyTimeIn (payN p 0 4) (1000000000 * payN p 4 6 + payN p 10 4 : Nat) (payN p 14 2) (payN p 16 1 % 16), mem)
  | 0x0B => (d.jyHelloIn 0 (decide (payN p 0 1 % 2 = 1)) (payN p 1 1 % 8) (decide (payN p 2 1 % 2 = 1)), mem)
  | 0x0C => (if (d.link 0).st = 4 then d.bootBlock p else d, mem)
  | _ => (d, mem)

/-- A message of the control sub-channel with its acknowledgement: accepted in sequence with a valid CRC, or discarded. -/
def jyMessage (j : Nat) (m : JyRx) (d : Dev) (mem : List Host.Cell) : Dev × List Host.Cell :=
  if !d.jyLive || decide ((d.link j).st < 3) then (d, mem)
  else
    let d := d.jyAck j m.ack m.credit
    let d := if d.worker && decide ((d.link j).st = 6) && m.crcOk && decide (m.ty = 0x0B) then
        d.updLink j (fun l => { l with rxSeq := m.mseq }) else d
    if !m.crcOk || m.mseq ≠ (d.link j).rxSeq then (d, mem)
    else
      let d := d.updLink j (fun l => { l with rxSeq := l.rxSeq + 1 })
      if d.worker then (if j = 0 then jyAtWorker m.ty m.payload d mem else (d, mem))
      else (d.jyAtManager j m.ty m.payload, mem)

/-- A message's effect, with the connection words that a tick changes. -/
def jyControl (j : Nat) (m : JyRx) (d : Dev) (mem : List Host.Cell) : Dev × List Host.Cell :=
  let x := jyMessage j m d mem
  (x.1.endAborted, damaskSync d x.1 x.2)

def execJyControlMessage (j : Fin 8) (m : JyRx) (s : State) : Out1 := onMem (jyControl j.val m) s

end Sys2Proof.Machine
end

