-- ==== Sys2Proof/Machine/Power.lean ====
section
/-! DEFINITION. POR_N, boot and the rails (R471, R487, R488, R493–R496), the supply states with shedding (R483–R486), the Felt
governor (R473–R475), and the instruction of the test access port (R531). -/

namespace Sys2Proof.Machine

/-! ### Resets of the whole device (R471, R487) -/

/-- Every block in its reset state: OTP and the anti-rollback counter stay, but for a record or slot that was being written
(R499, R500), and so does the test port's instruction. The record of what has been sent and the counter of free values are the
model's own. -/
def Dev.cleared (d : Dev) (life : Life) (porLow : Bool) : Dev :=
  let d := match d.sec.writing with | some b => d.adminWrite b false | none => d
  { life := life, porLow := porLow, tap := d.tap, fresh := d.fresh
    sec := { slotSt := d.sec.slotSt, slotHash := d.sec.slotHash, counter := d.sec.counter, used := d.sec.used, chal := d.sec.chal + 1 }
    host := { out := d.host.out } }

/-- POR_N falls and stays low for `lowNs`: a pulse shorter than 1 µs is ignored. -/
def porAssert (lowNs : Nat) (d : Dev) (m : List Host.Cell) : Dev × List Host.Cell :=
  if lowNs < 1000 then (d, m) else (d.cleared .por true, [])

def execPorNAssert (lowNs : Nat) (s : State) : Out1 := onMem (porAssert lowNs) s

/-- The device starts with its straps (R425): with invalid straps it never boots; a worker's boot ROM starts J0 (R432). -/
def Dev.start (d : Dev) : Dev :=
  if d.worker && decide (d.devid = 0) then { d with life := .strapBad }
  else
    let d := { d with life := .booting }
    if d.worker then d.updLink 0 (fun l => { l with st := 1, acqSince := d.now }) else d

/-- POR_N rises: the straps are sampled. -/
def Dev.porRelease (d : Dev) (role : Bool) (devid : Nat) : Dev :=
  if d.porLow then ({ d with porLow := false, worker := role, devid := devid }).start else d

def execPorNRelease (role : Bool) (devid : Fin 8) (s : State) : Out1 := onDev (fun d => d.porRelease role devid.val) s

/-- A rail has been too low for 10 µs: the device resets itself. The straps sampled at POR_N stay (R425). -/
def railLow (d : Dev) (m : List Host.Cell) : Dev × List Host.Cell :=
  if d.porLow then (d, m) else ({ d.cleared .railOff false with worker := d.worker, devid := d.devid }, [])

def execRailUndervoltage (s : State) : Out1 := onMem railLow s

def execRailRestored (s : State) : Out1 := onDev (fun d => if d.life = .railOff then d.start else d) s

/-! ### Boot (R488, R493–R496, R433) -/

/-- The device drives QSPI_CLK, QSPI_CS_N and QSPI_IO, from step 3 to step 4 of R488: while the manager's boot ROM reads the image
slots. A worker never reads QSPI (R433). At all other times the pins are high-impedance (R492). -/
def Dev.qspiDriven (d : Dev) : Bool := decide (d.life = .booting) && !d.worker


/-- A verified image starts: both planes hold its package, the governor follows SLEW, and BAR0 answers. -/
def booted (img : BootImage) (slotNo : Nat) (d : Dev) (m : List Host.Cell) : Dev × List Host.Cell :=
  let bs := img.bytes
  let pk := imgPackage bs
  let d := { d with
    life := .running, power.inrush := false
    sec.booted := true, sec.slot := slotNo, sec.svn := imgSvn bs
    sec.imgVer := leNat (slice bs 16 4), sec.image := d.sec.imageKept bs }
  ((d.setPkg 0 (pkgHeader pk) (pkgBody pk)).setPkg 1 (pkgHeader pk) (pkgBody pk),
    loadPlane (pkgBody pk) 1 (loadPlane (pkgBody pk) 0 m))

/-- The reasons of slots A (0) and B (1) as a boot leaves them: an untried slot shows 0xF. -/
def Dev.slotReasons (d : Dev) (a b : Nat) : Dev := { d with sec.reasonA := a, sec.reasonB := b }

/-- The boot ROM tries image x of slot n, then image y of the other slot. -/
def bootSlots (n : Nat) (x y : BootImage) (d : Dev) (m : List Host.Cell) : Dev × List Host.Cell :=
  let rx := d.sec.bootReason x
  let ry := if rx = 0 then 0xF else d.sec.bootReason y
  let d := if n = 0 then d.slotReasons rx ry else d.slotReasons ry rx
  if rx = 0 then booted x n d m
  else if ry = 0 then booted y (1 - n) d m
  else ({ d with life := .bootFailed }, m)

/-- The manager's boot ROM has tried its slots: the one with the higher SVN first. -/
def bootManager (a b : BootImage) (d : Dev) (m : List Host.Cell) : Dev × List Host.Cell :=
  if bFirst a b then bootSlots 1 b a d m else bootSlots 0 a b d m

/-- A worker's boot ROM has verified the image that the manager sent in boot blocks: it reports the result, and its link goes on.
Booted, it has reference 68 enabled with PRIO 1 (R433). -/
def bootWorker (d : Dev) (m : List Host.Cell) : Dev × List Host.Cell :=
  if (d.link 0).st ≠ 4 || d.jersey.bootBuf.isEmpty then (d, m)
  else
    let img : BootImage := { bytes := d.jersey.bootBuf }
    let r := d.sec.bootReason img
    let d := ({ d with sec.reasonA := r, sec.reasonB := 0xF }).jySend 0 0x0D (le 1 r)
    if r = 0 then
      let (d, m) := booted img 0 d m
      let d := d.updRef 68 (fun x => { x with enable := true, prio := 1, st := 1 })
      (((d.updLink 0 (fun l => { l with bootReason := 0 })).jyUp 0 true).endAborted, m)
    else ({ d with life := .bootFailed }.jyBootFails 0 r, m)

def bootDone (a b : BootImage) (d : Dev) (m : List Host.Cell) : Dev × List Host.Cell :=
  if d.life ≠ .booting then (d, m) else if d.worker then bootWorker d m else bootManager a b d m

def execBootDone (a b : BootImage) (s : State) : Out1 := onMem (bootDone a b) s

/-! ### Supply states and shedding (R483–R486) -/

/-- A command of the supply block. -/
def powerDev (f : Dev → Dev) (s : State) : Out1 := onDev (fun d => if d.awake then f d else d) s

/-- Ports shed now. -/
def Dev.shedPorts (d : Dev) : List Nat := (List.range 64).filter (fun p => (d.port p).shedNow)

/-- Every enabled SHED port is shed. -/
def Dev.shedAll (d : Dev) : Dev :=
  (d.enabledPorts.filter (fun p => (d.port p).shed)).foldl (fun d p => d.holdOn p (fun x => { x with shedNow := true })) d

/-- Number of shed ports, as a count item. -/
def Dev.shedCount (d : Dev) : List Byte := le 4 d.shedPorts.length

/-- PWR_WARN_N asserted. -/
def Dev.warnOn (d : Dev) : Dev :=
  let d := { d with power.warnPin := true }
  match d.power.st with
  | 0 =>
    let d := ({ d with power.st := 1 }).shedAll
    d.raise 0x70008 0 0x1D01 d.shedCount
  | 3 => { d with power.st := 1 }
  | _ => d

def execPwrWarnAssert (s : State) : Out1 := powerDev Dev.warnOn s

/-- PWR_WARN_N deasserted. -/
def Dev.warnOff (d : Dev) : Dev :=
  let d := { d with power.warnPin := false }
  if d.power.st = 1 then { d with power.st := 3, power.recSince := d.now } else d

def execPwrWarnDeassert (s : State) : Out1 := powerDev Dev.warnOff s

/-- VDD_CORE has been below 0.705 V for 1 µs. -/
def Dev.sagOn (d : Dev) : Dev :=
  if d.power.st = 2 then d
  else
    let d := if d.power.st = 0 then d.shedAll else d
    let d := ({ d with power.st := 2 }).count32 0x70018
    d.raise 0x70008 1 0x1D02 (d.shedCount ++ le 2 d.power.tcell)

def execVcoreLow (s : State) : Out1 := powerDev Dev.sagOn s

/-- VDD_CORE has been at 0.715 V or above for 1 µs. -/
def Dev.sagOff (d : Dev) : Dev :=
  if d.power.st ≠ 2 then d
  else if d.power.warnPin then { d with power.st := 1 }
  else { d with power.st := 3, power.recSince := d.now }

def execVcoreRestored (s : State) : Out1 := powerDev Dev.sagOff s

/-- RECOVER_HOLD has passed: every shed port is released. The event's count is of the ports that were shed. -/
def Dev.recovered (d : Dev) : Dev :=
  if d.power.st = 3 && d.after d.power.recSince (10000000 * fld (d.reg 0x70000) 16 10) then
    let n := d.shedCount
    let ps := d.shedPorts
    let d := { d with power.st := 0 }
    let d := ps.foldl (fun d p => d.holdOff p (fun x => { x with shedNow := false })) d
    d.raise 0x70008 2 0x1D03 n
  else d

def execRecoverHoldExpiry (s : State) : Out1 := powerDev Dev.recovered s

/-- t_cell is beyond the point at which a KEEP port with a lane at RATE 1 loses traffic (R486). -/
def Dev.atRisk (d : Dev) : Bool :=
  decide (2410 < d.power.tcell) && d.enabledPorts.any (fun p =>
    !(d.port p).shed && (d.portLanes p).any (fun l => decide ((d.lane l).rate = 1)))

/-- t_cell measured: KEEP_AT_RISK follows it. -/
def Dev.tcellIs (d : Dev) (t : Nat) : Dev :=
  let d := { d with power.tcell := t }
  let was := d.power.keepRisk
  let now := d.atRisk
  let d := { d with power.keepRisk := now }
  if now && !was then d.raise 0x70008 3 0x1D04 (le 2 t) else d

def execKeepAtRisk (tcell : BitVec 12) (s : State) : Out1 := powerDev (fun d => d.tcellIs tcell.toNat) s

/-! ### The Felt governor (R473–R475) -/

/-- Slew in force, A/µs. -/
def Dev.slew (d : Dev) : Nat := if d.power.inrush then 2 else fld (d.reg 0x70000) 0 6

/-- The update every 100 ns: the estimate and the demand in mA, and the monitors. Filler runs while the demand lies below the
floor. -/
def Dev.governor (d : Dev) (iEst demand tcell vcore : Nat) : Dev :=
  let span : Int := (100 * d.slew : Nat)
  let floor : Int := (iEst : Int) - span
  let d := { d with
    power.iEst := min (iEst / 100) 4095, power.vcore := vcore, power.ceil := (iEst : Int) + span, power.floor := floor
    power.filler := decide ((demand : Int) < floor) }
  d.tcellIs tcell

def execGovernorUpdate (iEst demand : Nat) (tcell : BitVec 12) (vcore : BitVec 10) (s : State) : Out1 :=
  powerDev (fun d => d.governor iEst demand tcell.toNat vcore.toNat) s

/-! ### Test access port (R531) -/

/-- The instruction that acts on the pins: with POR_N high EXTEST, CLAMP and HIGHZ act as BYPASS. -/
def Dev.tapActs (d : Dev) : TapIr :=
  match d.tap with
  | .extest | .clamp | .highz => if d.porLow then d.tap else .bypass
  | x => x

def execTapInstruction (ir : TapIr) (s : State) : Out1 := onDev (fun d => { d with tap := ir }) s

end Sys2Proof.Machine
end

