-- ==== Sys2Proof/Machine/Dispatch.lean ====
section
/-! DEFINITION. The meaning of each command: one arm per row of spec/opcode_table.json. -/

namespace Sys2Proof.Machine

/-- The meaning of a command: its effect on everything but the queue of the commands that wait. -/
def exec (i : Instr) (s : State) : Host.Outcome State Fault Refusal :=
  match i with
  | .nop d => Sys2Proof.Machine.execNop d s
  | .laneCfg d => Sys2Proof.Machine.execLaneCfg d s
  | .portCfg d => Sys2Proof.Machine.execPortCfg d s
  | .defectCfg d => Sys2Proof.Machine.execDefectCfg d s
  | .mapCfg d => Sys2Proof.Machine.execMapCfg d s
  | .mapCfgTakesEffect o => Sys2Proof.Machine.execMapCfgTakesEffect o s
  | .xcWrite d => Sys2Proof.Machine.execXcWrite d s
  | .xcSwap d => Sys2Proof.Machine.execXcSwap d s
  | .mergeGroupCfg d => Sys2Proof.Machine.execMergeGroupCfg d s
  | .apsCfg d => Sys2Proof.Machine.execApsCfg d s
  | .protCommand d => Sys2Proof.Machine.execProtCommand d s
  | .queueCfg d => Sys2Proof.Machine.execQueueCfg d s
  | .shaperCfg d => Sys2Proof.Machine.execShaperCfg d s
  | .policerCfg d => Sys2Proof.Machine.execPolicerCfg d s
  | .gateCfg d => Sys2Proof.Machine.execGateCfg d s
  | .satopCfg d => Sys2Proof.Machine.execSatopCfg d s
  | .tsuRefCfg d => Sys2Proof.Machine.execTsuRefCfg d s
  | .tsuSteer d => Sys2Proof.Machine.execTsuSteer d s
  | .tsuRealign d => Sys2Proof.Machine.execTsuRealign d s
  | .outputAlignment => Sys2Proof.Machine.execOutputAlignment s
  | .calRun d => Sys2Proof.Machine.execCalRun d s
  | .calRunWindowEnd => Sys2Proof.Machine.execCalRunWindowEnd s
  | .calTableCommit d => Sys2Proof.Machine.execCalTableCommit d s
  | .statsSnap d => Sys2Proof.Machine.execStatsSnap d s
  | .statsSnapDone => Sys2Proof.Machine.execStatsSnapDone s
  | .enginePkgLoad d => Sys2Proof.Machine.execEnginePkgLoad d s
  | .twPkgStaged r => Sys2Proof.Machine.execTwPkgStaged r s
  | .twPkgLoaded => Sys2Proof.Machine.execTwPkgLoaded s
  | .planeHandover d => Sys2Proof.Machine.execPlaneHandover d s
  | .twHandoverDone => Sys2Proof.Machine.execTwHandoverDone s
  | .engineCfg d => Sys2Proof.Machine.execEngineCfg d s
  | .engineMoveDone slice src => Sys2Proof.Machine.execEngineMoveDone slice src s
  | .faultAction d => Sys2Proof.Machine.execFaultAction d s
  | .unfenceDone x => Sys2Proof.Machine.execUnfenceDone x s
  | .attest d bulk => Sys2Proof.Machine.execAttest d bulk s
  | .keyAdmin d bulk => Sys2Proof.Machine.execKeyAdmin d bulk s
  | .secServiceStart => Sys2Proof.Machine.execSecServiceStart s
  | .attestDone => Sys2Proof.Machine.execAttestDone s
  | .keyAdminDone otpOk => Sys2Proof.Machine.execKeyAdminDone otpOk s
  | .freezePort via dest arg => Sys2Proof.Machine.execFreezePort via dest arg s
  | .forceSelector via dest arg => Sys2Proof.Machine.execForceSelector via dest arg s
  | .stopService via dest arg => Sys2Proof.Machine.execStopService via dest arg s
  | .forcePlane via dest arg => Sys2Proof.Machine.execForcePlane via dest arg s
  | .urgentUnknownCmd via w => Sys2Proof.Machine.execUrgentUnknownCmd via w s
  | .warmResetHostQueueEngine via => Sys2Proof.Machine.execWarmResetHostQueueEngine via s
  | .warmResetTsu via => Sys2Proof.Machine.execWarmResetTsu via s
  | .warmResetCal via => Sys2Proof.Machine.execWarmResetCal via s
  | .warmResetSecurity via => Sys2Proof.Machine.execWarmResetSecurity via s
  | .warmResetStatisticsDma via => Sys2Proof.Machine.execWarmResetStatisticsDma via s
  | .warmResetCrcUnit via u => Sys2Proof.Machine.execWarmResetCrcUnit via u s
  | .warmResetLane via l => Sys2Proof.Machine.execWarmResetLane via l s
  | .warmResetDone => Sys2Proof.Machine.execWarmResetDone s
  | .registerWrite via shape addr data => Sys2Proof.Machine.execRegisterWrite via shape addr data s
  | .aliasWrite via win addr w => Sys2Proof.Machine.execAliasWrite via win addr w s
  | .rsSeqClear via addr w => Sys2Proof.Machine.execRsSeqClear via addr w s
  | .ringEnable via r w => Sys2Proof.Machine.execRingEnable via r w s
  | .ringPiWrite via r w => Sys2Proof.Machine.execRingPiWrite via r w s
  | .ringCiWrite via r w => Sys2Proof.Machine.execRingCiWrite via r w s
  | .coalTimeExpiry r => Sys2Proof.Machine.execCoalTimeExpiry r s
  | .descriptorFetchError r => Sys2Proof.Machine.execDescriptorFetchError r s
  | .workerCompletion w c => Sys2Proof.Machine.execWorkerCompletion w c s
  | .data8 m u w => Sys2Proof.Machine.execData8 m u w s
  | .data16 m u w => Sys2Proof.Machine.execData16 m u w s
  | .data32 m u w => Sys2Proof.Machine.execData32 m u w s
  | .crcLoad m u w => Sys2Proof.Machine.execCrcLoad m u w s
  | .xcTableRead via w => Sys2Proof.Machine.execXcTableRead via w s
  | .tableWindowRead via => Sys2Proof.Machine.execTableWindowRead via s
  | .tableWindowWrite via => Sys2Proof.Machine.execTableWindowWrite via s
  | .cfgCommit via => Sys2Proof.Machine.execCfgCommit via s
  | .cfgCommitDone => Sys2Proof.Machine.execCfgCommitDone s
  | .cfgCrcRefWrite via w => Sys2Proof.Machine.execCfgCrcRefWrite via w s
  | .cfgScrubPass => Sys2Proof.Machine.execCfgScrubPass s
  | .timeCapture via => Sys2Proof.Machine.execTimeCapture via s
  | .remoteRead via => Sys2Proof.Machine.execRemoteRead via s
  | .remoteWrite via => Sys2Proof.Machine.execRemoteWrite via s
  | .remoteResponse w => Sys2Proof.Machine.execRemoteResponse w s
  | .jyLinkRestart via j => Sys2Proof.Machine.execJyLinkRestart via j s
  | .jyBuildWrite via w => Sys2Proof.Machine.execJyBuildWrite via w s
  | .fwRearm via src => Sys2Proof.Machine.execFwRearm via src s
  | .injArm via src w => Sys2Proof.Machine.execInjArm via src w s
  | .calCfgWrite via w => Sys2Proof.Machine.execCalCfgWrite via w s
  | .xcTickCfgWrite via w => Sys2Proof.Machine.execXcTickCfgWrite via w s
  | .porNAssert lowNs => Sys2Proof.Machine.execPorNAssert lowNs s
  | .porNRelease role devid => Sys2Proof.Machine.execPorNRelease role devid s
  | .bootDone a b => Sys2Proof.Machine.execBootDone a b s
  | .railUndervoltage => Sys2Proof.Machine.execRailUndervoltage s
  | .railRestored => Sys2Proof.Machine.execRailRestored s
  | .pwrWarnAssert => Sys2Proof.Machine.execPwrWarnAssert s
  | .pwrWarnDeassert => Sys2Proof.Machine.execPwrWarnDeassert s
  | .vcoreLow => Sys2Proof.Machine.execVcoreLow s
  | .vcoreRestored => Sys2Proof.Machine.execVcoreRestored s
  | .recoverHoldExpiry => Sys2Proof.Machine.execRecoverHoldExpiry s
  | .keepAtRisk tcell => Sys2Proof.Machine.execKeepAtRisk tcell s
  | .governorUpdate iEst demand tcell vcore => Sys2Proof.Machine.execGovernorUpdate iEst demand tcell vcore s
  | .pcieLinkLoss => Sys2Proof.Machine.execPcieLinkLoss s
  | .perstN => Sys2Proof.Machine.execPerstN s
  | .flr pf1 => Sys2Proof.Machine.execFlr pf1 s
  | .d3hotEntry => Sys2Proof.Machine.execD3hotEntry s
  | .laneCalComplete l offsets => Sys2Proof.Machine.execLaneCalComplete l offsets s
  | .laneCalAbort l => Sys2Proof.Machine.execLaneCalAbort l s
  | .laneAcquired l ppm => Sys2Proof.Machine.execLaneAcquired l ppm s
  | .acqRetry l => Sys2Proof.Machine.execAcqRetry l s
  | .laneLocked l => Sys2Proof.Machine.execLaneLocked l s
  | .laneCdrLost l => Sys2Proof.Machine.execLaneCdrLost l s
  | .laneLost l cdr => Sys2Proof.Machine.execLaneLost l cdr s
  | .portAligned p skew => Sys2Proof.Machine.execPortAligned p skew s
  | .skewMeasurement p skew orderChanged => Sys2Proof.Machine.execSkewMeasurement p skew orderChanged s
  | .ingressWordPush l d tag => Sys2Proof.Machine.execIngressWordPush l d tag s
  | .egressWordPop l => Sys2Proof.Machine.execEgressWordPop l s
  | .fecCodeword l correctable => Sys2Proof.Machine.execFecCodeword l correctable s
  | .forkStall l plane => Sys2Proof.Machine.execForkStall l plane s
  | .queuePush q d tag p => Sys2Proof.Machine.execQueuePush q d tag p s
  | .queuePop q flip => Sys2Proof.Machine.execQueuePop q flip s
  | .rewind q => Sys2Proof.Machine.execRewind q s
  | .release q => Sys2Proof.Machine.execRelease q s
  | .queueTimeout q => Sys2Proof.Machine.execQueueTimeout q s
  | .scanMatch f pos => Sys2Proof.Machine.execScanMatch f pos s
  | .candidateCheck f seen => Sys2Proof.Machine.execCandidateCheck f seen s
  | .fasPosition p slice bits pos => Sys2Proof.Machine.execFasPosition p slice bits pos s
  | .slipMark p pos => Sys2Proof.Machine.execSlipMark p pos s
  | .mfas p slice v => Sys2Proof.Machine.execMfas p slice v s
  | .flexoMfIndicator p inst v => Sys2Proof.Machine.execFlexoMfIndicator p inst v s
  | .omfi o v => Sys2Proof.Machine.execOmfi o v s
  | .h4 v h => Sys2Proof.Machine.execH4 v h s
  | .e1Fas e good pos => Sys2Proof.Machine.execE1Fas e good pos s
  | .e1Crc4Mfas e valid => Sys2Proof.Machine.execE1Crc4Mfas e valid s
  | .e1Submultiframe e x eBit => Sys2Proof.Machine.execE1Submultiframe e x eBit s
  | .e1MfRestart e => Sys2Proof.Machine.execE1MfRestart e s
  | .e1NoCrc4 e => Sys2Proof.Machine.execE1NoCrc4 e s
  | .overheadFrame m f => Sys2Proof.Machine.execOverheadFrame m f s
  | .defectPersistence m bit => Sys2Proof.Machine.execDefectPersistence m bit s
  | .pmSecond m => Sys2Proof.Machine.execPmSecond m s
  | .setIntExpiry m bit => Sys2Proof.Machine.execSetIntExpiry m bit s
  | .clrIntExpiry m bit => Sys2Proof.Machine.execClrIntExpiry m bit s
  | .recoveryExpiry m => Sys2Proof.Machine.execRecoveryExpiry m s
  | .pmBinClose m day => Sys2Proof.Machine.execPmBinClose m day s
  | .gmpMultiframe o cm crc8 cnd bytes => Sys2Proof.Machine.execGmpMultiframe o cm crc8 cnd bytes s
  | .ampJc o jc fill => Sys2Proof.Machine.execAmpJc o jc fill s
  | .rateAlarmClear odu n => Sys2Proof.Machine.execRateAlarmClear odu n s
  | .pointerFrame x w others => Sys2Proof.Machine.execPointerFrame x w others s
  | .pointerJustification x fill => Sys2Proof.Machine.execPointerJustification x fill s
  | .c12MultiframeMap e bits => Sys2Proof.Machine.execC12MultiframeMap e bits s
  | .c12MultiframeDemap e v j nk => Sys2Proof.Machine.execC12MultiframeDemap e v j nk s
  | .gfpCoreHeader o c => Sys2Proof.Machine.execGfpCoreHeader o c s
  | .gfpFrame o f m => Sys2Proof.Machine.execGfpFrame o f m s
  | .satopPacketRx e k => Sys2Proof.Machine.execSatopPacketRx e k s
  | .satopPlayout e => Sys2Proof.Machine.execSatopPlayout e s
  | .satopPacketTx e payload => Sys2Proof.Machine.execSatopPacketTx e payload s
  | .satopReserveApplied => Sys2Proof.Machine.execSatopReserveApplied s
  | .swapTick => Sys2Proof.Machine.execSwapTick s
  | .swapBoundary table pos => Sys2Proof.Machine.execSwapBoundary table pos s
  | .memoryScrub m addr upset => Sys2Proof.Machine.execMemoryScrub m addr upset s
  | .storageRead m addr upset => Sys2Proof.Machine.execStorageRead m addr upset s
  | .sourceCondition sl isP => Sys2Proof.Machine.execSourceCondition sl isP s
  | .holdoffExpiry sl isP => Sys2Proof.Machine.execHoldoffExpiry sl isP s
  | .selectedChange sl => Sys2Proof.Machine.execSelectedChange sl s
  | .apsAccept sl rx => Sys2Proof.Machine.execApsAccept sl rx s
  | .fopTimer sl => Sys2Proof.Machine.execFopTimer sl s
  | .wtrExpiry sl => Sys2Proof.Machine.execWtrExpiry sl s
  | .mergeUnitArrival g west u => Sys2Proof.Machine.execMergeUnitArrival g west u s
  | .mergeCopySf g west => Sys2Proof.Machine.execMergeCopySf g west s
  | .mergePlayout g => Sys2Proof.Machine.execMergePlayout g s
  | .mergeResizeApplied g => Sys2Proof.Machine.execMergeResizeApplied g s
  | .pselWord p plane w => Sys2Proof.Machine.execPselWord p plane w s
  | .resyncComplete carrierBad => Sys2Proof.Machine.execResyncComplete carrierBad s
  | .macFrameRx ingress f => Sys2Proof.Machine.execMacFrameRx ingress f s
  | .macFaultSequence p k => Sys2Proof.Machine.execMacFaultSequence p k s
  | .frameStart n => Sys2Proof.Machine.execFrameStart n s
  | .shaperUpdate => Sys2Proof.Machine.execShaperUpdate s
  | .gateCycleStart n => Sys2Proof.Machine.execGateCycleStart n s
  | .queueSample q => Sys2Proof.Machine.execQueueSample q s
  | .queueSampleRecord q => Sys2Proof.Machine.execQueueSampleRecord q s
  | .refMeasurement r offset phase => Sys2Proof.Machine.execRefMeasurement r offset phase s
  | .refActivityLost r => Sys2Proof.Machine.execRefActivityLost r s
  | .refSignalFail r => Sys2Proof.Machine.execRefSignalFail r s
  | .refSteerTimeout => Sys2Proof.Machine.execRefSteerTimeout s
  | .refWtrExpiry r => Sys2Proof.Machine.execRefWtrExpiry r s
  | .refSelection phaseErr => Sys2Proof.Machine.execRefSelection phaseErr s
  | .tsuLocked => Sys2Proof.Machine.execTsuLocked s
  | .tsuPhaseLoss => Sys2Proof.Machine.execTsuPhaseLoss s
  | .tsuLostResolve => Sys2Proof.Machine.execTsuLostResolve s
  | .tsuHoldoverExpired => Sys2Proof.Machine.execTsuHoldoverExpired s
  | .lockstepDisagreement x => Sys2Proof.Machine.execLockstepDisagreement x s
  | .historySecond mean => Sys2Proof.Machine.execHistorySecond mean s
  | .refQlChange r ql => Sys2Proof.Machine.execRefQlChange r ql s
  | .calSecond => Sys2Proof.Machine.execCalSecond s
  | .tempRead res => Sys2Proof.Machine.execTempRead res s
  | .twillMessage g => Sys2Proof.Machine.execTwillMessage g s
  | .twStall g => Sys2Proof.Machine.execTwStall g s
  | .dccSecond n north south gapN gapS => Sys2Proof.Machine.execDccSecond n north south gapN gapS s
  | .faultReport rec others fields => Sys2Proof.Machine.execFaultReport rec others fields s
  | .wireFault src pair => Sys2Proof.Machine.execWireFault src pair s
  | .wirePairValid src pair => Sys2Proof.Machine.execWirePairValid src pair s
  | .collectorMismatch x => Sys2Proof.Machine.execCollectorMismatch x s
  | .jyFrame j f => Sys2Proof.Machine.execJyFrame j f s
  | .jyControlMessage j m => Sys2Proof.Machine.execJyControlMessage j m s
  | .jyRetransmitTimeout j => Sys2Proof.Machine.execJyRetransmitTimeout j s
  | .jyAckStall j => Sys2Proof.Machine.execJyAckStall j s
  | .jyClockLocked j => Sys2Proof.Machine.execJyClockLocked j s
  | .jyInFrame j => Sys2Proof.Machine.execJyInFrame j s
  | .jyHello j role devid booted => Sys2Proof.Machine.execJyHello j role devid booted s
  | .jyHelloTimer j => Sys2Proof.Machine.execJyHelloTimer j s
  | .jyBootStart => Sys2Proof.Machine.execJyBootStart s
  | .jyBootResult j reason => Sys2Proof.Machine.execJyBootResult j reason s
  | .jyBootTimeout j => Sys2Proof.Machine.execJyBootTimeout j s
  | .jyDelayExchange j t1 t2 t3 t4 => Sys2Proof.Machine.execJyDelayExchange j t1 t2 t3 t4 s
  | .jyTime tick sec ns mseq delay ql => Sys2Proof.Machine.execJyTime tick sec ns mseq delay ql s
  | .unknownOpcode op d => Sys2Proof.Machine.execUnknownOpcode op d s
  | .pcieLinkUp gen width => Sys2Proof.Machine.execPcieLinkUp gen width s
  | .jyCdrLost j => Sys2Proof.Machine.execJyCdrLost j s
  | .tapInstruction ir => Sys2Proof.Machine.execTapInstruction ir s

end Sys2Proof.Machine
end

