-- ==== Sys2Proof/Machine/Step.lean ====
section
/-! DEFINITION. A step of the block: the command at the front of the queue runs with the queue's rest. On an empty queue
nothing is commanded and 8 ns of the elapsed-time base pass (DESIGN CHOICE 3). -/

namespace Sys2Proof.Machine

/-- An idle step: 8 ns pass on the elapsed-time base and the time counter, which stand still while the device is held in
reset (DESIGN CHOICE 3). -/
def idle (s : State) : State :=
  if s.dev.life = .por || s.dev.life = .railOff then s else { s with dev := s.dev.tick }

/-- One step. -/
def step (s : State) : Host.Outcome State Fault Refusal :=
  match s.pending with
  | [] => .next (idle s)
  | c :: rest => exec c { s with pending := rest }

/-- The state with the command that a word spells at the front of its queue: no word spells one. -/
def State.withFetchWord (s : State) (nbits w : Nat) : State :=
  match decodeTableWord nbits w with
  | some c => { s with pending := c :: s.pending }
  | none => s

end Sys2Proof.Machine
end

