-- ==== Sys2Proof/Machine/Parts.lean ====
section
/-! DEFINITION. The parts of the device and the device with some of them left out, in which frames are stated:
`t.mask T = s.mask T` says that `t` and `s` differ in nothing but the parts of `T`. -/

namespace Sys2Proof.Machine

/-- The parts of the device: one for each field of `Dev`. -/
inductive Part where
  | life | worker | devid | porLow | regs | plane | arms | wires | sliceU | lanes
  | ports | queues | crc | framers | flexo | oofCause | e1s | points | dayOffset | groupCause
  | odus | mapJobs | vc4s | los | circuits | reserve | xc | sels | groups | psels
  | pkt | tsu | cal | twill | host | jersey | power | sec | cfg | tbl
  | xcTbl | masters | mx | tap | fresh | reports
  deriving DecidableEq, Repr

/-- `z` for a part of `T`, `v` for another. -/
def Part.pick {α : Type} (T : List Part) (p : Part) (z v : α) : α := if p ∈ T then z else v

/-- The device with the parts of `T` at their reset values. -/
def Dev.mask (T : List Part) (d : Dev) : Dev := {
  life := Part.pick T .life ({} : Dev).life d.life
  worker := Part.pick T .worker ({} : Dev).worker d.worker
  devid := Part.pick T .devid ({} : Dev).devid d.devid
  porLow := Part.pick T .porLow ({} : Dev).porLow d.porLow
  regs := Part.pick T .regs ({} : Dev).regs d.regs
  plane := Part.pick T .plane ({} : Dev).plane d.plane
  arms := Part.pick T .arms ({} : Dev).arms d.arms
  wires := Part.pick T .wires ({} : Dev).wires d.wires
  sliceU := Part.pick T .sliceU ({} : Dev).sliceU d.sliceU
  lanes := Part.pick T .lanes ({} : Dev).lanes d.lanes
  ports := Part.pick T .ports ({} : Dev).ports d.ports
  queues := Part.pick T .queues ({} : Dev).queues d.queues
  crc := Part.pick T .crc ({} : Dev).crc d.crc
  framers := Part.pick T .framers ({} : Dev).framers d.framers
  flexo := Part.pick T .flexo ({} : Dev).flexo d.flexo
  oofCause := Part.pick T .oofCause ({} : Dev).oofCause d.oofCause
  e1s := Part.pick T .e1s ({} : Dev).e1s d.e1s
  points := Part.pick T .points ({} : Dev).points d.points
  dayOffset := Part.pick T .dayOffset ({} : Dev).dayOffset d.dayOffset
  groupCause := Part.pick T .groupCause ({} : Dev).groupCause d.groupCause
  odus := Part.pick T .odus ({} : Dev).odus d.odus
  mapJobs := Part.pick T .mapJobs ({} : Dev).mapJobs d.mapJobs
  vc4s := Part.pick T .vc4s ({} : Dev).vc4s d.vc4s
  los := Part.pick T .los ({} : Dev).los d.los
  circuits := Part.pick T .circuits ({} : Dev).circuits d.circuits
  reserve := Part.pick T .reserve ({} : Dev).reserve d.reserve
  xc := Part.pick T .xc ({} : Dev).xc d.xc
  sels := Part.pick T .sels ({} : Dev).sels d.sels
  groups := Part.pick T .groups ({} : Dev).groups d.groups
  psels := Part.pick T .psels ({} : Dev).psels d.psels
  pkt := Part.pick T .pkt ({} : Dev).pkt d.pkt
  tsu := Part.pick T .tsu ({} : Dev).tsu d.tsu
  cal := Part.pick T .cal ({} : Dev).cal d.cal
  twill := Part.pick T .twill ({} : Dev).twill d.twill
  host := Part.pick T .host ({} : Dev).host d.host
  jersey := Part.pick T .jersey ({} : Dev).jersey d.jersey
  power := Part.pick T .power ({} : Dev).power d.power
  sec := Part.pick T .sec ({} : Dev).sec d.sec
  cfg := Part.pick T .cfg ({} : Dev).cfg d.cfg
  tbl := Part.pick T .tbl ({} : Dev).tbl d.tbl
  xcTbl := Part.pick T .xcTbl ({} : Dev).xcTbl d.xcTbl
  masters := Part.pick T .masters ({} : Dev).masters d.masters
  mx := Part.pick T .mx ({} : Dev).mx d.mx
  tap := Part.pick T .tap ({} : Dev).tap d.tap
  fresh := Part.pick T .fresh ({} : Dev).fresh d.fresh
  reports := Part.pick T .reports ({} : Dev).reports d.reports }

end Sys2Proof.Machine
end

