-- ==== Sys2Proof/Certificates/Slice0/Obligations.lean ====
section
/-! DEFINITION. The statements about the model, each named for what it states and citing the rules of spec/ it rests on. The
hypotheses of a statement name the state and the operands alone; `Answers` says that a command answers a next state. -/

namespace Sys2Proof.Claim

open Machine

/-- The command answers a next state of which `P` holds. -/
def Answers (c : Instr) (s : State) (P : State → Prop) : Prop := ∃ t, exec c s = .next t ∧ P t

/-- The command answers the next state that differs from `s` in its device alone, which is `d`. -/
def Gives (c : Instr) (s : State) (d : Dev) : Prop := exec c s = .next { s with dev := d }

/-- A descriptor of opcode `op` that is executed here under its own rule: the device runs, the header checks of R376 pass,
and it is a worker's, as the manager forwarded it, or one that the host queue engine takes from its ring with the expected
SEQ and DEST 0 (R371, R376). -/
def Served (op : Nat) (c : Desc) (d : Dev) (bulkOk : Bool := false) (bulk : HostRead := .failed) : Prop :=
  c.wf = true ∧ d.life = .running ∧ d.header op c true bulkOk bulk = none
    ∧ (d.worker = true ∨ d.ready c = true ∧ d.reg (aRing c.ring.val 0x18) = c.seq ∧ c.dest = 0)

/-- The event bit `i` of the RS register at `a` is set. -/
def EventSet (t : State) (a i : Nat) : Prop := bit (t.dev.reg a) i = true

/-- Lane l is as `x`, and every other lane as it was. -/
def LaneIs (s t : State) (l : Nat) (x : Lane) : Prop := t.dev.lane l = x ∧ ∀ k, k ≠ l → t.dev.lane k = s.dev.lane k

/-- Queue q holds what `x` holds, and every other queue what it held. -/
def QueueIs (s t : State) (q : QId) (x : FQueue) : Prop :=
  t.dev.queue q = x ∧ ∀ k, qkey k ≠ qkey q → t.dev.queue k = s.dev.queue k

/-- What the value `v` makes of an aligner of modulus `m` that loses lock on the `n`th mismatch in a row (R97): in lock it
follows the value expected, or counts a mismatch, or is back in search; in search it locks on the successor of the value
before. -/
def MfMoves (m n : Nat) (x : MfAlign) (v : Nat) (y : MfAlign) : Prop :=
  (x.lock = true →
    (v = x.x → y.lock = true ∧ y.x = (x.x + 1) % m ∧ y.merr = 0)
    ∧ (v ≠ x.x → x.merr + 1 < n → y.lock = true ∧ y.x = (x.x + 1) % m ∧ y.merr = x.merr + 1)
    ∧ (v ≠ x.x → n ≤ x.merr + 1 → y.lock = false))
  ∧ (x.lock = false →
    (∀ q, x.prev = some q → (q + 1) % m = v → y.lock = true ∧ y.x = (v + 1) % m)
    ∧ (x.prev.map (fun q => (q + 1) % m) ≠ some v → y.lock = false ∧ y.prev = if v < m then some v else none))

/-- The body's bytes from `lo` to `hi` are 0. -/
def Zeros (c : Desc) (lo hi : Nat) : Prop := ∀ i, lo ≤ i → i ≤ hi → c.u8 i = 0

/-- A packet queue admits a frame of `n` cells (R259). -/
def Admits (d : Dev) (q n : Nat) : Prop :=
  let x := d.pq q
  x.enable = true ∧ x.stopped = false ∧ x.cells + n ≤ x.limit
    ∧ (x.cells + n ≤ x.reserve ∨ ((x.cells + n : Nat) : Int) - (max x.reserve x.cells : Nat) ≤ d.sharedFree)

/-- A received frame that passes the checks of R249 and matches the flow entry `x`, which names no policer and no circuit. -/
def Forwards (d : Dev) (i : Nat) (f : MacRx) (x : Flow) : Prop :=
  d.ingressExists i = true ∧ f.slip = false ∧ f.fcsOk = true ∧ f.errored = false ∧ 64 ≤ f.bytes.length + 4
    ∧ f.bytes.length + 4 ≤ (d.ingr i).maxFrame ∧ etherType f.bytes ≠ 0x8808 ∧ x.policer = 0xFFFF
    ∧ (∀ y ∈ d.circuits, y.2.made = true → y.2.flowTag ≠ x.flowTag)
    ∧ d.flowOf i (vlanOf f.bytes).isSome ((vlanOf f.bytes).getD (0, 0)).1 ((vlanOf f.bytes).getD (0, 0)).2 = some x

/-- Queue q has taken a frame of the given bytes without its FCS, into cells that were free, and in its place among the frames of
its cell boundary; those of them that its key puts behind it are decided after it (R257, R258). -/
def Takes (s t : State) (q : Nat) (bytes : List Byte) (key : Nat) : Prop :=
  ∃ cells : List Nat, cells.length = cellsOf (bytes.length + 4) ∧ (∀ c ∈ cells, c ∉ s.dev.usedCells) ∧
    let f : PFrame := { len := bytes.length + 4, cells := cells, at_ := s.dev.now, key := key }
    f ∈ (t.dev.pq q).frames ∧ (s.dev.behind key = [] → (t.dev.pq q).frames = placeFrame f (s.dev.pq q).frames)

/-- A frame of `n` bytes with its FCS fits in queue q beside the frames that stand before it (R258, R259). -/
def Fits (d : Dev) (q n key : Nat) : Prop := Admits (d.withoutBehind key) q (cellsOf n)

/-- Both planes' copies of the engine of a point run, and their taps are free for its message (R345, R353). -/
def TapsFree (d : Dev) (k : Nat) : Prop :=
  ∀ e, (d.point k).engine = some e → ∀ p : Fin 2,
    let g : Fin 256 := Fin.ofNat 256 (engineNo p.val (d.pointSlice k) (d.movedTo (d.pointSlice k) e))
    d.engineDead (g.val / 128) (g.val % 128 / 16) (g.val % 16) = false ∧ (d.engine g).tapBusy = false

/-- The last E1 data that a run has played out. -/
def lastPlayout (s : State) : Option Out := s.dev.host.out.find? fun o => match o with | .playout _ _ _ => true | _ => false

/-- No write of a master is held back by a commit pass, behind which its later writes would wait (R414, R421). -/
def Passes (d : Dev) (m : Nat) : Prop := d.cfg.busy = true → ∀ x ∈ d.cfg.heldBack, x.1 / 2 ^ 26 ≠ m

/-- The logic of a slice runs in both planes. -/
def SliceRuns (d : Dev) (slice : Option Nat) : Prop := ∀ p : Fin 2, d.sliceDead p.val slice = false

/-- The bytes that the words at the given places hold in the plane that traffic is taken from (R24). -/
def heldBytes (s : State) (places : List ((Fin 2 → MemId) × Nat)) : List Byte :=
  let pref := s.dev.plane.preferred
  let pl := if s.dev.planeFenced pref.val then 1 - pref else pref
  places.flatMap fun x => bytesOfWord (wordData s.mem (memNo (x.1 pl)) x.2)

/-- The words at the given places read without an error in both planes: no bank is fenced, no syndrome is set and no checker is
armed. -/
def Sound (s : State) (places : List ((Fin 2 → MemId) × Nat)) : Prop :=
  ∀ x ∈ places, ∀ pl : Fin 2, let m := x.1 pl
    s.dev.memFenced m = false ∧ syndrome s.mem (memNo m) x.2 = 0
    ∧ (tget {} s.dev.arms (16 * (memSource m).1 + (memSource m).2)).count = 0

end Sys2Proof.Claim

namespace Sys2Proof.Claim

open Machine

/-- The descriptor of a row that carries one. -/
def descOf : Instr → Option Desc
  | .nop b | .laneCfg b | .portCfg b | .defectCfg b | .mapCfg b | .xcWrite b | .xcSwap b | .mergeGroupCfg b
  | .apsCfg b | .protCommand b | .queueCfg b | .shaperCfg b | .policerCfg b | .gateCfg b | .satopCfg b
  | .tsuRefCfg b | .tsuSteer b | .tsuRealign b | .calRun b | .calTableCommit b | .statsSnap b | .enginePkgLoad b
  | .planeHandover b | .engineCfg b | .faultAction b | .unknownOpcode _ b | .attest b _ | .keyAdmin b _ => some b
  | _ => none

/-- The commands that can act on a device that does not run: its resets, its pins, its links, its test port, and the registers
that answer after a failed boot (R488, R496). -/
def anyLife : Instr → Bool
  | .registerWrite _ _ _ _ | .aliasWrite _ _ _ _ | .rsSeqClear _ _ _ | .tableWindowRead _ | .tableWindowWrite _
  | .pcieLinkUp _ _ | .pcieLinkLoss | .perstN | .flr _ | .d3hotEntry | .porNAssert _ | .porNRelease _ _
  | .railUndervoltage | .railRestored | .bootDone _ _ | .pwrWarnAssert | .pwrWarnDeassert | .vcoreLow | .vcoreRestored
  | .recoverHoldExpiry | .keepAtRisk _ | .governorUpdate _ _ _ _ | .tapInstruction _ | .jyClockLocked _ | .jyCdrLost _
  | .jyInFrame _ | .jyHelloTimer _ | .jyFrame _ _ | .jyRetransmitTimeout _ | .jyAckStall _ | .jyHello _ _ _ _
  | .jyBootTimeout _ | .jyControlMessage _ _ => true
  | _ => false

/-! ### What each command can change -/

/-- What an event, a completion or a message changes: the registers, the rings and the links. -/
def eventParts : List Part := [.regs, .host, .jersey]

/-- What a record of a fault and its reaction change (R449–R458). -/
def faultParts : List Part :=
  eventParts ++ [.plane, .arms, .sliceU, .queues, .psels, .tsu, .cal, .twill, .mx, .fresh, .reports]

/-- What a change of a port's alignment changes. -/
def portParts : List Part := eventParts ++ [.lanes, .ports, .framers, .flexo, .oofCause, .points, .odus, .vc4s]

/-- What a change of the selected reference or of the time changes. -/
def timeParts : List Part := eventParts ++ [.tsu, .cal, .fresh, .points, .pkt, .xc]

/-- Every part of the device. -/
def allParts : List Part :=
  [.life, .worker, .devid, .porLow, .regs, .plane, .arms, .wires, .sliceU, .lanes, .ports, .queues, .crc, .framers,
   .flexo, .oofCause, .e1s, .points, .dayOffset, .groupCause, .odus, .mapJobs, .vc4s, .los, .circuits, .reserve, .xc,
   .sels, .groups, .psels, .pkt, .tsu, .cal, .twill, .host, .jersey, .power, .sec, .cfg, .tbl, .xcTbl, .masters, .mx,
   .tap, .fresh, .reports]

/-- The parts of the device that a command of lanes, ports, queues, framers, overhead and mapping can change. -/
def touchedLine : Instr → Option (List Part)
  | .laneCfg _ => some (portParts ++ [.groupCause])
  | .portCfg _ => some (portParts ++ [.plane, .groupCause, .psels, .pkt])
  | .defectCfg _ => some (eventParts ++ [.plane, .queues, .e1s, .points, .dayOffset, .groupCause, .mx, .fresh])
  | .mapCfg _ => some (eventParts ++ [.plane, .e1s, .points, .odus, .mapJobs, .vc4s, .los, .xc])
  | .mapCfgTakesEffect _ => some (eventParts ++ [.plane, .points, .odus, .mapJobs, .xc])
  | .satopCfg _ | .satopReserveApplied => some (faultParts ++ [.circuits, .reserve])
  | .laneCalComplete _ _ | .laneCdrLost _ => some [.lanes]
  | .laneAcquired _ _ | .laneLocked _ | .portAligned _ _ => some (eventParts ++ [.lanes, .ports, .framers, .points])
  | .laneCalAbort _ | .fecCodeword _ _ => some (eventParts ++ [.lanes])
  | .acqRetry _ => some [.regs, .lanes]
  | .laneLost _ _ | .skewMeasurement _ _ _ => some portParts
  | .flexoMfIndicator _ _ _ | .fasPosition _ _ _ _ | .slipMark _ _ => some (eventParts ++ [.ports, .framers, .flexo,
    .oofCause, .points, .odus, .vc4s])
  | .ingressWordPush _ _ _ => some (eventParts ++ [.lanes, .ports, .queues])
  | .release _ | .queueTimeout _ => some (eventParts ++ [.queues])
  | .egressWordPop _ => some (faultParts ++ [.lanes, .ports])
  | .queuePush _ _ _ _ => some (eventParts ++ [.lanes, .queues])
  | .queuePop _ _ => some (faultParts ++ [.lanes])
  | .rewind _ => some [.queues]
  | .scanMatch _ _ => some [.framers, .e1s]
  | .mfas _ _ _ => some (eventParts ++ [.ports, .framers, .points, .odus])
  | .omfi _ _ | .gmpMultiframe _ _ _ _ _ | .ampJc _ _ _ | .gfpCoreHeader _ _ => some (eventParts ++ [.odus])
  | .h4 _ _ => some (eventParts ++ [.vc4s])
  | .e1Fas _ _ _ | .e1Submultiframe _ _ _ | .e1MfRestart _ | .e1Crc4Mfas _ _ | .e1NoCrc4 _ => some (eventParts ++
    [.e1s, .points])
  | .overheadFrame _ _ | .pmSecond _ => some (eventParts ++ [.queues, .points, .twill, .fresh])
  | .defectPersistence _ _ => some (eventParts ++ [.points])
  | .setIntExpiry _ _ | .clrIntExpiry _ _ | .pmBinClose _ _ => some (eventParts ++ [.queues, .points, .fresh])
  | .recoveryExpiry _ => some (eventParts ++ [.queues, .points, .groupCause, .fresh])
  | .rateAlarmClear _ _ => some (eventParts ++ [.odus, .los])
  | .pointerFrame _ _ _ => some (eventParts ++ [.points, .vc4s, .los])
  | .pointerJustification _ _ => some [.vc4s, .los, .fresh]
  | .c12MultiframeMap _ _ | .c12MultiframeDemap _ _ _ _ => some (eventParts ++ [.los])
  | .gfpFrame _ _ _ => some (eventParts ++ [.odus, .los, .circuits, .pkt])
  | .satopPacketRx _ _ => some (eventParts ++ [.los, .circuits])
  | .satopPlayout _ => some (faultParts ++ [.los, .circuits])
  | .satopPacketTx _ _ => some (eventParts ++ [.circuits, .pkt])
  | .candidateCheck _ _ => some (eventParts ++ [.ports, .framers, .e1s, .points])
  | _ => none

/-- The parts of the device that a command of SAToP, the cross-connect, protection, merge and the packet path can change. -/
def touchedService : Instr → Option (List Part)
  | .xcWrite _ | .xcSwap _ => some (eventParts ++ [.xc])
  | .mergeGroupCfg _ => some (eventParts ++ [.plane, .groups])
  | .apsCfg _ => some (eventParts ++ [.plane, .queues, .points, .sels, .mx, .fresh])
  | .protCommand _ => some (eventParts ++ [.queues, .sels, .mx, .fresh])
  | .sourceCondition _ _ | .holdoffExpiry _ _ | .apsAccept _ _ | .wtrExpiry _ | .fopTimer _ => some (eventParts ++
    [.sels])
  | .queueCfg _ | .shaperCfg _ => some (eventParts ++ [.plane, .pkt])
  | .policerCfg _ | .macFaultSequence _ _ => some (eventParts ++ [.pkt])
  | .frameStart _ => some (faultParts ++ [.odus, .pkt])
  | .gateCfg _ => some (eventParts ++ [.xc, .pkt])
  | .swapTick => some (eventParts ++ [.plane, .xc, .groups])
  | .swapBoundary _ _ => some (eventParts ++ [.plane, .points, .groupCause, .vc4s, .los, .xc, .groups])
  | .selectedChange _ => some (eventParts ++ [.plane, .points, .groupCause, .vc4s, .los, .sels])
  | .mergeUnitArrival _ _ _ | .mergeCopySf _ _ => some (eventParts ++ [.groups])
  | .mergePlayout _ | .mergeResizeApplied _ => some (faultParts ++ [.groups])
  | .pselWord _ _ _ => some faultParts
  | .macFrameRx _ _ => some (eventParts ++ [.los, .circuits, .pkt])
  | .shaperUpdate | .gateCycleStart _ | .queueSample _ => some [.pkt]
  | .queueSampleRecord _ => some (eventParts ++ [.pkt, .fresh])
  | _ => none

/-- The parts of the device that a command of timing, calibration, the engines, storage, faults and security can change. -/
def touchedUnit : Instr → Option (List Part)
  | .tsuRefCfg _ | .tsuSteer _ | .refSelection _ | .tsuLostResolve | .tsuHoldoverExpired | .tsuPhaseLoss => some
    timeParts
  | .tsuRealign _ | .outputAlignment | .refWtrExpiry _ => some (eventParts ++ [.tsu])
  | .historySecond _ | .calRunWindowEnd | .refMeasurement _ _ _ | .refActivityLost _ | .refSignalFail _ |
    .refSteerTimeout | .tsuLocked => some (eventParts ++ [.tsu, .cal, .fresh])
  | .calRun _ | .tempRead _ => some (eventParts ++ [.cal])
  | .calTableCommit _ | .refQlChange _ _ | .calSecond => some (eventParts ++ [.tsu, .cal])
  | .enginePkgLoad _ => some (eventParts ++ [.twill, .sec, .masters])
  | .twPkgStaged _ | .twPkgLoaded => some (eventParts ++ [.twill, .sec])
  | .planeHandover _ | .twHandoverDone => some (eventParts ++ [.plane, .arms, .psels, .twill, .mx])
  | .engineCfg _ => some (eventParts ++ [.queues, .twill, .mx, .fresh])
  | .engineMoveDone _ _ => some (faultParts ++ [.points, .groupCause, .sels])
  | .faultAction _ => some (eventParts ++ [.plane, .arms, .queues, .psels, .twill, .mx])
  | .unfenceDone _ => some (allParts.filter fun p => p ∉ [.life, .worker, .devid, .porLow, .wires, .lanes, .crc,
    .oofCause, .dayOffset, .mapJobs, .circuits, .reserve, .groups, .pkt, .power, .sec, .cfg, .tbl, .xcTbl, .masters,
    .tap])
  | .attest _ _ | .keyAdmin _ _ => some (eventParts ++ [.sec, .masters])
  | .attestDone => some (eventParts ++ [.sec])
  | .secServiceStart => some [.regs, .sec, .masters]
  | .keyAdminDone _ => some (faultParts ++ [.sec, .masters])
  | .forkStall _ _ | .memoryScrub _ _ _ | .storageRead _ _ _ | .twStall _ | .faultReport _ _ _ | .resyncComplete _ =>
    some faultParts
  | .lockstepDisagreement _ => some (eventParts ++ [.arms, .tsu, .cal, .fresh, .reports])
  | .twillMessage _ => some (faultParts ++ [.lanes])
  | .dccSecond _ _ _ _ _ => some (faultParts ++ [.crc])
  | .wireFault _ _ => some (eventParts ++ [.wires])
  | .wirePairValid _ _ => some (eventParts ++ [.wires, .reports])
  | .collectorMismatch _ => some (eventParts ++ [.plane, .arms, .xc, .cal])
  | _ => none

/-- The parts of the device that a command of the host interface, the registers, Jersey links, supplies and resets can change. -/
def touchedOutside : Instr → Option (List Part)
  | .nop _ | .statsSnapDone | .descriptorFetchError _ | .remoteResponse _ | .jyRetransmitTimeout _ | .unknownOpcode _
    _ | .jyClockLocked _ | .jyInFrame _ | .jyHelloTimer _ => some eventParts
  | .remoteRead _ | .remoteWrite _ => some (eventParts ++ [.cfg])
  | .statsSnap _ => some (eventParts ++ [.plane, .e1s, .points, .odus, .vc4s, .los, .circuits])
  | .freezePort _ _ _ | .forceSelector _ _ _ | .stopService _ _ _ | .forcePlane _ _ _ | .urgentUnknownCmd _ _ => some
    (allParts.filter fun p => p ∉ [.life, .worker, .devid, .porLow, .wires, .crc, .e1s, .dayOffset, .mapJobs, .los,
    .circuits, .reserve, .xc, .groups, .power, .sec, .tbl, .xcTbl, .masters, .tap])
  | .warmResetHostQueueEngine _ => some [.regs, .host, .power, .cfg, .mx]
  | .warmResetTsu _ => some (eventParts ++ [.tsu, .cal, .power, .cfg, .fresh])
  | .warmResetCal _ => some (eventParts ++ [.cal, .power, .cfg])
  | .warmResetSecurity _ => some (faultParts ++ [.power, .sec, .cfg, .masters])
  | .warmResetStatisticsDma _ => some (faultParts ++ [.power, .cfg])
  | .warmResetCrcUnit _ _ => some [.regs, .crc, .power, .cfg]
  | .warmResetLane _ _ => some (portParts ++ [.queues, .groupCause, .power, .cfg])
  | .warmResetDone => some (allParts.filter fun p => p ∉ [.life, .worker, .devid, .porLow, .wires, .e1s, .dayOffset,
    .mapJobs, .los, .circuits, .reserve, .xc, .sels, .groups, .pkt, .tbl, .xcTbl, .tap])
  | .registerWrite _ _ _ _ | .aliasWrite _ _ _ _ | .rsSeqClear _ _ _ | .cfgCommitDone | .fwRearm _ _ | .injArm _ _ _
    => some (allParts.filter fun p => p ∉ [.life, .worker, .devid, .porLow, .wires, .e1s, .dayOffset, .mapJobs, .los,
    .circuits, .reserve, .groups, .tap])
  | .ringEnable _ _ _ | .ringPiWrite _ _ _ | .ringCiWrite _ _ _ | .pcieLinkLoss | .perstN | .flr _ => some [.regs,
    .host, .cfg]
  | .workerCompletion _ _ | .d3hotEntry => some [.regs, .host]
  | .coalTimeExpiry _ | .pcieLinkUp _ _ => some [.host]
  | .data8 _ _ _ | .data16 _ _ _ | .data32 _ _ _ | .crcLoad _ _ _ => some (faultParts ++ [.crc, .cfg])
  | .xcTableRead _ _ => some (faultParts ++ [.cfg, .xcTbl])
  | .tableWindowRead _ | .tableWindowWrite _ => some (faultParts ++ [.cfg, .tbl])
  | .cfgCommit _ => some [.cfg]
  | .cfgCrcRefWrite _ _ => some [.regs, .cfg]
  | .cfgScrubPass => some (faultParts ++ [.cfg])
  | .timeCapture _ => some [.tsu, .cfg]
  | .jyLinkRestart _ _ | .jyBuildWrite _ _ => some (allParts.filter fun p => p ∉ [.life, .worker, .devid, .porLow,
    .wires, .crc, .e1s, .dayOffset, .mapJobs, .los, .circuits, .reserve, .groups, .power, .sec, .tbl, .xcTbl,
    .masters, .tap])
  | .jyFrame _ _ | .jyAckStall _ | .jyCdrLost _ => some (allParts.filter fun p => p ∉ [.life, .worker, .devid,
    .porLow, .wires, .crc, .e1s, .dayOffset, .mapJobs, .los, .circuits, .reserve, .groups, .power, .sec, .cfg, .tbl,
    .xcTbl, .masters, .tap])
  | .jyBootResult _ _ => some timeParts
  | .calCfgWrite _ _ => some (eventParts ++ [.cal, .cfg])
  | .xcTickCfgWrite _ _ => some [.regs, .xc, .cfg]
  | .porNAssert _ => some (allParts.filter fun p => p ∉ [.tap])
  | .railUndervoltage => some (allParts.filter fun p => p ∉ [.worker, .devid, .tap])
  | .porNRelease _ _ => some [.life, .worker, .devid, .porLow, .jersey]
  | .bootDone _ _ => some (timeParts ++ [.life, .twill, .power, .sec])
  | .railRestored => some [.life, .jersey]
  | .pwrWarnAssert | .vcoreLow => some (portParts ++ [.power])
  | .pwrWarnDeassert | .vcoreRestored => some [.power]
  | .recoverHoldExpiry => some (portParts ++ [.groupCause, .power])
  | .keepAtRisk _ | .governorUpdate _ _ _ _ => some (eventParts ++ [.power])
  | .jyControlMessage _ _ => some (allParts.filter fun p => p ∉ [.worker, .devid, .porLow, .wires, .e1s, .dayOffset,
    .mapJobs, .los, .circuits, .reserve, .tap])
  | .jyBootStart => some [.host, .jersey]
  | .jyHello _ _ _ _ => some (timeParts ++ [.life])
  | .jyBootTimeout _ => some (eventParts ++ [.life, .sec])
  | .jyDelayExchange _ _ _ _ _ => some [.host, .jersey, .fresh]
  | .jyTime _ _ _ _ _ _ => some (timeParts ++ [.plane, .groups])
  | .tapInstruction _ => some [.tap]
  | _ => none

/-- The registers that a command can change beside those of the host queue engine's block, for the commands that report in a
block of their own: the event register and the counters of the object named. -/
def ownRegs : Instr → Option (List Nat)
  | .nop _ | .unknownOpcode _ _ | .statsSnapDone | .descriptorFetchError _ | .coalTimeExpiry _ | .workerCompletion _ _ => some []
  | .laneCalAbort l => some [aLane l 4]
  | .acqRetry l => some [aLane l 0x1C]
  | .fecCodeword l _ => some [aLane l 4, aLane l 0x10, aLane l 0x14]
  | .queueTimeout q => some [qbase q + 8]
  | .keepAtRisk _ | .governorUpdate _ _ _ _ => some [0x70008]
  | .jyRetransmitTimeout j => some [aJy j 0x18]
  | .remoteResponse _ => some [0x120014]

  | .rewind _ | .laneCalComplete _ _ | .laneCdrLost _ | .queueSample _ | .shaperUpdate | .gateCycleStart _
  | .pointerJustification _ _ | .secServiceStart | .timeCapture _ | .pwrWarnDeassert | .vcoreRestored | .tapInstruction _ => some []
  | _ => none

/-- The word of storage of number `w` (262,144 to a memory, by `memNo`) is one that the command can store to from `s` to `t`:
the word read or named; the words of the connections that change; the instruction stores of the plane that is loaded; the
stores of what is returned to service; the banks that hold the traffic, jitter buffers among it; the data stores of an engine
move; for a command that carries a register write of any address, any word. -/
def mayStore (c : Instr) (s t : State) (w : Nat) : Prop :=
  match c with
  | .storageRead m addr _ | .memoryScrub m addr _ => w = memNo m * 262144 + addr.toNat % memWords m
  | .tableWindowRead _ | .tableWindowWrite _ => ∃ id src a, s.dev.tblWord = some (id, src, a) ∧ w = memNo id * 262144 + a
  | .xcTableRead _ v =>
    let page := if bit v 15 then s.dev.standbyPage (fld v 13 2) else s.dev.activePage (fld v 13 2)
    let at_ := damaskAt page (fld v 13 2) (fld v 0 13)
    w = (128 + 16 * s.dev.shownPlane + at_.1) * 262144 + at_.2
  | .mapCfg _ | .mapCfgTakesEffect _ | .xcWrite _ | .swapTick | .swapBoundary _ _ | .jyTime _ _ _ _ _ _ =>
    ∃ k n, tget (xcReset (k / 8192 % 3)) s.dev.xc.words k ≠ tget (xcReset (k / 8192 % 3)) t.dev.xc.words k ∧ n < 2
      ∧ let at_ := damaskAt (k / 8192 / 3) (k / 8192 % 3) (k % 8192)
        w = (128 + 16 * n + at_.1) * 262144 + at_.2
  | .twPkgLoaded => ∃ x, s.dev.twill.loading = some x ∧ (160 + 128 * x.plane.val) * 262144 ≤ w ∧ w < (288 + 128 * x.plane.val) * 262144
  | .keyAdminDone _ | .warmResetSecurity _ | .warmResetDone | .bootDone _ _ => 160 * 262144 ≤ w ∧ w < 416 * 262144
  | .resyncComplete _ => w < 674 * 262144
  | .satopPacketTx _ _ | .frameStart _ => 64 * 262144 ≤ w ∧ w < 128 * 262144
  | .macFrameRx _ _ | .gfpFrame _ _ _ | .satopPacketRx _ _ | .satopPlayout _ | .satopCfg _ | .satopReserveApplied =>
    w < 128 * 262144
  | .engineMoveDone _ _ => 416 * 262144 ≤ w ∧ w < 672 * 262144
  | .mergeUnitArrival _ _ _ | .mergePlayout _ | .mergeResizeApplied _ => w < 64 * 262144
  | .unfenceDone _ => ∃ x, s.dev.plane.unfence = some x
  | .porNAssert _ | .railUndervoltage | .registerWrite _ _ _ _ | .aliasWrite _ _ _ _ | .rsSeqClear _ _ _ | .cfgCommitDone
  | .jyControlMessage _ _ => True
  | _ => False

/-- No command of a family changes a part of the device outside those that `f` names for it. -/
def Touches (f : Instr → Option (List Part)) : Prop :=
  ∀ (s t : State) (c : Instr) (T : List Part), f c = some T → exec c s = .next t → t.dev.mask T = s.dev.mask T

end Sys2Proof.Claim

open Sys2Proof Sys2Proof.Machine Sys2Proof.Claim
/-! ### The block as a whole -/

/-- Every step runs the command at the front of the queue on the queue's rest.
The idle step is the model's choice (log entry 3). -/
def Obligations.StepRunsFrontCommand : Prop :=
  ∀ (s : State) (c : Instr) (rest : List Instr), step { s with pending := c :: rest } = exec c { s with pending := rest }

/-- Every command that can be sent, in every state, answers a next state with the queue as it was (no refusal, no fault); a
descriptor whose body is not 56 bytes is none (R10), and its command faults by name.
That a body of another length faults is the model's choice (log entry 14). -/
def Obligations.EveryCommandCompletes : Prop :=
  ∀ (s : State) (c : Instr),
    (∀ b, descOf c = some b → b.body.length ≠ 56 → exec c s = .fault .malformedDescriptor)
    ∧ ((∀ b, descOf c = some b → b.body.length = 56) → Answers c s fun t => t.pending = s.pending)

/-- What reset leaves (R487 and the reset columns of the maps): POR_N low, every lane OFF, every port unconfigured, every queue
empty and idle, no ODU, VC-4, selector or merge group, both planes DUAL with no fence, no ring enabled, no link up, the TSU in
FREE_RUN, every register of the maps at its reset value; and storage memory is in its canonical form with nothing listed.
Where the manual gives no reset value the value is the model's (log entries 5, 10, 11, 12, 21 to 24). -/
def Obligations.ResetIsAsStated : Prop :=
  let d := State.reset.dev
  d.life = .por ∧ d.porLow = true ∧ State.reset.pending = [] ∧ State.reset.mem = [] ∧ Memory.wf State.reset.mem = true
  ∧ (∀ l, (d.lane l).bstate = .off) ∧ (∀ p, (d.port p).format = 0) ∧ (∀ q, (d.queue q).items = [])
  ∧ (∀ o, d.odu o = none ∧ d.vc4 o = none ∧ d.sel o = none ∧ d.group o = none)
  ∧ d.planeState = 0 ∧ (∀ u, d.fenced u = false) ∧ (∀ r, (d.ring r).fetchStop = false) ∧ d.host.up = false ∧ d.host.jobs = []
  ∧ d.tsu.st = 0 ∧ (∀ j, (d.link j).st = 0) ∧ (∀ a, d.reg a = resetOf a)
  ∧ d.reg (aRing 8 0x08) = 0x01000060 ∧ d.ringOn 8 = false

/-- The storage memories keep their canonical form at every step of every state that has it (a word that holds its reset
contents is not listed, and no cell twice), so that equal memories are equal data.
The reset contents of a word are the model's choice (log entry 5). -/
def Obligations.MemoryKeepsItsForm : Prop :=
  ∀ s t : State, Memory.wf s.mem = true → step s = .next t → Memory.wf t.mem = true

/-- A device that does not run takes no command of its traffic, timing, protection, security or fault blocks: the state stays
as it is (R488: the blocks act from the end of boot).
That such a command leaves the state as it is, is read from R488 (log entry 93). -/
def Obligations.OnlyARunningDeviceActs : Prop :=
  ∀ (s : State) (c : Instr), s.dev.life ≠ .running → anyLife c = false → (∀ b, descOf c = some b → b.body.length = 56) →
    exec c s = .next s

/-- The commands of lanes, ports, queues, framers, overhead, defects, mapping and circuits change no part of the device but
those that `touchedLine` names: no other table, no master, no link, no supply, no fence but where named. -/
def Obligations.LineCommandsTouchTheirOwn : Prop := Touches touchedLine

/-- The commands of the cross-connect, protection, merge, the plane selectors and the packet path change no part of the device
but those that `touchedService` names. -/
def Obligations.ServiceCommandsTouchTheirOwn : Prop := Touches touchedService

/-- The commands of the TSU, calibration, the engines, storage, faults and the security processor change no part of the device
but those that `touchedUnit` names. -/
def Obligations.UnitCommandsTouchTheirOwn : Prop := Touches touchedUnit

/-- The commands of the host interface, the registers, the Jersey links, the supplies, the resets and the test port change no
part of the device but those that `touchedOutside` names. -/
def Obligations.OutsideCommandsTouchTheirOwn : Prop := Touches touchedOutside

/-- Every byte of storage is unchanged by a command except the bytes of the words that it can store to (`mayStore`). -/
def Obligations.StorageChangesOnlyWhereStored : Prop :=
  ∀ (s t : State) (c : Instr) (a : Nat), exec c s = .next t → ¬ mayStore c s t (a / 9) → readCell t.mem a = readCell s.mem a

/-- A command that reports in a block of its own changes no register but those of that report and those of the host queue
engine's block (0x1_0000 to 0x1_FFFF), where its events and its completion count. Acquisition on a lane whose lane PCS lock needs
more than clock recovery reports nothing, and changes no register. -/
def Obligations.RegistersKeptByReports : Prop :=
  (∀ (s t : State) (c : Instr) (rs : List Nat) (a : Nat), ownRegs c = some rs → exec c s = .next t → a ∉ rs →
    (a < 0x10000 ∨ 0x20000 ≤ a) → t.dev.reg a = s.dev.reg a)
  ∧ ∀ (s t : State) (l : Fin 64) (ppm : Int) (a : Nat), s.dev.cdrOnly l = false → exec (.laneAcquired l ppm) s = .next t →
    t.dev.reg a = s.dev.reg a
/-! ### Lanes, ports and their queues -/

/-- The bring-up of a lane, event by event (R70–R72, R330): LANE_CAL_COMPLETE, LANE_CAL_ABORT, LANE_ACQUIRED, ACQ_RETRY,
LANE_LOCKED, LANE_CDR_LOST and LANE_LOST move BSTATE as R70 draws it, and no other lane moves. A lane whose lane PCS lock is
clock recovery alone goes on to LOCKED as it acquires (R72); an aligning port of one lane is ALIGNED as soon as that is LOCKED
(R74); where the lost lane's port was ALIGNED, its lanes send no more. -/
def Sys2Proof.Claim.LaneBringUpMovesAsDrawn : Prop :=
  ∀ (s : State) (l : Fin 64), s.dev.life = .running →
    let x := s.dev.lane l
    let acquire : Lane := { x with bstate := .acquire, cdrLock := false, pcsLock := false, acqSince := s.dev.now }
    let alone := fun p => (s.dev.port p).lanes = 1 ∧ (s.dev.port p).astate = .aligning
    let locks := fun (c : Instr) (y : Lane) =>
      ((∀ p, s.dev.laneOwner l = some p → ¬ alone p) → Answers c s fun t => LaneIs s t l y ∧ EventSet t (aLane l 4) 0)
      ∧ (s.dev.laneOwner l = some l.val → (s.dev.port l).format ≠ 0 → alone l → Answers c s fun t =>
          (t.dev.port l).astate = .aligned ∧ { t.dev.lane l with sending := y.sending } = y
          ∧ (∀ k : Nat, k ≠ l → t.dev.lane k = s.dev.lane k) ∧ EventSet t (aLane l 4) 0)
    (x.bstate = .cal →
      (∀ o, Answers (.laneCalComplete l o) s fun t => LaneIs s t l { acquire with offsets := some o, calOk := true })
      ∧ Answers (.laneCalAbort l) s fun t => LaneIs s t l { acquire with calOk := false } ∧ EventSet t (aLane l 4) 3)
    ∧ (x.bstate = .acquire →
      (∀ ppm : Int, ppm.natAbs ≤ 200 →
        let wait : Lane := { x with bstate := .pcsWait, cdrLock := true, waitSince := s.dev.now }
        (s.dev.cdrOnly l = false → Answers (.laneAcquired l ppm) s fun t => LaneIs s t l wait)
        ∧ (s.dev.cdrOnly l = true → locks (.laneAcquired l ppm) { wait with bstate := .locked, pcsLock := true }))
      ∧ (x.acqSince + acqBound x.rate ≤ s.dev.now → Answers (.acqRetry l) s fun t =>
        LaneIs s t l acquire ∧ t.dev.reg (aLane l 0x1C) = countUp (s.dev.reg (aLane l 0x1C)) 0 32 1))
    ∧ (x.bstate = .pcsWait →
      locks (.laneLocked l) { x with bstate := .locked, pcsLock := true }
      ∧ Answers (.laneCdrLost l) s fun t => LaneIs s t l acquire)
    ∧ (x.bstate = .locked → ∀ cdr, let lost : Lane := { acquire with cdrLock := !cdr }
      ((∀ p, s.dev.laneOwner l = some p → (s.dev.port p).astate ≠ .aligned) →
        Answers (.laneLost l cdr) s fun t => LaneIs s t l lost ∧ EventSet t (aLane l 4) 1)
      ∧ ∀ p, s.dev.laneOwner l = some p → l.val ∈ s.dev.portLanes p → (s.dev.port p).astate = .aligned →
        Answers (.laneLost l cdr) s fun t => (t.dev.port p).astate = .aligning ∧ EventSet t (aLane l 4) 1
          ∧ t.dev.lane l = lost.quiet
          ∧ ∀ k : Nat, k ≠ l → t.dev.lane k = if k ∈ s.dev.portLanes p then (s.dev.lane k).quiet else s.dev.lane k)

/-- PORT_ALIGNED and SKEW_MEASUREMENT (R74, R75): a port whose lanes are all LOCKED becomes ALIGNED where its skew is at most
512, and SKEW_FAIL with its event where it is more; an aligned port shows each measurement, and leaves ALIGNED where the
skew exceeds 512 or the order of its lanes, more than one, changed. -/
def Sys2Proof.Claim.PortAlignsWithinSkewLimit : Prop :=
  ∀ (s : State) (p : Fin 64) (skew : Nat), s.dev.life = .running → (s.dev.port p).format ≠ 0 →
    let shown := s.dev.shownSkew p skew
    ((s.dev.port p).astate = .aligning → s.dev.lanesLocked p = true →
      (shown ≤ 512 → Answers (.portAligned p skew) s fun t =>
        (t.dev.port p).astate = .aligned ∧ (t.dev.port p).skew = shown)
      ∧ (512 < shown → Answers (.portAligned p skew) s fun t =>
        (t.dev.port p).astate = .skewFail ∧ (t.dev.port p).skew = shown ∧ EventSet t (aPort p 4) 3))
    ∧ ((s.dev.port p).astate = .aligned → ∀ order, Answers (.skewMeasurement p skew order) s fun t =>
        (t.dev.port p).skew = shown
        ∧ (t.dev.port p).astate =
          if order = true ∧ (s.dev.port p).lanes ≠ 1 ∨ 512 < shown then .aligning else .aligned)

/-- LANE_CFG (R82): a legal setting is in force on its lane; a lane with ENABLE 0 or RATE 0 is OFF, and one that was OFF or
whose rate, loopback or inversion moved starts bring-up in CAL or ACQUIRE by RX_CAL. -/
def Sys2Proof.Claim.LaneCfgSetsItsLane : Prop :=
  ∀ (s : State) (c : Desc), Served 0x10 c s.dev →
    let l := c.u8 0
    let x := s.dev.lane l
    let ctrl := BitVec.ofNat 8 (c.u8 2)
    l ≤ 63 → (c.u8 1 ≤ 9 ∨ c.u8 1 ≤ 12 ∧ 48 ≤ l) → c.u8 2 ≤ 31 → c.u8 3 ≤ 2 → c.u8 5 ≤ 63 → c.u8 7 ≤ 1 →
    -16 ≤ signed 8 (c.u8 4) → signed 8 (c.u8 4) ≤ 15 → -16 ≤ signed 8 (c.u8 6) → signed 8 (c.u8 6) ≤ 15 →
    (∀ i, 8 ≤ i → i ≤ 55 → c.u8 i = 0) → (signed 8 (c.u8 4)).natAbs + c.u8 5 + (signed 8 (c.u8 6)).natAbs ≤ 63 →
    (c.u8 1 = x.rate ∨ s.dev.laneOwner l = none) →
    Answers (.laneCfg c) s fun t =>
      let y := t.dev.lane l
      y.rate = c.u8 1 ∧ y.ctrl = ctrl ∧ y.loopback = c.u8 3 ∧ y.txPre = BitVec.ofNat 8 (c.u8 4)
      ∧ y.txMain = BitVec.ofNat 8 (c.u8 5) ∧ y.txPost = BitVec.ofNat 8 (c.u8 6) ∧ y.rxAdapt = BitVec.ofNat 8 (c.u8 7)
      ∧ (ctrl.getLsbD 0 = false ∨ c.u8 1 = 0 → y.bstate = .off)
      ∧ (ctrl.getLsbD 0 = true → c.u8 1 ≠ 0 →
          (x.bstate = .off ∨ c.u8 1 ≠ x.rate ∨ c.u8 3 ≠ x.loopback ∨ ctrl.getLsbD 1 ≠ x.ctrl.getLsbD 1) →
          y.bstate = if ctrl.getLsbD 3 then .cal else .acquire)

/-- PORT_CFG (R66, R74, R83): a legal setting of a disabled port enables it with its lanes, format, OTUCn count, FEC, SHED and
SKEW_WARN, aligning, or aligned where its one lane is LOCKED; ENABLE 0 or format 0 on an enabled port that nothing holds returns
it to its reset state. -/
def Sys2Proof.Claim.PortCfgEnablesAndDisables : Prop :=
  ∀ (s : State) (c : Desc), Served 0x11 c s.dev →
    let p := c.u8 0
    let lanes := c.u8 1
    let f := c.u8 2
    let rate := (s.dev.lane p).rate
    p ≤ 63 → c.u8 5 ≤ 3 → (∀ i, 8 ≤ i → i ≤ 55 → c.u8 i = 0) →
    (c.bit 5 0 = true → f ≠ 0 → s.dev.portOn p = false → lanes ∈ [1, 2, 4, 8] → formatKind f ≠ 0 →
      (if f = 1 then 1 ≤ c.u8 3 ∧ c.u8 3 ≤ 16 else c.u8 3 = 0) → c.u8 4 ≤ 3 → 16 ≤ c.u16 6 → c.u16 6 ≤ 512 →
      p % lanes = 0 → (∀ i, i < lanes → (s.dev.lane (p + i)).rate = rate ∧ s.dev.laneOwner (p + i) = none) →
      formatOk f lanes rate (c.u8 4) = true → (f ≠ 1 ∨ c.u8 3 ≤ if rate = 1 then 2 * lanes else lanes) →
      s.dev.portBlocked p f lanes (c.u8 3) = none →
      Answers (.portCfg c) s fun t =>
        let q := t.dev.port p
        q.lanes = lanes ∧ q.format = f ∧ q.otucN = c.u8 3 ∧ q.fec = c.u8 4 ∧ q.shed = c.bit 5 1 ∧ q.skewWarn = c.u16 6
        ∧ q.astate = if lanes = 1 ∧ (t.dev.lane p).bstate = .locked then .aligned else .aligning)
    ∧ ((f = 0 ∨ c.bit 5 0 = false) → s.dev.portOn p = true → s.dev.portBlocked p 0 0 0 = none →
      Answers (.portCfg c) s fun t => t.dev.port p = { frozenUrg := (s.dev.port p).frozenUrg })

/-- What a lane of port p transmits for a word of its egress queue: the word, with its data bits unchanged on an OTN or SDH
lane; on an Ethernet lane idle for what is left of a broken packet (R79), and an error block in place of a poisoned word
(R241). -/
def Sys2Proof.Claim.sentFor (d : Dev) (l p : Nat) (x : QItem) : Out :=
  let own := (d.lane l).onRecovered
  if isEth (d.port p).format then
    if (d.port p).pktTx = .broken && (d.port p).pktTx.next x ≠ .inside then .laneFill l .idle own
    else if x.p then .laneFill l .error own
    else .laneWord l x.d false own
  else .laneWord l x.d x.p own

/-- The edge queues and the codewords of a lane (R76–R81): a word of a LOCKED lane of an ALIGNED port enters its ingress
queue in the lane's turn, an error block in its place after an uncorrectable codeword of an aligned Ethernet port; a lane in line
loopback sends it back; a lane that sends transmits the oldest word of its egress queue, on the clock of TX_TIMING, and
counts an underrun where it holds none; a codeword counts as corrected or as uncorrectable. An enabled lane of no port sends
PRBS31 (R73). -/
def Sys2Proof.Claim.LaneWordsCrossTheEdgeQueues : Prop :=
  ∀ (s : State) (l : Fin 64), s.dev.life = .running →
    let x := s.dev.lane l
    (s.dev.laneOwner l = none → x.bstate ≠ .off → x.loopback = 0 → Answers (.egressWordPop l) s fun t =>
      t.dev.host.out = .laneWord l (prbsWord x.prbs).1 false x.onRecovered :: s.dev.host.out
      ∧ LaneIs s t l { x with prbs := (prbsWord x.prbs).2 })
    ∧ ∀ p : Nat, s.dev.laneOwner l = some p →
      (∀ w tag, let q := s.dev.queue (.laneIn l)
        x.bstate = .locked → x.loopback ≠ 2 →
        (x.loopback = 1 → Answers (.ingressWordPush l w tag) s fun t => .laneWord l.val w false true ∈ t.dev.host.out)
        ∧ ((s.dev.port p).astate = .aligned → l.val = p + (s.dev.port p).inTurn → q.level < 1024 → q.waiting = [] →
          Answers (.ingressWordPush l w tag) s fun t => (t.dev.queue (.laneIn l)).items =
            q.items ++ [if isEth (s.dev.port p).format && x.errBlocks ≠ 0 then newItem EthBlock.error.word 4 false
              else newItem w tag false]))
      ∧ (x.sending = true → (s.dev.port p).onHold = false →
        (∀ y rest, (s.dev.queue (.laneEg l)).items = y :: rest → (s.dev.queue (.laneEg l)).waiting = [] → y.good = true →
          parityOk y.d y.c = true → (∀ a, s.dev.armMask (srcOf 10 l) 1 a = 0) → x.loopback = 0 →
          (isEth (s.dev.port p).format = true → s.dev.macSilent p = false) →
          Answers (.egressWordPop l) s fun t =>
            (t.dev.queue (.laneEg l)).items = rest ∧ t.dev.host.out.head? = some (sentFor s.dev l p y))
        ∧ ((s.dev.queue (.laneEg l)).items = [] → Answers (.egressWordPop l) s fun t =>
            t.dev.reg (aLane l 0x18) = countUp (s.dev.reg (aLane l 0x18)) 0 32 1 ∧ EventSet t (aLane l 4) 4))
      ∧ ((s.dev.port p).fec ≠ 0 →
        (Answers (.fecCodeword l true) s fun t => t.dev.reg (aLane l 0x10) = countUp (s.dev.reg (aLane l 0x10)) 0 32 1)
        ∧ Answers (.fecCodeword l false) s fun t =>
            t.dev.reg (aLane l 0x14) = countUp (s.dev.reg (aLane l 0x14)) 0 32 1 ∧ EventSet t (aLane l 4) 2
            ∧ (isEth (s.dev.port p).format = true → (s.dev.port p).astate = .aligned →
              (t.dev.lane l).errBlocks = codewordBlocks))

/-- The fall-through queues (R44–R52): a push into a queue with room appends its item, a read whose item is sound takes the
oldest one (and keeps it for REWIND where mark and rewind are enabled), REWIND puts what was read back in front, RELEASE gives it up, and
the expiry of QTIMEOUT is noted once; REWIND and RELEASE do nothing to a queue without mark and rewind. An engine's input
queue is stated where no message waits for it in the tap register or at the bus matrix, which enters as the pop frees its
entry. -/
def Sys2Proof.Claim.QueuesAreFirstInFirstOut : Prop :=
  ∀ (s : State) (q : QId), s.dev.life = .running → s.dev.qDead q = false →
    let f := s.dev.queue q
    (∀ w tag p, f.level < q.cap → f.waiting = [] → Answers (.queuePush q w tag p) s fun t =>
      (t.dev.queue q).items = f.items ++ [newItem w tag p] ∧ (t.dev.queue q).held = f.held)
    ∧ (∀ x rest u, f.items = x :: rest → f.waiting = [] → (x.upset u).good = true →
      parityOk (x.upset u).d (x.upset u).c = true → (∀ a, s.dev.armMask q.owner.1 q.owner.2.1.val a = 0) →
      (∀ g, q = .twIn g → (s.dev.engine g).tapBusy = false ∧ s.dev.mx.waiting = []) →
      Answers (.queuePop q u) s fun t =>
        (t.dev.queue q).items = rest ∧ (t.dev.queue q).held = if q.mr then f.held ++ [x.upset u] else f.held)
    ∧ (q.mr = true → (Answers (.rewind q) s fun t => (t.dev.queue q).items = f.held ++ f.items ∧ (t.dev.queue q).held = [])
      ∧ (f.waiting = [] → Answers (.release q) s fun t => (t.dev.queue q).items = f.items ∧ (t.dev.queue q).held = []))
    ∧ (q.mr = false → exec (.rewind q) s = .next s ∧ exec (.release q) s = .next s)
    ∧ (∀ n, fld (s.dev.reg (qbase q + 4)) 0 16 = n → n ≠ 0 → f.items ≠ [] → f.expired = false → f.since + 16 * n ≤ s.dev.now →
      Answers (.queueTimeout q) s fun t => (t.dev.queue q).expired = true ∧ EventSet t (qbase q + 8) 2)

/-- Lanes come up and ports align, as the two statements above say. -/
def Obligations.LanesAndPortsComeUp : Prop := LaneBringUpMovesAsDrawn ∧ PortAlignsWithinSkewLimit

/-- LANE_CFG and PORT_CFG, as the two statements above say. -/
def Obligations.LaneAndPortSettingsTakeEffect : Prop := LaneCfgSetsItsLane ∧ PortCfgEnablesAndDisables

/-- The edge queues and every fall-through queue, as the two statements above say. -/
def Obligations.QueuesCarryInOrder : Prop := LaneWordsCrossTheEdgeQueues ∧ QueuesAreFirstInFirstOut

/-! ### Framers and multiframes -/

/-- A framer of a port in OOF opens a candidate at a match that no candidate covers, at the lowest matching bit phase (R90),
and enters IF when the candidate passes its check (R91–R94); in IF a good FAS position clears the run of errors, a bad one
counts (where the port's framers run in a plane, R88), and the run that R95 names for the
format returns it to OOF, as a SLIP mark returns every framer of its port. A slice of a FlexO instance that is not locked reaches
no frame (R99). -/
def Sys2Proof.Claim.PortFramersSearchAndHold : Prop :=
  ∀ (s : State) (p : Fin 64) (sl : Fin 16), s.dev.life = .running →
    let k := 16 * p.val + sl.val
    let f := s.dev.framer k
    let covered := fun pos : Nat => ∃ c ∈ f.cands, c.pos % s.dev.frameLen p = pos % s.dev.frameLen p
    (∀ pos bits, s.dev.framerAt k = true → f.inFrame = false → f.stopped = false → s.dev.flexoOk k = true → f.scanFrom ≤ pos →
      f.cands.length < 2 →
      (∀ ph, s.dev.matchPhase p bits = some ph → ¬ covered pos → Gives (.scanMatch (.port p sl) ⟨pos, bits⟩) s
        (s.dev.updFramer k fun _ => { f with scanFrom := pos + 1, cands := f.cands ++ [{ pos := pos, phase := ph }] }))
      ∧ (s.dev.matchPhase p bits = none ∨ covered pos → Gives (.scanMatch (.port p sl) ⟨pos, bits⟩) s
        (s.dev.updFramer k fun _ => { f with scanFrom := pos + 1 })))
    ∧ (∀ pos ph bits, s.dev.framerAt k = true → f.inFrame = false → f.stopped = false → s.dev.flexoOk k = true →
      f.cands = [{ pos := pos, phase := ph }] →
      (fasAt bits ph = true → Answers (.candidateCheck (.port p sl) [(pos, bits)]) s fun t =>
        (t.dev.framer k).inFrame = true ∧ (t.dev.framer k).phase = ph ∧ (t.dev.framer k).err = 0 ∧ (t.dev.framer k).cands = [])
      ∧ (fasAt bits ph = false → Gives (.candidateCheck (.port p sl) [(pos, bits)]) s
        (s.dev.updFramer k fun _ => { f with cands := [], scanFrom := max f.scanFrom (pos + s.dev.frameLen p + 1) })))
    ∧ (s.dev.framerAt k = true → f.inFrame = true → ∀ pos bits,
      (fasAt bits f.phase = true →
        Gives (.fasPosition p sl bits pos) s (s.dev.updFramer k fun f => { f with err := 0 }))
      ∧ (fasAt bits f.phase = false → f.err + 1 < nOof (s.dev.port p).format →
        Answers (.fasPosition p sl bits pos) s fun t =>
          (t.dev.framer k).err = f.err + 1 ∧ (t.dev.framer k).inFrame = true
          ∧ (s.dev.frRuns p = true → t.dev.reg (aPort p 0x1C) = countUp (s.dev.reg (aPort p 0x1C)) 0 32 1))
      ∧ (fasAt bits f.phase = false → nOof (s.dev.port p).format ≤ f.err + 1 →
        Answers (.fasPosition p sl bits pos) s fun t =>
          (t.dev.framer k).inFrame = false ∧ (t.dev.framer k).scanFrom = pos + 1))
    ∧ (∀ pos, Answers (.slipMark p pos) s fun t => ∀ j ∈ s.dev.framersOf p,
        (t.dev.framer j).inFrame = false ∧ (t.dev.framer j).scanFrom = pos)

/-- MFAS, the FlexO multiframe indicator, OMFI and H4 (R97–R101): each aligner locks on the second value in sequence, follows
its modulus (256, 256, 80, 4), and loses lock on its last consecutive mismatch (5, 5, 5, 4).
The modulus of the FlexO indicator is presumed (log entry 51); that instances beyond n do not count, and that a value which is
no OMFI is no first value of a search, are the model's choice (log entry 97). -/
def Obligations.MultiframeAlignersLockAndLose : Prop :=
  ∀ s : State, s.dev.life = .running →
    (∀ (p : Fin 64) (sl : Fin 16) (v : Byte), let k := 16 * p.val + sl.val
      s.dev.framerAt k = true → (s.dev.framer k).inFrame = true → isOtn (s.dev.port p).format = true →
      (sl = 0 ∨ (s.dev.framer k).skewRun + 1 < 5) →
      Answers (.mfas p sl v) s fun t =>
        MfMoves 256 5 (s.dev.framer k).mf v.toNat (t.dev.framer k).mf ∧ (t.dev.framer k).mfas = v.toNat)
    ∧ (∀ (p : Fin 64) (i : Fin 16) (v : Byte), (s.dev.port p).format = 1 → i.val < (s.dev.port p).otucN →
      (s.dev.port p).astate = .aligned → (s.dev.port p).onHold = false →
      Answers (.flexoMfIndicator p i v) s fun t =>
        MfMoves 256 5 (tget {} s.dev.flexo (16 * p + i)) v.toNat (tget {} t.dev.flexo (16 * p + i)))
    ∧ (∀ (o : Fin 4096) (v : BitVec 7) x p, s.dev.odu o = some x → s.dev.oduPort 5 o = some p → x.usesOmfi = true →
      s.dev.portMfLock p = true →
      Answers (.omfi o v) s fun t => ∃ y, t.dev.odu o = some y ∧ MfMoves 80 5 x.omfi v.toNat y.omfi)
    ∧ (∀ (v : Fin 512) (h : BitVec 2) x, s.dev.vc4 v = some x → x.struct = true → x.ptr.st = 1 →
      s.dev.portInFrame (s.dev.feedPort x.port) = true →
      Answers (.h4 v h) s fun t => ∃ y, t.dev.vc4 v = some y ∧ MfMoves 4 4 x.h4 h.toNat y.h4)

/-- The E1 framer (R102–R104): its candidates, entry to IF_BASIC on the second check, OOF on the third errored FAS in a row,
IF_MF on the second multiframe signal at one phase in modes 2 and 3, IF_BASIC again on the fourth missing one, OOF on 915 errored of the
last 1,000 sub-multiframes, the restart after 8 ms in IF_BASIC, and NO_CRC4 after 400 ms in mode 3. -/
def Sys2Proof.Claim.E1FramerMovesAsStated : Prop :=
  ∀ (s : State) (e : Fin 8064), s.dev.life = .running →
    let x := s.dev.e1 e
    let mode := s.dev.e1Framing e
    (x.st = .oof →
      (∀ pos bits, x.scanFrom ≤ pos → x.cands.length < 4 → (∀ c ∈ x.cands, c.pos % 512 ≠ pos % 512) → x.ban = none →
        bits.take 7 = e1FasBits →
        Answers (.scanMatch (.e1 e) ⟨pos, bits⟩) s fun t => (t.dev.e1 e).cands = x.cands ++ [{ pos := pos }])
      ∧ (∀ pos bits, x.cands = [{ pos := pos }] → bits.head? = some true →
        Answers (.candidateCheck (.e1 e) [(pos, bits)]) s fun t => (t.dev.e1 e).cands = [{ pos := pos, passed := 1 }])
      ∧ (∀ pos bits, x.cands = [{ pos := pos, passed := 1 }] → bits.take 7 = e1FasBits →
        Answers (.candidateCheck (.e1 e) [(pos, bits)]) s fun t => (t.dev.e1 e).st = .ifBasic))
    ∧ (x.st = .ifBasic ∨ x.st = .ifMf → ∀ pos,
      Gives (.e1Fas e e1FasBits pos) s (s.dev.updE1 e fun x => { x with fasPos := pos, fe := 0 })
      ∧ ∀ bits, bits ≠ e1FasBits →
        (x.fe < 2 → Answers (.e1Fas e bits pos) s fun t => (t.dev.e1 e).fe = x.fe + 1 ∧ (t.dev.e1 e).st = x.st)
        ∧ (2 ≤ x.fe → Answers (.e1Fas e bits pos) s fun t => (t.dev.e1 e).st = .oof))
    ∧ (x.st = .ifBasic →
      (mode = 2 ∨ mode = 3 → ∀ ph : Fin 8, ph.val ∈ x.mfasSeen →
        Answers (.e1Crc4Mfas e ⟨crc4MfasBits, ph⟩) s fun t => (t.dev.e1 e).st = .ifMf ∧ (t.dev.e1 e).mfPhase = ph)
      ∧ (mode = 2 ∨ mode = 3 ∧ x.noCrc4 = false → x.ifSince + 8000000 ≤ s.dev.now → Answers (.e1MfRestart e) s fun t =>
        (t.dev.e1 e).st = .oof ∧ (t.dev.e1 e).mfRestarts = min (x.mfRestarts + 1) 255))
    ∧ (x.st = .ifMf →
      (∀ ph : Fin 8, ph.val = x.mfPhase →
        (Answers (.e1Crc4Mfas e ⟨crc4MfasBits, ph⟩) s fun t => (t.dev.e1 e).me = 0 ∧ (t.dev.e1 e).st = .ifMf)
        ∧ (∀ bits, bits ≠ crc4MfasBits → 3 ≤ x.me →
          Answers (.e1Crc4Mfas e ⟨bits, ph⟩) s fun t => (t.dev.e1 e).st = .ifBasic))
      ∧ (∀ r eb, let subs := (decide (crc4 r.bits ≠ r.c.toNat) :: x.subs).take 1000
        Answers (.e1Submultiframe e r eb) s fun t =>
          (t.dev.e1 e).st = if 915 ≤ (subs.filter fun b => b).length then .oof else .ifMf))
    ∧ (∀ since, x.timer400 = some since → mode = 3 → since + 400000000 ≤ s.dev.now → x.st ≠ .ifMf →
      Answers (.e1NoCrc4 e) s fun t => (t.dev.e1 e).noCrc4 = true ∧ (t.dev.e1 e).timer400 = none)

/-- The framers of ports and of E1s, as the two statements above say. -/
def Obligations.FramersSearchAndHold : Prop := PortFramersSearchAndHold ∧ E1FramerMovesAsStated

/-! ### Overhead, defects and performance monitoring -/

/-- OVERHEAD_FRAME (R96, R114, R116, R119, R120, R122, R345): a frame of a point whose port is in frame adds its errored blocks to
the running second, its STAT is accepted on its third sight in a row, engine or none, and its PT where its engine takes the
message; a terminating point with a reverse direction sends its own overhead with the back-reports (R113, R123, R134), and the
TTI that its engine last wrote where both copies of that have stopped (R351). Out of frame it counts nothing. -/
def Sys2Proof.Claim.OverheadCountsAndIsAccepted : Prop :=
  ∀ (s : State) (m : MpId) (f : OhFrame), s.dev.life = .running →
    let k := mpKey m
    let x := s.dev.point k
    let ty := mpType m
    x.role ≠ 0 → s.dev.pointExists ty (mpIndex m) = true →
    (s.dev.framed k = true → Answers (.overheadFrame m f) s fun t =>
      let y := t.dev.point k
      y.neEb = x.neEb + nearBlocks ty f ∧ y.feEb = x.feEb + farBlocks ty f
      ∧ ((ty = 2 ∨ ty = 3) → f.stat = x.statCand → 2 ≤ x.statRun → y.stat = f.stat)
      ∧ (ty = 2 → s.dev.pointHeld k = false → TapsFree s.dev k → f.pt = some x.ptCand → 2 ≤ x.ptRun → y.pt = some x.ptCand)
      ∧ (x.role = 2 → s.dev.hasReverse k = true → t.dev.host.out.head? = some (.overhead k
          { tti := if ty = 5 ∨ ty = 8 then none
              else some (ttiByte (if s.dev.pointHeld k = true then x.wroteTti else x.sentTti ty) f.txMf)
            fields := t.dev.ohFields k f, sig := maintSig ty x.maint, poison := s.dev.deadCopies k })))
    ∧ (s.dev.framed k = false → Answers (.overheadFrame m f) s fun t =>
      let y := t.dev.point k
      y.neEb = x.neEb ∧ y.feEb = x.feEb ∧ y.stat = x.stat ∧ y.pt = x.pt ∧ y.tti = x.tti)

/-- DEFECT_PERSISTENCE, SET_INT_EXPIRY, CLR_INT_EXPIRY and RECOVERY_EXPIRY (R125, R128, R131): a condition that has lasted
3 ms sets its defect, and its absence clears it; in Settling a defect is declared when it has been detected for SET_INT, and
cleared when it has been absent for CLR_INT; when the recovery timer expires the point is in Service with its declared
defects those it detects. -/
def Sys2Proof.Claim.DefectsPersistAndSettle : Prop :=
  ∀ (s : State) (m : MpId) (b : Fin 24), s.dev.life = .running →
    let k := mpKey m
    let x := s.dev.point k
    x.role ≠ 0 →
    (∀ on since, s.dev.pointExists (mpType m) (mpIndex m) = true → s.dev.lasting k b = some (on, since) →
      since + 3000000 ≤ s.dev.now →
      Answers (.defectPersistence m b) s fun t => (t.dev.point k).raw.getLsbD b = on)
    ∧ (x.settling = true → s.dev.pointHeld k = false →
      (x.det.getLsbD b = true → tget 0 x.changed b + x.setInt * 100000000 ≤ s.dev.now →
        Answers (.setIntExpiry m b) s fun t => (t.dev.point k).dec = x.dec ||| BitVec.ofNat 24 (2 ^ b.val))
      ∧ (x.det.getLsbD b = false → tget 0 x.changed b + x.clrInt * 100000000 ≤ s.dev.now →
        Answers (.clrIntExpiry m b) s fun t => (t.dev.point k).dec = x.dec &&& ~~~BitVec.ofNat 24 (2 ^ b.val))
      ∧ (x.recStart + x.recovery * 1000000000 ≤ s.dev.now →
        Answers (.recoveryExpiry m) s fun t => (t.dev.point k).settling = false ∧ (t.dev.point k).dec = x.det))

/-- PM_SECOND and PM_BIN_CLOSE (R137–R141, R345): where the engine takes the message, the second that ends is held for ten seconds
with its blocks, and its counts start again; the oldest ended bin becomes the previous one ten seconds after its end, when no
second of it is held. -/
def Sys2Proof.Claim.PerformanceSecondsAndBins : Prop :=
  ∀ (s : State) (m : MpId), s.dev.life = .running →
    let k := mpKey m
    let x := s.dev.point k
    x.role ≠ 0 → s.dev.pointHeld k = false →
    (s.dev.pointExists (mpType m) (mpIndex m) = true → TapsFree s.dev k → Answers (.pmSecond m) s fun t =>
      let y := t.dev.point k
      (∃ r, y.held = (r :: x.held).take 10 ∧ r.sec = s.dev.tsu.sec.toNat - 1 ∧ r.eb = x.neEb ∧ r.feEb = x.feEb
        ∧ r.es = (r.ses || decide (0 < x.neEb)) ∧ r.feEs = (r.feSes || decide (0 < x.feEb))) ∧ y.neEb = 0 ∧ y.feEb = 0)
    ∧ (∀ b, x.ended15.getLast? = some b → x.endOf false + 10 ≤ s.dev.tsu.sec.toNat → (∀ r ∈ x.held, x.endOf false ≤ r.sec) →
      Answers (.pmBinClose m false) s fun t =>
        (t.dev.point k).prev15 = b ∧ (t.dev.point k).ended15 = x.ended15.dropLast)
    ∧ (∀ b, x.ended24.getLast? = some b → x.endOf true + 10 ≤ s.dev.tsu.sec.toNat → (∀ r ∈ x.held, x.endOf true ≤ r.sec) →
      Answers (.pmBinClose m true) s fun t =>
        (t.dev.point k).prev24 = b ∧ (t.dev.point k).ended24 = x.ended24.dropLast)

/-- DEFECT_CFG (R143, R144): section 0 puts a legal set of parameters in force at its point, section 1 and 4 its expected TTI
and 2 and 3 its transmitted one (16 bytes of 1 and 2 on an SDH point in TIM_MODE 0 to 2), and MP_TYPE 0 sets DAY_OFFSET. -/
def Sys2Proof.Claim.DefectCfgSetsItsPoint : Prop :=
  ∀ (s : State) (c : Desc), Served 0x12 c s.dev →
    let ty := c.u8 0
    let role := c.u8 5 % 4
    let k := mpKeyOf ty (c.u8 4) (c.u16 2)
    let x := s.dev.point k
    (if ty = 3 then 1 ≤ c.u8 4 ∧ c.u8 4 ≤ 6 else c.u8 4 = 0) →
    (ty = 0 → c.u8 1 = 0 → c.u16 2 = 0 → (∀ i, 5 ≤ i → i ≤ 55 → i < 12 ∨ 16 ≤ i → c.u8 i = 0) → c.u32 12 ≤ 86399 →
      Answers (.defectCfg c) s fun t => t.dev.dayOffset = c.u32 12)
    ∧ (1 ≤ ty → ty ≤ 8 → c.u16 2 ≤ maxIndex ty →
      (c.u8 1 = 0 → role ≤ 2 → c.u8 5 < 16 → c.u8 6 ≤ 3 → s.dev.timOk ty (c.u16 2) (c.u8 6) = true →
        (if ty = 8 then c.u8 7 ≤ 3 else c.u8 7 = 0) → c.u8 9 ≤ 3 → maintOk ty (c.u8 9) role = true →
        2 ≤ c.u8 10 → c.u8 10 ≤ 10 → c.u8 11 ≤ 100 → c.u8 15 = 0 → 1 ≤ c.u16 16 → c.u16 16 ≤ 100 → 1 ≤ c.u16 18 →
        c.u16 18 ≤ 600 → 1 ≤ c.u16 20 → c.u16 20 ≤ 600 → (∀ i, 22 ≤ i → i ≤ 55 → i < 24 ∨ 34 ≤ i → c.u8 i = 0) →
        (role = 0 ∨ s.dev.pointExists ty (c.u16 2) = true ∧ s.dev.planned.pointExists ty (c.u16 2) = true) →
        (x.role = 0 → role ≠ 0 →
          (s.dev.allocate (s.dev.pointSlice k) (s.dev.pointLoad k).1 (s.dev.pointLoad k).2).isSome = true) →
        Answers (.defectCfg c) s fun t =>
          let y := t.dev.point k
          y.role = role ∧ y.timAct = c.bit 5 2 ∧ y.timMode = c.u8 6 ∧ (ty = 8 → y.e1Framing = c.u8 7) ∧ y.expPt = c.u8 8
          ∧ y.maint = c.u8 9 ∧ y.degm = c.u8 10 ∧ y.sesPct = c.u8 11 ∧ y.degThr = c.u24 12 ∧ y.setInt = c.u16 16
          ∧ y.clrInt = c.u16 18 ∧ y.recovery = c.u16 20 ∧ y.tca = [c.u16 24, c.u16 26, c.u32 28, c.u16 32])
      ∧ (1 ≤ c.u8 1 → c.u8 1 ≤ 4 → (∀ i, 5 ≤ i → i ≤ 55 → i < 8 ∨ 40 ≤ i → c.u8 i = 0) →
        Answers (.defectCfg c) s fun t =>
          let old := if c.u8 1 = 2 ∨ c.u8 1 = 3 then x.txTti else x.expTti
          let new := patchBytes ((old ++ le 64 0).take 64) (if c.u8 1 = 3 ∨ c.u8 1 = 4 then 32 else 0)
            (c.bytes 8 (if c.u8 1 ≤ 2 ∧ 4 ≤ ty ∧ x.timMode ≠ 3 then 16 else 32))
          (if c.u8 1 = 2 ∨ c.u8 1 = 3 then (t.dev.point k).txTti else (t.dev.point k).expTti) = new))

/-- Overhead, its counts, seconds and bins, as the two statements above say. -/
def Obligations.OverheadIsCountedAndSummed : Prop := OverheadCountsAndIsAccepted ∧ PerformanceSecondsAndBins

/-- DEFECT_CFG and the life of a defect, as the two statements above say. -/
def Obligations.PointsDeclareAndSettle : Prop := DefectsPersistAndSettle ∧ DefectCfgSetsItsPoint

/-! ### Mapping, pointers and justification -/

/-- MAP_CFG section 0 (R149–R151, R178, R549) and MAP_CFG_TAKES_EFFECT: a legal create makes the ODU with its operands, and a
delete of a leaf that nothing holds takes it out of the structure, at once where it is no tributary; a tributary's waits for
the frame of its server with MFAS or OMFI 0, where all that waits takes effect.
That a command is checked against what the waiting ones will leave is the reading of log entry 58. -/
def Sys2Proof.Claim.MapCfgMakesAndTakesOdus : Prop :=
  ∀ s : State,
    (∀ c : Desc, Served 0x13 c s.dev → c.u8 0 = 0 →
      let o := c.u16 2
      let x := mapOdu c
      let plan := s.dev.planned
      let wait := fun make : Option Odu => s.dev.mapJobs ++ [{ odu := o, job := s.dev.host.nextJob, make := make }]
      o ≤ 4095 →
      (c.u8 1 = 1 → x.kind ≤ 2 → kindTypes x.kind x.ty = true → payloadOk x.payload x.ty x.kind = true → x.flags < 8 →
        ((x.ty = 5 ∨ x.ty = 6) ∨ x.flags % 2 = 0) →
        (if x.ty = 5 ∨ x.ty = 6 then x.kind = 1 ∨ 1 ≤ x.flexTs ∧ x.flexTs ≤ (if x.flags % 2 = 1 then 320 else 80)
          else x.flexTs = 0) →
        x.gfpPort ≤ 127 → (x.payload = 1 ∨ x.gfpPort = 0) → plan.odu o = none →
        (x.kind = 0 → x.server ≤ 63 ∧ x.tpn = 0 ∧ x.ts = [] ∧ (s.dev.port x.server).format = (if x.ty = 4 then 2 else 1)
          ∧ plan.lineOdu x.server = none) →
        (x.kind = 1 → x.server ≤ 4095 ∧ (∃ sv, plan.odu x.server = some sv ∧ sv.payload = 0
            ∧ ∀ k ∈ serverChecks x sv (plan.serverTs x.server), k.2 = true) ∧ plan.taken x = none
          ∧ (s.dev.isLeaf x.server = false ∨ s.dev.oduInPages x.server = false)) →
        (x.kind = 2 → x.server = 0 ∧ x.tpn = 0 ∧ x.ts = [] ∧ plan.gfpTaken x.gfpPort = false) →
        (plan.setOdu o (some x)).budgetBroken = none →
        (x.kind = 1 → Answers (.mapCfg c) s fun t => t.dev.mapJobs = wait (some x) ∧ t.dev.odus = s.dev.odus)
        ∧ (x.kind ≠ 1 → Answers (.mapCfg c) s fun t => t.dev.odu o = some { x with omfi := s.dev.unlocked }
          ∧ t.dev.mapJobs = s.dev.mapJobs))
      ∧ (∀ y, c.u8 1 = 0 → plan.odu o = some y → (plan.setOdu o none).budgetBroken = none → plan.isLeaf o = true →
        s.dev.oduInPages o = false → (s.dev.point (mpKeyOf 2 0 o)).role = 0 →
        (∀ l, l < 6 → (s.dev.point (mpKeyOf 3 (l + 1) o)).role = 0) →
        (y.kind = 1 → Answers (.mapCfg c) s fun t => t.dev.mapJobs = wait none ∧ t.dev.odus = s.dev.odus)
        ∧ (y.kind ≠ 1 → Answers (.mapCfg c) s fun t => t.dev.odu o = none)))
    ∧ ∀ o : Fin 4096, s.dev.life = .running →
      (∀ j, (s.dev.mapJobs.filter (fun j => j.odu = o.val)).getLast? = some j →
        Answers (.mapCfgTakesEffect ⟨o, 0⟩) s fun t =>
          t.dev.mapJobs = s.dev.mapJobs.filter (fun j => j.odu ≠ o.val)
          ∧ t.dev.odu o = j.make.map fun x => { x with omfi := s.dev.unlocked })
      ∧ ∀ mf, mf ≠ 0 → exec (.mapCfgTakesEffect ⟨o, mf⟩) s = .next s

/-- MAP_CFG sections 1 and 2 (R156, R161, R178): a VC-4 is created with its operands or deleted, and an entry of an opened
VC-4 takes its E1 mode. -/
def Sys2Proof.Claim.MapCfgMakesVc4sAndEntries : Prop :=
  ∀ (s : State) (c : Desc), Served 0x13 c s.dev →
    (c.u8 0 = 1 → c.u8 1 = 1 →
      let p := c.u8 2
      let a := c.u8 3
      let n := c.u8 4
      let v := c.u16 6
      p ≤ 63 → isSdh (s.dev.port p).format = true → 1 ≤ a → a ≤ stmN (s.dev.port p).format → n ∈ [1, 4, 16, 64] →
      n ≤ stmN (s.dev.port p).format → (a - 1) % n = 0 → c.u8 5 ≤ 1 → (c.u8 5 = 0 ∨ n = 1) → v + n ≤ 512 → c.u8 8 ≤ 127 →
      c.u8 9 < 8 → (c.u8 5 = 1 ∨ c.u8 8 = 0 ∧ c.u8 9 = 0) → (∀ i, 10 ≤ i → i ≤ 55 → c.u8 i = 0) → s.dev.mspProt p = none →
      (∀ i, i < n → s.dev.vc4Holding (v + i) = none) →
      (∀ u ∈ s.dev.portVc4s p, ∀ y, s.dev.vc4 u = some y → y.au4 + y.concat ≤ a ∨ a + n ≤ y.au4) →
      (c.u8 5 = 0 ∨ s.dev.loVc4 (c.u8 8) = none) →
      Answers (.mapCfg c) s fun t => t.dev.vc4 v = some { port := p, au4 := a, concat := n, struct := c.u8 5 = 1, loSlot := c.u8 8, tug3 := BitVec.ofNat 8 (c.u8 9), h4 := s.dev.unlocked })
    ∧ (∀ v x, c.u8 0 = 1 → c.u8 1 = 0 → c.u8 2 ≤ 63 → s.dev.mspProt (c.u8 2) = none →
      (s.dev.portVc4s (c.u8 2)).find? (fun v => match s.dev.vc4 v with | some x => x.au4 = c.u8 3 | none => false) = some v →
      s.dev.vc4 v = some x → (∀ e ∈ (if x.struct then slotEntries x.loSlot else []), s.dev.entryHeld e = none) →
      s.dev.inEitherPage 1 v = false → s.dev.feedsAny 1 1 v = false → (s.dev.point (mpKeyOf 6 0 v)).role = 0 →
      Answers (.mapCfg c) s fun t => t.dev.vc4 v = none)
    ∧ (c.u8 0 = 2 →
      let e := c.u16 2
      let m := c.u8 4
      c.u8 1 = 0 → e ≤ 8063 → m ≤ 3 → (m = 0 ∨ s.dev.isVc3 e = false) → (∀ i, 5 ≤ i → i ≤ 55 → c.u8 i = 0) →
      s.dev.entryExists e = true → (m = 3 ∨ (s.dev.circuit e).made = false) →
      (m ≠ 0 ∨ (s.dev.point (mpKeyOf 8 0 e)).role = 0) →
      Answers (.mapCfg c) s fun t => (t.dev.lo e).e1Mode = m)

/-- GMP, AMP, C-12 and the rate alarms (R152–R154, R161–R167, R176, R177): in frame, a valid in-range Cm is in force and an
unreadable JC counts, and the mapper sends the Cm and ΣCnD of the bytes that wait; AMP in frame acts on the majority and takes
NJO and PJO where they are data, and sends by its store's fill, or alarms for a client beyond ±20 ppm; C1 and C2 follow the fill
of the C-12 store, the desynchroniser gains what the C-12 delivers, or all ones while the E1 is AIS, and loses what is sent, or
resets with a slip at either end; an alarm clears after 1 s within range.
The numbers of the range of Cm are presumed (log entries 37 and 101), and so are the CRCs of the JC bytes. -/
def Sys2Proof.Claim.JustificationFollowsFills : Prop :=
  ∀ s : State, s.dev.life = .running →
    (∀ (o : Fin 4096) x sv (jc12 : BitVec 16) (jc3 : Byte) (jc456 : BitVec 24) n, s.dev.odu o = some x → s.dev.serverTy o = some sv → (sv = 7 ∨ sv = 4) →
      let b := fun i : Nat => byteOf ((jc456 ++ jc3 ++ jc12).setWidth 64) i
      let cm := (b 0).toNat * 64 + (b 1).toNat / 4
      let good := jcCrc8 (b 0) (b 1) = (b 2).toNat ∧ cmOk x sv cm = true
      let unit := (gmpServer sv).2.1 * x.ts.length
      let total := x.cndTx + n
      let sent := max (cmRange x sv).1 (min (cmRange x sv).2 (total / unit))
      Answers (.gmpMultiframe o jc12 jc3 jc456 n) s fun t => ∃ y, t.dev.odu o = some y
        ∧ (s.dev.oduFramed o = true → (good → y.cm = cm ∧ y.jcBad = false)
          ∧ (¬ good → y.cm = x.cm ∧ y.jcBad = true ∧ y.jcErr = min (x.jcErr + 1) 255)
          ∧ y.cnd = (if jcCrc5 (b 3) (b 4) = (b 5).toNat % 32 then (b 3).toNat % 32 * 32 + (b 4).toNat % 32 else x.cnd))
        ∧ (s.dev.oduFramed o = false → y.cm = x.cm ∧ y.cnd = x.cnd ∧ y.jcErr = x.jcErr)
        ∧ y.cmTx = sent ∧ y.cndTx = (if total / unit = sent then total % unit else 0)
        ∧ .justification o (x.ts.foldl max 0) (jcBytes sent y.cndTx (decide (sent ≠ x.cmTx))) ∈ t.dev.host.out)
    ∧ (∀ (o : Fin 4096) x a b c njo pjo fill ppm, s.dev.odu o = some x → s.dev.serverTy o = some 2 →
      let tx := if 20 ≤ fill then 1 else if fill ≤ 12 then 3 else 0
      (s.dev.oduFramed o = true → 0 < fill → fill ≤ 32 → -20 ≤ ppm → ppm ≤ 20 →
        Answers (.ampJc o ⟨(a, b, c), njo, pjo⟩ ⟨fill, ppm⟩) s fun t =>
          ∃ y, t.dev.odu o = some y ∧ y.jcRx = jcActs a b c ∧ y.jcTx = tx
          ∧ t.dev.host.out = .ampTx o tx (tx = 1) (tx = 0 ∨ tx = 1) :: .ampRx o
            ((if jcActs a b c = 1 then [njo] else []) ++ (if jcActs a b c ≠ 3 then [pjo] else [])) :: s.dev.host.out)
      ∧ (ppm < -20 ∨ 20 < ppm → Answers (.ampJc o ⟨(a, b, c), njo, pjo⟩ ⟨fill, ppm⟩) s fun t =>
        ∃ y, t.dev.odu o = some y ∧ y.rateAlarm = true ∧ y.inRange = s.dev.now))
    ∧ (∀ (n : Fin 8064) x, s.dev.odu n = some x → x.rateAlarm = true → x.inRange + 1000000000 ≤ s.dev.now →
      Answers (.rateAlarmClear true n) s fun t => ∃ y, t.dev.odu n = some y ∧ y.rateAlarm = false)
    ∧ ∀ e : Fin 8064, let x := s.dev.lo e
      (x.rateAlarm = true → x.inRange + 1000000000 ≤ s.dev.now →
        Answers (.rateAlarmClear false e) s fun t => (t.dev.lo e).rateAlarm = false)
      ∧ (∀ bits, x.e1Mode = 2 ∨ x.e1Mode = 3 →
        let c := if 20 ≤ x.mapFill then 0 else if 13 ≤ x.mapFill then 1 else 3
        let n := if x.e1Mode = 3 then (e1Clock x.mapPhase (s.dev.circuit e).dev).1 else x.arrived
        let ones := x.e1Mode = 3 ∧ (s.dev.circuit e).lops = true
        Answers (.c12MultiframeMap e bits) s fun t =>
          (t.dev.lo e).cBits = c ∧ (t.dev.lo e).mapFill = min (x.mapFill + n - e1Bits c) 32 ∧ (t.dev.lo e).arrived = 0
          ∧ .c12 e (c12Bytes c ((List.range (e1Bits c)).map fun i => if ones then true else bits.getD i true))
              ∈ t.dev.host.out)
      ∧ (∀ v j nk, x.e1Mode ≠ 0 →
        let ais := s.dev.e1Ais e
        let bits := if ais then List.replicate 1024 true else if s.dev.loFramed e then c12Read (v ++ j ++ nk) else []
        let sent := ((x.leakTo s.dev.now).desyncStep bits.length ais).2.1
        let fill : Int := x.desync + bits.length - sent
        Answers (.c12MultiframeDemap e v j nk) s fun t => .e1 e bits ais ∈ t.dev.host.out
          ∧ if fill ≤ 0 ∨ 256 ≤ fill then (t.dev.lo e).desync = 128 ∧ (t.dev.lo e).slips = min (x.slips + 1) 255
            else (t.dev.lo e).desync = fill.toNat)

/-- Bits `is` of a pointer word are inverted against the offset in force. -/
def Sys2Proof.Claim.inverted (off : Nat) (w : BitVec 16) (is : List Nat) : Nat := bitsAt (w.toNat % 1024 ^^^ off) is

/-- A pointer word says an increment: NDF disabled, at least 3 I bits inverted and fewer D bits; a decrement with the two
exchanged (R158). -/
def Sys2Proof.Claim.Step (off : Nat) (w : BitVec 16) (up : Bool) : Prop :=
  w ≠ 0xFFFF ∧ ndfOf (w.toNat / 4096) = some false
  ∧ 3 ≤ inverted off w (if up then [9, 7, 5, 3, 1] else [8, 6, 4, 2, 0])
  ∧ inverted off w (if up then [8, 6, 4, 2, 0] else [9, 7, 5, 3, 1]) < 3

/-- Pointer interpretation and generation (R96, R158, R160): in frame, in NORM three frames after a change, an increment or decrement moves
the offset by one modulo the pointer's range, NDF with an offset in range is taken at once and the third AIS ends NORM; the
generator moves its offset by the fill of its store at most once in four frames.
The concatenation indication, the places of the bits of a pointer word and NDF with a bit in error are presumed (log entries 61
and 104). -/
def Sys2Proof.Claim.PointersMoveByOne : Prop :=
  ∀ s : State, s.dev.life = .running →
    (∀ (v : Fin 512) x, s.dev.vc4 v = some x → x.concat = 1 → x.ptr.st = 1 → s.dev.portInFrame (s.dev.feedPort x.port) = true →
      ∀ w others, (2 ≤ x.ptr.sinceChange → Step x.ptr.off w true → Answers (.pointerFrame (.au v) w others) s fun t =>
        ∃ y, t.dev.vc4 v = some y ∧ y.ptr.off = (x.ptr.off + 1) % 783 ∧ y.ptr.st = 1 ∧ y.ptr.inc = min (x.ptr.inc + 1) 255)
      ∧ (2 ≤ x.ptr.sinceChange → Step x.ptr.off w false → Answers (.pointerFrame (.au v) w others) s fun t =>
        ∃ y, t.dev.vc4 v = some y ∧ y.ptr.off = (x.ptr.off + 782) % 783 ∧ y.ptr.st = 1 ∧ y.ptr.dec = min (x.ptr.dec + 1) 255)
      ∧ (w ≠ 0xFFFF → ndfOf (w.toNat / 4096) = some true → w.toNat % 1024 ≤ 782 → x.ptr.ndfRun < 7 →
        Answers (.pointerFrame (.au v) w others) s fun t =>
          ∃ y, t.dev.vc4 v = some y ∧ y.ptr.off = w.toNat % 1024 ∧ y.ptr.st = 1)
      ∧ (2 ≤ x.ptr.aisRun → Answers (.pointerFrame (.au v) 0xFFFF others) s fun t =>
        ∃ y, t.dev.vc4 v = some y ∧ y.ptr.st = 2))
    ∧ (∀ e : Fin 8064, s.dev.entryExists e = true → (s.dev.lo e).ptr.st = 1 → s.dev.loFramed e = true → ∀ w others,
      let top := if s.dev.isVc3 e then 764 else 139
      let off := (s.dev.lo e).ptr.off
      2 ≤ (s.dev.lo e).ptr.sinceChange →
      (Step off w true → Answers (.pointerFrame (.tu e) w others) s fun t => (t.dev.lo e).ptr.off = (off + 1) % (top + 1))
      ∧ (Step off w false → Answers (.pointerFrame (.tu e) w others) s fun t =>
        (t.dev.lo e).ptr.off = (off + top) % (top + 1)))
    ∧ (∀ (v : Fin 512) x fill, s.dev.vc4 v = some x → x.ptr.ndfDue = false → 3 ≤ x.ptr.genGap → fill ≤ 48 →
      Answers (.pointerJustification (.au v) fill) s fun t => ∃ y, t.dev.vc4 v = some y
        ∧ y.ptr.txOff = (if fill ≤ 12 then (x.ptr.txOff + 1) % 783 else if 36 ≤ fill then (x.ptr.txOff + 782) % 783
          else x.ptr.txOff))
    ∧ (∀ (e : Fin 8064) fill, s.dev.entryExists e = true → (s.dev.lo e).ptr.ndfDue = false → 3 ≤ (s.dev.lo e).ptr.genGap →
      fill ≤ 16 → Answers (.pointerJustification (.tu e) fill) s fun t =>
        let x := (s.dev.lo e).ptr
        let top := if s.dev.isVc3 e then 764 else 139
        (t.dev.lo e).ptr.txOff = if fill ≤ 4 then (x.txOff + 1) % (top + 1)
          else if 12 ≤ fill then (x.txOff + top) % (top + 1) else x.txOff)

/-- MAP_CFG, as the two statements above say. -/
def Obligations.MapCfgMakesItsObjects : Prop := MapCfgMakesAndTakesOdus ∧ MapCfgMakesVc4sAndEntries

/-- Justification and pointers, as the two statements above say. -/
def Obligations.PayloadsAreJustified : Prop := JustificationFollowsFills ∧ PointersMoveByOne

/-! ### SAToP, GFP-F and the Ethernet MAC -/

/-- The playout of a sequence number has begun: it comes before the one that is due, or is not after the last that was (R172). -/
def Sys2Proof.Claim.Begun (x : Circuit) (k : BitVec 16) : Prop :=
  (∃ n, x.next = some n ∧ seqDiff k n < 0) ∨ ∃ b, x.began = some b ∧ seqDiff k b ≤ 0

/-- The packet that circuit `x` keeps of a received one: its data are in the lowest free place of its blocks, or in the staging
buffer where they are full (log entry 112); a packet with L = 1 has none. -/
def Sys2Proof.Claim.kept (x : Circuit) (k : SatopRx) : JbPkt :=
  if k.l then { seq := k.seq, l := true }
  else match x.freePlace with
    | some i => { seq := k.seq, l := false, place := some i }
    | none => { seq := k.seq, l := false, bytes := k.payload, bad := k.bad }

/-- SATOP_PACKET_RX (R17, R41, R172, R173): a packet in the buffer's span is placed in sequence order with its data in the banks of
both planes, a duplicate or a late one is discarded and counted, one with which the buffer spans too much starts it afresh, and L
and R are those of the last packet.
The layout of the jitter buffer in its blocks is that of log entry 112. -/
def Sys2Proof.Claim.SatopPacketsArePlacedInOrder : Prop :=
  ∀ (s : State) (e : Fin 8064) (k : SatopRx), s.dev.life = .running →
    let x := s.dev.circuit e
    x.made = true →
    (k.payload.length ≠ x.payload → k.l = false → Answers (.satopPacketRx e k) s fun t =>
      t.dev.circuit e = { x with malformed := min (x.malformed + 1) 65535 })
    ∧ (k.payload.length = x.payload ∨ k.l = true → Answers (.satopPacketRx e k) s fun t =>
      let y := t.dev.circuit e
      let stored := fun p : JbPkt => t.mem = match p.place with
        | some i => s.dev.putBytes (s.dev.pktPlaces x i) k.payload k.bad none s.mem
        | none => s.mem
      y.lRx = k.l ∧ y.rRx = k.r ∧ y.lastSeq = some k.seq
      ∧ ((∃ q ∈ x.buf, q.seq = k.seq) → y.buf = x.buf ∧ y.dup = min (x.dup + 1) 65535 ∧ t.mem = s.mem)
      ∧ ((∀ q ∈ x.buf, q.seq ≠ k.seq) →
        (Begun x k.seq → y.buf = x.buf ∧ y.late = min (x.late + 1) 65535 ∧ t.mem = s.mem)
        ∧ (¬ Begun x k.seq → ∃ a b, x.buf = a ++ b ∧ (∀ q ∈ a, 0 ≤ seqDiff k.seq q.seq)
          ∧ (∀ q, b.head? = some q → seqDiff k.seq q.seq < 0)
          ∧ let all := a ++ kept x k :: b
            let only := kept { x with buf := [] } k
            let first := x.next.getD ((all.head?.map JbPkt.seq).getD 0)
            let last := (all.getLast?.map JbPkt.seq).getD 0
            if (x.span : Int) ≤ seqDiff last first then
              y.buf = [only] ∧ y.overrun = min (x.overrun + 1) 65535 ∧ stored only
            else y.buf = all ∧ stored (kept x k))))

/-- SATOP_PLAYOUT and SATOP_PACKET_TX (R42, R171–R174): a playout instant plays the packet that is due, with the data that its
words hold where they are sound, or all ones where it is missing or the buffer is empty, and the playout clock goes on by the
packet's duration; a built packet takes the next sequence number and enters its circuit's queue, and its poisoned words stay so. -/
def Sys2Proof.Claim.SatopPlaysOutAndBuildsPackets : Prop :=
  ∀ (s : State) (e : Fin 8064), s.dev.life = .running →
    let x := s.dev.circuit e
    let ones := Out.playout e (List.replicate x.payload 0xFF) []
    x.made = true →
    (x.playAt ≤ 1000 * s.dev.now →
      (Answers (.satopPlayout e) s fun t => (t.dev.circuit e).playAt = x.playAt + (t.dev.circuit e).period)
      ∧ (∀ n, x.st = 2 → x.next = some n →
        (∀ p rest, x.buf = p :: rest → p.seq = n → Answers (.satopPlayout e) s fun t =>
          (t.dev.circuit e).buf = rest ∧ (t.dev.circuit e).next = some (n + 1)
          ∧ (x.lops = true ∨ p.l = true → lastPlayout t = some ones)
          ∧ (x.lops = false → p.l = false →
            (p.place = none → lastPlayout t = some (.playout e p.bytes p.bad))
            ∧ ∀ i, p.place = some i →
              let places := s.dev.pktPlaces x i
              Sound s places → SliceRuns s.dev (some (s.dev.pointSlice (mpKeyOf 7 0 e))) →
              lastPlayout t = some (.playout e ((heldBytes s places).take x.payload) [])))
        ∧ (∀ p rest, x.buf = p :: rest → p.seq ≠ n → Answers (.satopPlayout e) s fun t =>
          (t.dev.circuit e).buf = x.buf ∧ (t.dev.circuit e).next = some (n + 1)
          ∧ (t.dev.circuit e).lost = min (x.lost + 1) 65535 ∧ lastPlayout t = some ones)
        ∧ (x.buf = [] → Answers (.satopPlayout e) s fun t =>
          (t.dev.circuit e).st = 1 ∧ (t.dev.circuit e).underrun = min (x.underrun + 1) 65535 ∧ lastPlayout t = some ones))
      ∧ (x.st ≠ 2 → Answers (.satopPlayout e) s fun t => (t.dev.circuit e).buf = x.buf ∧ lastPlayout t = some ones))
    ∧ (1000 * s.dev.now < x.playAt → exec (.satopPlayout e) s = .next s)
    ∧ ∀ k, let b := s.dev.satopPacket e k.bytes
      Answers (.satopPacketTx e k) s fun t =>
        (t.dev.circuit e).txSeq = x.txSeq + 1
        ∧ Out.satop e b (if s.dev.e1Ais e then [] else badIn k.bad x.headLen) ∈ t.dev.host.out
        ∧ (Fits s.dev x.queue (b.length + 4) (65536 + e) → Takes s t x.queue b (65536 + e))

/-- SATOP_CFG and SATOP_RESERVE_APPLIED (R175, R181): a create with every check met makes the circuit with its operands and gives
it the blocks of its jitter buffer, a delete unmakes it, section 1 sets the template, section 2 sets the jitter reserve, and a
pending cut applies when use permits it.
That the reserve is given out in blocks of 512 bytes by number is log entry 112. -/
def Sys2Proof.Claim.SatopCfgSetsCircuitsAndReserve : Prop :=
  ∀ s : State,
    (∀ c : Desc, Served 0x44 c s.dev →
      let e := c.u16 2
      let x := s.dev.circuit e
      (c.u8 0 = 0 → e ≤ 8063 → 32 ≤ c.u16 4 → c.u16 4 ≤ 1024 → 8 ≤ c.u16 6 → c.u16 6 ≤ 256 → c.u8 8 ≤ 2 → c.u8 9 ≤ 7 →
        c.u16 12 ≤ 4095 → 2 ≤ c.u8 14 → c.u8 14 ≤ 15 → 2 ≤ c.u8 15 → c.u8 15 ≤ 15 → 14 ≤ c.u8 16 → c.u8 16 ≤ 64 →
        c.u8 17 ≤ 127 → Zeros c 18 19 → Zeros c 24 55 →
        (c.u8 1 = 0 → x.made = true → Answers (.satopCfg c) s fun t => (t.dev.circuit e).made = false)
        ∧ (c.u8 1 = 1 → x.tmplLen ≠ 0 → (c.u8 8 ≠ 1 ∨ c.u8 9 % 2 = 1) → 2 * c.u16 4 ≤ 32 * c.u16 6 →
          (s.dev.lo e).e1Mode = 3 → x.made = false → (∀ z ∈ s.dev.circuits, z.2.made = true → z.2.flowTag ≠ c.u16 10) →
          s.dev.jitterUse + (c.u16 6 + 7) / 8 * 512
            ≤ reserveBytes s.dev.reserve.region (s.dev.reserve.cut.getD s.dev.reserve.size) →
          Answers (.satopCfg c) s fun t =>
            let y := t.dev.circuit e
            y.made = true ∧ y.payload = c.u16 4 ∧ y.jb = c.u16 6 ∧ y.clock = c.u8 8 ∧ y.flags = c.u8 9 ∧ y.flowTag = c.u16 10
            ∧ y.queue = c.u16 12 ∧ y.lopsSet = c.u8 14 ∧ y.lopsClr = c.u8 15 ∧ y.rxHdr = c.u8 16 ∧ y.rtpPt = c.u8 17
            ∧ y.ssrc.toNat = c.u32 20 ∧ y.tmpl = x.tmpl ∧ y.blocks.length = (c.u16 6 + 7) / 8))
      ∧ (c.u8 0 = 1 → c.u8 1 = 0 → e ≤ 8063 → 14 ≤ c.u8 4 → c.u8 4 ≤ 48 → Zeros c 5 7 → Zeros c (8 + c.u8 4) 55 →
        Answers (.satopCfg c) s fun t =>
          t.dev.circuit e = { x with tmplLen := c.u8 4, tmpl := c.bytes 8 48, blocks := (t.dev.circuit e).blocks })
      ∧ (c.u8 0 = 2 → c.u8 1 ≤ 1 → Zeros c 2 3 → c.u32 4 ≤ (if c.u8 1 = 0 then 16384 else 16) → Zeros c 8 55 →
        (c.u8 1 = s.dev.reserve.region ∨ s.dev.anyCircuit = false) →
        (∀ b ∈ reserveBanks (c.u8 1) (c.u32 4), b ∉ s.dev.usedBanks) →
        (c.u8 1 = 1 ∨ s.dev.reservedCells + 16 * c.u32 4 ≤ 524288) →
        (s.dev.jitterUse ≤ reserveBytes (c.u8 1) (c.u32 4) → Answers (.satopCfg c) s fun t =>
          t.dev.reserve = { region := c.u8 1, size := c.u32 4, cut := none })
        ∧ (reserveBytes (c.u8 1) (c.u32 4) < s.dev.jitterUse → Answers (.satopCfg c) s fun t =>
          t.dev.reserve = { s.dev.reserve with cut := some (c.u32 4) })))
    ∧ (∀ n, s.dev.life = .running → s.dev.reserve.cut = some n →
      s.dev.jitterUse ≤ reserveBytes s.dev.reserve.region n →
      Answers .satopReserveApplied s fun t => t.dev.reserve = { s.dev.reserve with size := n, cut := none })

/-- MAC_FRAME_RX and MAC_FAULT_SEQUENCE (R68, R69, R249, R251–R253): a port that is not ALIGNED receives nothing; on one that is, a
slipped frame, one with a wrong FCS, one of a wrong length and a MAC control frame are discarded and counted, a good frame of a
flow entry, by the tag that its bytes carry, enters that entry's queue, and a fault sequence is recorded for its port. -/
def Sys2Proof.Claim.MacChecksAndClassifiesFrames : Prop :=
  ∀ s : State, s.dev.life = .running →
    (∀ (i : BitVec 16) (f : MacRx), i.toNat ≤ 63 → (s.dev.port i.toNat).astate ≠ .aligned → exec (.macFrameRx i f) s = .next s)
    ∧ (∀ (i : BitVec 16) (f : MacRx), i.toNat ≤ 63 → s.dev.ingressExists i.toNat = true → (s.dev.port i.toNat).onHold = false →
      (s.dev.port i.toNat).astate = .aligned →
      let at_ := fun off => aPort i.toNat off
      (f.slip = true → Answers (.macFrameRx i f) s fun t => t.dev.reg (at_ 0x208) = countUp (s.dev.reg (at_ 0x208)) 0 16 1)
      ∧ (f.slip = false → f.fcsOk = false ∨ f.errored = true → Answers (.macFrameRx i f) s fun t =>
        t.dev.reg (at_ 0x204) = countUp (s.dev.reg (at_ 0x204)) 0 16 1)
      ∧ (f.slip = false → f.fcsOk = true → f.errored = false →
        let len := f.bytes.length + 4
        (len < 64 ∨ (s.dev.ingr i.toNat).maxFrame < len → Answers (.macFrameRx i f) s fun t =>
          t.dev.reg (at_ 0x204) = countUp (s.dev.reg (at_ 0x204)) 16 16 1)
        ∧ (64 ≤ len → len ≤ (s.dev.ingr i.toNat).maxFrame → etherType f.bytes = 0x8808 →
          Answers (.macFrameRx i f) s fun t => t.dev.reg (at_ 0x208) = countUp (s.dev.reg (at_ 0x208)) 16 16 1))
      ∧ (∀ x, Forwards s.dev i.toNat f x → Fits s.dev x.queue (f.bytes.length + 4) i.toNat →
        Answers (.macFrameRx i f) s fun t => Takes s t x.queue f.bytes i.toNat))
    ∧ ∀ p : Fin 64, isEth (s.dev.port p).format = true →
      (Answers (.macFaultSequence p .localFault) s fun t =>
        tget false t.dev.pkt.locFault p = true ∧ tget false t.dev.pkt.remFault p = false ∧ EventSet t (aPort p 0x210) 0)
      ∧ (Answers (.macFaultSequence p .remoteFault) s fun t =>
        tget false t.dev.pkt.locFault p = false ∧ tget false t.dev.pkt.remFault p = true ∧ EventSet t (aPort p 0x210) 1)
      ∧ Answers (.macFaultSequence p .ok) s fun t =>
        tget false t.dev.pkt.locFault p = false ∧ tget false t.dev.pkt.remFault p = false

/-- GFP_CORE_HEADER and GFP_FRAME (R168–R170): the delineator goes from HUNT to PRESYNC to SYNC on correct headers and back to
HUNT on a bad one, corrects a single error in SYNC where CHEC_CORRECT is set, and only a client data frame of SYNC whose
descrambled bytes have the right headers and check sequences reaches the MAC; the header that the sender builds is correct.
The CRCs and the scrambler of GFP are presumed (log entry 106). -/
def Sys2Proof.Claim.GfpDelineatesAndDelivers : Prop :=
  ∀ (s : State) (o : Fin 4096) x, s.dev.life = .running → s.dev.odu o = some x →
    (∀ h, Answers (.gfpCoreHeader o h) s fun t => ∃ y, t.dev.odu o = some y
      ∧ (x.gfp = 1 → y.gfp = if chec h = .correct then 2 else 1)
      ∧ (x.gfp = 2 → y.gfp = if chec h = .correct then 3 else 1)
      ∧ (x.gfp = 3 → y.gfp = if chec h = .correct ∨ chec h = .single ∧ x.flags / 4 % 2 = 1 then 3 else 1))
    ∧ (∀ pli, chec (gfpCoreHead pli) = .correct)
    ∧ (x.gfp = 3 → ∀ area w, 4 ≤ area.length →
      let f := gfpParse (packBits (descramble x.descr (area.flatMap bitsOfByte)).1)
      let m := gfpClient f.payload w
      (f.thecOk = false ∨ f.pfi = true ∧ f.pfcsOk = false ∨ f.pti ≠ 0 ∧ f.pti ≠ 4 ∨ f.pti = 4 ∧ f.upi ≠ 1 ∧ f.upi ≠ 2
          ∨ f.pti = 0 ∧ (f.exi ≠ 0 ∨ f.upi ≠ 1) →
        Answers (.gfpFrame o area w) s fun t => t.dev.reg (aGfp o) = countUp (s.dev.reg (aGfp o)) 0 32 1)
      ∧ ∀ z, f.thecOk = true → f.pfi = false ∨ f.pfcsOk = true → f.pti = 0 → f.exi = 0 → f.upi = 1 →
        Forwards s.dev (4096 + o) m z → Fits s.dev z.queue (m.bytes.length + 4) (4096 + o) →
        Answers (.gfpFrame o area w) s fun t => Takes s t z.queue m.bytes (4096 + o))

/-- SAToP, as the three statements above say. -/
def Obligations.SatopCarriesCircuits : Prop := SatopPacketsArePlacedInOrder ∧ SatopPlaysOutAndBuildsPackets ∧ SatopCfgSetsCircuitsAndReserve

/-- Frames of the MAC and of GFP-F, as the two statements above say. -/
def Obligations.FramesAreReceived : Prop := MacChecksAndClassifiesFrames ∧ GfpDelineatesAndDelivers

/-! ### The packet path -/

/-- QUEUE_CFG (R253, R254, R260, R275): section 0 sets a queue, section 1 writes, clears or reads a flow entry of an ingress
that exists, whose key no other entry has, and section 2 sets what an ingress does with frames that match none. -/
def Sys2Proof.Claim.QueueCfgSetsQueuesAndFlows : Prop :=
  ∀ (s : State) (c : Desc), Served 0x40 c s.dev →
    (c.u8 0 = 0 →
      let q := c.u16 2
      c.u8 1 ≤ 3 → q ≤ 4095 → c.u32 4 ≤ 524288 → c.u32 8 ≤ c.u32 4 → c.u8 12 ≤ 10 → Zeros c 13 55 →
      (c.u32 8 ≤ (s.dev.pq q).reserve ∨ s.dev.reservedCells - (s.dev.pq q).reserve + c.u32 8 ≤ s.dev.poolCells) →
      Answers (.queueCfg c) s fun t =>
        let y := t.dev.pq q
        y.enable = c.bit 1 0 ∧ y.sampleEn = c.bit 1 1 ∧ y.limit = c.u32 4 ∧ y.reserve = c.u32 8 ∧ y.k = c.u8 12
        ∧ y.frames = (s.dev.pq q).frames)
    ∧ (c.u8 0 = 1 → c.u8 1 ≤ 2 → (c.u16 4 ≤ 63 ∨ 4096 ≤ c.u16 4 ∧ c.u16 4 < 8192) → c.u16 6 < 8192 →
      s.dev.ingressExists (c.u16 4) = true →
      (c.bit 7 4 = true ∨ c.u16 6 % 4096 = 0) → c.u8 8 < 32 → (c.bit 8 3 = true → c.u8 8 % 8 = 0) → c.u8 9 = 0 →
      c.u16 12 ≤ 4095 → (c.u16 14 ≤ 4095 ∨ c.u16 14 = 0xFFFF) → Zeros c 16 55 →
      let new : Flow := {
        ingress := c.u16 4, vid := c.u16 6 % 4096, tagged := c.bit 7 4, pcp := c.u8 8 % 8, pcpAny := c.bit 8 3
        flowTag := c.u16 10, queue := c.u16 12, policer := c.u16 14, valid := true }
      (c.u8 1 = 0 → Answers (.queueCfg c) s fun t => (t.dev.flow (c.u16 2)).valid = false)
      ∧ (c.u8 1 = 1 → (∀ x ∈ s.dev.pkt.flows, x.1 ≠ c.u16 2 → x.2.valid = true → x.2.sameKey new = false) →
        Answers (.queueCfg c) s fun t => t.dev.flow (c.u16 2) = new)
      ∧ (c.u8 1 = 2 → Answers (.queueCfg c) s fun t => t.dev.pkt = s.dev.pkt))
    ∧ (c.u8 0 = 2 → c.u8 1 ≤ 1 → (c.u16 2 ≤ 63 ∨ 4096 ≤ c.u16 2 ∧ c.u16 2 < 8192) → 64 ≤ c.u16 4 → c.u16 4 ≤ 9216 →
      (∀ p, p < 8 → c.u16 6 + pcpOffset (c.u24 8) p ≤ 4095) → c.u8 11 = 0 → (c.u16 12 ≤ 4095 ∨ c.u16 12 = 0xFFFF) →
      Zeros c 14 55 → s.dev.ingressExists (c.u16 2) = true → Answers (.queueCfg c) s fun t => t.dev.ingr (c.u16 2) = {
        miss := c.u8 1, maxFrame := c.u16 4, defQueue := c.u16 6, pcpOff := c.u24 8, defPol := c.u16 12 })

/-- SHAPER_CFG and POLICER_CFG (R256, R262, R267, R276, R277): a node takes its operands, and where any of them changes, its
credit is CAP × 65,536 with RESET_MODE 1 and 0 otherwise; identical values have no effect. -/
def Sys2Proof.Claim.ShapersAndPolicersAreSet : Prop :=
  ∀ (s : State) (c : Desc), c.u40 4 ≤ 600000000000 → 1 ≤ c.u24 9 →
    (Served 0x41 c s.dev →
      let l := c.u8 0
      let key := 4096 * l + c.u16 2
      let x := s.dev.shaper key
      let credit : Int := if c.bit 1 0 then ((c.u24 9 * 65536 : Nat) : Int) else 0
      c.u8 1 < 4 → (l = 1 ∨ c.bit 1 1 = false) → c.u8 15 = 0 → Zeros c 20 55 →
      (l ≤ 1 → c.u16 2 ≤ (if l = 0 then 4095 else 511) → c.u16 18 = 0 →
        (if l = 1 then c.u16 12 ≤ 127 ∨ c.u16 12 = 0xFFFF else c.u16 12 = 0) →
        (if l = 1 then 1 ≤ c.u8 14 else c.u8 14 = 0) → (l = 1 ∨ c.u16 16 = 0) →
        (l = 1 → x.parent = c.u16 12 ∨ s.dev.subHolds (c.u16 2) = false) →
        Answers (.shaperCfg c) s fun t =>
          let y := t.dev.shaper key
          y.rate = c.u40 4 ∧ y.cap = c.u24 9 ∧ y.resetFull = c.bit 1 0 ∧ y.borrow = c.bit 1 1 ∧ y.debt = c.u16 16
          ∧ (l = 1 → y.parent = c.u16 12 ∧ y.weight = c.u8 14)
          ∧ (y.rate = x.rate ∧ y.cap = x.cap ∧ y.resetFull = x.resetFull ∧ y.borrow = x.borrow ∧ y.debt = x.debt
              ∧ y.parent = x.parent ∧ y.weight = x.weight ∧ y.target = x.target → y = x)
          ∧ (y.rate ≠ x.rate ∨ y.cap ≠ x.cap → y.credit = credit ∧ y.acc = 0))
      ∧ (l = 2 → c.u16 2 ≤ 127 → Zeros c 12 14 → c.u16 16 = 0 →
        (c.u16 18 = 0 ∨ 32768 ≤ c.u16 18 ∧ c.u16 18 < 32832 ∧ isEth (s.dev.port (c.u16 18 % 64)).format = true
          ∧ ∀ z ∈ s.dev.pkt.shapers, z.1 / 4096 = 2 → z.1 % 4096 ≠ c.u16 2 → z.2.target ≠ c.u16 18) →
        Answers (.shaperCfg c) s fun t =>
          (t.dev.shaper key).rate = c.u40 4 ∧ (t.dev.shaper key).cap = c.u24 9 ∧ (t.dev.shaper key).target = c.u16 18))
    ∧ (Served 0x42 c s.dev → c.u8 0 ≤ 1 → c.u8 1 = 0 → c.u16 2 ≤ 4095 → Zeros c 12 55 →
      Answers (.policerCfg c) s fun t =>
        let x := s.dev.policer (c.u16 2)
        let y := t.dev.policer (c.u16 2)
        y.rate = c.u40 4 ∧ y.cap = c.u24 9 ∧ y.resetFull = c.bit 0 0
        ∧ (y.rate ≠ x.rate ∨ y.cap ≠ x.cap → y.credit = if c.bit 0 0 then ((c.u24 9 * 65536 : Nat) : Int) else 0))

/-- SHAPER_UPDATE (R256, R265, R266): every 8 ns an accruing shaper, and a policer with a RATE, gains what its remainder and
RATE × 524,288 give in units of 10¹², held at CAP, and keeps the rest; an idle shaper loses a positive credit and keeps a
negative one. -/
def Sys2Proof.Claim.CreditAccruesEveryEightNs : Prop :=
  ∀ s : State, s.dev.life = .running → tabWf {} s.dev.pkt.shapers = true → tabWf {} s.dev.pkt.policers = true →
    s.dev.pkt.updated + 8 ≤ s.dev.now → Answers .shaperUpdate s fun t =>
      t.dev.pkt.updated = s.dev.pkt.updated + 8
      ∧ (∀ k, let x := s.dev.shaper k
        let y := t.dev.shaper k
        let gain := x.acc + x.rate * 524288
        y.rate = x.rate ∧ y.cap = x.cap
        ∧ (s.dev.accrues k = true → y.acc = gain % 10 ^ 12
          ∧ y.credit = min (x.credit + (gain / 10 ^ 12 : Nat)) ((x.cap * 65536 : Nat) : Int))
        ∧ (s.dev.accrues k = false → y.credit = min x.credit 0))
      ∧ ∀ n, let x := s.dev.policer n
        let gain := x.acc + x.rate * 524288
        (x.rate = 0 → t.dev.policer n = x)
        ∧ (x.rate ≠ 0 → (t.dev.policer n).acc = gain % 10 ^ 12
          ∧ (t.dev.policer n).credit = min (x.credit + (gain / 10 ^ 12 : Nat)) ((x.cap * 65536 : Nat) : Int))

/-- Every step keeps the tables of shapers and policers in canonical form: each node is listed at most once. -/
def Obligations.PacketTablesStayCanonical : Prop :=
  ∀ s t : State, tabWf {} s.dev.pkt.shapers = true → tabWf {} s.dev.pkt.policers = true → step s = .next t →
    tabWf {} t.dev.pkt.shapers = true ∧ tabWf {} t.dev.pkt.policers = true

/-- FRAME_START (R168, R257, R263, R264): where no head frame is too long for its windows and the port may send, the funded
subscriber whose turn it is sends the head frame of its lowest ready service, with the bytes that its cells hold and its FCS,
and the frame is charged to the service, the subscriber and the port; a packet ODU maps it in a GFP frame.
The CRCs and the scrambler of GFP are presumed (log entry 106). -/
def Sys2Proof.Claim.SchedulerSendsTheFrameInTurn : Prop :=
  ∀ (s : State) (n : Fin 128) (u : Fin 512) (v : Fin 8) f rest, s.dev.life = .running →
    tabWf {} s.dev.pkt.shapers = true → s.dev.portMaySend n = true →
    let d := s.dev
    let x := d.schP n
    let q := 8 * u.val + v.val
    (∀ w ∈ d.attached n, ∀ i, i < 8 → ∀ g more, (d.pq (8 * w + i)).frames = g :: more →
      x.gates.oversize i g.len (d.overheadOf n) = false) →
    let F := fun w => w ∈ d.attached n ∧ (∃ i, i < 8 ∧ d.serviceReady n (8 * w + i) = true)
      ∧ (d.shaper (4096 + w)).funded = true
    let again := F x.turnF ∧ x.sentF < (d.shaper (4096 + x.turnF)).weight
    F u.val → (u.val = x.turnF → again ∨ ∀ w, F w → w = x.turnF) → (u.val ≠ x.turnF → ¬again) →
    (x.turnF < u.val → ∀ w, F w → x.turnF < w → u.val ≤ w) →
    (u.val < x.turnF → ∀ w, F w → u.val ≤ w ∧ w ≤ x.turnF) →
    d.serviceReady n q = true → (∀ i, i < v.val → d.serviceReady n (8 * u.val + i) = false) →
    (d.pq q).frames = f :: rest → d.gfpRoom n f.len = true →
    let places := (cellPlaces f.cells).take (wordsFor (f.len - 4))
    let frame := withFcs ((heldBytes s places).take (f.len - 4))
    Sound s places → SliceRuns d (d.schSlice n) →
    Answers (.frameStart n) s fun t =>
      (t.dev.pq q).frames = rest ∧ .frame n frame [] ∈ t.dev.host.out
      ∧ (∀ k o, d.schEth n = none → d.gfpOdu n = some k → d.odu k = some o →
        t.dev.host.out.head? = some (.gfp k (gfpBuild (o.flags.testBit 1) frame o.scr).1 []))
      ∧ (t.dev.schP n).turnF = u.val
      ∧ (∀ k ∈ [q, 4096 + u.val, 2 * 4096 + n.val],
        (t.dev.shaper k).credit = (d.shaper k).credit - if (d.shaper k).rate = 0 then 0 else 65536)
      ∧ ∀ p, d.schEth n = some p → (t.dev.schP n).freeAt = d.now + pacing (d.port p).format f.len

/-- QUEUE_SAMPLE and QUEUE_SAMPLE_RECORD (R273, R274): at an instant of its grid a sampled queue takes its depth in frames and
the age of its head frame, and each second it delivers the record of the past second and starts afresh. -/
def Sys2Proof.Claim.QueuesAreSampled : Prop :=
  ∀ (s : State) (q : Fin 4096), s.dev.life = .running →
    let x := s.dev.pq q
    x.sampleEn = true →
    (x.sampAt ≤ s.dev.now - s.dev.tsu.ns % (2 ^ x.k * 1000) → Answers (.queueSample q) s fun t =>
      (x.frames = [] → (t.dev.pq q).samples = (0, 0) :: x.samples)
      ∧ ∀ f rest, x.frames = f :: rest → (t.dev.pq q).samples = (rest.length + 1, s.dev.now - f.at_) :: x.samples)
    ∧ (x.recSec ≠ s.dev.tsu.sec.toNat → Answers (.queueSampleRecord q) s fun t =>
      (t.dev.pq q).samples = [] ∧ (t.dev.pq q).suspect = false
      ∧ (s.dev.worker = false → s.dev.ringOn 10 = true → 2 ≤ s.dev.ringFree 10 →
        ∃ slot ph seq body, Out.stats slot 0 ph seq body ∈ t.dev.host.out
          ∧ body.take 20 = [0x40, 0x01] ++ le 2 q ++ le 1 x.k ++ le 1 (if x.suspect then 1 else 0) ++ le 2 0
            ++ le 6 (s.dev.tsu.sec.toNat - 1) ++ le 2 0 ++ le 4 x.samples.length))

/-- GATE_CFG and GATE_CYCLE_START (R269, R272, R278): section 1 sets windows that wait for their port's next cycle start,
section 0 a reference that waits for the next cycle start, and a cycle start puts in force those that were there when it came.
That section 0 acts at the first cycle start of any port is the reading of log entry 65. -/
def Sys2Proof.Claim.GatesWaitForTheCycle : Prop :=
  ∀ s : State,
    (∀ c : Desc, Served 0x43 c s.dev →
      (c.u8 0 = 0 → c.u8 1 ≤ 1 → c.u16 2 ≤ 999 → c.u32 4 ≤ 124999 → Zeros c 8 55 → (c.u8 1 = 0 ∨ s.dev.xc.owner = true) →
        Answers (.gateCfg c) s fun t => t.dev.pkt.tickPhase = c.u16 2
          ∧ t.dev.pkt.nextRef = some (c.u8 1, c.u32 4, s.dev.now)
          ∧ t.dev.pkt.ref = s.dev.pkt.ref)
      ∧ (c.u8 0 = 1 → 1 ≤ c.u8 1 → c.u8 1 ≤ 8 → c.u16 2 ≤ 127 → c.u32 4 ≤ 400000 →
        (c.u32 4 ≠ 0 ∨ c.u8 1 = 1 ∧ gateMask c 0 = 0xFF) → gateStart c 0 = 0 →
        (∀ i, 0 < i → i < c.u8 1 → gateStart c (i - 1) + 1000 ≤ gateStart c i ∧ gateStart c i ≤ 124000) →
        (∀ i, i < 8 → c.u8 1 ≤ i → gateStart c i = 0 ∧ gateMask c i = 0) → Zeros c 48 55 →
        Answers (.gateCfg c) s fun t => ∃ g, (t.dev.schP (c.u16 2)).next = some (g, s.dev.now) ∧ g.lineRate = c.u32 4
          ∧ g.starts.length = c.u8 1 ∧ g.masks.length = c.u8 1
          ∧ (∀ i, i < c.u8 1 → g.starts.getD i 0 = gateStart c i ∧ g.masks.getD i 0 = gateMask c i)
          ∧ (t.dev.schP (c.u16 2)).gates = (s.dev.schP (c.u16 2)).gates))
    ∧ ∀ n : Fin 128, s.dev.life = .running → (s.dev.schP n).cycle < s.dev.now - s.dev.cycleAge →
      let x := s.dev.schP n
      let start := s.dev.now - s.dev.cycleAge
      Answers (.gateCycleStart n) s fun t =>
        let y := t.dev.schP n
        y.cycle = start
        ∧ (∀ g at_, x.next = some (g, at_) →
          (at_ ≤ start → y.gates = g ∧ y.next = none) ∧ (start < at_ → y.gates = x.gates ∧ y.next = x.next))
        ∧ (x.next = none → y.gates = x.gates)
        ∧ ∀ r ph at_, s.dev.pkt.nextRef = some (r, ph, at_) →
          (at_ ≤ start → t.dev.pkt.ref = r ∧ t.dev.pkt.gatePhase = ph ∧ t.dev.pkt.nextRef = none)
          ∧ (start < at_ → t.dev.pkt.ref = s.dev.pkt.ref ∧ t.dev.pkt.nextRef = s.dev.pkt.nextRef)

/-- QUEUE_CFG, SHAPER_CFG and POLICER_CFG, as the two statements above say. -/
def Obligations.PacketSettingsTakeEffect : Prop := QueueCfgSetsQueuesAndFlows ∧ ShapersAndPolicersAreSet

/-- Credit and gates, as the two statements above say. -/
def Obligations.CreditAndGatesFollowTheClock : Prop := CreditAccruesEveryEightNs ∧ GatesWaitForTheCycle

/-- The scheduler and the samples of queues, as the two statements above say. -/
def Obligations.SchedulerSendsAndSamples : Prop := SchedulerSendsTheFrameInTurn ∧ QueuesAreSampled

/-! ### Damask cross-connect -/

/-- XC_WRITE without records (R192): COPY_ACTIVE makes the standby pages of the TSI equal to the active ones, CLEAR leaves
them unconnected, neither changes them, and no active page changes. -/
def Sys2Proof.Claim.XcWriteFillsTheStandbyPage : Prop :=
  ∀ (s : State) (c : Desc), Served 0x20 c s.dev → c.u8 0 ≤ 1 → c.u8 1 = 0 → c.u8 2 ≤ 2 → Zeros c 3 7 → Zeros c 20 55 →
    s.dev.tsiArmed (c.u8 0) = false → Answers (.xcWrite c) s fun t =>
      ∀ tb ∈ tablesOf (c.u8 0), ∀ p, p < tableSize tb →
        let old := s.dev.xcWord (s.dev.activePage tb) tb p
        let new := t.dev.xcWord (s.dev.standbyPage tb) tb p
        t.dev.xcWord (s.dev.activePage tb) tb p = old
        ∧ (c.u8 2 = 0 → new = s.dev.xcWord (s.dev.standbyPage tb) tb p)
        ∧ (c.u8 2 = 1 → srcKind new = srcKind old ∧ (srcKind old ≠ 0 → new = old))
        ∧ (c.u8 2 = 2 → srcKind new = 0)

/-- XC_WRITE with one record (R186, R193, R194): a disconnect leaves every position of its destination unconnected in the
standby page, and a connect of like objects, to positions that are unconnected, makes position i of the destination take
position i of the source. -/
def Sys2Proof.Claim.XcWriteConnectsPositions : Prop :=
  ∀ (s : State) (c : Desc), Served 0x20 c s.dev → c.u8 0 ≤ 1 → c.u8 1 = 1 → c.u8 2 = 0 → Zeros c 3 7 → Zeros c 16 55 →
    s.dev.tsiArmed (c.u8 0) = false →
    let d := s.dev
    let tsi := c.u8 0
    let page := d.standbyPage (if tsi = 0 then 0 else 2)
    let dk := c.u8 9
    let dv := c.u16 10
    let sk := c.u8 12
    let n := c.u8 13
    let sv := c.u16 14
    let sch := schemeOf dk
    dstKinds tsi dk = true → xcRange dk dv sch = true →
    (∀ dst, c.u8 8 = 0 → sk = 0 → sv = 0 → (if dk = 1 then 1 ≤ n ∧ dv / 256 % 32 + n ≤ 20 else n = 0) →
      d.xcObj dk dv n sch = some dst →
      Answers (.xcWrite c) s fun t => ∀ p ∈ dst.pos, srcKind (t.dev.xcWord page dst.table p) = 0)
    ∧ ∀ len dst src, c.u8 8 = 1 → srcKinds tsi sk = true → xcRange sk sv sch = true →
      (if dk = 1 ∧ sk = 1 then 1 ≤ len ∧ n = len else n = 0) →
      (dk = 1 → dv / 256 % 32 + len ≤ 20) → (sk = 1 → sv / 256 % 32 + len ≤ 20) →
      d.xcObj dk dv len sch = some dst → d.xcObj sk sv len sch = some src → dst.count = len → src.count = len →
      dst.alike src = true →
      (∀ p ∈ dst.pos, srcKind (d.xcWord page dst.table p) = 0) →
      Answers (.xcWrite c) s fun t => ∀ p ∈ dst.pos, ∃ i, dst.pos[i]? = some p ∧
        let w := t.dev.xcWord page dst.table p
        (dst.table = 0 → sk ≤ 1 → srcKind w = 1 ∧ srcVal 0 w = src.pos.getD i 0 % 4096)
        ∧ (dst.table = 0 → 4 ≤ sk → srcKind w = sk - 2 ∧ srcVal 0 w = sv ∧ srcIndex w = i % 512)
        ∧ (dst.table ≠ 0 → srcKind w = (if sk = 5 then 3 else 1) ∧ srcVal dst.table w = sv)

/-- XC_SWAP (R199, R200): an arm of TSIs that have none is kept for its tick, and completes later; a cancel disarms every
named TSI whose tick has not come. -/
def Sys2Proof.Claim.XcSwapArmsAndCancels : Prop :=
  ∀ (s : State) (c : Desc), Served 0x21 c s.dev →
    let m := c.u8 0
    let now := s.dev.tickNow
    let far := 100000 ≤ s.dev.tickWait
    let named := fun (a : Arm) => (m % 2 = 1 ∧ a.mask % 2 = 1) ∨ (m / 2 % 2 = 1 ∧ a.mask / 2 % 2 = 1)
    1 ≤ m → m ≤ 3 → c.u8 2 ≤ 1 → c.u8 3 = 0 → Zeros c 8 55 →
    (c.u8 1 = 0 → (∀ a ∈ s.dev.xc.arms, ¬named a) →
      (c.u32 4 = 0 ∨ 1 ≤ ahead now (c.u32 4) ∧ ahead now (c.u32 4) ≤ 60000 ∧ (2 ≤ ahead now (c.u32 4) ∨ far)) →
      Answers (.xcSwap c) s fun t => ∃ a, t.dev.xc.arms = s.dev.xc.arms ++ [a] ∧ a.mask = m ∧ a.copyBack = c.bit 2 0
        ∧ a.swapping = false
        ∧ (c.u32 4 ≠ 0 → a.tick = c.u32 4) ∧ (c.u32 4 = 0 → far → a.tick = (now + 1) % 2 ^ 32)
        ∧ (c.u32 4 = 0 → ¬far → a.tick = (now + 2) % 2 ^ 32)
        ∧ ∃ j ∈ t.dev.host.jobs, j.id = a.job ∧ j.desc = c)
    ∧ (∀ a ∈ s.dev.xc.arms, c.u8 1 = 1 → named a → a.swapping = false → a.late = false →
      passes s.dev.xc.tick a.tick now = false → Answers (.xcSwap c) s fun t =>
        a ∉ t.dev.xc.arms ∧ (∀ b ∈ t.dev.xc.arms, b ∈ s.dev.xc.arms)
        ∧ ∀ b ∈ s.dev.xc.arms, ¬named b ∨ b.swapping = true ∨ b.late = true → b ∈ t.dev.xc.arms)

/-- SWAP_TICK and SWAP_BOUNDARY (R196, R201, R202): a tick that has fallen takes its number and brings the swap armed for it
into progress, with every position whose words differ still to change; at its boundary a position is done, its VC sends
NDF, and with the last position of a single TSI the standby page becomes the active one and XC_SWAP_DONE is set.
That each page changes with its own last position is the reading of log entry 67. -/
def Sys2Proof.Claim.SwapsTakeEffectAtTheirTick : Prop :=
  ∀ s : State, s.dev.life = .running →
    (s.dev.tickNow ≠ s.dev.xc.tick → Answers .swapTick s fun t => t.dev.xc.tick = s.dev.tickNow
      ∧ ∀ a, s.dev.xc.arms = [a] → a.swapping = false → s.dev.worker = false →
        passes s.dev.xc.tick a.tick s.dev.tickNow = true →
        let left := (if a.mask % 2 = 1 then s.dev.changes 0 else []) ++ (if a.mask / 2 % 2 = 1 then s.dev.changes 1 else [])
        left ≠ [] → ∃ b, t.dev.xc.arms = [b] ∧ b.swapping = true ∧ b.left = left ∧ b.job = a.job)
    ∧ ∀ (tb : Fin 3) (p : Fin 8064) (a : Arm), s.dev.xc.arms = [a] → a.swapping = true → (tb.val, p.val) ∈ a.left →
      let rest := a.left.filter fun x => !(x.1 = tb.val && ((s.dev.together tb p).contains x.2 || x.2 = p.val))
      Answers (.swapBoundary tb p) s fun t =>
        (tb.val = 2 → (t.dev.lo p).ptr.ndfDue = true)
        ∧ (tb.val = 1 → ∀ v x, s.dev.vc4Holding p = some v → s.dev.vc4 v = some x →
          ∃ y, t.dev.vc4 v = some y ∧ y.ptr.ndfDue = true)
        ∧ (∀ x ∈ rest, ∀ n ∈ [0, 1], x.1 ∈ tablesOf n → a.busy / 2 ^ n % 2 = 1 →
          ∃ b, t.dev.xc.arms = [b] ∧ b.left = rest ∧ b.job = a.job)
        ∧ (rest = [] → a.busy = 1 → t.dev.xc.arms = [] ∧ t.dev.xc.hPhys = 1 - s.dev.xc.hPhys
          ∧ t.dev.xc.lPhys = s.dev.xc.lPhys ∧ EventSet t 0xA00004 0)
        ∧ (rest = [] → a.busy = 2 → t.dev.xc.arms = [] ∧ t.dev.xc.lPhys = 1 - s.dev.xc.lPhys
          ∧ t.dev.xc.hPhys = s.dev.xc.hPhys ∧ EventSet t 0xA00004 0)

/-- XC_WRITE, as the two statements above say. -/
def Obligations.ConnectionsAreWritten : Prop := XcWriteFillsTheStandbyPage ∧ XcWriteConnectsPositions

/-- XC_SWAP, the tick and the boundaries, as the two statements above say. -/
def Obligations.SwapsAreArmedAndTakeEffect : Prop := XcSwapArmsAndCancels ∧ SwapsTakeEffectAtTheirTick

/-! ### Linear protection -/

/-- APS_CFG (R212, R222, R223): a legal create makes the selector with its operands at W, a modify sets what it may change,
and a delete of a selector that no page names removes it. -/
def Sys2Proof.Claim.ApsCfgMakesAndUnmakesSelectors : Prop :=
  ∀ (s : State) (c : Desc), Served 0x31 c s.dev →
    let d := s.dev
    let sc := c.u8 1
    let n := c.u16 2
    let w := c.u16 4
    let p := c.u16 6
    let k := selKey sc n
    sc ≤ 3 → n ≤ selMax sc → w ≤ srcMax sc → p ≤ srcMax sc → w ≠ p → c.u8 8 < 16 → (2 ≤ sc → c.bit 8 0 = false) →
    (sc = 1 → c.bit 8 2 = false) → c.u8 9 = 0 → c.u16 10 ≤ 100 → 30 ≤ c.u16 12 → c.u16 12 ≤ 720 → Zeros c 14 55 →
    (∀ e, c.u8 0 = 1 → d.sel k = none → d.apsSource sc w ≠ none → d.apsSource sc w = d.apsSource sc p →
      d.apsPoint sc (c.bit 8 2) w = true → d.apsPoint sc (c.bit 8 2) p = true → d.sourceHeld sc w = false →
      d.sourceHeld sc p = false → (sc = 1 → d.firstAu4 p = none) →
      d.allocate (d.selSlice sc p) (selLoad sc).1 (selLoad sc).2 = some e →
      Answers (.apsCfg c) s fun t => ∃ y, t.dev.sel k = some y ∧ y.work = w ∧ y.prot = p ∧ y.bidir = c.bit 8 0
        ∧ y.revertive = c.bit 8 1 ∧ y.sncN = c.bit 8 2 ∧ y.sdEn = c.bit 8 3 ∧ y.holdoff = c.u16 10 ∧ y.wtr = c.u16 12
        ∧ y.selected = false ∧ y.cmd = 0 ∧ y.engine = some e)
    ∧ (∀ x, c.u8 0 = 2 → d.sel k = some x → x.work = w → x.prot = p → x.bidir = c.bit 8 0 → x.sncN = c.bit 8 2 →
      Answers (.apsCfg c) s fun t => ∃ y, t.dev.sel k = some y ∧ y.revertive = c.bit 8 1 ∧ y.sdEn = c.bit 8 3
        ∧ y.holdoff = c.u16 10 ∧ y.wtr = c.u16 12 ∧ y.work = w ∧ y.prot = p ∧ y.selected = x.selected ∧ y.engine = x.engine)
    ∧ (∀ x, c.u8 0 = 0 → d.sel k = some x → (∀ tb, schemeTable sc = some tb → d.fedBy tb 3 n = none) →
      Answers (.apsCfg c) s fun t => t.dev.sel k = none)

/-- PROT_COMMAND (R217, R225): LO and CLEAR are always taken, FS where neither LO nor SF-P stands, and a manual switch where
no higher request stands; LO selects W, FS selects P where no far request decides, and the APS bytes that leave are those of
the requests (R220). -/
def Sys2Proof.Claim.ProtectionCommandsAreTaken : Prop :=
  ∀ (s : State) (c : Desc) x, Served 0x32 c s.dev →
    let k := selKey (c.u8 0) (c.u16 2)
    let cmd := c.u8 1
    c.u8 0 ≤ 3 → c.u16 2 < 4096 → cmd ≤ 4 → Zeros c 4 55 → s.dev.sel k = some x →
    (cmd = 2 → x.cmd ≠ 1 ∧ x.sfP = false) →
    (3 ≤ cmd → x.cmd ≠ 1 ∧ x.cmd ≠ 2 ∧ x.sfP = false ∧ x.sfW = false ∧ x.sdW = false ∧ x.sdP = false) →
    (cmd = 4 → x.revertive = false) →
    Answers (.protCommand c) s fun t => ∃ y, t.dev.sel k = some y ∧ y.cmd = cmd ∧ y.selected = x.selected
      ∧ (s.dev.selHeld k = false → cmd = 1 → y.want = false)
      ∧ (s.dev.selHeld k = false → cmd = 2 → x.bidir = false → y.want = true)
      ∧ (s.dev.selHeld k = false → c.u8 0 ≤ 1 → y.apsTx = y.apsBytes (c.u8 0))

/-- SOURCE_CONDITION, HOLDOFF_EXPIRY, SELECTED_CHANGE and WTR_EXPIRY (R213, R214, R216, R218): a condition that begins is a
request at once where HOLDOFF is 0, and otherwise when it is still there at the end of the holdoff that it starts; the selector takes
the source that it wants; at the end of WTR a selector with no other request goes back to W. -/
def Sys2Proof.Claim.SelectorsFollowTheirConditions : Prop :=
  ∀ (s : State) (q : SelId) x, s.dev.life = .running →
    let k := selKey q.scheme.val q.n.val
    s.dev.sel k = some x → s.dev.selHeld k = false →
    let sf := s.dev.srcSf q.scheme.val x.sncN
    let sd := fun n => x.sdEn && s.dev.srcSd q.scheme.val x.sncN n
    (Answers (.sourceCondition q false) s fun t => ∃ y, t.dev.sel k = some y
      ∧ y.sfW = (sf x.work && (x.sfW || x.holdoff = 0 && !x.condSf.1))
      ∧ y.sdW = (sd x.work && (x.sdW || x.holdoff = 0 && !x.condSd.1))
      ∧ (x.holdoff ≠ 0 → x.holdW = none → sf x.work = true → x.condSf.1 = false → y.holdW = some s.dev.now))
    ∧ (Answers (.sourceCondition q true) s fun t => ∃ y, t.dev.sel k = some y
      ∧ y.sfP = (sf x.prot && (x.sfP || x.holdoff = 0 && !x.condSf.2))
      ∧ y.sdP = (sd x.prot && (x.sdP || x.holdoff = 0 && !x.condSd.2))
      ∧ (x.holdoff ≠ 0 → x.holdP = none → sf x.prot = true → x.condSf.2 = false → y.holdP = some s.dev.now))
    ∧ (∀ since, x.holdW = some since → since + 100000000 * x.holdForW ≤ s.dev.now →
      Answers (.holdoffExpiry q false) s fun t => ∃ y, t.dev.sel k = some y ∧ y.sfW = sf x.work ∧ y.sdW = sd x.work)
    ∧ (∀ since, x.holdP = some since → since + 100000000 * x.holdForP ≤ s.dev.now →
      Answers (.holdoffExpiry q true) s fun t => ∃ y, t.dev.sel k = some y ∧ y.sfP = sf x.prot ∧ y.sdP = sd x.prot)
    ∧ (x.want ≠ x.selected → Answers (.selectedChange q) s fun t => ∃ y, t.dev.sel k = some y ∧ y.selected = x.want)
    ∧ (∀ since, x.wtrStart = some since → since + 1000000000 * x.wtrFor ≤ s.dev.now →
      Answers (.wtrExpiry q) s fun t => ∃ y, t.dev.sel k = some y ∧ y.wtrStart = none ∧ y.selected = x.selected
        ∧ (x.revertive = true → x.bidir = false → x.locals = [] → y.want = false))

/-- APS_ACCEPT and FOP_TIMER (R219, R220): a far-end value, the whole APS byte set or K1 with bits 1–5 of K2, is accepted on its
third occurrence in a row; FOP_NR is declared after
a mismatch of more than 50 ms, and cleared after 50 ms without one. -/
def Sys2Proof.Claim.FarEndValuesAndProtocolFailures : Prop :=
  ∀ (s : State) (q : SelId) x, s.dev.life = .running →
    let k := selKey q.scheme.val q.n.val
    s.dev.sel k = some x → s.dev.selHeld k = false →
    (∀ rx : ApsRx, q.scheme.val ≤ 1 →
      let v := if q.scheme = 1 then rx.bytes &&& 0xFFF80000 else rx.bytes
      Answers (.apsAccept q rx) s fun t => ∃ y, t.dev.sel k = some y ∧ y.farCand = v
        ∧ (x.farCand = v → 2 ≤ x.farRun → y.far = some (apsRead q.scheme.val v))
        ∧ (x.farCand ≠ v → y.far = x.far ∧ y.farRun = 1))
    ∧ (x.nrNow = true → x.fopNr = false → x.nrSince + 50000000 < s.dev.now → Answers (.fopTimer q) s fun t =>
      ∃ y, t.dev.sel k = some y ∧ y.fopNr = true ∧ EventSet t (aSel k 4) 2)
    ∧ (x.nrNow = false → x.fopNr = true → x.nrSince + 50000000 ≤ s.dev.now → Answers (.fopTimer q) s fun t =>
      ∃ y, t.dev.sel k = some y ∧ y.fopNr = false)

/-- APS_CFG and PROT_COMMAND, as the two statements above say. -/
def Obligations.SelectorsAreSetAndCommanded : Prop := ApsCfgMakesAndUnmakesSelectors ∧ ProtectionCommandsAreTaken

/-- Conditions and far-end values of a selector, as the two statements above say. -/
def Obligations.SelectorsFollowBothEnds : Prop := SelectorsFollowTheirConditions ∧ FarEndValuesAndProtocolFailures

/-! ### Errorless merge and plane selectors -/

/-- MERGE_GROUP_CFG and MERGE_RESIZE_APPLIED (R235–R239): a legal create makes the group with the lowest free units of the
store, a delete of a group that no page names removes it, a resize grows at once or leaves a cut pending until the lag
fits, and OP 3 sets the preference. -/
def Sys2Proof.Claim.MergeGroupsAreConfigured : Prop :=
  ∀ s : State,
    (∀ c : Desc, Served 0x30 c s.dev → c.u8 1 ≤ 1 → c.u16 2 ≤ 1023 →
      let d := s.dev
      let k := c.u16 2
      let std : Bool := c.u8 1 = 1
      let skew := c.u16 10
      (c.u8 0 ≤ 1 → c.u16 4 ≤ 4095 → c.u16 6 ≤ 4095 → c.u8 8 < 8 → 2 ≤ c.u8 8 → (std = false ∨ c.bit 8 1 = false) →
        c.u8 9 = 0 → 1 ≤ skew → skew ≤ 8000 → Zeros c 12 13 → Zeros c 16 55 →
        (∀ x y, c.u8 0 = 1 → d.leafOdu (c.u16 4) = some x → d.leafOdu (c.u16 6) = some y → c.u16 4 ≠ c.u16 6 →
          (if std then x.ty ≤ 5 ∧ y.ty ≤ 5 else x.ty = 6 ∧ y.ty = 6) → shapeOfOdu x = shapeOfOdu y →
          skew ≤ skewMax std x → d.group k = none →
          (std = true → (d.point (mpKeyOf 2 0 (c.u16 4))).role ≠ 0 ∧ (d.point (mpKeyOf 2 0 (c.u16 6))).role ≠ 0) →
          d.sourceHeld 0 (c.u16 4) = false → d.sourceHeld 0 (c.u16 6) = false →
          unitsFor x skew ≤ d.freeUnits.length →
          Answers (.mergeGroupCfg c) s fun t => ∃ g, t.dev.group k = some g ∧ g.std = std ∧ g.east = c.u16 4
            ∧ g.west = c.u16 6 ∧ g.prefer = c.bit 8 0 ∧ g.insert = c.bit 8 1 ∧ g.merge = c.bit 8 2 ∧ g.maxSkew = skew
            ∧ g.units = d.freeUnits.take (unitsFor x skew) ∧ g.playing = false)
        ∧ (∀ g, c.u8 0 = 0 → d.group k = some g → d.fedBy 0 2 k = none →
          Answers (.mergeGroupCfg c) s fun t => t.dev.group k = none))
      ∧ (∀ g x, c.u8 0 = 2 → 1 ≤ skew → skew ≤ 8000 → d.group k = some g → d.odu g.east = some x →
        skew ≤ skewMax g.std x → g.cut = none →
        (g.maxSkew ≤ skew → unitsFor x skew ≤ g.units.length + d.freeUnits.length →
          Answers (.mergeGroupCfg c) s fun t => ∃ h, t.dev.group k = some h ∧ h.maxSkew = skew
            ∧ h.units = g.units ++ d.freeUnits.take (unitsFor x skew - g.units.length))
        ∧ (skew < g.maxSkew → unitsFor x skew ≤ g.units.length →
          Answers (.mergeGroupCfg c) s fun t => ∃ h, t.dev.group k = some h ∧ h.maxSkew = skew ∧ h.units = g.units
            ∧ h.cut = some (unitsFor x skew)))
      ∧ (∀ g, c.u8 0 = 3 → c.u8 8 < 8 → 2 ≤ c.u8 8 → (std = false ∨ c.bit 8 1 = false) → d.group k = some g →
        Answers (.mergeGroupCfg c) s fun t => t.dev.group k = some { g with prefer := c.bit 8 0 }))
    ∧ ∀ (k : Fin 1024) g n, s.dev.life = .running → s.dev.group k = some g → g.cut = some n →
      g.lagNow s.dev.now ≤ g.maxSkew → Answers (.mergeResizeApplied k) s fun t => ∃ h, t.dev.group k = some h
        ∧ h.units = g.units.take n ∧ h.cut = none ∧ h.maxSkew = g.maxSkew ∧ EventSet t (aMg k 4) 6
        ∧ ∀ pos, let x := tget {} g.slots pos
          let y := tget {} h.slots pos
          y.west = x.west ∧ y.good = x.good ∧ (∀ p, x.place = some p → p < g.capacity n → y = x)

/-- MERGE_COPY_SF and MERGE_UNIT_ARRIVAL (R229–R231): SF takes a copy down, and its end to ALIGNING; the second good unit in a
row brings an aligning copy up, or into SKEW where it comes after its playout; a unit in time fills its empty slot, and
replaces what the other copy left there only where that is bad.
Where R230 is silent the reading is that of log entry 69. -/
def Sys2Proof.Claim.MergeCopiesAlignAndStore : Prop :=
  ∀ (s : State) (k : Fin 1024) (west : Bool) g, s.dev.life = .running → s.dev.group k = some g → g.merge = true →
    let c := g.copy west
    let sf := s.dev.copySf (if west then g.west else g.east)
    (Answers (.mergeCopySf k west) s fun t => ∃ h, t.dev.group k = some h ∧ (h.copy west).sf = sf
      ∧ (h.copy west).st = (if sf then .down else if c.st = .down then .aligning else c.st))
    ∧ (∀ (u : MUnit) o, u.odu = some o → s.dev.isCopy o = true ∨ s.dev.isLeaf o = false →
      exec (.mergeUnitArrival k west u) s = .next s)
    ∧ ∀ u : MUnit, u.odu = none →
      let num := u.number g.std
      (c.st = .down → (∀ e ∈ c.stage, (tget {} g.slots e.pos).full = false) →
        Answers (.mergeUnitArrival k west u) s fun t => ∃ h, t.dev.group k = some h ∧ (h.copy west).st = .down
          ∧ h.slots = g.slots ∧ h.playing = g.playing ∧ h.nextUnit = g.nextUnit)
      ∧ (c.st = .aligning → unitClear u g.std = true → c.next g = some num → 1 ≤ c.goodRun →
        Answers (.mergeUnitArrival k west u) s fun t => ∃ h, t.dev.group k = some h
          ∧ (g.late num = true → (h.copy west).st = .skew)
          ∧ (g.late num = false → (h.copy west).st = .up ∧ h.playing = true)
          ∧ (g.playing = false → h.ref = west ∧ h.nextUnit = num ∧ h.nextAt = 1000 * (s.dev.now + 1000 * g.maxSkew)
            ∧ h.outAis = false))
      ∧ (c.st = .up → c.next g = some num → g.late num = true → 7 ≤ c.lateRun →
        Answers (.mergeUnitArrival k west u) s fun t => ∃ h, t.dev.group k = some h ∧ (h.copy west).st = .skew)
      ∧ (c.st = .up → c.next g ≠ some num → c.last ≠ none → unitClear u g.std = true → (if g.std then 4 else 3) ≤ c.oddRun →
        Answers (.mergeUnitArrival k west u) s fun t => ∃ h, t.dev.group k = some h ∧ (h.copy west).st = .aligning)
      ∧ (c.st = .skew → unitClear u g.std = true → g.late num = false → 7 ≤ c.earlyRun →
        Answers (.mergeUnitArrival k west u) s fun t => ∃ h, t.dev.group k = some h ∧ (h.copy west).st = .up)
      ∧ (c.st = .up → c.next g = some num → g.late num = false →
        Answers (.mergeUnitArrival k west u) s fun t => ∃ h, t.dev.group k = some h ∧ (h.copy west).st = .up
          ∧ let x := tget {} g.slots num
            let y := tget {} h.slots num
            let good := u.good g.std
            let replaces := fun (x : MSlot) (good : Bool) => x.good = false ∧ (good = true ∨ west = g.prefer)
            (x.full = false → y.full = true ∧ y.len = u.bytes.length ∧ y.west = west ∧ y.good = good
              ∧ (y.place = none → y.bytes = u.bytes ∧ y.bad = u.bad))
            ∧ (x.full = true → x.west ≠ west → g.std = false →
              (if replaces x good then y.len = u.bytes.length ∧ y.west = west ∧ y.good = good
                else y.len = x.len ∧ y.west = x.west ∧ y.good = x.good)
              ∧ (x.good = true → good = true → x.crc ≠ crcField u.bytes → EventSet t (aMg k 4) 5))
            ∧ (x.full = true → x.west ≠ west → g.std = true → (∀ e ∈ c.stage, e.pos ≠ num) →
              y.len = x.len ∧ y.west = x.west ∧ y.good = x.good
              ∧ ((h.copy west).stage.head?.map MStage.bytes) = some u.bytes)
            ∧ ∀ a e more, g.std = true → c.stage = a :: e :: more → e.pos ≠ num →
              let v := tget {} g.slots e.pos
              let z := tget {} h.slots e.pos
              let ok := !e.defect && decide (u.nBip = 0)
              v.full = true →
              (v.west = west → z.good = ok ∧ z.west = west)
              ∧ (v.west ≠ west → e.bytes ≠ [] →
                if replaces v ok then z.len = e.bytes.length ∧ z.west = west ∧ z.good = ok
                else z.len = v.len ∧ z.west = v.west ∧ z.good = v.good))

/-- MERGE_PLAYOUT (R230, R232, R233, R237): a unit's instant plays out what its slot holds, read from the banks, with its BIP-8
recomputed in standard mode, and moves on by one position and by the unit's period within 200 ppm of the loop and 100 ppm of a
resize; a missing unit is ODU-AIS in standard mode and an empty block in native mode.
The loop's filter is free (log entry 107). -/
def Sys2Proof.Claim.MergePlaysOutEachUnitOnce : Prop :=
  ∀ (s : State) (k : Fin 1024) g, s.dev.life = .running → s.dev.group k = some g → g.playing = true →
    g.nextAt ≤ 1000 * s.dev.now →
    let x := tget {} g.slots g.nextUnit
    let bytes := match x.place with | some p => (heldBytes s (g.slotPlaces p x.len)).take x.len | none => x.bytes
    let bad := if x.place.isSome then [] else x.bad
    Answers (.mergePlayout k) s fun t => (∃ h, t.dev.group k = some h
        ∧ h.nextUnit = (g.nextUnit + 1) % (if g.std then 256 else 2 ^ 32) ∧ tget {} h.slots g.nextUnit = {}
        ∧ ∃ ppb : Int, -300000 ≤ ppb ∧ ppb ≤ 300000
          ∧ h.nextAt = g.nextAt + s.dev.unitPeriod g * 1000000000 / (1000000000 + ppb).toNat)
      ∧ (x.full = true → (∀ p, x.place = some p → Sound s (g.slotPlaces p x.len)) →
        .mergeUnit k bytes bad (g.std && bytes.isEmpty) (g.ref && !g.std)
          (if g.std then s.dev.recomputed (if x.west then g.west else g.east) bytes (!x.good) else []) ∈ t.dev.host.out)
      ∧ (x.full = true → x.good = false → EventSet t (aMg k 4) 3)
      ∧ (x.full = false → g.std = true → t.dev.host.out.head? = some (.mergeUnit k [] [] true false []))
      ∧ (x.full = false → EventSet t (aMg k 4) 4)
      ∧ (x.full = false → g.std = false → ∃ bs, .mergeUnit k bs [] false g.ref [] ∈ t.dev.host.out ∧ bs.length = 1024
        ∧ bs.take 1016 = List.replicate 1016 0 ∧ (bs.drop 1016).take 4 = be 4 g.nextUnit
        ∧ crcField bs ≠ (crcOf 0 (bs.take 1020)).toNat)

/-- PSEL_WORD (R19, R24, R240, R241, R243): in DUAL a word of the plane ahead is held, and with its partner one of the two leaves: the
preferred copy, or the other where the preferred one alone is poisoned; of a port that only one plane feeds, that plane's
words leave as they are, and so do the carrying plane's after a resynchronisation until both planes present one position. The
cells of a port leave by its lanes in rotation, which goes by the cell number (log entry 115).
What becomes of a word that comes behind is the reading of log entry 71. -/
def Obligations.PlaneSelectorForwardsOneCopy : Prop :=
  ∀ (s : State) (p : Fin 64) (plane : Fin 2) (w : SelWord), s.dev.life = .running → s.dev.portOn p = true →
    let x := s.dev.psel p
    let bad := w.p || !parityOk w.d w.c
    (s.dev.selTakes p = [0, 1] → x.joining = none →
      (x.held = [] →
        let cell := unwrapCell (if x.pos ≠ 0 then x.pos / 8 else 65536 + w.cell.toNat) w.cell
        x.pos ≤ 8 * cell + w.w.val →
        Answers (.pselWord p plane w) s fun t => (t.dev.psel p).ahead = plane
          ∧ (t.dev.psel p).held = [{ cell := cell, w := w.w.val, d := w.d, c := w.c, p := bad }])
      ∧ ∀ y rest, x.held = y :: rest → x.ahead ≠ plane → y.w = w.w.val →
        unwrapCell (if x.pos ≠ 0 then x.pos / 8 else y.cell) w.cell = y.cell → x.pos ≤ 8 * y.cell + y.w →
        let out := fun (v : Data) (q : Bool) => Out.selWord p (p + y.cell % (s.dev.port p).lanes) (y.cell % 65536) y.w v q
        Answers (.pselWord p plane w) s fun t =>
          (bad = true → y.p = false → t.dev.host.out.head? = some (out y.d false))
          ∧ (bad = false → y.p = true → t.dev.host.out.head? = some (out w.d false))
          ∧ (bad = true → y.p = true →
            out (if s.dev.plane.preferred = plane then w.d else y.d) true ∈ t.dev.host.out)
          ∧ (bad = false → y.p = false → y.d = w.d → y.c = w.c → t.dev.host.out.head? = some (out w.d false)
            ∧ (t.dev.psel p).held = rest ∧ (t.dev.psel p).pos = 8 * y.cell + y.w + 1))
    ∧ (s.dev.selTakes p = [plane] → bad = false → Answers (.pselWord p plane w) s fun t => ∃ cell, cell % 65536 = w.cell.toNat
      ∧ t.dev.host.out.head? = some (.selWord p (p + cell % (s.dev.port p).lanes) w.cell.toNat w.w.val w.d false))
    ∧ ∀ back, s.dev.selTakes p = [0, 1] → x.joining = some back → plane ≠ back → x.held = [] → bad = false →
      Answers (.pselWord p plane w) s fun t => (t.dev.psel p).joining = some back ∧ ∃ cell, cell % 65536 = w.cell.toNat
        ∧ t.dev.host.out.head? = some (.selWord p (p + cell % (s.dev.port p).lanes) w.cell.toNat w.w.val w.d false)

/-- Merge groups, as the three statements above say. -/
def Obligations.MergeGroupsAlignAndPlay : Prop := MergeGroupsAreConfigured ∧ MergeCopiesAlignAndStore ∧ MergePlaysOutEachUnitOnce

/-! ### Timing and calibration -/

/-- TSU_REF_CFG (R287, R312): section 0 sets a reference, which starts afresh where its enable changes, section 1 the global
settings, and section 2 an output. -/
def Sys2Proof.Claim.TsuRefCfgSetsReferencesAndOutputs : Prop :=
  ∀ (s : State) (c : Desc), Served 0x50 c s.dev →
    let r := c.u8 1
    (c.u8 0 = 0 →
      let pps := c.bit 2 1
      r ≤ 69 → c.u8 2 < 8 → (pps = true → 64 ≤ r ∧ r ≤ 67) → c.u8 4 ≤ 15 → c.u8 5 = 0 → bwOk r pps (c.u16 6) = true →
      (if 64 ≤ r ∧ r ≤ 67 then (if pps then c.u32 8 = 1 else 1000 ≤ c.u32 8 ∧ c.u32 8 ≤ 200000000) else c.u32 8 = 0) →
      100 ≤ c.u32 12 → c.u32 12 < c.u32 16 → c.u32 12 ≤ 50000 → 200 ≤ c.u32 16 → c.u32 16 ≤ 100000 → 1 ≤ c.u16 20 →
      c.u16 20 ≤ 1000 → c.u16 22 ≤ 1200 → (c.s32 24).natAbs ≤ 1000000 → (pps = true ∨ c.s32 24 = 0) →
      (r = 69 → 1 ≤ c.u8 28) → Zeros c 29 55 →
      (if s.dev.worker then r = 68 ∨ c.u8 3 = 0 else r ≠ 68 ∨ c.bit 2 0 = false) →
      (c.bit 2 2 = true → s.dev.sdhLane r = true) →
      Answers (.tsuRefCfg c) s fun t =>
        let y := t.dev.tref r
        y.enable = c.bit 2 0 ∧ y.pps = pps ∧ y.qlSrc = c.bit 2 2 ∧ y.prio = c.u8 3 ∧ y.ql = c.u8 4 ∧ y.bw = c.u16 6
        ∧ y.freq = c.u32 8 ∧ y.soft = c.u32 12 ∧ y.hard = c.u32 16 ∧ y.drift = c.u16 20 ∧ y.wtr = c.u16 22
        ∧ y.delay = c.s32 24 ∧ (r = 69 → y.steerTo = c.u8 28)
        ∧ ((s.dev.tref r).enable ≠ y.enable → y.st = (if y.enable then 1 else 0) ∧ y.offset = none ∧ y.active = false))
    ∧ (c.u8 0 = 1 → r ≤ 3 → c.u8 2 ≤ 7 → c.u8 3 ≤ 69 → c.u8 4 ≤ 15 → c.u8 5 = 0 → 10 ≤ c.u16 6 → c.u16 6 ≤ 10000 →
      60 ≤ c.u32 8 → c.u32 8 ≤ 1209600 → Zeros c 12 55 → Answers (.tsuRefCfg c) s fun t =>
        let u := t.dev.tsu
        u.mode = r ∧ u.revertive = c.bit 2 0 ∧ u.qlEn = c.bit 2 1 ∧ u.hoEn = c.bit 2 2 ∧ u.forceRef = c.u8 3
        ∧ u.ownQl = c.u8 4 ∧ u.dispute = c.u16 6 ∧ u.hoMax = c.u32 8)
    ∧ (c.u8 0 = 2 → (∀ k ∈ outChecks c, k.2 = true) → (r = 5 → (s.dev.tout 5).mode = 0 ∨ c.u8 2 = 0
        ∨ (s.dev.tout 5).mode = c.u8 2) → Answers (.tsuRefCfg c) s fun t =>
        let y := t.dev.tout r
        y.mode = c.u8 2 ∧ y.flags = c.u8 3 ∧ y.freq = c.u32 4 ∧ y.width = c.u32 8 ∧ y.offset = c.u32 12
        ∧ y.phase = centred ((s.dev.tout r).phase + ((s.dev.tout r).offset - c.u32 12)) (outCycle r y)
        ∧ ((s.dev.tout r).freq ≠ c.u32 4 → ∃ a, t.dev.tsu.realign = s.dev.tsu.realign ++ [a] ∧ a.mask = 2 ^ r))

/-- TSU_STEER (R302, R305, R313): OP 0 gives reference 69 its frequency, which is the frequency term while it is selected;
OP 1 moves the time counter, OP 2 sets it, and TSU_HIST.TIME_STEP is set. -/
def Sys2Proof.Claim.TsuSteerMovesFrequencyAndTime : Prop :=
  ∀ (s : State) (c : Desc), Served 0x51 c s.dev → (c.u8 1 = 0 ∨ c.u8 0 = 0 ∧ c.u8 1 = 1) → Zeros c 2 7 →
    (c.s32 8).natAbs ≤ 200000000 → (c.s64 12).natAbs ≤ 10 ^ 15 → Zeros c 26 27 → c.u32 28 ≤ 999999999 → Zeros c 32 55 →
    (c.u8 0 = 0 → (s.dev.tref 69).enable = true → Answers (.tsuSteer c) s fun t =>
      t.dev.tsu.steer = c.s32 8 ∧ t.dev.tsu.steerAt = s.dev.now ∧ (t.dev.tref 69).active = true
      ∧ (s.dev.tsu.sel = some 69 → s.dev.tsu.st = 1 ∨ s.dev.tsu.st = 2 → t.dev.tsu.freqTerm = c.s32 8
        ∧ t.dev.tsu.st = if c.bit 1 0 then 2 else 1))
    ∧ (s.dev.worker = false →
      (c.u8 0 = 1 → Answers (.tsuSteer c) s fun t =>
        t.dev.timeNs = (s.dev.timeNs + c.s64 12) % (2 ^ 48 * 1000000000 : Int) ∧ EventSet t aTsuHist 8
        ∧ t.dev.now = s.dev.now)
      ∧ (c.u8 0 = 2 → Answers (.tsuSteer c) s fun t =>
        t.dev.tsu.sec.toNat = leNat (c.bytes 20 6) ∧ t.dev.tsu.ns = c.u32 28 ∧ EventSet t aTsuHist 8
        ∧ t.dev.now = s.dev.now))

/-- TSU_REALIGN and OUTPUT_ALIGNMENT (R309, R314): outputs wait at least 1 ms for their alignment, and at the first second
boundary of the counter from then on they stand at their aligned phase. -/
def Sys2Proof.Claim.OutputsRealignAtTheBoundary : Prop :=
  ∀ s : State,
    (∀ c : Desc, Served 0x52 c s.dev → 1 ≤ c.u8 0 → c.u8 0 ≤ 63 → Zeros c 1 55 → s.dev.awaiting (c.u8 0) = none →
      Answers (.tsuRealign c) s fun t => t.dev.tsu.realign = s.dev.tsu.realign
          ++ [{ mask := c.u8 0, notBefore := s.dev.now + 1000000, job := some s.dev.host.nextJob }]
        ∧ ∃ j ∈ t.dev.host.jobs, j.id = s.dev.host.nextJob ∧ j.desc = c)
    ∧ (∀ a ∈ s.dev.tsu.realign, s.dev.life = .running → s.dev.tsu.ns < 8 → a.notBefore + s.dev.tsu.ns ≤ s.dev.now →
      Answers .outputAlignment s fun t =>
        (∀ o, o < 6 → a.mask.testBit o = true → (t.dev.tout o).phase = 0) ∧ EventSet t aTsuHist 9
        ∧ ∀ b, b ∈ t.dev.tsu.realign ↔ b ∈ s.dev.tsu.realign ∧ s.dev.now < b.notBefore + s.dev.tsu.ns)
    ∧ (s.dev.life = .running → 8 ≤ s.dev.tsu.ns → exec .outputAlignment s = .next s)

/-- The references (R284–R287, R289): OFFSET is a frequency input's measurement and the slope of the last 16 pulses of a 1PPS,
and DRIFT its change over the interval; a measurement within its limits begins WTR, one beyond HARD_PPB fails the reference;
loss of activity, signal fail and a late host servo fail it with causes 1, 4 and 5; the end of WTR makes it AVAILABLE; the
eighth frame of a new S1 is accepted. -/
def Sys2Proof.Claim.ReferencesQualifyAndFail : Prop :=
  ∀ (s : State) (r : Fin 70), s.dev.life = .running →
    let x := s.dev.tref r
    (∀ offset phase, x.enable = true → r.val ≠ 69 → (r.val < 64 ∨ r.val = 68 → s.dev.refActive r = true) →
      (r.val < 64 → s.dev.refSf r = false) →
      (x.pps = false → s.dev.measuredNow r = false → Answers (.refMeasurement r offset phase) s fun t =>
        let y := t.dev.tref r
        y.offset = some offset ∧ y.softWarn = decide (x.soft * 1000 < offset.natAbs)
        ∧ (∀ t0 o0, (s.dev.offsOf x offset).getLast? = some (t0, o0) →
          (s.dev.now < t0 + 10000000000 → y.driftM = none)
          ∧ (t0 + 10000000000 ≤ s.dev.now → ∃ v, y.driftM = some v ∧ (v * 10 - (offset - o0)).natAbs < 10))
        ∧ (x.st ≠ 0 → y.driftM ≠ none → x.hard * 1000 < offset.natAbs → y.st = 1 ∧ y.cause = 2)
        ∧ (∀ v, x.st = 1 → y.driftM = some v → offset.natAbs ≤ x.hard * 1000 → v.natAbs ≤ x.drift * 1000 → y.cause = 0
          ∧ (y.st = 2 ∨ y.st = 3)))
      ∧ (x.pps = true → Answers (.refMeasurement r offset phase) s fun t =>
        let ps := (phase :: x.pulses).take 16
        (ps.length = 16 → ∃ o : Int, (t.dev.tref r).offset = some o
          ∧ (o * 680 - 1000 * (ps.zipIdx.map fun p => (15 - 2 * (p.2 : Int)) * p.1).sum).natAbs < 680)
        ∧ (ps.length < 16 → (t.dev.tref r).offset = x.offset ∧ (t.dev.tref r).pulses = ps)))
    ∧ (x.st ≠ 0 → r.val ≠ 69 → (r.val < 64 ∨ r.val = 68 → s.dev.refActive r = false) →
      Answers (.refActivityLost r) s fun t =>
        (t.dev.tref r).st = 1 ∧ (t.dev.tref r).cause = 1 ∧ (t.dev.tref r).offset = none)
    ∧ (x.st ≠ 0 → r.val < 64 → s.dev.refActive r = true → s.dev.refSf r = true → Answers (.refSignalFail r) s fun t =>
      (t.dev.tref r).st = 1 ∧ (t.dev.tref r).cause = 4)
    ∧ ((s.dev.tref 69).st ≠ 0 → s.dev.tsu.steerAt + (s.dev.tref 69).steerTo * 1000000000 ≤ s.dev.now →
      Answers .refSteerTimeout s fun t => (t.dev.tref 69).st = 1 ∧ (t.dev.tref 69).cause = 5)
    ∧ (x.st = 2 → s.dev.refFail r = none → x.wtrSince + s.dev.wtrLength r ≤ s.dev.now → Answers (.refWtrExpiry r) s fun t =>
      (t.dev.tref r).st = 3 ∧ EventSet t (aRefEvent r) 1)
    ∧ ∀ ql : BitVec 4, x.enable = true → x.qlSrc = true → Answers (.refQlChange r ql) s fun t =>
      let y := t.dev.tref r
      y.s1Cand = ql.toNat ∧ (x.s1Cand ≠ ql.toNat → y.s1Run = 1 ∧ y.s1 = x.s1)
      ∧ (x.s1Cand = ql.toNat → 7 ≤ x.s1Run → y.s1 = ql.toNat)

/-- The TSU's states (R292, R298–R300): a new choice is acquired, and none left is LOST; the dwell inside the lock window
locks, and that outside four windows falls back; LOST becomes HOLDOVER with a valid history and FREE_RUN otherwise;
HOLDOVER_MAX ends in FREE_RUN, which discards the history; each second in LOCKED enters its mean in the history.
The frequency term at entry is left open (log entry 34). -/
def Sys2Proof.Claim.TsuStatesFollowTheReference : Prop :=
  ∀ s : State, s.dev.life = .running →
    let d := s.dev
    (∀ e, (∀ r, d.choose = some r → d.tsu.sel ≠ some r → Answers (.refSelection e) s fun t =>
        t.dev.tsu.st = 1 ∧ t.dev.tsu.sel = some r ∧ EventSet t aTsuHist 5)
      ∧ (d.choose = none → d.tsu.sel ≠ none → Answers (.refSelection e) s fun t =>
        t.dev.tsu.st = 4 ∧ t.dev.tsu.sel = none ∧ t.dev.tsu.freqTerm = d.tsu.lastTerm)
      ∧ (∀ r, d.choose = some r → d.tsu.sel = some r → r ≠ 69 → d.tsu.st = 1 ∨ d.tsu.st = 2 →
        Answers (.refSelection e) s fun t => t.dev.tsu.phaseErr = e ∧ t.dev.tsu.sel = some r ∧ t.dev.tsu.st = d.tsu.st))
    ∧ (∀ r, d.tsu.sel = some r → r ≠ 69 → d.tsu.st = 1 → d.tsu.inSince + (d.lockOf r).2 ≤ d.now →
      d.tsu.phaseErr.natAbs ≤ (d.lockOf r).1 → Answers .tsuLocked s fun t =>
        t.dev.tsu.st = 2 ∧ t.dev.tsu.sel = some r ∧ EventSet t aTsuHist 2 ∧ t.dev.tsu.lockedAt = d.now)
    ∧ (∀ r, d.tsu.sel = some r → r ≠ 69 → d.tsu.st = 2 → d.tsu.outSince + (d.lockOf r).2 ≤ d.now →
      4 * (d.lockOf r).1 < d.tsu.phaseErr.natAbs → Answers .tsuPhaseLoss s fun t =>
        t.dev.tsu.st = 1 ∧ t.dev.tsu.sel = some r ∧ t.dev.tsu.hist = d.tsu.hist.drop 2
        ∧ (64 ≤ r → r < 68 → (d.tref r).pps = true → 1000 < d.tsu.phaseErr.natAbs → EventSet t aTsuHist 8))
    ∧ (d.tsu.st = 4 →
      (∀ r, d.choose = some r → d.tsu.sel ≠ some r → Answers .tsuLostResolve s fun t =>
        t.dev.tsu.st = 1 ∧ t.dev.tsu.sel = some r)
      ∧ (d.choose = none → 300 ≤ d.tsu.hist.length → d.tsu.hoEn = true → d.tsu.mode ≠ 3 → Answers .tsuLostResolve s fun t =>
        t.dev.tsu.st = 3 ∧ ((d.tsu.hist.take 300).sum % 300 = 0 → t.dev.tsu.freqTerm = (d.tsu.hist.take 300).sum / 300))
      ∧ (d.choose = none → d.tsu.hist.length < 300 ∨ d.tsu.hoEn = false ∨ d.tsu.mode = 3 → Answers .tsuLostResolve s fun t =>
        t.dev.tsu.st = 0 ∧ t.dev.tsu.hist = [] ∧ t.dev.tsu.freqTerm = 0))
    ∧ (d.tsu.st = 3 → d.tsu.since + d.tsu.hoMax * 1000000000 ≤ d.now → d.choose = none → Answers .tsuHoldoverExpired s fun t =>
      t.dev.tsu.st = 0 ∧ t.dev.tsu.hist = [] ∧ EventSet t aTsuHist 6)
    ∧ ∀ mean, d.tsu.st = 2 → d.tsu.histAt + 1000000000 ≤ d.now → Answers (.historySecond mean) s fun t =>
      ∃ m : Int, t.dev.tsu.hist = (m :: d.tsu.hist).take histMax ∧ t.dev.tsu.histAt = d.now
        ∧ (d.tsu.sel ≠ some 69 → m = mean ∧ t.dev.tsu.freqTerm = mean)
        ∧ (d.tsu.sel = some 69 → let n := d.now - d.tsu.histAt
          (m * n - (d.tsu.meanSum + d.tsu.steer * (d.now - d.tsu.meanAt : Nat))).natAbs < n)

/-- CAL_RUN, CAL_RUN_WINDOW_END and CAL_TABLE_COMMIT (R319, R323–R327): a run whose preconditions hold starts for its point,
and ends with the means over its time of the DCO value and of the temperature as that point where temperatures still rise; a table is
stored, made active, or both, and C follows the active one. -/
def Sys2Proof.Claim.CalibrationSetsItsPoints : Prop :=
  ∀ s : State,
    (∀ c : Desc, Served 0x53 c s.dev →
      (c.u8 0 = 0 → c.u8 1 ≤ 3 → c.u8 2 ≤ 7 → c.u8 2 ≤ (s.dev.calSet (c.u8 1)).length → c.u8 3 = 0 → 100 ≤ c.u16 4 →
        c.u16 4 ≤ 10000 → Zeros c 6 7 → Zeros c 9 11 → Zeros c 18 55 → s.dev.cal.run = none → s.dev.calReason = none →
        Answers (.calRun c) s fun t => t.dev.cal.run = some { set := c.u8 1, point := c.u8 2, window := c.u16 4
                                                              job := s.dev.host.nextJob, start := s.dev.now
                                                              temp0 := s.dev.cal.temp, mark := s.dev.now })
      ∧ (∀ x, c.u8 0 = 1 → s.dev.cal.run = some x → s.dev.now < x.start + x.window * 1000000000 →
        Answers (.calRun c) s fun t => t.dev.cal.run = none ∧ EventSet t aCalEvent 1))
    ∧ (∀ x, s.dev.life = .running → s.dev.cal.run = some x → x.start < s.dev.now →
      x.start + x.window * 1000000000 ≤ s.dev.now →
      Answers .calRunWindowEnd s fun t => t.dev.cal.run = none ∧ ∃ p : CalPoint,
        let n := s.dev.now - x.start
        let y := x.upTo s.dev.dco s.dev.cal.temp s.dev.now
        2 * (p.value * n - y.sumDco).natAbs ≤ n ∧ (p.temp * n - y.sumTemp).natAbs < n
        ∧ let new := (s.dev.calSet x.set).take x.point ++ [p] ++ (s.dev.calSet x.set).drop (x.point + 1)
          (risesOk new = true → t.dev.calSet x.set = new ∧ EventSet t aCalEvent 0)
          ∧ (risesOk new = false → t.dev.cal.sets = s.dev.cal.sets ∧ EventSet t aCalEvent 1))
    ∧ ∀ c : Desc, Served 0x54 c s.dev → c.u8 1 ≤ 3 →
      (c.u8 0 = 1 → Answers (.calTableCommit c) s fun t =>
        t.dev.cal.active = c.u8 1 ∧ t.dev.cal.sets = s.dev.cal.sets ∧ t.dev.cal.corr = t.dev.corrNow)
      ∧ (c.u8 0 = 0 ∨ c.u8 0 = 2 → c.u8 2 ≤ 8 → Zeros c 3 7 → (∀ k ∈ calPointChecks c (c.u8 2), k.2 = true) →
        (∀ x, s.dev.cal.run = some x → x.set ≠ c.u8 1) → Answers (.calTableCommit c) s fun t =>
          (t.dev.calSet (c.u8 1)).length = c.u8 2
          ∧ (∀ p, p < c.u8 2 →
            (t.dev.calSet (c.u8 1))[p]? = some { temp := c.s16 (8 + 6 * p), value := c.s32 (10 + 6 * p) })
          ∧ t.dev.cal.active = (if c.u8 0 = 2 then c.u8 1 else s.dev.cal.active)
          ∧ (t.dev.cal.active = c.u8 1 → t.dev.cal.corr = t.dev.corrNow))

/-- CAL_SECOND and TEMP_READ (R318–R322, R324): once in each second C is that of the active set at the temperature in use, and
a run sums up to then; a read, once in each second too, sets the temperature, that of the I2C sensor by a transfer to its address and
pointer in the first 100 ms, and the fifth I2C read in a row to fail sets SRC_FAIL, after which the own sensor is read. -/
def Sys2Proof.Claim.CorrectionFollowsTheTemperature : Prop :=
  ∀ s : State, s.dev.life = .running →
    let d := s.dev
    let i2c := bit (d.reg 0x60000) 0 = true ∧ d.cal.srcFail = false
    let sends := Out.i2c (fld (d.reg 0x60000) 1 7) (fld (d.reg 0x60000) 8 8)
    (d.cal.corrSec < d.elapsedSec → Answers .calSecond s fun t => t.dev.cal.corr = d.corrNow
      ∧ t.dev.tsu.lastTerm = t.dev.tsu.freqTerm ∧ t.dev.cal.corrSec = d.elapsedSec
      ∧ t.dev.cal.run = d.cal.run.map fun x => x.upTo d.dco d.cal.temp d.now)
    ∧ (d.elapsedSec ≤ d.cal.corrSec → exec .calSecond s = .next s)
    ∧ (d.cal.readSec = some d.elapsedSec → ∀ res, exec (.tempRead res) s = .next s)
    ∧ (d.cal.readSec ≠ some d.elapsedSec →
      (∀ v : Int, -32768 ≤ v → v ≤ 32767 →
        (¬ i2c → Answers (.tempRead (.onDie v)) s fun t => t.dev.cal.temp = v ∧ t.dev.cal.i2c = false
          ∧ t.dev.cal.readSec = some d.elapsedSec)
        ∧ (i2c → exec (.tempRead (.onDie v)) s = .next s))
      ∧ (¬ i2c ∨ 100000000 ≤ d.now % 1000000000 → ∀ ans, exec (.tempRead (.i2c ans)) s = .next s)
      ∧ (i2c → d.now % 1000000000 < 100000000 →
        (∀ hi lo : Byte, Answers (.tempRead (.i2c (some (hi, lo)))) s fun t =>
          t.dev.cal.temp = signed 16 (256 * hi.toNat + lo.toNat) ∧ t.dev.cal.i2c = true ∧ t.dev.cal.fails = 0
          ∧ t.dev.cal.readSec = some d.elapsedSec ∧ sends ∈ t.dev.host.out)
        ∧ Answers (.tempRead (.i2c none)) s fun t =>
          t.dev.cal.fails = d.cal.fails + 1 ∧ t.dev.cal.temp = d.cal.temp ∧ t.dev.cal.i2c = true ∧ sends ∈ t.dev.host.out
          ∧ t.dev.cal.readSec = some d.elapsedSec ∧ t.dev.cal.srcFail = decide (d.cal.fails = 4)
          ∧ (d.cal.fails = 4 → EventSet t aCalEvent 2)))

/-- TSU_REF_CFG, TSU_STEER and TSU_REALIGN, as the three statements above say. -/
def Obligations.TimingSettingsTakeEffect : Prop := TsuRefCfgSetsReferencesAndOutputs ∧ TsuSteerMovesFrequencyAndTime ∧ OutputsRealignAtTheBoundary

/-- References and the states of the TSU, as the two statements above say. -/
def Obligations.ReferencesLeadTheTsu : Prop := ReferencesQualifyAndFail ∧ TsuStatesFollowTheReference

/-- Calibration, as the two statements above say. -/
def Obligations.CalibrationCorrectsTheOscillator : Prop := CalibrationSetsItsPoints ∧ CorrectionFollowsTheTemperature

/-! ### Twill engines -/

/-- ENGINE_PKG_LOAD, TW_PKG_STAGED and TW_PKG_LOADED (R338, R354, R355): OP 0 waits for the security processor, which stages a
package only when it verifies; OP 1 begins the load of the staged package into a plane that is fenced, whose engines then
hold its code; OP 2 discards the staged package. -/
def Sys2Proof.Claim.PackagesAreStagedAndLoaded : Prop :=
  ∀ s : State,
    (∀ c : Desc, Served 0x70 c s.dev → Zeros c 2 7 → Zeros c 21 23 → Zeros c 32 55 →
      (c.u8 0 = 0 → 1024 ≤ c.u32 16 → c.u32 16 ≤ 65536 → s.dev.staging = false → s.dev.twill.loading = none →
        Answers (.enginePkgLoad c) s fun t => t.dev.sec.waiting = s.dev.sec.waiting
          ++ [{ job := s.dev.host.nextJob, work := .stage (c.u32 16), addr := wordOf c.body 8 }])
      ∧ (∀ k, c.u8 0 = 1 → c.u8 1 ≤ 1 → s.dev.staging = false → s.dev.twill.loading = none →
        s.dev.planeFenced (c.u8 1) = true → s.dev.plane.resync = none → s.dev.twill.staged = some k →
        Answers (.enginePkgLoad c) s fun t => ∃ x, t.dev.twill.loading = some x ∧ x.plane.val = c.u8 1 ∧ x.pkg = k
          ∧ x.bytes = s.dev.sec.pkgBytesStage ∧ x.job = s.dev.host.nextJob)
      ∧ (∀ k, c.u8 0 = 2 → s.dev.twill.staged = some k → Answers (.enginePkgLoad c) s fun t =>
        t.dev.twill.staged = none ∧ t.dev.sec.pkgBytesStage = []))
    ∧ (s.dev.life = .running →
      (∀ x n r, s.dev.sec.service = some x → x.work = .stage n → Answers (.twPkgStaged r) s fun t =>
        t.dev.sec.service = none
        ∧ (r = .failed → t.dev.twill.staged = s.dev.twill.staged)
        ∧ ∀ bs, r = .data bs →
          if bs.length = n ∧ pkgReason s.dev.sec.counter bs = 0 then
            t.dev.twill.staged = some (pkgHeader bs) ∧ t.dev.sec.pkgBytesStage = bs.take (64 + pkgCode bs)
          else t.dev.twill.staged = s.dev.twill.staged ∧ t.dev.sec.pkgBytesStage = s.dev.sec.pkgBytesStage)
      ∧ ∀ x, s.dev.twill.loading = some x → Answers .twPkgLoaded s fun t =>
        t.dev.twill.loading = none ∧ t.dev.pkgOf x.plane.val = some x.pkg ∧ t.dev.pkgBytes x.plane.val = x.bytes
        ∧ ∀ i a, i < 128 → a < 2048 → wordData t.mem (160 + (128 * x.plane.val + i)) a = wordOf x.bytes (64 + 8 * a))

/-- PLANE_HANDOVER and TW_HANDOVER_DONE (R356, R357): OP 0 fences a plane of two that are sound; OP 1 begins a handover to the
fenced plane, at whose end that plane is the preferred one and the other is fenced. -/
def Sys2Proof.Claim.PlanesHandOver : Prop :=
  ∀ s : State,
    (∀ c : Desc, Served 0x71 c s.dev → c.u8 1 ≤ 1 → Zeros c 2 55 → s.dev.plane.resync = none →
      (c.u8 0 = 0 → s.dev.planeState = 0 → s.dev.firstFenced (1 - c.u8 1) = none →
        Answers (.planeHandover c) s fun t => t.dev.planeFenced (c.u8 1) = true
          ∧ t.dev.planeFenced (1 - c.u8 1) = s.dev.planeFenced (1 - c.u8 1) ∧ t.dev.plane.preferred.val = 1 - c.u8 1)
      ∧ (∀ k, c.u8 0 = 1 → s.dev.planeFenced (c.u8 1) = true → s.dev.firstFenced (c.u8 1) = none →
        s.dev.pkgOf (c.u8 1) = some k → (s.dev.pkgOf (1 - c.u8 1)).map Pkg.cat = some k.cat →
        Answers (.planeHandover c) s fun t => ∃ r, t.dev.plane.resync = some r ∧ r.plane.val = c.u8 1
          ∧ r.why = .handover ∧ r.copied = false ∧ r.job = s.dev.host.nextJob))
    ∧ ∀ r, s.dev.life = .running → s.dev.plane.resync = some r → r.why = .handover → r.copied = true →
      Answers .twHandoverDone s fun t => t.dev.plane.resync = none ∧ t.dev.plane.preferred = r.plane
        ∧ t.dev.planeFenced r.plane.val = false ∧ t.dev.planeFenced (1 - r.plane.val) = true

/-- ENGINE_CFG and ENGINE_MOVE_DONE (R341, R353, R361, R362): section 0 sets a slice's budget, section 1 begins a move, from
which on FROM has no message, and section 2 creates and deletes a DCC monitor; at the end of a move the functions of FROM run on TO, and
other moves go on, but for those to FROM where a read of its store fences it. -/
def Sys2Proof.Claim.EngineCfgBudgetsMovesAndMonitors : Prop :=
  ∀ s : State,
    (∀ c : Desc, Served 0x72 c s.dev →
      (c.u8 0 = 0 → c.u8 1 ≤ 7 → c.u16 2 ≤ 16000 → Zeros c 4 55 →
        Answers (.engineCfg c) s fun t => t.dev.budget (c.u8 1) = c.u16 2)
      ∧ (c.u8 0 = 1 → c.u8 1 ≤ 7 → c.u8 2 ≤ 15 → c.u8 3 ≤ 15 → c.u8 3 ≠ c.u8 2 → Zeros c 5 55 →
        s.dev.inMove (c.u8 1) (c.u8 2) = false → s.dev.inMove (c.u8 1) (c.u8 3) = false →
        s.dev.funcsOn (c.u8 1) (c.u8 2) ≠ [] → s.dev.engineFencedAny (c.u8 1) (c.u8 3) = false →
        s.dev.unitsOn (c.u8 1) (c.u8 3) + s.dev.unitsOn (c.u8 1) (c.u8 2) ≤ 1000 →
        s.dev.bytesOn (c.u8 1) (c.u8 3) + s.dev.bytesOn (c.u8 1) (c.u8 2) ≤ 30720 →
        Answers (.engineCfg c) s fun t => t.dev.twill.moves = s.dev.twill.moves
            ++ [{ slice := c.u8 1, src := c.u8 2, dst := c.u8 3, job := s.dev.host.nextJob }]
          ∧ ∀ p : Fin 2, (t.dev.queue (.twIn (engineId p.val (c.u8 1) (c.u8 2)))).items = [])
      ∧ (∀ k, c.u8 0 = 1 → c.u8 1 ≤ 7 → c.u8 2 ≤ 15 → c.u8 3 = 0xFF → Zeros c 5 55 →
        s.dev.inMove (c.u8 1) (c.u8 2) = false → s.dev.funcsOn (c.u8 1) (c.u8 2) ≠ [] →
        s.dev.bestEngine (c.u8 1) (s.dev.unitsOn (c.u8 1) (c.u8 2)) (s.dev.bytesOn (c.u8 1) (c.u8 2))
          (fun k => s.dev.eligible (c.u8 1) k && decide (k ≠ c.u8 2) && !s.dev.inMove (c.u8 1) k) = some k →
        Answers (.engineCfg c) s fun t => t.dev.twill.moves = s.dev.twill.moves
          ++ [{ slice := c.u8 1, src := c.u8 2, dst := k, job := s.dev.host.nextJob }])
      ∧ (c.u8 0 = 2 → c.u8 2 ≤ 7 → c.u8 3 ≤ 63 → c.u8 4 ≤ 2 → c.u8 5 ≤ 15 → c.u8 6 ≤ 15 → Zeros c 7 55 →
        (c.u8 1 = 0 → (s.dev.dcc (c.u8 2)).made = true → Answers (.engineCfg c) s fun t => t.dev.dcc (c.u8 2) = {})
        ∧ (∀ k, c.u8 1 = 1 → c.u8 5 ≠ c.u8 6 →
          (if c.u8 4 = 2 then isOtn (s.dev.port (c.u8 3)).format else isSdh (s.dev.port (c.u8 3)).format) = true →
          (s.dev.dcc (c.u8 2)).made = false →
          (∀ x ∈ s.dev.twill.dcc, x.2.made = true → x.2.port = c.u8 3 → x.2.channel ≠ c.u8 4) →
          (s.dev.crcU (c.u8 5)).owner.toNat = 2 + c.u8 3 / 8 → (s.dev.crcU (c.u8 6)).owner.toNat = 10 + c.u8 3 / 8 →
          s.dev.crcClaim (c.u8 5) = false → s.dev.crcClaim (c.u8 6) = false →
          s.dev.allocate (c.u8 3 / 8) (dccLoad (c.u8 4)).1 (dccLoad (c.u8 4)).2 = some k →
          Answers (.engineCfg c) s fun t =>
            let y := t.dev.dcc (c.u8 2)
            y.made = true ∧ y.port = c.u8 3 ∧ y.channel = c.u8 4 ∧ y.crcN = c.u8 5 ∧ y.crcS = c.u8 6
            ∧ y.engine = some k)))
    ∧ ∀ (j : Fin 8) (src : Fin 16) m, s.dev.life = .running →
      s.dev.twill.moves.find? (fun x => x.slice = j.val && x.src = src.val) = some m →
      Answers (.engineMoveDone j src) s fun t =>
        (∀ x ∈ t.dev.twill.moves, x ∈ s.dev.twill.moves ∧ (x.slice = j.val → x.src ≠ src.val))
        ∧ (∀ x ∈ s.dev.twill.moves, (x.slice = j.val → x.src ≠ src.val ∧ x.dst ≠ src.val) → x ∈ t.dev.twill.moves)
        ∧ ∀ i : Fin 8, (s.dev.dcc i).port / 8 = j.val → (s.dev.dcc i).engine = some src.val →
          (t.dev.dcc i).engine = some m.dst

/-- TWILL_MESSAGE, TW_STALL and DCC_SECOND (R346, R349, R350, R363, R420, R422): an engine takes the oldest message of its input
queue, and the entry that it frees goes to the message of the bus matrix that waits for it; a message of the host queue engine
is held back from the last entry, and counted once, while the engine waits on the host queue engine; an engine that leaves a
message for 2 ms has stalled and is fenced; a monitor with a working engine delivers the counts of the frames that its second's octets held. -/
def Sys2Proof.Claim.EnginesWorkAndStall : Prop :=
  ∀ (s : State) (g : Fin 256), s.dev.life = .running →
    let q := s.dev.queue (.twIn g)
    (∀ x rest, s.dev.qDead (.twIn g) = false → s.dev.mx.waiting = [] → q.items = x :: rest → q.waiting = [] →
      x.good = true → parityOk x.d x.c = true →
      (s.dev.engine g).tapBusy = false → (∀ a, s.dev.armMask (QId.twIn g).owner.1 (QId.twIn g).owner.2.1.val a = 0) →
      Answers (.twillMessage g) s fun t => (t.dev.queue (.twIn g)).items = rest)
    ∧ (∀ x rest r, s.dev.qDead (.twIn g) = false → s.dev.mx.waiting = [r] → r.target = g → q.items = x :: rest →
      q.waiting = [] → q.held = [] → q.items.length ≤ 1024 → x.good = true → parityOk x.d x.c = true →
      (s.dev.engine g).tapBusy = false → (∀ a, s.dev.armMask (QId.twIn g).owner.1 (QId.twIn g).owner.2.1.val a = 0) →
      (r.master ≠ 1 ∨ s.dev.engineWaits g = false ∨ q.items.length < 1024 → Answers (.twillMessage g) s fun t =>
        (t.dev.queue (.twIn g)).items = rest ++ [r.item] ∧ t.dev.mx.waiting = [])
      ∧ (r.master = 1 → s.dev.engineWaits g = true → q.items.length = 1024 → Answers (.twillMessage g) s fun t =>
        (t.dev.queue (.twIn g)).items = rest ∧ t.dev.mx.waiting = [{ r with held := true }]
        ∧ t.dev.reg 0x90004 = if r.held then s.dev.reg 0x90004 else countUp (s.dev.reg 0x90004) 0 32 1))
    ∧ (s.dev.fencedOrPlane (srcOf 9 g) = false → s.dev.plane.unfence = none → q.items ≠ [] →
      q.since + 2000000 ≤ s.dev.now → Answers (.twStall g) s fun t =>
        t.dev.fenced (srcOf 9 g) = true ∧ EventSet t (aEng g 4) 3)
    ∧ ∀ (i : Fin 8) (k : Nat) (north south : List Byte) (gapN gapS : Bool), (s.dev.dcc i).made = true →
      (s.dev.dcc i).engine = some k →
      let x := s.dev.dcc i
      let deadN := s.dev.engineDead 0 (x.port / 8) k
      let deadS := s.dev.engineDead 1 (x.port / 8) k
      let n := if deadS || (!deadN && decide (s.dev.shownPlane = 0)) then (dccRun x.rxN north gapN).n
        else (dccRun x.rxS south gapS).n
      ¬(deadN = true ∧ deadS = true) → Answers (.dccSecond i north south gapN gapS) s fun t =>
        (t.dev.dcc i).suspect = (deadN || deadS)
        ∧ (s.dev.worker = false → s.dev.ringOn 10 = true → 2 ≤ s.dev.ringFree 10 →
          ∃ slot ph seq body, Out.stats slot 0 ph seq body ∈ t.dev.host.out
            ∧ body.take 32 = le 1 0x41 ++ le 1 1 ++ le 1 i ++ le 1 x.channel ++ le 1 x.port
              ++ le 1 (if x.suspect || deadN || deadS then 1 else 0) ++ le 2 0 ++ le 6 (s.dev.tsu.sec - 1).toNat ++ le 2 0
              ++ le 4 n.good ++ le 4 n.bad ++ le 4 n.aborted ++ le 4 n.octets)

/-- Packages and handovers, as the two statements above say. -/
def Obligations.PackagesAndPlanesChange : Prop := PackagesAreStagedAndLoaded ∧ PlanesHandOver

/-- ENGINE_CFG and the engines at work, as the two statements above say. -/
def Obligations.EnginesAreBudgetedAndWork : Prop := EngineCfgBudgetsMovesAndMonitors ∧ EnginesWorkAndStall

/-! ### Security processor -/

/-- ATTEST, KEY_ADMIN, SEC_SERVICE_START and ATTEST_DONE (R501, R504, R506, R507): a command waits its turn, the oldest one
waiting is served next, and an attestation ends with its report and signature in host memory.
The lengths of the buffers are the reading of log entry 46. -/
def Sys2Proof.Claim.SecurityServesInOrder : Prop :=
  ∀ s : State,
    (∀ (c : Desc) bs, c.bulk = true →
      (Served 0x90 c s.dev true (.data bs) → bs.length = 50368 → Answers (.attest c (.data bs)) s fun t =>
        t.dev.sec.waiting = s.dev.sec.waiting
          ++ [{ job := s.dev.host.nextJob, work := .attest ((bs.drop 384).take 64), addr := wordOf c.body 0 }]
        ∧ ∃ j ∈ t.dev.host.jobs, j.id = s.dev.host.nextJob ∧ j.desc = c)
      ∧ (Served 0x91 c s.dev true (.data bs) →
        let b : Desc := { c with body := bs }
        b.u8 0 ≤ 3 → bs.length = (if b.u8 0 = 0 then 432 else 29968) → (b.u8 0 = 0 ∨ b.u8 0 = 3 ∨ b.u8 1 ≤ 3) →
        Zeros b 4 7 → Answers (.keyAdmin c (.data bs)) s fun t => t.dev.sec.waiting = s.dev.sec.waiting
          ++ [{ job := s.dev.host.nextJob, work := .keyAdmin bs, addr := wordOf c.body 0 }]))
    ∧ (s.dev.life = .running →
      (∀ x rest, s.dev.sec.service = none → s.dev.sec.waiting = x :: rest → Answers .secServiceStart s fun t =>
        t.dev.sec.waiting = rest ∧ ∃ y, t.dev.sec.service = some y ∧ y.job = x.job ∧ y.work = x.work ∧ y.addr = x.addr
          ∧ ∀ n, x.work = .attest n → y.snap = s.dev.report512 n)
      ∧ ∀ x n, s.dev.sec.service = some x → x.work = .attest n → Answers .attestDone s fun t =>
        t.dev.sec.service = none
        ∧ (s.dev.worker = false → ∃ sig, sig.length = 49856 ∧ Out.hostMem x.addr (x.snap ++ sig) ∈ t.dev.host.out)
        ∧ ∀ j ∈ t.dev.host.jobs, j.id ≠ x.job)

/-- KEY_ADMIN_DONE (R499, R500, R502, R503): OP 0 changes nothing; a command that a check refuses changes no slot and no
counter record; ENROL makes an EMPTY slot ACTIVE with its key's hash, REVOKE an ACTIVE one REVOKED, and ADVANCE writes the
counter in the next record; a failed write of OTP changes no slot state and no counter. -/
def Sys2Proof.Claim.KeyAdminChangesSlotsAndCounter : Prop :=
  ∀ (s : State) x b ok, s.dev.life = .running → s.dev.sec.service = some x → x.work = .keyAdmin b →
    let op := bodyN b 0 1
    let slot := bodyN b 1 1
    let r := s.dev.sec.adminReason b
    slot ≤ 3 → s.dev.sec.slotSt.length = 4 → s.dev.sec.slotHash.length = 4 → Answers (.keyAdminDone ok) s fun t =>
      let u := s.dev.sec
      let v := t.dev.sec
      v.service = none ∧ v.svn = u.svn
      ∧ (op = 0 ∨ r ≠ 0 → v.slotSt = u.slotSt ∧ v.slotHash = u.slotHash ∧ v.counter = u.counter ∧ v.used = u.used)
      ∧ (op ≠ 0 → v.chal = if r = 1 ∨ r = 2 then u.chal else u.chal + 1)
      ∧ (r = 0 → ok = true →
        (op = 1 → u.slotSt.getD slot 0 = 0 ∧ v.slotSt = u.slotSt.set slot 1
          ∧ v.slotHash = u.slotHash.set slot (shake64 ((b.drop 16).take 64)))
        ∧ (op = 2 → u.slotSt.getD slot 0 = 1 ∧ v.slotSt = u.slotSt.set slot 2 ∧ v.slotHash = u.slotHash
          ∧ v.counter = u.counter)
        ∧ (op = 3 → v.counter = leNat ((b.drop 8).take 8) ∧ u.counter < v.counter ∧ v.counter ≤ u.svn
          ∧ v.used = u.used + 1 ∧ v.slotSt = u.slotSt))
      ∧ (ok = false → v.slotSt = u.slotSt ∧ v.counter = u.counter)

/-- The anti-rollback counter never falls, no counter record is freed, and no owner slot goes back from REVOKED to ACTIVE or
from ACTIVE to EMPTY, whatever the step: neither a command nor a reset takes OTP back (R487, R499, R500).
The content of OTP at delivery is the model's choice (log entry 12). -/
def Obligations.OtpNeverGoesBack : Prop :=
  ∀ s t : State, step s = .next t →
    s.dev.sec.counter ≤ t.dev.sec.counter ∧ s.dev.sec.used ≤ t.dev.sec.used
    ∧ ∀ i, s.dev.sec.slotSt.getD i 0 ≤ t.dev.sec.slotSt.getD i 0

/-- The security processor, as the two statements above say. -/
def Obligations.SecurityProcessorServes : Prop := SecurityServesInOrder ∧ KeyAdminChangesSlotsAndCounter

/-! ### Storage, faults and fences -/

/-- STORAGE_READ and MEMORY_SCRUB (R36–R39, R41): a clean word is delivered as stored; a word with one wrong bit is corrected,
written back and reported as class C; stored poison is delivered with P = 1; a word with more wrong bits is delivered with
P = 1, stays as it is, and fences its bank or engine where that is one.
The reset contents of a word are the model's choice (log entry 5). -/
def Obligations.StorageIsCheckedAndCorrected : Prop :=
  ∀ (s : State) (m : MemId) (addr : BitVec 18) (u : BitVec 72), s.dev.life = .running → s.dev.memFenced m = false →
    let n := memNo m
    let a := addr.toNat % memWords m
    let src := (memSource m).1
    let m0 := flipWord s.mem n a u
    let w := wordData m0 n a
    s.dev.armMask src (memSource m).2 a = 0 →
    (∀ e v, eccOf (syndrome m0 n a) = e → (e = .checkOnly ∧ v = w ∨ ∃ j, e = .data j ∧ v = w ^^^ BitVec.ofNat 64 (2 ^ j)) →
      let fixed := fun (t : State) => wordData t.mem n a = v ∧ wordCheck t.mem n a = secded v
        ∧ (s.dev.plane.frozen = false → (tget 0 s.dev.wires src).getLsbD 0 = false → EventSet t (fwBase src) 0)
      (Answers (.storageRead m addr u) s fun t => fixed t ∧ t.dev.host.out.head? = some (.word src v (parity v) false))
      ∧ Answers (.memoryScrub m addr u) s fixed)
    ∧ (eccOf (syndrome m0 n a) = .clean →
      (Answers (.storageRead m addr u) s fun t => t.mem = m0 ∧ t.dev.host.out.head? = some (.word src w (parity w) false))
      ∧ Answers (.memoryScrub m addr u) s fun t => t.mem = m0 ∧ t.dev = s.dev)
    ∧ (eccOf (syndrome m0 n a) = .poison →
      (Answers (.storageRead m addr u) s fun t => t.mem = m0 ∧ Out.word src w (parity w) true ∈ t.dev.host.out)
      ∧ Answers (.memoryScrub m addr u) s fun t => t.mem = m0 ∧ t.dev = s.dev)
    ∧ (eccOf (syndrome m0 n a) = .bad →
      (Answers (.storageRead m addr u) s fun t => t.mem = m0 ∧ Out.word src w (parity w) true ∈ t.dev.host.out)
      ∧ (s.dev.plane.unfence = none → srcFamily src ∈ [9, 11, 12, 13] →
        (Answers (.storageRead m addr u) s fun t => t.dev.fenced src = true)
        ∧ Answers (.memoryScrub m addr u) s fun t => t.mem = m0 ∧ t.dev.fenced src = true))

/-- FAULT_REPORT, WIRE_FAULT and WIRE_PAIR_VALID (R449, R450, R452–R454): a class C report is captured in an empty window and
sets CORRECTED; a class U report of an engine or bank fences it; a wire fault closes its pair, over which a report stays with its
source, until the pair is valid again and the held reports are taken with the time at which they arose. -/
def Sys2Proof.Claim.FaultReportsAreRecorded : Prop :=
  ∀ (s : State) (r : FaultRec), s.dev.life = .running → recordOk r = true →
    let b := fwBase r.source.toNat
    (r.cls = 1 → s.dev.pairBad r = false → s.dev.plane.frozen = false → Answers (.faultReport r [] true) s fun t =>
      EventSet t b 0 ∧ (bit (s.dev.reg (b + 4)) 0 = false → t.dev.reg (b + 4) = capInfo r)
      ∧ (bit (s.dev.reg (b + 4)) 0 = true → t.dev.reg (b + 4) = s.dev.reg (b + 4)))
    ∧ (s.dev.pairBad r = true → Answers (.faultReport r [] true) s fun t =>
      t.dev.reports = s.dev.reports ++ [{ r := r, at_ := s.dev.stamp }] ∧ t.dev.reg (b + 4) = s.dev.reg (b + 4))
    ∧ (∀ fields, r.cls = 2 → srcFamily r.source.toNat ∈ [9, 11, 12, 13] → r.checker.val < 12 → r.inj = false →
      s.dev.plane.unfence = none → Answers (.faultReport r [] fields) s fun t => t.dev.fenced r.source.toNat = true)
    ∧ ∀ (src : BitVec 16) (pair : Fin 3),
      (wired src.toNat = true → (tget 0 s.dev.wires src.toNat).getLsbD pair = false → Answers (.wireFault src pair) s fun t =>
        (tget 0 t.dev.wires src.toNat).getLsbD pair = true ∧ t.dev.plane.fences = s.dev.plane.fences
        ∧ (s.dev.plane.frozen = false → EventSet t 0x40040 3))
      ∧ Answers (.wirePairValid src pair) s fun t =>
        let mine := fun (x : HeldReport) => decide (x.r.source = src) && decide (x.r.cls.val = pair.val + 1)
        (tget 0 t.dev.wires src.toNat).getLsbD pair = false
        ∧ t.dev.reports = s.dev.reports.filter (fun x => !mine x)
        ∧ ∀ x, s.dev.reports.filter mine = [x] → s.dev.plane.frozen = false → bit (s.dev.reg 0x40044) 0 = false →
          t.dev.reg 0x40044 = capInfo x.r ∧ t.dev.reg 0x40050 = BitVec.ofNat 32 x.at_
            ∧ t.dev.reg 0x40054 = BitVec.ofNat 32 (x.at_ / 2 ^ 32)

/-- COLLECTOR_MISMATCH, LOCKSTEP_DISAGREEMENT and FORK_STALL (R22, R25, R28, R298, R457, R462): a difference in the collector,
or what an armed comparison adds to one, freezes the device; a disagreement of the TSU copies takes it to HOLDOVER where the history
that both hold is valid when an exit from LOCKED has dropped two entries, and to FREE_RUN otherwise; a plane that a fork feeds and
cannot feed on is fenced while the other carries. -/
def Sys2Proof.Claim.WholeBlocksFail : Prop :=
  ∀ s : State, s.dev.life = .running →
    (∀ x : CopyCmp, s.dev.plane.frozen = false →
      let diff := x.diff ^^^ (s.dev.armMask 0 15 x.offset.toNat).setWidth 32
      (diff ≠ 0 → Answers (.collectorMismatch x) s fun t =>
        t.dev.plane.frozen = true ∧ t.dev.planeState = 3 ∧ t.dev.plane.frozenFrom = BitVec.ofNat 2 s.dev.planeState
        ∧ t.dev.plane.resync = none ∧ t.dev.plane.unfence = none)
      ∧ (diff = 0 → Answers (.collectorMismatch x) s fun t => t.dev.plane = s.dev.plane))
    ∧ (∀ x : LockCmp, s.dev.armMask 0x1000 0 0 = 0 →
      (x.diff = 0 → exec (.lockstepDisagreement x) s = .next s)
      ∧ (x.diff ≠ 0 → s.dev.tsu.st ≠ 0 → Answers (.lockstepDisagreement x) s fun t =>
        let kept := ((s.dev.tsu.hist.zipIdx).filter (fun e => x.equal.getD e.2 false)).map (fun e => e.1)
        let left := kept.length - if s.dev.tsu.st = 2 then 2 else 0
        t.dev.tsu.sel = none ∧ t.dev.tsu.st = if 300 ≤ left ∧ s.dev.tsu.hoEn = true then 3 else 0))
    ∧ ∀ (l : Fin 64) (p : Fin 2),
      (s.dev.planeFenced 0 = false → s.dev.planeFenced 1 = false → s.dev.forkFeeds l p = true →
        Answers (.forkStall l p) s fun t =>
          tget false t.dev.plane.forkStopped (64 * p + l) = true ∧ t.dev.planeFenced p = true
          ∧ t.dev.planeFenced (1 - p.val) = false ∧ t.dev.plane.preferred.val = 1 - p.val)
      ∧ (s.dev.forkFeeds l p = false → exec (.forkStall l p) s = .next s)

/-- FAULT_ACTION (R448, R459, R460): FENCE fences a unit whose partner works in a plane that need not carry alone, or a plane
of two; UNFENCE begins the return of a fenced unit, or of a plane whose package is that of the other. -/
def Sys2Proof.Claim.FaultActionFencesAndReturns : Prop :=
  ∀ (s : State) (c : Desc), Served 0x80 c s.dev → c.u8 1 ≤ 1 → Zeros c 5 55 → fenceable (c.u16 2) = true →
    s.dev.plane.resync = none → s.dev.plane.unfence = none →
    let u := c.u16 2
    (c.u8 0 = 0 → s.dev.fenced u = false →
      (srcFamily u = 15 → s.dev.planeState = 0 → Answers (.faultAction c) s fun t => t.dev.fenced u = true)
      ∧ (srcFamily u ≠ 15 → (c.u8 1 = 1 ∨ s.dev.fenced (partner u) = false ∧ s.dev.carrier ≠ some (planeOf u)) →
        Answers (.faultAction c) s fun t => t.dev.fenced u = true ∧ t.dev.planeState = s.dev.planeState))
    ∧ (c.u8 0 = 1 → s.dev.fenced u = true →
      (srcFamily u ≠ 15 → s.dev.planeFenced (planeOf u) = false → Answers (.faultAction c) s fun t =>
        ∃ x, t.dev.plane.unfence = some x ∧ x.unit = u ∧ x.job = s.dev.host.nextJob
          ∧ x.restart = s.dev.fencedOrPlane (partner u))
      ∧ (srcFamily u = 15 → (s.dev.pkgOf 0).map (fun k => (k.id, k.ver)) = (s.dev.pkgOf 1).map (fun k => (k.id, k.ver)) →
        Answers (.faultAction c) s fun t => ∃ x, t.dev.plane.resync = some x ∧ x.plane.val = srcInst u ∧ x.why = .unfence
          ∧ x.job = s.dev.host.nextJob))

/-- UNFENCE_DONE and RESYNC_COMPLETE (R31, R352, R461): a unit returns with its stores filled from its package or its partner,
and stays fenced where the read-back finds a word, or a queued item that it takes over, that it cannot correct; a plane returns with
its stores copied, and stays fenced where the carrying plane delivered a poisoned word. -/
def Sys2Proof.Claim.UnitsAndPlanesReturn : Prop :=
  ∀ s : State, s.dev.life = .running →
    (∀ x b, s.dev.plane.unfence = some x →
      (Answers (.unfenceDone b) s fun t => t.dev.plane.unfence = none)
      ∧ (s.dev.arms = [] → s.dev.fenced x.unit = true →
        (∀ id a, let m := unitUpset b x.unit (unitStores x.unit x.restart s.dev s.mem).2
          id ∈ unitMems x.unit → (memSource id).1 = x.unit → a ∈ listedWords m (memNo id) →
          eccOf (syndrome m (memNo id) a) = .bad → Answers (.unfenceDone b) s fun t => t.dev.fenced x.unit = true)
        ∧ ∀ q i rest, b.upset = 0 → b.queue = some q → x.restart = false → backQueue x.unit q = true →
          (s.dev.queue q).items = i :: rest → (i.upset b.flip).good = false →
          (srcFamily x.unit = 9 → ∀ a, a < 262144 →
            eccOf (syndrome s.mem (416 + srcInst (partner x.unit)) a) ≠ .bad) →
          Answers (.unfenceDone b) s fun t => t.dev.fenced x.unit = true)
      ∧ (s.dev.arms = [] → b.upset = 0 → b.queue = none → Answers (.unfenceDone b) s fun t => t.dev.fenced x.unit = false
        ∧ (srcFamily x.unit = 9 → srcInst x.unit < 256 → ∀ a, a < 2048 →
          wordData t.mem (160 + srcInst x.unit) a = wordOf (s.dev.pkgBytes (srcInst x.unit / 128)) (64 + 8 * a))
        ∧ (srcFamily x.unit = 11 → x.restart = false → srcInst x.unit < 64 → ∀ a, a < 262144 →
          eccOf (syndrome s.mem (srcInst (partner x.unit)) a) = .clean →
          wordData t.mem (srcInst x.unit) a = wordData s.mem (srcInst (partner x.unit)) a)))
    ∧ ∀ r, s.dev.plane.resync = some r →
      (Answers (.resyncComplete true) s fun t => t.dev.plane.resync = none ∧ t.dev.plane.fences = s.dev.plane.fences
        ∧ t.mem = s.mem)
      ∧ (configBad (1 - r.plane.val) s.mem = true → Answers (.resyncComplete false) s fun t =>
        t.dev.plane.resync = none ∧ t.dev.plane.fences = s.dev.plane.fences ∧ t.mem = s.mem)
      ∧ (configBad (1 - r.plane.val) s.mem = false →
        (tget {} s.dev.arms (16 * srcOf 8 (1 - r.plane.val))).count = 0 →
        (r.why = .unfence → Answers (.resyncComplete false) s fun t => t.dev.plane.resync = none
          ∧ t.dev.planeFenced r.plane.val = false
          ∧ ∀ q ∈ s.dev.enabledPorts, (t.dev.psel q).joining = some r.plane)
        ∧ (r.why = .handover → s.dev.planeFenced r.plane.val = true → Answers (.resyncComplete false) s fun t =>
          t.dev.plane.resync = some { r with copied := true } ∧ t.dev.planeFenced r.plane.val = true
          ∧ t.dev.planeFenced (1 - r.plane.val) = s.dev.planeFenced (1 - r.plane.val))
        ∧ Answers (.resyncComplete false) s fun t =>
          (∀ b a, b < 32 → a < 262144 →
            let from_ := 32 * (1 - r.plane.val) + b
            eccOf (syndrome s.mem from_ a) = .clean → wordData t.mem (32 * r.plane.val + b) a = wordData s.mem from_ a)
          ∧ ∀ i, i < 128 → t.dev.engine (128 * r.plane.val + i) = s.dev.engine (128 * (1 - r.plane.val) + i))

/-- Fault reports and failing blocks, as the two statements above say. -/
def Obligations.FaultsAreRecordedAndReactedTo : Prop := FaultReportsAreRecorded ∧ WholeBlocksFail

/-- Fences and returns, as the two statements above say. -/
def Obligations.UnitsAreFencedAndReturn : Prop := FaultActionFencesAndReturns ∧ UnitsAndPlanesReturn

/-! ### The host interface -/

/-- The completion entry of a descriptor taken in `s` stands among what the device has written by `t` (R383): on the completion
ring of its command ring, in the slot and with the PHASE that were next, with its OPCODE, TAG, SEQ and body, `x`'s status, RO
fields and resource, and the time. -/
def Sys2Proof.Claim.Completes (s t : State) (op : Nat) (c : Desc) (x : Done) : Prop :=
  let r := c.ring.val
  .completion (4 + r) (s.dev.ringPi (4 + r))
    { opcode := op, status := x.status, tag := c.tag, seq := c.seq, body := x.patch.foldl (fun b p => patchBytes b p.1 p.2) c.body
      resKind := x.kind, resPart := x.part, device := 0, resId := x.id, sec := s.dev.tsu.sec, ns := s.dev.tsu.ns, ring := r
      phase := (s.dev.ring (4 + r)).phase } ∈ t.dev.host.out

/-- The header checks of a descriptor that the manager takes from its ring (R374, R376, R383): the slot is the host's again and
SEQ + 1 is expected next; a wrong SEQ, an unknown opcode, a reserved flag, BULK where it is not accepted, an absent worker and
FROZEN complete with their status and change nothing; a NOP completes with OK, or names its first byte that is not 0; a
descriptor for a present worker stays outstanding until the worker answers.
The bytes named by RES_PART are the reading of log entry 6. -/
def Obligations.HeaderChecksDecideTheCompletion : Prop :=
  ∀ (s : State) (c : Desc), s.dev.life = .running → s.dev.worker = false → c.wf = true → s.dev.ready c = true →
    let r := c.ring.val
    let expected := s.dev.reg (aRing r 0x18)
    let ends := fun (i : Instr) (op : Nat) (x : Done) => Answers i s fun t =>
      Completes s t op c x ∧ (∀ j ∈ t.dev.host.jobs, j.id ≠ s.dev.host.nextJob)
      ∧ t.dev.ringCi r = (s.dev.ringCi r + 1) % s.dev.ringSize r % 2 ^ 16 ∧ t.dev.reg (aRing r 0x18) = c.seq + 1
      ∧ t.dev.mask eventParts = s.dev.mask eventParts
    let clean := c.seq = expected ∧ c.flags.toNat % 16 / 4 = 0 ∧ c.flags.toNat / 128 = 0 ∧ c.bulk = false
    (c.seq ≠ expected → ends (.nop c) 1 { status := 1, kind := 0x27, id := expected.toNat }
      ∧ Answers (.nop c) s fun t => EventSet t (aHq 8) 0
        ∧ t.dev.reg (aRing r 0x1C) = countUp (s.dev.reg (aRing r 0x1C)) 0 32 1)
    ∧ (c.seq = expected → ∀ op : Byte, ends (.unknownOpcode op c) op.toNat refusedDone)
    ∧ (c.seq = expected → c.flags.toNat % 16 / 4 ≠ 0 ∨ c.flags.toNat / 128 ≠ 0 ∨ c.bulk = true → ends (.nop c) 1 refusedDone)
    ∧ (clean → c.dest ≠ 0 → s.dev.present c.dest = false → ends (.nop c) 1 refusedDone)
    ∧ (clean → c.dest = 0 → s.dev.plane.frozen = true → ends (.nop c) 1 notPermitted)
    ∧ (clean → c.dest = 0 → s.dev.plane.frozen = false →
      (Zeros c 0 55 → ends (.nop c) 1 okDone)
      ∧ ∀ i, i ≤ 55 → c.u8 i ≠ 0 → (∀ k, k < i → c.u8 k = 0) → ends (.nop c) 1 (refusedDone i))
    ∧ (clean → c.dest ≠ 0 → s.dev.present c.dest = true → Answers (.nop c) s fun t =>
        t.dev.host.jobs = { id := s.dev.host.nextJob, op := 1, desc := c, device := c.dest } :: s.dev.host.jobs
        ∧ t.dev.reg (aRing r 0x18) = c.seq + 1)

/-- The rings (R370, R371, R388, R393, R399): ENABLE empties a ring and starts its PHASE at 1, and a ring that lost entries
starts with the notice; the base, LOG2_SIZE and the expected SEQ of an enabled ring stay; PI is the host's on a command ring,
CI on another, and an index beyond the ring is ignored; a failed fetch stops its ring; and a due ring sends its vector once, or sets its pending bit while MSI-X or the vector is
masked.
The place of the MSI-X table and of its controls is the model's choice (log entry 39). -/
def Obligations.RingsAreSetUpAndReturned : Prop :=
  ∀ (s : State) (r : Fin 11) (w : Word), s.dev.life = .running → s.dev.worker = false → Passes s.dev 0 →
    let ctrl := s.dev.reg (aRing r 8)
    let v := fld ctrl 16 5
    (s.dev.ringOn r = false → bit w 0 = true → 6 ≤ fld w 4 5 → fld w 4 5 ≤ 16 →
      (r.val < 8 ∨ (s.dev.ring r).lost = 0 → Answers (.ringEnable .pf0 r w) s fun t =>
        t.dev.ringOn r = true ∧ t.dev.ringSize r = 2 ^ fld w 4 5 ∧ t.dev.ringPi r = 0 ∧ t.dev.ringCi r = 0
        ∧ (t.dev.ring r).phase = true ∧ (t.dev.ring r).fetchStop = false
        ∧ (8 ≤ r.val → t.dev.reg (aRing r 0x18) = 0) ∧ (r.val < 4 → t.dev.reg (aRing r 0x18) = s.dev.reg (aRing r 0x18)))
      ∧ (8 ≤ r.val → r.val ≤ 9 → (s.dev.ring r).lost ≠ 0 → Answers (.ringEnable .pf0 r w) s fun t =>
        t.dev.ringPi r = 1 ∧ (t.dev.ring r).lost = 0
        ∧ .event r 0 0x1B01 0 true 0 s.dev.tsu.sec s.dev.tsu.ns (le 4 (s.dev.ring r).lost) ∈ t.dev.host.out))
    ∧ (s.dev.ringOn r = true → Answers (.ringEnable .pf0 r w) s fun t =>
        t.dev.ringSize r = s.dev.ringSize r ∧ t.dev.ringOn r = bit w 0
        ∧ (bit w 0 = false → (t.dev.ring r).fetchStop = false))
    ∧ (r.val < 4 → fld w 0 16 < s.dev.ringSize r → Answers (.ringPiWrite .pf0 r w) s fun t => t.dev.ringPi r = fld w 0 16)
    ∧ (4 ≤ r.val ∨ s.dev.ringSize r ≤ fld w 0 16 → exec (.ringPiWrite .pf0 r w) s = .next s)
    ∧ (4 ≤ r.val → fld w 0 16 < s.dev.ringSize r → Answers (.ringCiWrite .pf0 r w) s fun t => t.dev.ringCi r = fld w 0 16)
    ∧ (r.val < 4 ∨ s.dev.ringSize r ≤ fld w 0 16 → exec (.ringCiWrite .pf0 r w) s = .next s)
    ∧ (∀ q : Fin 4, s.dev.host.up = true → s.dev.ringOn q = true → (s.dev.ring q).fetchStop = false →
      s.dev.ringPi q ≠ s.dev.ringCi q → Answers (.descriptorFetchError q) s fun t =>
        (t.dev.ring q).fetchStop = true ∧ EventSet t (aHq 8) 1)
    ∧ (∀ o rest, s.dev.ringOn r = true → (s.dev.ring r).unread = o :: rest → (s.dev.ring r).sent = false →
      (fld ctrl 24 8 ≤ rest.length + 1 ∨ o + 1000 * fld (s.dev.reg (aRing r 0x0C)) 0 16 ≤ s.dev.now) →
      Answers (.coalTimeExpiry r) s fun t =>
        (t.dev.ring r).sent = true
        ∧ (s.dev.msixOpen v = true → t.dev.host.pci.pend.getLsbD v = false ∧ t.dev.host.out
          = .msix v ((s.dev.msixWord (4 * v + 1)).setWidth 64 <<< 32 ||| (s.dev.msixWord (4 * v)).setWidth 64)
              (s.dev.msixWord (4 * v + 2)) :: s.dev.host.out)
        ∧ (s.dev.msixOpen v = false → t.dev.host.pci.pend.getLsbD v = true ∧ t.dev.host.out = s.dev.host.out))

/-- STATS_SNAP and the completions of workers (R382, R391, R392): the lane counters are snapped, and with CLEAR zeroed, in one
step; a dump that does not fit is refused with what it needs; the completion follows the dump; and a worker's completion goes
on the ring of its command with the worker's number.
The instant of the snapshot and of its dump is the reading of log entry 25. -/
def Obligations.SnapshotsAndWorkersComplete : Prop :=
  ∀ s : State, s.dev.life = .running → s.dev.worker = false →
    (∀ c : Desc, Served 0x60 c s.dev → c.u8 0 = 1 → c.u8 1 < 4 → c.u16 2 ≤ c.u16 4 → c.u16 4 ≤ 63 → c.u8 6 = 0 → c.u8 7 = 0 →
      c.u64 8 % 8 = 0 → Zeros c 28 55 →
      let n := (snapAddrs 1 0 (c.u16 2) (c.u16 4)).length
      (c.bit 1 1 = false ∨ 8 * n ≤ c.u32 16 → Answers (.statsSnap c) s fun t =>
        (∃ x : Snap, t.dev.host.snaps = s.dev.host.snaps ++ [x] ∧ x.job = s.dev.host.nextJob ∧ x.count = n
          ∧ x.bytes.length = if c.bit 1 1 then 8 * n else 0)
        ∧ (∀ l o, c.u16 2 ≤ l → l ≤ c.u16 4 → o ∈ [0x10, 0x14, 0x18, 0x1C] →
            t.dev.reg (aLane l o) = if c.bit 1 0 then 0 else s.dev.reg (aLane l o)))
      ∧ (c.bit 1 1 = true → c.u32 16 < 8 * n → Answers (.statsSnap c) s fun t =>
        Completes s t 0x60 c { status := 1, patch := [(20, le 4 n), (24, le 4 (8 * n))] } ∧ t.dev.host.snaps = s.dev.host.snaps
        ∧ ∀ l o, o ∈ [0x10, 0x14, 0x18, 0x1C] → t.dev.reg (aLane l o) = s.dev.reg (aLane l o)))
    ∧ (∀ x rest, s.dev.host.snaps = x :: rest → x.bytes ≠ [] → Answers .statsSnapDone s fun t =>
        t.dev.host.snaps = rest ∧ .hostMem x.addr x.bytes ∈ t.dev.host.out ∧ ∀ j ∈ t.dev.host.jobs, j.id ≠ x.job)
    ∧ (∀ (w : Fin 8) (x : WorkerDone) j rest, s.dev.present w = true → s.dev.host.jobs = j :: rest → j.device = w.val →
        j.desc.ring = x.ring → j.desc.tag = x.tag → j.desc.seq = x.seq → s.dev.ringOn (4 + x.ring) = true →
        Answers (.workerCompletion w x) s fun t => (∀ k ∈ t.dev.host.jobs, k.id ≠ j.id)
          ∧ .completion (4 + x.ring) (s.dev.ringPi (4 + x.ring))
              { opcode := j.op, status := x.status, tag := x.tag, seq := x.seq, body := x.body, resKind := x.resKind
                resPart := x.resPart, device := w, resId := x.resId, sec := s.dev.tsu.sec, ns := s.dev.tsu.ns, ring := x.ring
                phase := (s.dev.ring (4 + x.ring)).phase } ∈ t.dev.host.out)

/-- Urgent words (R395, R396): freeze and release a port, force a selector, stop and restart the service of a queue, force a
plane; a missing object or a CMD that is not defined gives REFUSED, FROZEN gives NOT_PERMITTED, each is counted with its
status, a word of PF1 is ignored, and a word that finds the queue full is dropped and counted.
When a word acts is the reading of log entry 20. -/
def Obligations.UrgentWordsAct : Prop :=
  ∀ (s : State) (arg : BitVec 25), s.dev.life = .running → s.dev.worker = false → Passes s.dev 0 →
    let a := arg.toNat
    let d := s.dev
    let ends := fun (i : Instr) (st : Nat) (P : State → Prop) => Answers i s fun t =>
      t.dev.host.urgLast = st ∧ t.dev.host.urgDone = (d.host.urgDone + 1) % 2 ^ 24 ∧ P t
    let parts := eventParts ++ [.arms, .fresh, .reports]
    let kept := fun t : State => t.dev.mask parts = d.mask parts
    (∀ i ∈ [Instr.freezePort .pf1 0 arg, .forceSelector .pf1 0 arg, .stopService .pf1 0 arg, .forcePlane .pf1 0 arg],
      exec i s = .next s)
    ∧ (d.host.urgent = [] →
      (d.plane.frozen = true → ∀ i ∈ [Instr.freezePort .pf0 0 arg, .forceSelector .pf0 0 arg, .stopService .pf0 0 arg,
        .forcePlane .pf0 0 arg], ends i 5 kept)
      ∧ (d.plane.frozen = false →
        (a / 64 % 2 ^ 18 = 0 → (d.port (a % 64)).format ≠ 0 →
          ends (.freezePort .pf0 0 arg) 0 fun t => (t.dev.port (a % 64)).frozenUrg = decide (a / 2 ^ 24 = 1))
        ∧ (a / 64 % 2 ^ 18 ≠ 0 ∨ (d.port (a % 64)).format = 0 → ends (.freezePort .pf0 0 arg) 1 kept)
        ∧ (∀ x, a / 2 ^ 15 = 0 → d.sel (selKey (a / 2 ^ 12 % 4) (a % 4096)) = some x → a / 2 ^ 14 % 2 = 1 →
          ends (.forceSelector .pf0 0 arg) 0 fun t =>
            (t.dev.sel (selKey (a / 2 ^ 12 % 4) (a % 4096))).map (fun y => y.cmd) = some 1)
        ∧ (a / 2 ^ 15 ≠ 0 ∨ d.sel (selKey (a / 2 ^ 12 % 4) (a % 4096)) = none → ends (.forceSelector .pf0 0 arg) 1 kept)
        ∧ (a / 2 ^ 12 % 2 ^ 12 = 0 → ends (.stopService .pf0 0 arg) 0 fun t =>
          (t.dev.pq (a % 4096)).stopped = decide (a / 2 ^ 24 = 1))
        ∧ (a / 2 = 0 → d.plane.resync = none → d.planeState = 0 → ends (.forcePlane .pf0 0 arg) 0 fun t =>
          t.dev.planeFenced (1 - a) = true)
        ∧ (a / 2 = 0 → d.plane.resync = none → d.planeState ≠ 0 → ends (.forcePlane .pf0 0 arg) 1 kept)
        ∧ (a / 2 = 0 → d.plane.resync ≠ none → ends (.forcePlane .pf0 0 arg) 2 kept)
        ∧ ∀ w, fld w 25 3 = 0 → fld w 28 4 ∉ [1, 2, 3, 4] → ends (.urgentUnknownCmd .pf0 w) 1 kept))
    ∧ (16 ≤ d.host.urgent.length → ∀ w, Answers (.urgentUnknownCmd .pf0 w) s fun t =>
        t.dev.host.urgent = d.host.urgent ∧ t.dev.reg (aHq 0x48) = countUp (d.reg (aHq 0x48)) 0 32 1 ∧ EventSet t (aHq 8) 4)

/-- PCIe events (R368, R423): link loss, PERST_N, an FLR of PF0 and D3hot disable every ring with its set-up registers and the MSI-X
table at their reset values, empty the urgent queue and, in a manager, discard the completions; all but D3hot drop the host's writes
that a commit pass holds back; and they touch nothing else. RING_LOST keeps its count; PERST_N and an FLR reset the configuration
space of their functions, and an FLR of PF1 changes nothing else; and the link comes up at its speed and width.
What a reset leaves of configuration space is the model's choice (log entry 39). -/
def Obligations.PcieEventsTouchTheRingsAlone : Prop :=
  ∀ s : State, s.dev.awake = true →
    let off := fun t : State => t.dev.host.urgent = [] ∧ t.dev.host.jobs = (if s.dev.worker then s.dev.host.jobs else [])
      ∧ t.dev.host.pci.table = [] ∧ t.dev.host.pci.pend = 0
      ∧ (∀ r o, r < 11 → o ∈ [0x00, 0x04, 0x08, 0x0C, 0x10, 0x14, 0x18] → t.dev.reg (aRing r o) = resetOf (aRing r o))
      ∧ (∀ r, r < 11 → t.dev.ringOn r = false ∧ (t.dev.ring r).lost = (s.dev.ring r).lost)
      ∧ (∀ a, (∀ r o, r < 11 → o ≤ 0x18 → a ≠ aRing r o) → t.dev.reg a = s.dev.reg a)
      ∧ t.dev.mask [.regs, .host, .cfg] = s.dev.mask [.regs, .host, .cfg] ∧ t.mem = s.mem
    let dropped := fun t : State =>
      t.dev.cfg = { s.dev.cfg with heldBack := s.dev.cfg.heldBack.filter (fun x => decide (x.1 / 2 ^ 26 ≠ 0)) }
    let clear := fun (t : State) (f : Nat) => ∀ k, tget 0 t.dev.host.pci.cfg (64 * f + k % 64) = 0
    let same := fun (t : State) (f : Nat) => ∀ k, tget 0 t.dev.host.pci.cfg (64 * f + k % 64) = tget 0 s.dev.host.pci.cfg (64 * f + k % 64)
    (Answers .pcieLinkLoss s fun t => off t ∧ dropped t ∧ same t 0 ∧ same t 1 ∧ t.dev.host.up = false)
    ∧ (Answers .perstN s fun t => off t ∧ dropped t ∧ clear t 0 ∧ clear t 1 ∧ t.dev.host.up = false)
    ∧ (Answers (.flr false) s fun t => off t ∧ dropped t ∧ clear t 0 ∧ same t 1 ∧ t.dev.host.up = s.dev.host.up)
    ∧ (Answers .d3hotEntry s fun t => off t ∧ t.dev.cfg = s.dev.cfg ∧ t.dev.host.up = s.dev.host.up)
    ∧ (Answers (.flr true) s fun t => clear t 1 ∧ same t 0 ∧ { t.dev.host with pci.cfg := s.dev.host.pci.cfg } = s.dev.host
        ∧ t.dev.mask [.host] = s.dev.mask [.host] ∧ t.dev.regs = s.dev.regs ∧ t.mem = s.mem)
    ∧ ∀ g w : Fin 8, 1 ≤ g.val → g.val ≤ 5 → w.val ∈ [1, 2, 4] → Answers (.pcieLinkUp g w) s fun t =>
        t.dev.host.up = true ∧ t.dev.host.gen = g.val ∧ t.dev.host.width = w.val
        ∧ t.dev.mask [.host] = s.dev.mask [.host] ∧ t.dev.regs = s.dev.regs
/-! ### Registers -/

/-- A register whose write does no more than keep the written value in its RW and RWC fields. -/
def Sys2Proof.Claim.plainName (n : String) : Bool :=
  n ∉ ["CRC_CTRL", "CRC_INIT", "DATA8", "DATA16", "DATA32", "URGENT_DB", "TIME_CTRL", "CFG_CTRL", "CFG_CRC_REF", "CAL_CFG", "XC_TICK_CFG",
    "JY_BUILD", "JY_RMT_CTRL", "JY_LINK_CTRL", "JY_LINK_TAPS", "FW_CTRL", "FW_INJ_CTRL", "XC_TBL_SEL", "TBL_CTRL", "RST_CTRL"]

/-- Writes of registers (R403, R404, R406, R407, R409, R411, R414, R548): a write of PF1, a shape that is not one or two whole
DWs, an address that is not aligned or holds no register, and a write in FROZEN outside HOSTQ change nothing; an RS register
clears when the SEQ written is its own and only in the base window; a plain register takes the value that its window makes
of it, field by field; and a commit pass holds a write of an RWC field back, and behind it the later writes of its master. A
register message writes nothing of HOSTQ. Writes of BAR2 set a word of the MSI-X table, and those of PF0's configuration space the
enable and the mask of MSI-X (R367).
What an alias write does and how held writes are kept is the reading of log entries 17 and 18, a register message's rights that
of 134, and the places in BAR2 and configuration space those of 39. -/
def Obligations.RegisterWritesFollowTheirWindow : Prop :=
  ∀ s : State,
    (∀ sh a x, exec (.registerWrite .pf1 sh a x) s = .next s) ∧ (∀ w a x, exec (.aliasWrite .pf1 w a x) s = .next s)
    ∧ (∀ a w, exec (.rsSeqClear .pf1 a w) s = .next s)
    ∧ (∀ a x, exec (.registerWrite .pf0 .other a x) s = .next s
        ∧ (∀ be, be ≠ 0xF → exec (.registerWrite .pf0 (.dw be) a x) s = .next s)
        ∧ (a.toNat % 8 ≠ 0 → exec (.registerWrite .pf0 .qw a x) s = .next s)
        ∧ (a.toNat % 4 ≠ 0 → exec (.registerWrite .pf0 (.dw 0xF) a x) s = .next s)
        ∧ (findReg (a.toNat % 2 ^ 24) = none → exec (.registerWrite .pf0 (.dw 0xF) a x) s = .next s))
    ∧ (∀ sh a x, inHostq (a.toNat % 2 ^ 24) = true → exec (.registerWrite .mgr sh a x) s = .next s)
    ∧ (s.dev.awake = true → ∀ a x, a.toNat % 4 = 0 →
      let k := a.toNat % 16384 / 4
      let w : Word := x.setWidth 32
      (k < 128 → Answers (.registerWrite .bar2 (.dw 0xF) a x) s fun t =>
        t.dev.msixWord k = (if k % 4 = 3 then w &&& 1 else w) ∧ t.dev.mask [.host] = s.dev.mask [.host])
      ∧ (a.toNat % 4096 = 64 → Answers (.registerWrite (.cfg false) (.dw 0xF) a x) s fun t =>
        bit t.dev.msixCtl 31 = bit w 31 ∧ bit t.dev.msixCtl 30 = bit w 30 ∧ t.dev.mask [.host] = s.dev.mask [.host]))
    ∧ ∀ (a : BitVec 24) (rr : RReg) (w : Word), s.dev.life = .running → s.dev.worker = false → a.toNat % 4 = 0 →
      findReg a.toNat = some rr →
      let held := s.dev.cfg.busy = true ∧ (rr.has .rwc = true ∨ ∃ x ∈ s.dev.cfg.heldBack, x.1 / 2 ^ 26 = 0)
      (held → Gives (.rsSeqClear .pf0 a w) s { s.dev with cfg.heldBack := s.dev.cfg.heldBack ++ [(a.toNat, w)] }) ∧ (¬ held →
      let old := s.dev.readReg a.toNat
      let takes := fun v => { s.dev with regs := (s.dev.setReg a.toNat (rr.store (s.dev.reg a.toNat) v)).regs }
      (rr.has .rs = true →
        (rr.name ∉ ["DEF_HIST", "DEF_CLRHIST"] ∨ s.dev.groupShown a.toNat = true → Gives (.rsSeqClear .pf0 a w) s
          (s.dev.setReg a.toNat (if w >>> 24 = s.dev.reg a.toNat >>> 24 then s.dev.reg a.toNat &&& 0xFF000000 else s.dev.reg a.toNat)))
        ∧ (rr.name ∈ ["DEF_HIST", "DEF_CLRHIST"] → s.dev.groupShown a.toNat = false → exec (.rsSeqClear .pf0 a w) s = .next s)
        ∧ ∀ win, exec (.aliasWrite .pf0 win a w) s = .next s)
      ∧ (rr.has .rs = false →
          (s.dev.plane.frozen = true → (a.toNat < 0x10000 ∨ 0x20000 ≤ a.toNat) →
            rr.name ∉ ["TIME_CTRL", "XC_TBL_SEL", "TBL_SEL", "GL_SCRATCH", "DATA8", "DATA16", "DATA32", "TBL_CTRL", "CRC_CTRL"] →
            exec (.rsSeqClear .pf0 a w) s = .next s ∧ ∀ win, exec (.aliasWrite .pf0 win a w) s = .next s)
          ∧ (s.dev.plane.frozen = false → plainName rr.name = true → (a.toNat < 0x10000 ∨ 0x20000 ≤ a.toNat) →
            (∀ x : Data, x.setWidth 32 = w → Gives (.registerWrite .pf0 (.dw 0xF) (a.setWidth 26) x) s (takes w))
            ∧ Gives (.rsSeqClear .pf0 a w) s (takes w)
            ∧ Gives (.aliasWrite .pf0 .set a w) s (takes (old ||| w))
            ∧ Gives (.aliasWrite .pf0 .clear a w) s (takes (old &&& ~~~w))
            ∧ Gives (.aliasWrite .pf0 .toggle a w) s (takes (old ^^^ w)))))

/-- The CRC units (R57–R61): a write of its owner to DATA8, DATA16 or DATA32 feeds one, two or four bytes, the lower first, each
counted; LOAD samples POLY and sets the running state to the standard init or to CRC_INIT, with the count 0; a write of any
other master changes nothing.
That a write of another master changes nothing is the reading of log entry 16. -/
def Obligations.CrcUnitsComputeForTheirOwner : Prop :=
  ∀ (s : State) (m : Fin 21) (u : Fin 16) (w : Word), s.dev.life = .running → (m.val = 0 → s.dev.worker = false) →
    Passes s.dev m →
    let x := s.dev.crcU u
    let fed := fun (i : Instr) (n : Nat) => Answers i s fun t =>
      (t.dev.crcU u).state = (le n w.toNat).foldl (crcByte x.poly) x.state ∧ (t.dev.crcU u).poly = x.poly
      ∧ (t.dev.crcU u).count.toNat = min (x.count.toNat + n) (2 ^ 32 - 1) ∧ ∀ v : Fin 16, v ≠ u → t.dev.crcU v = s.dev.crcU v
    (m.val ≤ 17 → s.dev.masterDead m = false → s.dev.crcOwns u m = true → x.queue = [] → (∀ a, s.dev.armMask (srcOf 6 u) 0 a = 0) →
      fed (.data8 m u w) 1 ∧ fed (.data16 m u w) 2 ∧ fed (.data32 m u w) 4
      ∧ (s.dev.plane.frozen = false → s.dev.cfg.busy = false → Answers (.crcLoad m u w) s fun t =>
        let p := BitVec.ofNat 2 (fld w 0 2)
        (t.dev.crcU u).poly = p ∧ (t.dev.crcU u).count = 0
        ∧ (t.dev.crcU u).state = lowBits (if bit w 3 then 0xFFFFFFFF else s.dev.reg (aCrc u 4)) (crcWidth p)))
    ∧ (s.dev.crcOwns u m = false → s.dev.cfg.busy = false →
      ∀ i ∈ [Instr.data8 m u w, .data16 m u w, .data32 m u w, .crcLoad m u w], exec i s = .next s)

/-- The configuration CRC (R412–R415): COMMIT starts a pass, or queues one more; at its end the reference and the block values
are those of the image, the owners written come into force and the pass is reported; a write of CFG_CRC_REF makes the block
values void; a scrubber pass that finds the reference clears a mismatch, and the second one in a row that does not reports
it. -/
def Obligations.ConfigurationIsCommittedAndScrubbed : Prop :=
  ∀ s : State, s.dev.life = .running →
    let d := s.dev
    let image := imageCrc d.configImage
    (d.worker = false → d.plane.frozen = false → Passes d 0 →
      (d.cfg.busy = false → Gives (.cfgCommit .pf0) s { d with cfg.busy := true })
      ∧ (d.cfg.busy = true → Gives (.cfgCommit .pf0) s { d with cfg.again := true })
      ∧ (∀ w, Answers (.cfgCrcRefWrite .pf0 w) s fun t =>
          t.dev.reg 0x20004 = w ∧ t.dev.cfg.blocksValid = false ∧ t.dev.cfg.blocks = 0))
    ∧ (d.cfg.busy = false → exec .cfgCommitDone s = .next s)
    ∧ (d.cfg.busy = true → d.cfg.heldBack = [] → Answers .cfgCommitDone s fun t =>
        t.dev.reg 0x20004 = image ∧ t.dev.cfg.stored = blockCrcs d.configImage ∧ t.dev.cfg.blocksValid = true
        ∧ t.dev.cfg.busy = d.cfg.again ∧ EventSet t 0x20010 2 ∧ t.dev.xc.owner = bit (d.reg 0xA00008) 31
        ∧ ∀ u : Fin 16, (t.dev.crcU u).owner = BitVec.ofNat 5 (fld (d.reg (aCrc u 0)) 8 5))
    ∧ (d.cfg.busy = true → exec .cfgScrubPass s = .next s)
    ∧ (d.cfg.busy = false →
      (image = d.reg 0x20004 → Answers .cfgScrubPass s fun t => t.dev.cfg.mismatch = false ∧ t.dev.cfg.bad = false
        ∧ t.dev.cfg.last = image ∧ (d.cfg.mismatch = true → EventSet t 0x20010 1))
      ∧ (image ≠ d.reg 0x20004 → d.cfg.bad = false → Answers .cfgScrubPass s fun t =>
        t.dev.cfg.bad = true ∧ t.dev.cfg.mismatch = d.cfg.mismatch ∧ t.dev.cfg.last = image)
      ∧ (image ≠ d.reg 0x20004 → d.cfg.bad = true → d.cfg.mismatch = false → Answers .cfgScrubPass s fun t =>
        t.dev.cfg.mismatch = true ∧ EventSet t 0x20010 0))

/-- The windows and the registers whose write starts something at once (R198, R207, R303, R322, R417, R453, R465): the cross-connect
window shows a sound connection word with its check field, or nothing beyond its table; the table window reads a sound word
into its data registers and writes one only into a unit that is fenced; TIME_CTRL captures the time counter; REARM empties the
first-record window; ARM arms, disarms or is denied; CAL_CFG ends a run and starts the sensor afresh; TICK_PHASE acts while
the cross-connect owns the phase. Reads (R43, R408): a word read as poisoned makes the reads of the window's data poisoned
TLPs, in the base window and in every alias window alike.
The rule of denial of an arm is the reading of log entry 28. -/
def Obligations.WindowsAndTriggersAct : Prop :=
  ∀ s : State, s.dev.life = .running → s.dev.worker = false → s.dev.plane.frozen = false → s.dev.cfg.busy = false →
    let d := s.dev
    let sound := fun (id : MemId) (a : Nat) => syndrome s.mem (memNo id) a = 0 ∧ ∀ b, d.armMask (memSource id).1 (memSource id).2 b = 0
    (∀ w, let t := fld w 13 2
      let pos := fld w 0 13
      let at_ := damaskAt (if bit w 15 then d.standbyPage t else d.activePage t) t pos
      (tableSize t ≤ pos → Answers (.xcTableRead .pf0 w) s fun u => u.dev.xcTbl.data = 0 ∧ u.dev.xcTbl.poison = false ∧ u.mem = s.mem)
      ∧ (∀ n : Fin 32, pos < tableSize t → n.val = 16 * d.shownPlane + at_.1 → d.fencedOrPlane (srcOf 13 n) = false → sound (.damask n) at_.2 →
        Answers (.xcTableRead .pf0 w) s fun u => u.dev.xcTbl.data = wordData s.mem (128 + n) at_.2
          ∧ u.dev.xcTbl.check = wordCheck s.mem (128 + n) at_.2 ∧ u.dev.xcTbl.poison = false ∧ u.mem = s.mem))
    ∧ (∀ id src a, d.tblWord = some (id, src, a) →
      (sound id a → Answers (.tableWindowRead .pf0) s fun u => u.mem = s.mem ∧ u.dev.tbl.denied = false
        ∧ u.dev.reg 0x104 = (wordData s.mem (memNo id) a).setWidth 32 ∧ u.dev.reg 0x108 = (wordData s.mem (memNo id) a >>> 32).setWidth 32
        ∧ u.dev.tbl.check = wordCheck s.mem (memNo id) a ∧ u.dev.tbl.poison = false)
      ∧ (d.fencedOrPlane src = true → Answers (.tableWindowWrite .pf0) s fun u => u.dev.tbl.denied = false
        ∧ u.mem = putWord s.mem (memNo id) a ((d.reg 0x108).setWidth 64 <<< 32 ||| (d.reg 0x104).setWidth 64) false)
      ∧ (d.fencedOrPlane src = false → Answers (.tableWindowWrite .pf0) s fun u => u.dev.tbl.denied = true ∧ u.mem = s.mem))
    ∧ (∀ id src a, d.tblWord = some (id, src, a) → eccOf (syndrome s.mem (memNo id) a) = .poison →
      Answers (.tableWindowRead .pf0) s fun u => u.dev.tbl.poison = true ∧ u.mem = s.mem ∧ ∀ via win, win < 4 →
        u.dev.hostRead via (.dw 0xF) (2 ^ 24 * win + 0x104) = ((wordData s.mem (memNo id) a).setWidth 32 |>.setWidth 64, true)
        ∧ u.dev.hostRead via (.dw 0xF) (2 ^ 24 * win + 0x108)
          = ((wordData s.mem (memNo id) a >>> 32).setWidth 32 |>.setWidth 64, true))
    ∧ (d.tblWord = none → Answers (.tableWindowRead .pf0) s fun u => u.dev.tbl.denied = true ∧ u.dev.reg 0x104 = 0)
    ∧ Gives (.timeCapture .pf0) s { d with tsu.capSec := d.tsu.sec, tsu.capNs := d.tsu.ns }
    ∧ (∀ src rr, findReg (fwBase src.toNat + 0x18) = some rr → rr.name = "FW_CTRL" → fwBase src.toNat % 4 = 0 → fwBase src.toNat < 2 ^ 24 - 64 →
      Answers (.fwRearm .pf0 src) s fun t =>
        t.dev.reg (fwBase src.toNat + 4) = d.reg (fwBase src.toNat + 4) &&& 0xFFFFFFFE)
    ∧ (∀ src w rr, findReg (fwBase src.toNat + 0x24) = some rr → rr.name = "FW_INJ_CTRL" → fwBase src.toNat % 4 = 0 → fwBase src.toNat < 2 ^ 24 - 64 →
      let b := fwBase src.toNat
      let key := 16 * d.injSource b + fld w 8 4
      (fld w 16 8 = 0 → Answers (.injArm .pf0 src w) s fun t => tget {} t.dev.arms key = {})
      ∧ (fld w 16 8 ≠ 0 → d.armDenied b (d.injSource b) (fld w 8 4) (fld w 0 8) = true → Answers (.injArm .pf0 src w) s fun t =>
        t.dev.arms = d.arms ∧ bit (t.dev.reg (b + 0x24)) 15 = true)
      ∧ (fld w 16 8 ≠ 0 → d.armDenied b (d.injSource b) (fld w 8 4) (fld w 0 8) = false → Answers (.injArm .pf0 src w) s fun t =>
        tget {} t.dev.arms key = { mask := BitVec.ofNat 8 (fld w 0 8), any := bit w 12, count := fld w 16 8 }))
    ∧ (∀ w, Answers (.calCfgWrite .pf0 w) s fun t => t.dev.cal.run = none ∧ t.dev.cal.srcFail = false ∧ t.dev.cal.fails = 0
        ∧ t.dev.cal.i2c = bit w 0 ∧ (d.cal.run ≠ none → EventSet t aCalEvent 1))
    ∧ (∀ w, d.xc.owner = false → fld w 0 10 ≤ 999 → Answers (.xcTickCfgWrite .pf0 w) s fun t =>
        t.dev.xc.newPhase = if fld w 0 10 = d.xc.phase then none else some (fld w 0 10))
/-! ### Warm resets -/

/-- Warm resets (R489, R410): a write of RST_CTRL with GO resets its block's run-time state and runs until it is done; one more
waits while a reset runs; a block that does not exist is denied; the end is reported. The security processor first completes a KEY_ADMIN
that is writing OTP.
What a warm reset leaves is the reading of log entry 30, and when OTP is being written that of entry 135. -/
def Obligations.WarmResetsResetTheirBlock : Prop :=
  ∀ s : State, s.dev.life = .running →
    let d := s.dev
    let runs := fun (i : Instr) (b n : Nat) (P : State → Prop) => Answers i s fun t =>
      t.dev.power.reset = some (b, n) ∧ t.dev.power.denied = false ∧ P t
    (d.worker = false → d.plane.frozen = false → Passes d 0 →
      (d.power.reset = none →
        runs (.warmResetHostQueueEngine .pf0) 1 0 (fun t => t.dev.host.urgent = [] ∧ t.dev.host.jobs = [] ∧ ∀ r, r < 11 → t.dev.ringOn r = false)
        ∧ runs (.warmResetTsu .pf0) 2 0 (fun t => t.dev.cal.run = none ∧ (∀ x ∈ t.dev.tsu.realign, x.job = none)
            ∧ t.dev.tsu.elapsed = d.tsu.elapsed ∧ t.dev.tsu.sec = d.tsu.sec ∧ t.dev.tsu.ns = d.tsu.ns
            ∧ ∀ r, (d.tref r).enable = true → (t.dev.tref r).st = 1 ∧ (t.dev.tref r).cause = 6)
        ∧ runs (.warmResetCal .pf0) 3 0 (fun t => t.dev.cal.run = none ∧ t.dev.cal.srcFail = false ∧ t.dev.cal.fails = 0)
        ∧ runs (.warmResetSecurity .pf0) 4 0 (fun t =>
            (d.sec.writing = none → t.dev.sec.waiting = [] ∧ t.dev.sec.service = none)
            ∧ (d.sec.writing ≠ none → t.dev.sec.waiting = d.sec.waiting ∧ t.dev.sec.service = d.sec.service ∧ t.dev.sec.resetAfter = true)
            ∧ t.dev.sec.slotSt = d.sec.slotSt ∧ t.dev.sec.counter = d.sec.counter)
        ∧ runs (.warmResetStatisticsDma .pf0) 5 0 (fun t => t.dev.host.snaps = [])
        ∧ (∀ u, runs (.warmResetCrcUnit .pf0 u) 6 u (fun t => (t.dev.crcU u).queue = [] ∧ (t.dev.crcU u).state = 0
            ∧ (t.dev.crcU u).count = 0 ∧ (t.dev.crcU u).owner = (d.crcU u).owner ∧ ∀ v, v ≠ u.val → t.dev.crcU v = d.crcU v))
        ∧ (∀ l, runs (.warmResetLane .pf0 l) 7 l (fun t => (t.dev.queue (.laneIn l)).items = [] ∧ (t.dev.queue (.laneEg l)).items = []
            ∧ (t.dev.lane l).bstate = if (d.lane l).ctrl.getLsbD 0 = true ∧ (d.lane l).rate ≠ 0 then
                (if (d.lane l).ctrl.getLsbD 3 then .cal else .acquire) else (d.lane l).bstate))
        ∧ ∀ x : Data, bit (x.setWidth 32) 15 = true → (fld (x.setWidth 32) 0 8 = 0 ∨ 7 < fld (x.setWidth 32) 0 8) →
          Answers (.registerWrite .pf0 (.dw 0xF) 0x70040 x) s fun t => t.dev.power.denied = true ∧ t.dev.power.reset = none)
      ∧ (d.power.reset ≠ none → Answers (.warmResetTsu .pf0) s fun t =>
          t.dev.power.resetNext = true ∧ t.dev.power.reset = d.power.reset ∧ t.dev.tsu = d.tsu))
    ∧ (d.power.reset = none → exec .warmResetDone s = .next s)
    ∧ (∀ b n, d.power.reset = some (b, n) → (b = 4 → d.sec.resetAfter = false) → d.power.resetNext = false →
      Answers .warmResetDone s fun t => t.dev.power.reset = none ∧ t.dev.power.lastBlock = b ∧ t.dev.power.lastInst = n
        ∧ EventSet t 0x70008 4)

/-! ### Jersey links -/

/-- The states of a Jersey link and its frames and messages (R428–R432): clock recovery, whose attempts are bounded, and the frame
lead from ACQUIRE through ALIGN to HELLO; MARKER is searched for with two candidates, and the check of one, with its HCRC, brings the
receiver into frame; lost clock recovery, the fourth errored header in a row, a slip and an acknowledgement that stalls for 1 ms lead
back to ACQUIRE; a frame leaves each frame time with its number, the acknowledgement, RDI while the receiver is out of frame and, in
a manager, TICK behind a tick; the unacknowledged messages go again 20 µs after the oldest was sent, in order; and a message is
accepted in sequence or not at all.
How a link leaves a state where R431 is silent is the reading of log entry 80, and what a frame time is that of entry 132. -/
def Obligations.JerseyLinksAlignAndCarryMessages : Prop :=
  ∀ (s : State) (j : Fin 8), s.dev.life = .running →
    let l := s.dev.link j
    let quiet := l.slipSeen = (s.dev.queue (.jyIn j)).drops
    (l.st = 1 → Answers (.jyClockLocked j) s fun t => (t.dev.link j).st = 2
      ∧ (l.acqSince ≤ s.dev.now → (t.dev.link j).acqSince ≤ s.dev.now ∧ s.dev.now < (t.dev.link j).acqSince + 100000000))
    ∧ (l.st ≠ 1 → Answers (.jyClockLocked j) s fun t => (t.dev.link j).st = l.st)
    ∧ (l.st = 2 → Answers (.jyInFrame j) s fun t => (t.dev.link j).st = if l.inFrame then 3 else 2)
    ∧ (l.st = 3 → l.helloAt + 100000 ≤ s.dev.now → Answers (.jyHelloTimer j) s fun t => (t.dev.link j).helloAt = s.dev.now)
    ∧ (l.st ∈ [2, 3, 4, 7] → Answers (.jyCdrLost j) s fun t => (t.dev.link j).st = 1 ∧ (t.dev.link j).inFrame = false)
    ∧ (∀ f : JyFrame, 2 ≤ l.st → l.inFrame = false → quiet → Answers (.jyFrame j f) s fun t =>
      let y := t.dev.link j
      (∀ p ∈ l.cands, p + jyLen = f.pos →
        (f.marked = true → f.hcrcOk = true → y.inFrame = true ∧ y.framePos = f.pos ∧ y.bad = 0 ∧ y.cands = [] ∧ y.rdi = f.rdi)
        ∧ (f.marked = false ∨ f.hcrcOk = false → y.inFrame = false ∧ y.cands = l.cands.erase p ∧ y.scanFrom = f.pos + 1))
      ∧ ((∀ p ∈ l.cands, p + jyLen ≠ f.pos) → y.inFrame = false
        ∧ (l.scanFrom ≤ f.pos → l.cands.length < 2 → y.scanFrom = f.pos + 1
          ∧ (f.marked = true → (∀ p ∈ l.cands, p % jyLen ≠ f.pos % jyLen) → y.cands = l.cands ++ [f.pos])
          ∧ (f.marked = false ∨ (∃ p ∈ l.cands, p % jyLen = f.pos % jyLen) → y.cands = l.cands))
        ∧ (f.pos < l.scanFrom ∨ 2 ≤ l.cands.length → y.cands = l.cands ∧ y.scanFrom = l.scanFrom)))
    ∧ (∀ f : JyFrame, 2 ≤ l.st → l.inFrame = true →
      (quiet → f.regions = [] → f.pos % jyLen = l.framePos % jyLen →
        (f.hcrcOk = true → f.marked = true ∨ l.bad < 3 → Answers (.jyFrame j f) s fun t => (t.dev.link j).rdi = f.rdi
          ∧ (t.dev.link j).bad = (if f.marked then 0 else l.bad + 1) ∧ (t.dev.link j).st = l.st
          ∧ (f.tick = true → s.dev.worker = true → (t.dev.link j).tickMark = some (s.dev.now - f.tickOffset)
            ∧ (t.dev.link j).tickTime = some s.dev.timeNs))
        ∧ (f.hcrcOk = false → l.bad < 3 → Answers (.jyFrame j f) s fun t => (t.dev.link j).bad = l.bad + 1 ∧ (t.dev.link j).st = l.st
          ∧ (t.dev.link j).tickMark = l.tickMark ∧ t.dev.reg (aJy j 0x14) = countUp (s.dev.reg (aJy j 0x14)) 0 32 1)
        ∧ (f.marked = false ∨ f.hcrcOk = false → 3 ≤ l.bad → l.st ∈ [2, 3, 4, 7] → Answers (.jyFrame j f) s fun t =>
          (t.dev.link j).st = 1 ∧ (t.dev.link j).inFrame = false))
      ∧ (quiet → f.pos % jyLen ≠ l.framePos % jyLen → Answers (.jyFrame j f) s fun t =>
        (t.dev.link j).inFrame = true ∧ (t.dev.link j).bad = l.bad ∧ (t.dev.link j).st = l.st)
      ∧ (¬ quiet → l.st ∈ [2, 3, 4, 7] → Answers (.jyFrame j f) s fun t => (t.dev.link j).st = 1 ∧ (t.dev.link j).inFrame = false))
    ∧ (∀ f : JyFrame,
      (l.st ≠ 0 → (∀ t0, l.frameAt = some t0 → t0 + 1600 ≤ s.dev.now) → Answers (.jyFrame j f) s fun t =>
        ∃ y : JySent, .jyFrame j y l.scr ∈ t.dev.host.out ∧ y.frame = l.txFrame ∧ y.ack = (t.dev.link j).rxSeq ∧ y.credit = 1024
          ∧ y.stream.length = 396 ∧ y.timing.getLsbD 12 = !(t.dev.link j).inFrame
          ∧ (s.dev.worker = true → y.timing.getLsbD 11 = false)
          ∧ (s.dev.worker = false → l.txTick ≠ s.dev.xc.tick → s.dev.now - s.dev.xc.tickAt ≤ 1599 →
            y.timing.getLsbD 11 = true ∧ y.timing.toNat % 2048 = s.dev.now - s.dev.xc.tickAt)
          ∧ (t.dev.link j).txFrame = l.txFrame + 1 ∧ (t.dev.link j).frameAt = some s.dev.now)
      ∧ (l.st = 0 ∨ (∃ t0, l.frameAt = some t0 ∧ s.dev.now < t0 + 1600) → Answers (.jyFrame j f) s fun t =>
        (t.dev.link j).txFrame = l.txFrame ∧ (t.dev.link j).frameAt = l.frameAt))
    ∧ (∀ m ms, l.unacked = m :: ms → m.sentAt + 20000 ≤ s.dev.now → Answers (.jyRetransmitTimeout j) s fun t =>
        let again := l.unacked.map fun x => { x with sentAt := s.dev.now }
        (∃ more, (t.dev.link j).unacked = again ++ more) ∧ (∃ more, (t.dev.link j).txQ = again ++ more)
        ∧ (∃ more, t.dev.host.out = more ++ (again.reverse.map (.jersey j) ++ s.dev.host.out))
        ∧ t.dev.reg (aJy j 0x18) = countUp (s.dev.reg (aJy j 0x18)) 0 32 1)
    ∧ (l.unacked ≠ [] → l.ackAt + 1000000 ≤ s.dev.now → l.st ∈ [2, 3, 4, 7] → Answers (.jyAckStall j) s fun t => (t.dev.link j).st = 1)
    ∧ (∀ m : JyRx, s.dev.worker = false → 3 ≤ l.st → Answers (.jyControlMessage j m) s fun t =>
        (t.dev.link j).credit = 64 * m.credit.toNat
        ∧ (t.dev.link j).rxSeq = if m.crcOk = true ∧ m.mseq = l.rxSeq then l.rxSeq + 1 else l.rxSeq)

/-- HELLO and the boot of a worker over its link, at the manager (R432–R434): a peer that is not the expected worker gives
MISMATCH, a booted one RUN and another BOOT; one boot transfer runs at a time, from the first link in BOOT; its result, or
5 s without one, decides between RUN and BOOT_FAIL. A worker that has not booted boots from its manager; one in BOOT_FAIL says HELLO
again, from MSEQ 0, when its manager does.
The reasons and reports at the end of a boot are the reading of log entry 81, and the way out of BOOT_FAIL that of entry 80. -/
def Obligations.WorkersBootOverTheirLink : Prop :=
  ∀ (s : State) (j : Fin 8), s.dev.life = .running ∨ (s.dev.worker = true ∧ s.dev.life = .bootFailed) →
    let l := s.dev.link j
    let up := fun t : State => (t.dev.link j).st = 7 ∧ EventSet t (aJy j 4) 0
    (∀ role devid booted, 3 ≤ l.st → Answers (.jyHello j role devid booted) s fun t =>
      (t.dev.link j).peer = (if role then 1 else 0) + 2 * devid.val)
    ∧ (l.st = 3 → s.dev.worker = false →
      (∀ role devid booted, (role = false ∨ devid ≠ j) → Answers (.jyHello j role devid booted) s fun t =>
        (t.dev.link j).st = 5 ∧ EventSet t (aJy j 4) 2)
      ∧ (Answers (.jyHello j true j true) s up)
      ∧ Answers (.jyHello j true j false) s fun t => (t.dev.link j).st = 4)
    ∧ (l.st ∈ [3, 6] → s.dev.life = .bootFailed → ∀ devid booted, Answers (.jyHello j false devid booted) s fun t =>
        (t.dev.link j).st = 4 ∧ t.dev.life = .booting ∧ t.dev.jersey.bootBuf = []
        ∧ (l.st = 6 → ∃ m, .jersey j m ∈ t.dev.host.out ∧ m.ty = 0x0B ∧ m.mseq = 0))
    ∧ (s.dev.worker = false → 1 ≤ j.val → l.st = 4 →
      ((∀ k, 1 ≤ k → k < 8 → (s.dev.link k).bootAt = none) → (∀ k, 1 ≤ k → k < j.val → (s.dev.link k).st ≠ 4) →
        Answers .jyBootStart s fun t => (t.dev.link j).bootAt = some s.dev.now)
      ∧ (∀ k : Fin 8, 1 ≤ k.val → (s.dev.link k).bootAt ≠ none → exec .jyBootStart s = .next s)
      ∧ (Answers (.jyBootResult j 0) s fun t => up t ∧ EventSet t (aJy j 4) 3 ∧ (t.dev.link j).bootReason = 0)
      ∧ (∀ n : Fin 16, n ≠ 0 → Answers (.jyBootResult j n) s fun t =>
          (t.dev.link j).st = 6 ∧ (t.dev.link j).bootReason = n.val ∧ EventSet t (aJy j 4) 4))
    ∧ (∀ b, l.st = 4 → l.bootAt = some b → b + 5000000000 ≤ s.dev.now → Answers (.jyBootTimeout j) s fun t =>
        (t.dev.link j).st = 6 ∧ (t.dev.link j).bootReason = 1
        ∧ (s.dev.worker = true → t.dev.life = .bootFailed ∧ t.dev.sec.reasonA = 1))

/-- The remote window, the links' registers, D and a worker's tick (R432, R437, R439–R441): a remote access goes to a worker in
RUN at an aligned address, is denied otherwise, and ends with its response, a READ asked for with a WRITE behind it; RESTART and
EXPECT start and end links; a worker returns both frames' numbers and times, and D is half of what the exchange leaves; and TIME, in
its sequence, sets a worker's tick and, where its counter is more than 20 ns off the manager's, the counter.
The order and the range of a remote access are the reading of log entries 45 and 83, the tick and the counter of a worker that of
entry 82. -/
def Obligations.RemoteAccessAndTimeReachWorkers : Prop :=
  ∀ s : State, s.dev.life = .running →
    let d := s.dev
    let target := fld (d.reg 0x120010) 28 3
    let ok := d.present target = true ∧ fld (d.reg 0x120010) 0 24 % 4 = 0
    (d.worker = false → d.plane.frozen = false → d.jersey.rmtBusy = false → Passes d 0 →
      (ok → (Answers (.remoteRead .pf0) s fun t => t.dev.jersey.rmtBusy = true ∧ t.dev.jersey.rmtDenied = false ∧ t.dev.jersey.rmtRead = true)
        ∧ Answers (.remoteWrite .pf0) s fun t => t.dev.jersey.rmtBusy = true ∧ t.dev.jersey.rmtDenied = false ∧ t.dev.jersey.rmtRead = false)
      ∧ (¬ ok → (Answers (.remoteRead .pf0) s fun t => t.dev.jersey.rmtBusy = false ∧ t.dev.jersey.rmtDenied = true ∧ t.dev.reg 0x120014 = 0)
        ∧ Answers (.remoteWrite .pf0) s fun t => t.dev.jersey.rmtBusy = false ∧ t.dev.jersey.rmtDenied = true
          ∧ t.dev.reg 0x120014 = d.reg 0x120014))
    ∧ (∀ w, d.jersey.rmtBusy = false → exec (.remoteResponse w) s = .next s)
    ∧ (∀ w, d.jersey.rmtBusy = true → d.jersey.rmtAlso = false → d.jersey.rmtNext = none → Answers (.remoteResponse w) s fun t =>
        t.dev.jersey.rmtBusy = false ∧ t.dev.reg 0x120014 = if d.jersey.rmtRead then w else d.reg 0x120014)
    ∧ (∀ w, d.jersey.rmtBusy = true → d.jersey.rmtAlso = true → Answers (.remoteResponse w) s fun t =>
        t.dev.jersey.rmtBusy = true ∧ t.dev.jersey.rmtAlso = false ∧ t.dev.jersey.rmtRead = true
        ∧ t.dev.jersey.rmtNext = d.jersey.rmtNext)
    ∧ (d.worker = false → d.plane.frozen = false → Passes d 0 → ∀ j : Fin 8,
      ((d.link j).st ∈ [5, 6, 7] → Answers (.jyLinkRestart .pf0 j) s fun t => (t.dev.link j).st = 1)
      ∧ ((d.link j).st ∉ [5, 6, 7] → Answers (.jyLinkRestart .pf0 j) s fun t => (t.dev.link j).st = (d.link j).st)
      ∧ (d.cfg.busy = false → 1 ≤ j.val → ∀ w, Answers (.jyBuildWrite .pf0 w) s fun t =>
        (t.dev.link j).st = if bit w j then (if (d.link j).st = 0 then 1 else (d.link j).st) else 0))
    ∧ (d.worker = false → ∀ (j : Fin 8) (t1 t4 : Int) (t2 t3 : FrameStamp) (k : Nat), (d.link j).st = 7 →
      (t4 - t1) - (t3.at_ - t2.at_) = 2 * k → k ≤ 65535 →
      Answers (.jyDelayExchange j t1 t2 t3 t4) s fun t => (t.dev.link j).delay = k)
    ∧ (d.worker = true → (d.link 0).st = 7 →
      (∀ (t1 t4 : Int) (t2 t3 : FrameStamp), (d.link 0).waiting = [] →
        ((d.link 0).unacked.map JyMsg.size).sum + 30 ≤ (d.link 0).credit → Answers (.jyDelayExchange 0 t1 t2 t3 t4) s fun t =>
          (t.dev.link 0).delay = (d.link 0).delay ∧ ∃ m, .jersey 0 m ∈ t.dev.host.out ∧ m.ty = 0x0A ∧ m.mseq = (d.link 0).txSeq
            ∧ m.payload = le 2 t2.frame.toNat ++ le 8 (twos 64 t2.at_) ++ le 2 t3.frame.toNat ++ le 8 (twos 64 t3.at_))
      ∧ ∀ (tick : Word) (sec : BitVec 48) ns (mseq : BitVec 16) delay (ql : BitVec 4),
        (mseq ≠ (d.link 0).rxSeq → Answers (.jyTime tick sec ns mseq delay ql) s fun t =>
          (t.dev.link 0).delay = (d.link 0).delay ∧ t.dev.xc.tick = d.xc.tick)
        ∧ (mseq = (d.link 0).rxSeq → Answers (.jyTime tick sec ns mseq delay ql) s fun t =>
          (t.dev.link 0).delay = delay % 2 ^ 16 ∧ (t.dev.link 0).rxSeq = mseq + 1 ∧ t.dev.jersey.ql = ql.toNat
          ∧ t.dev.xc.haveTick = true ∧ t.dev.xc.tick = tick.toNat
          ∧ ∀ here, (d.link 0).tickTime = some here →
            let diff : Int := here - ((1000000000 * sec.toNat + ns : Nat) + (delay % 2 ^ 16 : Nat))
            let jumps := 20 < diff.natAbs ∧ ∀ x, (d.link 0).timeDiff = some x → 20 < (diff - x).natAbs
            (jumps → (t.dev.link 0).timeDiff = some 0 ∧ EventSet t aTsuHist 8
              ∧ ((∀ r, 64 ≤ r → r < 68 → (d.tref r).pps = false) →
                t.dev.timeNs = (d.timeNs - diff) % (2 ^ 48 * 1000000000 : Int)))
            ∧ (¬ jumps → (t.dev.link 0).timeDiff = some diff)))

/-! ### Supplies, resets and boot -/

/-- POR_N, the rails and boot (R425, R471, R487, R488, R493–R495, R433): a low pulse of 1 µs or more returns every block to its
reset state and keeps OTP, of which a counter record that was being written is used; POR_N rising samples the straps; a rail too low
holds the device until it is back; the boot ROM boots the slot of the higher SVN that verifies, else the other, else none; and a
worker's boots the image that came in boot blocks.
The straps over a rail reset, the contents of memory after it and when OTP is being written are the model's choices (log entries 5,
11, 43 and 135). -/
def Obligations.ResetsAndBoot : Prop :=
  ∀ s : State,
    let d := s.dev
    let same := fun t : State => t.dev.sec.slotSt = d.sec.slotSt ∧ t.dev.sec.slotHash = d.sec.slotHash ∧ t.dev.sec.counter = d.sec.counter
      ∧ t.dev.sec.used = d.sec.used
    let otp := fun t : State => t.dev.sec.slotSt = d.sec.slotSt ∧ t.dev.sec.counter = d.sec.counter ∧ (d.sec.writing = none → same t)
      ∧ ∀ b, d.sec.writing = some b → t.dev.sec.used = d.sec.used + if bodyN b 0 1 = 3 then 1 else 0
    (∀ n, n < 1000 → exec (.porNAssert n) s = .next s)
    ∧ (∀ n, 1000 ≤ n → Answers (.porNAssert n) s fun t => otp t ∧ t.mem = [] ∧ t.dev.tap = d.tap ∧ t.dev.host.jobs = [] ∧ t.dev.host.rings = []
        ∧ t.dev.mask [.sec, .host, .tap, .fresh] = ({} : Dev).mask [.sec, .host, .tap, .fresh])
    ∧ (∀ role devid, d.porLow = false → exec (.porNRelease role devid) s = .next s)
    ∧ (∀ role (devid : Fin 8), d.porLow = true → Answers (.porNRelease role devid) s fun t =>
        t.dev.porLow = false ∧ t.dev.worker = role ∧ t.dev.devid = devid.val
        ∧ t.dev.life = (if role = true ∧ devid = 0 then .strapBad else .booting)
        ∧ (role = true → devid ≠ 0 → (t.dev.link 0).st = 1))
    ∧ (d.porLow = true → exec .railUndervoltage s = .next s)
    ∧ (d.porLow = false → Answers .railUndervoltage s fun t => t.dev.life = .railOff ∧ otp t ∧ t.mem = [] ∧ t.dev.regs = []
        ∧ t.dev.worker = d.worker ∧ t.dev.devid = d.devid)
    ∧ (d.life ≠ .railOff → exec .railRestored s = .next s)
    ∧ (d.life = .railOff → Answers .railRestored s fun t =>
        t.dev.life = if d.worker = true ∧ d.devid = 0 then .strapBad else .booting)
    ∧ (d.life ≠ .booting → ∀ a b, exec (.bootDone a b) s = .next s)
    ∧ (d.life = .booting → d.worker = false → ∀ a b,
      let n := if bFirst a b then 1 else 0
      let x := if bFirst a b then b else a
      let y := if bFirst a b then a else b
      let runs := fun (t : State) (img : BootImage) (slot : Nat) => t.dev.life = .running ∧ t.dev.sec.booted = true ∧ t.dev.sec.slot = slot
        ∧ t.dev.sec.svn = imgSvn img.bytes ∧ t.dev.power.inrush = false ∧ same t
        ∧ t.mem = loadPlane (pkgBody (imgPackage img.bytes)) 1 (loadPlane (pkgBody (imgPackage img.bytes)) 0 s.mem)
      Answers (.bootDone a b) s fun t => if d.sec.bootReason x = 0 then runs t x n else if d.sec.bootReason y = 0 then runs t y (1 - n)
        else t.dev.life = .bootFailed ∧ t.dev.sec.reasonA = d.sec.bootReason a ∧ t.dev.sec.reasonB = d.sec.bootReason b)
    ∧ (d.life = .booting → d.worker = true → ∀ a b,
      (d.jersey.bootBuf = [] → exec (.bootDone a b) s = .next s)
      ∧ ((d.link 0).st = 4 → d.jersey.bootBuf ≠ [] → Answers (.bootDone a b) s fun t =>
        let r := d.sec.bootReason { bytes := d.jersey.bootBuf }
        if r = 0 then t.dev.life = .running ∧ (t.dev.link 0).st = 7 ∧ (t.dev.tref 68).enable = true
        else t.dev.life = .bootFailed ∧ (t.dev.link 0).st = 6 ∧ (t.dev.link 0).bootReason = r))

/-- The supply states (R483–R486), the Felt governor (R473–R475) and the test port (R531): PWR_WARN_N and a sag shed every
enabled SHED port, RECOVER holds for RECOVER_HOLD and releases them; KEEP_AT_RISK follows t_cell; the governor keeps the
current within a slew of its estimate; and the test port takes its instruction.
Where supply commands act and when a port is at risk is the reading of log entry 42. -/
def Obligations.SuppliesShedAndRecover : Prop :=
  ∀ s : State, s.dev.awake = true →
    let d := s.dev
    let shed := fun t : State => ∀ p, p < 64 → (d.port p).format ≠ 0 → (d.port p).shed = true → (t.dev.port p).shedNow = true
    let risk := fun n : Nat => 2410 < n ∧ ∃ p ∈ d.enabledPorts, (d.port p).shed = false ∧ ∃ l ∈ d.portLanes p, (d.lane l).rate = 1
    let tcell := fun (t : State) (n : Nat) => t.dev.power.tcell = n ∧ (t.dev.power.keepRisk = true ↔ risk n)
      ∧ (risk n → d.power.keepRisk = false → EventSet t 0x70008 3)
    (d.power.st = 0 → Answers .pwrWarnAssert s fun t => t.dev.power.st = 1 ∧ t.dev.power.warnPin = true ∧ shed t ∧ EventSet t 0x70008 0)
    ∧ (d.power.st ≠ 0 → Gives .pwrWarnAssert s { d with power.warnPin := true, power.st := if d.power.st = 3 then 1 else d.power.st })
    ∧ (Answers .pwrWarnDeassert s fun t => t.dev.power.warnPin = false ∧ t.dev.power.st = if d.power.st = 1 then 3 else d.power.st)
    ∧ (d.power.st = 2 → exec .vcoreLow s = .next s
      ∧ Answers .vcoreRestored s fun t => t.dev.power.st = if d.power.warnPin then 1 else 3)
    ∧ (d.power.st ≠ 2 → exec .vcoreRestored s = .next s
      ∧ Answers .vcoreLow s fun t => t.dev.power.st = 2 ∧ (d.power.st = 0 → shed t) ∧ EventSet t 0x70008 1
          ∧ t.dev.reg 0x70018 = countUp (d.reg 0x70018) 0 32 1)
    ∧ (d.power.st = 3 → d.power.recSince + 10000000 * fld (d.reg 0x70000) 16 10 ≤ d.now → Answers .recoverHoldExpiry s fun t =>
        t.dev.power.st = 0 ∧ (∀ p, p < 64 → (t.dev.port p).shedNow = false) ∧ EventSet t 0x70008 2)
    ∧ (d.power.st ≠ 3 ∨ d.now < d.power.recSince + 10000000 * fld (d.reg 0x70000) 16 10 → exec .recoverHoldExpiry s = .next s)
    ∧ (∀ n, Answers (.keepAtRisk n) s fun t => tcell t n.toNat)
    ∧ (∀ i demand n v, let span := 100 * if d.power.inrush then 2 else fld (d.reg 0x70000) 0 6
      Answers (.governorUpdate i demand n v) s fun t => t.dev.power.ceil = i + span ∧ t.dev.power.floor = (i : Int) - span
        ∧ (t.dev.power.filler = true ↔ (demand : Int) + span < i) ∧ t.dev.power.iEst = min (i / 100) 4095
        ∧ t.dev.power.vcore = v.toNat ∧ tcell t n.toNat)
    ∧ (∀ ir, Gives (.tapInstruction ir) s { d with tap := ir })
/-! ### Rules stated whole -/

/-- A failed candidate is dropped and its slot frees, and the scanner goes on directly after the failed check, one byte or one
bit after the candidate's own offset in the frame (R93). -/
def Obligations.FailedCandidatesAreDropped : Prop :=
  ∀ (s : State) (pos : Nat), s.dev.life = .running →
    (∀ (p : Fin 64) (sl : Fin 16) (ph : Nat) (bits : List Bool), let k := 16 * p.val + sl.val
      let f := s.dev.framer k
      s.dev.framerAt k = true → f.inFrame = false → f.stopped = false → f.cands = [{ pos := pos, phase := ph }] →
      f.scanFrom ≤ pos + s.dev.frameLen p → fasAt bits ph = false →
      Gives (.candidateCheck (.port p sl) [(pos, bits)]) s
        (s.dev.updFramer k fun f => { f with cands := [], scanFrom := pos + s.dev.frameLen p + 1 }))
    ∧ ∀ (e : Fin 8064) (n : Nat) (bits : List Bool), let x := s.dev.e1 e
      x.st = .oof → n < 2 → x.cands = [{ pos := pos, passed := n }] → x.scanFrom ≤ pos + 256 * (n + 1) →
      (if n = 0 then bits.head? ≠ some true else bits.take 7 ≠ e1FasBits) →
      Gives (.candidateCheck (.e1 e) [(pos, bits)]) s
        (s.dev.updE1 e fun x => { x with cands := [], scanFrom := pos + 256 * (n + 1) + 1 })

/-- Datapath parity is odd on every byte: a byte with its bit of C holds an odd number of ones, and the all-zero word carries
C = 0xFF (R40); it is what a pushed item carries. -/
def Obligations.ParityIsOddOnEveryByte : Prop :=
  (∀ (d : Data) (i : Nat), i < 8 → (weight (byteOf d i) + if (parity d).getLsbD i then 1 else 0) % 2 = 1)
  ∧ parity 0 = 0xFF ∧ ∀ d tag p, (newItem d tag p).c = parity d

/-- A pop of an empty queue changes nothing and returns the idle item (`none` of `Dev.qRead`), which has TAG IDLE, D = 0, C = 0xFF, P = 0 and the QP that makes the
exclusive-OR of its 78 bits 0 (R47). -/
def Obligations.PopOfAnEmptyQueueIsIdle : Prop :=
  (∀ (s : State) (q : QId) (u : QItem), (s.dev.queue q).items = [] →
    exec (.queuePop q u) s = .next s ∧ s.dev.qRead q u = (none, s.dev) ∧ ((s.dev.qRead q u).1.getD {}).tag = 0)
  ∧ ({} : QItem) = { d := 0, c := 0xFF, tag := 0, p := false, qp := qpOf 0 0xFF 0 false }
  ∧ (xorBits (0 : Data) != (xorBits (0xFF : Byte) != (xorBits (0 : BitVec 4) != (false != ({} : QItem).qp)))) = false
end

