-- ==== Sys2Proof/Laws/Mask.lean ====
section
/-! SUPPORT. Frames: the parts of the device that an operation can change. `Dev.mask T d` is `d` with the parts of `T` at their
reset values, so that `(f d).mask T = d.mask T` says that `f` changes nothing outside `T`. -/

namespace Sys2Proof.Machine

/-- Every part of `T` is one of `U`. -/
def Part.within (T U : List Part) : Bool := T.all (fun x => decide (x ∈ U))

theorem Part.within_mem {T U : List Part} (h : Part.within T U = true) {x : Part} (hx : x ∈ T) : x ∈ U := by
  simpa using List.all_eq_true.mp h x hx

theorem Part.pick_pick {T U : List Part} (h : Part.within T U = true) {α : Type} (p : Part) (z v : α) :
    Part.pick U p z (Part.pick T p z v) = Part.pick U p z v := by
  unfold Part.pick
  split
  · rfl
  · rename_i hp
    rw [if_neg (fun ht => hp (Part.within_mem h ht))]

theorem Part.pick_out {T : List Part} {p : Part} (h : p ∉ T) {α : Type} (z v : α) : Part.pick T p z v = v := if_neg h

theorem Dev.mask_mask {T U : List Part} (h : Part.within T U = true) (d : Dev) : (d.mask T).mask U = d.mask U := by
  simp only [Dev.mask, Part.pick_pick h]

/-- What changes only the parts of `T` changes only the parts of a larger list. -/
theorem Dev.mask_mono {T U : List Part} (h : Part.within T U = true) {a b : Dev} (e : a.mask T = b.mask T) :
    a.mask U = b.mask U := by
  rw [← Dev.mask_mask h a, ← Dev.mask_mask h b, e]

theorem Dev.mask_ite {T : List Part} {c : Prop} [Decidable c] (a b : Dev) :
    (if c then a else b).mask T = if c then a.mask T else b.mask T := apply_ite _ _ _ _

theorem Dev.mask_foldl {α : Type} {T : List Part} {f : Dev → α → Dev} (h : ∀ d x, (f d x).mask T = d.mask T)
    (xs : List α) (d : Dev) : (xs.foldl f d).mask T = d.mask T := by
  induction xs generalizing d with
  | nil => rfl
  | cons x xs ih => rw [List.foldl_cons, ih, h]

theorem Dev.life_of_mask {T : List Part} {a b : Dev} (h : a.mask T = b.mask T) (hT : Part.life ∉ T) : a.life = b.life := by
  have := congrArg Dev.life h
  simpa only [Dev.mask, Part.pick_out hT] using this

theorem Dev.worker_of_mask {T : List Part} {a b : Dev} (h : a.mask T = b.mask T) (hT : Part.worker ∉ T) : a.worker = b.worker := by
  have := congrArg Dev.worker h
  simpa only [Dev.mask, Part.pick_out hT] using this

theorem Dev.devid_of_mask {T : List Part} {a b : Dev} (h : a.mask T = b.mask T) (hT : Part.devid ∉ T) : a.devid = b.devid := by
  have := congrArg Dev.devid h
  simpa only [Dev.mask, Part.pick_out hT] using this

theorem Dev.porLow_of_mask {T : List Part} {a b : Dev} (h : a.mask T = b.mask T) (hT : Part.porLow ∉ T) : a.porLow = b.porLow := by
  have := congrArg Dev.porLow h
  simpa only [Dev.mask, Part.pick_out hT] using this

theorem Dev.regs_of_mask {T : List Part} {a b : Dev} (h : a.mask T = b.mask T) (hT : Part.regs ∉ T) : a.regs = b.regs := by
  have := congrArg Dev.regs h
  simpa only [Dev.mask, Part.pick_out hT] using this

theorem Dev.plane_of_mask {T : List Part} {a b : Dev} (h : a.mask T = b.mask T) (hT : Part.plane ∉ T) : a.plane = b.plane := by
  have := congrArg Dev.plane h
  simpa only [Dev.mask, Part.pick_out hT] using this

theorem Dev.arms_of_mask {T : List Part} {a b : Dev} (h : a.mask T = b.mask T) (hT : Part.arms ∉ T) : a.arms = b.arms := by
  have := congrArg Dev.arms h
  simpa only [Dev.mask, Part.pick_out hT] using this

theorem Dev.wires_of_mask {T : List Part} {a b : Dev} (h : a.mask T = b.mask T) (hT : Part.wires ∉ T) : a.wires = b.wires := by
  have := congrArg Dev.wires h
  simpa only [Dev.mask, Part.pick_out hT] using this

theorem Dev.sliceU_of_mask {T : List Part} {a b : Dev} (h : a.mask T = b.mask T) (hT : Part.sliceU ∉ T) : a.sliceU = b.sliceU := by
  have := congrArg Dev.sliceU h
  simpa only [Dev.mask, Part.pick_out hT] using this

theorem Dev.lanes_of_mask {T : List Part} {a b : Dev} (h : a.mask T = b.mask T) (hT : Part.lanes ∉ T) : a.lanes = b.lanes := by
  have := congrArg Dev.lanes h
  simpa only [Dev.mask, Part.pick_out hT] using this

theorem Dev.ports_of_mask {T : List Part} {a b : Dev} (h : a.mask T = b.mask T) (hT : Part.ports ∉ T) : a.ports = b.ports := by
  have := congrArg Dev.ports h
  simpa only [Dev.mask, Part.pick_out hT] using this

theorem Dev.queues_of_mask {T : List Part} {a b : Dev} (h : a.mask T = b.mask T) (hT : Part.queues ∉ T) : a.queues = b.queues := by
  have := congrArg Dev.queues h
  simpa only [Dev.mask, Part.pick_out hT] using this

theorem Dev.crc_of_mask {T : List Part} {a b : Dev} (h : a.mask T = b.mask T) (hT : Part.crc ∉ T) : a.crc = b.crc := by
  have := congrArg Dev.crc h
  simpa only [Dev.mask, Part.pick_out hT] using this

theorem Dev.framers_of_mask {T : List Part} {a b : Dev} (h : a.mask T = b.mask T) (hT : Part.framers ∉ T) : a.framers = b.framers := by
  have := congrArg Dev.framers h
  simpa only [Dev.mask, Part.pick_out hT] using this

theorem Dev.flexo_of_mask {T : List Part} {a b : Dev} (h : a.mask T = b.mask T) (hT : Part.flexo ∉ T) : a.flexo = b.flexo := by
  have := congrArg Dev.flexo h
  simpa only [Dev.mask, Part.pick_out hT] using this

theorem Dev.oofCause_of_mask {T : List Part} {a b : Dev} (h : a.mask T = b.mask T) (hT : Part.oofCause ∉ T) : a.oofCause = b.oofCause := by
  have := congrArg Dev.oofCause h
  simpa only [Dev.mask, Part.pick_out hT] using this

theorem Dev.e1s_of_mask {T : List Part} {a b : Dev} (h : a.mask T = b.mask T) (hT : Part.e1s ∉ T) : a.e1s = b.e1s := by
  have := congrArg Dev.e1s h
  simpa only [Dev.mask, Part.pick_out hT] using this

theorem Dev.points_of_mask {T : List Part} {a b : Dev} (h : a.mask T = b.mask T) (hT : Part.points ∉ T) : a.points = b.points := by
  have := congrArg Dev.points h
  simpa only [Dev.mask, Part.pick_out hT] using this

theorem Dev.dayOffset_of_mask {T : List Part} {a b : Dev} (h : a.mask T = b.mask T) (hT : Part.dayOffset ∉ T) : a.dayOffset = b.dayOffset := by
  have := congrArg Dev.dayOffset h
  simpa only [Dev.mask, Part.pick_out hT] using this

theorem Dev.groupCause_of_mask {T : List Part} {a b : Dev} (h : a.mask T = b.mask T) (hT : Part.groupCause ∉ T) : a.groupCause = b.groupCause := by
  have := congrArg Dev.groupCause h
  simpa only [Dev.mask, Part.pick_out hT] using this

theorem Dev.odus_of_mask {T : List Part} {a b : Dev} (h : a.mask T = b.mask T) (hT : Part.odus ∉ T) : a.odus = b.odus := by
  have := congrArg Dev.odus h
  simpa only [Dev.mask, Part.pick_out hT] using this

theorem Dev.mapJobs_of_mask {T : List Part} {a b : Dev} (h : a.mask T = b.mask T) (hT : Part.mapJobs ∉ T) : a.mapJobs = b.mapJobs := by
  have := congrArg Dev.mapJobs h
  simpa only [Dev.mask, Part.pick_out hT] using this

theorem Dev.vc4s_of_mask {T : List Part} {a b : Dev} (h : a.mask T = b.mask T) (hT : Part.vc4s ∉ T) : a.vc4s = b.vc4s := by
  have := congrArg Dev.vc4s h
  simpa only [Dev.mask, Part.pick_out hT] using this

theorem Dev.los_of_mask {T : List Part} {a b : Dev} (h : a.mask T = b.mask T) (hT : Part.los ∉ T) : a.los = b.los := by
  have := congrArg Dev.los h
  simpa only [Dev.mask, Part.pick_out hT] using this

theorem Dev.circuits_of_mask {T : List Part} {a b : Dev} (h : a.mask T = b.mask T) (hT : Part.circuits ∉ T) : a.circuits = b.circuits := by
  have := congrArg Dev.circuits h
  simpa only [Dev.mask, Part.pick_out hT] using this

theorem Dev.reserve_of_mask {T : List Part} {a b : Dev} (h : a.mask T = b.mask T) (hT : Part.reserve ∉ T) : a.reserve = b.reserve := by
  have := congrArg Dev.reserve h
  simpa only [Dev.mask, Part.pick_out hT] using this

theorem Dev.xc_of_mask {T : List Part} {a b : Dev} (h : a.mask T = b.mask T) (hT : Part.xc ∉ T) : a.xc = b.xc := by
  have := congrArg Dev.xc h
  simpa only [Dev.mask, Part.pick_out hT] using this

theorem Dev.sels_of_mask {T : List Part} {a b : Dev} (h : a.mask T = b.mask T) (hT : Part.sels ∉ T) : a.sels = b.sels := by
  have := congrArg Dev.sels h
  simpa only [Dev.mask, Part.pick_out hT] using this

theorem Dev.groups_of_mask {T : List Part} {a b : Dev} (h : a.mask T = b.mask T) (hT : Part.groups ∉ T) : a.groups = b.groups := by
  have := congrArg Dev.groups h
  simpa only [Dev.mask, Part.pick_out hT] using this

theorem Dev.psels_of_mask {T : List Part} {a b : Dev} (h : a.mask T = b.mask T) (hT : Part.psels ∉ T) : a.psels = b.psels := by
  have := congrArg Dev.psels h
  simpa only [Dev.mask, Part.pick_out hT] using this

theorem Dev.pkt_of_mask {T : List Part} {a b : Dev} (h : a.mask T = b.mask T) (hT : Part.pkt ∉ T) : a.pkt = b.pkt := by
  have := congrArg Dev.pkt h
  simpa only [Dev.mask, Part.pick_out hT] using this

theorem Dev.tsu_of_mask {T : List Part} {a b : Dev} (h : a.mask T = b.mask T) (hT : Part.tsu ∉ T) : a.tsu = b.tsu := by
  have := congrArg Dev.tsu h
  simpa only [Dev.mask, Part.pick_out hT] using this

theorem Dev.cal_of_mask {T : List Part} {a b : Dev} (h : a.mask T = b.mask T) (hT : Part.cal ∉ T) : a.cal = b.cal := by
  have := congrArg Dev.cal h
  simpa only [Dev.mask, Part.pick_out hT] using this

theorem Dev.twill_of_mask {T : List Part} {a b : Dev} (h : a.mask T = b.mask T) (hT : Part.twill ∉ T) : a.twill = b.twill := by
  have := congrArg Dev.twill h
  simpa only [Dev.mask, Part.pick_out hT] using this

theorem Dev.host_of_mask {T : List Part} {a b : Dev} (h : a.mask T = b.mask T) (hT : Part.host ∉ T) : a.host = b.host := by
  have := congrArg Dev.host h
  simpa only [Dev.mask, Part.pick_out hT] using this

theorem Dev.jersey_of_mask {T : List Part} {a b : Dev} (h : a.mask T = b.mask T) (hT : Part.jersey ∉ T) : a.jersey = b.jersey := by
  have := congrArg Dev.jersey h
  simpa only [Dev.mask, Part.pick_out hT] using this

theorem Dev.power_of_mask {T : List Part} {a b : Dev} (h : a.mask T = b.mask T) (hT : Part.power ∉ T) : a.power = b.power := by
  have := congrArg Dev.power h
  simpa only [Dev.mask, Part.pick_out hT] using this

theorem Dev.sec_of_mask {T : List Part} {a b : Dev} (h : a.mask T = b.mask T) (hT : Part.sec ∉ T) : a.sec = b.sec := by
  have := congrArg Dev.sec h
  simpa only [Dev.mask, Part.pick_out hT] using this

theorem Dev.cfg_of_mask {T : List Part} {a b : Dev} (h : a.mask T = b.mask T) (hT : Part.cfg ∉ T) : a.cfg = b.cfg := by
  have := congrArg Dev.cfg h
  simpa only [Dev.mask, Part.pick_out hT] using this

theorem Dev.tbl_of_mask {T : List Part} {a b : Dev} (h : a.mask T = b.mask T) (hT : Part.tbl ∉ T) : a.tbl = b.tbl := by
  have := congrArg Dev.tbl h
  simpa only [Dev.mask, Part.pick_out hT] using this

theorem Dev.xcTbl_of_mask {T : List Part} {a b : Dev} (h : a.mask T = b.mask T) (hT : Part.xcTbl ∉ T) : a.xcTbl = b.xcTbl := by
  have := congrArg Dev.xcTbl h
  simpa only [Dev.mask, Part.pick_out hT] using this

theorem Dev.masters_of_mask {T : List Part} {a b : Dev} (h : a.mask T = b.mask T) (hT : Part.masters ∉ T) : a.masters = b.masters := by
  have := congrArg Dev.masters h
  simpa only [Dev.mask, Part.pick_out hT] using this

theorem Dev.tap_of_mask {T : List Part} {a b : Dev} (h : a.mask T = b.mask T) (hT : Part.tap ∉ T) : a.tap = b.tap := by
  have := congrArg Dev.tap h
  simpa only [Dev.mask, Part.pick_out hT] using this

theorem Dev.fresh_of_mask {T : List Part} {a b : Dev} (h : a.mask T = b.mask T) (hT : Part.fresh ∉ T) : a.fresh = b.fresh := by
  have := congrArg Dev.fresh h
  simpa only [Dev.mask, Part.pick_out hT] using this

theorem Dev.reports_of_mask {T : List Part} {a b : Dev} (h : a.mask T = b.mask T) (hT : Part.reports ∉ T) : a.reports = b.reports := by
  have := congrArg Dev.reports h
  simpa only [Dev.mask, Part.pick_out hT] using this

theorem Dev.mask_foldl2 {α β : Type} {T : List Part} {f : Dev × β → α → Dev × β}
    (h : ∀ s x, (f s x).1.mask T = s.1.mask T) (xs : List α) (s : Dev × β) : (xs.foldl f s).1.mask T = s.1.mask T := by
  induction xs generalizing s with
  | nil => rfl
  | cons x xs ih => rw [List.foldl_cons, ih, h]

theorem Dev.mask_set_life {T : List Part} (h : Part.within [.life] T = true) (d : Dev) v0 :
    ({ d with life := v0 } : Dev).mask T = d.mask T := Dev.mask_mono h rfl

theorem Dev.mask_set_worker {T : List Part} (h : Part.within [.worker] T = true) (d : Dev) v0 :
    ({ d with worker := v0 } : Dev).mask T = d.mask T := Dev.mask_mono h rfl

theorem Dev.mask_set_devid {T : List Part} (h : Part.within [.devid] T = true) (d : Dev) v0 :
    ({ d with devid := v0 } : Dev).mask T = d.mask T := Dev.mask_mono h rfl

theorem Dev.mask_set_porLow {T : List Part} (h : Part.within [.porLow] T = true) (d : Dev) v0 :
    ({ d with porLow := v0 } : Dev).mask T = d.mask T := Dev.mask_mono h rfl

theorem Dev.mask_set_plane {T : List Part} (h : Part.within [.plane] T = true) (d : Dev) v0 :
    ({ d with plane := v0 } : Dev).mask T = d.mask T := Dev.mask_mono h rfl

theorem Dev.mask_set_arms {T : List Part} (h : Part.within [.arms] T = true) (d : Dev) v0 :
    ({ d with arms := v0 } : Dev).mask T = d.mask T := Dev.mask_mono h rfl

theorem Dev.mask_set_wires {T : List Part} (h : Part.within [.wires] T = true) (d : Dev) v0 :
    ({ d with wires := v0 } : Dev).mask T = d.mask T := Dev.mask_mono h rfl

theorem Dev.mask_set_sliceU {T : List Part} (h : Part.within [.sliceU] T = true) (d : Dev) v0 :
    ({ d with sliceU := v0 } : Dev).mask T = d.mask T := Dev.mask_mono h rfl

theorem Dev.mask_set_lanes {T : List Part} (h : Part.within [.lanes] T = true) (d : Dev) v0 :
    ({ d with lanes := v0 } : Dev).mask T = d.mask T := Dev.mask_mono h rfl

theorem Dev.mask_set_crc {T : List Part} (h : Part.within [.crc] T = true) (d : Dev) v0 :
    ({ d with crc := v0 } : Dev).mask T = d.mask T := Dev.mask_mono h rfl

theorem Dev.mask_set_framers {T : List Part} (h : Part.within [.framers] T = true) (d : Dev) v0 :
    ({ d with framers := v0 } : Dev).mask T = d.mask T := Dev.mask_mono h rfl

theorem Dev.mask_set_flexo {T : List Part} (h : Part.within [.flexo] T = true) (d : Dev) v0 :
    ({ d with flexo := v0 } : Dev).mask T = d.mask T := Dev.mask_mono h rfl

theorem Dev.mask_set_oofCause {T : List Part} (h : Part.within [.oofCause] T = true) (d : Dev) v0 :
    ({ d with oofCause := v0 } : Dev).mask T = d.mask T := Dev.mask_mono h rfl

theorem Dev.mask_set_points {T : List Part} (h : Part.within [.points] T = true) (d : Dev) v0 :
    ({ d with points := v0 } : Dev).mask T = d.mask T := Dev.mask_mono h rfl

theorem Dev.mask_set_dayOffset {T : List Part} (h : Part.within [.dayOffset] T = true) (d : Dev) v0 :
    ({ d with dayOffset := v0 } : Dev).mask T = d.mask T := Dev.mask_mono h rfl

theorem Dev.mask_set_groupCause {T : List Part} (h : Part.within [.groupCause] T = true) (d : Dev) v0 :
    ({ d with groupCause := v0 } : Dev).mask T = d.mask T := Dev.mask_mono h rfl

theorem Dev.mask_set_odus {T : List Part} (h : Part.within [.odus] T = true) (d : Dev) v0 :
    ({ d with odus := v0 } : Dev).mask T = d.mask T := Dev.mask_mono h rfl

theorem Dev.mask_set_mapJobs {T : List Part} (h : Part.within [.mapJobs] T = true) (d : Dev) v0 :
    ({ d with mapJobs := v0 } : Dev).mask T = d.mask T := Dev.mask_mono h rfl

theorem Dev.mask_set_los {T : List Part} (h : Part.within [.los] T = true) (d : Dev) v0 :
    ({ d with los := v0 } : Dev).mask T = d.mask T := Dev.mask_mono h rfl

theorem Dev.mask_set_circuits {T : List Part} (h : Part.within [.circuits] T = true) (d : Dev) v0 :
    ({ d with circuits := v0 } : Dev).mask T = d.mask T := Dev.mask_mono h rfl

theorem Dev.mask_set_reserve {T : List Part} (h : Part.within [.reserve] T = true) (d : Dev) v0 :
    ({ d with reserve := v0 } : Dev).mask T = d.mask T := Dev.mask_mono h rfl

theorem Dev.mask_set_xc {T : List Part} (h : Part.within [.xc] T = true) (d : Dev) v0 :
    ({ d with xc := v0 } : Dev).mask T = d.mask T := Dev.mask_mono h rfl

theorem Dev.mask_set_sels {T : List Part} (h : Part.within [.sels] T = true) (d : Dev) v0 :
    ({ d with sels := v0 } : Dev).mask T = d.mask T := Dev.mask_mono h rfl

theorem Dev.mask_set_groups {T : List Part} (h : Part.within [.groups] T = true) (d : Dev) v0 :
    ({ d with groups := v0 } : Dev).mask T = d.mask T := Dev.mask_mono h rfl

theorem Dev.mask_set_psels {T : List Part} (h : Part.within [.psels] T = true) (d : Dev) v0 :
    ({ d with psels := v0 } : Dev).mask T = d.mask T := Dev.mask_mono h rfl

theorem Dev.mask_set_pkt {T : List Part} (h : Part.within [.pkt] T = true) (d : Dev) v0 :
    ({ d with pkt := v0 } : Dev).mask T = d.mask T := Dev.mask_mono h rfl

theorem Dev.mask_set_tsu {T : List Part} (h : Part.within [.tsu] T = true) (d : Dev) v0 :
    ({ d with tsu := v0 } : Dev).mask T = d.mask T := Dev.mask_mono h rfl

theorem Dev.mask_set_cal {T : List Part} (h : Part.within [.cal] T = true) (d : Dev) v0 :
    ({ d with cal := v0 } : Dev).mask T = d.mask T := Dev.mask_mono h rfl

theorem Dev.mask_set_twill {T : List Part} (h : Part.within [.twill] T = true) (d : Dev) v0 :
    ({ d with twill := v0 } : Dev).mask T = d.mask T := Dev.mask_mono h rfl

theorem Dev.mask_set_host {T : List Part} (h : Part.within [.host] T = true) (d : Dev) v0 :
    ({ d with host := v0 } : Dev).mask T = d.mask T := Dev.mask_mono h rfl

theorem Dev.mask_set_jersey {T : List Part} (h : Part.within [.jersey] T = true) (d : Dev) v0 :
    ({ d with jersey := v0 } : Dev).mask T = d.mask T := Dev.mask_mono h rfl

theorem Dev.mask_set_power {T : List Part} (h : Part.within [.power] T = true) (d : Dev) v0 :
    ({ d with power := v0 } : Dev).mask T = d.mask T := Dev.mask_mono h rfl

theorem Dev.mask_set_sec {T : List Part} (h : Part.within [.sec] T = true) (d : Dev) v0 :
    ({ d with sec := v0 } : Dev).mask T = d.mask T := Dev.mask_mono h rfl

theorem Dev.mask_set_cfg {T : List Part} (h : Part.within [.cfg] T = true) (d : Dev) v0 :
    ({ d with cfg := v0 } : Dev).mask T = d.mask T := Dev.mask_mono h rfl

theorem Dev.mask_set_tbl {T : List Part} (h : Part.within [.tbl] T = true) (d : Dev) v0 :
    ({ d with tbl := v0 } : Dev).mask T = d.mask T := Dev.mask_mono h rfl

theorem Dev.mask_set_xcTbl {T : List Part} (h : Part.within [.xcTbl] T = true) (d : Dev) v0 :
    ({ d with xcTbl := v0 } : Dev).mask T = d.mask T := Dev.mask_mono h rfl

theorem Dev.mask_set_tap {T : List Part} (h : Part.within [.tap] T = true) (d : Dev) v0 :
    ({ d with tap := v0 } : Dev).mask T = d.mask T := Dev.mask_mono h rfl

theorem Dev.mask_set_fresh {T : List Part} (h : Part.within [.fresh] T = true) (d : Dev) v0 :
    ({ d with fresh := v0 } : Dev).mask T = d.mask T := Dev.mask_mono h rfl

theorem Dev.mask_set_life_sec {T : List Part} (h : Part.within [.life, .sec] T = true) (d : Dev) v0 v1 :
    ({ d with life := v0, sec := v1 } : Dev).mask T = d.mask T := Dev.mask_mono h rfl

theorem Dev.mask_set_worker_devid {T : List Part} (h : Part.within [.worker, .devid] T = true) (d : Dev) v0 v1 :
    ({ d with worker := v0, devid := v1 } : Dev).mask T = d.mask T := Dev.mask_mono h rfl

theorem Dev.mask_set_xc_host {T : List Part} (h : Part.within [.xc, .host] T = true) (d : Dev) v0 v1 :
    ({ d with xc := v0, host := v1 } : Dev).mask T = d.mask T := Dev.mask_mono h rfl

theorem Dev.mask_set_xc_jersey {T : List Part} (h : Part.within [.xc, .jersey] T = true) (d : Dev) v0 v1 :
    ({ d with xc := v0, jersey := v1 } : Dev).mask T = d.mask T := Dev.mask_mono h rfl

theorem Dev.mask_set_tsu_cal {T : List Part} (h : Part.within [.tsu, .cal] T = true) (d : Dev) v0 v1 :
    ({ d with tsu := v0, cal := v1 } : Dev).mask T = d.mask T := Dev.mask_mono h rfl

theorem Dev.mask_set_twill_sec {T : List Part} (h : Part.within [.twill, .sec] T = true) (d : Dev) v0 v1 :
    ({ d with twill := v0, sec := v1 } : Dev).mask T = d.mask T := Dev.mask_mono h rfl

theorem Dev.mask_set_twill_fresh {T : List Part} (h : Part.within [.twill, .fresh] T = true) (d : Dev) v0 v1 :
    ({ d with twill := v0, fresh := v1 } : Dev).mask T = d.mask T := Dev.mask_mono h rfl

theorem Dev.mask_set_worker_devid_porLow {T : List Part} (h : Part.within [.worker, .devid, .porLow] T = true) (d : Dev) v0 v1 v2 :
    ({ d with worker := v0, devid := v1, porLow := v2 } : Dev).mask T = d.mask T := Dev.mask_mono h rfl

theorem Dev.mask_set_points_sels_twill {T : List Part} (h : Part.within [.points, .sels, .twill] T = true) (d : Dev) v0 v1 v2 :
    ({ d with points := v0, sels := v1, twill := v2 } : Dev).mask T = d.mask T := Dev.mask_mono h rfl

theorem Dev.mask_set_points_xc_pkt_tsu {T : List Part} (h : Part.within [.points, .xc, .pkt, .tsu] T = true) (d : Dev) v0 v1 v2 v3 :
    ({ d with points := v0, xc := v1, pkt := v2, tsu := v3 } : Dev).mask T = d.mask T := Dev.mask_mono h rfl

theorem Dev.mask_set_framers_flexo_oofCause_psels_pkt {T : List Part} (h : Part.within [.framers, .flexo, .oofCause, .psels, .pkt] T = true) (d : Dev) v0 v1 v2 v3 v4 :
    ({ d with framers := v0, flexo := v1, oofCause := v2, psels := v3, pkt := v4 } : Dev).mask T = d.mask T := Dev.mask_mono h rfl

theorem Dev.mask_set_framers_flexo_e1s_vc4s_los {T : List Part} (h : Part.within [.framers, .flexo, .e1s, .vc4s, .los] T = true) (d : Dev) v0 v1 v2 v3 v4 :
    ({ d with framers := v0, flexo := v1, e1s := v2, vc4s := v3, los := v4 } : Dev).mask T = d.mask T := Dev.mask_mono h rfl

theorem Dev.mask_set_e1s {T : List Part} (h : Part.within [.e1s] T = true) (d : Dev) v0 :
    ({ d with e1s := v0 } : Dev).mask T = d.mask T := Dev.mask_mono h rfl

theorem Dev.mask_set_masters {T : List Part} (h : Part.within [.masters] T = true) (d : Dev) v0 :
    ({ d with masters := v0 } : Dev).mask T = d.mask T := Dev.mask_mono h rfl

theorem Dev.mask_set_mx {T : List Part} (h : Part.within [.mx] T = true) (d : Dev) v0 :
    ({ d with mx := v0 } : Dev).mask T = d.mask T := Dev.mask_mono h rfl

theorem Dev.mask_set_plane_mx {T : List Part} (h : Part.within [.plane, .mx] T = true) (d : Dev) v0 v1 :
    ({ d with plane := v0, mx := v1 } : Dev).mask T = d.mask T := Dev.mask_mono h rfl

theorem Dev.mask_set_ports {T : List Part} (h : Part.within [.ports] T = true) (d : Dev) v0 :
    ({ d with ports := v0 } : Dev).mask T = d.mask T := Dev.mask_mono h rfl

theorem Dev.mask_set_queues {T : List Part} (h : Part.within [.queues] T = true) (d : Dev) v0 :
    ({ d with queues := v0 } : Dev).mask T = d.mask T := Dev.mask_mono h rfl

theorem Dev.mask_set_regs {T : List Part} (h : Part.within [.regs] T = true) (d : Dev) v0 :
    ({ d with regs := v0 } : Dev).mask T = d.mask T := Dev.mask_mono h rfl

theorem Dev.mask_set_sels_twill {T : List Part} (h : Part.within [.sels, .twill] T = true) (d : Dev) v0 v1 :
    ({ d with sels := v0, twill := v1 } : Dev).mask T = d.mask T := Dev.mask_mono h rfl

theorem Dev.mask_set_vc4s {T : List Part} (h : Part.within [.vc4s] T = true) (d : Dev) v0 :
    ({ d with vc4s := v0 } : Dev).mask T = d.mask T := Dev.mask_mono h rfl

theorem Dev.mask_set_life_jersey {T : List Part} (h : Part.within [.life, .jersey] T = true) (d : Dev) v0 v1 :
    ({ d with life := v0, jersey := v1 } : Dev).mask T = d.mask T := Dev.mask_mono h rfl

theorem Dev.mask_set_reports {T : List Part} (h : Part.within [.reports] T = true) (d : Dev) v0 :
    ({ d with reports := v0 } : Dev).mask T = d.mask T := Dev.mask_mono h rfl

theorem Dev.mask_set_wires_reports {T : List Part} (h : Part.within [.wires, .reports] T = true) (d : Dev) v0 v1 :
    ({ d with wires := v0, reports := v1 } : Dev).mask T = d.mask T := Dev.mask_mono h rfl

end Sys2Proof.Machine
end

