-- ==== Sys2Proof/Laws/Frames.lean ====
section
/-! SUPPORT. Frames of the shared operations: registers, events, completions, messages, framers, time, fences and fault records: what each operation leaves as it was. Each lemma names the parts of the device
that its operation can change. -/

namespace Sys2Proof.Machine

theorem live_mask {T : List Part} {f : Dev → Dev} (h : ∀ d, (f d).mask T = d.mask T) (d : Dev) : (live f d).mask T = d.mask T := by
  unfold live; split
  · exact h d
  · rfl

theorem Dev.setReg_mask {T : List Part} (hT : Part.within [.regs] T = true) (d : Dev) (a : Nat) (w : Word) :
    (Dev.setReg d a w).mask T = d.mask T := Dev.mask_mono hT rfl

theorem Dev.count_mask {T : List Part} (hT : Part.within [.regs] T = true) (d : Dev) (a lo n : Nat) (k : Nat) :
    (Dev.count d a lo n k).mask T = d.mask T := by
  refine Dev.mask_mono hT ?_
  unfold Dev.count; simp (decide := true) only [↓Dev.setReg_mask]

theorem Dev.count32_mask {T : List Part} (hT : Part.within [.regs] T = true) (d : Dev) (a : Nat) (k : Nat) :
    (Dev.count32 d a k).mask T = d.mask T := by
  refine Dev.mask_mono hT ?_
  unfold Dev.count32; simp (decide := true) only [↓Dev.count_mask]

theorem Dev.emit_mask {T : List Part} (hT : Part.within [.host] T = true) (d : Dev) (o : Out) :
    (Dev.emit d o).mask T = d.mask T := Dev.mask_mono hT rfl

theorem Dev.updLink_mask {T : List Part} (hT : Part.within [.jersey] T = true) (d : Dev) (j : Nat) (f : JyLink → JyLink) :
    (Dev.updLink d j f).mask T = d.mask T := Dev.mask_mono hT rfl

theorem jyPump_mask {T : List Part} (hT : Part.within [.host, .jersey] T = true) (j : Nat) (n : Nat) (d : Dev) :
    (jyPump j n d).mask T = d.mask T := by
  refine Dev.mask_mono hT ?_
  induction n generalizing d with
  | zero => rfl
  | succ n ih =>
    unfold jyPump
    dsimp only
    split
    · rfl
    · split
      · exact (ih _).trans rfl
      · rfl

theorem Dev.jySendAt_mask {T : List Part} (hT : Part.within [.host, .jersey] T = true) (d : Dev) (j ty : Nat) (payload : List Byte) (cls :
    Nat) :
    (Dev.jySendAt d j ty payload cls).mask T = d.mask T := by
  refine Dev.mask_mono hT ?_
  unfold Dev.jySendAt
  repeat' (first | (simp (decide := true) only [↓Dev.updLink_mask, ↓jyPump_mask]; done) | split)

theorem Dev.jySend_mask {T : List Part} (hT : Part.within [.host, .jersey] T = true) (d : Dev) (j ty : Nat) (payload : List Byte) (ring0 :
    optParam Bool false) :
    (Dev.jySend d j ty payload ring0).mask T = d.mask T := by
  refine Dev.mask_mono hT ?_
  unfold Dev.jySend; simp (decide := true) only [↓Dev.jySendAt_mask]

theorem Dev.jyData_mask {T : List Part} (hT : Part.within [.host, .jersey] T = true) (d : Dev) (j addr : Nat) (bs : List Byte) : Dev.mask T
    (Dev.jyData d j addr bs) = d.mask T := by
  refine Dev.mask_mono hT ?_
  unfold Dev.jyData
  try simp (decide := true) only [↓Dev.jySend_mask, ↓Dev.mask_foldl, ↓Dev.mask_foldl2]
  repeat' (first
      | done
      | with_reducible rfl
      | (with_reducible refine (Dev.mask_foldl ?_ _ _).trans ?_)
      | (with_reducible refine (Dev.mask_foldl2 ?_ _ _).trans ?_)
      | (simp (decide := true) only [↓Dev.jySend_mask, ↓Dev.mask_foldl, ↓Dev.mask_foldl2]; done)
      | (intro d x; try dsimp only)
      | (split <;> try simp (decide := true) only [↓Dev.jySend_mask, ↓Dev.mask_foldl, ↓Dev.mask_foldl2])
      | (simp (decide := true) only [↓Dev.jySend_mask, ↓Dev.mask_foldl, ↓Dev.mask_foldl2]))

theorem Dev.updRing_mask {T : List Part} (hT : Part.within [.host] T = true) (d : Dev) (r : Nat) (f : Ring → Ring) :
    (Dev.updRing d r f).mask T = d.mask T := Dev.mask_mono hT rfl

theorem Dev.msixSend_mask {T : List Part} (hT : Part.within [.host] T = true) (d : Dev) (v : Nat) :
    (Dev.msixSend d v).mask T = d.mask T := by
  refine Dev.mask_mono hT ?_
  unfold Dev.msixSend
  repeat' (first | (simp (decide := true) only [↓Dev.mask_set_host]; done) | split)

theorem Dev.msixFlush_mask {T : List Part} (hT : Part.within [.host] T = true) (d : Dev) :
    (Dev.msixFlush d).mask T = d.mask T := by
  refine Dev.mask_mono hT ?_
  unfold Dev.msixFlush
  try simp (decide := true) only [↓Dev.msixSend_mask, ↓Dev.mask_foldl, ↓Dev.mask_foldl2]
  repeat' (first
      | done
      | with_reducible rfl
      | (with_reducible refine (Dev.mask_foldl ?_ _ _).trans ?_)
      | (with_reducible refine (Dev.mask_foldl2 ?_ _ _).trans ?_)
      | (simp (decide := true) only [↓Dev.msixSend_mask, ↓Dev.mask_foldl, ↓Dev.mask_foldl2]; done)
      | (intro d x; try dsimp only)
      | (split <;> try simp (decide := true) only [↓Dev.msixSend_mask, ↓Dev.mask_foldl, ↓Dev.mask_foldl2])
      | (simp (decide := true) only [↓Dev.msixSend_mask, ↓Dev.mask_foldl, ↓Dev.mask_foldl2]))

theorem Dev.ringNotify_mask {T : List Part} (hT : Part.within [.host] T = true) (d : Dev) (r : Nat) :
    (Dev.ringNotify d r).mask T = d.mask T := by
  refine Dev.mask_mono hT ?_
  unfold Dev.ringNotify
  repeat' (first | (simp (decide := true) only [↓Dev.updRing_mask, ↓Dev.msixSend_mask]; done) | split)

theorem Dev.msixSettle_mask {T : List Part} (hT : Part.within [.host] T = true) (d : Dev) (v : Nat) :
    (Dev.msixSettle d v).mask T = d.mask T := by
  refine Dev.mask_mono hT ?_
  unfold Dev.msixSettle
  repeat' (first | (simp (decide := true) only [↓Dev.mask_set_host]; done) | split)

theorem Dev.writeEntry_mask {T : List Part} (hT : Part.within [.regs, .host] T = true) (d : Dev) (r : Nat) (mk : Nat → Bool → Word → Out) :
    (Dev.writeEntry d r mk).mask T = d.mask T := by
  refine Dev.mask_mono hT ?_
  unfold Dev.writeEntry; split <;> simp (decide := true) only [↓Dev.setReg_mask, ↓Dev.updRing_mask, ↓Dev.ringNotify_mask, ↓Dev.mask_set_host]

theorem Dev.loseEntry_mask {T : List Part} (hT : Part.within [.regs, .host] T = true) (d : Dev) (r : Nat) (evBit : Nat) :
    (Dev.loseEntry d r evBit).mask T = d.mask T := by
  refine Dev.mask_mono hT ?_
  unfold Dev.loseEntry; simp (decide := true) only [↓Dev.setReg_mask, ↓Dev.count32_mask, ↓Dev.updRing_mask]

theorem Dev.postAt_mask {T : List Part} (hT : Part.within [.regs, .host] T = true) (d : Dev) (device code : Nat) (sec : BitVec 48) (ns : Nat) (args
    : List Byte) :
    (Dev.postAt d device code sec ns args).mask T = d.mask T := by
  refine Dev.mask_mono hT ?_
  unfold Dev.postAt
  repeat' (first | split | (simp (decide := true) only [↓Dev.writeEntry_mask, ↓Dev.loseEntry_mask]))

theorem Dev.post_mask {T : List Part} (hT : Part.within [.regs, .host, .jersey] T = true) (d : Dev) (code : Nat) (args : List Byte) :
    (Dev.post d code args).mask T = d.mask T := by
  refine Dev.mask_mono hT ?_
  unfold Dev.post
  repeat' (first | (simp (decide := true) only [↓Dev.updLink_mask, ↓Dev.jySend_mask, ↓Dev.postAt_mask, ↓Dev.mask_set_worker, ↓Dev.mask_set_devid, ↓Dev.mask_set_los, ↓Dev.mask_set_tsu, ↓Dev.mask_set_sec, ↓Dev.mask_set_worker_devid]; done) | split)

theorem Dev.raise_mask {T : List Part} (hT : Part.within [.regs, .host, .jersey] T = true) (d : Dev) (a i code : Nat) (args : List Byte) :
    (Dev.raise d a i code args).mask T = d.mask T := by
  refine Dev.mask_mono hT ?_
  unfold Dev.raise
  repeat' (first | split | (simp (decide := true) only [↓Dev.setReg_mask, ↓Dev.post_mask]))

theorem Dev.raiseQuiet_mask {T : List Part} (hT : Part.within [.regs] T = true) (d : Dev) (a i : Nat) :
    (Dev.raiseQuiet d a i).mask T = d.mask T := by
  refine Dev.mask_mono hT ?_
  unfold Dev.raiseQuiet; simp (decide := true) only [↓Dev.setReg_mask]

theorem Dev.raiseAll_mask {T : List Part} (hT : Part.within [.regs, .host, .jersey] T = true) (d : Dev) (a : Nat) (evs : List (Nat × Option (Nat ×
    List Byte))) : Dev.mask T (Dev.raiseAll d a evs) = d.mask T := by
  refine Dev.mask_mono hT ?_
  unfold Dev.raiseAll
  try simp (decide := true) only [↓Dev.setReg_mask, ↓Dev.post_mask, ↓Dev.mask_foldl, ↓Dev.mask_foldl2]
  repeat' (first
      | done
      | with_reducible rfl
      | (with_reducible refine (Dev.mask_foldl ?_ _ _).trans ?_)
      | (with_reducible refine (Dev.mask_foldl2 ?_ _ _).trans ?_)
      | (simp (decide := true) only [↓Dev.setReg_mask, ↓Dev.post_mask, ↓Dev.mask_foldl, ↓Dev.mask_foldl2]; done)
      | (intro d x; try dsimp only)
      | (split <;> try simp (decide := true) only [↓Dev.setReg_mask, ↓Dev.post_mask, ↓Dev.mask_foldl, ↓Dev.mask_foldl2])
      | (simp (decide := true) only [↓Dev.setReg_mask, ↓Dev.post_mask, ↓Dev.mask_foldl, ↓Dev.mask_foldl2]))

theorem Dev.statAt_mask {T : List Part} (hT : Part.within [.regs, .host, .jersey] T = true) (d : Dev) (device : Nat) (body : List Byte) :
    (Dev.statAt d device body).mask T = d.mask T := by
  refine Dev.mask_mono hT ?_
  unfold Dev.statAt
  repeat' (first | split | (simp (decide := true) only [↓Dev.writeEntry_mask, ↓Dev.loseEntry_mask, ↓Dev.post_mask]))

theorem Dev.stat_mask {T : List Part} (hT : Part.within [.regs, .host, .jersey] T = true) (d : Dev) (body : List Byte) :
    (Dev.stat d body).mask T = d.mask T := by
  refine Dev.mask_mono hT ?_
  unfold Dev.stat
  repeat' (first | (simp (decide := true) only [↓Dev.updLink_mask, ↓Dev.jySend_mask, ↓Dev.statAt_mask, ↓Dev.mask_set_worker, ↓Dev.mask_set_devid, ↓Dev.mask_set_los, ↓Dev.mask_set_worker_devid]; done) | split)

theorem Dev.lossNotice_mask {T : List Part} (hT : Part.within [.regs, .host] T = true) (d : Dev) (r : Nat) :
    (Dev.lossNotice d r).mask T = d.mask T := by
  refine Dev.mask_mono hT ?_
  unfold Dev.lossNotice
  repeat' (first | split | (simp (decide := true) only [↓Dev.updRing_mask, ↓Dev.writeEntry_mask, ↓Dev.mask_set_los, ↓Dev.mask_set_tsu, ↓Dev.mask_set_sec]))

theorem Dev.writeCompletion_mask {T : List Part} (hT : Part.within [.regs, .host] T = true) (d : Dev) (c : Completion) :
    (Dev.writeCompletion d c).mask T = d.mask T := by
  refine Dev.mask_mono hT ?_
  unfold Dev.writeCompletion; split <;> simp (decide := true) only [↓Dev.writeEntry_mask]

theorem Dev.complete_mask {T : List Part} (hT : Part.within [.regs, .host, .jersey] T = true) (d : Dev) (op jid : Nat) (r : Done) :
    (Dev.complete d op jid r).mask T = d.mask T := by
  refine Dev.mask_mono hT ?_
  unfold Dev.complete
  repeat' (first | split | (simp (decide := true) only [↓Dev.jySendAt_mask, ↓Dev.writeCompletion_mask, ↓Dev.mask_set_host]))

theorem Dev.ends_mask {T : List Part} (hT : Part.within [.host] T = true) (d : Dev) (op jid : Nat) (r : Done) :
    (Dev.ends d op jid r).mask T = d.mask T := Dev.mask_mono hT rfl

theorem Dev.later_mask {T : List Part} (hT : Part.within [.host] T = true) (d : Dev) (op jid : Nat) (patch : optParam (List (Nat × List
    Byte)) []) :
    (Dev.later d op jid patch).mask T = d.mask T := Dev.mask_mono hT rfl

theorem Dev.endAborted_mask {T : List Part} (hT : Part.within [.regs, .host, .jersey] T = true) (d : Dev) :
    (Dev.endAborted d).mask T = d.mask T := by
  refine Dev.mask_mono hT ?_
  unfold Dev.endAborted
  try simp (decide := true) only [↓Dev.complete_mask, ↓Dev.mask_set_host, ↓Dev.mask_foldl, ↓Dev.mask_foldl2]
  repeat' (first
      | done
      | with_reducible rfl
      | (with_reducible refine (Dev.mask_foldl ?_ _ _).trans ?_)
      | (with_reducible refine (Dev.mask_foldl2 ?_ _ _).trans ?_)
      | (simp (decide := true) only [↓Dev.complete_mask, ↓Dev.mask_set_host, ↓Dev.mask_foldl, ↓Dev.mask_foldl2]; done)
      | (intro d x; try dsimp only)
      | (split <;> try simp (decide := true) only [↓Dev.complete_mask, ↓Dev.mask_set_host, ↓Dev.mask_foldl, ↓Dev.mask_foldl2])
      | (simp (decide := true) only [↓Dev.complete_mask, ↓Dev.mask_set_host, ↓Dev.mask_foldl, ↓Dev.mask_foldl2]))

theorem Dev.draw_mask {T : List Part} (hT : Part.within [.fresh] T = true) (d : Dev) :
    (Dev.draw d).2.mask T = d.mask T := Dev.mask_mono hT rfl

theorem Dev.updLane_mask {T : List Part} (hT : Part.within [.lanes] T = true) (d : Dev) (l : Nat) (f : Lane → Lane) :
    (Dev.updLane d l f).mask T = d.mask T := Dev.mask_mono hT rfl

theorem Dev.updPort_mask {T : List Part} (hT : Part.within [.ports] T = true) (d : Dev) (p : Nat) (f : Port → Port) :
    (Dev.updPort d p f).mask T = d.mask T := Dev.mask_mono hT rfl

theorem Dev.updQueue_mask {T : List Part} (hT : Part.within [.queues] T = true) (d : Dev) (q : QId) (f : FQueue → FQueue) :
    (Dev.updQueue d q f).mask T = d.mask T := Dev.mask_mono hT rfl

theorem Dev.updCrc_mask {T : List Part} (hT : Part.within [.crc] T = true) (d : Dev) (u : Nat) (f : CrcUnit → CrcUnit) :
    (Dev.updCrc d u f).mask T = d.mask T := Dev.mask_mono hT rfl

theorem Dev.updFramer_mask {T : List Part} (hT : Part.within [.framers] T = true) (d : Dev) (k : Nat) (f : Framer → Framer) :
    (Dev.updFramer d k f).mask T = d.mask T := Dev.mask_mono hT rfl

theorem Dev.updE1_mask {T : List Part} (hT : Part.within [.e1s] T = true) (d : Dev) (e : Nat) (f : E1 → E1) :
    (Dev.updE1 d e f).mask T = d.mask T := Dev.mask_mono hT rfl

theorem Dev.updPoint_mask {T : List Part} (hT : Part.within [.points] T = true) (d : Dev) (k : Nat) (f : Point → Point) :
    (Dev.updPoint d k f).mask T = d.mask T := Dev.mask_mono hT rfl

theorem Dev.setOdu_mask {T : List Part} (hT : Part.within [.odus] T = true) (d : Dev) (o : Nat) (v : Option Odu) :
    (Dev.setOdu d o v).mask T = d.mask T := Dev.mask_mono hT rfl

theorem Dev.updOdu_mask {T : List Part} (hT : Part.within [.odus] T = true) (d : Dev) (o : Nat) (f : Odu → Odu) :
    (Dev.updOdu d o f).mask T = d.mask T := by
  refine Dev.mask_mono hT ?_
  unfold Dev.updOdu; simp (decide := true) only [↓Dev.setOdu_mask]

theorem Dev.setVc4_mask {T : List Part} (hT : Part.within [.vc4s] T = true) (d : Dev) (v : Nat) (x : Option Vc4) :
    (Dev.setVc4 d v x).mask T = d.mask T := Dev.mask_mono hT rfl

theorem Dev.updVc4_mask {T : List Part} (hT : Part.within [.vc4s] T = true) (d : Dev) (v : Nat) (f : Vc4 → Vc4) :
    (Dev.updVc4 d v f).mask T = d.mask T := by
  refine Dev.mask_mono hT ?_
  unfold Dev.updVc4; simp (decide := true) only [↓Dev.setVc4_mask]

theorem Dev.updLo_mask {T : List Part} (hT : Part.within [.los] T = true) (d : Dev) (e : Nat) (f : Lo → Lo) :
    (Dev.updLo d e f).mask T = d.mask T := Dev.mask_mono hT rfl

theorem Dev.updCircuit_mask {T : List Part} (hT : Part.within [.circuits] T = true) (d : Dev) (e : Nat) (f : Circuit → Circuit) :
    (Dev.updCircuit d e f).mask T = d.mask T := Dev.mask_mono hT rfl

theorem Dev.setSel_mask {T : List Part} (hT : Part.within [.sels] T = true) (d : Dev) (k : Nat) (v : Option Selector) :
    (Dev.setSel d k v).mask T = d.mask T := Dev.mask_mono hT rfl

theorem Dev.updSel_mask {T : List Part} (hT : Part.within [.sels] T = true) (d : Dev) (k : Nat) (f : Selector → Selector) :
    (Dev.updSel d k f).mask T = d.mask T := by
  refine Dev.mask_mono hT ?_
  unfold Dev.updSel; simp (decide := true) only [↓Dev.setSel_mask]

theorem Dev.setGroup_mask {T : List Part} (hT : Part.within [.groups] T = true) (d : Dev) (g : Nat) (v : Option MGroup) :
    (Dev.setGroup d g v).mask T = d.mask T := Dev.mask_mono hT rfl

theorem Dev.updGroup_mask {T : List Part} (hT : Part.within [.groups] T = true) (d : Dev) (g : Nat) (f : MGroup → MGroup) :
    (Dev.updGroup d g f).mask T = d.mask T := by
  refine Dev.mask_mono hT ?_
  unfold Dev.updGroup; simp (decide := true) only [↓Dev.setGroup_mask]

theorem Dev.updPsel_mask {T : List Part} (hT : Part.within [.psels] T = true) (d : Dev) (p : Nat) (f : PSel → PSel) :
    (Dev.updPsel d p f).mask T = d.mask T := Dev.mask_mono hT rfl

theorem Dev.updPq_mask {T : List Part} (hT : Part.within [.pkt] T = true) (d : Dev) (q : Nat) (f : PQueue → PQueue) :
    (Dev.updPq d q f).mask T = d.mask T := Dev.mask_mono hT rfl

theorem Dev.updShaper_mask {T : List Part} (hT : Part.within [.pkt] T = true) (d : Dev) (k : Nat) (f : Shaper → Shaper) :
    (Dev.updShaper d k f).mask T = d.mask T := Dev.mask_mono hT rfl

theorem Dev.updPolicer_mask {T : List Part} (hT : Part.within [.pkt] T = true) (d : Dev) (k : Nat) (f : Policer → Policer) :
    (Dev.updPolicer d k f).mask T = d.mask T := Dev.mask_mono hT rfl

theorem Dev.setFlow_mask {T : List Part} (hT : Part.within [.pkt] T = true) (d : Dev) (k : Nat) (v : Flow) :
    (Dev.setFlow d k v).mask T = d.mask T := Dev.mask_mono hT rfl

theorem Dev.setIngr_mask {T : List Part} (hT : Part.within [.pkt] T = true) (d : Dev) (k : Nat) (v : Ingress) :
    (Dev.setIngr d k v).mask T = d.mask T := Dev.mask_mono hT rfl

theorem Dev.updSch_mask {T : List Part} (hT : Part.within [.pkt] T = true) (d : Dev) (k : Nat) (f : SchPort → SchPort) :
    (Dev.updSch d k f).mask T = d.mask T := Dev.mask_mono hT rfl

theorem Dev.updRef_mask {T : List Part} (hT : Part.within [.tsu] T = true) (d : Dev) (r : Nat) (f : TRef → TRef) :
    (Dev.updRef d r f).mask T = d.mask T := Dev.mask_mono hT rfl

theorem Dev.updOut_mask {T : List Part} (hT : Part.within [.tsu] T = true) (d : Dev) (o : Nat) (f : TOut → TOut) :
    (Dev.updOut d o f).mask T = d.mask T := Dev.mask_mono hT rfl

theorem Dev.updEngine_mask {T : List Part} (hT : Part.within [.twill] T = true) (d : Dev) (g : Nat) (f : Engine → Engine) :
    (Dev.updEngine d g f).mask T = d.mask T := Dev.mask_mono hT rfl

theorem Dev.openJob_mask {T : List Part} (hT : Part.within [.host] T = true) (d : Dev) (op : Nat) (c : Desc) (device : Nat) :
    (Dev.openJob d op c device).1.mask T = d.mask T := Dev.mask_mono hT rfl

theorem Dev.takeSlot_mask {T : List Part} (hT : Part.within [.regs] T = true) (d : Dev) (r : Nat) :
    (Dev.takeSlot d r).mask T = d.mask T := by
  refine Dev.mask_mono hT ?_
  unfold Dev.takeSlot; simp (decide := true) only [↓Dev.setReg_mask]

theorem Dev.forwardData_mask {T : List Part} (hT : Part.within [.host, .jersey] T = true) (d : Dev) (op : Nat) (c : Desc) (bulk : HostRead)
    :
    (Dev.forwardData d op c bulk).mask T = d.mask T := by
  refine Dev.mask_mono hT ?_
  unfold Dev.forwardData
  repeat' (first | (simp (decide := true) only [↓Dev.jySend_mask, ↓Dev.jyData_mask]; done) | split)

theorem Dev.setXcWord_mask {T : List Part} (hT : Part.within [.xc] T = true) (d : Dev) (page table pos : Nat) (w : Data) :
    (Dev.setXcWord d page table pos w).mask T = d.mask T := Dev.mask_mono hT rfl

theorem Dev.sendPositions_mask {T : List Part} (hT : Part.within [.host] T = true) (d : Dev) (page table : Nat) (ps : List Nat) :
    (Dev.sendPositions d page table ps).mask T = d.mask T := by
  refine Dev.mask_mono hT ?_
  unfold Dev.sendPositions
  try simp (decide := true) only [↓Dev.emit_mask, ↓Dev.mask_foldl, ↓Dev.mask_foldl2]
  repeat' (first
      | done
      | with_reducible rfl
      | (with_reducible refine (Dev.mask_foldl ?_ _ _).trans ?_)
      | (with_reducible refine (Dev.mask_foldl2 ?_ _ _).trans ?_)
      | (simp (decide := true) only [↓Dev.emit_mask, ↓Dev.mask_foldl, ↓Dev.mask_foldl2]; done)
      | (intro d x; try dsimp only)
      | (split <;> try simp (decide := true) only [↓Dev.emit_mask, ↓Dev.mask_foldl, ↓Dev.mask_foldl2])
      | (simp (decide := true) only [↓Dev.emit_mask, ↓Dev.mask_foldl, ↓Dev.mask_foldl2]))

theorem Dev.sendFromLink_mask {T : List Part} (hT : Part.within [.host] T = true) (d : Dev) (j : Nat) :
    (Dev.sendFromLink d j).mask T = d.mask T := by
  refine Dev.mask_mono hT ?_
  unfold Dev.sendFromLink; simp (decide := true) only [↓Dev.sendPositions_mask]

theorem Dev.ownSlots_mask {T : List Part} (hT : Part.within [.xc, .host] T = true) (d : Dev) (ss : List Nat) (owner : Nat) :
    (Dev.ownSlots d ss owner).mask T = d.mask T := by
  refine Dev.mask_mono hT ?_
  unfold Dev.ownSlots
  try simp (decide := true) only [↓Dev.setXcWord_mask, ↓Dev.sendPositions_mask, ↓Dev.mask_set_xc, ↓Dev.mask_foldl, ↓Dev.mask_foldl2]
  repeat' (first
      | done
      | with_reducible rfl
      | (with_reducible refine (Dev.mask_foldl ?_ _ _).trans ?_)
      | (with_reducible refine (Dev.mask_foldl2 ?_ _ _).trans ?_)
      | (simp (decide := true) only [↓Dev.setXcWord_mask, ↓Dev.sendPositions_mask, ↓Dev.mask_set_xc, ↓Dev.mask_foldl, ↓Dev.mask_foldl2]; done)
      | (intro d x; try dsimp only)
      | (split <;> try simp (decide := true) only [↓Dev.setXcWord_mask, ↓Dev.sendPositions_mask, ↓Dev.mask_set_xc, ↓Dev.mask_foldl, ↓Dev.mask_foldl2])
      | (simp (decide := true) only [↓Dev.setXcWord_mask, ↓Dev.sendPositions_mask, ↓Dev.mask_set_xc, ↓Dev.mask_foldl, ↓Dev.mask_foldl2]))

theorem Dev.frHold_mask {T : List Part} (hT : Part.within [.plane] T = true) (d : Dev) (p : Nat) (ws : List (Nat × Word)) :
    (Dev.frHold d p ws).mask T = d.mask T := Dev.mask_mono hT rfl

theorem Dev.declare_mask {T : List Part} (hT : Part.within [.regs, .points, .host, .jersey] T = true) (d : Dev) (k : Nat) (new : BitVec 24) :
    (Dev.declare d k new).mask T = d.mask T := by
  refine Dev.mask_mono hT ?_
  unfold Dev.declare
  repeat' (first | split | (simp (decide := true) only [↓Dev.raiseAll_mask, ↓Dev.updPoint_mask]))

theorem Dev.act_mask {T : List Part} (hT : Part.within [.points, .host] T = true) (d : Dev) (k : Nat) :
    (Dev.act d k).mask T = d.mask T := by
  refine Dev.mask_mono hT ?_
  unfold Dev.act
  repeat' (first | split | (simp (decide := true) only [↓Dev.emit_mask, ↓Dev.updPoint_mask]))

theorem Dev.maintStart_mask {T : List Part} (hT : Part.within [.points, .host] T = true) (d : Dev) (k : Nat) :
    (Dev.maintStart d k).mask T = d.mask T := by
  refine Dev.mask_mono hT ?_
  unfold Dev.maintStart
  repeat' (first | split | (simp (decide := true) only [↓Dev.emit_mask, ↓Dev.updPoint_mask]))

theorem Dev.refreshPoint_mask {T : List Part} (hT : Part.within [.regs, .points, .host, .jersey] T = true) (d : Dev) (k : Nat) :
    (Dev.refreshPoint d k).mask T = d.mask T := by
  refine Dev.mask_mono hT ?_
  unfold Dev.refreshPoint
  repeat' (first | split | (simp (decide := true) only [↓Dev.updPoint_mask, ↓Dev.declare_mask, ↓Dev.act_mask]))

theorem Dev.refresh_mask {T : List Part} (hT : Part.within [.regs, .points, .host, .jersey] T = true) (d : Dev) : Dev.mask T (Dev.refresh d) =
    d.mask T := by
  refine Dev.mask_mono hT ?_
  unfold Dev.refresh
  try simp (decide := true) only [↓Dev.updPoint_mask, ↓Dev.refreshPoint_mask, ↓Dev.mask_foldl, ↓Dev.mask_foldl2, ↓Dev.mask_set_points, ↓Dev.mask_set_fresh]
  repeat' (first
      | done
      | with_reducible rfl
      | (with_reducible refine (Dev.mask_foldl ?_ _ _).trans ?_)
      | (with_reducible refine (Dev.mask_foldl2 ?_ _ _).trans ?_)
      | (simp (decide := true) only [↓Dev.updPoint_mask, ↓Dev.refreshPoint_mask, ↓Dev.mask_foldl, ↓Dev.mask_foldl2, ↓Dev.mask_set_points, ↓Dev.mask_set_fresh]; done)
      | (intro d x; try dsimp only)
      | (split <;> try simp (decide := true) only [↓Dev.updPoint_mask, ↓Dev.refreshPoint_mask, ↓Dev.mask_foldl, ↓Dev.mask_foldl2, ↓Dev.mask_set_points, ↓Dev.mask_set_fresh])
      | (simp (decide := true) only [↓Dev.updPoint_mask, ↓Dev.refreshPoint_mask, ↓Dev.mask_foldl, ↓Dev.mask_foldl2, ↓Dev.mask_set_points, ↓Dev.mask_set_fresh]))

theorem Dev.ungroup_mask {T : List Part} (hT : Part.within [.regs, .points, .groupCause, .host, .jersey] T = true) (d : Dev) (k : Nat) :
    (Dev.ungroup d k).mask T = d.mask T := by
  refine Dev.mask_mono hT ?_
  unfold Dev.ungroup
  repeat' (first | split | (simp (decide := true) only [↓Dev.post_mask, ↓Dev.updPoint_mask, ↓Dev.mask_set_points, ↓Dev.mask_set_groupCause]))

theorem Dev.enterSettling_mask {T : List Part} (hT : Part.within [.regs, .points, .groupCause, .host, .jersey] T = true) (d : Dev) (k cause : Nat) :
    (Dev.enterSettling d k cause).mask T = d.mask T := by
  refine Dev.mask_mono hT ?_
  unfold Dev.enterSettling; simp (decide := true) only [↓Dev.updPoint_mask, ↓Dev.ungroup_mask]

theorem Dev.settle_mask {T : List Part} (hT : Part.within [.regs, .points, .groupCause, .host, .jersey] T = true) (d : Dev) (cause : Nat) (k : Nat) :
    (Dev.settle d cause k).mask T = d.mask T := by
  refine Dev.mask_mono hT ?_
  unfold Dev.settle
  repeat' (first | split | (simp (decide := true) only [↓Dev.post_mask, ↓Dev.enterSettling_mask]))

theorem Dev.settlePort_mask {T : List Part} (hT : Part.within [.regs, .points, .groupCause, .host, .jersey] T = true) (d : Dev) (p cause : Nat) :
    Dev.mask T (Dev.settlePort d p cause) = d.mask T := by
  refine Dev.mask_mono hT ?_
  unfold Dev.settlePort
  try simp (decide := true) only [↓Dev.post_mask, ↓Dev.updPoint_mask, ↓Dev.enterSettling_mask, ↓Dev.mask_foldl, ↓Dev.mask_foldl2, ↓Dev.mask_set_points, ↓Dev.mask_set_groupCause]
  repeat' (first
      | done
      | with_reducible rfl
      | (with_reducible refine (Dev.mask_foldl ?_ _ _).trans ?_)
      | (with_reducible refine (Dev.mask_foldl2 ?_ _ _).trans ?_)
      | (simp (decide := true) only [↓Dev.post_mask, ↓Dev.updPoint_mask, ↓Dev.enterSettling_mask, ↓Dev.mask_foldl, ↓Dev.mask_foldl2, ↓Dev.mask_set_points, ↓Dev.mask_set_groupCause]; done)
      | (intro d x; try dsimp only)
      | (split <;> try simp (decide := true) only [↓Dev.post_mask, ↓Dev.updPoint_mask, ↓Dev.enterSettling_mask, ↓Dev.mask_foldl, ↓Dev.mask_foldl2, ↓Dev.mask_set_points, ↓Dev.mask_set_groupCause])
      | (simp (decide := true) only [↓Dev.post_mask, ↓Dev.updPoint_mask, ↓Dev.enterSettling_mask, ↓Dev.mask_foldl, ↓Dev.mask_foldl2, ↓Dev.mask_set_points, ↓Dev.mask_set_groupCause]))

theorem Dev.settleBelow_mask {T : List Part} (hT : Part.within [.regs, .points, .groupCause, .host, .jersey] T = true) (d : Dev) (top cause : Nat)
    : Dev.mask T (Dev.settleBelow d top cause) = d.mask T := by
  refine Dev.mask_mono hT ?_
  unfold Dev.settleBelow
  try simp (decide := true) only [↓Dev.settle_mask, ↓Dev.mask_foldl, ↓Dev.mask_foldl2, ↓Dev.mask_set_points]
  repeat' (first
      | done
      | with_reducible rfl
      | (with_reducible refine (Dev.mask_foldl ?_ _ _).trans ?_)
      | (with_reducible refine (Dev.mask_foldl2 ?_ _ _).trans ?_)
      | (simp (decide := true) only [↓Dev.settle_mask, ↓Dev.mask_foldl, ↓Dev.mask_foldl2, ↓Dev.mask_set_points]; done)
      | (intro d x; try dsimp only)
      | (split <;> try simp (decide := true) only [↓Dev.settle_mask, ↓Dev.mask_foldl, ↓Dev.mask_foldl2, ↓Dev.mask_set_points])
      | (simp (decide := true) only [↓Dev.settle_mask, ↓Dev.mask_foldl, ↓Dev.mask_foldl2, ↓Dev.mask_set_points]))

theorem Dev.frTouch_mask {T : List Part} (hT : Part.within [.regs, .ports, .points, .host, .jersey] T = true) (d : Dev) (p : Nat) :
    (Dev.frTouch d p).mask T = d.mask T := by
  refine Dev.mask_mono hT ?_
  unfold Dev.frTouch
  repeat' (first | split | (simp (decide := true) only [↓Dev.updPort_mask, ↓Dev.refresh_mask, ↓Dev.mask_set_fresh]))

theorem Dev.frRaise_mask {T : List Part} (hT : Part.within [.regs, .host, .jersey] T = true) (d : Dev) (p : Nat) (bits : List Nat) (more :
    optParam (List Byte) []) :
    (Dev.frRaise d p bits more).mask T = d.mask T := by
  refine Dev.mask_mono hT ?_
  unfold Dev.frRaise
  repeat' (first | (simp (decide := true) only [↓Dev.raiseAll_mask]; done) | split)

theorem Dev.frCount_mask {T : List Part} (hT : Part.within [.regs] T = true) (d : Dev) (p off : Nat) :
    (Dev.frCount d p off).mask T = d.mask T := by
  refine Dev.mask_mono hT ?_
  unfold Dev.frCount
  repeat' (first | (simp (decide := true) only [↓Dev.count32_mask]; done) | split)

theorem Dev.dropOmfi_mask {T : List Part} (hT : Part.within [.regs, .odus, .host, .jersey] T = true) (d : Dev) (p : Nat) : Dev.mask T (Dev.dropOmfi
    d p) = d.mask T := by
  refine Dev.mask_mono hT ?_
  unfold Dev.dropOmfi
  try simp (decide := true) only [↓Dev.updOdu_mask, ↓Dev.frRaise_mask, ↓Dev.mask_foldl, ↓Dev.mask_foldl2, ↓Dev.mask_set_odus]
  repeat' (first
      | done
      | with_reducible rfl
      | (with_reducible refine (Dev.mask_foldl ?_ _ _).trans ?_)
      | (with_reducible refine (Dev.mask_foldl2 ?_ _ _).trans ?_)
      | (simp (decide := true) only [↓Dev.updOdu_mask, ↓Dev.frRaise_mask, ↓Dev.mask_foldl, ↓Dev.mask_foldl2, ↓Dev.mask_set_odus]; done)
      | (intro d x; try dsimp only)
      | (split <;> try simp (decide := true) only [↓Dev.updOdu_mask, ↓Dev.frRaise_mask, ↓Dev.mask_foldl, ↓Dev.mask_foldl2, ↓Dev.mask_set_odus])
      | (simp (decide := true) only [↓Dev.updOdu_mask, ↓Dev.frRaise_mask, ↓Dev.mask_foldl, ↓Dev.mask_foldl2, ↓Dev.mask_set_odus]))

theorem Dev.dropH4_mask {T : List Part} (hT : Part.within [.regs, .vc4s, .host, .jersey] T = true) (d : Dev) (v : Nat) :
    (Dev.dropH4 d v).mask T = d.mask T := by
  refine Dev.mask_mono hT ?_
  unfold Dev.dropH4
  repeat' (first | (simp (decide := true) only [↓Dev.updVc4_mask, ↓Dev.frRaise_mask]; done) | split)

theorem Dev.oofOne_mask {T : List Part} (hT : Part.within [.regs, .framers, .oofCause, .host, .jersey] T = true) (d : Dev) (k cause from_ :
    Nat) (stop : Bool) :
    (Dev.oofOne d k cause from_ stop).mask T = d.mask T := by
  refine Dev.mask_mono hT ?_
  unfold Dev.oofOne
  repeat' (first | split | (simp (decide := true) only [↓Dev.updFramer_mask, ↓Dev.frRaise_mask, ↓Dev.frCount_mask, ↓Dev.mask_set_oofCause]))

theorem Dev.dropFlexo_mask {T : List Part} (hT : Part.within [.regs, .framers, .flexo, .oofCause, .host, .jersey] T = true) (d : Dev) (p :
    Nat) (ins : List Nat) :
    (Dev.dropFlexo d p ins).mask T = d.mask T := by
  refine Dev.mask_mono hT ?_
  unfold Dev.dropFlexo
  try simp (decide := true) only [↓Dev.updFramer_mask, ↓Dev.frRaise_mask, ↓Dev.oofOne_mask, ↓Dev.mask_set_flexo, ↓Dev.mask_foldl, ↓Dev.mask_foldl2]
  repeat' (first
      | done
      | with_reducible rfl
      | (with_reducible refine (Dev.mask_foldl ?_ _ _).trans ?_)
      | (with_reducible refine (Dev.mask_foldl2 ?_ _ _).trans ?_)
      | (simp (decide := true) only [↓Dev.updFramer_mask, ↓Dev.frRaise_mask, ↓Dev.oofOne_mask, ↓Dev.mask_set_flexo, ↓Dev.mask_foldl, ↓Dev.mask_foldl2]; done)
      | (intro d x; try dsimp only)
      | (split <;> try simp (decide := true) only [↓Dev.updFramer_mask, ↓Dev.frRaise_mask, ↓Dev.oofOne_mask, ↓Dev.mask_set_flexo, ↓Dev.mask_foldl, ↓Dev.mask_foldl2])
      | (simp (decide := true) only [↓Dev.updFramer_mask, ↓Dev.frRaise_mask, ↓Dev.oofOne_mask, ↓Dev.mask_set_flexo, ↓Dev.mask_foldl, ↓Dev.mask_foldl2]))

theorem Dev.dropMf_mask {T : List Part} (hT : Part.within [.regs, .framers, .flexo, .oofCause, .odus, .vc4s, .host, .jersey] T = true) (d :
    Dev) (p : Nat) :
    (Dev.dropMf d p).mask T = d.mask T := by
  refine Dev.mask_mono hT ?_
  unfold Dev.dropMf
  try simp (decide := true) only [↓Dev.updFramer_mask, ↓Dev.dropOmfi_mask, ↓Dev.dropH4_mask, ↓Dev.dropFlexo_mask, ↓Dev.mask_foldl, ↓Dev.mask_foldl2]
  repeat' (first
      | done
      | with_reducible rfl
      | (with_reducible refine (Dev.mask_foldl ?_ _ _).trans ?_)
      | (with_reducible refine (Dev.mask_foldl2 ?_ _ _).trans ?_)
      | (simp (decide := true) only [↓Dev.updFramer_mask, ↓Dev.dropOmfi_mask, ↓Dev.dropH4_mask, ↓Dev.dropFlexo_mask, ↓Dev.mask_foldl, ↓Dev.mask_foldl2]; done)
      | (intro d x; try dsimp only)
      | (split <;> try simp (decide := true) only [↓Dev.updFramer_mask, ↓Dev.dropOmfi_mask, ↓Dev.dropH4_mask, ↓Dev.dropFlexo_mask, ↓Dev.mask_foldl, ↓Dev.mask_foldl2])
      | (simp (decide := true) only [↓Dev.updFramer_mask, ↓Dev.dropOmfi_mask, ↓Dev.dropH4_mask, ↓Dev.dropFlexo_mask, ↓Dev.mask_foldl, ↓Dev.mask_foldl2]))

theorem Dev.oof_mask {T : List Part} (hT : Part.within [.regs, .framers, .flexo, .oofCause, .odus, .vc4s, .host, .jersey] T = true) (d :
    Dev) (p : Nat) (ks : List Nat) (cause from_ : Nat) (stop : Bool) :
    (Dev.oof d p ks cause from_ stop).mask T = d.mask T := by
  refine Dev.mask_mono hT ?_
  unfold Dev.oof
  try simp (decide := true) only [↓Dev.oofOne_mask, ↓Dev.dropMf_mask, ↓Dev.mask_foldl, ↓Dev.mask_foldl2]
  repeat' (first
      | done
      | with_reducible rfl
      | (with_reducible refine (Dev.mask_foldl ?_ _ _).trans ?_)
      | (with_reducible refine (Dev.mask_foldl2 ?_ _ _).trans ?_)
      | (simp (decide := true) only [↓Dev.oofOne_mask, ↓Dev.dropMf_mask, ↓Dev.mask_foldl, ↓Dev.mask_foldl2]; done)
      | (intro d x; try dsimp only)
      | (split <;> try simp (decide := true) only [↓Dev.oofOne_mask, ↓Dev.dropMf_mask, ↓Dev.mask_foldl, ↓Dev.mask_foldl2])
      | (simp (decide := true) only [↓Dev.oofOne_mask, ↓Dev.dropMf_mask, ↓Dev.mask_foldl, ↓Dev.mask_foldl2]))

theorem Dev.framersStop_mask {T : List Part} (hT : Part.within [.regs, .ports, .framers, .flexo, .oofCause, .points, .odus, .vc4s, .host,
    .jersey] T = true) (d : Dev) (p cause : Nat) :
    (Dev.framersStop d p cause).mask T = d.mask T := by
  refine Dev.mask_mono hT ?_
  unfold Dev.framersStop; simp (decide := true) only [↓Dev.frTouch_mask, ↓Dev.dropMf_mask, ↓Dev.oof_mask]

theorem Dev.framersGo_mask {T : List Part} (hT : Part.within [.regs, .ports, .framers, .points, .host, .jersey] T = true) (d : Dev) (p : Nat) :
    Dev.mask T (Dev.framersGo d p) = d.mask T := by
  refine Dev.mask_mono hT ?_
  unfold Dev.framersGo
  try simp (decide := true) only [↓Dev.updFramer_mask, ↓Dev.frTouch_mask, ↓Dev.mask_foldl, ↓Dev.mask_foldl2, ↓Dev.mask_set_framers]
  repeat' (first
      | done
      | with_reducible rfl
      | (with_reducible refine (Dev.mask_foldl ?_ _ _).trans ?_)
      | (with_reducible refine (Dev.mask_foldl2 ?_ _ _).trans ?_)
      | (simp (decide := true) only [↓Dev.updFramer_mask, ↓Dev.frTouch_mask, ↓Dev.mask_foldl, ↓Dev.mask_foldl2, ↓Dev.mask_set_framers]; done)
      | (intro d x; try dsimp only)
      | (split <;> try simp (decide := true) only [↓Dev.updFramer_mask, ↓Dev.frTouch_mask, ↓Dev.mask_foldl, ↓Dev.mask_foldl2, ↓Dev.mask_set_framers])
      | (simp (decide := true) only [↓Dev.updFramer_mask, ↓Dev.frTouch_mask, ↓Dev.mask_foldl, ↓Dev.mask_foldl2, ↓Dev.mask_set_framers]))

theorem Dev.frIn_mask {T : List Part} (hT : Part.within [.regs, .ports, .framers, .points, .host, .jersey] T = true) (d : Dev) (k phase :
    Nat) :
    (Dev.frIn d k phase).mask T = d.mask T := by
  refine Dev.mask_mono hT ?_
  unfold Dev.frIn; simp (decide := true) only [↓Dev.updFramer_mask, ↓Dev.frTouch_mask, ↓Dev.frRaise_mask]

theorem Dev.e1Post_mask {T : List Part} (hT : Part.within [.regs, .e1s, .host, .jersey] T = true) (d : Dev) (e code : Nat) :
    (Dev.e1Post d e code).mask T = d.mask T := by
  refine Dev.mask_mono hT ?_
  unfold Dev.e1Post; split <;> simp (decide := true) only [↓Dev.post_mask, ↓Dev.updE1_mask]

theorem Dev.e1Oof_mask {T : List Part} (hT : Part.within [.regs, .e1s, .points, .host, .jersey] T = true) (d : Dev) (e from_ : Nat) (restart
    : Bool) :
    (Dev.e1Oof d e from_ restart).mask T = d.mask T := by
  refine Dev.mask_mono hT ?_
  unfold Dev.e1Oof; simp (decide := true) only [↓Dev.updE1_mask, ↓Dev.refresh_mask]

theorem Dev.e1Start_mask {T : List Part} (hT : Part.within [.regs, .plane, .e1s, .points, .host, .jersey] T = true) (d : Dev) (e : Nat) :
    (Dev.e1Start d e).mask T = d.mask T := by
  refine Dev.mask_mono hT ?_
  unfold Dev.e1Start
  repeat' (first | (simp (decide := true) only [↓Dev.updE1_mask, ↓Dev.frHold_mask, ↓Dev.refresh_mask, ↓Dev.e1Oof_mask]; done) | split)

theorem Dev.e1In_mask {T : List Part} (hT : Part.within [.regs, .e1s, .points, .host, .jersey] T = true) (d : Dev) (e pos : Nat) :
    (Dev.e1In d e pos).mask T = d.mask T := by
  refine Dev.mask_mono hT ?_
  unfold Dev.e1In; simp (decide := true) only [↓Dev.updE1_mask, ↓Dev.refresh_mask, ↓Dev.e1Post_mask]

theorem scanMatch_mask {T : List Part} (hT : Part.within [.framers, .e1s] T = true) (f : FrId) (pos : Nat) (bits : List Bool) (d : Dev) :
    (scanMatch f pos bits d).mask T = d.mask T := by
  refine Dev.mask_mono hT ?_
  unfold scanMatch
  repeat' (first | split | (simp (decide := true) only [↓Dev.updFramer_mask, ↓Dev.updE1_mask]))

theorem candidateCheck_mask {T : List Part} (hT : Part.within [.regs, .ports, .framers, .e1s, .points, .host, .jersey] T = true) (f : FrId)
    (seen : List (Nat × List Bool)) (d : Dev) :
    (candidateCheck f seen d).mask T = d.mask T := by
  refine Dev.mask_mono hT ?_
  unfold candidateCheck
  repeat' (first | split | (simp (decide := true) only [↓Dev.updFramer_mask, ↓Dev.updE1_mask, ↓Dev.frIn_mask, ↓Dev.e1In_mask]))

theorem fasPosition_mask {T : List Part} (hT : Part.within [.regs, .ports, .framers, .flexo, .oofCause, .points, .odus, .vc4s, .host,
    .jersey] T = true) (k : Nat) (bits : List Bool) (pos : Nat) (d : Dev) :
    (fasPosition k bits pos d).mask T = d.mask T := by
  refine Dev.mask_mono hT ?_
  unfold fasPosition
  repeat' (first | split | (simp (decide := true) only [↓Dev.updFramer_mask, ↓Dev.frTouch_mask, ↓Dev.frCount_mask, ↓Dev.oof_mask]))

theorem slipMarked_mask {T : List Part} (hT : Part.within [.regs, .ports, .framers, .flexo, .oofCause, .points, .odus, .vc4s, .host,
    .jersey] T = true) (p pos : Nat) (d : Dev) :
    (slipMarked p pos d).mask T = d.mask T := by
  refine Dev.mask_mono hT ?_
  unfold slipMarked; simp (decide := true) only [↓Dev.frTouch_mask, ↓Dev.oof_mask]

theorem Dev.sliceSkew_mask {T : List Part} (hT : Part.within [.regs, .framers, .odus, .host, .jersey] T = true) (d : Dev) (k : Nat) : Dev.mask T
    (Dev.sliceSkew d k) = d.mask T := by
  refine Dev.mask_mono hT ?_
  unfold Dev.sliceSkew
  try simp (decide := true) only [↓Dev.updFramer_mask, ↓Dev.frRaise_mask, ↓Dev.dropOmfi_mask, ↓Dev.mask_foldl, ↓Dev.mask_foldl2, ↓Dev.mask_set_framers]
  repeat' (first
      | done
      | with_reducible rfl
      | (with_reducible refine (Dev.mask_foldl ?_ _ _).trans ?_)
      | (with_reducible refine (Dev.mask_foldl2 ?_ _ _).trans ?_)
      | (simp (decide := true) only [↓Dev.updFramer_mask, ↓Dev.frRaise_mask, ↓Dev.dropOmfi_mask, ↓Dev.mask_foldl, ↓Dev.mask_foldl2, ↓Dev.mask_set_framers]; done)
      | (intro d x; try dsimp only)
      | (split <;> try simp (decide := true) only [↓Dev.updFramer_mask, ↓Dev.frRaise_mask, ↓Dev.dropOmfi_mask, ↓Dev.mask_foldl, ↓Dev.mask_foldl2, ↓Dev.mask_set_framers])
      | (simp (decide := true) only [↓Dev.updFramer_mask, ↓Dev.frRaise_mask, ↓Dev.dropOmfi_mask, ↓Dev.mask_foldl, ↓Dev.mask_foldl2, ↓Dev.mask_set_framers]))

theorem mfasByte_mask {T : List Part} (hT : Part.within [.regs, .ports, .framers, .points, .odus, .host, .jersey] T = true) (k v : Nat) (d :
    Dev) :
    (mfasByte k v d).mask T = d.mask T := by
  refine Dev.mask_mono hT ?_
  unfold mfasByte
  try simp (decide := true) only [↓Dev.updFramer_mask, ↓Dev.frTouch_mask, ↓Dev.frRaise_mask, ↓Dev.dropOmfi_mask, ↓Dev.sliceSkew_mask, ↓Dev.mask_foldl, ↓Dev.mask_foldl2]
  repeat' (first
      | done
      | with_reducible rfl
      | (with_reducible refine (Dev.mask_foldl ?_ _ _).trans ?_)
      | (with_reducible refine (Dev.mask_foldl2 ?_ _ _).trans ?_)
      | (simp (decide := true) only [↓Dev.updFramer_mask, ↓Dev.frTouch_mask, ↓Dev.frRaise_mask, ↓Dev.dropOmfi_mask, ↓Dev.sliceSkew_mask, ↓Dev.mask_foldl, ↓Dev.mask_foldl2]; done)
      | (intro d x; try dsimp only)
      | (split <;> try simp (decide := true) only [↓Dev.updFramer_mask, ↓Dev.frTouch_mask, ↓Dev.frRaise_mask, ↓Dev.dropOmfi_mask, ↓Dev.sliceSkew_mask, ↓Dev.mask_foldl, ↓Dev.mask_foldl2])
      | (simp (decide := true) only [↓Dev.updFramer_mask, ↓Dev.frTouch_mask, ↓Dev.frRaise_mask, ↓Dev.dropOmfi_mask, ↓Dev.sliceSkew_mask, ↓Dev.mask_foldl, ↓Dev.mask_foldl2]))

theorem flexoIndicator_mask {T : List Part} (hT : Part.within [.regs, .ports, .framers, .flexo, .oofCause, .points, .odus, .vc4s, .host,
    .jersey] T = true) (p i v : Nat) (d : Dev) :
    (flexoIndicator p i v d).mask T = d.mask T := by
  refine Dev.mask_mono hT ?_
  unfold flexoIndicator
  repeat' (first | split | (simp (decide := true) only [↓Dev.frTouch_mask, ↓Dev.frRaise_mask, ↓Dev.oof_mask, ↓Dev.mask_set_flexo]))

theorem omfiByte_mask {T : List Part} (hT : Part.within [.regs, .odus, .host, .jersey] T = true) (o v : Nat) (d : Dev) :
    (omfiByte o v d).mask T = d.mask T := by
  refine Dev.mask_mono hT ?_
  unfold omfiByte
  repeat' (first | (simp (decide := true) only [↓Dev.updOdu_mask, ↓Dev.frRaise_mask, ↓Dev.mask_set_los]; done) | split)

theorem h4Byte_mask {T : List Part} (hT : Part.within [.regs, .vc4s, .host, .jersey] T = true) (v h : Nat) (d : Dev) :
    (h4Byte v h d).mask T = d.mask T := by
  refine Dev.mask_mono hT ?_
  unfold h4Byte
  repeat' (first | split | (simp (decide := true) only [↓Dev.updVc4_mask, ↓Dev.frRaise_mask]))

theorem e1Fas_mask {T : List Part} (hT : Part.within [.regs, .e1s, .points, .host, .jersey] T = true) (e : Nat) (bits : List Bool) (pos :
    Nat) (d : Dev) :
    (e1Fas e bits pos d).mask T = d.mask T := by
  refine Dev.mask_mono hT ?_
  unfold e1Fas
  repeat' (first | split | (simp (decide := true) only [↓Dev.updE1_mask, ↓Dev.e1Post_mask, ↓Dev.e1Oof_mask]))

theorem e1Mfas_mask {T : List Part} (hT : Part.within [.regs, .e1s, .points, .host, .jersey] T = true) (e : Nat) (bits : List Bool) (phase :
    Nat) (d : Dev) :
    (e1Mfas e bits phase d).mask T = d.mask T := by
  refine Dev.mask_mono hT ?_
  unfold e1Mfas
  repeat' (first | split | (simp (decide := true) only [↓Dev.updE1_mask, ↓Dev.refresh_mask, ↓Dev.e1Post_mask]))

theorem e1Sub_mask {T : List Part} (hT : Part.within [.regs, .e1s, .points, .host, .jersey] T = true) (e : Nat) (r : E1Smf) (eBit : Bool) (d
    : Dev) :
    (e1Sub e r eBit d).mask T = d.mask T := by
  refine Dev.mask_mono hT ?_
  unfold e1Sub
  repeat' (first | split | (simp (decide := true) only [↓Dev.emit_mask, ↓Dev.updE1_mask, ↓Dev.updPoint_mask, ↓Dev.e1Post_mask, ↓Dev.e1Oof_mask]))

theorem e1Restart_mask {T : List Part} (hT : Part.within [.regs, .e1s, .points, .host, .jersey] T = true) (e : Nat) (d : Dev) :
    (e1Restart e d).mask T = d.mask T := by
  refine Dev.mask_mono hT ?_
  unfold e1Restart
  repeat' (first | split | (simp (decide := true) only [↓Dev.updE1_mask, ↓Dev.e1Post_mask, ↓Dev.e1Oof_mask]))

theorem e1NoCrc_mask {T : List Part} (hT : Part.within [.regs, .e1s, .points, .host, .jersey] T = true) (e : Nat) (d : Dev) :
    (e1NoCrc e d).mask T = d.mask T := by
  refine Dev.mask_mono hT ?_
  unfold e1NoCrc
  repeat' (first | split | (simp (decide := true) only [↓Dev.updE1_mask, ↓Dev.refresh_mask, ↓Dev.e1Post_mask, ↓Dev.mask_set_fresh]))

theorem Dev.tsuRaise_mask {T : List Part} (hT : Part.within [.regs, .host, .jersey] T = true) (d : Dev) (evs : List (Nat × List Byte)) :
    (Dev.tsuRaise d evs).mask T = d.mask T := by
  refine Dev.mask_mono hT ?_
  unfold Dev.tsuRaise; simp (decide := true) only [↓Dev.raiseAll_mask]

theorem Dev.dcoCheck_mask {T : List Part} (hT : Part.within [.regs, .tsu, .host, .jersey] T = true) (d : Dev) :
    (Dev.dcoCheck d).mask T = d.mask T := by
  refine Dev.mask_mono hT ?_
  unfold Dev.dcoCheck
  repeat' (first | split | (simp (decide := true) only [↓Dev.tsuRaise_mask, ↓Dev.mask_set_tsu, ↓Dev.mask_set_cal, ↓Dev.mask_set_tsu_cal]))

theorem Dev.calMark_mask {T : List Part} (hT : Part.within [.cal] T = true) (d : Dev) :
    (Dev.calMark d).mask T = d.mask T := Dev.mask_mono hT rfl

theorem Dev.setTerm_mask {T : List Part} (hT : Part.within [.regs, .tsu, .cal, .host, .jersey] T = true) (d : Dev) (x : Int) :
    (Dev.setTerm d x).mask T = d.mask T := by
  refine Dev.mask_mono hT ?_
  unfold Dev.setTerm; simp (decide := true) only [↓Dev.dcoCheck_mask, ↓Dev.calMark_mask, ↓Dev.mask_set_tsu]

theorem Dev.setCorr_mask {T : List Part} (hT : Part.within [.regs, .tsu, .cal, .host, .jersey] T = true) (d : Dev) (c : Int) :
    (Dev.setCorr d c).mask T = d.mask T := by
  refine Dev.mask_mono hT ?_
  unfold Dev.setCorr; simp (decide := true) only [↓Dev.dcoCheck_mask, ↓Dev.calMark_mask, ↓Dev.mask_set_tsu_cal]

theorem Dev.recompute_mask {T : List Part} (hT : Part.within [.regs, .tsu, .cal, .host, .jersey] T = true) (d : Dev) :
    (Dev.recompute d).mask T = d.mask T := by
  refine Dev.mask_mono hT ?_
  unfold Dev.recompute; simp (decide := true) only [↓Dev.setCorr_mask]

theorem Dev.meanFree_mask {T : List Part} (hT : Part.within [.fresh] T = true) (d : Dev) (sum : Int) (n : Nat) :
    (Dev.meanFree d sum n).2.mask T = d.mask T := by
  refine Dev.mask_mono hT ?_
  unfold Dev.meanFree; split <;> simp (decide := true) only [↓Dev.draw_mask]

theorem Dev.meanNearest_mask {T : List Part} (hT : Part.within [.fresh] T = true) (d : Dev) (sum : Int) (n : Nat) :
    (Dev.meanNearest d sum n).2.mask T = d.mask T := by
  refine Dev.mask_mono hT ?_
  unfold Dev.meanNearest; split <;> simp (decide := true) only [↓Dev.meanFree_mask]

theorem Dev.calDrop_mask {T : List Part} (hT : Part.within [.regs, .cal, .host, .jersey] T = true) (d : Dev) (reason : Nat) :
    (Dev.calDrop d reason).mask T = d.mask T := by
  refine Dev.mask_mono hT ?_
  unfold Dev.calDrop
  repeat' (first | (simp (decide := true) only [↓Dev.raise_mask, ↓Dev.later_mask, ↓Dev.mask_set_cal]; done) | split)

theorem Dev.calAbort_mask {T : List Part} (hT : Part.within [.regs, .cal, .host, .jersey] T = true) (d : Dev) (reason : Nat) :
    (Dev.calAbort d reason).mask T = d.mask T := by
  refine Dev.mask_mono hT ?_
  unfold Dev.calAbort; simp (decide := true) only [↓Dev.endAborted_mask, ↓Dev.calDrop_mask]

theorem Dev.calQl_mask {T : List Part} (hT : Part.within [.regs, .cal, .host, .jersey] T = true) (d : Dev) :
    (Dev.calQl d).mask T = d.mask T := by
  refine Dev.mask_mono hT ?_
  unfold Dev.calQl
  repeat' (first | (simp (decide := true) only [↓Dev.calDrop_mask]; done) | split)

theorem Dev.tsuEnter_mask {T : List Part} (hT : Part.within [.regs, .tsu, .cal, .host, .jersey, .fresh] T = true) (d : Dev) (st : Nat) (sel
    : Option Nat) (extra : optParam (List (Nat × List Byte)) []) :
    (Dev.tsuEnter d st sel extra).mask T = d.mask T := by
  refine Dev.mask_mono hT ?_
  unfold Dev.tsuEnter
  repeat' (first | (simp (decide := true) only [↓Dev.tsuRaise_mask, ↓Dev.setTerm_mask, ↓Dev.meanFree_mask, ↓Dev.calDrop_mask, ↓Dev.mask_set_tsu, ↓Dev.mask_set_fresh]; done) | split)

theorem Dev.selQlCheck_mask {T : List Part} (hT : Part.within [.regs, .tsu, .host, .jersey] T = true) (d : Dev) :
    (Dev.selQlCheck d).mask T = d.mask T := by
  refine Dev.mask_mono hT ?_
  unfold Dev.selQlCheck
  repeat' (first | split | (simp (decide := true) only [↓Dev.tsuRaise_mask, ↓Dev.mask_set_tsu]))

theorem Dev.tsuLost_mask {T : List Part} (hT : Part.within [.regs, .tsu, .cal, .host, .jersey, .fresh] T = true) (d : Dev) :
    (Dev.tsuLost d).mask T = d.mask T := by
  refine Dev.mask_mono hT ?_
  unfold Dev.tsuLost; simp (decide := true) only [↓Dev.tsuEnter_mask]

theorem Dev.holdOrFree_mask {T : List Part} (hT : Part.within [.regs, .tsu, .cal, .host, .jersey, .fresh] T = true) (d : Dev) :
    (Dev.holdOrFree d).mask T = d.mask T := by
  refine Dev.mask_mono hT ?_
  unfold Dev.holdOrFree; split <;> simp (decide := true) only [↓Dev.tsuEnter_mask]

theorem Dev.tsuFault_mask {T : List Part} (hT : Part.within [.regs, .tsu, .cal, .host, .jersey, .fresh] T = true) (d : Dev) (equal : Option (List
    Bool)) : Dev.mask T (Dev.tsuFault d equal) = d.mask T := by
  refine Dev.mask_mono hT ?_
  unfold Dev.tsuFault
  try simp (decide := true) only [↓Dev.tsuEnter_mask, ↓Dev.mask_foldl, ↓Dev.mask_foldl2, ↓Dev.mask_set_tsu]
  repeat' (first
      | done
      | with_reducible rfl
      | (with_reducible refine (Dev.mask_foldl ?_ _ _).trans ?_)
      | (with_reducible refine (Dev.mask_foldl2 ?_ _ _).trans ?_)
      | (simp (decide := true) only [↓Dev.tsuEnter_mask, ↓Dev.mask_foldl, ↓Dev.mask_foldl2, ↓Dev.mask_set_tsu]; done)
      | (intro d x; try dsimp only)
      | (split <;> try simp (decide := true) only [↓Dev.tsuEnter_mask, ↓Dev.mask_foldl, ↓Dev.mask_foldl2, ↓Dev.mask_set_tsu])
      | (simp (decide := true) only [↓Dev.tsuEnter_mask, ↓Dev.mask_foldl, ↓Dev.mask_foldl2, ↓Dev.mask_set_tsu]))

theorem Dev.tick_mask {T : List Part} (hT : Part.within [.tsu] T = true) (d : Dev) :
    (Dev.tick d).mask T = d.mask T := by
  refine Dev.mask_mono hT ?_
  unfold Dev.tick
  repeat' (first | split | (simp (decide := true) only [↓Dev.mask_set_tsu, ↓Dev.mask_set_sec]))

theorem Dev.stepBytes_mask {T : List Part} (hT : Part.within [.fresh] T = true) (d : Dev) (x : Int) :
    (Dev.stepBytes d x).2.mask T = d.mask T := by
  refine Dev.mask_mono hT ?_
  unfold Dev.stepBytes; split <;> simp (decide := true) only [↓Dev.draw_mask]

theorem Dev.stepTo_mask {T : List Part} (hT : Part.within [.regs, .points, .xc, .pkt, .tsu, .host, .jersey, .fresh] T = true) (d : Dev) (t : Int)
    (cause : Nat) :
    (Dev.stepTo d t cause).mask T = d.mask T := by
  refine Dev.mask_mono hT ?_
  unfold Dev.stepTo; simp (decide := true) only [↓Dev.tsuRaise_mask, ↓Dev.stepBytes_mask, ↓Dev.mask_set_points_xc_pkt_tsu]

theorem Dev.refExpire_mask {T : List Part} (hT : Part.within [.regs, .tsu, .host, .jersey] T = true) (d : Dev) (r : Nat) :
    (Dev.refExpire d r).mask T = d.mask T := by
  refine Dev.mask_mono hT ?_
  unfold Dev.refExpire
  repeat' (first | split | (simp (decide := true) only [↓Dev.raise_mask, ↓Dev.updRef_mask]))

theorem Dev.refFailed_mask {T : List Part} (hT : Part.within [.regs, .tsu, .cal, .host, .jersey, .fresh] T = true) (d : Dev) (r cause : Nat) :
    (Dev.refFailed d r cause).mask T = d.mask T := by
  refine Dev.mask_mono hT ?_
  unfold Dev.refFailed
  repeat' (first | split | (simp (decide := true) only [↓Dev.raise_mask, ↓Dev.updRef_mask, ↓Dev.tsuLost_mask, ↓Dev.mask_set_tsu]))

theorem Dev.refEval_mask {T : List Part} (hT : Part.within [.regs, .tsu, .cal, .host, .jersey, .fresh] T = true) (d : Dev) (r : Nat) :
    (Dev.refEval d r).mask T = d.mask T := by
  refine Dev.mask_mono hT ?_
  unfold Dev.refEval
  repeat' (first | split | (simp (decide := true) only [↓Dev.updRef_mask, ↓Dev.refExpire_mask, ↓Dev.refFailed_mask]))

theorem Dev.disputes_mask {T : List Part} (hT : Part.within [.regs, .tsu, .host, .jersey] T = true) (d : Dev) : Dev.mask T (Dev.disputes d) =
    d.mask T := by
  refine Dev.mask_mono hT ?_
  unfold Dev.disputes
  try simp (decide := true) only [↓Dev.raise_mask, ↓Dev.updRef_mask, ↓Dev.mask_foldl, ↓Dev.mask_foldl2, ↓Dev.mask_set_tsu]
  repeat' (first
      | done
      | with_reducible rfl
      | (with_reducible refine (Dev.mask_foldl ?_ _ _).trans ?_)
      | (with_reducible refine (Dev.mask_foldl2 ?_ _ _).trans ?_)
      | (simp (decide := true) only [↓Dev.raise_mask, ↓Dev.updRef_mask, ↓Dev.mask_foldl, ↓Dev.mask_foldl2, ↓Dev.mask_set_tsu]; done)
      | (intro d x; try dsimp only)
      | (split <;> try simp (decide := true) only [↓Dev.raise_mask, ↓Dev.updRef_mask, ↓Dev.mask_foldl, ↓Dev.mask_foldl2, ↓Dev.mask_set_tsu])
      | (simp (decide := true) only [↓Dev.raise_mask, ↓Dev.updRef_mask, ↓Dev.mask_foldl, ↓Dev.mask_foldl2, ↓Dev.mask_set_tsu]))

theorem Dev.acquire_mask {T : List Part} (hT : Part.within [.regs, .points, .xc, .pkt, .tsu, .cal, .host, .jersey, .fresh] T = true) (d :
    Dev) (r : Nat) (phaseErr : Int) (extra : optParam (List (Nat × List Byte)) []) :
    (Dev.acquire d r phaseErr extra).mask T = d.mask T := by
  refine Dev.mask_mono hT ?_
  unfold Dev.acquire
  repeat' (first | split | (simp (decide := true) only [↓Dev.tsuEnter_mask, ↓Dev.stepTo_mask]))

theorem Dev.select_mask {T : List Part} (hT : Part.within [.regs, .points, .xc, .pkt, .tsu, .cal, .host, .jersey, .fresh] T = true) (d :
    Dev) (phaseErr : Int) :
    (Dev.select d phaseErr).mask T = d.mask T := by
  refine Dev.mask_mono hT ?_
  unfold Dev.select
  repeat' (first | split | (simp (decide := true) only [↓Dev.calQl_mask, ↓Dev.selQlCheck_mask, ↓Dev.tsuLost_mask, ↓Dev.acquire_mask]))

theorem Dev.qNotice_mask {T : List Part} (hT : Part.within [.regs, .host, .jersey] T = true) (d : Dev) (q : QId) (b : Nat) :
    (Dev.qNotice d q b).mask T = d.mask T := by
  refine Dev.mask_mono hT ?_
  unfold Dev.qNotice; split <;> simp (decide := true) only [↓Dev.raise_mask, ↓Dev.raiseQuiet_mask]

theorem Dev.levelMoved_mask {T : List Part} (hT : Part.within [.regs, .host, .jersey] T = true) (d : Dev) (q : QId) (a b : Nat) :
    (Dev.levelMoved d q a b).mask T = d.mask T := by
  refine Dev.mask_mono hT ?_
  unfold Dev.levelMoved
  repeat' (first | split | (simp (decide := true) only [↓Dev.qNotice_mask]))

theorem Dev.emptyQueue_mask {T : List Part} (hT : Part.within [.regs, .queues, .host, .jersey] T = true) (d : Dev) (q : QId) :
    (Dev.emptyQueue d q).mask T = d.mask T := by
  refine Dev.mask_mono hT ?_
  unfold Dev.emptyQueue; simp (decide := true) only [↓Dev.updQueue_mask, ↓Dev.levelMoved_mask]

theorem Dev.expose_mask {T : List Part} (hT : Part.within [.regs, .plane, .host, .jersey] T = true) (d : Dev) : Dev.mask T (Dev.expose d) = d.mask
    T := by
  refine Dev.mask_mono hT ?_
  unfold Dev.expose
  try simp (decide := true) only [↓Dev.post_mask, ↓Dev.mask_foldl, ↓Dev.mask_foldl2, ↓Dev.mask_set_plane]
  repeat' (first
      | done
      | with_reducible rfl
      | (with_reducible refine (Dev.mask_foldl ?_ _ _).trans ?_)
      | (with_reducible refine (Dev.mask_foldl2 ?_ _ _).trans ?_)
      | (simp (decide := true) only [↓Dev.post_mask, ↓Dev.mask_foldl, ↓Dev.mask_foldl2, ↓Dev.mask_set_plane]; done)
      | (intro d x; try dsimp only)
      | (split <;> try simp (decide := true) only [↓Dev.post_mask, ↓Dev.mask_foldl, ↓Dev.mask_foldl2, ↓Dev.mask_set_plane])
      | (simp (decide := true) only [↓Dev.post_mask, ↓Dev.mask_foldl, ↓Dev.mask_foldl2, ↓Dev.mask_set_plane]))

theorem Dev.abortResync_mask {T : List Part} (hT : Part.within [.plane, .host] T = true) (d : Dev) :
    (Dev.abortResync d).mask T = d.mask T := by
  refine Dev.mask_mono hT ?_
  unfold Dev.abortResync
  repeat' (first | (simp (decide := true) only [↓Dev.later_mask, ↓Dev.mask_set_plane]; done) | split)

theorem Dev.abortUnfence_mask {T : List Part} (hT : Part.within [.plane, .host] T = true) (d : Dev) :
    (Dev.abortUnfence d).mask T = d.mask T := by
  refine Dev.mask_mono hT ?_
  unfold Dev.abortUnfence
  repeat' (first | (simp (decide := true) only [↓Dev.later_mask, ↓Dev.mask_set_plane]; done) | split)

theorem Dev.selOut_mask {T : List Part} (hT : Part.within [.regs, .psels, .host, .jersey] T = true) (d : Dev) (p : Nat) (x : PWord) :
    (Dev.selOut d p x).mask T = d.mask T := by
  refine Dev.mask_mono hT ?_
  unfold Dev.selOut
  repeat' (first | (simp (decide := true) only [↓Dev.count32_mask, ↓Dev.emit_mask, ↓Dev.raise_mask, ↓Dev.updPsel_mask]; done) | split)

theorem Dev.unpair_mask {T : List Part} (hT : Part.within [.regs, .psels, .host, .jersey] T = true) (d : Dev) (p carrier : Nat) : Dev.mask T
    (Dev.unpair d p carrier) = d.mask T := by
  refine Dev.mask_mono hT ?_
  unfold Dev.unpair
  try simp (decide := true) only [↓Dev.updPsel_mask, ↓Dev.selOut_mask, ↓Dev.mask_foldl, ↓Dev.mask_foldl2]
  repeat' (first
      | done
      | with_reducible rfl
      | (with_reducible refine (Dev.mask_foldl ?_ _ _).trans ?_)
      | (with_reducible refine (Dev.mask_foldl2 ?_ _ _).trans ?_)
      | (simp (decide := true) only [↓Dev.updPsel_mask, ↓Dev.selOut_mask, ↓Dev.mask_foldl, ↓Dev.mask_foldl2]; done)
      | (intro d x; try dsimp only)
      | (split <;> try simp (decide := true) only [↓Dev.updPsel_mask, ↓Dev.selOut_mask, ↓Dev.mask_foldl, ↓Dev.mask_foldl2])
      | (simp (decide := true) only [↓Dev.updPsel_mask, ↓Dev.selOut_mask, ↓Dev.mask_foldl, ↓Dev.mask_foldl2]))

theorem Dev.disarm_mask {T : List Part} (hT : Part.within [.arms] T = true) (d : Dev) (src : Nat) :
    (Dev.disarm d src).mask T = d.mask T := Dev.mask_mono hT rfl

theorem Dev.setFence_mask {T : List Part} (hT : Part.within [.plane, .twill, .mx] T = true) (d : Dev) (src : Nat) (on : Bool) :
    (Dev.setFence d src on).mask T = d.mask T := Dev.mask_mono hT rfl

theorem Dev.postState_mask {T : List Part} (hT : Part.within [.regs, .host, .jersey] T = true) (d : Dev) (was : Nat) :
    (Dev.postState d was).mask T = d.mask T := by
  refine Dev.mask_mono hT ?_
  unfold Dev.postState; split <;> simp (decide := true) only [↓Dev.post_mask]

theorem Dev.planeOut_mask {T : List Part} (hT : Part.within [.regs, .plane, .arms, .psels, .twill, .host, .jersey, .mx] T = true) (d : Dev)
    (p : Fin 2) :
    (Dev.planeOut d p).mask T = d.mask T := by
  refine Dev.mask_mono hT ?_
  unfold Dev.planeOut
  try simp (decide := true) only [↓Dev.post_mask, ↓Dev.expose_mask, ↓Dev.unpair_mask, ↓Dev.disarm_mask, ↓Dev.setFence_mask, ↓Dev.postState_mask, ↓Dev.mask_set_plane, ↓Dev.mask_foldl, ↓Dev.mask_foldl2]
  repeat' (first
      | done
      | with_reducible rfl
      | (with_reducible refine (Dev.mask_foldl ?_ _ _).trans ?_)
      | (with_reducible refine (Dev.mask_foldl2 ?_ _ _).trans ?_)
      | (simp (decide := true) only [↓Dev.post_mask, ↓Dev.expose_mask, ↓Dev.unpair_mask, ↓Dev.disarm_mask, ↓Dev.setFence_mask, ↓Dev.postState_mask, ↓Dev.mask_set_plane, ↓Dev.mask_foldl, ↓Dev.mask_foldl2]; done)
      | (intro d x; try dsimp only)
      | (split <;> try simp (decide := true) only [↓Dev.post_mask, ↓Dev.expose_mask, ↓Dev.unpair_mask, ↓Dev.disarm_mask, ↓Dev.setFence_mask, ↓Dev.postState_mask, ↓Dev.mask_set_plane, ↓Dev.mask_foldl, ↓Dev.mask_foldl2])
      | (simp (decide := true) only [↓Dev.post_mask, ↓Dev.expose_mask, ↓Dev.unpair_mask, ↓Dev.disarm_mask, ↓Dev.setFence_mask, ↓Dev.postState_mask, ↓Dev.mask_set_plane, ↓Dev.mask_foldl, ↓Dev.mask_foldl2]))

theorem Dev.fencePlane_mask {T : List Part} (hT : Part.within [.regs, .plane, .arms, .psels, .twill, .host, .jersey, .mx] T = true) (d :
    Dev) (p : Fin 2) :
    (Dev.fencePlane d p).mask T = d.mask T := by
  refine Dev.mask_mono hT ?_
  unfold Dev.fencePlane
  repeat' (first | split | (simp (decide := true) only [↓Dev.abortUnfence_mask, ↓Dev.planeOut_mask]))

theorem Dev.abortMoves_mask {T : List Part} (hT : Part.within [.twill, .host] T = true) (d : Dev) (slice k : Nat) :
    (Dev.abortMoves d slice k).mask T = d.mask T := by
  refine Dev.mask_mono hT ?_
  unfold Dev.abortMoves
  try simp (decide := true) only [↓Dev.later_mask, ↓Dev.mask_set_twill, ↓Dev.mask_foldl, ↓Dev.mask_foldl2]
  repeat' (first
      | done
      | with_reducible rfl
      | (with_reducible refine (Dev.mask_foldl ?_ _ _).trans ?_)
      | (with_reducible refine (Dev.mask_foldl2 ?_ _ _).trans ?_)
      | (simp (decide := true) only [↓Dev.later_mask, ↓Dev.mask_set_twill, ↓Dev.mask_foldl, ↓Dev.mask_foldl2]; done)
      | (intro d x; try dsimp only)
      | (split <;> try simp (decide := true) only [↓Dev.later_mask, ↓Dev.mask_set_twill, ↓Dev.mask_foldl, ↓Dev.mask_foldl2])
      | (simp (decide := true) only [↓Dev.later_mask, ↓Dev.mask_set_twill, ↓Dev.mask_foldl, ↓Dev.mask_foldl2]))

theorem Dev.engineOut_mask {T : List Part} (hT : Part.within [.regs, .queues, .twill, .host, .jersey] T = true) (d : Dev) (g : Nat) :
    (Dev.engineOut d g).mask T = d.mask T := by
  refine Dev.mask_mono hT ?_
  unfold Dev.engineOut
  repeat' (first | (simp (decide := true) only [↓Dev.updEngine_mask, ↓Dev.emptyQueue_mask]; done) | split)

theorem Dev.fenceUnit_mask {T : List Part} (hT : Part.within [.regs, .plane, .arms, .queues, .psels, .twill, .host, .jersey, .mx] T = true)
    (d : Dev) (src : Nat) :
    (Dev.fenceUnit d src).mask T = d.mask T := by
  refine Dev.mask_mono hT ?_
  unfold Dev.fenceUnit
  try simp (decide := true) only [↓Dev.post_mask, ↓Dev.raise_mask, ↓Dev.expose_mask, ↓Dev.abortResync_mask, ↓Dev.abortUnfence_mask, ↓Dev.unpair_mask, ↓Dev.disarm_mask, ↓Dev.setFence_mask, ↓Dev.abortMoves_mask, ↓Dev.engineOut_mask, ↓Dev.mask_foldl, ↓Dev.mask_foldl2]
  repeat' (first
      | done
      | with_reducible rfl
      | (with_reducible refine (Dev.mask_foldl ?_ _ _).trans ?_)
      | (with_reducible refine (Dev.mask_foldl2 ?_ _ _).trans ?_)
      | (simp (decide := true) only [↓Dev.post_mask, ↓Dev.raise_mask, ↓Dev.expose_mask, ↓Dev.abortResync_mask, ↓Dev.abortUnfence_mask, ↓Dev.unpair_mask, ↓Dev.disarm_mask, ↓Dev.setFence_mask, ↓Dev.abortMoves_mask, ↓Dev.engineOut_mask, ↓Dev.mask_foldl, ↓Dev.mask_foldl2]; done)
      | (intro d x; try dsimp only)
      | (split <;> try simp (decide := true) only [↓Dev.post_mask, ↓Dev.raise_mask, ↓Dev.expose_mask, ↓Dev.abortResync_mask, ↓Dev.abortUnfence_mask, ↓Dev.unpair_mask, ↓Dev.disarm_mask, ↓Dev.setFence_mask, ↓Dev.abortMoves_mask, ↓Dev.engineOut_mask, ↓Dev.mask_foldl, ↓Dev.mask_foldl2])
      | (simp (decide := true) only [↓Dev.post_mask, ↓Dev.raise_mask, ↓Dev.expose_mask, ↓Dev.abortResync_mask, ↓Dev.abortUnfence_mask, ↓Dev.unpair_mask, ↓Dev.disarm_mask, ↓Dev.setFence_mask, ↓Dev.abortMoves_mask, ↓Dev.engineOut_mask, ↓Dev.mask_foldl, ↓Dev.mask_foldl2]))

theorem Dev.fence_mask {T : List Part} (hT : Part.within [.regs, .plane, .arms, .queues, .psels, .twill, .host, .jersey, .mx] T = true) (d :
    Dev) (src : Nat) :
    (Dev.fence d src).mask T = d.mask T := by
  refine Dev.mask_mono hT ?_
  unfold Dev.fence
  repeat' (first | (simp (decide := true) only [↓Dev.fencePlane_mask, ↓Dev.fenceUnit_mask]; done) | split)

theorem Dev.unfence_mask {T : List Part} (hT : Part.within [.regs, .plane, .twill, .host, .jersey, .mx] T = true) (d : Dev) (src result :
    Nat) :
    (Dev.unfence d src result).mask T = d.mask T := by
  refine Dev.mask_mono hT ?_
  unfold Dev.unfence
  repeat' (first | (simp (decide := true) only [↓Dev.post_mask, ↓Dev.expose_mask, ↓Dev.setFence_mask, ↓Dev.postState_mask]; done) | split)

theorem Dev.dropArms_mask {T : List Part} (hT : Part.within [.regs, .xc, .host, .jersey] T = true) (d : Dev) (keep : Arm → Bool) :
    (Dev.dropArms d keep).mask T = d.mask T := by
  refine Dev.mask_mono hT ?_
  unfold Dev.dropArms
  try simp (decide := true) only [↓Dev.raise_mask, ↓Dev.later_mask, ↓Dev.mask_set_xc, ↓Dev.mask_foldl, ↓Dev.mask_foldl2]
  repeat' (first
      | done
      | with_reducible rfl
      | (with_reducible refine (Dev.mask_foldl ?_ _ _).trans ?_)
      | (with_reducible refine (Dev.mask_foldl2 ?_ _ _).trans ?_)
      | (simp (decide := true) only [↓Dev.raise_mask, ↓Dev.later_mask, ↓Dev.mask_set_xc, ↓Dev.mask_foldl, ↓Dev.mask_foldl2]; done)
      | (intro d x; try dsimp only)
      | (split <;> try simp (decide := true) only [↓Dev.raise_mask, ↓Dev.later_mask, ↓Dev.mask_set_xc, ↓Dev.mask_foldl, ↓Dev.mask_foldl2])
      | (simp (decide := true) only [↓Dev.raise_mask, ↓Dev.later_mask, ↓Dev.mask_set_xc, ↓Dev.mask_foldl, ↓Dev.mask_foldl2]))

theorem Dev.cancelArms_mask {T : List Part} (hT : Part.within [.regs, .xc, .host, .jersey] T = true) (d : Dev) (keep : Arm → Bool) :
    (Dev.cancelArms d keep).mask T = d.mask T := by
  refine Dev.mask_mono hT ?_
  unfold Dev.cancelArms; simp (decide := true) only [↓Dev.endAborted_mask, ↓Dev.dropArms_mask]

theorem Dev.freeze_mask {T : List Part} (hT : Part.within [.regs, .plane, .xc, .cal, .host, .jersey] T = true) (d : Dev) :
    (Dev.freeze d).mask T = d.mask T := by
  refine Dev.mask_mono hT ?_
  unfold Dev.freeze
  repeat' (first | (simp (decide := true) only [↓Dev.post_mask, ↓Dev.endAborted_mask, ↓Dev.calDrop_mask, ↓Dev.abortResync_mask, ↓Dev.abortUnfence_mask, ↓Dev.postState_mask, ↓Dev.dropArms_mask, ↓Dev.mask_set_plane]; done) | split)

theorem Dev.armUse_mask {T : List Part} (hT : Part.within [.regs, .arms] T = true) (d : Dev) (src checker : Nat) :
    (Dev.armUse d src checker).mask T = d.mask T := by
  refine Dev.mask_mono hT ?_
  unfold Dev.armUse
  repeat' (first | split | (simp (decide := true) only [↓Dev.setReg_mask, ↓Dev.mask_set_arms]))

theorem Dev.captureRec_mask {T : List Part} (hT : Part.within [.regs] T = true) (d : Dev) (b : Nat) (r : FaultRec) (t : Nat) :
    (Dev.captureRec d b r t).mask T = d.mask T := by
  refine Dev.mask_mono hT ?_
  unfold Dev.captureRec; simp (decide := true) only [↓Dev.setReg_mask]

theorem Dev.countRec_mask {T : List Part} (hT : Part.within [.regs] T = true) (d : Dev) (b : Nat) (r : FaultRec) :
    (Dev.countRec d b r).mask T = d.mask T := by
  refine Dev.mask_mono hT ?_
  unfold Dev.countRec
  repeat' (first | split | (simp (decide := true) only [↓Dev.count_mask, ↓Dev.count32_mask]))

theorem Dev.recordIn_mask {T : List Part} (hT : Part.within [.regs, .host, .jersey] T = true) (d : Dev) (b : Nat) (r : FaultRec) (rs : List
    FaultRec) (at_ : optParam (Option Nat) none) :
    (Dev.recordIn d b r rs at_).mask T = d.mask T := by
  refine Dev.mask_mono hT ?_
  unfold Dev.recordIn
  try simp (decide := true) only [↓Dev.count_mask, ↓Dev.raise_mask, ↓Dev.raiseAll_mask, ↓Dev.captureRec_mask, ↓Dev.countRec_mask, ↓Dev.mask_foldl, ↓Dev.mask_foldl2]
  repeat' (first
      | done
      | with_reducible rfl
      | (with_reducible refine (Dev.mask_foldl ?_ _ _).trans ?_)
      | (with_reducible refine (Dev.mask_foldl2 ?_ _ _).trans ?_)
      | (simp (decide := true) only [↓Dev.count_mask, ↓Dev.raise_mask, ↓Dev.raiseAll_mask, ↓Dev.captureRec_mask, ↓Dev.countRec_mask, ↓Dev.mask_foldl, ↓Dev.mask_foldl2]; done)
      | (intro d x; try dsimp only)
      | (split <;> try simp (decide := true) only [↓Dev.count_mask, ↓Dev.raise_mask, ↓Dev.raiseAll_mask, ↓Dev.captureRec_mask, ↓Dev.countRec_mask, ↓Dev.mask_foldl, ↓Dev.mask_foldl2])
      | (simp (decide := true) only [↓Dev.count_mask, ↓Dev.raise_mask, ↓Dev.raiseAll_mask, ↓Dev.captureRec_mask, ↓Dev.countRec_mask, ↓Dev.mask_foldl, ↓Dev.mask_foldl2]))

theorem Dev.recordAll_mask {T : List Part} (hT : Part.within [.regs, .host, .jersey, .reports] T = true) (d : Dev) (rs : List FaultRec) :
    (Dev.recordAll d rs).mask T = d.mask T := by
  refine Dev.mask_mono hT ?_
  unfold Dev.recordAll
  try simp (decide := true) only [↓Dev.recordIn_mask, ↓Dev.mask_set_reports, ↓Dev.mask_foldl, ↓Dev.mask_foldl2]
  repeat' (first
      | done
      | with_reducible rfl
      | (with_reducible refine (Dev.mask_foldl ?_ _ _).trans ?_)
      | (with_reducible refine (Dev.mask_foldl2 ?_ _ _).trans ?_)
      | (simp (decide := true) only [↓Dev.recordIn_mask, ↓Dev.mask_set_reports, ↓Dev.mask_foldl, ↓Dev.mask_foldl2]; done)
      | (intro d x; try dsimp only)
      | (split <;> try simp (decide := true) only [↓Dev.recordIn_mask, ↓Dev.mask_set_reports, ↓Dev.mask_foldl, ↓Dev.mask_foldl2])
      | (simp (decide := true) only [↓Dev.recordIn_mask, ↓Dev.mask_set_reports, ↓Dev.mask_foldl, ↓Dev.mask_foldl2]))

theorem Dev.planeFault_mask {T : List Part} (hT : Part.within [.regs, .plane, .arms, .queues, .psels, .twill, .host, .jersey, .mx] T = true)
    (d : Dev) (p : Nat) (instead : Option Nat) :
    (Dev.planeFault d p instead).mask T = d.mask T := by
  refine Dev.mask_mono hT ?_
  unfold Dev.planeFault
  repeat' (first | (simp (decide := true) only [↓Dev.abortResync_mask, ↓Dev.fencePlane_mask, ↓Dev.fenceUnit_mask, ↓Dev.mask_set_plane]; done) | split)

theorem Dev.react_mask {T : List Part} (hT : Part.within [.regs, .plane, .arms, .sliceU, .queues, .psels, .tsu, .cal, .twill, .host,
    .jersey, .mx, .fresh] T = true) (d : Dev) (r : FaultRec) :
    (Dev.react d r).mask T = d.mask T := by
  refine Dev.mask_mono hT ?_
  unfold Dev.react
  repeat' (first | split | (simp (decide := true) only [↓Dev.tsuFault_mask, ↓Dev.abortResync_mask, ↓Dev.abortUnfence_mask, ↓Dev.fenceUnit_mask, ↓Dev.planeFault_mask, ↓Dev.mask_set_sliceU]))

theorem Dev.faults_mask {T : List Part} (hT : Part.within [.regs, .plane, .arms, .sliceU, .queues, .psels, .tsu, .cal, .twill, .host,
    .jersey, .mx, .fresh, .reports] T = true) (d : Dev) (rs : List FaultRec) :
    (Dev.faults d rs).mask T = d.mask T := by
  refine Dev.mask_mono hT ?_
  unfold Dev.faults
  try simp (decide := true) only [↓Dev.endAborted_mask, ↓Dev.recordAll_mask, ↓Dev.react_mask, ↓Dev.mask_foldl, ↓Dev.mask_foldl2]
  repeat' (first
      | done
      | with_reducible rfl
      | (with_reducible refine (Dev.mask_foldl ?_ _ _).trans ?_)
      | (with_reducible refine (Dev.mask_foldl2 ?_ _ _).trans ?_)
      | (simp (decide := true) only [↓Dev.endAborted_mask, ↓Dev.recordAll_mask, ↓Dev.react_mask, ↓Dev.mask_foldl, ↓Dev.mask_foldl2]; done)
      | (intro d x; try dsimp only)
      | (split <;> try simp (decide := true) only [↓Dev.endAborted_mask, ↓Dev.recordAll_mask, ↓Dev.react_mask, ↓Dev.mask_foldl, ↓Dev.mask_foldl2])
      | (simp (decide := true) only [↓Dev.endAborted_mask, ↓Dev.recordAll_mask, ↓Dev.react_mask, ↓Dev.mask_foldl, ↓Dev.mask_foldl2]))

theorem Dev.fault1_mask {T : List Part} (hT : Part.within [.regs, .plane, .arms, .sliceU, .queues, .psels, .tsu, .cal, .twill, .host,
    .jersey, .mx, .fresh, .reports] T = true) (d : Dev) (r : FaultRec) :
    (Dev.fault1 d r).mask T = d.mask T := by
  refine Dev.mask_mono hT ?_
  unfold Dev.fault1; simp (decide := true) only [↓Dev.faults_mask]

theorem readStored_mask {T : List Part} (hT : Part.within [.regs, .plane, .arms, .sliceU, .queues, .psels, .tsu, .cal, .twill, .host,
    .jersey, .mx, .fresh, .reports] T = true) (d : Dev) (mem : List Host.Cell) (m : MemId) (addr : Nat) (master : Byte) (access : Fin 8) :
    (readStored d mem m addr master access).d.mask T = d.mask T := by
  refine Dev.mask_mono hT ?_
  unfold readStored
  repeat' (first | split | (simp (decide := true) only [↓Dev.armUse_mask, ↓Dev.fault1_mask]))

theorem Dev.deliver_mask {T : List Part} (hT : Part.within [.host] T = true) (d : Dev) (src : Nat) (w : Data) (p : Bool) :
    (Dev.deliver d src w p).mask T = d.mask T := Dev.mask_mono hT rfl

theorem readPath_mask {T : List Part} (hT : Part.within [.regs, .plane, .arms, .sliceU, .queues, .psels, .tsu, .cal, .twill, .host, .jersey,
    .mx, .fresh, .reports] T = true) (d : Dev) (mem : List Host.Cell) (m : MemId) (addr : Nat) :
    (readPath d mem m addr).d.mask T = d.mask T := by
  refine Dev.mask_mono hT ?_
  unfold readPath
  repeat' (first | (simp (decide := true) only [↓readStored_mask]; done) | split)

theorem storageRead_mask {T : List Part} (hT : Part.within [.regs, .plane, .arms, .sliceU, .queues, .psels, .tsu, .cal, .twill, .host,
    .jersey, .mx, .fresh, .reports] T = true) (m : MemId) (addr : Nat) (u : BitVec 72) (d : Dev) (mem : List Host.Cell) :
    (storageRead m addr u d mem).1.mask T = d.mask T := by
  refine Dev.mask_mono hT ?_
  unfold storageRead
  repeat' (first | split | (simp (decide := true) only [↓Dev.endAborted_mask, ↓Dev.abortResync_mask, ↓Dev.deliver_mask, ↓readPath_mask]))

theorem memoryScrub_mask {T : List Part} (hT : Part.within [.regs, .plane, .arms, .sliceU, .queues, .psels, .tsu, .cal, .twill, .host,
    .jersey, .mx, .fresh, .reports] T = true) (m : MemId) (addr : Nat) (u : BitVec 72) (d : Dev) (mem : List Host.Cell) :
    (memoryScrub m addr u d mem).1.mask T = d.mask T := by
  refine Dev.mask_mono hT ?_
  unfold memoryScrub
  repeat' (first | (simp (decide := true) only [↓readStored_mask]; done) | split)

theorem copyWord_mask {T : List Part} (hT : Part.within [.regs, .plane, .arms, .sliceU, .queues, .psels, .tsu, .cal, .twill, .host, .jersey,
    .mx, .fresh, .reports] T = true) (d : Dev) (mem : List Host.Cell) (src dst : MemId) (a b : Nat) :
    (copyWord d mem src dst a b).1.mask T = d.mask T := by
  refine Dev.mask_mono hT ?_
  unfold copyWord; simp (decide := true) only [↓readPath_mask]

theorem copyMem_mask {T : List Part} (hT : Part.within [.regs, .plane, .arms, .sliceU, .queues, .psels, .tsu, .cal, .twill, .host, .jersey,
    .mx, .fresh, .reports] T = true) (src dst : MemId) (d : Dev) (mem : List Host.Cell) :
    (copyMem src dst d mem).1.mask T = d.mask T := by
  refine Dev.mask_mono hT ?_
  unfold copyMem
  try simp (decide := true) only [↓copyWord_mask, ↓Dev.mask_foldl, ↓Dev.mask_foldl2]
  repeat' (first
      | done
      | with_reducible rfl
      | (with_reducible refine (Dev.mask_foldl ?_ _ _).trans ?_)
      | (with_reducible refine (Dev.mask_foldl2 ?_ _ _).trans ?_)
      | (simp (decide := true) only [↓copyWord_mask, ↓Dev.mask_foldl, ↓Dev.mask_foldl2]; done)
      | (intro d x; try dsimp only)
      | (split <;> try simp (decide := true) only [↓copyWord_mask, ↓Dev.mask_foldl, ↓Dev.mask_foldl2])
      | (simp (decide := true) only [↓copyWord_mask, ↓Dev.mask_foldl, ↓Dev.mask_foldl2]))

theorem readSlice_mask {T : List Part} (hT : Part.within [.regs, .plane, .arms, .sliceU, .queues, .psels, .tsu, .cal, .twill, .host,
    .jersey, .mx, .fresh, .reports] T = true) (d : Dev) (mem : List Host.Cell) (bank : Fin 2 → MemId) (addr : Nat) (slice : Option Nat) (pl
    : Fin 2) :
    (readSlice d mem bank addr slice pl).d.mask T = d.mask T := by
  refine Dev.mask_mono hT ?_
  unfold readSlice; simp (decide := true) only [↓readPath_mask]

theorem readBoth_mask {T : List Part} (hT : Part.within [.regs, .plane, .arms, .sliceU, .queues, .psels, .tsu, .cal, .twill, .host, .jersey,
    .mx, .fresh, .reports] T = true) (d : Dev) (mem : List Host.Cell) (bank : Fin 2 → MemId) (addr : Nat) (slice : Option Nat) :
    (readBoth d mem bank addr slice).d.mask T = d.mask T := by
  refine Dev.mask_mono hT ?_
  unfold readBoth
  repeat' (first | split | (simp (decide := true) only [↓readSlice_mask]))

theorem readBytes_mask {T : List Part} (hT : Part.within [.regs, .plane, .arms, .sliceU, .queues, .psels, .tsu, .cal, .twill, .host,
    .jersey, .mx, .fresh, .reports] T = true) (d : Dev) (mem : List Host.Cell) (places : List ((Fin 2 → MemId) × Nat)) (slice : Option Nat)
    :
    (readBytes d mem places slice).d.mask T = d.mask T := by
  refine Dev.mask_mono hT ?_
  unfold readBytes
  suffices h : ∀ (xs : List (((Fin 2 → MemId) × Nat) × Nat)) (t : TakenBytes), (xs.foldl (fun (t : TakenBytes) x =>
      let r := readBoth t.d t.mem x.1.1 x.1.2 slice
      { d := r.d, mem := r.mem, bytes := t.bytes ++ bytesOfWord r.data, bad := if r.poison then t.bad ++ [x.2] else t.bad }) t).d.mask
        [.regs, .plane, .arms, .sliceU, .queues, .psels, .tsu, .cal, .twill, .host, .jersey, .mx, .fresh, .reports]
        = t.d.mask [.regs, .plane, .arms, .sliceU, .queues, .psels, .tsu, .cal, .twill, .host, .jersey, .mx, .fresh, .reports] from h _ _
  intro xs
  induction xs with
  | nil => intro t; rfl
  | cons x xs ih => intro t; rw [List.foldl_cons, ih]; exact readBoth_mask (by decide) ..

theorem Dev.itemCheck_mask {T : List Part} (hT : Part.within [.regs, .plane, .arms, .sliceU, .queues, .psels, .tsu, .cal, .twill, .host,
    .jersey, .mx, .fresh, .reports] T = true) (d : Dev) (src : Nat) (k : Fin 16) (addr : Nat) (master : Byte) (good : Bool) (sound :
    optParam (Byte → Bool) fun x => true) :
    (Dev.itemCheck d src k addr master good sound).2.mask T = d.mask T := by
  refine Dev.mask_mono hT ?_
  unfold Dev.itemCheck
  repeat' (first | split | (simp (decide := true) only [↓Dev.armUse_mask, ↓Dev.fault1_mask]))

theorem Dev.qEnter_mask {T : List Part} (hT : Part.within [.regs, .queues, .host, .jersey] T = true) (d : Dev) (q : QId) (x : QItem) :
    (Dev.qEnter d q x).mask T = d.mask T := by
  refine Dev.mask_mono hT ?_
  unfold Dev.qEnter; simp (decide := true) only [↓Dev.updQueue_mask, ↓Dev.levelMoved_mask]

theorem Dev.qSlip_mask {T : List Part} (hT : Part.within [.regs, .queues, .host, .jersey] T = true) (d : Dev) (q : QId) :
    (Dev.qSlip d q).mask T = d.mask T := by
  refine Dev.mask_mono hT ?_
  unfold Dev.qSlip; simp (decide := true) only [↓Dev.count32_mask, ↓Dev.updQueue_mask, ↓Dev.qNotice_mask]

theorem Dev.qPush_mask {T : List Part} (hT : Part.within [.regs, .queues, .host, .jersey] T = true) (d : Dev) (q : QId) (x : QItem) :
    (Dev.qPush d q x).mask T = d.mask T := by
  refine Dev.mask_mono hT ?_
  unfold Dev.qPush
  repeat' (first | split | (simp (decide := true) only [↓Dev.updQueue_mask, ↓Dev.qEnter_mask, ↓Dev.qSlip_mask]))

theorem Dev.qAdmit_mask {T : List Part} (hT : Part.within [.regs, .queues, .host, .jersey] T = true) (q : QId) (n : Nat) (d : Dev) :
    (Dev.qAdmit q n d).mask T = d.mask T := by
  refine Dev.mask_mono hT ?_
  induction n generalizing d with
  | zero => rfl
  | succ n ih =>
    unfold Dev.qAdmit
    dsimp only
    split
    · split
      · refine (ih _).trans ?_
        exact (Dev.qEnter_mask (by decide) _ _ _).trans (Dev.updQueue_mask (by decide) _ _ _)
      · rfl
    · rfl

theorem Dev.qFreed_mask {T : List Part} (hT : Part.within [.regs, .queues, .host, .jersey] T = true) (d : Dev) (q : QId) (a : Nat) :
    (Dev.qFreed d q a).mask T = d.mask T := by
  refine Dev.mask_mono hT ?_
  unfold Dev.qFreed; simp (decide := true) only [↓Dev.levelMoved_mask, ↓Dev.qAdmit_mask]

theorem Dev.startSending_mask {T : List Part} (hT : Part.within [.lanes] T = true) (d : Dev) (l : Nat) (h : l < 64) :
    (Dev.startSending d l h).mask T = d.mask T := by
  refine Dev.mask_mono hT ?_
  unfold Dev.startSending
  repeat' (first | (simp (decide := true) only [↓Dev.updLane_mask]; done) | split)

theorem Dev.qRead_mask {T : List Part} (hT : Part.within [.regs, .plane, .arms, .sliceU, .queues, .psels, .tsu, .cal, .twill, .host,
    .jersey, .mx, .fresh, .reports] T = true) (d : Dev) (q : QId) (u : QItem) :
    (Dev.qRead d q u).2.mask T = d.mask T := by
  refine Dev.mask_mono hT ?_
  unfold Dev.qRead
  repeat' (first | split | (simp (decide := true) only [↓Dev.draw_mask, ↓Dev.updQueue_mask, ↓Dev.qNotice_mask, ↓Dev.itemCheck_mask, ↓Dev.qFreed_mask]))

theorem Dev.tapEnters_mask {T : List Part} (hT : Part.within [.regs, .queues, .twill, .host, .jersey, .fresh] T = true) (d : Dev) (g : Fin 256) :
    (Dev.tapEnters d g).mask T = d.mask T := by
  refine Dev.mask_mono hT ?_
  unfold Dev.tapEnters; split <;> simp (decide := true) only [↓Dev.draw_mask, ↓Dev.updEngine_mask, ↓Dev.qEnter_mask, ↓Dev.mask_set_tap]

theorem Dev.tapMessage_mask {T : List Part} (hT : Part.within [.regs, .queues, .twill, .host, .jersey, .fresh] T = true) (d : Dev) (g : Fin
    256) :
    (Dev.tapMessage d g).2.mask T = d.mask T := by
  refine Dev.mask_mono hT ?_
  unfold Dev.tapMessage
  repeat' (first | (simp (decide := true) only [↓Dev.count32_mask, ↓Dev.raise_mask, ↓Dev.updEngine_mask, ↓Dev.tapEnters_mask]; done) | split)

theorem Dev.forkMark_mask {T : List Part} (hT : Part.within [.lanes, .host] T = true) (d : Dev) (l : Fin 64) (x : QItem) :
    (Dev.forkMark d l x).mask T = d.mask T := by
  refine Dev.mask_mono hT ?_
  unfold Dev.forkMark
  repeat' (first | split | (simp (decide := true) only [↓Dev.emit_mask, ↓Dev.updLane_mask]))

theorem Dev.forkPush_mask {T : List Part} (hT : Part.within [.host] T = true) (d : Dev) (l : Nat) (x : QItem) :
    (Dev.forkPush d l x).mask T = d.mask T := by
  refine Dev.mask_mono hT ?_
  unfold Dev.forkPush
  try simp (decide := true) only [↓Dev.emit_mask, ↓Dev.mask_foldl, ↓Dev.mask_foldl2]
  repeat' (first
      | done
      | with_reducible rfl
      | (with_reducible refine (Dev.mask_foldl ?_ _ _).trans ?_)
      | (with_reducible refine (Dev.mask_foldl2 ?_ _ _).trans ?_)
      | (simp (decide := true) only [↓Dev.emit_mask, ↓Dev.mask_foldl, ↓Dev.mask_foldl2]; done)
      | (intro d x; try dsimp only)
      | (split <;> try simp (decide := true) only [↓Dev.emit_mask, ↓Dev.mask_foldl, ↓Dev.mask_foldl2])
      | (simp (decide := true) only [↓Dev.emit_mask, ↓Dev.mask_foldl, ↓Dev.mask_foldl2]))

theorem Dev.qPop_mask {T : List Part} (hT : Part.within [.regs, .plane, .arms, .sliceU, .lanes, .queues, .psels, .tsu, .cal, .twill, .host,
    .jersey, .mx, .fresh, .reports] T = true) (d : Dev) (q : QId) (u : QItem) :
    (Dev.qPop d q u).mask T = d.mask T := by
  refine Dev.mask_mono hT ?_
  unfold Dev.qPop
  try simp (decide := true) only [↓Dev.emit_mask, ↓Dev.qRead_mask, ↓Dev.tapEnters_mask, ↓Dev.forkMark_mask, ↓Dev.forkPush_mask, ↓Dev.mask_foldl, ↓Dev.mask_foldl2]
  repeat' (first
      | done
      | with_reducible rfl
      | (with_reducible refine (Dev.mask_foldl ?_ _ _).trans ?_)
      | (with_reducible refine (Dev.mask_foldl2 ?_ _ _).trans ?_)
      | (simp (decide := true) only [↓Dev.emit_mask, ↓Dev.qRead_mask, ↓Dev.tapEnters_mask, ↓Dev.forkMark_mask, ↓Dev.forkPush_mask, ↓Dev.mask_foldl, ↓Dev.mask_foldl2]; done)
      | (intro d x; try dsimp only)
      | (split <;> try simp (decide := true) only [↓Dev.emit_mask, ↓Dev.qRead_mask, ↓Dev.tapEnters_mask, ↓Dev.forkMark_mask, ↓Dev.forkPush_mask, ↓Dev.mask_foldl, ↓Dev.mask_foldl2])
      | (simp (decide := true) only [↓Dev.emit_mask, ↓Dev.qRead_mask, ↓Dev.tapEnters_mask, ↓Dev.forkMark_mask, ↓Dev.forkPush_mask, ↓Dev.mask_foldl, ↓Dev.mask_foldl2]))

theorem Dev.qRewind_mask {T : List Part} (hT : Part.within [.queues] T = true) (d : Dev) (q : QId) :
    (Dev.qRewind d q).mask T = d.mask T := by
  refine Dev.mask_mono hT ?_
  unfold Dev.qRewind; split <;> simp (decide := true) only [↓Dev.updQueue_mask]

theorem Dev.qRelease_mask {T : List Part} (hT : Part.within [.regs, .queues, .host, .jersey] T = true) (d : Dev) (q : QId) :
    (Dev.qRelease d q).mask T = d.mask T := by
  refine Dev.mask_mono hT ?_
  unfold Dev.qRelease; split <;> simp (decide := true) only [↓Dev.updQueue_mask, ↓Dev.qFreed_mask]

theorem Dev.qExpire_mask {T : List Part} (hT : Part.within [.regs, .queues, .host, .jersey] T = true) (d : Dev) (q : QId) :
    (Dev.qExpire d q).mask T = d.mask T := by
  refine Dev.mask_mono hT ?_
  unfold Dev.qExpire
  repeat' (first | split | (simp (decide := true) only [↓Dev.updQueue_mask, ↓Dev.qNotice_mask]))

theorem Dev.laneTake_mask {T : List Part} (hT : Part.within [.regs, .lanes, .ports, .queues, .host, .jersey] T = true) (d : Dev) (l : Fin
    64) (w : Data) (tag : BitVec 4) :
    (Dev.laneTake d l w tag).mask T = d.mask T := by
  refine Dev.mask_mono hT ?_
  unfold Dev.laneTake
  repeat' (first | split | (simp (decide := true) only [↓Dev.updLane_mask, ↓Dev.updPort_mask, ↓Dev.qPush_mask]))

theorem Dev.laneWordIn_mask {T : List Part} (hT : Part.within [.regs, .lanes, .ports, .queues, .host, .jersey] T = true) (d : Dev) (l : Fin
    64) (w : Data) (tag : BitVec 4) :
    (Dev.laneWordIn d l w tag).mask T = d.mask T := by
  refine Dev.mask_mono hT ?_
  unfold Dev.laneWordIn
  repeat' (first | split | (simp (decide := true) only [↓Dev.emit_mask, ↓Dev.laneTake_mask]))

theorem Dev.laneSend_mask {T : List Part} (hT : Part.within [.regs, .lanes, .ports, .queues, .host, .jersey] T = true) (d : Dev) (l : Fin
    64) (o : Bool → Out) (w : Data) (tag : BitVec 4) :
    (Dev.laneSend d l o w tag).mask T = d.mask T := by
  refine Dev.mask_mono hT ?_
  unfold Dev.laneSend
  repeat' (first | split | (simp (decide := true) only [↓Dev.emit_mask, ↓Dev.laneTake_mask]))

theorem Dev.laneBlock_mask {T : List Part} (hT : Part.within [.regs, .lanes, .ports, .queues, .host, .jersey] T = true) (d : Dev) (l : Fin
    64) (b : EthBlock) :
    (Dev.laneBlock d l b).mask T = d.mask T := by
  refine Dev.mask_mono hT ?_
  unfold Dev.laneBlock; simp (decide := true) only [↓Dev.laneSend_mask]

theorem Dev.missingWord_mask {T : List Part} (hT : Part.within [.regs, .lanes, .ports, .queues, .host, .jersey] T = true) (d : Dev) (l : Fin
    64) (p : Nat) :
    (Dev.missingWord d l p).mask T = d.mask T := by
  refine Dev.mask_mono hT ?_
  unfold Dev.missingWord
  repeat' (first | (simp (decide := true) only [↓Dev.updPort_mask, ↓Dev.laneSend_mask, ↓Dev.laneBlock_mask]; done) | split)

theorem Dev.wordOut_mask {T : List Part} (hT : Part.within [.regs, .lanes, .ports, .queues, .host, .jersey] T = true) (d : Dev) (l : Fin 64)
    (p : Nat) (x : QItem) :
    (Dev.wordOut d l p x).mask T = d.mask T := by
  refine Dev.mask_mono hT ?_
  unfold Dev.wordOut
  repeat' (first | split | (simp (decide := true) only [↓Dev.updPort_mask, ↓Dev.laneSend_mask, ↓Dev.laneBlock_mask, ↓Dev.missingWord_mask]))

theorem Dev.prbsOut_mask {T : List Part} (hT : Part.within [.regs, .lanes, .ports, .queues, .host, .jersey] T = true) (d : Dev) (l : Fin 64)
    :
    (Dev.prbsOut d l).mask T = d.mask T := by
  refine Dev.mask_mono hT ?_
  unfold Dev.prbsOut
  repeat' (first | (simp (decide := true) only [↓Dev.updLane_mask, ↓Dev.laneSend_mask]; done) | split)

theorem Dev.laneWordOut_mask {T : List Part} (hT : Part.within [.regs, .plane, .arms, .sliceU, .lanes, .ports, .queues, .psels, .tsu, .cal,
    .twill, .host, .jersey, .mx, .fresh, .reports] T = true) (d : Dev) (l : Fin 64) :
    (Dev.laneWordOut d l).mask T = d.mask T := by
  refine Dev.mask_mono hT ?_
  unfold Dev.laneWordOut
  try simp (decide := true) only [↓Dev.count32_mask, ↓Dev.raise_mask, ↓Dev.qRead_mask, ↓Dev.missingWord_mask, ↓Dev.wordOut_mask, ↓Dev.prbsOut_mask, ↓Dev.mask_foldl, ↓Dev.mask_foldl2]
  repeat' (first
      | done
      | with_reducible rfl
      | (with_reducible refine (Dev.mask_foldl ?_ _ _).trans ?_)
      | (with_reducible refine (Dev.mask_foldl2 ?_ _ _).trans ?_)
      | (simp (decide := true) only [↓Dev.count32_mask, ↓Dev.raise_mask, ↓Dev.qRead_mask, ↓Dev.missingWord_mask, ↓Dev.wordOut_mask, ↓Dev.prbsOut_mask, ↓Dev.mask_foldl, ↓Dev.mask_foldl2]; done)
      | (intro d x; try dsimp only)
      | (split <;> try simp (decide := true) only [↓Dev.count32_mask, ↓Dev.raise_mask, ↓Dev.qRead_mask, ↓Dev.missingWord_mask, ↓Dev.wordOut_mask, ↓Dev.prbsOut_mask, ↓Dev.mask_foldl, ↓Dev.mask_foldl2])
      | (simp (decide := true) only [↓Dev.count32_mask, ↓Dev.raise_mask, ↓Dev.qRead_mask, ↓Dev.missingWord_mask, ↓Dev.wordOut_mask, ↓Dev.prbsOut_mask, ↓Dev.mask_foldl, ↓Dev.mask_foldl2]))

theorem Dev.fecWord_mask {T : List Part} (hT : Part.within [.regs, .lanes, .host, .jersey] T = true) (d : Dev) (l : Nat) (correctable :
    Bool) :
    (Dev.fecWord d l correctable).mask T = d.mask T := by
  refine Dev.mask_mono hT ?_
  unfold Dev.fecWord
  repeat' (first | (simp (decide := true) only [↓Dev.count32_mask, ↓Dev.raise_mask, ↓Dev.updLane_mask]; done) | split)

theorem Dev.crcFeed_mask {T : List Part} (hT : Part.within [.regs, .plane, .arms, .sliceU, .queues, .crc, .psels, .tsu, .cal, .twill, .host,
    .jersey, .mx, .fresh, .reports] T = true) (d : Dev) (u : Nat) (x : CrcItem) :
    (Dev.crcFeed d u x).mask T = d.mask T := by
  refine Dev.mask_mono hT ?_
  unfold Dev.crcFeed; simp (decide := true) only [↓Dev.draw_mask, ↓Dev.updCrc_mask, ↓Dev.itemCheck_mask]

theorem Dev.mxGrant_mask {T : List Part} (hT : Part.within [.regs, .queues, .host, .jersey, .mx] T = true) (d : Dev) (r : MxReq) :
    (Dev.mxGrant d r).mask T = d.mask T := by
  refine Dev.mask_mono hT ?_
  unfold Dev.mxGrant; simp (decide := true) only [↓Dev.qPush_mask, ↓Dev.mask_set_mx]

theorem mxGrants_mask {T : List Part} (hT : Part.within [.regs, .queues, .host, .jersey, .mx] T = true) (x0 : Nat) (x1 : Dev) :
    (mxGrants x0 x1).mask T = x1.mask T := by
  refine Dev.mask_mono hT ?_
  induction x0 generalizing x1 with
  | zero => rfl
  | succ n ih =>
    unfold mxGrants
    split
    · rw [ih, Dev.mxGrant_mask (by decide)]
    · rfl

theorem Dev.mxHold_mask {T : List Part} (hT : Part.within [.regs, .mx] T = true) (d : Dev) :
    (Dev.mxHold d).mask T = d.mask T := by
  refine Dev.mask_mono hT ?_
  unfold Dev.mxHold
  try simp (decide := true) only [↓Dev.count32_mask, ↓Dev.mask_set_mx, ↓Dev.mask_foldl, ↓Dev.mask_foldl2]
  repeat' (first
      | done
      | with_reducible rfl
      | (with_reducible refine (Dev.mask_foldl ?_ _ _).trans ?_)
      | (with_reducible refine (Dev.mask_foldl2 ?_ _ _).trans ?_)
      | (simp (decide := true) only [↓Dev.count32_mask, ↓Dev.mask_set_mx, ↓Dev.mask_foldl, ↓Dev.mask_foldl2]; done)
      | (intro d x; try dsimp only)
      | (split <;> try simp (decide := true) only [↓Dev.count32_mask, ↓Dev.mask_set_mx, ↓Dev.mask_foldl, ↓Dev.mask_foldl2])
      | (simp (decide := true) only [↓Dev.count32_mask, ↓Dev.mask_set_mx, ↓Dev.mask_foldl, ↓Dev.mask_foldl2]))

theorem Dev.mxRun_mask {T : List Part} (hT : Part.within [.regs, .queues, .host, .jersey, .mx] T = true) (d : Dev) :
    (Dev.mxRun d).mask T = d.mask T := by
  refine Dev.mask_mono hT ?_
  unfold Dev.mxRun; simp (decide := true) only [↓mxGrants_mask, ↓Dev.mxHold_mask]

theorem Dev.mxRequest_mask {T : List Part} (hT : Part.within [.regs, .queues, .host, .jersey, .mx] T = true) (d : Dev) (r : MxReq) :
    (Dev.mxRequest d r).mask T = d.mask T := by
  refine Dev.mask_mono hT ?_
  unfold Dev.mxRequest; simp (decide := true) only [↓Dev.mxRun_mask, ↓Dev.mask_set_mx]

theorem Dev.mxDropM1_mask {T : List Part} (hT : Part.within [.mx] T = true) (d : Dev) :
    (Dev.mxDropM1 d).mask T = d.mask T := Dev.mask_mono hT rfl

theorem Dev.tellEngine_mask {T : List Part} (hT : Part.within [.regs, .queues, .host, .jersey, .mx, .fresh] T = true) (d : Dev) (cls slice k
    : Nat) :
    (Dev.tellEngine d cls slice k).mask T = d.mask T := by
  refine Dev.mask_mono hT ?_
  unfold Dev.tellEngine
  try simp (decide := true) only [↓Dev.draw_mask, ↓Dev.mxRequest_mask, ↓Dev.mask_foldl, ↓Dev.mask_foldl2]
  repeat' (first
      | done
      | with_reducible rfl
      | (with_reducible refine (Dev.mask_foldl ?_ _ _).trans ?_)
      | (with_reducible refine (Dev.mask_foldl2 ?_ _ _).trans ?_)
      | (simp (decide := true) only [↓Dev.draw_mask, ↓Dev.mxRequest_mask, ↓Dev.mask_foldl, ↓Dev.mask_foldl2]; done)
      | (intro d x; try dsimp only)
      | (split <;> try simp (decide := true) only [↓Dev.draw_mask, ↓Dev.mxRequest_mask, ↓Dev.mask_foldl, ↓Dev.mask_foldl2])
      | (simp (decide := true) only [↓Dev.draw_mask, ↓Dev.mxRequest_mask, ↓Dev.mask_foldl, ↓Dev.mask_foldl2]))

theorem Dev.tell_mask {T : List Part} (hT : Part.within [.regs, .queues, .host, .jersey, .mx, .fresh] T = true) (d : Dev) (cls slice : Nat)
    (e : Option Nat) :
    (Dev.tell d cls slice e).mask T = d.mask T := by
  refine Dev.mask_mono hT ?_
  unfold Dev.tell
  repeat' (first | (simp (decide := true) only [↓Dev.tellEngine_mask]; done) | split)

theorem Dev.engineSends_mask {T : List Part} (hT : Part.within [.regs, .queues, .host, .jersey, .mx, .fresh] T = true) (d : Dev) (g : Fin
    256) (x : QItem) :
    (Dev.engineSends d g x).mask T = d.mask T := by
  refine Dev.mask_mono hT ?_
  unfold Dev.engineSends
  try simp (decide := true) only [↓Dev.draw_mask, ↓Dev.qPush_mask, ↓Dev.mxRequest_mask, ↓Dev.mask_foldl, ↓Dev.mask_foldl2]
  repeat' (first
      | done
      | with_reducible rfl
      | (with_reducible refine (Dev.mask_foldl ?_ _ _).trans ?_)
      | (with_reducible refine (Dev.mask_foldl2 ?_ _ _).trans ?_)
      | (simp (decide := true) only [↓Dev.draw_mask, ↓Dev.qPush_mask, ↓Dev.mxRequest_mask, ↓Dev.mask_foldl, ↓Dev.mask_foldl2]; done)
      | (intro d x; try dsimp only)
      | (split <;> try simp (decide := true) only [↓Dev.draw_mask, ↓Dev.qPush_mask, ↓Dev.mxRequest_mask, ↓Dev.mask_foldl, ↓Dev.mask_foldl2])
      | (simp (decide := true) only [↓Dev.draw_mask, ↓Dev.qPush_mask, ↓Dev.mxRequest_mask, ↓Dev.mask_foldl, ↓Dev.mask_foldl2]))

theorem Dev.queuePop_mask {T : List Part} (hT : Part.within [.regs, .plane, .arms, .sliceU, .lanes, .queues, .psels, .tsu, .cal, .twill,
    .host, .jersey, .mx, .fresh, .reports] T = true) (d : Dev) (q : QId) (u : QItem) :
    (Dev.queuePop d q u).mask T = d.mask T := by
  refine Dev.mask_mono hT ?_
  unfold Dev.queuePop
  try simp (decide := true) only [↓Dev.emit_mask, ↓Dev.qRead_mask, ↓Dev.qPop_mask, ↓Dev.mxRun_mask, ↓Dev.engineSends_mask, ↓Dev.mask_foldl, ↓Dev.mask_foldl2]
  repeat' (first
      | done
      | with_reducible rfl
      | (with_reducible refine (Dev.mask_foldl ?_ _ _).trans ?_)
      | (with_reducible refine (Dev.mask_foldl2 ?_ _ _).trans ?_)
      | (simp (decide := true) only [↓Dev.emit_mask, ↓Dev.qRead_mask, ↓Dev.qPop_mask, ↓Dev.mxRun_mask, ↓Dev.engineSends_mask, ↓Dev.mask_foldl, ↓Dev.mask_foldl2]; done)
      | (intro d x; try dsimp only)
      | (split <;> try simp (decide := true) only [↓Dev.emit_mask, ↓Dev.qRead_mask, ↓Dev.qPop_mask, ↓Dev.mxRun_mask, ↓Dev.engineSends_mask, ↓Dev.mask_foldl, ↓Dev.mask_foldl2])
      | (simp (decide := true) only [↓Dev.emit_mask, ↓Dev.qRead_mask, ↓Dev.qPop_mask, ↓Dev.mxRun_mask, ↓Dev.engineSends_mask, ↓Dev.mask_foldl, ↓Dev.mask_foldl2]))

end Sys2Proof.Machine
end

