-- ==== Sys2Proof/Laws/Tab.lean ====
section
/-! SUPPORT. Laws of the sparse tables: reading after writing, and that every write keeps the canonical form. -/

namespace Sys2Proof.Machine

variable {α : Type}

theorem tget_terase_self (z : α) (t : Tab α) (k : Nat) : tget z (terase t k) k = z := by
  induction t with
  | nil => rfl
  | cons e t ih =>
    by_cases h : e.1 = k
    · simpa [terase, List.filter_cons, h] using ih
    · simpa [terase, List.filter_cons, h, tget] using ih

theorem tget_terase_ne (z : α) (t : Tab α) {k j : Nat} (h : j ≠ k) : tget z (terase t k) j = tget z t j := by
  induction t with
  | nil => rfl
  | cons e t ih =>
    have ih' : tget z (t.filter (fun e => decide (e.1 ≠ k))) j = tget z t j := ih
    by_cases hk : e.1 = k
    · have : e.1 ≠ j := fun hj => h (hj.symm.trans hk)
      simp only [terase, List.filter_cons, hk, ne_eq, not_true_eq_false, decide_false, Bool.false_eq_true, if_false, tget]
      rw [if_neg (hk ▸ this), ← ih']
    · simp only [terase, List.filter_cons, ne_eq, hk, not_false_eq_true, decide_true, if_true, tget]
      rw [← ih']

theorem tget_tins_self (z : α) (t : Tab α) (k : Nat) (v : α) (h : tget none (t.map (fun e => (e.1, some e.2))) k = none) :
    tget z (tins t k v) k = v := by
  induction t with
  | nil => simp [tins, tget]
  | cons e t ih =>
    simp only [List.map_cons, tget] at h
    split at h
    · cases h
    · rename_i hne
      simp only [tins]
      split
      · simp [tget]
      · simp only [tget, if_neg hne]; exact ih h

theorem tget_tins_ne (z : α) (t : Tab α) {k j : Nat} (v : α) (h : j ≠ k) : tget z (tins t k v) j = tget z t j := by
  induction t with
  | nil => simp [tins, tget, Ne.symm h]
  | cons e t ih =>
    simp only [tins]
    split
    · simp [tget, Ne.symm h]
    · simp only [tget, ih]

/-- What is written at a key is what the key reads as. -/
@[simp] theorem tget_tput_self [DecidableEq α] (z : α) (t : Tab α) (k : Nat) (v : α) : tget z (tput z t k v) k = v := by
  unfold tput
  split
  · rename_i h; rw [h]; exact tget_terase_self z t k
  · refine tget_tins_self z _ k v ?_
    induction t with
    | nil => rfl
    | cons e t ih =>
      by_cases hk : e.1 = k
      · simpa [terase, List.filter_cons, hk] using ih
      · simpa [terase, List.filter_cons, hk, tget] using ih

/-- A write leaves every other key as it was. -/
theorem tget_tput_ne [DecidableEq α] (z : α) (t : Tab α) {k j : Nat} (v : α) (h : j ≠ k) (y : α := z) :
    tget y (tput z t k v) j = tget y t j := by
  unfold tput
  split
  · exact tget_terase_ne y t h
  · rw [tget_tins_ne y _ v h]; exact tget_terase_ne y t h

@[simp] theorem tget_tupd_self [DecidableEq α] (z : α) (t : Tab α) (k : Nat) (f : α → α) :
    tget z (tupd z t k f) k = f (tget z t k) := tget_tput_self z t k _

theorem tget_tupd_ne [DecidableEq α] (z : α) (t : Tab α) {k j : Nat} (f : α → α) (h : j ≠ k) :
    tget z (tupd z t k f) j = tget z t j := tget_tput_ne z t _ h

/-! ### Canonical form -/

theorem tabWfFrom_mono [DecidableEq α] (z : α) {a b : Nat} (h : a ≤ b) (t : Tab α) (w : tabWfFrom z b t = true) :
    tabWfFrom z a t = true := by
  cases t with
  | nil => rfl
  | cons e t =>
    simp only [tabWfFrom, Bool.and_eq_true, decide_eq_true_eq] at w ⊢
    exact ⟨⟨le_trans h w.1.1, w.1.2⟩, w.2⟩

theorem tabWfFrom_terase [DecidableEq α] (z : α) (k : Nat) (t : Tab α) (a : Nat) (w : tabWfFrom z a t = true) :
    tabWfFrom z a (terase t k) = true := by
  induction t generalizing a with
  | nil => rfl
  | cons e t ih =>
    simp only [tabWfFrom, Bool.and_eq_true, decide_eq_true_eq] at w
    by_cases h : e.1 = k
    · simp only [terase, List.filter_cons, h, ne_eq, not_true_eq_false, decide_false, Bool.false_eq_true, if_false]
      exact tabWfFrom_mono z (by omega) _ (ih _ w.2)
    · simp only [terase, List.filter_cons, h, ne_eq, not_false_eq_true, decide_true, if_true, tabWfFrom, Bool.and_eq_true,
        decide_eq_true_eq]
      exact ⟨w.1, ih _ w.2⟩

theorem tabWfFrom_tins [DecidableEq α] (z : α) (k : Nat) (v : α) (hv : v ≠ z) (t : Tab α) (a : Nat) (ha : a ≤ k)
    (w : tabWfFrom z a t = true) (hk : ∀ e ∈ t, e.1 ≠ k) : tabWfFrom z a (tins t k v) = true := by
  induction t generalizing a with
  | nil => simp [tins, tabWfFrom, ha, hv]
  | cons e t ih =>
    simp only [tabWfFrom, Bool.and_eq_true, decide_eq_true_eq] at w
    have hne : e.1 ≠ k := hk e (List.mem_cons_self ..)
    simp only [tins]
    split
    · rename_i hlt
      simp only [tabWfFrom, Bool.and_eq_true, decide_eq_true_eq]
      exact ⟨⟨ha, hv⟩, ⟨hlt, w.1.2⟩, w.2⟩
    · simp only [tabWfFrom, Bool.and_eq_true, decide_eq_true_eq]
      exact ⟨w.1, ih (e.1 + 1) (by omega) w.2 (fun x hx => hk x (List.mem_cons_of_mem _ hx))⟩

/-- A write keeps the canonical form. -/
theorem tabWf_tput [DecidableEq α] (z : α) (t : Tab α) (k : Nat) (v : α) (w : tabWf z t = true) :
    tabWf z (tput z t k v) = true := by
  unfold tput tabWf
  split
  · exact tabWfFrom_terase z k t 0 w
  · rename_i hv
    refine tabWfFrom_tins z k v hv _ 0 (Nat.zero_le _) (tabWfFrom_terase z k t 0 w) ?_
    intro e he
    simpa [terase] using (List.mem_filter.mp he).2

theorem tabWf_tupd [DecidableEq α] (z : α) (t : Tab α) (k : Nat) (f : α → α) (w : tabWf z t = true) :
    tabWf z (tupd z t k f) = true := tabWf_tput z t k _ w

end Sys2Proof.Machine
end

