-- ==== Sys2Proof/Laws/State.lean ====
section
/-! SUPPORT. Laws of the state's accessors: what each table reads as after one of its entries is updated, and the outcomes of
commands that change the device alone or the device and its memory. The parts that an update leaves alone are in the frame
lemmas (Laws/Frames). -/

namespace Sys2Proof.Machine

/-! ### Outcomes -/

@[simp] theorem onDev_eq (f : Dev → Dev) (s : State) : onDev f s = .next { s with dev := f s.dev } := rfl

@[simp] theorem onMem_eq (f : Dev → List Host.Cell → Dev × List Host.Cell) (s : State) :
    onMem f s = .next { s with dev := (f s.dev s.mem).1, mem := (f s.dev s.mem).2 } := rfl

theorem live_running {f : Dev → Dev} {d : Dev} (h : d.life = .running) : live f d = f d := if_pos h

theorem live_idle {f : Dev → Dev} {d : Dev} (h : d.life ≠ .running) : live f d = d := if_neg h

/-! ### Tables -/

@[simp] theorem Dev.setReg_reg (d : Dev) (a : Nat) (v : Word) : (d.setReg a v).reg a = v := tget_tput_self ..
theorem Dev.setReg_reg_ne (d : Dev) {a x : Nat} (v : Word) (h : x ≠ a) : (d.setReg a v).reg x = d.reg x :=
  tget_tput_ne _ _ _ h _

@[simp] theorem Dev.updLink_link (d : Dev) (j : Nat) (f : JyLink → JyLink) : (d.updLink j f).link j = f (d.link j) :=
  tget_tupd_self ..
theorem Dev.updLink_link_ne (d : Dev) {j x : Nat} (f : JyLink → JyLink) (h : x ≠ j) : (d.updLink j f).link x = d.link x :=
  tget_tupd_ne _ _ _ h

@[simp] theorem Dev.updRing_ring (d : Dev) (r : Nat) (f : Ring → Ring) : (d.updRing r f).ring r = f (d.ring r) :=
  tget_tupd_self ..
theorem Dev.updRing_ring_ne (d : Dev) {r x : Nat} (f : Ring → Ring) (h : x ≠ r) : (d.updRing r f).ring x = d.ring x :=
  tget_tupd_ne _ _ _ h

@[simp] theorem Dev.updLane_lane (d : Dev) (l : Nat) (f : Lane → Lane) : (d.updLane l f).lane l = f (d.lane l) :=
  tget_tupd_self ..
theorem Dev.updLane_lane_ne (d : Dev) {l x : Nat} (f : Lane → Lane) (h : x ≠ l) : (d.updLane l f).lane x = d.lane x :=
  tget_tupd_ne _ _ _ h

@[simp] theorem Dev.updPort_port (d : Dev) (p : Nat) (f : Port → Port) : (d.updPort p f).port p = f (d.port p) :=
  tget_tupd_self ..
theorem Dev.updPort_port_ne (d : Dev) {p x : Nat} (f : Port → Port) (h : x ≠ p) : (d.updPort p f).port x = d.port x :=
  tget_tupd_ne _ _ _ h

@[simp] theorem Dev.updCrc_crcU (d : Dev) (u : Nat) (f : CrcUnit → CrcUnit) : (d.updCrc u f).crcU u = f (d.crcU u) :=
  tget_tupd_self ..
theorem Dev.updCrc_crcU_ne (d : Dev) {u x : Nat} (f : CrcUnit → CrcUnit) (h : x ≠ u) : (d.updCrc u f).crcU x = d.crcU x :=
  tget_tupd_ne _ _ _ h

@[simp] theorem Dev.updFramer_framer (d : Dev) (k : Nat) (f : Framer → Framer) : (d.updFramer k f).framer k = f (d.framer k) :=
  tget_tupd_self ..
theorem Dev.updFramer_framer_ne (d : Dev) {k x : Nat} (f : Framer → Framer) (h : x ≠ k) : (d.updFramer k f).framer x = d.framer x :=
  tget_tupd_ne _ _ _ h

@[simp] theorem Dev.updE1_e1 (d : Dev) (e : Nat) (f : E1 → E1) : (d.updE1 e f).e1 e = f (d.e1 e) :=
  tget_tupd_self ..
theorem Dev.updE1_e1_ne (d : Dev) {e x : Nat} (f : E1 → E1) (h : x ≠ e) : (d.updE1 e f).e1 x = d.e1 x :=
  tget_tupd_ne _ _ _ h

@[simp] theorem Dev.updPoint_point (d : Dev) (k : Nat) (f : Point → Point) : (d.updPoint k f).point k = f (d.point k) :=
  tget_tupd_self ..
theorem Dev.updPoint_point_ne (d : Dev) {k x : Nat} (f : Point → Point) (h : x ≠ k) : (d.updPoint k f).point x = d.point x :=
  tget_tupd_ne _ _ _ h

@[simp] theorem Dev.setOdu_odu (d : Dev) (o : Nat) (v : Option Odu) : (d.setOdu o v).odu o = v := tget_tput_self ..
theorem Dev.setOdu_odu_ne (d : Dev) {o x : Nat} (v : Option Odu) (h : x ≠ o) : (d.setOdu o v).odu x = d.odu x :=
  tget_tput_ne _ _ _ h

@[simp] theorem Dev.setVc4_vc4 (d : Dev) (n : Nat) (v : Option Vc4) : (d.setVc4 n v).vc4 n = v := tget_tput_self ..
theorem Dev.setVc4_vc4_ne (d : Dev) {n x : Nat} (v : Option Vc4) (h : x ≠ n) : (d.setVc4 n v).vc4 x = d.vc4 x :=
  tget_tput_ne _ _ _ h

@[simp] theorem Dev.updLo_lo (d : Dev) (e : Nat) (f : Lo → Lo) : (d.updLo e f).lo e = f (d.lo e) :=
  tget_tupd_self ..
theorem Dev.updLo_lo_ne (d : Dev) {e x : Nat} (f : Lo → Lo) (h : x ≠ e) : (d.updLo e f).lo x = d.lo x :=
  tget_tupd_ne _ _ _ h

@[simp] theorem Dev.updCircuit_circuit (d : Dev) (e : Nat) (f : Circuit → Circuit) : (d.updCircuit e f).circuit e = f (d.circuit e) :=
  tget_tupd_self ..
theorem Dev.updCircuit_circuit_ne (d : Dev) {e x : Nat} (f : Circuit → Circuit) (h : x ≠ e) : (d.updCircuit e f).circuit x = d.circuit x :=
  tget_tupd_ne _ _ _ h

@[simp] theorem Dev.setSel_sel (d : Dev) (k : Nat) (v : Option Selector) : (d.setSel k v).sel k = v := tget_tput_self ..
theorem Dev.setSel_sel_ne (d : Dev) {k x : Nat} (v : Option Selector) (h : x ≠ k) : (d.setSel k v).sel x = d.sel x :=
  tget_tput_ne _ _ _ h

@[simp] theorem Dev.setGroup_group (d : Dev) (g : Nat) (v : Option MGroup) : (d.setGroup g v).group g = v := tget_tput_self ..
theorem Dev.setGroup_group_ne (d : Dev) {g x : Nat} (v : Option MGroup) (h : x ≠ g) : (d.setGroup g v).group x = d.group x :=
  tget_tput_ne _ _ _ h

@[simp] theorem Dev.updPsel_psel (d : Dev) (p : Nat) (f : PSel → PSel) : (d.updPsel p f).psel p = f (d.psel p) :=
  tget_tupd_self ..
theorem Dev.updPsel_psel_ne (d : Dev) {p x : Nat} (f : PSel → PSel) (h : x ≠ p) : (d.updPsel p f).psel x = d.psel x :=
  tget_tupd_ne _ _ _ h

@[simp] theorem Dev.updPq_pq (d : Dev) (q : Nat) (f : PQueue → PQueue) : (d.updPq q f).pq q = f (d.pq q) :=
  tget_tupd_self ..
theorem Dev.updPq_pq_ne (d : Dev) {q x : Nat} (f : PQueue → PQueue) (h : x ≠ q) : (d.updPq q f).pq x = d.pq x :=
  tget_tupd_ne _ _ _ h

@[simp] theorem Dev.updShaper_shaper (d : Dev) (k : Nat) (f : Shaper → Shaper) : (d.updShaper k f).shaper k = f (d.shaper k) :=
  tget_tupd_self ..
theorem Dev.updShaper_shaper_ne (d : Dev) {k x : Nat} (f : Shaper → Shaper) (h : x ≠ k) : (d.updShaper k f).shaper x = d.shaper x :=
  tget_tupd_ne _ _ _ h

@[simp] theorem Dev.updPolicer_policer (d : Dev) (k : Nat) (f : Policer → Policer) : (d.updPolicer k f).policer k = f (d.policer k) :=
  tget_tupd_self ..
theorem Dev.updPolicer_policer_ne (d : Dev) {k x : Nat} (f : Policer → Policer) (h : x ≠ k) : (d.updPolicer k f).policer x = d.policer x :=
  tget_tupd_ne _ _ _ h

@[simp] theorem Dev.setFlow_flow (d : Dev) (k : Nat) (v : Flow) : (d.setFlow k v).flow k = v := tget_tput_self ..
theorem Dev.setFlow_flow_ne (d : Dev) {k x : Nat} (v : Flow) (h : x ≠ k) : (d.setFlow k v).flow x = d.flow x :=
  tget_tput_ne _ _ _ h

@[simp] theorem Dev.setIngr_ingr (d : Dev) (k : Nat) (v : Ingress) : (d.setIngr k v).ingr k = v := tget_tput_self ..
theorem Dev.setIngr_ingr_ne (d : Dev) {k x : Nat} (v : Ingress) (h : x ≠ k) : (d.setIngr k v).ingr x = d.ingr x :=
  tget_tput_ne _ _ _ h

@[simp] theorem Dev.updSch_schP (d : Dev) (k : Nat) (f : SchPort → SchPort) : (d.updSch k f).schP k = f (d.schP k) :=
  tget_tupd_self ..
theorem Dev.updSch_schP_ne (d : Dev) {k x : Nat} (f : SchPort → SchPort) (h : x ≠ k) : (d.updSch k f).schP x = d.schP x :=
  tget_tupd_ne _ _ _ h

@[simp] theorem Dev.updRef_tref (d : Dev) (r : Nat) (f : TRef → TRef) : (d.updRef r f).tref r = f (d.tref r) :=
  tget_tupd_self ..
theorem Dev.updRef_tref_ne (d : Dev) {r x : Nat} (f : TRef → TRef) (h : x ≠ r) : (d.updRef r f).tref x = d.tref x :=
  tget_tupd_ne _ _ _ h

@[simp] theorem Dev.updOut_tout (d : Dev) (o : Nat) (f : TOut → TOut) : (d.updOut o f).tout o = f (d.tout o) :=
  tget_tupd_self ..
theorem Dev.updOut_tout_ne (d : Dev) {o x : Nat} (f : TOut → TOut) (h : x ≠ o) : (d.updOut o f).tout x = d.tout x :=
  tget_tupd_ne _ _ _ h

@[simp] theorem Dev.updEngine_engine (d : Dev) (g : Nat) (f : Engine → Engine) : (d.updEngine g f).engine g = f (d.engine g) :=
  tget_tupd_self ..
theorem Dev.updEngine_engine_ne (d : Dev) {g x : Nat} (f : Engine → Engine) (h : x ≠ g) : (d.updEngine g f).engine x = d.engine x :=
  tget_tupd_ne _ _ _ h

@[simp] theorem Dev.updQueue_queue (d : Dev) (q : QId) (f : FQueue → FQueue) : (d.updQueue q f).queue q = f (d.queue q) :=
  tget_tupd_self ..
theorem Dev.updQueue_queue_ne (d : Dev) {q x : QId} (f : FQueue → FQueue) (h : qkey x ≠ qkey q) :
    (d.updQueue q f).queue x = d.queue x := tget_tupd_ne _ _ _ h

@[simp] theorem Dev.updOdu_odu (d : Dev) (o : Nat) (f : Odu → Odu) : (d.updOdu o f).odu o = (d.odu o).map f := by
  simp [Dev.updOdu]
@[simp] theorem Dev.updVc4_vc4 (d : Dev) (v : Nat) (f : Vc4 → Vc4) : (d.updVc4 v f).vc4 v = (d.vc4 v).map f := by
  simp [Dev.updVc4]
@[simp] theorem Dev.updSel_sel (d : Dev) (k : Nat) (f : Selector → Selector) : (d.updSel k f).sel k = (d.sel k).map f := by
  simp [Dev.updSel]
@[simp] theorem Dev.updGroup_group (d : Dev) (g : Nat) (f : MGroup → MGroup) : (d.updGroup g f).group g = (d.group g).map f := by
  simp [Dev.updGroup]

end Sys2Proof.Machine
end

