-- ==== Sys2Proof/Laws/Events.lean ====
section
/-! SUPPORT. What posting leaves in the register file: an event, a statistics record or a completion touches no register
outside the host queue engine's window, so that an event bit that an operation sets is still set when its event is posted. -/

namespace Sys2Proof.Machine

/-- Outside the host queue engine's window. -/
def offHq (a : Nat) : Prop := a < 0x10000 ∨ 0x20000 ≤ a

theorem offHq_ring {a r o : Nat} (h : offHq a) (hr : r ≤ 10) (ho : o < 0x40) : a ≠ aRing r o := by
  unfold offHq at h; unfold aRing; omega

theorem offHq_hq {a o : Nat} (h : offHq a) (ho : o < 0x100) : a ≠ aHq o := by
  unfold offHq at h; unfold aHq; omega

theorem Dev.reg_congr {d e : Dev} (h : d.regs = e.regs) (a : Nat) : d.reg a = e.reg a := by unfold Dev.reg; rw [h]

/-- What leaves the register file alone leaves every register alone. -/
theorem Dev.reg_of_mask {T : List Part} {d e : Dev} (h : d.mask T = e.mask T) (hT : Part.regs ∉ T) (a : Nat) :
    d.reg a = e.reg a := Dev.reg_congr (Dev.regs_of_mask h hT) a

theorem Dev.ringNotify_reg (d : Dev) (r a : Nat) : (d.ringNotify r).reg a = d.reg a :=
  Dev.reg_of_mask (Dev.ringNotify_mask (T := [.host]) (by decide) d r) (by decide) a

theorem Dev.writeEntry_reg {a : Nat} (h : offHq a) (d : Dev) {r : Nat} (hr : r ≤ 10) (mk : Nat → Bool → Word → Out) :
    (d.writeEntry r mk).reg a = d.reg a := by
  unfold Dev.writeEntry
  dsimp only
  rw [Dev.ringNotify_reg]
  split
  · exact (Dev.setReg_reg_ne _ _ (offHq_ring h hr (by omega))).trans (Dev.setReg_reg_ne _ _ (offHq_ring h hr (by omega)))
  · exact Dev.setReg_reg_ne _ _ (offHq_ring h hr (by omega))

theorem Dev.loseEntry_reg {a : Nat} (h : offHq a) (d : Dev) {r : Nat} (hr : r ≤ 10) (b : Nat) :
    (d.loseEntry r b).reg a = d.reg a := by
  unfold Dev.loseEntry
  dsimp only
  rw [Dev.setReg_reg_ne _ _ (offHq_hq h (by omega))]
  exact Dev.setReg_reg_ne _ _ (offHq_ring h hr (by omega))

theorem Dev.postAt_reg {a : Nat} (h : offHq a) (d : Dev) (device code : Nat) (sec : BitVec 48) (ns : Nat) (args : List Byte) :
    (d.postAt device code sec ns args).reg a = d.reg a := by
  have hr : (if urgentCode code = true then 8 else 9) ≤ 10 := by split <;> omega
  unfold Dev.postAt
  generalize (if urgentCode code = true then 8 else 9) = r at hr
  dsimp only
  split
  · exact Dev.writeEntry_reg h _ hr _
  · exact Dev.loseEntry_reg h _ hr _

theorem Dev.jySendAt_reg (a : Nat) (d : Dev) (j ty : Nat) (p : List Byte) (cls : Nat) : (d.jySendAt j ty p cls).reg a = d.reg a :=
  Dev.reg_of_mask (Dev.jySendAt_mask (T := [.host, .jersey]) (by decide) d j ty p cls) (by decide) a

theorem Dev.jySend_reg (a : Nat) (d : Dev) (j ty : Nat) (p : List Byte) (r0 : Bool) : (d.jySend j ty p r0).reg a = d.reg a :=
  Dev.jySendAt_reg a d j ty p _

/-- Posting an event changes no register outside the host queue engine's window. -/
theorem Dev.post_reg {a : Nat} (h : offHq a) (d : Dev) (code : Nat) (args : List Byte) : (d.post code args).reg a = d.reg a := by
  unfold Dev.post
  split
  · split
    · exact Dev.jySend_reg ..
    · rfl
  · exact Dev.postAt_reg h ..

/-- Raising an event bit changes, outside the host queue engine's window, the event register alone. -/
theorem Dev.raise_reg_ne {a x : Nat} (h : offHq x) (hx : x ≠ a) (d : Dev) (i code : Nat) (args : List Byte) :
    (d.raise a i code args).reg x = d.reg x := by
  unfold Dev.raise
  dsimp only
  split
  · exact Dev.setReg_reg_ne _ _ hx
  · rw [Dev.post_reg h]; exact Dev.setReg_reg_ne _ _ hx

/-- The event register after an event: the bit is set, and SEQ has risen where it was clear (R409). -/
theorem Dev.raise_reg {a : Nat} (h : offHq a) (d : Dev) (i code : Nat) (args : List Byte) :
    (d.raise a i code args).reg a = rsSet (d.reg a) (bitAt true i) := by
  unfold Dev.raise
  dsimp only
  split
  · exact Dev.setReg_reg ..
  · rw [Dev.post_reg h]; exact Dev.setReg_reg ..

theorem Dev.raiseQuiet_reg (d : Dev) (a i : Nat) : (d.raiseQuiet a i).reg a = rsSet (d.reg a) (bitAt true i) :=
  Dev.setReg_reg ..

theorem Dev.raiseQuiet_reg_ne {a x : Nat} (h : x ≠ a) (d : Dev) (i : Nat) : (d.raiseQuiet a i).reg x = d.reg x :=
  Dev.setReg_reg_ne _ _ h

/-- Several events of one register at one instant: SEQ rises at most once (R409). -/
theorem Dev.raiseAll_reg {a : Nat} (h : offHq a) (d : Dev) (evs : List (Nat × Option (Nat × List Byte))) :
    (d.raiseAll a evs).reg a = rsSet (d.reg a) (evs.foldl (fun m e => m ||| bitAt true e.1) 0) := by
  have key : ∀ (l : List (Nat × Option (Nat × List Byte))) (w : Word) (e : Dev),
      (l.foldl (fun d e => if bit w e.1 then d else match e.2 with | some (c, args) => d.post c args | none => d) e).reg a
        = e.reg a := by
    intro l w
    induction l with
    | nil => intro e; rfl
    | cons x l ih =>
      intro e
      rw [List.foldl_cons, ih]
      split
      · rfl
      · split
        · exact Dev.post_reg h ..
        · rfl
  unfold Dev.raiseAll
  exact (key _ _ _).trans (Dev.setReg_reg ..)

theorem Dev.raiseAll_reg_ne {a x : Nat} (h : offHq x) (hx : x ≠ a) (d : Dev) (evs : List (Nat × Option (Nat × List Byte))) :
    (d.raiseAll a evs).reg x = d.reg x := by
  have key : ∀ (l : List (Nat × Option (Nat × List Byte))) (w : Word) (e : Dev),
      (l.foldl (fun d e => if bit w e.1 then d else match e.2 with | some (c, args) => d.post c args | none => d) e).reg x
        = e.reg x := by
    intro l w
    induction l with
    | nil => intro e; rfl
    | cons y l ih =>
      intro e
      rw [List.foldl_cons, ih]
      split
      · rfl
      · split
        · exact Dev.post_reg h ..
        · rfl
  unfold Dev.raiseAll
  exact (key _ _ _).trans (Dev.setReg_reg_ne _ _ hx)

theorem Dev.count_reg (d : Dev) (a lo n k : Nat) : (d.count a lo n k).reg a = countUp (d.reg a) lo n k := Dev.setReg_reg ..
theorem Dev.count_reg_ne {a x : Nat} (h : x ≠ a) (d : Dev) (lo n k : Nat) : (d.count a lo n k).reg x = d.reg x :=
  Dev.setReg_reg_ne _ _ h
theorem Dev.count32_reg (d : Dev) (a k : Nat) : (d.count32 a k).reg a = countUp (d.reg a) 0 32 k := Dev.setReg_reg ..
theorem Dev.count32_reg_ne {a x : Nat} (h : x ≠ a) (d : Dev) (k : Nat) : (d.count32 a k).reg x = d.reg x :=
  Dev.setReg_reg_ne _ _ h

theorem Dev.statAt_reg {a : Nat} (h : offHq a) (d : Dev) (device : Nat) (body : List Byte) :
    (d.statAt device body).reg a = d.reg a := by
  unfold Dev.statAt
  split
  · exact Dev.writeEntry_reg h _ (by omega) _
  · dsimp only
    split
    · rw [Dev.post_reg h]; exact Dev.loseEntry_reg h _ (by omega) _
    · exact Dev.loseEntry_reg h _ (by omega) _

/-- Delivering a statistics record changes no register outside the host queue engine's window. -/
theorem Dev.stat_reg {a : Nat} (h : offHq a) (d : Dev) (body : List Byte) : (d.stat body).reg a = d.reg a := by
  unfold Dev.stat
  split
  · split
    · exact Dev.jySend_reg ..
    · rfl
  · exact Dev.statAt_reg h ..

/-- A completion changes no register outside the host queue engine's window. -/
theorem Dev.complete_reg {a : Nat} (h : offHq a) (d : Dev) (op jid : Nat) (r : Done) : (d.complete op jid r).reg a = d.reg a := by
  unfold Dev.complete
  split
  · rfl
  · rename_i j _
    dsimp only
    split
    · exact Dev.jySendAt_reg ..
    · unfold Dev.writeCompletion
      split
      · have := j.desc.ring.isLt
        exact Dev.writeEntry_reg h _ (by dsimp only; omega) _
      · rfl

/-! ### Status words (R409) -/

/-- An event bit is set after its event. -/
theorem rsSet_bit (w : Word) (i : Nat) (hi : i < 24) : bit (rsSet w (bitAt true i)) i = true := by
  have hm : (0x00FFFFFF : Word).getLsbD i = true := by interval_cases i <;> rfl
  have hb : (bitAt true i).getLsbD i = true := by
    simp only [bitAt, if_true, BitVec.getLsbD_ofNat, Nat.testBit_two_pow_self]; simp; omega
  have hn : (rsNew w (bitAt true i)).getLsbD i = !w.getLsbD i := by
    simp only [rsNew, BitVec.getLsbD_and, BitVec.getLsbD_not, hb, hm, Bool.true_and, Bool.and_true]
    simp; omega
  unfold bit rsSet
  split
  · rename_i h
    rw [h] at hn
    simpa using hn
  · simp only [BitVec.getLsbD_or, BitVec.getLsbD_and, hm, hn, Bool.and_true]
    cases w.getLsbD i <;> simp

theorem Dev.raise_bit {a : Nat} (h : offHq a) (d : Dev) (i code : Nat) (hi : i < 24) (args : List Byte) :
    bit ((d.raise a i code args).reg a) i = true := by
  rw [Dev.raise_reg h]; exact rsSet_bit _ i hi

end Sys2Proof.Machine
end

