-- ==== Sys2Proof/Laws/FramesLine.lean ====
section
/-! SUPPORT. Frames of the line, the mapping, the packet path and the cross-connect: what each operation leaves as it was. Each lemma names the parts of the device
that its operation can change. -/

namespace Sys2Proof.Machine

theorem Dev.report_mask {T : List Part} (hT : Part.within [.regs, .plane, .arms, .sliceU, .queues, .psels, .tsu, .cal, .twill, .host,
    .jersey, .mx, .fresh, .reports] T = true) (d : Dev) (r : FaultRec) (others : List FaultRec) (fields : Bool) :
    (Dev.report d r others fields).mask T = d.mask T := by
  refine Dev.mask_mono hT ?_
  unfold Dev.report
  try simp (decide := true) only [↓Dev.endAborted_mask, ↓Dev.recordAll_mask, ↓Dev.react_mask, ↓Dev.mask_foldl, ↓Dev.mask_foldl2]
  repeat' (first
      | done
      | with_reducible rfl
      | (with_reducible refine (Dev.mask_foldl ?_ _ _).trans ?_)
      | (with_reducible refine (Dev.mask_foldl2 ?_ _ _).trans ?_)
      | (simp (decide := true) only [↓Dev.endAborted_mask, ↓Dev.recordAll_mask, ↓Dev.react_mask, ↓Dev.mask_foldl, ↓Dev.mask_foldl2]; done)
      | (intro d x; try dsimp only)
      | (split <;> try simp (decide := true) only [↓Dev.endAborted_mask, ↓Dev.recordAll_mask, ↓Dev.react_mask, ↓Dev.mask_foldl, ↓Dev.mask_foldl2])
      | (simp (decide := true) only [↓Dev.endAborted_mask, ↓Dev.recordAll_mask, ↓Dev.react_mask, ↓Dev.mask_foldl, ↓Dev.mask_foldl2]))

theorem Dev.wireFault_mask {T : List Part} (hT : Part.within [.regs, .wires, .host, .jersey] T = true) (d : Dev) (src : BitVec 16) (pair :
    Fin 3) :
    (Dev.wireFault d src pair).mask T = d.mask T := by
  refine Dev.mask_mono hT ?_
  unfold Dev.wireFault
  repeat' (first | split | (simp (decide := true) only [↓Dev.recordIn_mask, ↓Dev.mask_set_wires]))

theorem Dev.wireValid_mask {T : List Part} (hT : Part.within [.regs, .wires, .host, .jersey, .reports] T = true) (d : Dev) (src : BitVec 16)
    (pair : Fin 3) :
    (Dev.wireValid d src pair).mask T = d.mask T := by
  refine Dev.mask_mono hT ?_
  unfold Dev.wireValid
  try simp (decide := true) only [↓Dev.recordIn_mask, ↓Dev.mask_set_wires_reports, ↓Dev.mask_foldl, ↓Dev.mask_foldl2]
  repeat' (first
      | done
      | with_reducible rfl
      | (with_reducible refine (Dev.mask_foldl ?_ _ _).trans ?_)
      | (with_reducible refine (Dev.mask_foldl2 ?_ _ _).trans ?_)
      | (simp (decide := true) only [↓Dev.recordIn_mask, ↓Dev.mask_set_wires_reports, ↓Dev.mask_foldl, ↓Dev.mask_foldl2]; done)
      | (intro d x; try dsimp only)
      | (split <;> try simp (decide := true) only [↓Dev.recordIn_mask, ↓Dev.mask_set_wires_reports, ↓Dev.mask_foldl, ↓Dev.mask_foldl2])
      | (simp (decide := true) only [↓Dev.recordIn_mask, ↓Dev.mask_set_wires_reports, ↓Dev.mask_foldl, ↓Dev.mask_foldl2]))

theorem Dev.collectorFault_mask {T : List Part} (hT : Part.within [.regs, .plane, .arms, .xc, .cal, .host, .jersey] T = true) (d : Dev) (x :
    CopyCmp) :
    (Dev.collectorFault d x).mask T = d.mask T := by
  refine Dev.mask_mono hT ?_
  unfold Dev.collectorFault
  repeat' (first | split | (simp (decide := true) only [↓Dev.freeze_mask, ↓Dev.armUse_mask, ↓Dev.recordIn_mask]))

theorem Dev.lockstep_mask {T : List Part} (hT : Part.within [.regs, .arms, .tsu, .cal, .host, .jersey, .fresh, .reports] T = true) (d : Dev)
    (x : LockCmp) :
    (Dev.lockstep d x).mask T = d.mask T := by
  refine Dev.mask_mono hT ?_
  unfold Dev.lockstep
  repeat' (first | split | (simp (decide := true) only [↓Dev.endAborted_mask, ↓Dev.tsuFault_mask, ↓Dev.armUse_mask, ↓Dev.recordAll_mask]))

theorem Dev.forkStalled_mask {T : List Part} (hT : Part.within [.regs, .plane, .arms, .sliceU, .queues, .psels, .tsu, .cal, .twill, .host,
    .jersey, .mx, .fresh, .reports] T = true) (d : Dev) (l plane : Nat) :
    (Dev.forkStalled d l plane).mask T = d.mask T := by
  refine Dev.mask_mono hT ?_
  unfold Dev.forkStalled
  repeat' (first | (simp (decide := true) only [↓Dev.fault1_mask, ↓Dev.mask_set_plane]; done) | split)

theorem Dev.feedAgain_mask {T : List Part} (hT : Part.within [.plane] T = true) (d : Dev) (p : Nat) :
    (Dev.feedAgain d p).mask T = d.mask T := Dev.mask_mono hT rfl

theorem Dev.restartPoints_mask {T : List Part} (hT : Part.within [.regs, .points, .groupCause, .host, .jersey] T = true) (d : Dev) (f :
    Point → Point) (ks : List Nat) :
    (Dev.restartPoints d f ks).mask T = d.mask T := by
  refine Dev.mask_mono hT ?_
  unfold Dev.restartPoints
  try simp (decide := true) only [↓Dev.updPoint_mask, ↓Dev.refresh_mask, ↓Dev.settle_mask, ↓Dev.mask_foldl, ↓Dev.mask_foldl2]
  repeat' (first
      | done
      | with_reducible rfl
      | (with_reducible refine (Dev.mask_foldl ?_ _ _).trans ?_)
      | (with_reducible refine (Dev.mask_foldl2 ?_ _ _).trans ?_)
      | (simp (decide := true) only [↓Dev.updPoint_mask, ↓Dev.refresh_mask, ↓Dev.settle_mask, ↓Dev.mask_foldl, ↓Dev.mask_foldl2]; done)
      | (intro d x; try dsimp only)
      | (split <;> try simp (decide := true) only [↓Dev.updPoint_mask, ↓Dev.refresh_mask, ↓Dev.settle_mask, ↓Dev.mask_foldl, ↓Dev.mask_foldl2])
      | (simp (decide := true) only [↓Dev.updPoint_mask, ↓Dev.refresh_mask, ↓Dev.settle_mask, ↓Dev.mask_foldl, ↓Dev.mask_foldl2]))

theorem Dev.restartSels_mask {T : List Part} (hT : Part.within [.sels, .twill] T = true) (d : Dev) (slice k : Nat) :
    (Dev.restartSels d slice k).mask T = d.mask T := Dev.mask_mono hT rfl

theorem Dev.restartEngine_mask {T : List Part} (hT : Part.within [.regs, .points, .groupCause, .sels, .twill, .host, .jersey] T = true) (d :
    Dev) (slice k : Nat) :
    (Dev.restartEngine d slice k).mask T = d.mask T := by
  refine Dev.mask_mono hT ?_
  unfold Dev.restartEngine; simp (decide := true) only [↓Dev.restartPoints_mask, ↓Dev.restartSels_mask]

theorem Dev.restartSlice_mask {T : List Part} (hT : Part.within [.regs, .ports, .framers, .flexo, .e1s, .points, .groupCause, .odus, .vc4s,
    .los, .host, .jersey] T = true) (d : Dev) (k : Nat) :
    (Dev.restartSlice d k).mask T = d.mask T := by
  refine Dev.mask_mono hT ?_
  unfold Dev.restartSlice
  try simp (decide := true) only [↓Dev.updFramer_mask, ↓Dev.frTouch_mask, ↓Dev.dropOmfi_mask, ↓Dev.restartPoints_mask, ↓Dev.mask_set_framers_flexo_e1s_vc4s_los, ↓Dev.mask_foldl, ↓Dev.mask_foldl2]
  repeat' (first
      | done
      | with_reducible rfl
      | (with_reducible refine (Dev.mask_foldl ?_ _ _).trans ?_)
      | (with_reducible refine (Dev.mask_foldl2 ?_ _ _).trans ?_)
      | (simp (decide := true) only [↓Dev.updFramer_mask, ↓Dev.frTouch_mask, ↓Dev.dropOmfi_mask, ↓Dev.restartPoints_mask, ↓Dev.mask_set_framers_flexo_e1s_vc4s_los, ↓Dev.mask_foldl, ↓Dev.mask_foldl2]; done)
      | (intro d x; try dsimp only)
      | (split <;> try simp (decide := true) only [↓Dev.updFramer_mask, ↓Dev.frTouch_mask, ↓Dev.dropOmfi_mask, ↓Dev.restartPoints_mask, ↓Dev.mask_set_framers_flexo_e1s_vc4s_los, ↓Dev.mask_foldl, ↓Dev.mask_foldl2])
      | (simp (decide := true) only [↓Dev.updFramer_mask, ↓Dev.frTouch_mask, ↓Dev.dropOmfi_mask, ↓Dev.restartPoints_mask, ↓Dev.mask_set_framers_flexo_e1s_vc4s_los, ↓Dev.mask_foldl, ↓Dev.mask_foldl2]))

theorem Dev.clearBank_mask {T : List Part} (hT : Part.within [.xc] T = true) (d : Dev) (b : Nat) : Dev.mask T (Dev.clearBank d b) = d.mask T := by
  refine Dev.mask_mono hT ?_
  unfold Dev.clearBank
  try simp (decide := true) only [↓Dev.setXcWord_mask, ↓Dev.mask_foldl, ↓Dev.mask_foldl2, ↓Dev.mask_set_xc]
  repeat' (first
      | done
      | with_reducible rfl
      | (with_reducible refine (Dev.mask_foldl ?_ _ _).trans ?_)
      | (with_reducible refine (Dev.mask_foldl2 ?_ _ _).trans ?_)
      | (simp (decide := true) only [↓Dev.setXcWord_mask, ↓Dev.mask_foldl, ↓Dev.mask_foldl2, ↓Dev.mask_set_xc]; done)
      | (intro d x; try dsimp only)
      | (split <;> try simp (decide := true) only [↓Dev.setXcWord_mask, ↓Dev.mask_foldl, ↓Dev.mask_foldl2, ↓Dev.mask_set_xc])
      | (simp (decide := true) only [↓Dev.setXcWord_mask, ↓Dev.mask_foldl, ↓Dev.mask_foldl2, ↓Dev.mask_set_xc]))

theorem Dev.copyQueues_mask {T : List Part} (hT : Part.within [.queues] T = true) (d : Dev) (mine : Nat → Bool) (up : Bool) (shift : Nat) :
    (Dev.copyQueues d mine up shift).mask T = d.mask T := Dev.mask_mono hT rfl

theorem Dev.copyEngine_mask {T : List Part} (hT : Part.within [.queues, .twill] T = true) (d : Dev) (g : Nat) :
    (Dev.copyEngine d g).mask T = d.mask T := Dev.mask_mono hT rfl

theorem Dev.copySlice_mask {T : List Part} (hT : Part.within [.queues] T = true) (d : Dev) (i : Nat) :
    (Dev.copySlice d i).mask T = d.mask T := Dev.mask_mono hT rfl

theorem unitStores_mask {T : List Part} (hT : Part.within [.regs, .plane, .arms, .sliceU, .queues, .xc, .psels, .tsu, .cal, .twill, .host,
    .jersey, .mx, .fresh, .reports] T = true) (u : Nat) (restart : Bool) (d : Dev) (m : List Host.Cell) :
    (unitStores u restart d m).1.mask T = d.mask T := by
  refine Dev.mask_mono hT ?_
  unfold unitStores
  repeat' (first | (simp (decide := true) only [↓copyMem_mask, ↓Dev.clearBank_mask]; done) | split)

theorem Dev.unitQueues_mask {T : List Part} (hT : Part.within [.regs, .queues, .twill, .host, .jersey] T = true) (d : Dev) (u : Nat)
    (restart : Bool) :
    (Dev.unitQueues d u restart).mask T = d.mask T := by
  refine Dev.mask_mono hT ?_
  unfold Dev.unitQueues
  repeat' (first | (simp (decide := true) only [↓Dev.engineOut_mask, ↓Dev.copyEngine_mask, ↓Dev.copySlice_mask, ↓Dev.mask_set_queues]; done) | split)

theorem Dev.unitRestart_mask {T : List Part} (hT : Part.within [.regs, .ports, .framers, .flexo, .e1s, .points, .groupCause, .odus, .vc4s,
    .los, .sels, .twill, .host, .jersey] T = true) (d : Dev) (u : Nat) :
    (Dev.unitRestart d u).mask T = d.mask T := by
  refine Dev.mask_mono hT ?_
  unfold Dev.unitRestart
  repeat' (first | (simp (decide := true) only [↓Dev.restartEngine_mask, ↓Dev.restartSlice_mask]; done) | split)

theorem backMem_mask {T : List Part} (hT : Part.within [.regs, .plane, .arms, .sliceU, .queues, .psels, .tsu, .cal, .twill, .host, .jersey,
    .mx, .fresh, .reports] T = true) (d : Dev) (m : List Host.Cell) (id : MemId) :
    (backMem d m id).1.mask T = d.mask T := by
  refine Dev.mask_mono hT ?_
  unfold backMem
  try simp (decide := true) only [↓readStored_mask, ↓Dev.mask_foldl, ↓Dev.mask_foldl2]
  repeat' (first
      | done
      | with_reducible rfl
      | (with_reducible refine (Dev.mask_foldl ?_ _ _).trans ?_)
      | (with_reducible refine (Dev.mask_foldl2 ?_ _ _).trans ?_)
      | (simp (decide := true) only [↓readStored_mask, ↓Dev.mask_foldl, ↓Dev.mask_foldl2]; done)
      | (intro d x; try dsimp only)
      | (split <;> try simp (decide := true) only [↓readStored_mask, ↓Dev.mask_foldl, ↓Dev.mask_foldl2])
      | (simp (decide := true) only [↓readStored_mask, ↓Dev.mask_foldl, ↓Dev.mask_foldl2]))

theorem Dev.backItem_mask {T : List Part} (hT : Part.within [.regs, .plane, .arms, .sliceU, .queues, .psels, .tsu, .cal, .twill, .host,
    .jersey, .mx, .fresh, .reports] T = true) (d : Dev) (u : Nat) (q : QId) (flip : QItem) :
    (Dev.backItem d u q flip).mask T = d.mask T := by
  refine Dev.mask_mono hT ?_
  unfold Dev.backItem
  try simp (decide := true) only [↓Dev.endAborted_mask, ↓Dev.draw_mask, ↓Dev.abortUnfence_mask, ↓Dev.fault1_mask, ↓Dev.mask_foldl, ↓Dev.mask_foldl2]
  repeat' (first
      | done
      | with_reducible rfl
      | (with_reducible refine (Dev.mask_foldl ?_ _ _).trans ?_)
      | (with_reducible refine (Dev.mask_foldl2 ?_ _ _).trans ?_)
      | (simp (decide := true) only [↓Dev.endAborted_mask, ↓Dev.draw_mask, ↓Dev.abortUnfence_mask, ↓Dev.fault1_mask, ↓Dev.mask_foldl, ↓Dev.mask_foldl2]; done)
      | (intro d x; try dsimp only)
      | (split <;> try simp (decide := true) only [↓Dev.endAborted_mask, ↓Dev.draw_mask, ↓Dev.abortUnfence_mask, ↓Dev.fault1_mask, ↓Dev.mask_foldl, ↓Dev.mask_foldl2])
      | (simp (decide := true) only [↓Dev.endAborted_mask, ↓Dev.draw_mask, ↓Dev.abortUnfence_mask, ↓Dev.fault1_mask, ↓Dev.mask_foldl, ↓Dev.mask_foldl2]))

theorem unitBack_mask {T : List Part} (hT : Part.within [.regs, .plane, .arms, .sliceU, .queues, .xc, .psels, .tsu, .cal, .twill, .host,
    .jersey, .mx, .fresh, .reports] T = true) (b : ReadBack) (u : Nat) (restart : Bool) (d : Dev) (m : List Host.Cell) :
    (unitBack b u restart d m).1.mask T = d.mask T := by
  refine Dev.mask_mono hT ?_
  unfold unitBack
  try simp (decide := true) only [↓unitStores_mask, ↓backMem_mask, ↓Dev.mask_foldl, ↓Dev.mask_foldl2]
  repeat' (first
      | done
      | with_reducible rfl
      | (with_reducible refine (Dev.mask_foldl ?_ _ _).trans ?_)
      | (with_reducible refine (Dev.mask_foldl2 ?_ _ _).trans ?_)
      | (simp (decide := true) only [↓unitStores_mask, ↓backMem_mask, ↓Dev.mask_foldl, ↓Dev.mask_foldl2]; done)
      | (intro d x; try dsimp only)
      | (split <;> try simp (decide := true) only [↓unitStores_mask, ↓backMem_mask, ↓Dev.mask_foldl, ↓Dev.mask_foldl2])
      | (simp (decide := true) only [↓unitStores_mask, ↓backMem_mask, ↓Dev.mask_foldl, ↓Dev.mask_foldl2]))

theorem unfenceDone_mask {T : List Part} (hT : Part.within [.regs, .plane, .arms, .sliceU, .ports, .queues, .framers, .flexo, .e1s, .points,
    .groupCause, .odus, .vc4s, .los, .xc, .sels, .psels, .tsu, .cal, .twill, .host, .jersey, .mx, .fresh, .reports] T = true) (b : ReadBack)
    (d : Dev) (m : List Host.Cell) :
    (unfenceDone b d m).1.mask T = d.mask T := by
  refine Dev.mask_mono hT ?_
  unfold unfenceDone
  try simp (decide := true) only [↓Dev.complete_mask, ↓Dev.unfence_mask, ↓Dev.unitQueues_mask, ↓Dev.unitRestart_mask, ↓Dev.backItem_mask, ↓unitBack_mask, ↓Dev.mask_set_plane, ↓Dev.mask_foldl, ↓Dev.mask_foldl2]
  repeat' (first
      | done
      | with_reducible rfl
      | (with_reducible refine (Dev.mask_foldl ?_ _ _).trans ?_)
      | (with_reducible refine (Dev.mask_foldl2 ?_ _ _).trans ?_)
      | (simp (decide := true) only [↓Dev.complete_mask, ↓Dev.unfence_mask, ↓Dev.unitQueues_mask, ↓Dev.unitRestart_mask, ↓Dev.backItem_mask, ↓unitBack_mask, ↓Dev.mask_set_plane, ↓Dev.mask_foldl, ↓Dev.mask_foldl2]; done)
      | (intro d x; try dsimp only)
      | (split <;> try simp (decide := true) only [↓Dev.complete_mask, ↓Dev.unfence_mask, ↓Dev.unitQueues_mask, ↓Dev.unitRestart_mask, ↓Dev.backItem_mask, ↓unitBack_mask, ↓Dev.mask_set_plane, ↓Dev.mask_foldl, ↓Dev.mask_foldl2])
      | (simp (decide := true) only [↓Dev.complete_mask, ↓Dev.unfence_mask, ↓Dev.unitQueues_mask, ↓Dev.unitRestart_mask, ↓Dev.backItem_mask, ↓unitBack_mask, ↓Dev.mask_set_plane, ↓Dev.mask_foldl, ↓Dev.mask_foldl2]))

theorem Dev.copyState_mask {T : List Part} (hT : Part.within [.queues, .twill] T = true) (d : Dev) (p : Nat) :
    (Dev.copyState d p).mask T = d.mask T := by
  refine Dev.mask_mono hT ?_
  unfold Dev.copyState
  try simp (decide := true) only [↓Dev.updEngine_mask, ↓Dev.copyQueues_mask, ↓Dev.mask_foldl, ↓Dev.mask_foldl2]
  repeat' (first
      | done
      | with_reducible rfl
      | (with_reducible refine (Dev.mask_foldl ?_ _ _).trans ?_)
      | (with_reducible refine (Dev.mask_foldl2 ?_ _ _).trans ?_)
      | (simp (decide := true) only [↓Dev.updEngine_mask, ↓Dev.copyQueues_mask, ↓Dev.mask_foldl, ↓Dev.mask_foldl2]; done)
      | (intro d x; try dsimp only)
      | (split <;> try simp (decide := true) only [↓Dev.updEngine_mask, ↓Dev.copyQueues_mask, ↓Dev.mask_foldl, ↓Dev.mask_foldl2])
      | (simp (decide := true) only [↓Dev.updEngine_mask, ↓Dev.copyQueues_mask, ↓Dev.mask_foldl, ↓Dev.mask_foldl2]))

theorem copyPlane_mask {T : List Part} (hT : Part.within [.regs, .plane, .arms, .sliceU, .queues, .psels, .tsu, .cal, .twill, .host,
    .jersey, .mx, .fresh, .reports] T = true) (p : Nat) (d : Dev) (m : List Host.Cell) :
    (copyPlane p d m).1.mask T = d.mask T := by
  refine Dev.mask_mono hT ?_
  unfold copyPlane
  try simp (decide := true) only [↓copyMem_mask, ↓Dev.copyState_mask, ↓Dev.mask_foldl, ↓Dev.mask_foldl2]
  repeat' (first
      | done
      | with_reducible rfl
      | (with_reducible refine (Dev.mask_foldl ?_ _ _).trans ?_)
      | (with_reducible refine (Dev.mask_foldl2 ?_ _ _).trans ?_)
      | (simp (decide := true) only [↓copyMem_mask, ↓Dev.copyState_mask, ↓Dev.mask_foldl, ↓Dev.mask_foldl2]; done)
      | (intro d x; try dsimp only)
      | (split <;> try simp (decide := true) only [↓copyMem_mask, ↓Dev.copyState_mask, ↓Dev.mask_foldl, ↓Dev.mask_foldl2])
      | (simp (decide := true) only [↓copyMem_mask, ↓Dev.copyState_mask, ↓Dev.mask_foldl, ↓Dev.mask_foldl2]))

theorem Dev.admitPlane_mask {T : List Part} (hT : Part.within [.psels] T = true) (d : Dev) (pl : Fin 2) :
    (Dev.admitPlane d pl).mask T = d.mask T := by
  refine Dev.mask_mono hT ?_
  unfold Dev.admitPlane
  try simp (decide := true) only [↓Dev.updPsel_mask, ↓Dev.mask_foldl, ↓Dev.mask_foldl2]
  repeat' (first
      | done
      | with_reducible rfl
      | (with_reducible refine (Dev.mask_foldl ?_ _ _).trans ?_)
      | (with_reducible refine (Dev.mask_foldl2 ?_ _ _).trans ?_)
      | (simp (decide := true) only [↓Dev.updPsel_mask, ↓Dev.mask_foldl, ↓Dev.mask_foldl2]; done)
      | (intro d x; try dsimp only)
      | (split <;> try simp (decide := true) only [↓Dev.updPsel_mask, ↓Dev.mask_foldl, ↓Dev.mask_foldl2])
      | (simp (decide := true) only [↓Dev.updPsel_mask, ↓Dev.mask_foldl, ↓Dev.mask_foldl2]))

theorem resyncComplete_mask {T : List Part} (hT : Part.within [.regs, .plane, .arms, .sliceU, .queues, .psels, .tsu, .cal, .twill, .host,
    .jersey, .mx, .fresh, .reports] T = true) (carrierBad : Bool) (d : Dev) (m : List Host.Cell) :
    (resyncComplete carrierBad d m).1.mask T = d.mask T := by
  refine Dev.mask_mono hT ?_
  unfold resyncComplete
  dsimp only
  repeat' (first | (simp (decide := true) only [↓Dev.complete_mask, ↓Dev.endAborted_mask, ↓Dev.abortResync_mask, ↓Dev.unfence_mask, ↓copyPlane_mask, ↓Dev.admitPlane_mask, ↓Dev.mask_set_plane]; done) | split)

theorem Dev.portRaise_mask {T : List Part} (hT : Part.within [.regs, .host, .jersey] T = true) (d : Dev) (p : Nat) (bits : List Nat) :
    (Dev.portRaise d p bits).mask T = d.mask T := by
  refine Dev.mask_mono hT ?_
  unfold Dev.portRaise; simp (decide := true) only [↓Dev.raiseAll_mask]

theorem Dev.trafficStop_mask {T : List Part} (hT : Part.within [.lanes, .ports] T = true) (d : Dev) (p : Nat) :
    (Dev.trafficStop d p).mask T = d.mask T := by
  refine Dev.mask_mono hT ?_
  unfold Dev.trafficStop
  try simp (decide := true) only [↓Dev.updLane_mask, ↓Dev.updPort_mask, ↓Dev.mask_foldl, ↓Dev.mask_foldl2]
  repeat' (first
      | done
      | with_reducible rfl
      | (with_reducible refine (Dev.mask_foldl ?_ _ _).trans ?_)
      | (with_reducible refine (Dev.mask_foldl2 ?_ _ _).trans ?_)
      | (simp (decide := true) only [↓Dev.updLane_mask, ↓Dev.updPort_mask, ↓Dev.mask_foldl, ↓Dev.mask_foldl2]; done)
      | (intro d x; try dsimp only)
      | (split <;> try simp (decide := true) only [↓Dev.updLane_mask, ↓Dev.updPort_mask, ↓Dev.mask_foldl, ↓Dev.mask_foldl2])
      | (simp (decide := true) only [↓Dev.updLane_mask, ↓Dev.updPort_mask, ↓Dev.mask_foldl, ↓Dev.mask_foldl2]))

theorem Dev.portLost_mask {T : List Part} (hT : Part.within [.regs, .lanes, .ports, .framers, .flexo, .oofCause, .points, .odus, .vc4s,
    .host, .jersey] T = true) (d : Dev) (p : Nat) (also_ : optParam (List Nat) []) :
    (Dev.portLost d p also_).mask T = d.mask T := by
  refine Dev.mask_mono hT ?_
  unfold Dev.portLost; simp (decide := true) only [↓Dev.updPort_mask, ↓Dev.framersStop_mask, ↓Dev.portRaise_mask, ↓Dev.trafficStop_mask]

theorem Dev.portRestart_mask {T : List Part} (hT : Part.within [.regs, .lanes, .ports, .framers, .flexo, .oofCause, .points, .odus, .vc4s,
    .host, .jersey] T = true) (d : Dev) (p cause : Nat) :
    (Dev.portRestart d p cause).mask T = d.mask T := by
  refine Dev.mask_mono hT ?_
  unfold Dev.portRestart
  repeat' (first | split | (simp (decide := true) only [↓Dev.updPort_mask, ↓Dev.framersStop_mask, ↓Dev.portRaise_mask, ↓Dev.trafficStop_mask]))

theorem Dev.portLaneLeft_mask {T : List Part} (hT : Part.within [.regs, .lanes, .ports, .framers, .flexo, .oofCause, .points, .odus, .vc4s,
    .host, .jersey] T = true) (d : Dev) (l : Nat) :
    (Dev.portLaneLeft d l).mask T = d.mask T := by
  refine Dev.mask_mono hT ?_
  unfold Dev.portLaneLeft
  repeat' (first | (simp (decide := true) only [↓Dev.updPort_mask, ↓Dev.portLost_mask]; done) | split)

theorem Dev.egressRestart_mask {T : List Part} (hT : Part.within [.lanes, .ports] T = true) (d : Dev) (p : Nat) :
    (Dev.egressRestart d p).mask T = d.mask T := by
  refine Dev.mask_mono hT ?_
  unfold Dev.egressRestart
  try simp (decide := true) only [↓Dev.updLane_mask, ↓Dev.updPort_mask, ↓Dev.mask_foldl, ↓Dev.mask_foldl2]
  repeat' (first
      | done
      | with_reducible rfl
      | (with_reducible refine (Dev.mask_foldl ?_ _ _).trans ?_)
      | (with_reducible refine (Dev.mask_foldl2 ?_ _ _).trans ?_)
      | (simp (decide := true) only [↓Dev.updLane_mask, ↓Dev.updPort_mask, ↓Dev.mask_foldl, ↓Dev.mask_foldl2]; done)
      | (intro d x; try dsimp only)
      | (split <;> try simp (decide := true) only [↓Dev.updLane_mask, ↓Dev.updPort_mask, ↓Dev.mask_foldl, ↓Dev.mask_foldl2])
      | (simp (decide := true) only [↓Dev.updLane_mask, ↓Dev.updPort_mask, ↓Dev.mask_foldl, ↓Dev.mask_foldl2]))

theorem Dev.portAligned_mask {T : List Part} (hT : Part.within [.regs, .lanes, .ports, .framers, .points, .host, .jersey] T = true) (d : Dev) (p
    skew : Nat) :
    (Dev.portAligned d p skew).mask T = d.mask T := by
  refine Dev.mask_mono hT ?_
  unfold Dev.portAligned
  repeat' (first | split | (simp (decide := true) only [↓Dev.updPort_mask, ↓Dev.refresh_mask, ↓Dev.framersGo_mask, ↓Dev.portRaise_mask, ↓Dev.egressRestart_mask, ↓Dev.mask_set_lanes, ↓Dev.mask_set_framers, ↓Dev.mask_set_fresh]))

theorem Dev.alignOne_mask {T : List Part} (hT : Part.within [.regs, .lanes, .ports, .framers, .points, .host, .jersey] T = true) (d : Dev)
    (p : Nat) :
    (Dev.alignOne d p).mask T = d.mask T := by
  refine Dev.mask_mono hT ?_
  unfold Dev.alignOne
  repeat' (first | (simp (decide := true) only [↓Dev.portAligned_mask]; done) | split)

theorem Dev.skewMeasured_mask {T : List Part} (hT : Part.within [.regs, .lanes, .ports, .framers, .flexo, .oofCause, .points, .odus, .vc4s,
    .host, .jersey] T = true) (d : Dev) (p skew : Nat) (order : Bool) :
    (Dev.skewMeasured d p skew order).mask T = d.mask T := by
  refine Dev.mask_mono hT ?_
  unfold Dev.skewMeasured
  repeat' (first | split | (simp (decide := true) only [↓Dev.updPort_mask, ↓Dev.portRaise_mask, ↓Dev.portLost_mask]))

theorem Dev.holdOn_mask {T : List Part} (hT : Part.within [.regs, .lanes, .ports, .framers, .flexo, .oofCause, .points, .odus, .vc4s, .host,
    .jersey] T = true) (d : Dev) (p : Nat) (f : Port → Port) :
    (Dev.holdOn d p f).mask T = d.mask T := by
  refine Dev.mask_mono hT ?_
  unfold Dev.holdOn
  repeat' (first | split | (simp (decide := true) only [↓Dev.updPort_mask, ↓Dev.framersStop_mask, ↓Dev.trafficStop_mask]))

theorem Dev.holdOff_mask {T : List Part} (hT : Part.within [.regs, .lanes, .ports, .framers, .flexo, .oofCause, .points, .groupCause, .odus,
    .vc4s, .host, .jersey] T = true) (d : Dev) (p : Nat) (f : Port → Port) :
    (Dev.holdOff d p f).mask T = d.mask T := by
  refine Dev.mask_mono hT ?_
  unfold Dev.holdOff
  repeat' (first | split | (simp (decide := true) only [↓Dev.updPort_mask, ↓Dev.settlePort_mask, ↓Dev.portRestart_mask, ↓Dev.alignOne_mask]))

theorem Dev.toAcquire_mask {T : List Part} (hT : Part.within [.lanes] T = true) (d : Dev) (l : Nat) :
    (Dev.toAcquire d l).mask T = d.mask T := by
  refine Dev.mask_mono hT ?_
  unfold Dev.toAcquire; simp (decide := true) only [↓Dev.updLane_mask]

theorem Dev.unlockLane_mask {T : List Part} (hT : Part.within [.regs, .lanes, .ports, .framers, .flexo, .oofCause, .points, .odus, .vc4s,
    .host, .jersey] T = true) (d : Dev) (l : Nat) (was : BState) :
    (Dev.unlockLane d l was).mask T = d.mask T := by
  refine Dev.mask_mono hT ?_
  unfold Dev.unlockLane
  repeat' (first | (simp (decide := true) only [↓Dev.portLaneLeft_mask]; done) | split)

theorem Dev.bringUp_mask {T : List Part} (hT : Part.within [.regs, .lanes, .ports, .framers, .flexo, .oofCause, .points, .odus, .vc4s, .host,
    .jersey] T = true) (d : Dev) (l : Nat) :
    (Dev.bringUp d l).mask T = d.mask T := by
  refine Dev.mask_mono hT ?_
  unfold Dev.bringUp; split <;> simp (decide := true) only [↓Dev.updLane_mask, ↓Dev.toAcquire_mask, ↓Dev.unlockLane_mask, ↓Dev.mask_set_cal]

theorem Dev.laneOff_mask {T : List Part} (hT : Part.within [.regs, .lanes, .ports, .framers, .flexo, .oofCause, .points, .odus, .vc4s, .host,
    .jersey] T = true) (d : Dev) (l : Nat) :
    (Dev.laneOff d l).mask T = d.mask T := by
  refine Dev.mask_mono hT ?_
  unfold Dev.laneOff; simp (decide := true) only [↓Dev.updLane_mask, ↓Dev.unlockLane_mask]

theorem Dev.laneCalDone_mask {T : List Part} (hT : Part.within [.lanes] T = true) (d : Dev) (l : Nat) (offsets : BitVec 32) :
    (Dev.laneCalDone d l offsets).mask T = d.mask T := by
  refine Dev.mask_mono hT ?_
  unfold Dev.laneCalDone; split <;> simp (decide := true) only [↓Dev.updLane_mask, ↓Dev.toAcquire_mask, ↓Dev.mask_set_cal]

theorem Dev.laneCalAborted_mask {T : List Part} (hT : Part.within [.regs, .lanes, .host, .jersey] T = true) (d : Dev) (l : Nat) :
    (Dev.laneCalAborted d l).mask T = d.mask T := by
  refine Dev.mask_mono hT ?_
  unfold Dev.laneCalAborted; split <;> simp (decide := true) only [↓Dev.raise_mask, ↓Dev.updLane_mask, ↓Dev.toAcquire_mask, ↓Dev.mask_set_cal]

theorem Dev.acqRetries_mask {T : List Part} (hT : Part.within [.regs, .lanes] T = true) (d : Dev) (l : Nat) :
    (Dev.acqRetries d l).mask T = d.mask T := by
  refine Dev.mask_mono hT ?_
  unfold Dev.acqRetries; split <;> simp (decide := true) only [↓Dev.count32_mask, ↓Dev.toAcquire_mask]

theorem Dev.laneLocks_mask {T : List Part} (hT : Part.within [.regs, .lanes, .ports, .framers, .points, .host, .jersey] T = true) (d : Dev)
    (l : Nat) :
    (Dev.laneLocks d l).mask T = d.mask T := by
  refine Dev.mask_mono hT ?_
  unfold Dev.laneLocks
  repeat' (first | split | (simp (decide := true) only [↓Dev.raise_mask, ↓Dev.updLane_mask, ↓Dev.updPort_mask, ↓Dev.alignOne_mask]))

theorem Dev.laneNoWait_mask {T : List Part} (hT : Part.within [.regs, .lanes, .ports, .framers, .points, .host, .jersey] T = true) (d : Dev)
    (l : Nat) :
    (Dev.laneNoWait d l).mask T = d.mask T := by
  refine Dev.mask_mono hT ?_
  unfold Dev.laneNoWait
  repeat' (first | (simp (decide := true) only [↓Dev.laneLocks_mask]; done) | split)

theorem Dev.laneAcquires_mask {T : List Part} (hT : Part.within [.regs, .lanes, .ports, .framers, .points, .host, .jersey] T = true) (d :
    Dev) (l : Nat) (ppm : Int) :
    (Dev.laneAcquires d l ppm).mask T = d.mask T := by
  refine Dev.mask_mono hT ?_
  unfold Dev.laneAcquires
  repeat' (first | (simp (decide := true) only [↓Dev.updLane_mask, ↓Dev.laneNoWait_mask]; done) | split)

theorem Dev.laneCdrGone_mask {T : List Part} (hT : Part.within [.lanes] T = true) (d : Dev) (l : Nat) :
    (Dev.laneCdrGone d l).mask T = d.mask T := by
  refine Dev.mask_mono hT ?_
  unfold Dev.laneCdrGone; split <;> simp (decide := true) only [↓Dev.toAcquire_mask]

theorem Dev.laneLoses_mask {T : List Part} (hT : Part.within [.regs, .lanes, .ports, .framers, .flexo, .oofCause, .points, .odus, .vc4s,
    .host, .jersey] T = true) (d : Dev) (l : Nat) (cdr : Bool) :
    (Dev.laneLoses d l cdr).mask T = d.mask T := by
  refine Dev.mask_mono hT ?_
  unfold Dev.laneLoses
  repeat' (first | (simp (decide := true) only [↓Dev.raise_mask, ↓Dev.updLane_mask, ↓Dev.portLaneLeft_mask, ↓Dev.toAcquire_mask]; done) | split)

theorem Dev.portDisable_mask {T : List Part} (hT : Part.within [.regs, .plane, .lanes, .ports, .framers, .flexo, .oofCause, .points, .psels,
    .pkt, .host, .jersey] T = true) (d : Dev) (p : Nat) :
    (Dev.portDisable d p).mask T = d.mask T := by
  refine Dev.mask_mono hT ?_
  unfold Dev.portDisable
  try simp (decide := true) only [↓Dev.updLane_mask, ↓Dev.updPort_mask, ↓Dev.frHold_mask, ↓Dev.refresh_mask, ↓Dev.expose_mask, ↓Dev.laneNoWait_mask, ↓Dev.mask_set_framers_flexo_oofCause_psels_pkt, ↓Dev.mask_foldl, ↓Dev.mask_foldl2]
  repeat' (first
      | done
      | with_reducible rfl
      | (with_reducible refine (Dev.mask_foldl ?_ _ _).trans ?_)
      | (with_reducible refine (Dev.mask_foldl2 ?_ _ _).trans ?_)
      | (simp (decide := true) only [↓Dev.updLane_mask, ↓Dev.updPort_mask, ↓Dev.frHold_mask, ↓Dev.refresh_mask, ↓Dev.expose_mask, ↓Dev.laneNoWait_mask, ↓Dev.mask_set_framers_flexo_oofCause_psels_pkt, ↓Dev.mask_foldl, ↓Dev.mask_foldl2]; done)
      | (intro d x; try dsimp only)
      | (split <;> try simp (decide := true) only [↓Dev.updLane_mask, ↓Dev.updPort_mask, ↓Dev.frHold_mask, ↓Dev.refresh_mask, ↓Dev.expose_mask, ↓Dev.laneNoWait_mask, ↓Dev.mask_set_framers_flexo_oofCause_psels_pkt, ↓Dev.mask_foldl, ↓Dev.mask_foldl2])
      | (simp (decide := true) only [↓Dev.updLane_mask, ↓Dev.updPort_mask, ↓Dev.frHold_mask, ↓Dev.refresh_mask, ↓Dev.expose_mask, ↓Dev.laneNoWait_mask, ↓Dev.mask_set_framers_flexo_oofCause_psels_pkt, ↓Dev.mask_foldl, ↓Dev.mask_foldl2]))

theorem Dev.portApply_mask {T : List Part} (hT : Part.within [.regs, .plane, .lanes, .ports, .framers, .flexo, .oofCause, .points,
    .groupCause, .odus, .vc4s, .psels, .host, .jersey] T = true) (d : Dev) (c : Desc) (p : Nat) :
    (Dev.portApply d c p).mask T = d.mask T := by
  refine Dev.mask_mono hT ?_
  unfold Dev.portApply
  try simp (decide := true) only [↓Dev.emit_mask, ↓Dev.updPort_mask, ↓Dev.updFramer_mask, ↓Dev.frHold_mask, ↓Dev.settlePort_mask, ↓Dev.frTouch_mask, ↓Dev.expose_mask, ↓Dev.portRestart_mask, ↓Dev.egressRestart_mask, ↓Dev.alignOne_mask, ↓Dev.laneNoWait_mask, ↓Dev.mask_set_psels, ↓Dev.mask_set_framers, ↓Dev.mask_foldl, ↓Dev.mask_foldl2]
  repeat' (first
      | done
      | with_reducible rfl
      | (with_reducible refine (Dev.mask_foldl ?_ _ _).trans ?_)
      | (with_reducible refine (Dev.mask_foldl2 ?_ _ _).trans ?_)
      | (simp (decide := true) only [↓Dev.emit_mask, ↓Dev.updPort_mask, ↓Dev.updFramer_mask, ↓Dev.frHold_mask, ↓Dev.settlePort_mask, ↓Dev.frTouch_mask, ↓Dev.expose_mask, ↓Dev.portRestart_mask, ↓Dev.egressRestart_mask, ↓Dev.alignOne_mask, ↓Dev.laneNoWait_mask, ↓Dev.mask_set_psels, ↓Dev.mask_set_framers, ↓Dev.mask_foldl, ↓Dev.mask_foldl2]; done)
      | (intro d x; try dsimp only)
      | (split <;> try simp (decide := true) only [↓Dev.emit_mask, ↓Dev.updPort_mask, ↓Dev.updFramer_mask, ↓Dev.frHold_mask, ↓Dev.settlePort_mask, ↓Dev.frTouch_mask, ↓Dev.expose_mask, ↓Dev.portRestart_mask, ↓Dev.egressRestart_mask, ↓Dev.alignOne_mask, ↓Dev.laneNoWait_mask, ↓Dev.mask_set_psels, ↓Dev.mask_set_framers, ↓Dev.mask_foldl, ↓Dev.mask_foldl2])
      | (simp (decide := true) only [↓Dev.emit_mask, ↓Dev.updPort_mask, ↓Dev.updFramer_mask, ↓Dev.frHold_mask, ↓Dev.settlePort_mask, ↓Dev.frTouch_mask, ↓Dev.expose_mask, ↓Dev.portRestart_mask, ↓Dev.egressRestart_mask, ↓Dev.alignOne_mask, ↓Dev.laneNoWait_mask, ↓Dev.mask_set_psels, ↓Dev.mask_set_framers, ↓Dev.mask_foldl, ↓Dev.mask_foldl2]))

theorem Dev.oduPost_mask {T : List Part} (hT : Part.within [.regs, .odus, .host, .jersey] T = true) (d : Dev) (o code : Nat) :
    (Dev.oduPost d o code).mask T = d.mask T := by
  refine Dev.mask_mono hT ?_
  unfold Dev.oduPost
  repeat' (first | (simp (decide := true) only [↓Dev.post_mask, ↓Dev.updOdu_mask]; done) | split)

theorem Dev.loPost_mask {T : List Part} (hT : Part.within [.regs, .los, .host, .jersey] T = true) (d : Dev) (e code : Nat) :
    (Dev.loPost d e code).mask T = d.mask T := by
  refine Dev.mask_mono hT ?_
  unfold Dev.loPost; split <;> simp (decide := true) only [↓Dev.post_mask, ↓Dev.updLo_mask]

theorem Dev.oduAlarm_mask {T : List Part} (hT : Part.within [.regs, .odus, .host, .jersey] T = true) (d : Dev) (o : Nat) :
    (Dev.oduAlarm d o).mask T = d.mask T := by
  refine Dev.mask_mono hT ?_
  unfold Dev.oduAlarm
  repeat' (first | (simp (decide := true) only [↓Dev.updOdu_mask, ↓Dev.oduPost_mask]; done) | split)

theorem Dev.loAlarm_mask {T : List Part} (hT : Part.within [.regs, .los, .host, .jersey] T = true) (d : Dev) (e : Nat) :
    (Dev.loAlarm d e).mask T = d.mask T := by
  refine Dev.mask_mono hT ?_
  unfold Dev.loAlarm
  repeat' (first | split | (simp (decide := true) only [↓Dev.updLo_mask, ↓Dev.loPost_mask]))

theorem rateAlarmClear_mask {T : List Part} (hT : Part.within [.regs, .odus, .los, .host, .jersey] T = true) (odu : Bool) (n : Nat) (d : Dev) :
    (rateAlarmClear odu n d).mask T = d.mask T := by
  refine Dev.mask_mono hT ?_
  unfold rateAlarmClear
  repeat' (first | split | (simp (decide := true) only [↓Dev.updOdu_mask, ↓Dev.updLo_mask, ↓Dev.oduPost_mask, ↓Dev.loPost_mask]))

theorem Dev.reslot_mask {T : List Part} (hT : Part.within [.xc, .host] T = true) (d : Dev) :
    (Dev.reslot d).mask T = d.mask T := by
  refine Dev.mask_mono hT ?_
  unfold Dev.reslot
  try simp (decide := true) only [↓Dev.ownSlots_mask, ↓Dev.mask_foldl, ↓Dev.mask_foldl2]
  repeat' (first
      | done
      | with_reducible rfl
      | (with_reducible refine (Dev.mask_foldl ?_ _ _).trans ?_)
      | (with_reducible refine (Dev.mask_foldl2 ?_ _ _).trans ?_)
      | (simp (decide := true) only [↓Dev.ownSlots_mask, ↓Dev.mask_foldl, ↓Dev.mask_foldl2]; done)
      | (intro d x; try dsimp only)
      | (split <;> try simp (decide := true) only [↓Dev.ownSlots_mask, ↓Dev.mask_foldl, ↓Dev.mask_foldl2])
      | (simp (decide := true) only [↓Dev.ownSlots_mask, ↓Dev.mask_foldl, ↓Dev.mask_foldl2]))

theorem Dev.sendOpu_mask {T : List Part} (hT : Part.within [.host] T = true) (d : Dev) (o : Nat) :
    (Dev.sendOpu d o).mask T = d.mask T := by
  refine Dev.mask_mono hT ?_
  unfold Dev.sendOpu
  repeat' (first | (simp (decide := true) only [↓Dev.emit_mask]; done) | split)

theorem Dev.withOdu_mask {T : List Part} (hT : Part.within [.odus, .xc, .host] T = true) (d : Dev) (o : Nat) (make : Option Odu) :
    (Dev.withOdu d o make).mask T = d.mask T := by
  refine Dev.mask_mono hT ?_
  unfold Dev.withOdu
  repeat' (first | (simp (decide := true) only [↓Dev.setOdu_mask, ↓Dev.ownSlots_mask, ↓Dev.reslot_mask]; done) | split)

theorem Dev.mapApply_mask {T : List Part} (hT : Part.within [.odus, .xc, .host] T = true) (d : Dev) (o : Nat) (make : Option Odu) :
    (Dev.mapApply d o make).mask T = d.mask T := by
  refine Dev.mask_mono hT ?_
  unfold Dev.mapApply
  repeat' (first | split | (simp (decide := true) only [↓Dev.sendOpu_mask, ↓Dev.withOdu_mask]))

theorem Dev.sendVc4_mask {T : List Part} (hT : Part.within [.host] T = true) (d : Dev) (v : Nat) :
    (Dev.sendVc4 d v).mask T = d.mask T := by
  refine Dev.mask_mono hT ?_
  unfold Dev.sendVc4
  repeat' (first | (simp (decide := true) only [↓Dev.sendPositions_mask]; done) | split)

theorem Dev.sendInput_mask {T : List Part} (hT : Part.within [.host] T = true) (d : Dev) (e was : Nat) :
    (Dev.sendInput d e was).mask T = d.mask T := by
  refine Dev.mask_mono hT ?_
  unfold Dev.sendInput
  repeat' (first | split | (simp (decide := true) only [↓Dev.emit_mask]))

theorem mapTakesEffect_mask {T : List Part} (hT : Part.within [.regs, .plane, .points, .odus, .mapJobs, .xc, .host, .jersey] T = true) (o mf
    : Nat) (d : Dev) :
    (mapTakesEffect o mf d).mask T = d.mask T := by
  refine Dev.mask_mono hT ?_
  unfold mapTakesEffect
  try simp (decide := true) only [↓Dev.complete_mask, ↓Dev.refresh_mask, ↓Dev.expose_mask, ↓Dev.mapApply_mask, ↓Dev.mask_set_mapJobs, ↓Dev.mask_foldl, ↓Dev.mask_foldl2]
  repeat' (first
      | done
      | with_reducible rfl
      | (with_reducible refine (Dev.mask_foldl ?_ _ _).trans ?_)
      | (with_reducible refine (Dev.mask_foldl2 ?_ _ _).trans ?_)
      | (simp (decide := true) only [↓Dev.complete_mask, ↓Dev.refresh_mask, ↓Dev.expose_mask, ↓Dev.mapApply_mask, ↓Dev.mask_set_mapJobs, ↓Dev.mask_foldl, ↓Dev.mask_foldl2]; done)
      | (intro d x; try dsimp only)
      | (split <;> try simp (decide := true) only [↓Dev.complete_mask, ↓Dev.refresh_mask, ↓Dev.expose_mask, ↓Dev.mapApply_mask, ↓Dev.mask_set_mapJobs, ↓Dev.mask_foldl, ↓Dev.mask_foldl2])
      | (simp (decide := true) only [↓Dev.complete_mask, ↓Dev.refresh_mask, ↓Dev.expose_mask, ↓Dev.mapApply_mask, ↓Dev.mask_set_mapJobs, ↓Dev.mask_foldl, ↓Dev.mask_foldl2]))

theorem Dev.oduLimit_mask {T : List Part} (hT : Part.within [.regs, .odus, .host, .jersey] T = true) (d : Dev) (o discarded inserted : Nat)
    :
    (Dev.oduLimit d o discarded inserted).mask T = d.mask T := by
  refine Dev.mask_mono hT ?_
  unfold Dev.oduLimit
  repeat' (first | (simp (decide := true) only [↓Dev.emit_mask, ↓Dev.oduAlarm_mask]; done) | split)

theorem Dev.gmpMap_mask {T : List Part} (hT : Part.within [.regs, .odus, .host, .jersey] T = true) (d : Dev) (o : Nat) (x : Odu) (server n :
    Nat) :
    (Dev.gmpMap d o x server n).mask T = d.mask T := by
  refine Dev.mask_mono hT ?_
  unfold Dev.gmpMap; simp (decide := true) only [↓Dev.emit_mask, ↓Dev.updOdu_mask, ↓Dev.oduLimit_mask]

theorem Dev.gmpDemap_mask {T : List Part} (hT : Part.within [.regs, .odus, .host, .jersey] T = true) (d : Dev) (o : Nat) (x : Odu) (server :
    Nat) (jc : BitVec 48) :
    (Dev.gmpDemap d o x server jc).mask T = d.mask T := by
  refine Dev.mask_mono hT ?_
  unfold Dev.gmpDemap
  repeat' (first | split | (simp (decide := true) only [↓Dev.updOdu_mask, ↓Dev.oduPost_mask, ↓Dev.oduAlarm_mask]))

theorem gmpFrame_mask {T : List Part} (hT : Part.within [.regs, .odus, .host, .jersey] T = true) (o : Nat) (jc : BitVec 48) (bytes : Nat) (d
    : Dev) :
    (gmpFrame o jc bytes d).mask T = d.mask T := by
  refine Dev.mask_mono hT ?_
  unfold gmpFrame
  repeat' (first | (simp (decide := true) only [↓Dev.gmpMap_mask, ↓Dev.gmpDemap_mask]; done) | split)

theorem ampMap_mask {T : List Part} (hT : Part.within [.regs, .odus, .host, .jersey] T = true) (o : Nat) (acc : Int) (x : AmpFill) (d : Dev)
    :
    (ampMap o acc x d).mask T = d.mask T := by
  refine Dev.mask_mono hT ?_
  unfold ampMap
  repeat' (first | split | (simp (decide := true) only [↓Dev.emit_mask, ↓Dev.updOdu_mask, ↓Dev.oduAlarm_mask, ↓Dev.oduLimit_mask]))

theorem ampDemap_mask {T : List Part} (hT : Part.within [.odus, .host] T = true) (o : Nat) (jc : BitVec 2 × BitVec 2 × BitVec 2) (njo pjo :
    Byte) (d : Dev) :
    (ampDemap o jc njo pjo d).mask T = d.mask T := Dev.mask_mono hT rfl

theorem ampFrame_mask {T : List Part} (hT : Part.within [.regs, .odus, .host, .jersey] T = true) (o : Nat) (jc : BitVec 2 × BitVec 2 ×
    BitVec 2) (njo pjo : Byte) (fill : AmpFill) (d : Dev) :
    (ampFrame o jc njo pjo fill d).mask T = d.mask T := by
  refine Dev.mask_mono hT ?_
  unfold ampFrame
  repeat' (first | (simp (decide := true) only [↓ampMap_mask, ↓ampDemap_mask]; done) | split)

theorem Dev.desyncTo_mask {T : List Part} (hT : Part.within [.regs, .los, .host, .jersey] T = true) (d : Dev) (e : Nat) (f : Int) :
    (Dev.desyncTo d e f).mask T = d.mask T := by
  refine Dev.mask_mono hT ?_
  unfold Dev.desyncTo
  repeat' (first | (simp (decide := true) only [↓Dev.updLo_mask, ↓Dev.loPost_mask, ↓Dev.loAlarm_mask]; done) | split)

theorem pointerFrame_mask {T : List Part} (hT : Part.within [.regs, .points, .vc4s, .los, .host, .jersey] T = true) (x : PtrObj) (w : BitVec
    16) (others : List (BitVec 16)) (d : Dev) :
    (pointerFrame x w others d).mask T = d.mask T := by
  refine Dev.mask_mono hT ?_
  unfold pointerFrame
  repeat' (first | split | (simp (decide := true) only [↓Dev.updVc4_mask, ↓Dev.updLo_mask, ↓Dev.refresh_mask, ↓Dev.dropH4_mask, ↓Dev.desyncTo_mask]))

theorem pointerJustification_mask {T : List Part} (hT : Part.within [.vc4s, .los, .fresh] T = true) (x : PtrObj) (fill : Nat) (d : Dev) : Dev.mask
    T (pointerJustification x fill d) = d.mask T := by
  refine Dev.mask_mono hT ?_
  unfold pointerJustification
  try simp (decide := true) only [↓Dev.draw_mask, ↓Dev.updVc4_mask, ↓Dev.updLo_mask, ↓Dev.mask_foldl, ↓Dev.mask_foldl2]
  repeat' (first
      | done
      | with_reducible rfl
      | (with_reducible refine (Dev.mask_foldl ?_ _ _).trans ?_)
      | (with_reducible refine (Dev.mask_foldl2 ?_ _ _).trans ?_)
      | (simp (decide := true) only [↓Dev.draw_mask, ↓Dev.updVc4_mask, ↓Dev.updLo_mask, ↓Dev.mask_foldl, ↓Dev.mask_foldl2]; done)
      | (intro d x; try dsimp only)
      | (split <;> try simp (decide := true) only [↓Dev.draw_mask, ↓Dev.updVc4_mask, ↓Dev.updLo_mask, ↓Dev.mask_foldl, ↓Dev.mask_foldl2])
      | (simp (decide := true) only [↓Dev.draw_mask, ↓Dev.updVc4_mask, ↓Dev.updLo_mask, ↓Dev.mask_foldl, ↓Dev.mask_foldl2]))

theorem c12Map_mask {T : List Part} (hT : Part.within [.regs, .los, .host, .jersey] T = true) (e : Nat) (bits : List Bool) (d : Dev) :
    (c12Map e bits d).mask T = d.mask T := by
  refine Dev.mask_mono hT ?_
  unfold c12Map
  repeat' (first | split | (simp (decide := true) only [↓Dev.emit_mask, ↓Dev.updLo_mask, ↓Dev.loAlarm_mask]))

theorem c12Demap_mask {T : List Part} (hT : Part.within [.regs, .los, .host, .jersey] T = true) (e : Nat) (bytes : List Byte) (d : Dev) :
    (c12Demap e bytes d).mask T = d.mask T := by
  refine Dev.mask_mono hT ?_
  unfold c12Demap
  repeat' (first | split | (simp (decide := true) only [↓Dev.emit_mask, ↓Dev.updLo_mask, ↓Dev.loAlarm_mask, ↓Dev.desyncTo_mask]))

theorem Dev.funcSays_mask {T : List Part} (hT : Part.within [.regs, .queues, .host, .jersey, .fresh] T = true) (d : Dev) (k : Nat) :
    (Dev.funcSays d k).mask T = d.mask T := by
  refine Dev.mask_mono hT ?_
  unfold Dev.funcSays
  try simp (decide := true) only [↓Dev.draw_mask, ↓Dev.qPush_mask, ↓Dev.mask_foldl, ↓Dev.mask_foldl2]
  repeat' (first
      | done
      | with_reducible rfl
      | (with_reducible refine (Dev.mask_foldl ?_ _ _).trans ?_)
      | (with_reducible refine (Dev.mask_foldl2 ?_ _ _).trans ?_)
      | (simp (decide := true) only [↓Dev.draw_mask, ↓Dev.qPush_mask, ↓Dev.mask_foldl, ↓Dev.mask_foldl2]; done)
      | (intro d x; try dsimp only)
      | (split <;> try simp (decide := true) only [↓Dev.draw_mask, ↓Dev.qPush_mask, ↓Dev.mask_foldl, ↓Dev.mask_foldl2])
      | (simp (decide := true) only [↓Dev.draw_mask, ↓Dev.qPush_mask, ↓Dev.mask_foldl, ↓Dev.mask_foldl2]))

theorem Dev.closeBin_mask {T : List Part} (hT : Part.within [.regs, .queues, .points, .host, .jersey, .fresh] T = true) (d : Dev) (k : Nat)
    (day : Bool) :
    (Dev.closeBin d k day).mask T = d.mask T := by
  refine Dev.mask_mono hT ?_
  unfold Dev.closeBin
  repeat' (first | split | (simp (decide := true) only [↓Dev.stat_mask, ↓Dev.updPoint_mask, ↓Dev.funcSays_mask]))

theorem Dev.binSecond_mask {T : List Part} (hT : Part.within [.regs, .queues, .points, .host, .jersey, .fresh] T = true) (d : Dev) (k : Nat)
    (r : SecRes) :
    (Dev.binSecond d k r).mask T = d.mask T := by
  refine Dev.mask_mono hT ?_
  unfold Dev.binSecond
  try simp (decide := true) only [↓Dev.post_mask, ↓Dev.updPoint_mask, ↓Dev.funcSays_mask, ↓Dev.mask_foldl, ↓Dev.mask_foldl2]
  repeat' (first
      | done
      | with_reducible rfl
      | (with_reducible refine (Dev.mask_foldl ?_ _ _).trans ?_)
      | (with_reducible refine (Dev.mask_foldl2 ?_ _ _).trans ?_)
      | (simp (decide := true) only [↓Dev.post_mask, ↓Dev.updPoint_mask, ↓Dev.funcSays_mask, ↓Dev.mask_foldl, ↓Dev.mask_foldl2]; done)
      | (intro d x; try dsimp only)
      | (split <;> try simp (decide := true) only [↓Dev.post_mask, ↓Dev.updPoint_mask, ↓Dev.funcSays_mask, ↓Dev.mask_foldl, ↓Dev.mask_foldl2])
      | (simp (decide := true) only [↓Dev.post_mask, ↓Dev.updPoint_mask, ↓Dev.funcSays_mask, ↓Dev.mask_foldl, ↓Dev.mask_foldl2]))

theorem Dev.rollPoint_mask {T : List Part} (hT : Part.within [.points] T = true) (d : Dev) (k : Nat) :
    (Dev.rollPoint d k).mask T = d.mask T := Dev.mask_mono hT rfl

theorem Dev.pmTake_mask {T : List Part} (hT : Part.within [.points] T = true) (d : Dev) (k : Nat) :
    (Dev.pmTake d k).mask T = d.mask T := by
  refine Dev.mask_mono hT ?_
  unfold Dev.pmTake; simp (decide := true) only [↓Dev.updPoint_mask]

theorem Dev.pmLost_mask {T : List Part} (hT : Part.within [.points] T = true) (d : Dev) (k : Nat) :
    (Dev.pmLost d k).mask T = d.mask T := Dev.mask_mono hT rfl

theorem Dev.tapPoint_mask {T : List Part} (hT : Part.within [.regs, .queues, .twill, .host, .jersey, .fresh] T = true) (d : Dev) (k : Nat) :
    (Dev.tapPoint d k).2.mask T = d.mask T := by
  refine Dev.mask_mono hT ?_
  unfold Dev.tapPoint
  repeat' (first | (simp (decide := true) only [↓Dev.tapMessage_mask]; done) | split)

theorem Dev.pmPass_mask {T : List Part} (hT : Part.within [.regs, .queues, .points, .host, .jersey, .fresh] T = true) (d : Dev) (k : Nat) :
    (Dev.pmPass d k).mask T = d.mask T := by
  refine Dev.mask_mono hT ?_
  unfold Dev.pmPass
  repeat' (first | split | (simp (decide := true) only [↓Dev.updPoint_mask, ↓Dev.binSecond_mask]))

theorem Dev.pmSecond_mask {T : List Part} (hT : Part.within [.regs, .queues, .points, .twill, .host, .jersey, .fresh] T = true) (d : Dev) (k
    : Nat) :
    (Dev.pmSecond d k).mask T = d.mask T := by
  refine Dev.mask_mono hT ?_
  unfold Dev.pmSecond
  try simp (decide := true) only [↓Dev.updPoint_mask, ↓Dev.refresh_mask, ↓Dev.rollPoint_mask, ↓Dev.pmTake_mask, ↓Dev.pmLost_mask, ↓Dev.tapPoint_mask, ↓Dev.pmPass_mask, ↓Dev.mask_foldl, ↓Dev.mask_foldl2]
  repeat' (first
      | done
      | with_reducible rfl
      | (with_reducible refine (Dev.mask_foldl ?_ _ _).trans ?_)
      | (with_reducible refine (Dev.mask_foldl2 ?_ _ _).trans ?_)
      | (simp (decide := true) only [↓Dev.updPoint_mask, ↓Dev.refresh_mask, ↓Dev.rollPoint_mask, ↓Dev.pmTake_mask, ↓Dev.pmLost_mask, ↓Dev.tapPoint_mask, ↓Dev.pmPass_mask, ↓Dev.mask_foldl, ↓Dev.mask_foldl2]; done)
      | (intro d x; try dsimp only)
      | (split <;> try simp (decide := true) only [↓Dev.updPoint_mask, ↓Dev.refresh_mask, ↓Dev.rollPoint_mask, ↓Dev.pmTake_mask, ↓Dev.pmLost_mask, ↓Dev.tapPoint_mask, ↓Dev.pmPass_mask, ↓Dev.mask_foldl, ↓Dev.mask_foldl2])
      | (simp (decide := true) only [↓Dev.updPoint_mask, ↓Dev.refresh_mask, ↓Dev.rollPoint_mask, ↓Dev.pmTake_mask, ↓Dev.pmLost_mask, ↓Dev.tapPoint_mask, ↓Dev.pmPass_mask, ↓Dev.mask_foldl, ↓Dev.mask_foldl2]))

theorem Dev.pmClose_mask {T : List Part} (hT : Part.within [.regs, .queues, .points, .host, .jersey, .fresh] T = true) (d : Dev) (k : Nat)
    (day : Bool) :
    (Dev.pmClose d k day).mask T = d.mask T := by
  refine Dev.mask_mono hT ?_
  unfold Dev.pmClose
  repeat' (first | split | (simp (decide := true) only [↓Dev.closeBin_mask]))

theorem Dev.setDayOffset_mask {T : List Part} (hT : Part.within [.points, .dayOffset] T = true) (d : Dev) (off : Nat) :
    (Dev.setDayOffset d off).mask T = d.mask T := by
  refine Dev.mask_mono hT ?_
  unfold Dev.setDayOffset
  try simp (decide := true) only [↓Dev.updPoint_mask, ↓Dev.mask_set_dayOffset, ↓Dev.mask_foldl, ↓Dev.mask_foldl2]
  repeat' (first
      | done
      | with_reducible rfl
      | (with_reducible refine (Dev.mask_foldl ?_ _ _).trans ?_)
      | (with_reducible refine (Dev.mask_foldl2 ?_ _ _).trans ?_)
      | (simp (decide := true) only [↓Dev.updPoint_mask, ↓Dev.mask_set_dayOffset, ↓Dev.mask_foldl, ↓Dev.mask_foldl2]; done)
      | (intro d x; try dsimp only)
      | (split <;> try simp (decide := true) only [↓Dev.updPoint_mask, ↓Dev.mask_set_dayOffset, ↓Dev.mask_foldl, ↓Dev.mask_foldl2])
      | (simp (decide := true) only [↓Dev.updPoint_mask, ↓Dev.mask_set_dayOffset, ↓Dev.mask_foldl, ↓Dev.mask_foldl2]))

theorem Dev.acceptedRecs_mask {T : List Part} (hT : Part.within [.regs, .queues, .host, .jersey, .fresh] T = true) (d : Dev) (k : Nat) :
    (Dev.acceptedRecs d k).mask T = d.mask T := by
  refine Dev.mask_mono hT ?_
  unfold Dev.acceptedRecs; simp (decide := true) only [↓Dev.stat_mask, ↓Dev.funcSays_mask]

theorem Dev.takeTti_mask {T : List Part} (hT : Part.within [.regs, .queues, .points, .host, .jersey, .fresh] T = true) (d : Dev) (k : Nat)
    (bs : List Byte) (crcOk : Bool) :
    (Dev.takeTti d k bs crcOk).mask T = d.mask T := by
  refine Dev.mask_mono hT ?_
  unfold Dev.takeTti
  repeat' (first | split | (simp (decide := true) only [↓Dev.post_mask, ↓Dev.updPoint_mask, ↓Dev.acceptedRecs_mask]))

theorem Dev.takePt_mask {T : List Part} (hT : Part.within [.regs, .queues, .points, .host, .jersey, .fresh] T = true) (d : Dev) (k v : Nat)
    :
    (Dev.takePt d k v).mask T = d.mask T := by
  refine Dev.mask_mono hT ?_
  unfold Dev.takePt
  repeat' (first | split | (simp (decide := true) only [↓Dev.post_mask, ↓Dev.updPoint_mask, ↓Dev.acceptedRecs_mask]))

theorem Dev.takeMsi_mask {T : List Part} (hT : Part.within [.points] T = true) (d : Dev) (k : Nat) (v : List Nat) :
    (Dev.takeMsi d k v).mask T = d.mask T := by
  refine Dev.mask_mono hT ?_
  unfold Dev.takeMsi; simp (decide := true) only [↓Dev.updPoint_mask]

theorem Dev.takeStat_mask {T : List Part} (hT : Part.within [.points] T = true) (d : Dev) (k v : Nat) :
    (Dev.takeStat d k v).mask T = d.mask T := by
  refine Dev.mask_mono hT ?_
  unfold Dev.takeStat; simp (decide := true) only [↓Dev.updPoint_mask]

theorem Dev.engineFrame_mask {T : List Part} (hT : Part.within [.regs, .queues, .points, .host, .jersey, .fresh] T = true) (d : Dev) (k :
    Nat) (f : OhFrame) :
    (Dev.engineFrame d k f).mask T = d.mask T := by
  refine Dev.mask_mono hT ?_
  unfold Dev.engineFrame
  repeat' (first | split | (simp (decide := true) only [↓Dev.takeTti_mask, ↓Dev.takePt_mask, ↓Dev.takeMsi_mask]))

theorem Dev.funcWrites_mask {T : List Part} (hT : Part.within [.points] T = true) (d : Dev) (k : Nat) :
    (Dev.funcWrites d k).mask T = d.mask T := by
  refine Dev.mask_mono hT ?_
  unfold Dev.funcWrites
  repeat' (first | (simp (decide := true) only [↓Dev.updPoint_mask]; done) | split)

theorem Dev.sendBack_mask {T : List Part} (hT : Part.within [.points, .host] T = true) (d : Dev) (k : Nat) (f : OhFrame) :
    (Dev.sendBack d k f).mask T = d.mask T := by
  refine Dev.mask_mono hT ?_
  unfold Dev.sendBack
  repeat' (first | (simp (decide := true) only [↓Dev.emit_mask, ↓Dev.funcWrites_mask]; done) | split)

theorem Dev.hardFrame_mask {T : List Part} (hT : Part.within [.points] T = true) (d : Dev) (k : Nat) (f : OhFrame) :
    (Dev.hardFrame d k f).mask T = d.mask T := by
  refine Dev.mask_mono hT ?_
  unfold Dev.hardFrame
  repeat' (first | (simp (decide := true) only [↓Dev.updPoint_mask, ↓Dev.takeStat_mask]; done) | split)

theorem Dev.softFrame_mask {T : List Part} (hT : Part.within [.regs, .queues, .points, .twill, .host, .jersey, .fresh] T = true) (d : Dev)
    (k : Nat) (f : OhFrame) :
    (Dev.softFrame d k f).mask T = d.mask T := by
  refine Dev.mask_mono hT ?_
  unfold Dev.softFrame
  try simp (decide := true) only [↓Dev.updPoint_mask, ↓Dev.tapPoint_mask, ↓Dev.engineFrame_mask, ↓Dev.mask_foldl, ↓Dev.mask_foldl2]
  repeat' (first
      | done
      | with_reducible rfl
      | (with_reducible refine (Dev.mask_foldl ?_ _ _).trans ?_)
      | (with_reducible refine (Dev.mask_foldl2 ?_ _ _).trans ?_)
      | (simp (decide := true) only [↓Dev.updPoint_mask, ↓Dev.tapPoint_mask, ↓Dev.engineFrame_mask, ↓Dev.mask_foldl, ↓Dev.mask_foldl2]; done)
      | (intro d x; try dsimp only)
      | (split <;> try simp (decide := true) only [↓Dev.updPoint_mask, ↓Dev.tapPoint_mask, ↓Dev.engineFrame_mask, ↓Dev.mask_foldl, ↓Dev.mask_foldl2])
      | (simp (decide := true) only [↓Dev.updPoint_mask, ↓Dev.tapPoint_mask, ↓Dev.engineFrame_mask, ↓Dev.mask_foldl, ↓Dev.mask_foldl2]))

theorem Dev.overhead_mask {T : List Part} (hT : Part.within [.regs, .queues, .points, .twill, .host, .jersey, .fresh] T = true) (d : Dev) (k
    : Nat) (f : OhFrame) :
    (Dev.overhead d k f).mask T = d.mask T := by
  refine Dev.mask_mono hT ?_
  unfold Dev.overhead
  repeat' (first | split | (simp (decide := true) only [↓Dev.updPoint_mask, ↓Dev.maintStart_mask, ↓Dev.refresh_mask, ↓Dev.sendBack_mask, ↓Dev.hardFrame_mask, ↓Dev.softFrame_mask]))

theorem Dev.persists_mask {T : List Part} (hT : Part.within [.regs, .points, .host, .jersey] T = true) (d : Dev) (k bit : Nat) :
    (Dev.persists d k bit).mask T = d.mask T := by
  refine Dev.mask_mono hT ?_
  unfold Dev.persists
  repeat' (first | (simp (decide := true) only [↓Dev.updPoint_mask, ↓Dev.refresh_mask, ↓Dev.mask_set_fresh]; done) | split)

theorem Dev.setDone_mask {T : List Part} (hT : Part.within [.regs, .queues, .points, .host, .jersey, .fresh] T = true) (d : Dev) (k bit :
    Nat) :
    (Dev.setDone d k bit).mask T = d.mask T := by
  refine Dev.mask_mono hT ?_
  unfold Dev.setDone
  repeat' (first | split | (simp (decide := true) only [↓Dev.declare_mask, ↓Dev.funcSays_mask]))

theorem Dev.clrDone_mask {T : List Part} (hT : Part.within [.regs, .queues, .points, .host, .jersey, .fresh] T = true) (d : Dev) (k bit :
    Nat) :
    (Dev.clrDone d k bit).mask T = d.mask T := by
  refine Dev.mask_mono hT ?_
  unfold Dev.clrDone
  repeat' (first | split | (simp (decide := true) only [↓Dev.declare_mask, ↓Dev.funcSays_mask]))

theorem Dev.recovers_mask {T : List Part} (hT : Part.within [.regs, .queues, .points, .groupCause, .host, .jersey, .fresh] T = true) (d :
    Dev) (k : Nat) :
    (Dev.recovers d k).mask T = d.mask T := by
  refine Dev.mask_mono hT ?_
  unfold Dev.recovers
  repeat' (first | split | (simp (decide := true) only [↓Dev.post_mask, ↓Dev.updPoint_mask, ↓Dev.declare_mask, ↓Dev.ungroup_mask, ↓Dev.funcSays_mask]))

theorem Dev.poolWatch_mask {T : List Part} (hT : Part.within [.regs, .host, .jersey] T = true) (d : Dev) (before : Int) :
    (Dev.poolWatch d before).mask T = d.mask T := by
  refine Dev.mask_mono hT ?_
  unfold Dev.poolWatch; split <;> simp (decide := true) only [↓Dev.raise_mask]

theorem Dev.tailDrop_mask {T : List Part} (hT : Part.within [.regs, .pkt, .host, .jersey] T = true) (d : Dev) (q : Nat) :
    (Dev.tailDrop d q).mask T = d.mask T := by
  refine Dev.mask_mono hT ?_
  unfold Dev.tailDrop; simp (decide := true) only [↓Dev.count_mask, ↓Dev.raise_mask, ↓Dev.updPq_mask]

theorem Dev.admit_mask {T : List Part} (hT : Part.within [.regs, .pkt, .host, .jersey] T = true) (d : Dev) (q : Nat) (f : PFrame) :
    (Dev.admitFrame d q f).mask T = d.mask T := by
  refine Dev.mask_mono hT ?_
  unfold Dev.admitFrame
  repeat' (first | (simp (decide := true) only [↓Dev.updPq_mask, ↓Dev.tailDrop_mask]; done) | split)

theorem Dev.withoutBehind_mask {T : List Part} (hT : Part.within [.pkt] T = true) (d : Dev) (key : Nat) :
    (Dev.withoutBehind d key).mask T = d.mask T := by
  refine Dev.mask_mono hT ?_
  unfold Dev.withoutBehind
  try simp (decide := true) only [↓Dev.updPq_mask, ↓Dev.mask_foldl, ↓Dev.mask_foldl2]
  repeat' (first
      | done
      | with_reducible rfl
      | (with_reducible refine (Dev.mask_foldl ?_ _ _).trans ?_)
      | (with_reducible refine (Dev.mask_foldl2 ?_ _ _).trans ?_)
      | (simp (decide := true) only [↓Dev.updPq_mask, ↓Dev.mask_foldl, ↓Dev.mask_foldl2]; done)
      | (intro d x; try dsimp only)
      | (split <;> try simp (decide := true) only [↓Dev.updPq_mask, ↓Dev.mask_foldl, ↓Dev.mask_foldl2])
      | (simp (decide := true) only [↓Dev.updPq_mask, ↓Dev.mask_foldl, ↓Dev.mask_foldl2]))

theorem Dev.offer_mask {T : List Part} (hT : Part.within [.regs, .pkt, .host, .jersey] T = true) (d : Dev) (q : Nat) (bytes : List Byte)
    (bad : List Nat) (slice : Option Nat) (key : Nat) (mem : List Host.Cell) :
    (Dev.offer d q bytes bad slice key mem).1.mask T = d.mask T := by
  refine Dev.mask_mono hT ?_
  unfold Dev.offer
  try simp (decide := true) only [↓Dev.poolWatch_mask, ↓Dev.admit_mask, ↓Dev.withoutBehind_mask, ↓Dev.mask_foldl, ↓Dev.mask_foldl2]
  repeat' (first
      | done
      | with_reducible rfl
      | (with_reducible refine (Dev.mask_foldl ?_ _ _).trans ?_)
      | (with_reducible refine (Dev.mask_foldl2 ?_ _ _).trans ?_)
      | (simp (decide := true) only [↓Dev.poolWatch_mask, ↓Dev.admit_mask, ↓Dev.withoutBehind_mask, ↓Dev.mask_foldl, ↓Dev.mask_foldl2]; done)
      | (intro d x; try dsimp only)
      | (split <;> try simp (decide := true) only [↓Dev.poolWatch_mask, ↓Dev.admit_mask, ↓Dev.withoutBehind_mask, ↓Dev.mask_foldl, ↓Dev.mask_foldl2])
      | (simp (decide := true) only [↓Dev.poolWatch_mask, ↓Dev.admit_mask, ↓Dev.withoutBehind_mask, ↓Dev.mask_foldl, ↓Dev.mask_foldl2]))

theorem Dev.police_mask {T : List Part} (hT : Part.within [.regs, .pkt] T = true) (d : Dev) (n : Nat) :
    (Dev.police d n).2.mask T = d.mask T := by
  refine Dev.mask_mono hT ?_
  unfold Dev.police
  repeat' (first | split | (simp (decide := true) only [↓Dev.count32_mask, ↓Dev.updPolicer_mask]))

theorem shaperUpdate_mask {T : List Part} (hT : Part.within [.pkt] T = true) (d : Dev) : Dev.mask T (shaperUpdate d) = d.mask T := by
  refine Dev.mask_mono hT ?_
  unfold shaperUpdate
  try simp (decide := true) only [↓Dev.updShaper_mask, ↓Dev.updPolicer_mask, ↓Dev.mask_foldl, ↓Dev.mask_foldl2, ↓Dev.mask_set_pkt]
  repeat' (first
      | done
      | with_reducible rfl
      | (with_reducible refine (Dev.mask_foldl ?_ _ _).trans ?_)
      | (with_reducible refine (Dev.mask_foldl2 ?_ _ _).trans ?_)
      | (simp (decide := true) only [↓Dev.updShaper_mask, ↓Dev.updPolicer_mask, ↓Dev.mask_foldl, ↓Dev.mask_foldl2, ↓Dev.mask_set_pkt]; done)
      | (intro d x; try dsimp only)
      | (split <;> try simp (decide := true) only [↓Dev.updShaper_mask, ↓Dev.updPolicer_mask, ↓Dev.mask_foldl, ↓Dev.mask_foldl2, ↓Dev.mask_set_pkt])
      | (simp (decide := true) only [↓Dev.updShaper_mask, ↓Dev.updPolicer_mask, ↓Dev.mask_foldl, ↓Dev.mask_foldl2, ↓Dev.mask_set_pkt]))

theorem gateCycle_mask {T : List Part} (hT : Part.within [.pkt] T = true) (n : Nat) (d : Dev) :
    (gateCycle n d).mask T = d.mask T := by
  refine Dev.mask_mono hT ?_
  unfold gateCycle
  try simp (decide := true) only [↓Dev.updSch_mask, ↓Dev.mask_set_pkt, ↓Dev.mask_foldl, ↓Dev.mask_foldl2]
  repeat' (first
      | done
      | with_reducible rfl
      | (with_reducible refine (Dev.mask_foldl ?_ _ _).trans ?_)
      | (with_reducible refine (Dev.mask_foldl2 ?_ _ _).trans ?_)
      | (simp (decide := true) only [↓Dev.updSch_mask, ↓Dev.mask_set_pkt, ↓Dev.mask_foldl, ↓Dev.mask_foldl2]; done)
      | (intro d x; try dsimp only)
      | (split <;> try simp (decide := true) only [↓Dev.updSch_mask, ↓Dev.mask_set_pkt, ↓Dev.mask_foldl, ↓Dev.mask_foldl2])
      | (simp (decide := true) only [↓Dev.updSch_mask, ↓Dev.mask_set_pkt, ↓Dev.mask_foldl, ↓Dev.mask_foldl2]))

theorem Dev.dropOversize_mask {T : List Part} (hT : Part.within [.regs, .pkt, .host, .jersey] T = true) (m q : Nat) (n : Nat) (d : Dev) :
    (Dev.dropOversize m q n d).mask T = d.mask T := by
  refine Dev.mask_mono hT ?_
  induction n generalizing d with
  | zero => rfl
  | succ n ih =>
    unfold Dev.dropOversize
    dsimp only
    split
    · split
      · refine (ih _).trans ?_
        exact (Dev.raise_mask (by decide) _ _ _ _ _).trans ((Dev.count_mask (by decide) _ _ _ _ _).trans (Dev.updPq_mask (by decide) _ _ _))
      · rfl
    · rfl

theorem Dev.charge_mask {T : List Part} (hT : Part.within [.pkt] T = true) (d : Dev) (key : Nat) :
    (Dev.charge d key).mask T = d.mask T := by
  refine Dev.mask_mono hT ?_
  unfold Dev.charge; simp (decide := true) only [↓Dev.updShaper_mask]

theorem Dev.gfpSend_mask {T : List Part} (hT : Part.within [.odus, .host] T = true) (d : Dev) (n : Nat) (frame : List Byte) (bad : List Nat)
    :
    (Dev.gfpSend d n frame bad).mask T = d.mask T := by
  refine Dev.mask_mono hT ?_
  unfold Dev.gfpSend
  repeat' (first | (simp (decide := true) only [↓Dev.emit_mask, ↓Dev.updOdu_mask]; done) | split)

theorem Dev.gfpIdle_mask {T : List Part} (hT : Part.within [.host] T = true) (d : Dev) (n : Nat) :
    (Dev.gfpIdle d n).mask T = d.mask T := by
  refine Dev.mask_mono hT ?_
  unfold Dev.gfpIdle
  repeat' (first | (simp (decide := true) only [↓Dev.emit_mask]; done) | split)

theorem Dev.sendFrame_mask {T : List Part} (hT : Part.within [.regs, .plane, .arms, .sliceU, .queues, .odus, .psels, .pkt, .tsu, .cal,
    .twill, .host, .jersey, .mx, .fresh, .reports] T = true) (d : Dev) (n s v : Nat) (borrowed : Bool) (mem : List Host.Cell) :
    (Dev.sendFrame d n s v borrowed mem).1.mask T = d.mask T := by
  refine Dev.mask_mono hT ?_
  unfold Dev.sendFrame
  repeat' (first | split | (simp (decide := true) only [↓Dev.count32_mask, ↓Dev.emit_mask, ↓Dev.updPq_mask, ↓Dev.updSch_mask, ↓readBytes_mask, ↓Dev.charge_mask, ↓Dev.gfpSend_mask]))

theorem Dev.dropAll_mask {T : List Part} (hT : Part.within [.regs, .pkt, .host, .jersey] T = true) (d : Dev) (n : Nat) :
    (Dev.dropAll d n).mask T = d.mask T := by
  refine Dev.mask_mono hT ?_
  unfold Dev.dropAll
  try simp (decide := true) only [↓Dev.dropOversize_mask, ↓Dev.mask_foldl, ↓Dev.mask_foldl2]
  repeat' (first
      | done
      | with_reducible rfl
      | (with_reducible refine (Dev.mask_foldl ?_ _ _).trans ?_)
      | (with_reducible refine (Dev.mask_foldl2 ?_ _ _).trans ?_)
      | (simp (decide := true) only [↓Dev.dropOversize_mask, ↓Dev.mask_foldl, ↓Dev.mask_foldl2]; done)
      | (intro d x; try dsimp only)
      | (split <;> try simp (decide := true) only [↓Dev.dropOversize_mask, ↓Dev.mask_foldl, ↓Dev.mask_foldl2])
      | (simp (decide := true) only [↓Dev.dropOversize_mask, ↓Dev.mask_foldl, ↓Dev.mask_foldl2]))

theorem frameStart_mask {T : List Part} (hT : Part.within [.regs, .plane, .arms, .sliceU, .queues, .odus, .psels, .pkt, .tsu, .cal, .twill,
    .host, .jersey, .mx, .fresh, .reports] T = true) (n : Nat) (d : Dev) (mem : List Host.Cell) :
    (frameStart n d mem).1.mask T = d.mask T := by
  refine Dev.mask_mono hT ?_
  unfold frameStart
  repeat' (first | split | (simp (decide := true) only [↓Dev.updSch_mask, ↓Dev.gfpIdle_mask, ↓Dev.sendFrame_mask, ↓Dev.dropAll_mask]))

theorem queueSample_mask {T : List Part} (hT : Part.within [.pkt] T = true) (q : Nat) (d : Dev) :
    (queueSample q d).mask T = d.mask T := by
  refine Dev.mask_mono hT ?_
  unfold queueSample
  repeat' (first | split | (simp (decide := true) only [↓Dev.updPq_mask, ↓Dev.mask_set_tsu]))

theorem Dev.threeOf_mask {T : List Part} (hT : Part.within [.fresh] T = true) (d : Dev) (xs : List Nat) :
    (Dev.threeOf d xs).2.mask T = d.mask T := by
  refine Dev.mask_mono hT ?_
  unfold Dev.threeOf; split <;> simp (decide := true) only [↓Dev.draw_mask, ↓Dev.mask_foldl, ↓Dev.mask_foldl2]

theorem queueRecord_mask {T : List Part} (hT : Part.within [.regs, .pkt, .host, .jersey, .fresh] T = true) (q : Nat) (d : Dev) :
    (queueRecord q d).mask T = d.mask T := by
  refine Dev.mask_mono hT ?_
  unfold queueRecord
  repeat' (first | split | (simp (decide := true) only [↓Dev.stat_mask, ↓Dev.updPq_mask, ↓Dev.threeOf_mask, ↓Dev.mask_set_tsu, ↓Dev.mask_set_sec]))

theorem Dev.writePhase_mask {T : List Part} (hT : Part.within [.xc] T = true) (d : Dev) (ph : Nat) :
    (Dev.writePhase d ph).mask T = d.mask T := by
  refine Dev.mask_mono hT ?_
  unfold Dev.writePhase; split <;> simp (decide := true) only [↓Dev.mask_set_worker, ↓Dev.mask_set_xc]

theorem Dev.satopPost_mask {T : List Part} (hT : Part.within [.regs, .circuits, .host, .jersey] T = true) (d : Dev) (e code : Nat) :
    (Dev.satopPost d e code).mask T = d.mask T := by
  refine Dev.mask_mono hT ?_
  unfold Dev.satopPost; split <;> simp (decide := true) only [↓Dev.post_mask, ↓Dev.updCircuit_mask]

theorem Dev.satopSteer_mask {T : List Part} (hT : Part.within [.regs, .los, .circuits, .host, .jersey] T = true) (d : Dev) (e kind : Nat)
    (err : Int) :
    (Dev.satopSteer d e kind err).mask T = d.mask T := by
  refine Dev.mask_mono hT ?_
  unfold Dev.satopSteer
  repeat' (first | split | (simp (decide := true) only [↓Dev.updCircuit_mask, ↓Dev.loAlarm_mask]))

theorem Dev.lopsCheck_mask {T : List Part} (hT : Part.within [.regs, .circuits, .host, .jersey] T = true) (d : Dev) (e : Nat) :
    (Dev.lopsCheck d e).mask T = d.mask T := by
  refine Dev.mask_mono hT ?_
  unfold Dev.lopsCheck
  repeat' (first | split | (simp (decide := true) only [↓Dev.updCircuit_mask, ↓Dev.satopPost_mask]))

theorem Dev.readPkt_mask {T : List Part} (hT : Part.within [.regs, .plane, .arms, .sliceU, .queues, .psels, .tsu, .cal, .twill, .host,
    .jersey, .mx, .fresh, .reports] T = true) (d : Dev) (e : Nat) (p : JbPkt) (mem : List Host.Cell) :
    (Dev.readPkt d e p mem).d.mask T = d.mask T := by
  refine Dev.mask_mono hT ?_
  unfold Dev.readPkt
  repeat' (first | (simp (decide := true) only [↓readBytes_mask]; done) | split)

theorem Dev.satopStore_mask {T : List Part} (hT : Part.within [.regs, .circuits, .host, .jersey] T = true) (d : Dev) (e : Nat) (k : SatopRx)
    (slice : Option Nat) (mem : List Host.Cell) :
    (Dev.satopStore d e k slice mem).1.mask T = d.mask T := by
  refine Dev.mask_mono hT ?_
  unfold Dev.satopStore
  repeat' (first | split | (simp (decide := true) only [↓Dev.updCircuit_mask, ↓Dev.satopPost_mask]))

theorem Dev.satopRx_mask {T : List Part} (hT : Part.within [.regs, .los, .circuits, .host, .jersey] T = true) (d : Dev) (e : Nat) (k :
    SatopRx) (slice : Option Nat) (mem : List Host.Cell) :
    (Dev.satopRx d e k slice mem).1.mask T = d.mask T := by
  refine Dev.mask_mono hT ?_
  unfold Dev.satopRx
  repeat' (first | split | (simp (decide := true) only [↓Dev.updCircuit_mask, ↓Dev.satopPost_mask, ↓Dev.satopSteer_mask, ↓Dev.lopsCheck_mask, ↓Dev.satopStore_mask]))

theorem Dev.playOut_mask {T : List Part} (hT : Part.within [.host] T = true) (d : Dev) (e : Nat) (data : Option (List Byte × List Nat)) :
    (Dev.playOut d e data).mask T = d.mask T := by
  refine Dev.mask_mono hT ?_
  unfold Dev.playOut
  repeat' (first | split | (simp (decide := true) only [↓Dev.emit_mask]))

theorem Dev.satopMiss_mask {T : List Part} (hT : Part.within [.regs, .circuits, .host, .jersey] T = true) (d : Dev) (e : Nat) :
    (Dev.satopMiss d e).mask T = d.mask T := by
  refine Dev.mask_mono hT ?_
  unfold Dev.satopMiss; simp (decide := true) only [↓Dev.updCircuit_mask, ↓Dev.lopsCheck_mask]

theorem Dev.satopPlay_mask {T : List Part} (hT : Part.within [.regs, .plane, .arms, .sliceU, .queues, .circuits, .psels, .tsu, .cal, .twill,
    .host, .jersey, .mx, .fresh, .reports] T = true) (d : Dev) (e : Nat) (mem : List Host.Cell) :
    (Dev.satopPlay d e mem).1.mask T = d.mask T := by
  refine Dev.mask_mono hT ?_
  unfold Dev.satopPlay
  repeat' (first | split | (simp (decide := true) only [↓Dev.updCircuit_mask, ↓Dev.satopPost_mask, ↓Dev.readPkt_mask, ↓Dev.playOut_mask, ↓Dev.satopMiss_mask]))

theorem satopPlayout_mask {T : List Part} (hT : Part.within [.regs, .plane, .arms, .sliceU, .queues, .los, .circuits, .psels, .tsu, .cal,
    .twill, .host, .jersey, .mx, .fresh, .reports] T = true) (e : Nat) (d : Dev) (mem : List Host.Cell) :
    (satopPlayout e d mem).1.mask T = d.mask T := by
  refine Dev.mask_mono hT ?_
  unfold satopPlayout
  try simp (decide := true) only [↓Dev.updCircuit_mask, ↓Dev.satopSteer_mask, ↓Dev.satopPlay_mask, ↓Dev.mask_foldl, ↓Dev.mask_foldl2]
  repeat' (first
      | done
      | with_reducible rfl
      | (with_reducible refine (Dev.mask_foldl ?_ _ _).trans ?_)
      | (with_reducible refine (Dev.mask_foldl2 ?_ _ _).trans ?_)
      | (simp (decide := true) only [↓Dev.updCircuit_mask, ↓Dev.satopSteer_mask, ↓Dev.satopPlay_mask, ↓Dev.mask_foldl, ↓Dev.mask_foldl2]; done)
      | (intro d x; try dsimp only)
      | (split <;> try simp (decide := true) only [↓Dev.updCircuit_mask, ↓Dev.satopSteer_mask, ↓Dev.satopPlay_mask, ↓Dev.mask_foldl, ↓Dev.mask_foldl2])
      | (simp (decide := true) only [↓Dev.updCircuit_mask, ↓Dev.satopSteer_mask, ↓Dev.satopPlay_mask, ↓Dev.mask_foldl, ↓Dev.mask_foldl2]))

theorem satopTx_mask {T : List Part} (hT : Part.within [.regs, .circuits, .pkt, .host, .jersey] T = true) (e : Nat) (k : SatopTx) (d : Dev)
    (mem : List Host.Cell) :
    (satopTx e k d mem).1.mask T = d.mask T := by
  refine Dev.mask_mono hT ?_
  unfold satopTx
  repeat' (first | split | (simp (decide := true) only [↓Dev.emit_mask, ↓Dev.updCircuit_mask, ↓Dev.offer_mask]))

theorem Dev.moveBlock_mask {T : List Part} (hT : Part.within [.regs, .plane, .arms, .sliceU, .queues, .circuits, .psels, .tsu, .cal, .twill,
    .host, .jersey, .mx, .fresh, .reports] T = true) (e i : Nat) (d : Dev) (mem : List Host.Cell) :
    (Dev.moveBlock e i d mem).1.mask T = d.mask T := by
  refine Dev.mask_mono hT ?_
  unfold Dev.moveBlock
  repeat' (first | split | (simp (decide := true) only [↓Dev.updCircuit_mask, ↓readBytes_mask]))

theorem Dev.moveBlocks_mask {T : List Part} (hT : Part.within [.regs, .plane, .arms, .sliceU, .queues, .circuits, .psels, .tsu, .cal,
    .twill, .host, .jersey, .mx, .fresh, .reports] T = true) (d : Dev) (mem : List Host.Cell) :
    (Dev.moveBlocks d mem).1.mask T = d.mask T := by
  refine Dev.mask_mono hT ?_
  unfold Dev.moveBlocks
  try simp (decide := true) only [↓Dev.moveBlock_mask, ↓Dev.mask_foldl, ↓Dev.mask_foldl2]
  repeat' (first
      | done
      | with_reducible rfl
      | (with_reducible refine (Dev.mask_foldl ?_ _ _).trans ?_)
      | (with_reducible refine (Dev.mask_foldl2 ?_ _ _).trans ?_)
      | (simp (decide := true) only [↓Dev.moveBlock_mask, ↓Dev.mask_foldl, ↓Dev.mask_foldl2]; done)
      | (intro d x; try dsimp only)
      | (split <;> try simp (decide := true) only [↓Dev.moveBlock_mask, ↓Dev.mask_foldl, ↓Dev.mask_foldl2])
      | (simp (decide := true) only [↓Dev.moveBlock_mask, ↓Dev.mask_foldl, ↓Dev.mask_foldl2]))

theorem satopReserveApplied_mask {T : List Part} (hT : Part.within [.regs, .reserve, .host, .jersey] T = true) (d : Dev) :
    (satopReserveApplied d).mask T = d.mask T := by
  refine Dev.mask_mono hT ?_
  unfold satopReserveApplied
  repeat' (first | (simp (decide := true) only [↓Dev.post_mask, ↓Dev.mask_set_reserve]; done) | split)

theorem Dev.classify_mask {T : List Part} (hT : Part.within [.regs, .los, .circuits, .pkt, .host, .jersey] T = true) (d : Dev) (i : Nat) (f
    : MacRx) (mem : List Host.Cell) :
    (Dev.classify d i f mem).1.mask T = d.mask T := by
  refine Dev.mask_mono hT ?_
  unfold Dev.classify
  try simp (decide := true) only [↓Dev.count32_mask, ↓Dev.raise_mask, ↓Dev.offer_mask, ↓Dev.police_mask, ↓Dev.satopRx_mask, ↓Dev.mask_foldl, ↓Dev.mask_foldl2]
  repeat' (first
      | done
      | with_reducible rfl
      | (with_reducible refine (Dev.mask_foldl ?_ _ _).trans ?_)
      | (with_reducible refine (Dev.mask_foldl2 ?_ _ _).trans ?_)
      | (simp (decide := true) only [↓Dev.count32_mask, ↓Dev.raise_mask, ↓Dev.offer_mask, ↓Dev.police_mask, ↓Dev.satopRx_mask, ↓Dev.mask_foldl, ↓Dev.mask_foldl2]; done)
      | (intro d x; try dsimp only)
      | (split <;> try simp (decide := true) only [↓Dev.count32_mask, ↓Dev.raise_mask, ↓Dev.offer_mask, ↓Dev.police_mask, ↓Dev.satopRx_mask, ↓Dev.mask_foldl, ↓Dev.mask_foldl2])
      | (simp (decide := true) only [↓Dev.count32_mask, ↓Dev.raise_mask, ↓Dev.offer_mask, ↓Dev.police_mask, ↓Dev.satopRx_mask, ↓Dev.mask_foldl, ↓Dev.mask_foldl2]))

theorem Dev.macRx_mask {T : List Part} (hT : Part.within [.regs, .los, .circuits, .pkt, .host, .jersey] T = true) (d : Dev) (i : Nat) (f :
    MacRx) (mem : List Host.Cell) :
    (Dev.macRx d i f mem).1.mask T = d.mask T := by
  refine Dev.mask_mono hT ?_
  unfold Dev.macRx
  repeat' (first | split | (simp (decide := true) only [↓Dev.count_mask, ↓Dev.count32_mask, ↓Dev.classify_mask]))

theorem macFault_mask {T : List Part} (hT : Part.within [.regs, .pkt, .host, .jersey] T = true) (p : Nat) (k : FaultSeq) (d : Dev) :
    (macFault p k d).mask T = d.mask T := by
  refine Dev.mask_mono hT ?_
  unfold macFault
  repeat' (first | (simp (decide := true) only [↓Dev.raise_mask, ↓Dev.mask_set_pkt, ↓Dev.mask_set_cal]; done) | split)

theorem gfpCore_mask {T : List Part} (hT : Part.within [.regs, .odus, .host, .jersey] T = true) (o : Nat) (c : Chec) (d : Dev) : Dev.mask T
    (gfpCore o c d) = d.mask T := by
  refine Dev.mask_mono hT ?_
  unfold gfpCore
  try simp (decide := true) only [↓Dev.updOdu_mask, ↓Dev.oduPost_mask, ↓Dev.mask_foldl, ↓Dev.mask_foldl2]
  repeat' (first
      | done
      | with_reducible rfl
      | (with_reducible refine (Dev.mask_foldl ?_ _ _).trans ?_)
      | (with_reducible refine (Dev.mask_foldl2 ?_ _ _).trans ?_)
      | (simp (decide := true) only [↓Dev.updOdu_mask, ↓Dev.oduPost_mask, ↓Dev.mask_foldl, ↓Dev.mask_foldl2]; done)
      | (intro d x; try dsimp only)
      | (split <;> try simp (decide := true) only [↓Dev.updOdu_mask, ↓Dev.oduPost_mask, ↓Dev.mask_foldl, ↓Dev.mask_foldl2])
      | (simp (decide := true) only [↓Dev.updOdu_mask, ↓Dev.oduPost_mask, ↓Dev.mask_foldl, ↓Dev.mask_foldl2]))

theorem gfpFrame_mask {T : List Part} (hT : Part.within [.regs, .odus, .los, .circuits, .pkt, .host, .jersey] T = true) (o : Nat) (area :
    List Byte) (w : RxWords) (d : Dev) (mem : List Host.Cell) :
    (gfpFrame o area w d mem).1.mask T = d.mask T := by
  refine Dev.mask_mono hT ?_
  unfold gfpFrame
  repeat' (first | split | (simp (decide := true) only [↓Dev.count32_mask, ↓Dev.updOdu_mask, ↓Dev.oduPost_mask, ↓Dev.macRx_mask]))

theorem Dev.connect_mask {T : List Part} (hT : Part.within [.xc] T = true) (d : Dev) (page : Nat) (dst : XcObj) (kind v : Nat) (src : Option XcObj)
    : Dev.mask T (Dev.connect d page dst kind v src) = d.mask T := by
  refine Dev.mask_mono hT ?_
  unfold Dev.connect
  try simp (decide := true) only [↓Dev.setXcWord_mask, ↓Dev.mask_foldl, ↓Dev.mask_foldl2]
  repeat' (first
      | done
      | with_reducible rfl
      | (with_reducible refine (Dev.mask_foldl ?_ _ _).trans ?_)
      | (with_reducible refine (Dev.mask_foldl2 ?_ _ _).trans ?_)
      | (simp (decide := true) only [↓Dev.setXcWord_mask, ↓Dev.mask_foldl, ↓Dev.mask_foldl2]; done)
      | (intro d x; try dsimp only)
      | (split <;> try simp (decide := true) only [↓Dev.setXcWord_mask, ↓Dev.mask_foldl, ↓Dev.mask_foldl2])
      | (simp (decide := true) only [↓Dev.setXcWord_mask, ↓Dev.mask_foldl, ↓Dev.mask_foldl2]))

theorem Dev.clearPage_mask {T : List Part} (hT : Part.within [.xc] T = true) (d : Dev) (page table : Nat) : Dev.mask T (Dev.clearPage d page table)
    = d.mask T := by
  refine Dev.mask_mono hT ?_
  unfold Dev.clearPage
  try simp (decide := true) only [↓Dev.setXcWord_mask, ↓Dev.mask_foldl, ↓Dev.mask_foldl2]
  repeat' (first
      | done
      | with_reducible rfl
      | (with_reducible refine (Dev.mask_foldl ?_ _ _).trans ?_)
      | (with_reducible refine (Dev.mask_foldl2 ?_ _ _).trans ?_)
      | (simp (decide := true) only [↓Dev.setXcWord_mask, ↓Dev.mask_foldl, ↓Dev.mask_foldl2]; done)
      | (intro d x; try dsimp only)
      | (split <;> try simp (decide := true) only [↓Dev.setXcWord_mask, ↓Dev.mask_foldl, ↓Dev.mask_foldl2])
      | (simp (decide := true) only [↓Dev.setXcWord_mask, ↓Dev.mask_foldl, ↓Dev.mask_foldl2]))

theorem Dev.copyPage_mask {T : List Part} (hT : Part.within [.xc] T = true) (d : Dev) (src dst table : Nat) : Dev.mask T (Dev.copyPage d src dst
    table) = d.mask T := by
  refine Dev.mask_mono hT ?_
  unfold Dev.copyPage
  try simp (decide := true) only [↓Dev.setXcWord_mask, ↓Dev.clearPage_mask, ↓Dev.mask_foldl, ↓Dev.mask_foldl2]
  repeat' (first
      | done
      | with_reducible rfl
      | (with_reducible refine (Dev.mask_foldl ?_ _ _).trans ?_)
      | (with_reducible refine (Dev.mask_foldl2 ?_ _ _).trans ?_)
      | (simp (decide := true) only [↓Dev.setXcWord_mask, ↓Dev.clearPage_mask, ↓Dev.mask_foldl, ↓Dev.mask_foldl2]; done)
      | (intro d x; try dsimp only)
      | (split <;> try simp (decide := true) only [↓Dev.setXcWord_mask, ↓Dev.clearPage_mask, ↓Dev.mask_foldl, ↓Dev.mask_foldl2])
      | (simp (decide := true) only [↓Dev.setXcWord_mask, ↓Dev.clearPage_mask, ↓Dev.mask_foldl, ↓Dev.mask_foldl2]))

theorem Dev.insertWatch_mask {T : List Part} (hT : Part.within [.regs, .groups, .host, .jersey] T = true) (d : Dev) : Dev.mask T (Dev.insertWatch
    d) = d.mask T := by
  refine Dev.mask_mono hT ?_
  unfold Dev.insertWatch
  try simp (decide := true) only [↓Dev.raise_mask, ↓Dev.updGroup_mask, ↓Dev.mask_foldl, ↓Dev.mask_foldl2, ↓Dev.mask_set_groups]
  repeat' (first
      | done
      | with_reducible rfl
      | (with_reducible refine (Dev.mask_foldl ?_ _ _).trans ?_)
      | (with_reducible refine (Dev.mask_foldl2 ?_ _ _).trans ?_)
      | (simp (decide := true) only [↓Dev.raise_mask, ↓Dev.updGroup_mask, ↓Dev.mask_foldl, ↓Dev.mask_foldl2, ↓Dev.mask_set_groups]; done)
      | (intro d x; try dsimp only)
      | (split <;> try simp (decide := true) only [↓Dev.raise_mask, ↓Dev.updGroup_mask, ↓Dev.mask_foldl, ↓Dev.mask_foldl2, ↓Dev.mask_set_groups])
      | (simp (decide := true) only [↓Dev.raise_mask, ↓Dev.updGroup_mask, ↓Dev.mask_foldl, ↓Dev.mask_foldl2, ↓Dev.mask_set_groups]))

theorem Dev.tsiDone_mask {T : List Part} (hT : Part.within [.regs, .plane, .xc, .groups, .host, .jersey] T = true) (d : Dev) (tsi : Nat) (copyBack
    : Bool) : Dev.mask T (Dev.tsiDone d tsi copyBack) = d.mask T := by
  refine Dev.mask_mono hT ?_
  unfold Dev.tsiDone
  try simp (decide := true) only [↓Dev.expose_mask, ↓Dev.copyPage_mask, ↓Dev.insertWatch_mask, ↓Dev.mask_foldl, ↓Dev.mask_foldl2, ↓Dev.mask_set_xc]
  repeat' (first
      | done
      | with_reducible rfl
      | (with_reducible refine (Dev.mask_foldl ?_ _ _).trans ?_)
      | (with_reducible refine (Dev.mask_foldl2 ?_ _ _).trans ?_)
      | (simp (decide := true) only [↓Dev.expose_mask, ↓Dev.copyPage_mask, ↓Dev.insertWatch_mask, ↓Dev.mask_foldl, ↓Dev.mask_foldl2, ↓Dev.mask_set_xc]; done)
      | (intro d x; try dsimp only)
      | (split <;> try simp (decide := true) only [↓Dev.expose_mask, ↓Dev.copyPage_mask, ↓Dev.insertWatch_mask, ↓Dev.mask_foldl, ↓Dev.mask_foldl2, ↓Dev.mask_set_xc])
      | (simp (decide := true) only [↓Dev.expose_mask, ↓Dev.copyPage_mask, ↓Dev.insertWatch_mask, ↓Dev.mask_foldl, ↓Dev.mask_foldl2, ↓Dev.mask_set_xc]))

theorem Dev.armSettle_mask {T : List Part} (hT : Part.within [.regs, .plane, .xc, .groups, .host, .jersey] T = true) (d : Dev) (j : Nat) :
    (Dev.armSettle d j).mask T = d.mask T := by
  refine Dev.mask_mono hT ?_
  unfold Dev.armSettle
  try simp (decide := true) only [↓Dev.raise_mask, ↓Dev.ends_mask, ↓Dev.tsiDone_mask, ↓Dev.mask_set_xc, ↓Dev.mask_foldl, ↓Dev.mask_foldl2]
  repeat' (first
      | done
      | with_reducible rfl
      | (with_reducible refine (Dev.mask_foldl ?_ _ _).trans ?_)
      | (with_reducible refine (Dev.mask_foldl2 ?_ _ _).trans ?_)
      | (simp (decide := true) only [↓Dev.raise_mask, ↓Dev.ends_mask, ↓Dev.tsiDone_mask, ↓Dev.mask_set_xc, ↓Dev.mask_foldl, ↓Dev.mask_foldl2]; done)
      | (intro d x; try dsimp only)
      | (split <;> try simp (decide := true) only [↓Dev.raise_mask, ↓Dev.ends_mask, ↓Dev.tsiDone_mask, ↓Dev.mask_set_xc, ↓Dev.mask_foldl, ↓Dev.mask_foldl2])
      | (simp (decide := true) only [↓Dev.raise_mask, ↓Dev.ends_mask, ↓Dev.tsiDone_mask, ↓Dev.mask_set_xc, ↓Dev.mask_foldl, ↓Dev.mask_foldl2]))

theorem Dev.startSwap_mask {T : List Part} (hT : Part.within [.regs, .plane, .xc, .groups, .host, .jersey] T = true) (d : Dev) (a : Arm) (late :
    Bool) :
    (Dev.startSwap d a late).mask T = d.mask T := by
  refine Dev.mask_mono hT ?_
  unfold Dev.startSwap; split <;> simp (decide := true) only [↓Dev.raise_mask, ↓Dev.armSettle_mask, ↓Dev.mask_set_arms, ↓Dev.mask_set_xc]

theorem Dev.tickFalls_mask {T : List Part} (hT : Part.within [.regs, .plane, .xc, .groups, .host, .jersey] T = true) (d : Dev) (n : Nat) : Dev.mask
    T (Dev.tickFalls d n) = d.mask T := by
  refine Dev.mask_mono hT ?_
  unfold Dev.tickFalls
  try simp (decide := true) only [↓Dev.startSwap_mask, ↓Dev.mask_foldl, ↓Dev.mask_foldl2, ↓Dev.mask_set_worker, ↓Dev.mask_set_arms, ↓Dev.mask_set_xc]
  repeat' (first
      | done
      | with_reducible rfl
      | (with_reducible refine (Dev.mask_foldl ?_ _ _).trans ?_)
      | (with_reducible refine (Dev.mask_foldl2 ?_ _ _).trans ?_)
      | (simp (decide := true) only [↓Dev.startSwap_mask, ↓Dev.mask_foldl, ↓Dev.mask_foldl2, ↓Dev.mask_set_worker, ↓Dev.mask_set_arms, ↓Dev.mask_set_xc]; done)
      | (intro d x; try dsimp only)
      | (split <;> try simp (decide := true) only [↓Dev.startSwap_mask, ↓Dev.mask_foldl, ↓Dev.mask_foldl2, ↓Dev.mask_set_worker, ↓Dev.mask_set_arms, ↓Dev.mask_set_xc])
      | (simp (decide := true) only [↓Dev.startSwap_mask, ↓Dev.mask_foldl, ↓Dev.mask_foldl2, ↓Dev.mask_set_worker, ↓Dev.mask_set_arms, ↓Dev.mask_set_xc]))

theorem Dev.takePhase_mask {T : List Part} (hT : Part.within [.xc] T = true) (d : Dev) :
    (Dev.takePhase d).mask T = d.mask T := by
  refine Dev.mask_mono hT ?_
  unfold Dev.takePhase; split <;> simp (decide := true) only [↓Dev.mask_set_xc]

theorem Dev.sendTime_mask {T : List Part} (hT : Part.within [.host, .jersey] T = true) (d : Dev) (n : Nat) : Dev.mask T (Dev.sendTime d n) = d.mask
    T := by
  refine Dev.mask_mono hT ?_
  unfold Dev.sendTime
  try simp (decide := true) only [↓Dev.jySend_mask, ↓Dev.mask_foldl, ↓Dev.mask_foldl2, ↓Dev.mask_set_tsu, ↓Dev.mask_set_sec]
  repeat' (first
      | done
      | with_reducible rfl
      | (with_reducible refine (Dev.mask_foldl ?_ _ _).trans ?_)
      | (with_reducible refine (Dev.mask_foldl2 ?_ _ _).trans ?_)
      | (simp (decide := true) only [↓Dev.jySend_mask, ↓Dev.mask_foldl, ↓Dev.mask_foldl2, ↓Dev.mask_set_tsu, ↓Dev.mask_set_sec]; done)
      | (intro d x; try dsimp only)
      | (split <;> try simp (decide := true) only [↓Dev.jySend_mask, ↓Dev.mask_foldl, ↓Dev.mask_foldl2, ↓Dev.mask_set_tsu, ↓Dev.mask_set_sec])
      | (simp (decide := true) only [↓Dev.jySend_mask, ↓Dev.mask_foldl, ↓Dev.mask_foldl2, ↓Dev.mask_set_tsu, ↓Dev.mask_set_sec]))

theorem swapTick_mask {T : List Part} (hT : Part.within [.regs, .plane, .xc, .groups, .host, .jersey] T = true) (d : Dev) :
    (swapTick d).mask T = d.mask T := by
  refine Dev.mask_mono hT ?_
  unfold swapTick
  repeat' (first | split | (simp (decide := true) only [↓Dev.endAborted_mask, ↓Dev.tickFalls_mask, ↓Dev.takePhase_mask, ↓Dev.sendTime_mask, ↓Dev.mask_set_xc]))

theorem Dev.newSource_mask {T : List Part} (hT : Part.within [.regs, .points, .groupCause, .vc4s, .los, .host, .jersey] T = true) (d : Dev)
    (table pos cause : Nat) :
    (Dev.newSource d table pos cause).mask T = d.mask T := by
  refine Dev.mask_mono hT ?_
  unfold Dev.newSource
  repeat' (first | split | (simp (decide := true) only [↓Dev.updVc4_mask, ↓Dev.updLo_mask, ↓Dev.settleBelow_mask]))

theorem Dev.boundaryActs_mask {T : List Part} (hT : Part.within [.regs, .points, .groupCause, .vc4s, .los, .host, .jersey] T = true) (d :
    Dev) (table pos : Nat) (ps : List Nat) :
    (Dev.boundaryActs d table pos ps).mask T = d.mask T := by
  refine Dev.mask_mono hT ?_
  unfold Dev.boundaryActs; simp (decide := true) only [↓Dev.sendPositions_mask, ↓Dev.newSource_mask]

theorem swapBoundary_mask {T : List Part} (hT : Part.within [.regs, .plane, .points, .groupCause, .vc4s, .los, .xc, .groups, .host, .jersey]
    T = true) (table pos : Nat) (d : Dev) :
    (swapBoundary table pos d).mask T = d.mask T := by
  refine Dev.mask_mono hT ?_
  unfold swapBoundary
  repeat' (first | (simp (decide := true) only [↓Dev.endAborted_mask, ↓Dev.armSettle_mask, ↓Dev.boundaryActs_mask, ↓Dev.mask_set_xc]; done) | split)

theorem Dev.fopTouch_mask {T : List Part} (hT : Part.within [.regs, .sels, .host, .jersey] T = true) (d : Dev) (k : Nat) :
    (Dev.fopTouch d k).mask T = d.mask T := by
  refine Dev.mask_mono hT ?_
  unfold Dev.fopTouch
  repeat' (first | split | (simp (decide := true) only [↓Dev.raise_mask, ↓Dev.updSel_mask]))

theorem Dev.apsSend_mask {T : List Part} (hT : Part.within [.sels, .host] T = true) (d : Dev) (k : Nat) :
    (Dev.apsSend d k).mask T = d.mask T := by
  refine Dev.mask_mono hT ?_
  unfold Dev.apsSend
  repeat' (first | split | (simp (decide := true) only [↓Dev.emit_mask, ↓Dev.updSel_mask]))

theorem Dev.selEval_mask {T : List Part} (hT : Part.within [.regs, .sels, .host, .jersey] T = true) (d : Dev) (k : Nat) (left : Bool) :
    (Dev.selEval d k left).mask T = d.mask T := by
  refine Dev.mask_mono hT ?_
  unfold Dev.selEval
  repeat' (first | split | (simp (decide := true) only [↓Dev.updSel_mask, ↓Dev.fopTouch_mask, ↓Dev.apsSend_mask]))

theorem Dev.selConds_mask {T : List Part} (hT : Part.within [.regs, .sels, .host, .jersey] T = true) (d : Dev) (k : Nat) (isP expire : Bool) :
    (Dev.selConds d k isP expire).mask T = d.mask T := by
  refine Dev.mask_mono hT ?_
  unfold Dev.selConds
  repeat' (first | (simp (decide := true) only [↓Dev.setSel_mask, ↓Dev.selEval_mask]; done) | split)

theorem holdoffExpiry_mask {T : List Part} (hT : Part.within [.regs, .sels, .host, .jersey] T = true) (k : Nat) (isP : Bool) (d : Dev) :
    (holdoffExpiry k isP d).mask T = d.mask T := by
  refine Dev.mask_mono hT ?_
  unfold holdoffExpiry
  repeat' (first | (simp (decide := true) only [↓Dev.updSel_mask, ↓Dev.selConds_mask]; done) | split)

theorem Dev.selSettle_mask {T : List Part} (hT : Part.within [.regs, .points, .groupCause, .vc4s, .los, .host, .jersey] T = true) (d : Dev)
    (k : Nat) (x : Selector) :
    (Dev.selSettle d k x).mask T = d.mask T := by
  refine Dev.mask_mono hT ?_
  unfold Dev.selSettle
  try simp (decide := true) only [↓Dev.settleBelow_mask, ↓Dev.newSource_mask, ↓Dev.mask_foldl, ↓Dev.mask_foldl2]
  repeat' (first
      | done
      | with_reducible rfl
      | (with_reducible refine (Dev.mask_foldl ?_ _ _).trans ?_)
      | (with_reducible refine (Dev.mask_foldl2 ?_ _ _).trans ?_)
      | (simp (decide := true) only [↓Dev.settleBelow_mask, ↓Dev.newSource_mask, ↓Dev.mask_foldl, ↓Dev.mask_foldl2]; done)
      | (intro d x; try dsimp only)
      | (split <;> try simp (decide := true) only [↓Dev.settleBelow_mask, ↓Dev.newSource_mask, ↓Dev.mask_foldl, ↓Dev.mask_foldl2])
      | (simp (decide := true) only [↓Dev.settleBelow_mask, ↓Dev.newSource_mask, ↓Dev.mask_foldl, ↓Dev.mask_foldl2]))

theorem selectedChange_mask {T : List Part} (hT : Part.within [.regs, .plane, .points, .groupCause, .vc4s, .los, .sels, .host, .jersey] T =
    true) (k : Nat) (d : Dev) :
    (selectedChange k d).mask T = d.mask T := by
  refine Dev.mask_mono hT ?_
  unfold selectedChange
  repeat' (first | (simp (decide := true) only [↓Dev.count32_mask, ↓Dev.raise_mask, ↓Dev.updSel_mask, ↓Dev.refresh_mask, ↓Dev.expose_mask, ↓Dev.selEval_mask, ↓Dev.selSettle_mask]; done) | split)

theorem apsAccept_mask {T : List Part} (hT : Part.within [.regs, .sels, .host, .jersey] T = true) (k : Nat) (rx : ApsRx) (d : Dev) :
    (apsAccept k rx d).mask T = d.mask T := by
  refine Dev.mask_mono hT ?_
  unfold apsAccept
  repeat' (first | split | (simp (decide := true) only [↓Dev.updSel_mask, ↓Dev.fopTouch_mask, ↓Dev.selEval_mask]))

theorem fopTimer_mask {T : List Part} (hT : Part.within [.regs, .sels, .host, .jersey] T = true) (k : Nat) (d : Dev) :
    (fopTimer k d).mask T = d.mask T := by
  refine Dev.mask_mono hT ?_
  unfold fopTimer
  repeat' (first | split | (simp (decide := true) only [↓Dev.raise_mask, ↓Dev.updSel_mask, ↓Dev.selEval_mask]))

theorem wtrExpiry_mask {T : List Part} (hT : Part.within [.regs, .sels, .host, .jersey] T = true) (k : Nat) (d : Dev) :
    (wtrExpiry k d).mask T = d.mask T := by
  refine Dev.mask_mono hT ?_
  unfold wtrExpiry
  repeat' (first | (simp (decide := true) only [↓Dev.updSel_mask, ↓Dev.selEval_mask]; done) | split)

theorem Dev.protApply_mask {T : List Part} (hT : Part.within [.regs, .sels, .host, .jersey] T = true) {d d' : Dev} {k cmd : Nat}
    (h : d.protApply k cmd = some d') : d'.mask T = d.mask T := by
  refine Dev.mask_mono hT ?_
  unfold Dev.protApply at h
  split at h
  · cases h
  · dsimp only at h
    repeat' split at h
    all_goals first
      | (cases h; done)
      | (cases h; exact (Dev.selEval_mask (by decide) _ _ _).trans (Dev.updSel_mask (by decide) _ _ _))

theorem Dev.tellSel_mask {T : List Part} (hT : Part.within [.regs, .queues, .host, .jersey, .mx, .fresh] T = true) (d : Dev) (cls k : Nat) :
    (Dev.tellSel d cls k).mask T = d.mask T := by
  refine Dev.mask_mono hT ?_
  unfold Dev.tellSel
  repeat' (first | (simp (decide := true) only [↓Dev.tell_mask]; done) | split)

theorem Dev.sendMsp_mask {T : List Part} (hT : Part.within [.host] T = true) (d : Dev) (w p src : Nat) :
    (Dev.sendMsp d w p src).mask T = d.mask T := Dev.mask_mono hT rfl

theorem Dev.copyTo_mask {T : List Part} (hT : Part.within [.regs, .groups, .host, .jersey] T = true) (d : Dev) (k : Nat) (west : Bool) (st : CopySt) :
    (Dev.copyTo d k west st).mask T = d.mask T := by
  refine Dev.mask_mono hT ?_
  unfold Dev.copyTo
  repeat' (first | (simp (decide := true) only [↓Dev.raise_mask, ↓Dev.updGroup_mask]; done) | split)

theorem mergeCopySf_mask {T : List Part} (hT : Part.within [.regs, .groups, .host, .jersey] T = true) (k : Nat) (west : Bool) (d : Dev) :
    (mergeCopySf k west d).mask T = d.mask T := by
  refine Dev.mask_mono hT ?_
  unfold mergeCopySf
  repeat' (first | split | (simp (decide := true) only [↓Dev.updGroup_mask, ↓Dev.copyTo_mask]))

theorem Dev.putSlot_mask {T : List Part} (hT : Part.within [.groups] T = true) (d : Dev) (k pos n : Nat) (bs : List Byte) (bad : List Nat)
    (slice : Option Nat) (mark : MSlot → MSlot) (mem : List Host.Cell) :
    (Dev.putSlot d k pos n bs bad slice mark mem).1.mask T = d.mask T := by
  refine Dev.mask_mono hT ?_
  unfold Dev.putSlot
  repeat' (first | (simp (decide := true) only [↓Dev.updGroup_mask]; done) | split)

theorem Dev.readSlot_mask {T : List Part} (hT : Part.within [.regs, .plane, .arms, .sliceU, .queues, .psels, .tsu, .cal, .twill, .host,
    .jersey, .mx, .fresh, .reports] T = true) (d : Dev) (g : MGroup) (s : MSlot) (mem : List Host.Cell) :
    (Dev.readSlot d g s mem).d.mask T = d.mask T := by
  refine Dev.mask_mono hT ?_
  unfold Dev.readSlot
  repeat' (first | (simp (decide := true) only [↓readBytes_mask]; done) | split)

theorem Dev.updCopy_mask {T : List Part} (hT : Part.within [.groups] T = true) (d : Dev) (k : Nat) (west : Bool) (f : MCopy → MCopy) :
    (Dev.updCopy d k west f).mask T = d.mask T := by
  refine Dev.mask_mono hT ?_
  unfold Dev.updCopy; simp (decide := true) only [↓Dev.updGroup_mask]

theorem Dev.updSlot_mask {T : List Part} (hT : Part.within [.groups] T = true) (d : Dev) (k pos : Nat) (f : MSlot → MSlot) :
    (Dev.updSlot d k pos f).mask T = d.mask T := Dev.mask_mono hT rfl

theorem Dev.storeUnit_mask {T : List Part} (hT : Part.within [.regs, .groups, .host, .jersey] T = true) (d : Dev) (k : Nat) (west : Bool)
    (pos : Nat) (u : MUnit) (mem : List Host.Cell) :
    (Dev.storeUnit d k west pos u mem).1.mask T = d.mask T := by
  refine Dev.mask_mono hT ?_
  unfold Dev.storeUnit
  repeat' (first | split | (simp (decide := true) only [↓Dev.count32_mask, ↓Dev.raise_mask, ↓Dev.updGroup_mask, ↓Dev.putSlot_mask, ↓Dev.updCopy_mask, ↓Dev.updSlot_mask]))

theorem Dev.stageVerdict_mask {T : List Part} (hT : Part.within [.groups] T = true) (d : Dev) (k : Nat) (west : Bool) (nBip : Nat) (mem :
    List Host.Cell) :
    (Dev.stageVerdict d k west nBip mem).1.mask T = d.mask T := by
  refine Dev.mask_mono hT ?_
  unfold Dev.stageVerdict
  repeat' (first | split | (simp (decide := true) only [↓Dev.putSlot_mask, ↓Dev.updCopy_mask, ↓Dev.updSlot_mask]))

theorem Dev.startPlayout_mask {T : List Part} (hT : Part.within [.groups] T = true) (d : Dev) (k : Nat) (west : Bool) (pos : Nat) :
    (Dev.startPlayout d k west pos).mask T = d.mask T := by
  refine Dev.mask_mono hT ?_
  unfold Dev.startPlayout; simp (decide := true) only [↓Dev.updGroup_mask]

theorem unitAligning_mask {T : List Part} (hT : Part.within [.regs, .groups, .host, .jersey] T = true) (k : Nat) (west : Bool) (g : MGroup)
    (u : MUnit) (d : Dev) :
    (unitAligning k west g u d).1.mask T = d.mask T := by
  refine Dev.mask_mono hT ?_
  unfold unitAligning
  repeat' (first | split | (simp (decide := true) only [↓Dev.count_mask, ↓Dev.copyTo_mask, ↓Dev.updCopy_mask, ↓Dev.startPlayout_mask]))

theorem unitUp_mask {T : List Part} (hT : Part.within [.regs, .groups, .host, .jersey] T = true) (k : Nat) (west : Bool) (g : MGroup) (u :
    MUnit) (d : Dev) :
    (unitUp k west g u d).1.mask T = d.mask T := by
  refine Dev.mask_mono hT ?_
  unfold unitUp
  repeat' (first | split | (simp (decide := true) only [↓Dev.count_mask, ↓Dev.copyTo_mask, ↓Dev.updCopy_mask]))

theorem unitSkew_mask {T : List Part} (hT : Part.within [.regs, .groups, .host, .jersey] T = true) (k : Nat) (west : Bool) (g : MGroup) (u :
    MUnit) (d : Dev) :
    (unitSkew k west g u d).1.mask T = d.mask T := by
  refine Dev.mask_mono hT ?_
  unfold unitSkew
  repeat' (first | split | (simp (decide := true) only [↓Dev.count_mask, ↓Dev.copyTo_mask, ↓Dev.updCopy_mask, ↓Dev.startPlayout_mask]))

theorem unitState_mask {T : List Part} (hT : Part.within [.regs, .groups, .host, .jersey] T = true) (k : Nat) (west : Bool) (g : MGroup) (u
    : MUnit) (d : Dev) :
    (unitState k west g u d).1.mask T = d.mask T := by
  refine Dev.mask_mono hT ?_
  unfold unitState
  repeat' (first | (simp (decide := true) only [↓unitAligning_mask, ↓unitUp_mask, ↓unitSkew_mask]; done) | split)

theorem Dev.insertFeed_mask {T : List Part} (hT : Part.within [.groups, .host] T = true) (d : Dev) (feeds : Data → Bool) (bs : List Byte)
    (bad : List Nat) :
    (Dev.insertFeed d feeds bs bad).mask T = d.mask T := by
  refine Dev.mask_mono hT ?_
  unfold Dev.insertFeed
  try simp (decide := true) only [↓Dev.emit_mask, ↓Dev.updGroup_mask, ↓Dev.mask_foldl, ↓Dev.mask_foldl2]
  repeat' (first
      | done
      | with_reducible rfl
      | (with_reducible refine (Dev.mask_foldl ?_ _ _).trans ?_)
      | (with_reducible refine (Dev.mask_foldl2 ?_ _ _).trans ?_)
      | (simp (decide := true) only [↓Dev.emit_mask, ↓Dev.updGroup_mask, ↓Dev.mask_foldl, ↓Dev.mask_foldl2]; done)
      | (intro d x; try dsimp only)
      | (split <;> try simp (decide := true) only [↓Dev.emit_mask, ↓Dev.updGroup_mask, ↓Dev.mask_foldl, ↓Dev.mask_foldl2])
      | (simp (decide := true) only [↓Dev.emit_mask, ↓Dev.updGroup_mask, ↓Dev.mask_foldl, ↓Dev.mask_foldl2]))

theorem Dev.nativeArrival_mask {T : List Part} (hT : Part.within [.groups, .host] T = true) (d : Dev) (o : Nat) (u : MUnit) :
    (Dev.nativeArrival d o u).mask T = d.mask T := by
  refine Dev.mask_mono hT ?_
  unfold Dev.nativeArrival
  repeat' (first | (simp (decide := true) only [↓Dev.insertFeed_mask]; done) | split)

theorem copyArrival_mask {T : List Part} (hT : Part.within [.regs, .groups, .host, .jersey] T = true) (k : Nat) (west : Bool) (u : MUnit) (d
    : Dev) (mem : List Host.Cell) :
    (copyArrival k west u d mem).1.mask T = d.mask T := by
  refine Dev.mask_mono hT ?_
  unfold copyArrival
  try simp (decide := true) only [↓Dev.updGroup_mask, ↓Dev.updCopy_mask, ↓Dev.storeUnit_mask, ↓Dev.stageVerdict_mask, ↓unitState_mask, ↓Dev.insertFeed_mask, ↓Dev.mask_foldl, ↓Dev.mask_foldl2]
  repeat' (first
      | done
      | with_reducible rfl
      | (with_reducible refine (Dev.mask_foldl ?_ _ _).trans ?_)
      | (with_reducible refine (Dev.mask_foldl2 ?_ _ _).trans ?_)
      | (simp (decide := true) only [↓Dev.updGroup_mask, ↓Dev.updCopy_mask, ↓Dev.storeUnit_mask, ↓Dev.stageVerdict_mask, ↓unitState_mask, ↓Dev.insertFeed_mask, ↓Dev.mask_foldl, ↓Dev.mask_foldl2]; done)
      | (intro d x; try dsimp only)
      | (split <;> try simp (decide := true) only [↓Dev.updGroup_mask, ↓Dev.updCopy_mask, ↓Dev.storeUnit_mask, ↓Dev.stageVerdict_mask, ↓unitState_mask, ↓Dev.insertFeed_mask, ↓Dev.mask_foldl, ↓Dev.mask_foldl2])
      | (simp (decide := true) only [↓Dev.updGroup_mask, ↓Dev.updCopy_mask, ↓Dev.storeUnit_mask, ↓Dev.stageVerdict_mask, ↓unitState_mask, ↓Dev.insertFeed_mask, ↓Dev.mask_foldl, ↓Dev.mask_foldl2]))

theorem unitArrival_mask {T : List Part} (hT : Part.within [.regs, .groups, .host, .jersey] T = true) (k : Nat) (west : Bool) (u : MUnit) (d
    : Dev) (mem : List Host.Cell) :
    (unitArrival k west u d mem).1.mask T = d.mask T := by
  refine Dev.mask_mono hT ?_
  unfold unitArrival
  repeat' (first | (simp (decide := true) only [↓Dev.nativeArrival_mask, ↓copyArrival_mask]; done) | split)

theorem Dev.forwardSlot_mask {T : List Part} (hT : Part.within [.regs, .plane, .arms, .sliceU, .queues, .psels, .tsu, .cal, .twill, .host,
    .jersey, .mx, .fresh, .reports] T = true) (d : Dev) (k : Nat) (g : MGroup) (s : MSlot) (mem : List Host.Cell) :
    (Dev.forwardSlot d k g s mem).d.mask T = d.mask T := by
  refine Dev.mask_mono hT ?_
  unfold Dev.forwardSlot
  try simp (decide := true) only [↓Dev.qRewind_mask, ↓Dev.qRelease_mask, ↓Dev.readSlot_mask, ↓Dev.mask_foldl, ↓Dev.mask_foldl2]
  repeat' (first
      | done
      | with_reducible rfl
      | (with_reducible refine (Dev.mask_foldl ?_ _ _).trans ?_)
      | (with_reducible refine (Dev.mask_foldl2 ?_ _ _).trans ?_)
      | (simp (decide := true) only [↓Dev.qRewind_mask, ↓Dev.qRelease_mask, ↓Dev.readSlot_mask, ↓Dev.mask_foldl, ↓Dev.mask_foldl2]; done)
      | (intro d x; try dsimp only)
      | (split <;> try simp (decide := true) only [↓Dev.qRewind_mask, ↓Dev.qRelease_mask, ↓Dev.readSlot_mask, ↓Dev.mask_foldl, ↓Dev.mask_foldl2])
      | (simp (decide := true) only [↓Dev.qRewind_mask, ↓Dev.qRelease_mask, ↓Dev.readSlot_mask, ↓Dev.mask_foldl, ↓Dev.mask_foldl2]))

theorem Dev.forwardCount_mask {T : List Part} (hT : Part.within [.regs, .host, .jersey] T = true) (d : Dev) (k : Nat) (g : MGroup) (s :
    MSlot) :
    (Dev.forwardCount d k g s).mask T = d.mask T := by
  refine Dev.mask_mono hT ?_
  unfold Dev.forwardCount
  repeat' (first | (simp (decide := true) only [↓Dev.count_mask, ↓Dev.count32_mask, ↓Dev.raise_mask]; done) | split)

theorem mergePlayout_mask {T : List Part} (hT : Part.within [.regs, .plane, .arms, .sliceU, .queues, .groups, .psels, .tsu, .cal, .twill,
    .host, .jersey, .mx, .fresh, .reports] T = true) (k : Nat) (d : Dev) (mem : List Host.Cell) :
    (mergePlayout k d mem).1.mask T = d.mask T := by
  refine Dev.mask_mono hT ?_
  unfold mergePlayout
  repeat' (first | split | (simp (decide := true) only [↓Dev.count_mask, ↓Dev.emit_mask, ↓Dev.raise_mask, ↓Dev.updGroup_mask, ↓Dev.insertFeed_mask, ↓Dev.forwardSlot_mask, ↓Dev.forwardCount_mask]))

theorem Dev.moveSlot_mask {T : List Part} (hT : Part.within [.regs, .plane, .arms, .sliceU, .queues, .groups, .psels, .tsu, .cal, .twill,
    .host, .jersey, .mx, .fresh, .reports] T = true) (k n pos : Nat) (d : Dev) (mem : List Host.Cell) :
    (Dev.moveSlot k n pos d mem).1.mask T = d.mask T := by
  refine Dev.mask_mono hT ?_
  unfold Dev.moveSlot
  repeat' (first | split | (simp (decide := true) only [↓Dev.putSlot_mask, ↓Dev.readSlot_mask, ↓Dev.updSlot_mask]))

theorem mergeResizeApplied_mask {T : List Part} (hT : Part.within [.regs, .plane, .arms, .sliceU, .queues, .groups, .psels, .tsu, .cal,
    .twill, .host, .jersey, .mx, .fresh, .reports] T = true) (k : Nat) (d : Dev) (mem : List Host.Cell) :
    (mergeResizeApplied k d mem).1.mask T = d.mask T := by
  refine Dev.mask_mono hT ?_
  unfold mergeResizeApplied
  try simp (decide := true) only [↓Dev.raise_mask, ↓Dev.updGroup_mask, ↓Dev.expose_mask, ↓Dev.moveSlot_mask, ↓Dev.mask_foldl, ↓Dev.mask_foldl2]
  repeat' (first
      | done
      | with_reducible rfl
      | (with_reducible refine (Dev.mask_foldl ?_ _ _).trans ?_)
      | (with_reducible refine (Dev.mask_foldl2 ?_ _ _).trans ?_)
      | (simp (decide := true) only [↓Dev.raise_mask, ↓Dev.updGroup_mask, ↓Dev.expose_mask, ↓Dev.moveSlot_mask, ↓Dev.mask_foldl, ↓Dev.mask_foldl2]; done)
      | (intro d x; try dsimp only)
      | (split <;> try simp (decide := true) only [↓Dev.raise_mask, ↓Dev.updGroup_mask, ↓Dev.expose_mask, ↓Dev.moveSlot_mask, ↓Dev.mask_foldl, ↓Dev.mask_foldl2])
      | (simp (decide := true) only [↓Dev.raise_mask, ↓Dev.updGroup_mask, ↓Dev.expose_mask, ↓Dev.moveSlot_mask, ↓Dev.mask_foldl, ↓Dev.mask_foldl2]))

theorem Dev.selAlone_mask {T : List Part} (hT : Part.within [.regs, .plane, .arms, .sliceU, .queues, .psels, .tsu, .cal, .twill, .host,
    .jersey, .mx, .fresh, .reports] T = true) (d : Dev) (p : Nat) (plane : Fin 2) (x : PWord) :
    (Dev.selAlone d p plane x).mask T = d.mask T := by
  refine Dev.mask_mono hT ?_
  unfold Dev.selAlone
  repeat' (first | split | (simp (decide := true) only [↓Dev.count32_mask, ↓Dev.raise_mask, ↓Dev.updPsel_mask, ↓Dev.selOut_mask, ↓Dev.fault1_mask]))

theorem selFlush_mask {T : List Part} (hT : Part.within [.regs, .plane, .arms, .sliceU, .queues, .psels, .tsu, .cal, .twill, .host, .jersey,
    .mx, .fresh, .reports] T = true) (p q x2 : Nat) (x3 : Dev) :
    (selFlush p q x2 x3).mask T = x3.mask T := by
  refine Dev.mask_mono hT ?_
  induction x2 generalizing x3 with
  | zero => rfl
  | succ n ih =>
    unfold selFlush
    dsimp only
    split
    · rfl
    · split
      · refine (ih _).trans ?_
        exact (Dev.selAlone_mask (by decide) _ _ _ _).trans (Dev.updPsel_mask (by decide) _ _ _)
      · rfl

theorem Dev.selPair_mask {T : List Part} (hT : Part.within [.regs, .plane, .arms, .sliceU, .queues, .psels, .tsu, .cal, .twill, .host,
    .jersey, .mx, .fresh, .reports] T = true) (d : Dev) (p : Nat) (a b : PWord) :
    (Dev.selPair d p a b).mask T = d.mask T := by
  refine Dev.mask_mono hT ?_
  unfold Dev.selPair
  repeat' (first | (simp (decide := true) only [↓Dev.count32_mask, ↓Dev.raise_mask, ↓Dev.updPsel_mask, ↓Dev.selOut_mask, ↓Dev.fault1_mask]; done) | split)

theorem Dev.selSingle_mask {T : List Part} (hT : Part.within [.regs, .psels, .host, .jersey] T = true) (d : Dev) (p : Nat) (plane : Fin 2) (x :
    PWord) :
    (Dev.selSingle d p plane x).mask T = d.mask T := by
  refine Dev.mask_mono hT ?_
  unfold Dev.selSingle
  repeat' (first | (simp (decide := true) only [↓Dev.selOut_mask, ↓Dev.mask_set_plane]; done) | split)

theorem Dev.selJoin_mask {T : List Part} (hT : Part.within [.regs, .plane, .arms, .sliceU, .queues, .psels, .tsu, .cal, .twill, .host,
    .jersey, .mx, .fresh, .reports] T = true) (d : Dev) (p : Nat) (back plane : Fin 2) (x : PWord) :
    (Dev.selJoin d p back plane x).mask T = d.mask T := by
  refine Dev.mask_mono hT ?_
  unfold Dev.selJoin
  repeat' (first | split | (simp (decide := true) only [↓Dev.updPsel_mask, ↓Dev.selOut_mask, ↓Dev.selPair_mask]))

theorem pselWord_mask {T : List Part} (hT : Part.within [.regs, .plane, .arms, .sliceU, .queues, .psels, .tsu, .cal, .twill, .host, .jersey,
    .mx, .fresh, .reports] T = true) (p : Nat) (plane : Fin 2) (w : SelWord) (d : Dev) :
    (pselWord p plane w d).mask T = d.mask T := by
  refine Dev.mask_mono hT ?_
  unfold pselWord
  repeat' (first | split | (simp (decide := true) only [↓Dev.updPsel_mask, ↓Dev.selAlone_mask, ↓selFlush_mask, ↓Dev.selPair_mask, ↓Dev.selSingle_mask, ↓Dev.selJoin_mask]))

end Sys2Proof.Machine
end

