-- ==== Sys2Proof/Laws/FramesUnits.lean ====
section
/-! SUPPORT. Frames of the timing unit, security, Twill, the host queue engine, resets, registers, Jersey and power: what each operation leaves as it was. Each lemma names the parts of the device
that its operation can change. -/

namespace Sys2Proof.Machine

theorem Dev.selectFree_mask {T : List Part} (hT : Part.within [.regs, .points, .xc, .pkt, .tsu, .cal, .host, .jersey, .fresh] T = true) (d : Dev) :
    (Dev.selectFree d).mask T = d.mask T := by
  refine Dev.mask_mono hT ?_
  unfold Dev.selectFree
  repeat' (first | (simp (decide := true) only [↓Dev.draw_mask, ↓Dev.select_mask]; done) | split)

theorem Dev.refRestart_mask {T : List Part} (hT : Part.within [.regs, .tsu, .cal, .host, .jersey, .fresh] T = true) (d : Dev) (r : Nat) (enable was
    : Bool) :
    (Dev.refRestart d r enable was).mask T = d.mask T := by
  refine Dev.mask_mono hT ?_
  unfold Dev.refRestart
  repeat' (first | split | (simp (decide := true) only [↓Dev.raise_mask, ↓Dev.updRef_mask, ↓Dev.tsuLost_mask, ↓Dev.mask_set_tsu]))

theorem Dev.steer0_mask {T : List Part} (hT : Part.within [.regs, .tsu, .cal, .host, .jersey, .fresh] T = true) (d : Dev) (ppt : Int) (lock
    : Bool) :
    (Dev.steer0 d ppt lock).mask T = d.mask T := by
  refine Dev.mask_mono hT ?_
  unfold Dev.steer0
  repeat' (first | split | (simp (decide := true) only [↓Dev.endAborted_mask, ↓Dev.updRef_mask, ↓Dev.setTerm_mask, ↓Dev.tsuEnter_mask, ↓Dev.refEval_mask, ↓Dev.disputes_mask, ↓Dev.mask_set_tsu]))

theorem Dev.align_mask {T : List Part} (hT : Part.within [.regs, .tsu, .host, .jersey] T = true) (d : Dev) : Dev.mask T (Dev.align d) = d.mask T := by
  refine Dev.mask_mono hT ?_
  unfold Dev.align
  try simp (decide := true) only [↓Dev.complete_mask, ↓Dev.updOut_mask, ↓Dev.tsuRaise_mask, ↓Dev.mask_foldl, ↓Dev.mask_foldl2, ↓Dev.mask_set_tsu]
  repeat' (first
      | done
      | with_reducible rfl
      | (with_reducible refine (Dev.mask_foldl ?_ _ _).trans ?_)
      | (with_reducible refine (Dev.mask_foldl2 ?_ _ _).trans ?_)
      | (simp (decide := true) only [↓Dev.complete_mask, ↓Dev.updOut_mask, ↓Dev.tsuRaise_mask, ↓Dev.mask_foldl, ↓Dev.mask_foldl2, ↓Dev.mask_set_tsu]; done)
      | (intro d x; try dsimp only)
      | (split <;> try simp (decide := true) only [↓Dev.complete_mask, ↓Dev.updOut_mask, ↓Dev.tsuRaise_mask, ↓Dev.mask_foldl, ↓Dev.mask_foldl2, ↓Dev.mask_set_tsu])
      | (simp (decide := true) only [↓Dev.complete_mask, ↓Dev.updOut_mask, ↓Dev.tsuRaise_mask, ↓Dev.mask_foldl, ↓Dev.mask_foldl2, ↓Dev.mask_set_tsu]))

theorem Dev.slope_mask {T : List Part} (hT : Part.within [.fresh] T = true) (d : Dev) (ps : List Int) :
    (Dev.slope d ps).2.mask T = d.mask T := by
  refine Dev.mask_mono hT ?_
  unfold Dev.slope; simp (decide := true) only [↓Dev.meanFree_mask]

theorem Dev.offsetOf_mask {T : List Part} (hT : Part.within [.tsu, .fresh] T = true) (d : Dev) (r : Nat) (offset phase : Int) :
    (Dev.offsetOf d r offset phase).2.mask T = d.mask T := by
  refine Dev.mask_mono hT ?_
  unfold Dev.offsetOf
  repeat' (first | split | (simp (decide := true) only [↓Dev.updRef_mask, ↓Dev.slope_mask]))

theorem Dev.driftOf_mask {T : List Part} (hT : Part.within [.fresh] T = true) (d : Dev) (k : Nat) (o : Int) (oldest : Option (Nat × Int)) :
    (Dev.driftOf d k o oldest).2.mask T = d.mask T := by
  refine Dev.mask_mono hT ?_
  unfold Dev.driftOf
  repeat' (first | (simp (decide := true) only [↓Dev.meanFree_mask]; done) | split)

theorem Dev.takeOffset_mask {T : List Part} (hT : Part.within [.regs, .tsu, .host, .jersey, .fresh] T = true) (d : Dev) (r : Nat) (o : Int)
    :
    (Dev.takeOffset d r o).mask T = d.mask T := by
  refine Dev.mask_mono hT ?_
  unfold Dev.takeOffset
  repeat' (first | split | (simp (decide := true) only [↓Dev.raise_mask, ↓Dev.updRef_mask, ↓Dev.driftOf_mask]))

theorem Dev.measure_mask {T : List Part} (hT : Part.within [.regs, .tsu, .cal, .host, .jersey, .fresh] T = true) (d : Dev) (r : Nat) (offset
    phase : Int) :
    (Dev.measure d r offset phase).mask T = d.mask T := by
  refine Dev.mask_mono hT ?_
  unfold Dev.measure
  try simp (decide := true) only [↓Dev.updRef_mask, ↓Dev.refEval_mask, ↓Dev.disputes_mask, ↓Dev.offsetOf_mask, ↓Dev.takeOffset_mask, ↓Dev.mask_foldl, ↓Dev.mask_foldl2]
  repeat' (first
      | done
      | with_reducible rfl
      | (with_reducible refine (Dev.mask_foldl ?_ _ _).trans ?_)
      | (with_reducible refine (Dev.mask_foldl2 ?_ _ _).trans ?_)
      | (simp (decide := true) only [↓Dev.updRef_mask, ↓Dev.refEval_mask, ↓Dev.disputes_mask, ↓Dev.offsetOf_mask, ↓Dev.takeOffset_mask, ↓Dev.mask_foldl, ↓Dev.mask_foldl2]; done)
      | (intro d x; try dsimp only)
      | (split <;> try simp (decide := true) only [↓Dev.updRef_mask, ↓Dev.refEval_mask, ↓Dev.disputes_mask, ↓Dev.offsetOf_mask, ↓Dev.takeOffset_mask, ↓Dev.mask_foldl, ↓Dev.mask_foldl2])
      | (simp (decide := true) only [↓Dev.updRef_mask, ↓Dev.refEval_mask, ↓Dev.disputes_mask, ↓Dev.offsetOf_mask, ↓Dev.takeOffset_mask, ↓Dev.mask_foldl, ↓Dev.mask_foldl2]))

theorem Dev.activityLost_mask {T : List Part} (hT : Part.within [.regs, .tsu, .cal, .host, .jersey, .fresh] T = true) (d : Dev) (r : Nat) :
    (Dev.activityLost d r).mask T = d.mask T := by
  refine Dev.mask_mono hT ?_
  unfold Dev.activityLost
  repeat' (first | split | (simp (decide := true) only [↓Dev.updRef_mask, ↓Dev.refFailed_mask, ↓Dev.disputes_mask]))

theorem Dev.steerTimeout_mask {T : List Part} (hT : Part.within [.regs, .tsu, .cal, .host, .jersey, .fresh] T = true) (d : Dev) :
    (Dev.steerTimeout d).mask T = d.mask T := by
  refine Dev.mask_mono hT ?_
  unfold Dev.steerTimeout
  repeat' (first | split | (simp (decide := true) only [↓Dev.updRef_mask, ↓Dev.refFailed_mask, ↓Dev.disputes_mask, ↓Dev.mask_set_tsu]))

theorem Dev.s1Frame_mask {T : List Part} (hT : Part.within [.regs, .tsu, .cal, .host, .jersey] T = true) (d : Dev) (r ql : Nat) :
    (Dev.s1Frame d r ql).mask T = d.mask T := by
  refine Dev.mask_mono hT ?_
  unfold Dev.s1Frame
  repeat' (first | split | (simp (decide := true) only [↓Dev.raise_mask, ↓Dev.updRef_mask, ↓Dev.calQl_mask, ↓Dev.selQlCheck_mask, ↓Dev.disputes_mask, ↓Dev.mask_set_cal]))

theorem Dev.seePhase_mask {T : List Part} (hT : Part.within [.tsu] T = true) (d : Dev) (e : Int) :
    (Dev.seePhase d e).mask T = d.mask T := by
  refine Dev.mask_mono hT ?_
  unfold Dev.seePhase
  repeat' (first | (simp (decide := true) only [↓Dev.mask_set_tsu]; done) | split)

theorem Dev.tsuLockedNow_mask {T : List Part} (hT : Part.within [.regs, .tsu, .cal, .host, .jersey, .fresh] T = true) (d : Dev) :
    (Dev.tsuLockedNow d).mask T = d.mask T := by
  refine Dev.mask_mono hT ?_
  unfold Dev.tsuLockedNow
  repeat' (first | (simp (decide := true) only [↓Dev.tsuEnter_mask, ↓Dev.mask_set_tsu]; done) | split)

theorem Dev.phaseLoss_mask {T : List Part} (hT : Part.within [.regs, .points, .xc, .pkt, .tsu, .cal, .host, .jersey, .fresh] T = true) (d :
    Dev) :
    (Dev.phaseLoss d).mask T = d.mask T := by
  refine Dev.mask_mono hT ?_
  unfold Dev.phaseLoss
  repeat' (first | (simp (decide := true) only [↓Dev.acquire_mask]; done) | split)

theorem Dev.holdoverExpired_mask {T : List Part} (hT : Part.within [.regs, .points, .xc, .pkt, .tsu, .cal, .host, .jersey, .fresh] T = true) (d :
    Dev) :
    (Dev.holdoverExpired d).mask T = d.mask T := by
  refine Dev.mask_mono hT ?_
  unfold Dev.holdoverExpired
  repeat' (first | (simp (decide := true) only [↓Dev.tsuEnter_mask, ↓Dev.selectFree_mask]; done) | split)

theorem Dev.learn_mask {T : List Part} (hT : Part.within [.tsu] T = true) (d : Dev) (mean : Int) :
    (Dev.learn d mean).mask T = d.mask T := Dev.mask_mono hT rfl

theorem Dev.historySecond_mask {T : List Part} (hT : Part.within [.regs, .tsu, .cal, .host, .jersey, .fresh] T = true) (d : Dev) (mean :
    Int) :
    (Dev.historySecond d mean).mask T = d.mask T := by
  refine Dev.mask_mono hT ?_
  unfold Dev.historySecond
  repeat' (first | (simp (decide := true) only [↓Dev.setTerm_mask, ↓Dev.meanFree_mask, ↓Dev.learn_mask]; done) | split)

theorem Dev.capture_mask {T : List Part} (hT : Part.within [.tsu] T = true) (d : Dev) :
    (Dev.capture d).mask T = d.mask T := Dev.mask_mono hT rfl

theorem Dev.calSecond_mask {T : List Part} (hT : Part.within [.regs, .tsu, .cal, .host, .jersey] T = true) (d : Dev) :
    (Dev.calSecond d).mask T = d.mask T := by
  refine Dev.mask_mono hT ?_
  unfold Dev.calSecond
  repeat' (first | (simp (decide := true) only [↓Dev.recompute_mask, ↓Dev.mask_set_cal, ↓Dev.mask_set_tsu]; done) | split)

theorem Dev.newTemp_mask {T : List Part} (hT : Part.within [.regs, .cal, .host, .jersey] T = true) (d : Dev) (t : Int) (i2c : Bool) :
    (Dev.newTemp d t i2c).mask T = d.mask T := by
  refine Dev.mask_mono hT ?_
  unfold Dev.newTemp
  repeat' (first | split | (simp (decide := true) only [↓Dev.calMark_mask, ↓Dev.calAbort_mask, ↓Dev.mask_set_cal]))

theorem Dev.i2cRead_mask {T : List Part} (hT : Part.within [.regs, .cal, .host, .jersey] T = true) (d : Dev) (ans : Option (Byte × Byte)) :
    (Dev.i2cRead d ans).mask T = d.mask T := by
  refine Dev.mask_mono hT ?_
  unfold Dev.i2cRead
  repeat' (first | split | (simp (decide := true) only [↓Dev.emit_mask, ↓Dev.raise_mask, ↓Dev.calAbort_mask, ↓Dev.newTemp_mask, ↓Dev.mask_set_cal]))

theorem Dev.tempRead_mask {T : List Part} (hT : Part.within [.regs, .cal, .host, .jersey] T = true) (d : Dev) (res : TempReading) :
    (Dev.tempRead d res).mask T = d.mask T := by
  refine Dev.mask_mono hT ?_
  unfold Dev.tempRead
  repeat' (first | split | (simp (decide := true) only [↓Dev.newTemp_mask, ↓Dev.i2cRead_mask, ↓Dev.mask_set_cal]))

theorem Dev.calWindowEnd_mask {T : List Part} (hT : Part.within [.regs, .tsu, .cal, .host, .jersey, .fresh] T = true) (d : Dev) : Dev.mask T
    (Dev.calWindowEnd d) = d.mask T := by
  refine Dev.mask_mono hT ?_
  unfold Dev.calWindowEnd
  try simp (decide := true) only [↓Dev.raise_mask, ↓Dev.complete_mask, ↓Dev.recompute_mask, ↓Dev.meanFree_mask, ↓Dev.meanNearest_mask, ↓Dev.calAbort_mask, ↓Dev.mask_foldl, ↓Dev.mask_foldl2, ↓Dev.mask_set_cal]
  repeat' (first
      | done
      | with_reducible rfl
      | (with_reducible refine (Dev.mask_foldl ?_ _ _).trans ?_)
      | (with_reducible refine (Dev.mask_foldl2 ?_ _ _).trans ?_)
      | (simp (decide := true) only [↓Dev.raise_mask, ↓Dev.complete_mask, ↓Dev.recompute_mask, ↓Dev.meanFree_mask, ↓Dev.meanNearest_mask, ↓Dev.calAbort_mask, ↓Dev.mask_foldl, ↓Dev.mask_foldl2, ↓Dev.mask_set_cal]; done)
      | (intro d x; try dsimp only)
      | (split <;> try simp (decide := true) only [↓Dev.raise_mask, ↓Dev.complete_mask, ↓Dev.recompute_mask, ↓Dev.meanFree_mask, ↓Dev.meanNearest_mask, ↓Dev.calAbort_mask, ↓Dev.mask_foldl, ↓Dev.mask_foldl2, ↓Dev.mask_set_cal])
      | (simp (decide := true) only [↓Dev.raise_mask, ↓Dev.complete_mask, ↓Dev.recompute_mask, ↓Dev.meanFree_mask, ↓Dev.meanNearest_mask, ↓Dev.calAbort_mask, ↓Dev.mask_foldl, ↓Dev.mask_foldl2, ↓Dev.mask_set_cal]))

theorem Dev.hostWrite_mask {T : List Part} (hT : Part.within [.host, .jersey] T = true) (d : Dev) (addr : Data) (bs : List Byte) :
    (Dev.hostWrite d addr bs).mask T = d.mask T := by
  refine Dev.mask_mono hT ?_
  unfold Dev.hostWrite
  repeat' (first | (simp (decide := true) only [↓Dev.emit_mask, ↓Dev.jyData_mask]; done) | split)

theorem Dev.secHold_mask {T : List Part} (hT : Part.within [.regs, .masters] T = true) (d : Dev) :
    (Dev.secHold d).mask T = d.mask T := Dev.mask_mono hT rfl

theorem Dev.secGo_mask {T : List Part} (hT : Part.within [.masters] T = true) (d : Dev) :
    (Dev.secGo d).mask T = d.mask T := by
  refine Dev.mask_mono hT ?_
  unfold Dev.secGo
  repeat' (first | (simp (decide := true) only [↓Dev.mask_set_masters]; done) | split)

theorem Dev.secQueue_mask {T : List Part} (hT : Part.within [.regs, .sec, .masters] T = true) (d : Dev) (x : SecJob) :
    (Dev.secQueue d x).mask T = d.mask T := by
  refine Dev.mask_mono hT ?_
  unfold Dev.secQueue
  repeat' (first | split | (simp (decide := true) only [↓Dev.secHold_mask, ↓Dev.mask_set_sec]))

theorem Dev.secStart_mask {T : List Part} (hT : Part.within [.regs, .sec, .masters] T = true) (d : Dev) :
    (Dev.secStart d).mask T = d.mask T := by
  refine Dev.mask_mono hT ?_
  unfold Dev.secStart
  repeat' (first | split | (simp (decide := true) only [↓Dev.secHold_mask, ↓Dev.secGo_mask, ↓Dev.mask_set_sec]))

theorem Dev.writeIncomplete_mask {T : List Part} (hT : Part.within [.regs, .plane, .arms, .sliceU, .queues, .psels, .tsu, .cal, .twill,
    .host, .jersey, .mx, .fresh, .reports] T = true) (d : Dev) (master addr : Nat) :
    (Dev.writeIncomplete d master addr).mask T = d.mask T := by
  refine Dev.mask_mono hT ?_
  unfold Dev.writeIncomplete; simp (decide := true) only [↓Dev.raise_mask, ↓Dev.fault1_mask]

theorem Dev.loadStop_mask {T : List Part} (hT : Part.within [.regs, .plane, .arms, .sliceU, .queues, .psels, .tsu, .cal, .twill, .host,
    .jersey, .sec, .mx, .fresh, .reports] T = true) (d : Dev) (m : List Host.Cell) :
    (Dev.loadStop d m).1.mask T = d.mask T := by
  refine Dev.mask_mono hT ?_
  unfold Dev.loadStop
  split
  · rfl
  · dsimp only
    rw [Dev.later_mask (by decide), Dev.writeIncomplete_mask (by decide)]
    split <;> rfl

theorem Dev.attestDone_mask {T : List Part} (hT : Part.within [.regs, .host, .jersey, .sec] T = true) (d : Dev) :
    (Dev.attestDone d).mask T = d.mask T := by
  refine Dev.mask_mono hT ?_
  unfold Dev.attestDone
  repeat' (first | (simp (decide := true) only [↓Dev.complete_mask, ↓Dev.hostWrite_mask, ↓Dev.mask_set_host, ↓Dev.mask_set_sec]; done) | split)

theorem Dev.drawBytes_mask {T : List Part} (hT : Part.within [.fresh] T = true) (n : Nat) (d : Dev) :
    (Dev.drawBytes n d).2.mask T = d.mask T := by
  refine Dev.mask_mono hT ?_
  induction n generalizing d with
  | zero => rfl
  | succ n ih =>
    unfold Dev.drawBytes
    exact (ih _).trans rfl

theorem Dev.adminWrite_mask {T : List Part} (hT : Part.within [.regs, .host, .jersey, .sec, .fresh] T = true) (d : Dev) (b : List Byte) (ok : Bool)
    : Dev.mask T (Dev.adminWrite d b ok) = d.mask T := by
  refine Dev.mask_mono hT ?_
  unfold Dev.adminWrite
  try simp (decide := true) only [↓Dev.raise_mask, ↓Dev.drawBytes_mask, ↓Dev.mask_foldl, ↓Dev.mask_foldl2, ↓Dev.mask_set_sec]
  repeat' (first
      | done
      | with_reducible rfl
      | (with_reducible refine (Dev.mask_foldl ?_ _ _).trans ?_)
      | (with_reducible refine (Dev.mask_foldl2 ?_ _ _).trans ?_)
      | (simp (decide := true) only [↓Dev.raise_mask, ↓Dev.drawBytes_mask, ↓Dev.mask_foldl, ↓Dev.mask_foldl2, ↓Dev.mask_set_sec]; done)
      | (intro d x; try dsimp only)
      | (split <;> try simp (decide := true) only [↓Dev.raise_mask, ↓Dev.drawBytes_mask, ↓Dev.mask_foldl, ↓Dev.mask_foldl2, ↓Dev.mask_set_sec])
      | (simp (decide := true) only [↓Dev.raise_mask, ↓Dev.drawBytes_mask, ↓Dev.mask_foldl, ↓Dev.mask_foldl2, ↓Dev.mask_set_sec]))

theorem Dev.adminRun_mask {T : List Part} (hT : Part.within [.regs, .host, .jersey, .sec, .fresh] T = true) (d : Dev) (b : List Byte) (ok : Bool) :
    (Dev.adminRun d b ok).2.2.mask T = d.mask T := by
  refine Dev.mask_mono hT ?_
  unfold Dev.adminRun
  repeat' (first | split | (simp (decide := true) only [↓Dev.count32_mask, ↓Dev.raise_mask, ↓Dev.adminWrite_mask, ↓Dev.mask_set_sec]))

theorem Dev.secReset_mask {T : List Part} (hT : Part.within [.regs, .plane, .arms, .sliceU, .queues, .psels, .tsu, .cal, .twill, .host,
    .jersey, .sec, .masters, .mx, .fresh, .reports] T = true) (d : Dev) (m : List Host.Cell) :
    (Dev.secReset d m).1.mask T = d.mask T := by
  refine Dev.mask_mono hT ?_
  unfold Dev.secReset
  try simp (decide := true) only [↓Dev.later_mask, ↓Dev.endAborted_mask, ↓Dev.secGo_mask, ↓Dev.loadStop_mask, ↓Dev.mask_set_sec, ↓Dev.mask_foldl, ↓Dev.mask_foldl2]
  repeat' (first
      | done
      | with_reducible rfl
      | (with_reducible refine (Dev.mask_foldl ?_ _ _).trans ?_)
      | (with_reducible refine (Dev.mask_foldl2 ?_ _ _).trans ?_)
      | (simp (decide := true) only [↓Dev.later_mask, ↓Dev.endAborted_mask, ↓Dev.secGo_mask, ↓Dev.loadStop_mask, ↓Dev.mask_set_sec, ↓Dev.mask_foldl, ↓Dev.mask_foldl2]; done)
      | (intro d x; try dsimp only)
      | (split <;> try simp (decide := true) only [↓Dev.later_mask, ↓Dev.endAborted_mask, ↓Dev.secGo_mask, ↓Dev.loadStop_mask, ↓Dev.mask_set_sec, ↓Dev.mask_foldl, ↓Dev.mask_foldl2])
      | (simp (decide := true) only [↓Dev.later_mask, ↓Dev.endAborted_mask, ↓Dev.secGo_mask, ↓Dev.loadStop_mask, ↓Dev.mask_set_sec, ↓Dev.mask_foldl, ↓Dev.mask_foldl2]))

theorem keyAdminDone_mask {T : List Part} (hT : Part.within [.regs, .plane, .arms, .sliceU, .queues, .psels, .tsu, .cal, .twill, .host,
    .jersey, .sec, .masters, .mx, .fresh, .reports] T = true) (ok : Bool) (d : Dev) (m : List Host.Cell) :
    (keyAdminDone ok d m).1.mask T = d.mask T := by
  refine Dev.mask_mono hT ?_
  unfold keyAdminDone
  repeat' (first | split | (simp (decide := true) only [↓Dev.complete_mask, ↓Dev.hostWrite_mask, ↓Dev.adminRun_mask, ↓Dev.secReset_mask, ↓Dev.mask_set_sec]))

theorem Dev.pkgStaged_mask {T : List Part} (hT : Part.within [.regs, .twill, .host, .jersey, .sec] T = true) (d : Dev) (r : HostRead) :
    (Dev.pkgStaged d r).mask T = d.mask T := by
  refine Dev.mask_mono hT ?_
  unfold Dev.pkgStaged
  repeat' (first | split | (simp (decide := true) only [↓Dev.post_mask, ↓Dev.complete_mask, ↓Dev.mask_set_twill, ↓Dev.mask_set_sec, ↓Dev.mask_set_twill_sec]))

theorem Dev.setPkg_mask {T : List Part} (hT : Part.within [.twill, .sec] T = true) (d : Dev) (p : Fin 2) (k : Pkg) (bs : List Byte) :
    (Dev.setPkg d p k bs).mask T = d.mask T := by
  refine Dev.mask_mono hT ?_
  unfold Dev.setPkg; split <;> simp (decide := true) only [↓Dev.mask_set_twill, ↓Dev.mask_set_sec, ↓Dev.mask_set_twill_sec]

theorem pkgLoaded_mask {T : List Part} (hT : Part.within [.regs, .twill, .host, .jersey, .sec] T = true) (d : Dev) (m : List Host.Cell) :
    (pkgLoaded d m).1.mask T = d.mask T := by
  refine Dev.mask_mono hT ?_
  unfold pkgLoaded; split <;> simp (decide := true) only [↓Dev.post_mask, ↓Dev.complete_mask, ↓Dev.setPkg_mask, ↓Dev.mask_set_plane, ↓Dev.mask_set_twill]

theorem Dev.handoverDone_mask {T : List Part} (hT : Part.within [.regs, .plane, .arms, .psels, .twill, .host, .jersey, .mx] T = true) (d :
    Dev) :
    (Dev.handoverDone d).mask T = d.mask T := by
  refine Dev.mask_mono hT ?_
  unfold Dev.handoverDone
  try simp (decide := true) only [↓Dev.post_mask, ↓Dev.complete_mask, ↓Dev.expose_mask, ↓Dev.unpair_mask, ↓Dev.disarm_mask, ↓Dev.setFence_mask, ↓Dev.postState_mask, ↓Dev.mask_set_plane, ↓Dev.mask_foldl, ↓Dev.mask_foldl2]
  repeat' (first
      | done
      | with_reducible rfl
      | (with_reducible refine (Dev.mask_foldl ?_ _ _).trans ?_)
      | (with_reducible refine (Dev.mask_foldl2 ?_ _ _).trans ?_)
      | (simp (decide := true) only [↓Dev.post_mask, ↓Dev.complete_mask, ↓Dev.expose_mask, ↓Dev.unpair_mask, ↓Dev.disarm_mask, ↓Dev.setFence_mask, ↓Dev.postState_mask, ↓Dev.mask_set_plane, ↓Dev.mask_foldl, ↓Dev.mask_foldl2]; done)
      | (intro d x; try dsimp only)
      | (split <;> try simp (decide := true) only [↓Dev.post_mask, ↓Dev.complete_mask, ↓Dev.expose_mask, ↓Dev.unpair_mask, ↓Dev.disarm_mask, ↓Dev.setFence_mask, ↓Dev.postState_mask, ↓Dev.mask_set_plane, ↓Dev.mask_foldl, ↓Dev.mask_foldl2])
      | (simp (decide := true) only [↓Dev.post_mask, ↓Dev.complete_mask, ↓Dev.expose_mask, ↓Dev.unpair_mask, ↓Dev.disarm_mask, ↓Dev.setFence_mask, ↓Dev.postState_mask, ↓Dev.mask_set_plane, ↓Dev.mask_foldl, ↓Dev.mask_foldl2]))

theorem Dev.passPlane_mask {T : List Part} (hT : Part.within [.regs, .queues, .twill, .host, .jersey, .mx, .fresh] T = true) (d : Dev)
    (slice src dst plane : Nat) :
    (Dev.passPlane d slice src dst plane).mask T = d.mask T := by
  refine Dev.mask_mono hT ?_
  unfold Dev.passPlane
  try simp (decide := true) only [↓Dev.draw_mask, ↓Dev.updEngine_mask, ↓Dev.emptyQueue_mask, ↓Dev.qPush_mask, ↓Dev.mask_set_mx, ↓Dev.mask_foldl, ↓Dev.mask_foldl2]
  repeat' (first
      | done
      | with_reducible rfl
      | (with_reducible refine (Dev.mask_foldl ?_ _ _).trans ?_)
      | (with_reducible refine (Dev.mask_foldl2 ?_ _ _).trans ?_)
      | (simp (decide := true) only [↓Dev.draw_mask, ↓Dev.updEngine_mask, ↓Dev.emptyQueue_mask, ↓Dev.qPush_mask, ↓Dev.mask_set_mx, ↓Dev.mask_foldl, ↓Dev.mask_foldl2]; done)
      | (intro d x; try dsimp only)
      | (split <;> try simp (decide := true) only [↓Dev.draw_mask, ↓Dev.updEngine_mask, ↓Dev.emptyQueue_mask, ↓Dev.qPush_mask, ↓Dev.mask_set_mx, ↓Dev.mask_foldl, ↓Dev.mask_foldl2])
      | (simp (decide := true) only [↓Dev.draw_mask, ↓Dev.updEngine_mask, ↓Dev.emptyQueue_mask, ↓Dev.qPush_mask, ↓Dev.mask_set_mx, ↓Dev.mask_foldl, ↓Dev.mask_foldl2]))

theorem Dev.passMessages_mask {T : List Part} (hT : Part.within [.regs, .queues, .twill, .host, .jersey, .mx, .fresh] T = true) (d : Dev)
    (slice src dst : Nat) :
    (Dev.passMessages d slice src dst).mask T = d.mask T := by
  refine Dev.mask_mono hT ?_
  unfold Dev.passMessages
  try simp (decide := true) only [↓Dev.mxRun_mask, ↓Dev.passPlane_mask, ↓Dev.mask_foldl, ↓Dev.mask_foldl2]
  repeat' (first
      | done
      | with_reducible rfl
      | (with_reducible refine (Dev.mask_foldl ?_ _ _).trans ?_)
      | (with_reducible refine (Dev.mask_foldl2 ?_ _ _).trans ?_)
      | (simp (decide := true) only [↓Dev.mxRun_mask, ↓Dev.passPlane_mask, ↓Dev.mask_foldl, ↓Dev.mask_foldl2]; done)
      | (intro d x; try dsimp only)
      | (split <;> try simp (decide := true) only [↓Dev.mxRun_mask, ↓Dev.passPlane_mask, ↓Dev.mask_foldl, ↓Dev.mask_foldl2])
      | (simp (decide := true) only [↓Dev.mxRun_mask, ↓Dev.passPlane_mask, ↓Dev.mask_foldl, ↓Dev.mask_foldl2]))

theorem Dev.remapEngine_mask {T : List Part} (hT : Part.within [.points, .sels, .twill] T = true) (d : Dev) (slice src dst : Nat) :
    (Dev.remapEngine d slice src dst).mask T = d.mask T := by
  refine Dev.mask_mono hT ?_
  unfold Dev.remapEngine; simp (decide := true) only [↓Dev.mask_set_points_sels_twill]

theorem moveStore_mask {T : List Part} (hT : Part.within [.regs, .plane, .arms, .sliceU, .queues, .psels, .tsu, .cal, .twill, .host,
    .jersey, .mx, .fresh, .reports] T = true) (slice src dst bytes own plane : Nat) (d : Dev) (m : List Host.Cell) :
    (moveStore slice src dst bytes own plane d m).1.mask T = d.mask T := by
  refine Dev.mask_mono hT ?_
  unfold moveStore
  try simp (decide := true) only [↓copyWord_mask, ↓Dev.mask_foldl, ↓Dev.mask_foldl2]
  repeat' (first
      | done
      | with_reducible rfl
      | (with_reducible refine (Dev.mask_foldl ?_ _ _).trans ?_)
      | (with_reducible refine (Dev.mask_foldl2 ?_ _ _).trans ?_)
      | (simp (decide := true) only [↓copyWord_mask, ↓Dev.mask_foldl, ↓Dev.mask_foldl2]; done)
      | (intro d x; try dsimp only)
      | (split <;> try simp (decide := true) only [↓copyWord_mask, ↓Dev.mask_foldl, ↓Dev.mask_foldl2])
      | (simp (decide := true) only [↓copyWord_mask, ↓Dev.mask_foldl, ↓Dev.mask_foldl2]))

theorem Dev.startOn_mask {T : List Part} (hT : Part.within [.regs, .plane, .points, .groupCause, .sels, .twill, .host, .jersey] T = true) (d
    : Dev) (slice src dst : Nat) (dead : Bool) :
    (Dev.startOn d slice src dst dead).mask T = d.mask T := by
  refine Dev.mask_mono hT ?_
  unfold Dev.startOn
  repeat' (first | (simp (decide := true) only [↓Dev.refresh_mask, ↓Dev.expose_mask, ↓Dev.restartPoints_mask, ↓Dev.restartSels_mask, ↓Dev.remapEngine_mask]; done) | split)

theorem moveDone_mask {T : List Part} (hT : Part.within [.regs, .plane, .arms, .sliceU, .queues, .points, .groupCause, .sels, .psels, .tsu,
    .cal, .twill, .host, .jersey, .mx, .fresh, .reports] T = true) (slice src : Nat) (d : Dev) (mem : List Host.Cell) :
    (moveDone slice src d mem).1.mask T = d.mask T := by
  refine Dev.mask_mono hT ?_
  unfold moveDone
  repeat' (first | split | (simp (decide := true) only [↓Dev.complete_mask, ↓moveStore_mask, ↓Dev.startOn_mask, ↓Dev.mask_set_twill]))

theorem Dev.feedFrames_mask {T : List Part} (hT : Part.within [.regs, .plane, .arms, .sliceU, .queues, .crc, .psels, .tsu, .cal, .twill,
    .host, .jersey, .mx, .fresh, .reports] T = true) (d : Dev) (u : Nat) (frames : List (List Byte)) :
    (Dev.feedFrames d u frames).mask T = d.mask T := by
  refine Dev.mask_mono hT ?_
  unfold Dev.feedFrames
  try simp (decide := true) only [↓Dev.crcFeed_mask, ↓Dev.mask_foldl, ↓Dev.mask_foldl2]
  repeat' (first
      | done
      | with_reducible rfl
      | (with_reducible refine (Dev.mask_foldl ?_ _ _).trans ?_)
      | (with_reducible refine (Dev.mask_foldl2 ?_ _ _).trans ?_)
      | (simp (decide := true) only [↓Dev.crcFeed_mask, ↓Dev.mask_foldl, ↓Dev.mask_foldl2]; done)
      | (intro d x; try dsimp only)
      | (split <;> try simp (decide := true) only [↓Dev.crcFeed_mask, ↓Dev.mask_foldl, ↓Dev.mask_foldl2])
      | (simp (decide := true) only [↓Dev.crcFeed_mask, ↓Dev.mask_foldl, ↓Dev.mask_foldl2]))

theorem Dev.dccSecond_mask {T : List Part} (hT : Part.within [.regs, .plane, .arms, .sliceU, .queues, .crc, .psels, .tsu, .cal, .twill,
    .host, .jersey, .mx, .fresh, .reports] T = true) (d : Dev) (i : Nat) (north south : List Byte) (gapN gapS : Bool) :
    (Dev.dccSecond d i north south gapN gapS).mask T = d.mask T := by
  refine Dev.mask_mono hT ?_
  unfold Dev.dccSecond
  repeat' (first | split | (simp (decide := true) only [↓Dev.stat_mask, ↓Dev.feedFrames_mask, ↓Dev.mask_set_twill]))

theorem Dev.engineStall_mask {T : List Part} (hT : Part.within [.regs, .plane, .arms, .sliceU, .queues, .psels, .tsu, .cal, .twill, .host,
    .jersey, .mx, .fresh, .reports] T = true) (d : Dev) (g : Fin 256) :
    (Dev.engineStall d g).mask T = d.mask T := by
  refine Dev.mask_mono hT ?_
  unfold Dev.engineStall
  repeat' (first | split | (simp (decide := true) only [↓Dev.raise_mask, ↓Dev.fault1_mask]))

theorem Dev.heldCleared_mask {T : List Part} (hT : Part.within [.plane] T = true) (d : Dev) (a : Nat) (keep : Word) :
    (Dev.heldCleared d a keep).mask T = d.mask T := Dev.mask_mono hT rfl

theorem Dev.clearCounter_mask {T : List Part} (hT : Part.within [.regs, .plane, .e1s, .odus, .vc4s, .los, .circuits] T = true) (d : Dev) (a
    : Nat) :
    (Dev.clearCounter d a).mask T = d.mask T := by
  refine Dev.mask_mono hT ?_
  unfold Dev.clearCounter
  repeat' (first | (simp (decide := true) only [↓Dev.setReg_mask, ↓Dev.updE1_mask, ↓Dev.updOdu_mask, ↓Dev.updVc4_mask, ↓Dev.updLo_mask, ↓Dev.updCircuit_mask, ↓Dev.heldCleared_mask]; done) | split)

theorem Dev.snapPoint_mask {T : List Part} (hT : Part.within [.regs, .points, .host, .jersey] T = true) (d : Dev) (k : Nat) (clear prev :
    Bool) :
    (Dev.snapPoint d k clear prev).mask T = d.mask T := by
  refine Dev.mask_mono hT ?_
  unfold Dev.snapPoint
  repeat' (first | (simp (decide := true) only [↓Dev.stat_mask, ↓Dev.updPoint_mask, ↓Dev.rollPoint_mask]; done) | split)

theorem Dev.snapDone_mask {T : List Part} (hT : Part.within [.regs, .host, .jersey] T = true) (d : Dev) :
    (Dev.snapDone d).mask T = d.mask T := by
  refine Dev.mask_mono hT ?_
  unfold Dev.snapDone
  repeat' (first | (simp (decide := true) only [↓Dev.complete_mask, ↓Dev.hostWrite_mask, ↓Dev.mask_set_host]; done) | split)

theorem Dev.fetchError_mask {T : List Part} (hT : Part.within [.regs, .host, .jersey] T = true) (d : Dev) (r : Nat) :
    (Dev.fetchError d r).mask T = d.mask T := by
  refine Dev.mask_mono hT ?_
  unfold Dev.fetchError; split <;> simp (decide := true) only [↓Dev.updRing_mask, ↓Dev.raise_mask, ↓Dev.mask_set_host]

theorem Dev.workerDone_mask {T : List Part} (hT : Part.within [.regs, .host] T = true) (d : Dev) (w : Nat) (c : WorkerDone) :
    (Dev.workerDone d w c).mask T = d.mask T := by
  refine Dev.mask_mono hT ?_
  unfold Dev.workerDone; split <;> simp (decide := true) only [↓Dev.writeCompletion_mask, ↓Dev.mask_set_tsu, ↓Dev.mask_set_host, ↓Dev.mask_set_sec]

theorem Dev.urgentFreeze_mask {T : List Part} (hT : Part.within [.regs, .lanes, .ports, .framers, .flexo, .oofCause, .points, .groupCause, .odus,
    .vc4s, .host, .jersey] T = true) (d : Dev) (arg : Nat) :
    (Dev.urgentFreeze d arg).2.mask T = d.mask T := by
  refine Dev.mask_mono hT ?_
  unfold Dev.urgentFreeze
  repeat' (first | split | (simp (decide := true) only [↓Dev.holdOn_mask, ↓Dev.holdOff_mask]))

theorem Dev.urgentForce_mask {T : List Part} (hT : Part.within [.regs, .sels, .host, .jersey] T = true) (d : Dev) (arg : Nat) :
    (Dev.urgentForce d arg).2.mask T = d.mask T := by
  unfold Dev.urgentForce
  split
  · rfl
  · split
    · rename_i h
      exact Dev.protApply_mask hT h
    · rfl

theorem Dev.urgentStop_mask {T : List Part} (hT : Part.within [.pkt] T = true) (d : Dev) (arg : Nat) :
    (Dev.urgentStop d arg).2.mask T = d.mask T := by
  refine Dev.mask_mono hT ?_
  unfold Dev.urgentStop; split <;> simp (decide := true) only [↓Dev.updPq_mask]

theorem Dev.urgentPlane_mask {T : List Part} (hT : Part.within [.regs, .plane, .arms, .psels, .twill, .host, .jersey, .mx] T = true) (d :
    Dev) (arg : Nat) :
    (Dev.urgentPlane d arg).2.mask T = d.mask T := by
  refine Dev.mask_mono hT ?_
  unfold Dev.urgentPlane
  repeat' (first | (simp (decide := true) only [↓Dev.fencePlane_mask]; done) | split)

theorem Dev.urgentRun_mask {T : List Part} (hT : Part.within [.regs, .plane, .arms, .lanes, .ports, .framers, .flexo, .oofCause, .points,
    .groupCause, .odus, .vc4s, .sels, .psels, .pkt, .twill, .host, .jersey, .mx] T = true) (d : Dev) (w : Word) :
    (Dev.urgentRun d w).2.mask T = d.mask T := by
  refine Dev.mask_mono hT ?_
  unfold Dev.urgentRun
  repeat' (first | (simp (decide := true) only [↓Dev.urgentFreeze_mask, ↓Dev.urgentForce_mask, ↓Dev.urgentStop_mask, ↓Dev.urgentPlane_mask]; done) | split)

theorem Dev.urgentResult_mask {T : List Part} (hT : Part.within [.regs, .host, .jersey] T = true) (d : Dev) (w : Word) (st : Nat) :
    (Dev.urgentResult d w st).mask T = d.mask T := by
  refine Dev.mask_mono hT ?_
  unfold Dev.urgentResult; simp (decide := true) only [↓Dev.post_mask, ↓Dev.mask_set_host]

theorem Dev.urgentHere_mask {T : List Part} (hT : Part.within [.regs, .plane, .arms, .lanes, .ports, .framers, .flexo, .oofCause, .points,
    .groupCause, .odus, .vc4s, .sels, .psels, .pkt, .twill, .host, .jersey, .mx] T = true) (d : Dev) (w : Word) :
    (Dev.urgentHere d w).mask T = d.mask T := by
  refine Dev.mask_mono hT ?_
  unfold Dev.urgentHere; simp (decide := true) only [↓Dev.urgentRun_mask, ↓Dev.urgentResult_mask]

theorem Dev.urgentTake_mask {T : List Part} (hT : Part.within [.regs, .plane, .arms, .sliceU, .queues, .psels, .tsu, .cal, .twill, .host,
    .jersey, .mx, .fresh, .reports] T = true) (d : Dev) (rest : List Word) :
    (Dev.urgentTake d rest).mask T = d.mask T := by
  refine Dev.mask_mono hT ?_
  unfold Dev.urgentTake; simp (decide := true) only [↓Dev.draw_mask, ↓Dev.itemCheck_mask, ↓Dev.mask_set_host]

theorem Dev.urgentServe_mask {T : List Part} (hT : Part.within [.regs, .plane, .arms, .sliceU, .lanes, .ports, .queues, .framers, .flexo,
    .oofCause, .points, .groupCause, .odus, .vc4s, .sels, .psels, .pkt, .tsu, .cal, .twill, .host, .jersey, .mx, .fresh, .reports] T = true)
    (x0 : Nat) (x1 : Dev) :
    (Dev.urgentServe x0 x1).mask T = x1.mask T := by
  refine Dev.mask_mono hT ?_
  induction x0 generalizing x1 with
  | zero => rfl
  | succ n ih =>
    unfold Dev.urgentServe
    dsimp only
    split
    · rfl
    · split
      · exact (ih _).trans ((Dev.urgentHere_mask (by decide) _ _).trans (Dev.urgentTake_mask (by decide) _ _))
      · split
        · exact (ih _).trans ((Dev.urgentResult_mask (by decide) _ _ _).trans (Dev.urgentTake_mask (by decide) _ _))
        · split
          · exact (ih _).trans ((Dev.jySend_mask (by decide) _ _ _ _ _).trans (Dev.urgentTake_mask (by decide) _ _))
          · rfl

theorem Dev.urgentWrite_mask {T : List Part} (hT : Part.within [.regs, .plane, .arms, .sliceU, .lanes, .ports, .queues, .framers, .flexo,
    .oofCause, .points, .groupCause, .odus, .vc4s, .sels, .psels, .pkt, .tsu, .cal, .twill, .host, .jersey, .mx, .fresh, .reports] T = true)
    (d : Dev) (w : Word) :
    (Dev.urgentWrite d w).mask T = d.mask T := by
  refine Dev.mask_mono hT ?_
  unfold Dev.urgentWrite
  repeat' (first | (simp (decide := true) only [↓Dev.count32_mask, ↓Dev.raise_mask, ↓Dev.endAborted_mask, ↓Dev.urgentServe_mask, ↓Dev.mask_set_host]; done) | split)

theorem Dev.ringsOff_mask {T : List Part} (hT : Part.within [.regs, .host] T = true) (d : Dev) : Dev.mask T (Dev.ringsOff d) = d.mask T := by
  refine Dev.mask_mono hT ?_
  unfold Dev.ringsOff
  try simp (decide := true) only [↓Dev.setReg_mask, ↓Dev.updRing_mask, ↓Dev.mask_foldl, ↓Dev.mask_foldl2, ↓Dev.mask_set_los, ↓Dev.mask_set_host]
  repeat' (first
      | done
      | with_reducible rfl
      | (with_reducible refine (Dev.mask_foldl ?_ _ _).trans ?_)
      | (with_reducible refine (Dev.mask_foldl2 ?_ _ _).trans ?_)
      | (simp (decide := true) only [↓Dev.setReg_mask, ↓Dev.updRing_mask, ↓Dev.mask_foldl, ↓Dev.mask_foldl2, ↓Dev.mask_set_los, ↓Dev.mask_set_host]; done)
      | (intro d x; try dsimp only)
      | (split <;> try simp (decide := true) only [↓Dev.setReg_mask, ↓Dev.updRing_mask, ↓Dev.mask_foldl, ↓Dev.mask_foldl2, ↓Dev.mask_set_los, ↓Dev.mask_set_host])
      | (simp (decide := true) only [↓Dev.setReg_mask, ↓Dev.updRing_mask, ↓Dev.mask_foldl, ↓Dev.mask_foldl2, ↓Dev.mask_set_los, ↓Dev.mask_set_host]))

theorem Dev.linkUp_mask {T : List Part} (hT : Part.within [.host] T = true) (d : Dev) (gen width : Nat) :
    (Dev.linkUp d gen width).mask T = d.mask T := by
  refine Dev.mask_mono hT ?_
  unfold Dev.linkUp; split <;> simp (decide := true) only [↓Dev.mask_set_host]

theorem Dev.dropHeld_mask {T : List Part} (hT : Part.within [.cfg] T = true) (d : Dev) (m : Nat) :
    (Dev.dropHeld d m).mask T = d.mask T := Dev.mask_mono hT rfl

theorem Dev.linkLoss_mask {T : List Part} (hT : Part.within [.regs, .host, .cfg] T = true) (d : Dev) :
    (Dev.linkLoss d).mask T = d.mask T := by
  refine Dev.mask_mono hT ?_
  unfold Dev.linkLoss
  repeat' (first | (simp (decide := true) only [↓Dev.ringsOff_mask, ↓Dev.dropHeld_mask, ↓Dev.mask_set_host]; done) | split)

theorem Dev.cfgClear_mask {T : List Part} (hT : Part.within [.host] T = true) (d : Dev) (pf1 : Bool) :
    (Dev.cfgClear d pf1).mask T = d.mask T := Dev.mask_mono hT rfl

theorem Dev.resetTsu_mask {T : List Part} (hT : Part.within [.regs, .tsu, .cal, .host, .jersey, .fresh] T = true) (d : Dev) :
    (Dev.resetTsu d).mask T = d.mask T := by
  refine Dev.mask_mono hT ?_
  unfold Dev.resetTsu
  try simp (decide := true) only [↓Dev.later_mask, ↓Dev.endAborted_mask, ↓Dev.updRef_mask, ↓Dev.calDrop_mask, ↓Dev.refFailed_mask, ↓Dev.disputes_mask, ↓Dev.mask_set_tsu, ↓Dev.mask_foldl, ↓Dev.mask_foldl2]
  repeat' (first
      | done
      | with_reducible rfl
      | (with_reducible refine (Dev.mask_foldl ?_ _ _).trans ?_)
      | (with_reducible refine (Dev.mask_foldl2 ?_ _ _).trans ?_)
      | (simp (decide := true) only [↓Dev.later_mask, ↓Dev.endAborted_mask, ↓Dev.updRef_mask, ↓Dev.calDrop_mask, ↓Dev.refFailed_mask, ↓Dev.disputes_mask, ↓Dev.mask_set_tsu, ↓Dev.mask_foldl, ↓Dev.mask_foldl2]; done)
      | (intro d x; try dsimp only)
      | (split <;> try simp (decide := true) only [↓Dev.later_mask, ↓Dev.endAborted_mask, ↓Dev.updRef_mask, ↓Dev.calDrop_mask, ↓Dev.refFailed_mask, ↓Dev.disputes_mask, ↓Dev.mask_set_tsu, ↓Dev.mask_foldl, ↓Dev.mask_foldl2])
      | (simp (decide := true) only [↓Dev.later_mask, ↓Dev.endAborted_mask, ↓Dev.updRef_mask, ↓Dev.calDrop_mask, ↓Dev.refFailed_mask, ↓Dev.disputes_mask, ↓Dev.mask_set_tsu, ↓Dev.mask_foldl, ↓Dev.mask_foldl2]))

theorem Dev.resetCal_mask {T : List Part} (hT : Part.within [.regs, .cal, .host, .jersey] T = true) (d : Dev) :
    (Dev.resetCal d).mask T = d.mask T := by
  refine Dev.mask_mono hT ?_
  unfold Dev.resetCal; simp (decide := true) only [↓Dev.calAbort_mask, ↓Dev.mask_set_cal]

theorem Dev.resetStats_mask {T : List Part} (hT : Part.within [.regs, .plane, .arms, .sliceU, .queues, .psels, .tsu, .cal, .twill, .host,
    .jersey, .mx, .fresh, .reports] T = true) (d : Dev) :
    (Dev.resetStats d).mask T = d.mask T := by
  refine Dev.mask_mono hT ?_
  unfold Dev.resetStats
  try simp (decide := true) only [↓Dev.ends_mask, ↓Dev.endAborted_mask, ↓Dev.hostWrite_mask, ↓Dev.writeIncomplete_mask, ↓Dev.mask_set_host, ↓Dev.mask_set_fresh, ↓Dev.mask_foldl, ↓Dev.mask_foldl2]
  repeat' (first
      | done
      | with_reducible rfl
      | (with_reducible refine (Dev.mask_foldl ?_ _ _).trans ?_)
      | (with_reducible refine (Dev.mask_foldl2 ?_ _ _).trans ?_)
      | (simp (decide := true) only [↓Dev.ends_mask, ↓Dev.endAborted_mask, ↓Dev.hostWrite_mask, ↓Dev.writeIncomplete_mask, ↓Dev.mask_set_host, ↓Dev.mask_set_fresh, ↓Dev.mask_foldl, ↓Dev.mask_foldl2]; done)
      | (intro d x; try dsimp only)
      | (split <;> try simp (decide := true) only [↓Dev.ends_mask, ↓Dev.endAborted_mask, ↓Dev.hostWrite_mask, ↓Dev.writeIncomplete_mask, ↓Dev.mask_set_host, ↓Dev.mask_set_fresh, ↓Dev.mask_foldl, ↓Dev.mask_foldl2])
      | (simp (decide := true) only [↓Dev.ends_mask, ↓Dev.endAborted_mask, ↓Dev.hostWrite_mask, ↓Dev.writeIncomplete_mask, ↓Dev.mask_set_host, ↓Dev.mask_set_fresh, ↓Dev.mask_foldl, ↓Dev.mask_foldl2]))

theorem Dev.resetCrc_mask {T : List Part} (hT : Part.within [.crc] T = true) (d : Dev) (u : Nat) :
    (Dev.resetCrc d u).mask T = d.mask T := by
  refine Dev.mask_mono hT ?_
  unfold Dev.resetCrc; simp (decide := true) only [↓Dev.updCrc_mask]

theorem Dev.resetLane_mask {T : List Part} (hT : Part.within [.regs, .lanes, .ports, .queues, .framers, .flexo, .oofCause, .points, .groupCause,
    .odus, .vc4s, .host, .jersey] T = true) (d : Dev) (l : Nat) :
    (Dev.resetLane d l).mask T = d.mask T := by
  refine Dev.mask_mono hT ?_
  unfold Dev.resetLane
  repeat' (first | split | (simp (decide := true) only [↓Dev.updLane_mask, ↓Dev.settlePort_mask, ↓Dev.emptyQueue_mask, ↓Dev.portRestart_mask, ↓Dev.bringUp_mask]))

theorem resetBlock_mask {T : List Part} (hT : Part.within [.regs, .plane, .arms, .sliceU, .lanes, .ports, .queues, .crc, .framers, .flexo,
    .oofCause, .points, .groupCause, .odus, .vc4s, .psels, .tsu, .cal, .twill, .host, .jersey, .sec, .cfg, .masters, .mx, .fresh, .reports]
    T = true) (block inst : Nat) (d : Dev) (m : List Host.Cell) :
    (resetBlock block inst d m).1.mask T = d.mask T := by
  refine Dev.mask_mono hT ?_
  unfold resetBlock
  repeat' (first | (simp (decide := true) only [↓Dev.mxDropM1_mask, ↓Dev.secReset_mask, ↓Dev.ringsOff_mask, ↓Dev.dropHeld_mask, ↓Dev.resetTsu_mask, ↓Dev.resetCal_mask, ↓Dev.resetStats_mask, ↓Dev.resetCrc_mask, ↓Dev.resetLane_mask]; done) | split)

theorem warmGo_mask {T : List Part} (hT : Part.within [.regs, .plane, .arms, .sliceU, .lanes, .ports, .queues, .crc, .framers, .flexo,
    .oofCause, .points, .groupCause, .odus, .vc4s, .psels, .tsu, .cal, .twill, .host, .jersey, .power, .sec, .cfg, .masters, .mx, .fresh,
    .reports] T = true) (d : Dev) (m : List Host.Cell) :
    (warmGo d m).1.mask T = d.mask T := by
  refine Dev.mask_mono hT ?_
  unfold warmGo
  repeat' (first | split | (simp (decide := true) only [↓resetBlock_mask, ↓Dev.mask_set_power]))

theorem warmDone_mask {T : List Part} (hT : Part.within [.regs, .plane, .arms, .sliceU, .lanes, .ports, .queues, .crc, .framers, .flexo,
    .oofCause, .points, .groupCause, .odus, .vc4s, .psels, .tsu, .cal, .twill, .host, .jersey, .power, .sec, .cfg, .masters, .mx, .fresh,
    .reports] T = true) (d : Dev) (m : List Host.Cell) :
    (warmDone d m).1.mask T = d.mask T := by
  refine Dev.mask_mono hT ?_
  unfold warmDone
  repeat' (first | split | (simp (decide := true) only [↓Dev.raise_mask, ↓warmGo_mask, ↓Dev.mask_set_power]))

theorem Dev.remoteSend_mask {T : List Part} (hT : Part.within [.host, .jersey] T = true) (d : Dev) (write : Bool) :
    (Dev.remoteSend d write).mask T = d.mask T := by
  refine Dev.mask_mono hT ?_
  unfold Dev.remoteSend; simp (decide := true) only [↓Dev.jySend_mask, ↓Dev.mask_set_jersey]

theorem Dev.remoteStart_mask {T : List Part} (hT : Part.within [.regs, .host, .jersey] T = true) (d : Dev) (read write : Bool) :
    (Dev.remoteStart d read write).mask T = d.mask T := by
  refine Dev.mask_mono hT ?_
  unfold Dev.remoteStart
  repeat' (first | split | (simp (decide := true) only [↓Dev.setReg_mask, ↓Dev.remoteSend_mask, ↓Dev.mask_set_jersey]))

theorem Dev.remoteGo_mask {T : List Part} (hT : Part.within [.regs, .host, .jersey] T = true) (d : Dev) (read write : Bool) :
    (Dev.remoteGo d read write).mask T = d.mask T := by
  refine Dev.mask_mono hT ?_
  unfold Dev.remoteGo
  repeat' (first | (simp (decide := true) only [↓Dev.remoteStart_mask, ↓Dev.mask_set_jersey]; done) | split)

theorem Dev.remoteEnd_mask {T : List Part} (hT : Part.within [.regs, .host, .jersey] T = true) (d : Dev) :
    (Dev.remoteEnd d).mask T = d.mask T := by
  refine Dev.mask_mono hT ?_
  unfold Dev.remoteEnd
  repeat' (first | split | (simp (decide := true) only [↓Dev.remoteStart_mask, ↓Dev.mask_set_jersey]))

theorem Dev.remoteReply_mask {T : List Part} (hT : Part.within [.regs, .host, .jersey] T = true) (d : Dev) (w : Word) :
    (Dev.remoteReply d w).mask T = d.mask T := by
  refine Dev.mask_mono hT ?_
  unfold Dev.remoteReply
  repeat' (first | (simp (decide := true) only [↓Dev.setReg_mask, ↓Dev.remoteSend_mask, ↓Dev.remoteEnd_mask, ↓Dev.mask_set_jersey]; done) | split)

theorem Dev.jyLeftRun_mask {T : List Part} (hT : Part.within [.regs, .plane, .arms, .sliceU, .lanes, .ports, .queues, .framers, .flexo,
    .oofCause, .points, .groupCause, .odus, .vc4s, .xc, .sels, .psels, .pkt, .tsu, .cal, .twill, .host, .jersey, .mx, .fresh, .reports] T =
    true) (d : Dev) (j : Nat) :
    (Dev.jyLeftRun d j).mask T = d.mask T := by
  refine Dev.mask_mono hT ?_
  unfold Dev.jyLeftRun
  try simp (decide := true) only [↓Dev.setReg_mask, ↓Dev.updLink_mask, ↓Dev.raise_mask, ↓Dev.raiseQuiet_mask, ↓Dev.ends_mask, ↓Dev.draw_mask, ↓Dev.sendFromLink_mask, ↓Dev.refEval_mask, ↓Dev.selectFree_mask, ↓Dev.urgentServe_mask, ↓Dev.remoteEnd_mask, ↓Dev.mask_set_xc_host, ↓Dev.mask_foldl, ↓Dev.mask_foldl2]
  repeat' (first
      | done
      | with_reducible rfl
      | (with_reducible refine (Dev.mask_foldl ?_ _ _).trans ?_)
      | (with_reducible refine (Dev.mask_foldl2 ?_ _ _).trans ?_)
      | (simp (decide := true) only [↓Dev.setReg_mask, ↓Dev.updLink_mask, ↓Dev.raise_mask, ↓Dev.raiseQuiet_mask, ↓Dev.ends_mask, ↓Dev.draw_mask, ↓Dev.sendFromLink_mask, ↓Dev.refEval_mask, ↓Dev.selectFree_mask, ↓Dev.urgentServe_mask, ↓Dev.remoteEnd_mask, ↓Dev.mask_set_xc_host, ↓Dev.mask_foldl, ↓Dev.mask_foldl2]; done)
      | (intro d x; try dsimp only)
      | (split <;> try simp (decide := true) only [↓Dev.setReg_mask, ↓Dev.updLink_mask, ↓Dev.raise_mask, ↓Dev.raiseQuiet_mask, ↓Dev.ends_mask, ↓Dev.draw_mask, ↓Dev.sendFromLink_mask, ↓Dev.refEval_mask, ↓Dev.selectFree_mask, ↓Dev.urgentServe_mask, ↓Dev.remoteEnd_mask, ↓Dev.mask_set_xc_host, ↓Dev.mask_foldl, ↓Dev.mask_foldl2])
      | (simp (decide := true) only [↓Dev.setReg_mask, ↓Dev.updLink_mask, ↓Dev.raise_mask, ↓Dev.raiseQuiet_mask, ↓Dev.ends_mask, ↓Dev.draw_mask, ↓Dev.sendFromLink_mask, ↓Dev.refEval_mask, ↓Dev.selectFree_mask, ↓Dev.urgentServe_mask, ↓Dev.remoteEnd_mask, ↓Dev.mask_set_xc_host, ↓Dev.mask_foldl, ↓Dev.mask_foldl2]))

theorem Dev.jyBack_mask {T : List Part} (hT : Part.within [.regs, .plane, .arms, .sliceU, .lanes, .ports, .queues, .framers, .flexo,
    .oofCause, .points, .groupCause, .odus, .vc4s, .xc, .sels, .psels, .pkt, .tsu, .cal, .twill, .host, .jersey, .mx, .fresh, .reports] T =
    true) (d : Dev) (j st : Nat) :
    (Dev.jyBack d j st).mask T = d.mask T := by
  refine Dev.mask_mono hT ?_
  unfold Dev.jyBack
  repeat' (first | split | (simp (decide := true) only [↓Dev.updLink_mask, ↓Dev.jyLeftRun_mask]))

theorem Dev.jyDown_mask {T : List Part} (hT : Part.within [.regs, .plane, .arms, .sliceU, .lanes, .ports, .queues, .framers, .flexo,
    .oofCause, .points, .groupCause, .odus, .vc4s, .xc, .sels, .psels, .pkt, .tsu, .cal, .twill, .host, .jersey, .mx, .fresh, .reports] T =
    true) (d : Dev) (j : Nat) :
    (Dev.jyDown d j).mask T = d.mask T := by
  refine Dev.mask_mono hT ?_
  unfold Dev.jyDown
  repeat' (first | (simp (decide := true) only [↓Dev.jyBack_mask]; done) | split)

theorem Dev.jyRestart_mask {T : List Part} (hT : Part.within [.regs, .plane, .arms, .sliceU, .lanes, .ports, .queues, .framers, .flexo,
    .oofCause, .points, .groupCause, .odus, .vc4s, .xc, .sels, .psels, .pkt, .tsu, .cal, .twill, .host, .jersey, .mx, .fresh, .reports] T =
    true) (d : Dev) (j : Nat) :
    (Dev.jyRestart d j).mask T = d.mask T := by
  refine Dev.mask_mono hT ?_
  unfold Dev.jyRestart
  repeat' (first | (simp (decide := true) only [↓Dev.jyBack_mask]; done) | split)

theorem Dev.jyExpect_mask {T : List Part} (hT : Part.within [.regs, .plane, .arms, .sliceU, .lanes, .ports, .queues, .framers, .flexo,
    .oofCause, .points, .groupCause, .odus, .vc4s, .xc, .sels, .psels, .pkt, .tsu, .cal, .twill, .host, .jersey, .mx, .fresh, .reports] T =
    true) (d : Dev) :
    (Dev.jyExpect d).mask T = d.mask T := by
  refine Dev.mask_mono hT ?_
  unfold Dev.jyExpect
  try simp (decide := true) only [↓Dev.jyBack_mask, ↓Dev.mask_foldl, ↓Dev.mask_foldl2]
  repeat' (first
      | done
      | with_reducible rfl
      | (with_reducible refine (Dev.mask_foldl ?_ _ _).trans ?_)
      | (with_reducible refine (Dev.mask_foldl2 ?_ _ _).trans ?_)
      | (simp (decide := true) only [↓Dev.jyBack_mask, ↓Dev.mask_foldl, ↓Dev.mask_foldl2]; done)
      | (intro d x; try dsimp only)
      | (split <;> try simp (decide := true) only [↓Dev.jyBack_mask, ↓Dev.mask_foldl, ↓Dev.mask_foldl2])
      | (simp (decide := true) only [↓Dev.jyBack_mask, ↓Dev.mask_foldl, ↓Dev.mask_foldl2]))

theorem Dev.jyReport_mask {T : List Part} (hT : Part.within [.regs, .xc, .host, .jersey] T = true) (d : Dev) :
    (Dev.jyReport d).mask T = d.mask T := by
  refine Dev.mask_mono hT ?_
  unfold Dev.jyReport
  repeat' (first | split | (simp (decide := true) only [↓Dev.updLink_mask, ↓Dev.jySend_mask, ↓Dev.post_mask, ↓Dev.stat_mask, ↓Dev.cancelArms_mask, ↓Dev.mask_set_devid, ↓Dev.mask_set_los, ↓Dev.mask_set_sec]))

theorem Dev.jyUp_mask {T : List Part} (hT : Part.within [.regs, .points, .xc, .pkt, .tsu, .cal, .host, .jersey, .fresh] T = true) (d : Dev)
    (j : Nat) (booted : Bool) :
    (Dev.jyUp d j booted).mask T = d.mask T := by
  refine Dev.mask_mono hT ?_
  unfold Dev.jyUp
  repeat' (first | split | (simp (decide := true) only [↓Dev.updLink_mask, ↓Dev.raiseAll_mask, ↓Dev.sendFromLink_mask, ↓Dev.refEval_mask, ↓Dev.selectFree_mask, ↓Dev.jyReport_mask]))

theorem Dev.jyBootFails_mask {T : List Part} (hT : Part.within [.regs, .host, .jersey] T = true) (d : Dev) (j reason : Nat) :
    (Dev.jyBootFails d j reason).mask T = d.mask T := by
  refine Dev.mask_mono hT ?_
  unfold Dev.jyBootFails; simp (decide := true) only [↓Dev.updLink_mask, ↓Dev.raise_mask]

theorem Dev.cfgGo_mask {T : List Part} (hT : Part.within [.cfg] T = true) (d : Dev) :
    (Dev.cfgGo d).mask T = d.mask T := by
  refine Dev.mask_mono hT ?_
  unfold Dev.cfgGo; split <;> simp (decide := true) only [↓Dev.mask_set_cfg]

theorem Dev.cfgRef_mask {T : List Part} (hT : Part.within [.regs, .cfg] T = true) (d : Dev) (w : Word) :
    (Dev.cfgRef d w).mask T = d.mask T := by
  refine Dev.mask_mono hT ?_
  unfold Dev.cfgRef; simp (decide := true) only [↓Dev.setReg_mask, ↓Dev.mask_set_cfg]

theorem Dev.scrubPass_mask {T : List Part} (hT : Part.within [.regs, .plane, .arms, .sliceU, .queues, .psels, .tsu, .cal, .twill, .host,
    .jersey, .cfg, .mx, .fresh, .reports] T = true) (d : Dev) :
    (Dev.scrubPass d).mask T = d.mask T := by
  have hc : Part.within [.cfg] T = true := by
    simp only [Part.within, List.all_cons, Bool.and_eq_true] at hT ⊢; simp [hT]
  have hr : Part.within [.regs, .host, .jersey] T = true := by
    simp only [Part.within, List.all_cons, Bool.and_eq_true] at hT ⊢; simp [hT]
  have hf : Part.within [.regs, .plane, .arms, .sliceU, .queues, .psels, .tsu, .cal, .twill, .host, .jersey, .mx, .fresh, .reports] T = true := by
    simp only [Part.within, List.all_cons, Bool.and_eq_true] at hT ⊢; simp [hT]
  unfold Dev.scrubPass
  extract_lets xs whole diff _ d1 was _ d2 d3 d4
  have h1 : d1.mask T = d.mask T := Dev.mask_set_cfg hc _ _
  clear_value whole diff d1
  have h2 : d2.mask T = d.mask T := (Dev.mask_set_cfg hc _ _).trans h1
  have h3 : d3.mask T = d.mask T := (Dev.mask_set_cfg hc _ _).trans h1
  have h4 : d4.mask T = d.mask T := (Dev.fault1_mask hf _ _).trans h3
  split
  · rfl
  · split
    · split
      · exact (Dev.raise_mask hr _ _ _ _ _).trans h2
      · exact h2
    · split
      · exact (Dev.raise_mask hr _ _ _ _ _).trans h4
      · exact (Dev.mask_set_cfg hc _ _).trans h1

theorem Dev.ownersIn_mask {T : List Part} (hT : Part.within [.crc, .xc] T = true) (d : Dev) : Dev.mask T (Dev.ownersIn d) = d.mask T := by
  refine Dev.mask_mono hT ?_
  unfold Dev.ownersIn
  try simp (decide := true) only [↓Dev.updCrc_mask, ↓Dev.writePhase_mask, ↓Dev.mask_foldl, ↓Dev.mask_foldl2, ↓Dev.mask_set_xc, ↓Dev.mask_set_pkt]
  repeat' (first
      | done
      | with_reducible rfl
      | (with_reducible refine (Dev.mask_foldl ?_ _ _).trans ?_)
      | (with_reducible refine (Dev.mask_foldl2 ?_ _ _).trans ?_)
      | (simp (decide := true) only [↓Dev.updCrc_mask, ↓Dev.writePhase_mask, ↓Dev.mask_foldl, ↓Dev.mask_foldl2, ↓Dev.mask_set_xc, ↓Dev.mask_set_pkt]; done)
      | (intro d x; try dsimp only)
      | (split <;> try simp (decide := true) only [↓Dev.updCrc_mask, ↓Dev.writePhase_mask, ↓Dev.mask_foldl, ↓Dev.mask_foldl2, ↓Dev.mask_set_xc, ↓Dev.mask_set_pkt])
      | (simp (decide := true) only [↓Dev.updCrc_mask, ↓Dev.writePhase_mask, ↓Dev.mask_foldl, ↓Dev.mask_foldl2, ↓Dev.mask_set_xc, ↓Dev.mask_set_pkt]))

theorem Dev.ringCtrl_mask {T : List Part} (hT : Part.within [.regs, .host] T = true) (d : Dev) (r : Nat) (rr : RReg) (v : Word) :
    (Dev.ringCtrl d r rr v).mask T = d.mask T := by
  refine Dev.mask_mono hT ?_
  unfold Dev.ringCtrl
  repeat' (first | split | (simp (decide := true) only [↓Dev.setReg_mask, ↓Dev.updRing_mask, ↓Dev.ringNotify_mask, ↓Dev.lossNotice_mask]))

theorem Dev.ringPi'_mask {T : List Part} (hT : Part.within [.regs] T = true) (d : Dev) (r : Nat) (v : Word) :
    (Dev.ringPi' d r v).mask T = d.mask T := by
  refine Dev.mask_mono hT ?_
  unfold Dev.ringPi'; split <;> simp (decide := true) only [↓Dev.setReg_mask]

theorem Dev.ringCi'_mask {T : List Part} (hT : Part.within [.regs, .host] T = true) (d : Dev) (r : Nat) (v : Word) :
    (Dev.ringCi' d r v).mask T = d.mask T := by
  refine Dev.mask_mono hT ?_
  unfold Dev.ringCi'
  repeat' (first | (simp (decide := true) only [↓Dev.setReg_mask, ↓Dev.updRing_mask, ↓Dev.ringNotify_mask, ↓Dev.msixSettle_mask, ↓Dev.lossNotice_mask]; done) | split)

theorem Dev.ringWrite_mask {T : List Part} (hT : Part.within [.regs, .host] T = true) (d : Dev) (r off : Nat) (rr : RReg) (v : Word) :
    (Dev.ringWrite d r off rr v).mask T = d.mask T := by
  refine Dev.mask_mono hT ?_
  unfold Dev.ringWrite
  repeat' (first | split | (simp (decide := true) only [↓Dev.setReg_mask, ↓Dev.ringNotify_mask, ↓Dev.ringCtrl_mask, ↓Dev.ringPi'_mask, ↓Dev.ringCi'_mask]))

theorem Dev.crcCtrl_mask {T : List Part} (hT : Part.within [.regs, .plane, .arms, .sliceU, .queues, .crc, .psels, .tsu, .cal, .twill, .host,
    .jersey, .mx, .fresh, .reports] T = true) (d : Dev) (m u : Nat) (rr : RReg) (v : Word) :
    (Dev.crcCtrl d m u rr v).mask T = d.mask T := by
  refine Dev.mask_mono hT ?_
  unfold Dev.crcCtrl
  repeat' (first | split | (simp (decide := true) only [↓Dev.setReg_mask, ↓Dev.crcFeed_mask]))

theorem Dev.crcData_mask {T : List Part} (hT : Part.within [.regs, .plane, .arms, .sliceU, .queues, .crc, .psels, .tsu, .cal, .twill, .host,
    .jersey, .mx, .fresh, .reports] T = true) (d : Dev) (m u n : Nat) (w : Word) :
    (Dev.crcData d m u n w).mask T = d.mask T := by
  refine Dev.mask_mono hT ?_
  unfold Dev.crcData
  repeat' (first | (simp (decide := true) only [↓Dev.crcFeed_mask]; done) | split)

theorem xcTableRead_mask {T : List Part} (hT : Part.within [.regs, .plane, .arms, .sliceU, .queues, .psels, .tsu, .cal, .twill, .host,
    .jersey, .xcTbl, .mx, .fresh, .reports] T = true) (m : Nat) (d : Dev) (mem : List Host.Cell) :
    (xcTableRead m d mem).1.mask T = d.mask T := by
  refine Dev.mask_mono hT ?_
  unfold xcTableRead
  repeat' (first | split | (simp (decide := true) only [↓readStored_mask, ↓Dev.mask_set_xcTbl]))

theorem tblWrite_mask {T : List Part} (hT : Part.within [.tbl] T = true) (d : Dev) (mem : List Host.Cell) :
    (tblWrite d mem).1.mask T = d.mask T := by
  refine Dev.mask_mono hT ?_
  unfold tblWrite
  repeat' (first | (simp (decide := true) only [↓Dev.mask_set_tbl]; done) | split)

theorem Dev.tblLoad_mask {T : List Part} (hT : Part.within [.regs, .tbl] T = true) (d : Dev) (w : Data) (check : Byte) (poison denied : Bool) :
    (Dev.tblLoad d w check poison denied).mask T = d.mask T := by
  refine Dev.mask_mono hT ?_
  unfold Dev.tblLoad; simp (decide := true) only [↓Dev.setReg_mask, ↓Dev.mask_set_tbl]

theorem tblRead_mask {T : List Part} (hT : Part.within [.regs, .plane, .arms, .sliceU, .queues, .psels, .tsu, .cal, .twill, .host, .jersey,
    .tbl, .mx, .fresh, .reports] T = true) (m : Nat) (d : Dev) (mem : List Host.Cell) :
    (tblRead m d mem).1.mask T = d.mask T := by
  refine Dev.mask_mono hT ?_
  unfold tblRead
  repeat' (first | (simp (decide := true) only [↓readStored_mask, ↓Dev.tblLoad_mask]; done) | split)

theorem tblGo_mask {T : List Part} (hT : Part.within [.regs, .plane, .arms, .sliceU, .queues, .psels, .tsu, .cal, .twill, .host, .jersey,
    .tbl, .mx, .fresh, .reports] T = true) (m : Nat) (v : Word) (d : Dev) (mem : List Host.Cell) :
    (tblGo m v d mem).1.mask T = d.mask T := by
  refine Dev.mask_mono hT ?_
  unfold tblGo
  try simp (decide := true) only [↓tblWrite_mask, ↓tblRead_mask, ↓Dev.mask_foldl, ↓Dev.mask_foldl2]
  repeat' (first
      | done
      | with_reducible rfl
      | (with_reducible refine (Dev.mask_foldl ?_ _ _).trans ?_)
      | (with_reducible refine (Dev.mask_foldl2 ?_ _ _).trans ?_)
      | (simp (decide := true) only [↓tblWrite_mask, ↓tblRead_mask, ↓Dev.mask_foldl, ↓Dev.mask_foldl2]; done)
      | (intro d x; try dsimp only)
      | (split <;> try simp (decide := true) only [↓tblWrite_mask, ↓tblRead_mask, ↓Dev.mask_foldl, ↓Dev.mask_foldl2])
      | (simp (decide := true) only [↓tblWrite_mask, ↓tblRead_mask, ↓Dev.mask_foldl, ↓Dev.mask_foldl2]))

theorem Dev.injWrite_mask {T : List Part} (hT : Part.within [.regs, .arms] T = true) (d : Dev) (b : Nat) (rr : RReg) (v : Word) :
    (Dev.injWrite d b rr v).mask T = d.mask T := by
  refine Dev.mask_mono hT ?_
  unfold Dev.injWrite
  repeat' (first | split | (simp (decide := true) only [↓Dev.setReg_mask, ↓Dev.mask_set_arms]))

theorem Dev.calCfg_mask {T : List Part} (hT : Part.within [.regs, .cal, .host, .jersey] T = true) (d : Dev) (rr : RReg) (v : Word) :
    (Dev.calCfg d rr v).mask T = d.mask T := by
  refine Dev.mask_mono hT ?_
  unfold Dev.calCfg; simp (decide := true) only [↓Dev.setReg_mask, ↓Dev.calAbort_mask, ↓Dev.mask_set_cal]

theorem Dev.tickCfg_mask {T : List Part} (hT : Part.within [.regs, .xc] T = true) (d : Dev) (rr : RReg) (v : Word) :
    (Dev.tickCfg d rr v).mask T = d.mask T := by
  refine Dev.mask_mono hT ?_
  unfold Dev.tickCfg
  repeat' (first | split | (simp (decide := true) only [↓Dev.setReg_mask, ↓Dev.writePhase_mask]))

theorem Dev.regAct_mask {T : List Part} (hT : Part.within [.regs, .plane, .arms, .sliceU, .lanes, .ports, .queues, .crc, .framers, .flexo,
    .oofCause, .points, .groupCause, .odus, .vc4s, .xc, .sels, .psels, .pkt, .tsu, .cal, .twill, .host, .jersey, .cfg, .mx, .fresh,
    .reports] T = true) (d : Dev) (m win a : Nat) (rr : RReg) (v : Word) :
    (Dev.regAct d m win a rr v).mask T = d.mask T := by
  refine Dev.mask_mono hT ?_
  unfold Dev.regAct
  repeat' (first | split | (simp (decide := true) only [↓Dev.setReg_mask, ↓Dev.endAborted_mask, ↓Dev.capture_mask, ↓Dev.urgentWrite_mask, ↓Dev.remoteGo_mask, ↓Dev.jyRestart_mask, ↓Dev.jyExpect_mask, ↓Dev.cfgGo_mask, ↓Dev.cfgRef_mask, ↓Dev.ringWrite_mask, ↓Dev.crcCtrl_mask, ↓Dev.crcData_mask, ↓Dev.injWrite_mask, ↓Dev.calCfg_mask, ↓Dev.tickCfg_mask]))

theorem regMem_mask {T : List Part} (hT : Part.within [.regs, .plane, .arms, .sliceU, .lanes, .ports, .queues, .crc, .framers, .flexo,
    .oofCause, .points, .groupCause, .odus, .vc4s, .xc, .sels, .psels, .pkt, .tsu, .cal, .twill, .host, .jersey, .power, .sec, .cfg, .tbl,
    .xcTbl, .masters, .mx, .fresh, .reports] T = true) (m win a : Nat) (rr : RReg) (v : Word) (d : Dev) (mem : List Host.Cell) :
    (regMem m win a rr v d mem).1.mask T = d.mask T := by
  refine Dev.mask_mono hT ?_
  unfold regMem
  repeat' (first | (simp (decide := true) only [↓Dev.setReg_mask, ↓warmGo_mask, ↓xcTableRead_mask, ↓tblGo_mask, ↓Dev.regAct_mask]; done) | split)

theorem writeReg_mask {T : List Part} (hT : Part.within [.regs, .plane, .arms, .sliceU, .lanes, .ports, .queues, .crc, .framers, .flexo,
    .oofCause, .points, .groupCause, .odus, .vc4s, .xc, .sels, .psels, .pkt, .tsu, .cal, .twill, .host, .jersey, .power, .sec, .cfg, .tbl,
    .xcTbl, .masters, .mx, .fresh, .reports] T = true) (m win a : Nat) (w : Word) (d : Dev) (mem : List Host.Cell) :
    (writeReg m win a w d mem).1.mask T = d.mask T := by
  refine Dev.mask_mono hT ?_
  unfold writeReg
  repeat' (first | split | (simp (decide := true) only [↓Dev.setReg_mask, ↓regMem_mask, ↓Dev.mask_set_cfg]))

theorem commitDone_mask {T : List Part} (hT : Part.within [.regs, .plane, .arms, .sliceU, .lanes, .ports, .queues, .crc, .framers, .flexo,
    .oofCause, .points, .groupCause, .odus, .vc4s, .xc, .sels, .psels, .pkt, .tsu, .cal, .twill, .host, .jersey, .power, .sec, .cfg, .tbl,
    .xcTbl, .masters, .mx, .fresh, .reports] T = true) (d : Dev) (mem : List Host.Cell) :
    (commitDone d mem).1.mask T = d.mask T := by
  refine Dev.mask_mono hT ?_
  unfold commitDone
  try simp (decide := true) only [↓Dev.setReg_mask, ↓Dev.raise_mask, ↓Dev.cfgGo_mask, ↓Dev.ownersIn_mask, ↓writeReg_mask, ↓Dev.mask_set_cfg, ↓Dev.mask_foldl, ↓Dev.mask_foldl2]
  repeat' (first
      | done
      | with_reducible rfl
      | (with_reducible refine (Dev.mask_foldl ?_ _ _).trans ?_)
      | (with_reducible refine (Dev.mask_foldl2 ?_ _ _).trans ?_)
      | (simp (decide := true) only [↓Dev.setReg_mask, ↓Dev.raise_mask, ↓Dev.cfgGo_mask, ↓Dev.ownersIn_mask, ↓writeReg_mask, ↓Dev.mask_set_cfg, ↓Dev.mask_foldl, ↓Dev.mask_foldl2]; done)
      | (intro d x; try dsimp only)
      | (split <;> try simp (decide := true) only [↓Dev.setReg_mask, ↓Dev.raise_mask, ↓Dev.cfgGo_mask, ↓Dev.ownersIn_mask, ↓writeReg_mask, ↓Dev.mask_set_cfg, ↓Dev.mask_foldl, ↓Dev.mask_foldl2])
      | (simp (decide := true) only [↓Dev.setReg_mask, ↓Dev.raise_mask, ↓Dev.cfgGo_mask, ↓Dev.ownersIn_mask, ↓writeReg_mask, ↓Dev.mask_set_cfg, ↓Dev.mask_foldl, ↓Dev.mask_foldl2]))

theorem writeDw_mask {T : List Part} (hT : Part.within [.regs, .plane, .arms, .sliceU, .lanes, .ports, .queues, .crc, .framers, .flexo,
    .oofCause, .points, .groupCause, .odus, .vc4s, .xc, .sels, .psels, .pkt, .tsu, .cal, .twill, .host, .jersey, .power, .sec, .cfg, .tbl,
    .xcTbl, .masters, .mx, .fresh, .reports] T = true) (via : Via) (addr : Nat) (w : Word) (d : Dev) (mem : List Host.Cell) :
    (writeDw via addr w d mem).1.mask T = d.mask T := by
  refine Dev.mask_mono hT ?_
  unfold writeDw
  repeat' (first | split | (simp (decide := true) only [↓writeReg_mask]))

theorem writeBar_mask {T : List Part} (hT : Part.within [.regs, .plane, .arms, .sliceU, .lanes, .ports, .queues, .crc, .framers, .flexo,
    .oofCause, .points, .groupCause, .odus, .vc4s, .xc, .sels, .psels, .pkt, .tsu, .cal, .twill, .host, .jersey, .power, .sec, .cfg, .tbl,
    .xcTbl, .masters, .mx, .fresh, .reports] T = true) (via : Via) (sh : Shape) (addr : Nat) (x : Data) (d : Dev) (mem : List Host.Cell) :
    (writeBar via sh addr x d mem).1.mask T = d.mask T := by
  refine Dev.mask_mono hT ?_
  unfold writeBar
  repeat' (first | (simp (decide := true) only [↓writeDw_mask]; done) | split)

theorem Dev.cfgWrite_mask {T : List Part} (hT : Part.within [.host] T = true) (d : Dev) (pf1 : Bool) (sh : Shape) (addr : Nat) (w : Word) :
    (Dev.cfgWrite d pf1 sh addr w).mask T = d.mask T := by
  refine Dev.mask_mono hT ?_
  unfold Dev.cfgWrite
  repeat' (first | split | (simp (decide := true) only [↓Dev.msixFlush_mask, ↓Dev.mask_set_host]))

theorem Dev.bar2Word_mask {T : List Part} (hT : Part.within [.host] T = true) (d : Dev) (addr : Nat) (w : Word) :
    (Dev.bar2Word d addr w).mask T = d.mask T := by
  refine Dev.mask_mono hT ?_
  unfold Dev.bar2Word
  repeat' (first | split | (simp (decide := true) only [↓Dev.msixFlush_mask, ↓Dev.mask_set_host]))

theorem Dev.bar2Write_mask {T : List Part} (hT : Part.within [.host] T = true) (d : Dev) (sh : Shape) (addr : Nat) (x : Data) :
    (Dev.bar2Write d sh addr x).mask T = d.mask T := by
  refine Dev.mask_mono hT ?_
  unfold Dev.bar2Write
  repeat' (first | (simp (decide := true) only [↓Dev.bar2Word_mask]; done) | split)

theorem Dev.jyLock_mask {T : List Part} (hT : Part.within [.jersey] T = true) (d : Dev) (j : Nat) :
    (Dev.jyLock d j).mask T = d.mask T := by
  refine Dev.mask_mono hT ?_
  unfold Dev.jyLock
  repeat' (first | split | (simp (decide := true) only [↓Dev.updLink_mask]))

theorem Dev.sendHello_mask {T : List Part} (hT : Part.within [.host, .jersey] T = true) (d : Dev) (j : Nat) :
    (Dev.sendHello d j).mask T = d.mask T := by
  refine Dev.mask_mono hT ?_
  unfold Dev.sendHello; simp (decide := true) only [↓Dev.updLink_mask, ↓Dev.jySend_mask]

theorem Dev.jyAligned_mask {T : List Part} (hT : Part.within [.host, .jersey] T = true) (d : Dev) (j : Nat) :
    (Dev.jyAligned d j).mask T = d.mask T := by
  refine Dev.mask_mono hT ?_
  unfold Dev.jyAligned
  repeat' (first | (simp (decide := true) only [↓Dev.updLink_mask, ↓Dev.sendHello_mask]; done) | split)

theorem Dev.jyRegions_mask {T : List Part} (hT : Part.within [.regs, .jersey] T = true) (d : Dev) (j : Nat) (rs : List (Fin 20 × List Byte))
    :
    (Dev.jyRegions d j rs).mask T = d.mask T := by
  refine Dev.mask_mono hT ?_
  unfold Dev.jyRegions
  try simp (decide := true) only [↓Dev.count32_mask, ↓Dev.updLink_mask, ↓Dev.mask_foldl, ↓Dev.mask_foldl2]
  repeat' (first
      | done
      | with_reducible rfl
      | (with_reducible refine (Dev.mask_foldl ?_ _ _).trans ?_)
      | (with_reducible refine (Dev.mask_foldl2 ?_ _ _).trans ?_)
      | (simp (decide := true) only [↓Dev.count32_mask, ↓Dev.updLink_mask, ↓Dev.mask_foldl, ↓Dev.mask_foldl2]; done)
      | (intro d x; try dsimp only)
      | (split <;> try simp (decide := true) only [↓Dev.count32_mask, ↓Dev.updLink_mask, ↓Dev.mask_foldl, ↓Dev.mask_foldl2])
      | (simp (decide := true) only [↓Dev.count32_mask, ↓Dev.updLink_mask, ↓Dev.mask_foldl, ↓Dev.mask_foldl2]))

theorem Dev.jyOutOfFrame_mask {T : List Part} (hT : Part.within [.regs, .plane, .arms, .sliceU, .lanes, .ports, .queues, .framers, .flexo,
    .oofCause, .points, .groupCause, .odus, .vc4s, .xc, .sels, .psels, .pkt, .tsu, .cal, .twill, .host, .jersey, .mx, .fresh, .reports] T =
    true) (d : Dev) (j : Nat) :
    (Dev.jyOutOfFrame d j).mask T = d.mask T := by
  refine Dev.mask_mono hT ?_
  unfold Dev.jyOutOfFrame; simp (decide := true) only [↓Dev.updLink_mask, ↓Dev.jyDown_mask]

theorem Dev.jyHeader_mask {T : List Part} (hT : Part.within [.regs, .plane, .arms, .sliceU, .lanes, .ports, .queues, .framers, .flexo,
    .oofCause, .points, .groupCause, .odus, .vc4s, .xc, .sels, .psels, .pkt, .tsu, .cal, .twill, .host, .jersey, .mx, .fresh, .reports] T =
    true) (d : Dev) (j : Nat) (f : JyFrame) :
    (Dev.jyHeader d j f).mask T = d.mask T := by
  refine Dev.mask_mono hT ?_
  unfold Dev.jyHeader
  repeat' (first | split | (simp (decide := true) only [↓Dev.count32_mask, ↓Dev.updLink_mask, ↓Dev.jyOutOfFrame_mask]))

theorem Dev.jyFrameIn_mask {T : List Part} (hT : Part.within [.regs, .plane, .arms, .sliceU, .lanes, .ports, .queues, .framers, .flexo,
    .oofCause, .points, .groupCause, .odus, .vc4s, .xc, .sels, .psels, .pkt, .tsu, .cal, .twill, .host, .jersey, .mx, .fresh, .reports] T =
    true) (d : Dev) (j : Fin 8) (f : JyFrame) :
    (Dev.jyFrameIn d j f).mask T = d.mask T := by
  refine Dev.mask_mono hT ?_
  unfold Dev.jyFrameIn
  repeat' (first | split | (simp (decide := true) only [↓Dev.updLink_mask, ↓Dev.jyRegions_mask, ↓Dev.jyOutOfFrame_mask, ↓Dev.jyHeader_mask]))

theorem Dev.jyFrameOut_mask {T : List Part} (hT : Part.within [.host, .jersey] T = true) (d : Dev) (j : Nat) (odu : List (Fin 20 × List
    Byte)) :
    (Dev.jyFrameOut d j odu).mask T = d.mask T := by
  refine Dev.mask_mono hT ?_
  unfold Dev.jyFrameOut
  repeat' (first | split | (simp (decide := true) only [↓Dev.emit_mask, ↓Dev.updLink_mask]))

theorem Dev.jyAck_mask {T : List Part} (hT : Part.within [.regs, .plane, .arms, .sliceU, .lanes, .ports, .queues, .framers, .flexo,
    .oofCause, .points, .groupCause, .odus, .vc4s, .sels, .psels, .pkt, .tsu, .cal, .twill, .host, .jersey, .mx, .fresh, .reports] T = true)
    (d : Dev) (j : Nat) (ack credit : BitVec 16) :
    (Dev.jyAck d j ack credit).mask T = d.mask T := by
  refine Dev.mask_mono hT ?_
  unfold Dev.jyAck; simp (decide := true) only [↓Dev.updLink_mask, ↓jyPump_mask, ↓Dev.urgentServe_mask]

theorem Dev.jyResend_mask {T : List Part} (hT : Part.within [.regs, .host, .jersey] T = true) (d : Dev) (j : Nat) :
    (Dev.jyResend d j).mask T = d.mask T := by
  refine Dev.mask_mono hT ?_
  unfold Dev.jyResend
  repeat' (first | split | (simp (decide := true) only [↓Dev.count32_mask, ↓Dev.updLink_mask, ↓Dev.mask_set_host, ↓Dev.mask_set_jersey]))

theorem Dev.jyStalled_mask {T : List Part} (hT : Part.within [.regs, .plane, .arms, .sliceU, .lanes, .ports, .queues, .framers, .flexo,
    .oofCause, .points, .groupCause, .odus, .vc4s, .xc, .sels, .psels, .pkt, .tsu, .cal, .twill, .host, .jersey, .mx, .fresh, .reports] T =
    true) (d : Dev) (j : Nat) :
    (Dev.jyStalled d j).mask T = d.mask T := by
  refine Dev.mask_mono hT ?_
  unfold Dev.jyStalled
  repeat' (first | (simp (decide := true) only [↓Dev.jyDown_mask]; done) | split)

theorem Dev.jyAgain_mask {T : List Part} (hT : Part.within [.host, .jersey] T = true) (d : Dev) (j : Nat) :
    (Dev.jyAgain d j).mask T = d.mask T := by
  refine Dev.mask_mono hT ?_
  unfold Dev.jyAgain
  repeat' (first | (simp (decide := true) only [↓Dev.updLink_mask, ↓Dev.sendHello_mask]; done) | split)

theorem Dev.jyHelloIn_mask {T : List Part} (hT : Part.within [.life, .regs, .points, .xc, .pkt, .tsu, .cal, .host, .jersey, .fresh] T =
    true) (d : Dev) (j : Nat) (role : Bool) (devid : Nat) (booted : Bool) :
    (Dev.jyHelloIn d j role devid booted).mask T = d.mask T := by
  refine Dev.mask_mono hT ?_
  unfold Dev.jyHelloIn
  repeat' (first | split | (simp (decide := true) only [↓Dev.updLink_mask, ↓Dev.raise_mask, ↓Dev.jyUp_mask, ↓Dev.jyAgain_mask, ↓Dev.mask_set_life_jersey]))

theorem Dev.jyBootSend_mask {T : List Part} (hT : Part.within [.host, .jersey] T = true) (d : Dev) : Dev.mask T (Dev.jyBootSend d) = d.mask T := by
  refine Dev.mask_mono hT ?_
  unfold Dev.jyBootSend
  try simp (decide := true) only [↓Dev.updLink_mask, ↓Dev.jySend_mask, ↓Dev.mask_foldl, ↓Dev.mask_foldl2, ↓Dev.mask_set_worker, ↓Dev.mask_set_sec]
  repeat' (first
      | done
      | with_reducible rfl
      | (with_reducible refine (Dev.mask_foldl ?_ _ _).trans ?_)
      | (with_reducible refine (Dev.mask_foldl2 ?_ _ _).trans ?_)
      | (simp (decide := true) only [↓Dev.updLink_mask, ↓Dev.jySend_mask, ↓Dev.mask_foldl, ↓Dev.mask_foldl2, ↓Dev.mask_set_worker, ↓Dev.mask_set_sec]; done)
      | (intro d x; try dsimp only)
      | (split <;> try simp (decide := true) only [↓Dev.updLink_mask, ↓Dev.jySend_mask, ↓Dev.mask_foldl, ↓Dev.mask_foldl2, ↓Dev.mask_set_worker, ↓Dev.mask_set_sec])
      | (simp (decide := true) only [↓Dev.updLink_mask, ↓Dev.jySend_mask, ↓Dev.mask_foldl, ↓Dev.mask_foldl2, ↓Dev.mask_set_worker, ↓Dev.mask_set_sec]))

theorem Dev.jyBootEnd_mask {T : List Part} (hT : Part.within [.regs, .points, .xc, .pkt, .tsu, .cal, .host, .jersey, .fresh] T = true) (d : Dev) (j
    reason : Nat) :
    (Dev.jyBootEnd d j reason).mask T = d.mask T := by
  refine Dev.mask_mono hT ?_
  unfold Dev.jyBootEnd
  repeat' (first | (simp (decide := true) only [↓Dev.updLink_mask, ↓Dev.jyUp_mask, ↓Dev.jyBootFails_mask, ↓Dev.mask_set_worker]; done) | split)

theorem Dev.jyBootLate_mask {T : List Part} (hT : Part.within [.life, .regs, .host, .jersey, .sec] T = true) (d : Dev) (j : Nat) :
    (Dev.jyBootLate d j).mask T = d.mask T := by
  refine Dev.mask_mono hT ?_
  unfold Dev.jyBootLate
  repeat' (first | split | (simp (decide := true) only [↓Dev.jyBootFails_mask, ↓Dev.mask_set_life, ↓Dev.mask_set_worker, ↓Dev.mask_set_sec, ↓Dev.mask_set_life_sec]))

theorem Dev.jyExchange_mask {T : List Part} (hT : Part.within [.host, .jersey, .fresh] T = true) (d : Dev) (j : Nat) (t1 : Int) (t2 t3 :
    FrameStamp) (t4 : Int) :
    (Dev.jyExchange d j t1 t2 t3 t4).mask T = d.mask T := by
  refine Dev.mask_mono hT ?_
  unfold Dev.jyExchange
  repeat' (first | (simp (decide := true) only [↓Dev.updLink_mask, ↓Dev.jySend_mask, ↓Dev.meanFree_mask]; done) | split)

theorem Dev.jyCompare_mask {T : List Part} (hT : Part.within [.regs, .points, .xc, .pkt, .tsu, .host, .jersey, .fresh] T = true) (d : Dev)
    (diff : Int) :
    (Dev.jyCompare d diff).mask T = d.mask T := by
  refine Dev.mask_mono hT ?_
  unfold Dev.jyCompare
  repeat' (first | split | (simp (decide := true) only [↓Dev.updLink_mask, ↓Dev.stepTo_mask, ↓Dev.seePhase_mask]))

theorem Dev.jyTimeIn_mask {T : List Part} (hT : Part.within [.regs, .plane, .points, .xc, .groups, .pkt, .tsu, .cal, .host, .jersey, .fresh]
    T = true) (d : Dev) (tick : Nat) (time : Int) (delay ql : Nat) :
    (Dev.jyTimeIn d tick time delay ql).mask T = d.mask T := by
  refine Dev.mask_mono hT ?_
  unfold Dev.jyTimeIn
  repeat' (first | split | (simp (decide := true) only [↓Dev.updLink_mask, ↓Dev.refEval_mask, ↓Dev.tickFalls_mask, ↓Dev.selectFree_mask, ↓Dev.jyCompare_mask, ↓Dev.mask_set_xc_jersey]))

theorem Dev.jyTimeRow_mask {T : List Part} (hT : Part.within [.regs, .plane, .points, .xc, .groups, .pkt, .tsu, .cal, .host, .jersey,
    .fresh] T = true) (d : Dev) (mseq : BitVec 16) (tick : Nat) (time : Int) (delay ql : Nat) :
    (Dev.jyTimeRow d mseq tick time delay ql).mask T = d.mask T := by
  refine Dev.mask_mono hT ?_
  unfold Dev.jyTimeRow
  repeat' (first | (simp (decide := true) only [↓Dev.updLink_mask, ↓Dev.jyTimeIn_mask]; done) | split)

theorem Dev.jyAtManager_mask {T : List Part} (hT : Part.within [.life, .regs, .points, .xc, .pkt, .tsu, .cal, .host, .jersey, .fresh] T = true) (d
    : Dev) (j ty : Nat) (p : List Byte) :
    (Dev.jyAtManager d j ty p).mask T = d.mask T := by
  refine Dev.mask_mono hT ?_
  unfold Dev.jyAtManager; split <;> simp (decide := true) only [↓Dev.postAt_mask, ↓Dev.statAt_mask, ↓Dev.hostWrite_mask, ↓Dev.workerDone_mask, ↓Dev.remoteReply_mask, ↓Dev.jyHelloIn_mask, ↓Dev.jyBootEnd_mask, ↓Dev.mask_set_worker, ↓Dev.mask_set_host]

theorem Dev.bootBlock_mask {T : List Part} (hT : Part.within [.jersey] T = true) (d : Dev) (p : List Byte) :
    (Dev.bootBlock d p).mask T = d.mask T := by
  refine Dev.mask_mono hT ?_
  unfold Dev.bootBlock
  rw [Dev.mask_set_jersey (by decide), Dev.updLink_mask (by decide)]

theorem jyAtWorker_mask {T : List Part} (hT : Part.within [.life, .regs, .plane, .arms, .sliceU, .lanes, .ports, .queues, .crc, .framers,
    .flexo, .oofCause, .points, .groupCause, .odus, .vc4s, .xc, .sels, .groups, .psels, .pkt, .tsu, .cal, .twill, .host, .jersey, .power,
    .sec, .cfg, .tbl, .xcTbl, .masters, .mx, .fresh, .reports] T = true) (ty : Nat) (p : List Byte) (d : Dev) (mem : List Host.Cell) :
    (jyAtWorker ty p d mem).1.mask T = d.mask T := by
  refine Dev.mask_mono hT ?_
  unfold jyAtWorker
  repeat' (first | (simp (decide := true) only [↓Dev.jySend_mask, ↓Dev.urgentHere_mask, ↓writeDw_mask, ↓Dev.jyHelloIn_mask, ↓Dev.jyTimeIn_mask, ↓Dev.bootBlock_mask]; done) | split)

theorem jyMessage_mask {T : List Part} (hT : Part.within [.life, .regs, .plane, .arms, .sliceU, .lanes, .ports, .queues, .crc, .framers,
    .flexo, .oofCause, .points, .groupCause, .odus, .vc4s, .xc, .sels, .groups, .psels, .pkt, .tsu, .cal, .twill, .host, .jersey, .power,
    .sec, .cfg, .tbl, .xcTbl, .masters, .mx, .fresh, .reports] T = true) (j : Nat) (m : JyRx) (d : Dev) (mem : List Host.Cell) :
    (jyMessage j m d mem).1.mask T = d.mask T := by
  refine Dev.mask_mono hT ?_
  unfold jyMessage
  repeat' (first | split | (simp (decide := true) only [↓Dev.updLink_mask, ↓Dev.jyAck_mask, ↓Dev.jyAtManager_mask, ↓jyAtWorker_mask]))

theorem jyControl_mask {T : List Part} (hT : Part.within [.life, .regs, .plane, .arms, .sliceU, .lanes, .ports, .queues, .crc, .framers,
    .flexo, .oofCause, .points, .groupCause, .odus, .vc4s, .xc, .sels, .groups, .psels, .pkt, .tsu, .cal, .twill, .host, .jersey, .power,
    .sec, .cfg, .tbl, .xcTbl, .masters, .mx, .fresh, .reports] T = true) (j : Nat) (m : JyRx) (d : Dev) (mem : List Host.Cell) :
    (jyControl j m d mem).1.mask T = d.mask T := by
  refine Dev.mask_mono hT ?_
  unfold jyControl; simp (decide := true) only [↓Dev.endAborted_mask, ↓jyMessage_mask]

theorem Dev.start_mask {T : List Part} (hT : Part.within [.life, .jersey] T = true) (d : Dev) :
    (Dev.start d).mask T = d.mask T := by
  refine Dev.mask_mono hT ?_
  unfold Dev.start
  repeat' (first | split | (simp (decide := true) only [↓Dev.updLink_mask, ↓Dev.mask_set_life, ↓Dev.mask_set_worker, ↓Dev.mask_set_devid, ↓Dev.mask_set_worker_devid]))

theorem Dev.porRelease_mask {T : List Part} (hT : Part.within [.life, .worker, .devid, .porLow, .jersey] T = true) (d : Dev) (role : Bool) (devid :
    Nat) :
    (Dev.porRelease d role devid).mask T = d.mask T := by
  refine Dev.mask_mono hT ?_
  unfold Dev.porRelease; split <;> simp (decide := true) only [↓Dev.start_mask, ↓Dev.mask_set_worker, ↓Dev.mask_set_devid, ↓Dev.mask_set_porLow, ↓Dev.mask_set_worker_devid, ↓Dev.mask_set_worker_devid_porLow]

theorem Dev.shedAll_mask {T : List Part} (hT : Part.within [.regs, .lanes, .ports, .framers, .flexo, .oofCause, .points, .odus, .vc4s, .host,
    .jersey] T = true) (d : Dev) : Dev.mask T (Dev.shedAll d) = d.mask T := by
  refine Dev.mask_mono hT ?_
  unfold Dev.shedAll
  try simp (decide := true) only [↓Dev.holdOn_mask, ↓Dev.mask_foldl, ↓Dev.mask_foldl2]
  repeat' (first
      | done
      | with_reducible rfl
      | (with_reducible refine (Dev.mask_foldl ?_ _ _).trans ?_)
      | (with_reducible refine (Dev.mask_foldl2 ?_ _ _).trans ?_)
      | (simp (decide := true) only [↓Dev.holdOn_mask, ↓Dev.mask_foldl, ↓Dev.mask_foldl2]; done)
      | (intro d x; try dsimp only)
      | (split <;> try simp (decide := true) only [↓Dev.holdOn_mask, ↓Dev.mask_foldl, ↓Dev.mask_foldl2])
      | (simp (decide := true) only [↓Dev.holdOn_mask, ↓Dev.mask_foldl, ↓Dev.mask_foldl2]))

theorem Dev.warnOn_mask {T : List Part} (hT : Part.within [.regs, .lanes, .ports, .framers, .flexo, .oofCause, .points, .odus, .vc4s, .host,
    .jersey, .power] T = true) (d : Dev) :
    (Dev.warnOn d).mask T = d.mask T := by
  refine Dev.mask_mono hT ?_
  unfold Dev.warnOn
  repeat' (first | split | (simp (decide := true) only [↓Dev.raise_mask, ↓Dev.shedAll_mask, ↓Dev.mask_set_power]))

theorem Dev.warnOff_mask {T : List Part} (hT : Part.within [.power] T = true) (d : Dev) :
    (Dev.warnOff d).mask T = d.mask T := by
  refine Dev.mask_mono hT ?_
  unfold Dev.warnOff
  repeat' (first | split | (simp (decide := true) only [↓Dev.mask_set_power]))

theorem Dev.sagOn_mask {T : List Part} (hT : Part.within [.regs, .lanes, .ports, .framers, .flexo, .oofCause, .points, .odus, .vc4s, .host,
    .jersey, .power] T = true) (d : Dev) :
    (Dev.sagOn d).mask T = d.mask T := by
  refine Dev.mask_mono hT ?_
  unfold Dev.sagOn
  repeat' (first | (simp (decide := true) only [↓Dev.count32_mask, ↓Dev.raise_mask, ↓Dev.shedAll_mask, ↓Dev.mask_set_power]; done) | split)

theorem Dev.sagOff_mask {T : List Part} (hT : Part.within [.power] T = true) (d : Dev) :
    (Dev.sagOff d).mask T = d.mask T := by
  refine Dev.mask_mono hT ?_
  unfold Dev.sagOff
  repeat' (first | (simp (decide := true) only [↓Dev.mask_set_power]; done) | split)

theorem Dev.recovered_mask {T : List Part} (hT : Part.within [.regs, .lanes, .ports, .framers, .flexo, .oofCause, .points, .groupCause,
    .odus, .vc4s, .host, .jersey, .power] T = true) (d : Dev) :
    (Dev.recovered d).mask T = d.mask T := by
  refine Dev.mask_mono hT ?_
  unfold Dev.recovered
  try simp (decide := true) only [↓Dev.raise_mask, ↓Dev.holdOff_mask, ↓Dev.mask_set_power, ↓Dev.mask_foldl, ↓Dev.mask_foldl2]
  repeat' (first
      | done
      | with_reducible rfl
      | (with_reducible refine (Dev.mask_foldl ?_ _ _).trans ?_)
      | (with_reducible refine (Dev.mask_foldl2 ?_ _ _).trans ?_)
      | (simp (decide := true) only [↓Dev.raise_mask, ↓Dev.holdOff_mask, ↓Dev.mask_set_power, ↓Dev.mask_foldl, ↓Dev.mask_foldl2]; done)
      | (intro d x; try dsimp only)
      | (split <;> try simp (decide := true) only [↓Dev.raise_mask, ↓Dev.holdOff_mask, ↓Dev.mask_set_power, ↓Dev.mask_foldl, ↓Dev.mask_foldl2])
      | (simp (decide := true) only [↓Dev.raise_mask, ↓Dev.holdOff_mask, ↓Dev.mask_set_power, ↓Dev.mask_foldl, ↓Dev.mask_foldl2]))

theorem Dev.tcellIs_mask {T : List Part} (hT : Part.within [.regs, .host, .jersey, .power] T = true) (d : Dev) (t : Nat) :
    (Dev.tcellIs d t).mask T = d.mask T := by
  refine Dev.mask_mono hT ?_
  unfold Dev.tcellIs
  repeat' (first | split | (simp (decide := true) only [↓Dev.raise_mask, ↓Dev.mask_set_power]))

theorem Dev.governor_mask {T : List Part} (hT : Part.within [.regs, .host, .jersey, .power] T = true) (d : Dev) (iEst demand tcell vcore : Nat) :
    (Dev.governor d iEst demand tcell vcore).mask T = d.mask T := by
  refine Dev.mask_mono hT ?_
  unfold Dev.governor; simp (decide := true) only [↓Dev.tcellIs_mask, ↓Dev.mask_set_power]

end Sys2Proof.Machine
end

