-- ==== Sys2Proof/Laws/Host.lean ====
section
/-! SUPPORT. The passage of a descriptor through the host queue engine, said once: what a command whose header checks pass
becomes when its own rule completes it, refuses it, or leaves its completion to a later command, and that the passage itself
changes the rings, the jobs and the link messages alone. -/

namespace Sys2Proof.Machine

/-- The device after the host queue engine has taken the descriptor from its ring; a worker has it from the manager. -/
def Dev.fetched (d : Dev) (c : Desc) : Dev :=
  if d.worker then d else (d.takeSlot c.ring.val).setReg (aRing c.ring.val 0x18) (c.seq + 1)

/-- The device with the descriptor taken and its job open: what a command's own rule acts on. -/
def Dev.opened (d : Dev) (op : Nat) (c : Desc) : Dev := ((d.fetched c).openJob op c).1

theorem Dev.fetched_mask (d : Dev) (c : Desc) : (d.fetched c).mask [.regs] = d.mask [.regs] := by
  unfold Dev.fetched
  split
  · rfl
  · rw [Dev.setReg_mask (by decide), Dev.takeSlot_mask (by decide)]

theorem Dev.opened_mask {T : List Part} (hT : Part.within [.regs, .host] T = true) (d : Dev) (op : Nat) (c : Desc) :
    (d.opened op c).mask T = d.mask T := by
  refine Dev.mask_mono hT ?_
  unfold Dev.opened
  rw [Dev.openJob_mask (by decide)]
  exact Dev.mask_mono (by decide) (Dev.fetched_mask d c)

theorem Dev.openJob_snd (d : Dev) (op : Nat) (c : Desc) (v : Nat) : (d.openJob op c v).2 = d.host.nextJob := rfl

theorem Dev.fetched_nextJob (d : Dev) (c : Desc) : (d.fetched c).host.nextJob = d.host.nextJob := by
  unfold Dev.fetched; split <;> rfl

/-- A command whose own rule runs. -/
theorem Dev.execute_ran {d d' : Dev} {op : Nat} {c : Desc} {run : Dev → Nat → Ran} {r : Option Done}
    (h : run (d.openJob op c).1 d.host.nextJob = .ok (d', r)) :
    d.execute op c run = r.elim d' (fun x => d'.complete op d.host.nextJob x) := by
  unfold Dev.execute
  simp only [Dev.openJob_snd, h]
  cases r <;> rfl

/-- A command that its own rule refuses. -/
theorem Dev.execute_refused {d : Dev} {op : Nat} {c : Desc} {run : Dev → Nat → Ran} {r : Done}
    (h : run (d.openJob op c).1 d.host.nextJob = .error r) :
    d.execute op c run = (d.openJob op c).1.complete op d.host.nextJob r := by
  unfold Dev.execute
  simp only [Dev.openJob_snd, h]

/-- A descriptor for this device whose header checks pass is executed by its own rule. -/
theorem Dev.command_served {d : Dev} {op : Nat} {c : Desc} {run : Dev → Nat → Ran} {k b : Bool} {x : HostRead}
    (hl : d.life = .running) (hh : d.header op c k b x = none)
    (hw : d.worker = true ∨ d.ready c = true ∧ d.reg (aRing c.ring.val 0x18) = c.seq ∧ c.dest = 0) :
    d.command op c run k b x = (d.fetched c).execute op c run := by
  have hh' : ∀ w v a, ((d.setReg a w).setReg (aRing c.ring.val 0x18) v).header op c k b x = none := fun _ _ _ => hh
  unfold Dev.command Dev.fetched
  rw [if_neg (not_not.mpr hl)]
  by_cases w : d.worker = true
  · rw [if_pos w, if_pos w]
    unfold Dev.execute
    have : (d.openJob op c).1.header op c k b x = none := hh
    simp only [this]
  · obtain ⟨hr, hs, hd⟩ := hw.resolve_left w
    simp only [w, hr, Bool.not_true, Bool.false_eq_true, if_false, Dev.takeSlot, hs, ne_eq, not_true_eq_false, hh', hd,
      if_true]

theorem Dev.command_ran {d d' : Dev} {op : Nat} {c : Desc} {run : Dev → Nat → Ran} {k b : Bool} {x : HostRead}
    {r : Option Done} (hl : d.life = .running) (hh : d.header op c k b x = none)
    (hw : d.worker = true ∨ d.ready c = true ∧ d.reg (aRing c.ring.val 0x18) = c.seq ∧ c.dest = 0)
    (h : run (d.opened op c) d.host.nextJob = .ok (d', r)) :
    d.command op c run k b x = r.elim d' (fun x => d'.complete op d.host.nextJob x) := by
  rw [Dev.command_served hl hh hw, Dev.execute_ran (d' := d') (r := r) (by rw [Dev.fetched_nextJob]; exact h),
    Dev.fetched_nextJob]

/-! ### Frames -/

theorem Dev.execute_mask {T : List Part} (hT : Part.within [.regs, .host, .jersey] T = true) (d : Dev) (op : Nat) (c : Desc)
    {run : Dev → Nat → Ran} (hr : ∀ d j d' r, run d j = .ok (d', r) → d'.mask T = d.mask T) :
    (d.execute op c run).mask T = d.mask T := by
  have ho : (d.openJob op c).1.mask T = d.mask T :=
    Dev.mask_mono hT (Dev.openJob_mask (T := [.regs, .host, .jersey]) (by decide) d op c 0)
  have hc : ∀ (e : Dev) (j : Nat) (r : Done), (e.complete op j r).mask T = e.mask T :=
    fun e j r => Dev.mask_mono hT (Dev.complete_mask (T := [.regs, .host, .jersey]) (by decide) e op j r)
  cases h : run (d.openJob op c).1 d.host.nextJob with
  | error r => rw [Dev.execute_refused h, hc, ho]
  | ok p =>
    obtain ⟨d', r⟩ := p
    rw [Dev.execute_ran h]
    cases r with
    | none => exact (hr _ _ _ _ h).trans ho
    | some r => exact (hc _ _ _).trans ((hr _ _ _ _ h).trans ho)

/-- A command changes what its own rule changes, the rings and jobs of the host queue engine, their registers, and the
messages of the Jersey links. -/
theorem Dev.command_mask {T : List Part} (hT : Part.within [.regs, .host, .jersey] T = true) (d : Dev) (op : Nat) (c : Desc)
    {run : Dev → Nat → Ran} (hr : ∀ d j d' r, run d j = .ok (d', r) → d'.mask T = d.mask T) (k b : Bool) (x : HostRead) :
    (d.command op c run k b x).mask T = d.mask T := by
  have hw : ∀ (e : Dev) (f : Dev → Nat → Ran), (∀ d j d' r, f d j = .ok (d', r) → d'.mask T = d.mask T) →
      (e.execute op c f).mask T = e.mask T := fun e f hf => Dev.execute_mask hT e op c hf
  have hm : ∀ {U : List Part} {a b : Dev}, Part.within U [.regs, .host, .jersey] = true → a.mask U = b.mask U →
      a.mask T = b.mask T := fun hU e => Dev.mask_mono hT (Dev.mask_mono hU e)
  have ht : ((d.takeSlot c.ring.val).setReg (aRing c.ring.val 0x18) (c.seq + 1)).mask T = d.mask T :=
    hm (U := [.regs]) (by decide) (by rw [Dev.setReg_mask (by decide), Dev.takeSlot_mask (by decide)])
  unfold Dev.command
  split
  · rfl
  · split
    · refine hw _ _ ?_
      intro d j d' r h
      split at h
      · cases h
      · exact hr _ _ _ _ h
    · split
      · rfl
      · dsimp only
        split
        · refine (hw _ _ (fun _ _ _ _ h => by cases h)).trans ?_
          refine (hm (U := [.regs, .host, .jersey]) (by decide) (Dev.raise_mask (by decide) _ _ _ _ _)).trans ?_
          exact (hm (U := [.regs]) (by decide) (Dev.count32_mask (by decide) _ _ _)).trans ht
        · split
          · exact (hw _ _ (fun _ _ _ _ h => by cases h)).trans ht
          · split
            · exact (hw _ _ hr).trans ht
            · have hj : (((((d.takeSlot c.ring.val).setReg (aRing c.ring.val 0x18) (c.seq + 1)).openJob op c c.dest).1.jySend
                  c.dest 0x01 (descPayload op c) (decide (c.ring.val = 0)))).mask T = d.mask T := by
                refine (hm (U := [.host, .jersey]) (by decide) (Dev.jySend_mask (by decide) _ _ _ _ _)).trans ?_
                exact (hm (U := [.host]) (by decide) (Dev.openJob_mask (by decide) _ _ _ _)).trans ht
              exact (hm (U := [.host, .jersey]) (by decide) (Dev.forwardData_mask (by decide) _ _ _ _)).trans hj

end Sys2Proof.Machine
end

