-- ==== Sys2Proof/Laws/Keep.lean ====
section
/-! SUPPORT. What an operation leaves alone, accessor by accessor: an operation that changes only the parts of `T` leaves every
entry of a table outside `T` as it was. Each takes the operation's frame lemma (Laws/Frames) and is used by rewriting. -/

namespace Sys2Proof.Machine

variable {T : List Part} {a b : Dev}

theorem Dev.lane_of_mask (h : a.mask T = b.mask T) (hT : Part.lanes ∉ T) (k : Nat) : a.lane k = b.lane k := by
  unfold Dev.lane; rw [Dev.lanes_of_mask h hT]

theorem Dev.port_of_mask (h : a.mask T = b.mask T) (hT : Part.ports ∉ T) (k : Nat) : a.port k = b.port k := by
  unfold Dev.port; rw [Dev.ports_of_mask h hT]

theorem Dev.queue_of_mask (h : a.mask T = b.mask T) (hT : Part.queues ∉ T) (q : QId) : a.queue q = b.queue q := by
  unfold Dev.queue; rw [Dev.queues_of_mask h hT]

theorem Dev.crcU_of_mask (h : a.mask T = b.mask T) (hT : Part.crc ∉ T) (k : Nat) : a.crcU k = b.crcU k := by
  unfold Dev.crcU; rw [Dev.crc_of_mask h hT]

theorem Dev.framer_of_mask (h : a.mask T = b.mask T) (hT : Part.framers ∉ T) (k : Nat) : a.framer k = b.framer k := by
  unfold Dev.framer; rw [Dev.framers_of_mask h hT]

theorem Dev.e1_of_mask (h : a.mask T = b.mask T) (hT : Part.e1s ∉ T) (k : Nat) : a.e1 k = b.e1 k := by
  unfold Dev.e1; rw [Dev.e1s_of_mask h hT]

theorem Dev.point_of_mask (h : a.mask T = b.mask T) (hT : Part.points ∉ T) (k : Nat) : a.point k = b.point k := by
  unfold Dev.point; rw [Dev.points_of_mask h hT]

theorem Dev.odu_of_mask (h : a.mask T = b.mask T) (hT : Part.odus ∉ T) (k : Nat) : a.odu k = b.odu k := by
  unfold Dev.odu; rw [Dev.odus_of_mask h hT]

theorem Dev.vc4_of_mask (h : a.mask T = b.mask T) (hT : Part.vc4s ∉ T) (k : Nat) : a.vc4 k = b.vc4 k := by
  unfold Dev.vc4; rw [Dev.vc4s_of_mask h hT]

theorem Dev.lo_of_mask (h : a.mask T = b.mask T) (hT : Part.los ∉ T) (k : Nat) : a.lo k = b.lo k := by
  unfold Dev.lo; rw [Dev.los_of_mask h hT]

theorem Dev.circuit_of_mask (h : a.mask T = b.mask T) (hT : Part.circuits ∉ T) (k : Nat) : a.circuit k = b.circuit k := by
  unfold Dev.circuit; rw [Dev.circuits_of_mask h hT]

theorem Dev.sel_of_mask (h : a.mask T = b.mask T) (hT : Part.sels ∉ T) (k : Nat) : a.sel k = b.sel k := by
  unfold Dev.sel; rw [Dev.sels_of_mask h hT]

theorem Dev.group_of_mask (h : a.mask T = b.mask T) (hT : Part.groups ∉ T) (k : Nat) : a.group k = b.group k := by
  unfold Dev.group; rw [Dev.groups_of_mask h hT]

theorem Dev.psel_of_mask (h : a.mask T = b.mask T) (hT : Part.psels ∉ T) (k : Nat) : a.psel k = b.psel k := by
  unfold Dev.psel; rw [Dev.psels_of_mask h hT]

theorem Dev.pq_of_mask (h : a.mask T = b.mask T) (hT : Part.pkt ∉ T) (k : Nat) : a.pq k = b.pq k := by
  unfold Dev.pq; rw [Dev.pkt_of_mask h hT]

theorem Dev.shaper_of_mask (h : a.mask T = b.mask T) (hT : Part.pkt ∉ T) (k : Nat) : a.shaper k = b.shaper k := by
  unfold Dev.shaper; rw [Dev.pkt_of_mask h hT]

theorem Dev.policer_of_mask (h : a.mask T = b.mask T) (hT : Part.pkt ∉ T) (k : Nat) : a.policer k = b.policer k := by
  unfold Dev.policer; rw [Dev.pkt_of_mask h hT]

theorem Dev.flow_of_mask (h : a.mask T = b.mask T) (hT : Part.pkt ∉ T) (k : Nat) : a.flow k = b.flow k := by
  unfold Dev.flow; rw [Dev.pkt_of_mask h hT]

theorem Dev.ingr_of_mask (h : a.mask T = b.mask T) (hT : Part.pkt ∉ T) (k : Nat) : a.ingr k = b.ingr k := by
  unfold Dev.ingr; rw [Dev.pkt_of_mask h hT]

theorem Dev.schP_of_mask (h : a.mask T = b.mask T) (hT : Part.pkt ∉ T) (k : Nat) : a.schP k = b.schP k := by
  unfold Dev.schP; rw [Dev.pkt_of_mask h hT]

theorem Dev.tref_of_mask (h : a.mask T = b.mask T) (hT : Part.tsu ∉ T) (k : Nat) : a.tref k = b.tref k := by
  unfold Dev.tref; rw [Dev.tsu_of_mask h hT]

theorem Dev.tout_of_mask (h : a.mask T = b.mask T) (hT : Part.tsu ∉ T) (k : Nat) : a.tout k = b.tout k := by
  unfold Dev.tout; rw [Dev.tsu_of_mask h hT]

theorem Dev.engine_of_mask (h : a.mask T = b.mask T) (hT : Part.twill ∉ T) (k : Nat) : a.engine k = b.engine k := by
  unfold Dev.engine; rw [Dev.twill_of_mask h hT]

theorem Dev.link_of_mask (h : a.mask T = b.mask T) (hT : Part.jersey ∉ T) (k : Nat) : a.link k = b.link k := by
  unfold Dev.link; rw [Dev.jersey_of_mask h hT]

theorem Dev.ring_of_mask (h : a.mask T = b.mask T) (hT : Part.host ∉ T) (k : Nat) : a.ring k = b.ring k := by
  unfold Dev.ring; rw [Dev.host_of_mask h hT]

theorem Dev.fenced_of_mask (h : a.mask T = b.mask T) (hT : Part.plane ∉ T) (k : Nat) : a.fenced k = b.fenced k := by
  unfold Dev.fenced; rw [Dev.plane_of_mask h hT]

theorem Dev.planeFenced_of_mask (h : a.mask T = b.mask T) (hT : Part.plane ∉ T) (k : Nat) : a.planeFenced k = b.planeFenced k :=
  Dev.fenced_of_mask h hT _

theorem Dev.now_of_mask (h : a.mask T = b.mask T) (hT : Part.tsu ∉ T) : a.now = b.now := by
  unfold Dev.now; rw [Dev.tsu_of_mask h hT]

theorem Dev.xcWord_of_mask (h : a.mask T = b.mask T) (hT : Part.xc ∉ T) (i j k : Nat) : a.xcWord i j k = b.xcWord i j k := by
  unfold Dev.xcWord; rw [Dev.xc_of_mask h hT]

end Sys2Proof.Machine
end

