-- ==== Sys2Proof/Laws/Memory.lean ====
section
/-! SUPPORT. Laws of the storage memories: reading after writing, and that every memory operation keeps the canonical
form. -/

namespace Sys2Proof.Machine

/-! ### Cells -/

/-- A cell reads as what was written. -/
@[simp] theorem readCell_writeCell_self (m : List Host.Cell) (a : Nat) (b : Byte) : readCell (writeCell m a b) a = b :=
  tget_tput_self ..

/-- A write leaves every other cell as it was. -/
theorem readCell_writeCell_ne (m : List Host.Cell) {a x : Nat} (b : Byte) (h : x ≠ a) :
    readCell (writeCell m a b) x = readCell m x := tget_tput_ne _ m b h _

/-- The cells of two words are apart. -/
theorem cellOf_eq {n a i n' a' i' : Nat} (hi : i < 9) (hi' : i' < 9) :
    cellOf n a i = cellOf n' a' i' ↔ n * 262144 + a = n' * 262144 + a' ∧ i = i' := by
  unfold cellOf; omega

theorem readCell_foldl_ne (m : List Host.Cell) (f : Nat → Nat) (g : Nat → Byte) (l : List Nat) {x : Nat}
    (h : ∀ i ∈ l, x ≠ f i) : readCell (l.foldl (fun m i => writeCell m (f i) (g i)) m) x = readCell m x := by
  induction l generalizing m with
  | nil => rfl
  | cons i l ih =>
    rw [List.foldl_cons, ih _ (fun j hj => h j (List.mem_cons_of_mem _ hj)),
      readCell_writeCell_ne _ _ (h i (List.mem_cons_self ..))]

/-- Storing a word leaves every cell outside its nine as it was. -/
theorem readCell_putRaw_ne (m : List Host.Cell) (n a : Nat) (d : Data) (c : Byte) {x : Nat}
    (h : ∀ i, i < 9 → x ≠ cellOf n a i) : readCell (putRaw m n a d c) x = readCell m x := by
  unfold putRaw
  rw [readCell_writeCell_ne _ _ (h 8 (by omega)), readCell_foldl_ne]
  intro i hi
  exact h i (by have := List.mem_range.mp hi; omega)

/-- A stored word's cells hold its bytes and its check field. -/
theorem readCell_putRaw_data (m : List Host.Cell) (n a : Nat) (d : Data) (c : Byte) {i : Nat} (h : i < 8) :
    readCell (putRaw m n a d c) (cellOf n a i) = byteOf d i := by
  unfold putRaw
  rw [readCell_writeCell_ne _ _ (by unfold cellOf; omega)]
  have key : ∀ k, i < k → k ≤ 8 →
      readCell ((List.range k).foldl (fun m i => writeCell m (cellOf n a i) (byteOf d i)) m) (cellOf n a i) = byteOf d i := by
    intro k
    induction k with
    | zero => intro h; omega
    | succ k ih =>
      intro h1 h2
      rw [List.range_succ, List.foldl_append, List.foldl_cons, List.foldl_nil]
      by_cases hk : i = k
      · subst hk; exact readCell_writeCell_self ..
      · rw [readCell_writeCell_ne _ _ (by unfold cellOf; omega)]
        exact ih (by omega) (by omega)
  exact key 8 h (le_refl _)

theorem readCell_putRaw_check (m : List Host.Cell) (n a : Nat) (d : Data) (c : Byte) :
    readCell (putRaw m n a d c) (cellOf n a 8) = c := readCell_writeCell_self ..

@[simp] theorem wordCheck_putRaw (m : List Host.Cell) (n a : Nat) (d : Data) (c : Byte) :
    wordCheck (putRaw m n a d c) n a = c := readCell_putRaw_check ..

/-- The bytes of a word, put together, are the word. -/
theorem data_of_bytes (d : Data) :
    (List.range 8).foldl (fun x i => x ||| ((byteOf d i).setWidth 64 <<< (8 * i))) 0 = d := by
  have e : List.range 8 = [0, 1, 2, 3, 4, 5, 6, 7] := rfl
  rw [e]
  simp only [List.foldl_cons, List.foldl_nil, byteOf]
  apply BitVec.eq_of_getLsbD_eq
  intro i hi
  obtain ⟨q, r, hr, rfl⟩ : ∃ q r, r < 8 ∧ i = 8 * q + r := ⟨i / 8, i % 8, by omega, by omega⟩
  have hq : q < 8 := by omega
  interval_cases q <;>
    simp only [BitVec.getLsbD_or, BitVec.getLsbD_shiftLeft, BitVec.getLsbD_setWidth, BitVec.getLsbD_ushiftRight] <;>
    interval_cases r <;> simp

/-- A stored word's data read back. -/
@[simp] theorem wordData_putRaw (m : List Host.Cell) (n a : Nat) (d : Data) (c : Byte) :
    wordData (putRaw m n a d c) n a = d := by
  unfold wordData
  have h : ∀ l : List Nat, (∀ i ∈ l, i < 8) → ∀ x : Data,
      l.foldl (fun d' i => d' ||| ((readCell (putRaw m n a d c) (cellOf n a i)).setWidth 64 <<< (8 * i))) x
        = l.foldl (fun d' i => d' ||| ((byteOf d i).setWidth 64 <<< (8 * i))) x := by
    intro l
    induction l with
    | nil => intro _ _; rfl
    | cons i l ih =>
      intro hl x
      rw [List.foldl_cons, List.foldl_cons, readCell_putRaw_data _ _ _ _ _ (hl i (List.mem_cons_self ..)),
        ih (fun j hj => hl j (List.mem_cons_of_mem _ hj))]
  rw [h _ (fun i hi => List.mem_range.mp hi)]
  exact data_of_bytes d

/-! ### Canonical form -/

theorem memWfFrom_mono {a b : Nat} (h : a ≤ b) (m : List Host.Cell) (w : memWfFrom b m = true) : memWfFrom a m = true := by
  cases m with
  | nil => rfl
  | cons e m =>
    simp only [memWfFrom, Bool.and_eq_true, decide_eq_true_eq] at w ⊢
    exact ⟨⟨le_trans h w.1.1, w.1.2⟩, w.2⟩

theorem memWfFrom_terase (k : Nat) (m : List Host.Cell) (a : Nat) (w : memWfFrom a m = true) :
    memWfFrom a (terase m k) = true := by
  induction m generalizing a with
  | nil => rfl
  | cons e m ih =>
    simp only [memWfFrom, Bool.and_eq_true, decide_eq_true_eq] at w
    by_cases h : e.1 = k
    · simp only [terase, List.filter_cons, h, ne_eq, not_true_eq_false, decide_false, Bool.false_eq_true, if_false]
      exact memWfFrom_mono (by omega) _ (ih _ w.2)
    · simp only [terase, List.filter_cons, h, ne_eq, not_false_eq_true, decide_true, if_true, memWfFrom, Bool.and_eq_true,
        decide_eq_true_eq]
      exact ⟨w.1, ih _ w.2⟩

theorem memWfFrom_tins (k : Nat) (v : Byte) (hv : v ≠ cellReset k) (m : List Host.Cell) (a : Nat) (ha : a ≤ k)
    (w : memWfFrom a m = true) (hk : ∀ e ∈ m, e.1 ≠ k) : memWfFrom a (tins m k v) = true := by
  induction m generalizing a with
  | nil => simp [tins, memWfFrom, ha, hv]
  | cons e m ih =>
    simp only [memWfFrom, Bool.and_eq_true, decide_eq_true_eq] at w
    have hne : e.1 ≠ k := hk e (List.mem_cons_self ..)
    simp only [tins]
    split
    · simp only [memWfFrom, Bool.and_eq_true, decide_eq_true_eq]
      exact ⟨⟨ha, hv⟩, ⟨by omega, w.1.2⟩, w.2⟩
    · simp only [memWfFrom, Bool.and_eq_true, decide_eq_true_eq]
      exact ⟨w.1, ih (e.1 + 1) (by omega) w.2 (fun x hx => hk x (List.mem_cons_of_mem _ hx))⟩

/-- Writing a cell keeps the canonical form. -/
theorem writeCell_wf {m : List Host.Cell} (a : Nat) (b : Byte) (w : Memory.wf m = true) : Memory.wf (writeCell m a b) = true := by
  unfold writeCell tput Memory.wf
  split
  · exact memWfFrom_terase a m 0 w
  · rename_i hb
    refine memWfFrom_tins a b hb _ 0 (Nat.zero_le _) (memWfFrom_terase a m 0 w) ?_
    intro e he
    simpa [terase] using (List.mem_filter.mp he).2

/-- A property that each step of a fold keeps holds at its end. -/
theorem foldl_keeps {α β : Type} (P : β → Prop) (f : β → α → β) (hf : ∀ m x, P m → P (f m x)) (l : List α) (m : β)
    (h : P m) : P (l.foldl f m) := by
  induction l generalizing m with
  | nil => exact h
  | cons x l ih => exact ih _ (hf m x h)

theorem foldl_wf {α : Type} (f : List Host.Cell → α → List Host.Cell)
    (hf : ∀ m x, Memory.wf m = true → Memory.wf (f m x) = true) (l : List α) {m : List Host.Cell}
    (w : Memory.wf m = true) : Memory.wf (l.foldl f m) = true :=
  foldl_keeps (fun m => Memory.wf m = true) f hf l m w

theorem putRaw_wf {m : List Host.Cell} (n a : Nat) (d : Data) (c : Byte) (w : Memory.wf m = true) :
    Memory.wf (putRaw m n a d c) = true :=
  writeCell_wf _ _ (foldl_wf _ (fun _ _ h => writeCell_wf _ _ h) _ w)

theorem putWord_wf {m : List Host.Cell} (n a : Nat) (d : Data) (p : Bool) (w : Memory.wf m = true) :
    Memory.wf (putWord m n a d p) = true := putRaw_wf _ _ _ _ w

theorem flipWord_wf {m : List Host.Cell} (n a : Nat) (u : BitVec 72) (w : Memory.wf m = true) :
    Memory.wf (flipWord m n a u) = true := by
  unfold flipWord
  split
  · exact w
  · exact putRaw_wf _ _ _ _ w

theorem putDamask_wf (d : Dev) {m : List Host.Cell} (page table pos : Nat) (v : Data) (w : Memory.wf m = true) :
    Memory.wf (putDamask d m page table pos v) = true := by
  unfold putDamask
  generalize damaskAt page table pos = x
  obtain ⟨b, a⟩ := x
  refine foldl_wf _ ?_ _ w
  intro m x h
  beta_reduce
  split
  · exact h
  · exact putWord_wf _ _ _ _ h

theorem damaskSync_wf (old d : Dev) {m : List Host.Cell} (w : Memory.wf m = true) : Memory.wf (damaskSync old d m) = true := by
  unfold damaskSync
  refine foldl_wf _ ?_ _ w
  intro m x h
  dsimp only
  split
  · exact h
  · exact putDamask_wf _ _ _ _ _ h

/-! ### Bytes of a number (R10) -/

@[simp] theorem le_length (n x : Nat) : (le n x).length = n := by
  induction n generalizing x with
  | zero => rfl
  | succ n ih => simp [le, ih]

/-- The number that `n` bytes spell is the one that they were taken from, without what they cannot hold. -/
theorem leNat_le (n x : Nat) : leNat (le n x) = x % 256 ^ n := by
  induction n generalizing x with
  | zero => simp [le, leNat, Nat.mod_one]
  | succ n ih =>
    have h : (BitVec.ofNat 8 x).toNat = x % 256 := rfl
    rw [le, leNat, ih, h, Nat.pow_succ', Nat.mod_mul]

end Sys2Proof.Machine
end

