-- ==== Sys2Proof/Laws/MemoryKept.lean ====
section
/-! SUPPORT. Every operation of a command on the storage memories keeps their canonical form: one lemma per operation. -/

namespace Sys2Proof.Machine

/-- `f` keeps the memory's canonical form. -/
def KeepsMem (f : Dev → List Host.Cell → Dev × List Host.Cell) : Prop :=
  ∀ d m, Memory.wf m = true → Memory.wf (f d m).2 = true

theorem keepsMem_same (f : Dev → Dev) : KeepsMem (fun d m => (f d, m)) := fun _ _ w => w

theorem liveMem_wf {f : Dev → List Host.Cell → Dev × List Host.Cell} (h : KeepsMem f) : KeepsMem (liveMem f) := by
  intro d m w
  unfold liveMem
  split
  · exact h d m w
  · exact w

/-! ### Storage reads (R38) -/

theorem readStored_wf (d : Dev) {mem : List Host.Cell} (m : MemId) (addr : Nat) (master : Byte) (access : Fin 8)
    (w : Memory.wf mem = true) : Memory.wf (readStored d mem m addr master access).mem = true := by
  unfold readStored
  dsimp only
  split
  · exact w
  · split
    · split <;> exact w
    · split
      · exact w
      · exact w
      · try dsimp only
        exact putWord_wf _ _ _ _ w
      · try dsimp only
        exact putWord_wf _ _ _ _ w
      · exact w

theorem readPath_wf (d : Dev) {mem : List Host.Cell} (m : MemId) (addr : Nat) (w : Memory.wf mem = true) :
    Memory.wf (readPath d mem m addr).mem = true := by
  unfold readPath
  split
  · exact w
  · exact readStored_wf _ _ _ _ _ w

theorem storageRead_wf (m : MemId) (addr : Nat) (u : BitVec 72) : KeepsMem (storageRead m addr u) := by
  intro d mem w
  have w' := flipWord_wf (memNo m) (addr % memWords m) u w
  unfold storageRead
  dsimp only
  split
  · exact w'
  · split <;> exact readPath_wf _ _ _ w'

theorem memoryScrub_wf (m : MemId) (addr : Nat) (u : BitVec 72) : KeepsMem (memoryScrub m addr u) := by
  intro d mem w
  have w' := flipWord_wf (memNo m) (addr % memWords m) u w
  unfold memoryScrub
  dsimp only
  split
  · exact w'
  · try dsimp only
    exact readStored_wf _ _ _ _ _ w'

/-! ### Traffic in the banks of both planes (R17, R24, R41) -/

theorem Dev.putBoth_wf (d : Dev) (bank : Fin 2 → MemId) (addr : Nat) (v : Data) (p : Bool) (slice : Option Nat)
    {mem : List Host.Cell} (w : Memory.wf mem = true) : Memory.wf (d.putBoth bank addr v p slice mem) = true := by
  unfold Dev.putBoth
  refine foldl_wf _ ?_ _ w
  intro m x h
  beta_reduce
  split
  · exact h
  · exact putWord_wf _ _ _ _ h

theorem Dev.putBytes_wf (d : Dev) (places : List ((Fin 2 → MemId) × Nat)) (bs : List Byte) (bad : List Nat) (slice : Option Nat)
    {mem : List Host.Cell} (w : Memory.wf mem = true) : Memory.wf (d.putBytes places bs bad slice mem) = true :=
  foldl_wf _ (fun _ _ h => Dev.putBoth_wf _ _ _ _ _ _ h) _ w

theorem readSlice_wf (d : Dev) {mem : List Host.Cell} (bank : Fin 2 → MemId) (addr : Nat) (slice : Option Nat) (pl : Fin 2)
    (w : Memory.wf mem = true) : Memory.wf (readSlice d mem bank addr slice pl).mem = true := readPath_wf _ _ _ w

theorem readBoth_wf (d : Dev) {mem : List Host.Cell} (bank : Fin 2 → MemId) (addr : Nat) (slice : Option Nat)
    (w : Memory.wf mem = true) : Memory.wf (readBoth d mem bank addr slice).mem = true := by
  unfold readBoth
  extract_lets first a b
  have ha : Memory.wf a.mem = true := readSlice_wf _ _ _ _ _ w
  split
  · exact ha
  · split <;> exact readSlice_wf _ _ _ slice _ ha

theorem readBytes_wf (d : Dev) {mem : List Host.Cell} (places : List ((Fin 2 → MemId) × Nat)) (slice : Option Nat)
    (w : Memory.wf mem = true) : Memory.wf (readBytes d mem places slice).mem = true :=
  foldl_keeps (fun t : TakenBytes => Memory.wf t.mem = true) _ (fun _ _ h => readBoth_wf _ _ _ _ h) _ _ w

theorem Dev.offer_wf (d : Dev) (q : Nat) (bytes : List Byte) (bad : List Nat) (slice : Option Nat) (key : Nat)
    {mem : List Host.Cell} (w : Memory.wf mem = true) : Memory.wf (d.offer q bytes bad slice key mem).2 = true := by
  unfold Dev.offer
  dsimp only
  split
  · exact Dev.putBytes_wf _ _ _ _ _ w
  · exact w

/-! ### Jitter buffers (R172, R175) -/

theorem Dev.readPkt_wf (d : Dev) (e : Nat) (p : JbPkt) {mem : List Host.Cell} (w : Memory.wf mem = true) :
    Memory.wf (d.readPkt e p mem).mem = true := by
  unfold Dev.readPkt
  dsimp only
  split
  · exact readBytes_wf _ _ _ w
  · exact w

theorem Dev.keepPkt_wf (d : Dev) (e : Nat) (k : SatopRx) (slice : Option Nat) {mem : List Host.Cell}
    (w : Memory.wf mem = true) : Memory.wf (d.keepPkt e k slice mem).2 = true := by
  unfold Dev.keepPkt
  dsimp only
  split
  · exact w
  · split
    · exact Dev.putBytes_wf _ _ _ _ _ w
    · exact w

theorem Dev.satopStore_wf (e : Nat) (k : SatopRx) (slice : Option Nat) : KeepsMem (fun d => d.satopStore e k slice) := by
  intro d m w
  dsimp only
  unfold Dev.satopStore
  dsimp only
  split
  · exact w
  · split
    · exact w
    · split <;> exact Dev.keepPkt_wf _ _ _ _ w

theorem Dev.satopRx_wf (e : Nat) (k : SatopRx) (slice : Option Nat) : KeepsMem (fun d => d.satopRx e k slice) := by
  intro d m w
  dsimp only
  unfold Dev.satopRx
  dsimp only
  split
  · exact w
  · split
    · exact w
    · exact Dev.satopStore_wf _ _ _ _ _ w

theorem Dev.satopPlay_wf (e : Nat) : KeepsMem (fun d => d.satopPlay e) := by
  intro d m w
  dsimp only
  unfold Dev.satopPlay
  dsimp only
  split
  · split
    · exact w
    · split
      · split
        · exact w
        · exact Dev.readPkt_wf _ _ _ w
      · exact w
  · exact w

theorem satopPlayout_wf (e : Nat) : KeepsMem (satopPlayout e) := by
  intro d m w
  unfold satopPlayout
  dsimp only
  repeat' split
  all_goals first
    | exact w
    | exact Dev.satopPlay_wf _ _ _ w

theorem Dev.moveBlock_wf (e i : Nat) : KeepsMem (Dev.moveBlock e i) := by
  intro d m w
  unfold Dev.moveBlock
  dsimp only
  split
  · split
    · exact w
    · rename_i b _ _
      generalize blockPlaces d.reserve.region b = places
      generalize blockPlaces d.reserve.region ((d.circuit e).blocks.getD i 0) = old
      exact Dev.putBytes_wf _ _ _ _ _ (readBytes_wf _ _ _ w)
  · exact w

theorem Dev.moveBlocks_wf : KeepsMem Dev.moveBlocks := by
  intro d m w
  unfold Dev.moveBlocks
  exact foldl_keeps (fun s : Dev × List Host.Cell => Memory.wf s.2 = true) _ (fun _ _ h => Dev.moveBlock_wf _ _ _ _ h) _ _ w

theorem Dev.sendFrame_wf (n s v : Nat) (borrowed : Bool) : KeepsMem (fun d => d.sendFrame n s v borrowed) := by
  intro d m w
  dsimp only
  unfold Dev.sendFrame
  dsimp only
  split
  · exact readBytes_wf _ _ _ w
  · exact w

theorem frameStart_wf (n : Nat) : KeepsMem (frameStart n) := by
  intro d m w
  unfold frameStart
  dsimp only
  split
  · exact w
  · split
    · split
      · exact Dev.sendFrame_wf _ _ _ _ _ _ w
      · exact w
    · exact w

theorem satopTx_wf (e : Nat) (x : SatopTx) : KeepsMem (satopTx e x) := by
  intro d m w
  unfold satopTx
  dsimp only
  repeat' split
  all_goals first
    | exact w
    | exact Dev.offer_wf _ _ _ _ _ _ w

theorem Dev.classify_wf (i : Nat) (f : MacRx) : KeepsMem (fun d => d.classify i f) := by
  intro d m w
  dsimp only
  unfold Dev.classify
  split
  · dsimp only
    split
    · exact w
    · split
      · exact Dev.satopRx_wf _ _ _ _ _ w
      · exact Dev.offer_wf _ _ _ _ _ _ w
  · exact w

theorem Dev.macRx_wf (i : Nat) (f : MacRx) : KeepsMem (fun d => d.macRx i f) := by
  intro d m w
  dsimp only
  unfold Dev.macRx
  dsimp only
  repeat' split
  all_goals first
    | exact w
    | exact Dev.classify_wf _ _ _ _ w

theorem gfpFrame_wf (o : Nat) (bs : List Byte) (x : RxWords) : KeepsMem (gfpFrame o bs x) := by
  intro d m w
  unfold gfpFrame
  dsimp only
  repeat' split
  all_goals first
    | exact w
    | exact Dev.macRx_wf _ _ _ _ w

theorem Dev.putSlot_wf (k pos n : Nat) (bs : List Byte) (bad : List Nat) (slice : Option Nat) (mark : MSlot → MSlot) :
    KeepsMem (fun d => d.putSlot k pos n bs bad slice mark) := by
  intro d m w
  dsimp only
  unfold Dev.putSlot
  split
  · exact w
  · dsimp only
    split
    · exact Dev.putBytes_wf _ _ _ _ _ w
    · exact w

theorem Dev.readSlot_wf (d : Dev) (g : MGroup) (s : MSlot) {mem : List Host.Cell} (w : Memory.wf mem = true) :
    Memory.wf (d.readSlot g s mem).mem = true := by
  unfold Dev.readSlot
  split
  · exact readBytes_wf _ _ _ w
  · exact w

theorem Dev.storeUnit_wf (k : Nat) (west : Bool) (pos : Nat) (u : MUnit) : KeepsMem (fun d => d.storeUnit k west pos u) := by
  intro d m w
  dsimp only
  unfold Dev.storeUnit
  dsimp only
  repeat' split
  all_goals first
    | exact w
    | exact Dev.putSlot_wf _ _ _ _ _ _ _ _ _ w

theorem Dev.stageVerdict_wf (k : Nat) (west : Bool) (nBip : Nat) : KeepsMem (fun d => d.stageVerdict k west nBip) := by
  intro d m w
  dsimp only
  unfold Dev.stageVerdict
  repeat' (first | split | dsimp only)
  all_goals first
    | exact w
    | exact Dev.putSlot_wf _ _ _ _ _ _ _ _ _ w

theorem copyArrival_wf (k : Nat) (west : Bool) (u : MUnit) : KeepsMem (copyArrival k west u) := by
  intro d m w
  unfold copyArrival
  split
  · exact w
  · dsimp only
    split
    · exact w
    · rename_i g _ _
      have h : Memory.wf (if g.std = true then d.stageVerdict k west u.nBip m else (d, m)).2 = true := by
        split
        · exact Dev.stageVerdict_wf _ _ _ _ _ w
        · exact w
      split
      · exact Dev.storeUnit_wf _ _ _ _ _ _ h
      · exact h

theorem unitArrival_wf (k : Nat) (west : Bool) (u : MUnit) : KeepsMem (unitArrival k west u) := by
  intro d m w
  unfold unitArrival
  split
  · exact w
  · exact copyArrival_wf _ _ _ _ _ w

theorem Dev.forwardSlot_wf (d : Dev) (k : Nat) (g : MGroup) (s : MSlot) {mem : List Host.Cell} (w : Memory.wf mem = true) :
    Memory.wf (d.forwardSlot k g s mem).mem = true := by
  unfold Dev.forwardSlot
  exact Dev.readSlot_wf _ _ _ (Dev.readSlot_wf _ _ _ w)

theorem mergePlayout_wf (k : Nat) : KeepsMem (mergePlayout k) := by
  intro d m w
  unfold mergePlayout
  split
  · exact w
  · dsimp only
    split
    · exact w
    · split
      · exact w
      · exact Dev.forwardSlot_wf _ _ _ _ w

theorem Dev.moveSlot_wf (k n pos : Nat) : KeepsMem (Dev.moveSlot k n pos) := by
  intro d m w
  unfold Dev.moveSlot
  split
  · exact w
  · dsimp only
    split
    · exact w
    · split
      · exact w
      · exact Dev.putSlot_wf _ _ _ _ _ _ _ _ _ (Dev.readSlot_wf _ _ _ w)

theorem mergeResizeApplied_wf (k : Nat) : KeepsMem (mergeResizeApplied k) := by
  intro d m w
  unfold mergeResizeApplied
  split
  · exact w
  · split
    · exact w
    · rename_i _ g _ _ n _
      split
      · exact foldl_keeps (fun x : Dev × List Host.Cell => Memory.wf x.2 = true) _
          (fun x pos h => Dev.moveSlot_wf k n pos x.1 x.2 h) (g.slots.map (fun x => x.1)) (d, m) w
      · exact w

/-! ### Copies, restarts and loads (R31, R352, R461) -/

theorem clearMem_wf {m : List Host.Cell} (n : Nat) (w : Memory.wf m = true) : Memory.wf (clearMem m n) = true :=
  foldl_wf _ (fun _ _ h => putWord_wf _ _ _ _ h) _ w

theorem copyWord_wf (src dst : MemId) (a b : Nat) : KeepsMem (fun d m => copyWord d m src dst a b) :=
  fun d _ w => putWord_wf _ _ _ _ (readPath_wf d src a w)

theorem copyMem_wf (src dst : MemId) (d : Dev) {m : List Host.Cell} (w : Memory.wf m = true) :
    Memory.wf (copyMem src dst d m).2 = true := by
  unfold copyMem
  exact foldl_keeps (fun x : Dev × List Host.Cell => Memory.wf x.2 = true) _
    (fun x a h => copyWord_wf src dst a a x.1 x.2 h) _ _ (clearMem_wf _ w)

theorem loadInstr_wf (bs : List Byte) (g : Nat) {m : List Host.Cell} (w : Memory.wf m = true) :
    Memory.wf (loadInstr bs g m) = true := foldl_wf _ (fun _ _ h => putWord_wf _ _ _ _ h) _ w

theorem poisonMem_wf {m : List Host.Cell} (n k : Nat) (w : Memory.wf m = true) : Memory.wf (poisonMem m n k) = true :=
  foldl_wf _ (fun _ _ h => putWord_wf _ _ _ _ h) _ w

theorem Dev.fillBank_wf (d : Dev) (n : Nat) {m : List Host.Cell} (w : Memory.wf m = true) :
    Memory.wf (d.fillBank n m) = true := by
  unfold Dev.fillBank
  refine foldl_wf _ ?_ _ (clearMem_wf _ w)
  intro m x h
  dsimp only
  split
  · try dsimp only
    exact putWord_wf _ _ _ _ h
  · exact h

theorem unitStores_wf (u : Nat) (restart : Bool) : KeepsMem (unitStores u restart) := by
  intro d m w
  unfold unitStores
  dsimp only
  split
  · split
    · dsimp only; exact clearMem_wf _ (loadInstr_wf _ _ w)
    · exact copyMem_wf _ _ _ (loadInstr_wf _ _ w)
  · split
    · dsimp only; exact poisonMem_wf _ _ w
    · exact copyMem_wf _ _ _ w
  · split
    · dsimp only; exact poisonMem_wf _ _ w
    · exact copyMem_wf _ _ _ w
  · split
    · dsimp only; exact Dev.fillBank_wf _ _ w
    · exact copyMem_wf _ _ _ w
  · exact w

theorem backMem_wf (d : Dev) (id : MemId) {m : List Host.Cell} (w : Memory.wf m = true) :
    Memory.wf (backMem d m id).2 = true := by
  unfold backMem
  refine foldl_keeps (fun x : Dev × List Host.Cell => Memory.wf x.2 = true) _ ?_ _ _ w
  intro x a h
  dsimp only
  split
  · exact h
  · exact readStored_wf _ _ _ _ _ h

theorem unitUpset_wf (b : ReadBack) (u : Nat) {m : List Host.Cell} (w : Memory.wf m = true) :
    Memory.wf (unitUpset b u m) = true := by
  unfold unitUpset
  split
  · exact flipWord_wf _ _ _ w
  · exact flipWord_wf _ _ _ w
  · exact w

theorem unitBack_wf (b : ReadBack) (u : Nat) (restart : Bool) : KeepsMem (unitBack b u restart) := by
  intro d m w
  unfold unitBack
  exact foldl_keeps (fun z : Dev × List Host.Cell => Memory.wf z.2 = true) _ (fun z id h => backMem_wf z.1 id h) _ _
    (unitUpset_wf _ _ (unitStores_wf _ _ _ _ w))

theorem unfenceDone_wf (b : ReadBack) : KeepsMem (unfenceDone b) := by
  intro d m w
  unfold unfenceDone
  split
  · exact w
  · rename_i x _
    have h := unitBack_wf b x.unit x.restart d m w
    generalize unitBack b x.unit x.restart d m = y at h
    dsimp only
    repeat' split
    all_goals exact h

theorem moveStore_wf (slice src dst bytes own plane : Nat) : KeepsMem (moveStore slice src dst bytes own plane) := by
  intro d m w
  unfold moveStore
  refine foldl_keeps (fun x : Dev × List Host.Cell => Memory.wf x.2 = true) _ ?_ _ _ w
  intro x p h
  exact foldl_keeps (fun y : Dev × List Host.Cell => Memory.wf y.2 = true) _ (fun y i hy => copyWord_wf _ _ _ _ y.1 y.2 hy) _ _ h

theorem moveDone_wf (slice src : Nat) : KeepsMem (moveDone slice src) := by
  intro d m w
  unfold moveDone
  split
  · exact w
  · dsimp only
    split
    · exact w
    · exact moveStore_wf _ _ _ _ _ _ _ _ w

theorem copyPlane_wf (p : Nat) (d : Dev) {m : List Host.Cell} (w : Memory.wf m = true) :
    Memory.wf (copyPlane p d m).2 = true := by
  unfold copyPlane
  exact foldl_keeps (fun x : Dev × List Host.Cell => Memory.wf x.2 = true) _
    (fun x _ h => copyMem_wf _ _ x.1 h) _ _ w

theorem resyncComplete_wf (bad : Bool) : KeepsMem (resyncComplete bad) := by
  intro d m w
  unfold resyncComplete
  split
  · exact w
  · split
    · exact w
    · rename_i r _ _
      have h := copyPlane_wf r.plane.val d w
      generalize copyPlane r.plane.val d m = x at h ⊢
      dsimp only
      split
      · exact h
      · split <;> exact h

theorem loadPlane_wf (bs : List Byte) (p : Nat) {m : List Host.Cell} (w : Memory.wf m = true) :
    Memory.wf (loadPlane bs p m) = true := foldl_wf _ (fun _ _ h => loadInstr_wf _ _ h) _ w

theorem pkgLoaded_wf : KeepsMem pkgLoaded := by
  intro d m w
  unfold pkgLoaded
  split
  · exact w
  · try dsimp only
    exact loadPlane_wf _ _ w

theorem Dev.loadStop_wf : KeepsMem Dev.loadStop := by
  intro d m w
  unfold Dev.loadStop
  split
  · exact w
  · try dsimp only
    exact foldl_wf _ (fun _ _ h => putWord_wf _ _ _ _ h) _ w

theorem Dev.secReset_wf : KeepsMem Dev.secReset := by
  intro d m w
  unfold Dev.secReset
  dsimp only
  split
  · exact w
  · exact Dev.loadStop_wf _ _ w

theorem keyAdminDone_wf (ok : Bool) : KeepsMem (keyAdminDone ok) := by
  intro d m w
  unfold keyAdminDone
  split
  · split
    · dsimp only
      split
      · try dsimp only
        exact Dev.secReset_wf _ _ w
      · exact w
    · exact w
  · exact w

/-! ### Resets, boot (chapter 17) -/

theorem resetBlock_wf (block inst : Nat) : KeepsMem (resetBlock block inst) := by
  intro d m w
  unfold resetBlock
  split
  case h_4 => exact Dev.secReset_wf _ _ w
  all_goals exact w

theorem warmGo_wf : KeepsMem warmGo := by
  intro d m w
  unfold warmGo
  dsimp only
  split
  · exact w
  · split
    · exact w
    · try dsimp only
      exact resetBlock_wf _ _ _ _ w

theorem warmDone_wf : KeepsMem warmDone := by
  intro d m w
  unfold warmDone
  split
  · exact w
  · split
    · exact w
    · dsimp only
      split
      · try dsimp only
        exact warmGo_wf _ _ w
      · exact w

theorem porAssert_wf (lowNs : Nat) : KeepsMem (porAssert lowNs) := by
  intro d m w
  unfold porAssert
  split
  · exact w
  · rfl

theorem railLow_wf : KeepsMem railLow := by
  intro d m w
  unfold railLow
  split
  · exact w
  · rfl

theorem booted_wf (img : BootImage) (slotNo : Nat) : KeepsMem (booted img slotNo) := by
  intro d m w
  unfold booted
  dsimp only
  exact loadPlane_wf _ _ (loadPlane_wf _ _ w)

theorem bootSlots_wf (n : Nat) (x y : BootImage) : KeepsMem (bootSlots n x y) := by
  intro d m w
  unfold bootSlots
  extract_lets rx ry d'
  split
  · exact booted_wf _ _ _ _ w
  · split
    · exact booted_wf _ _ _ _ w
    · exact w

theorem bootManager_wf (a b : BootImage) : KeepsMem (bootManager a b) := by
  intro d m w
  unfold bootManager
  split
  · exact bootSlots_wf _ _ _ _ _ w
  · exact bootSlots_wf _ _ _ _ _ w

theorem bootWorker_wf : KeepsMem bootWorker := by
  intro d m w
  unfold bootWorker
  split
  · exact w
  · dsimp only
    split
    · try dsimp only
      exact booted_wf _ _ _ _ w
    · exact w

theorem bootDone_wf (a b : BootImage) : KeepsMem (bootDone a b) := by
  intro d m w
  unfold bootDone
  split
  · exact w
  · split
    · try dsimp only
      exact bootWorker_wf _ _ w
    · try dsimp only
      exact bootManager_wf _ _ _ _ w

/-! ### Registers (R207, R416) -/

theorem xcTableRead_wf (m : Nat) : KeepsMem (xcTableRead m) := by
  intro d mem w
  unfold xcTableRead
  dsimp only
  split
  · exact w
  · generalize damaskAt _ _ _ = x
    obtain ⟨b, a⟩ := x
    dsimp only
    split
    · exact w
    · split
      · exact readStored_wf _ _ _ _ _ w
      · exact w

theorem tblWrite_wf : KeepsMem tblWrite := by
  intro d mem w
  unfold tblWrite
  split
  · split
    · try dsimp only
      exact putWord_wf _ _ _ _ w
    · exact w
  · exact w

theorem tblRead_wf (m : Nat) : KeepsMem (tblRead m) := by
  intro d mem w
  unfold tblRead
  split
  · try dsimp only
    exact readStored_wf _ _ _ _ _ w
  · exact w

theorem tblGo_wf (m : Nat) (v : Word) : KeepsMem (tblGo m v) := by
  intro d mem w
  have w' : Memory.wf (if bit v 1 then tblWrite d mem else (d, mem)).2 = true := by
    split
    · try dsimp only
      exact tblWrite_wf _ _ w
    · exact w
  unfold tblGo
  dsimp only
  split
  · try dsimp only
    exact tblRead_wf _ _ _ w'
  · exact w'

theorem regMem_wf (m win a : Nat) (rr : RReg) (v : Word) : KeepsMem (regMem m win a rr v) := by
  intro d mem w
  unfold regMem
  split
  · dsimp only
    split
    · try dsimp only
      exact xcTableRead_wf _ _ _ w
    · exact w
  · try dsimp only
    exact tblGo_wf _ _ _ _ w
  · dsimp only
    split
    · try dsimp only
      exact warmGo_wf _ _ w
    · exact w
  · exact w

theorem writeReg_wf (m win a : Nat) (v : Word) : KeepsMem (writeReg m win a v) := by
  intro d mem w
  unfold writeReg
  split
  · exact w
  · split
    · exact w
    · split
      · exact w
      · split
        · exact w
        · dsimp only
          split
          · try dsimp only
            exact regMem_wf _ _ _ _ _ _ _ w
          · exact w

theorem commitDone_wf : KeepsMem commitDone := by
  intro d mem w
  unfold commitDone
  split
  · exact w
  · dsimp only
    exact foldl_keeps (fun s : Dev × List Host.Cell => Memory.wf s.2 = true) _
      (fun s x h => writeReg_wf _ _ _ _ s.1 s.2 h) _ _ w

theorem writeDw_wf (via : Via) (addr : Nat) (v : Word) : KeepsMem (writeDw via addr v) := by
  intro d mem w
  unfold writeDw
  dsimp only
  split
  · exact w
  · try dsimp only
    exact writeReg_wf _ _ _ _ _ _ w

theorem writeBar_wf (via : Via) (sh : Shape) (addr : Nat) (x : Data) : KeepsMem (writeBar via sh addr x) := by
  intro d mem w
  unfold writeBar
  split
  · split
    · try dsimp only
      exact writeDw_wf _ _ _ _ _ w
    · exact w
  · split
    · exact w
    · try dsimp only
      exact writeDw_wf _ _ _ _ _ (writeDw_wf _ _ _ _ _ w)
  · exact w

/-! ### Jersey messages (R437) -/

theorem jyAtWorker_wf (ty : Nat) (p : List Byte) : KeepsMem (jyAtWorker ty p) := by
  intro d mem w
  unfold jyAtWorker
  split
  · exact w
  · split
    · try dsimp only
      exact writeDw_wf _ _ _ _ _ w
    · exact w
  all_goals exact w

theorem jyMessage_wf (j : Nat) (x : JyRx) : KeepsMem (jyMessage j x) := by
  intro d mem w
  unfold jyMessage
  split
  · exact w
  · extract_lets d1 d2
    clear_value d2
    split
    · exact w
    · split
      · split
        · exact jyAtWorker_wf _ _ _ _ w
        · exact w
      · exact w

/-! ### Outcomes -/

theorem onMem_wf {f : Dev → List Host.Cell → Dev × List Host.Cell} (h : KeepsMem f) {s t : State}
    (w : Memory.wf s.mem = true) (e : onMem f s = .next t) : Memory.wf t.mem = true := by
  cases e; exact h _ _ w

theorem onSync_wf (f : Dev → Dev) {s t : State} (w : Memory.wf s.mem = true) (e : onSync f s = .next t) :
    Memory.wf t.mem = true := by
  cases e; exact damaskSync_wf _ _ w

theorem onDev_mem {f : Dev → Dev} {s t : State} (e : onDev f s = .next t) : t.mem = s.mem := by cases e; rfl

end Sys2Proof.Machine
end

