-- ==== Sys2Proof/Safety.lean ====
section
/-! DEFINITION. What counts as a safe run: every command that the queue holds ends in a next state. -/

namespace Sys2Proof

/-- `k` steps from `s` all answer a next state. -/
def SafeFor (s : Machine.State) (k : Nat) : Prop :=
  ∀ n, n ≤ k → ∃ t, core.run n s = Host.Outcome.next t

end Sys2Proof
end

