-- ==== Sys2Proof/Tests/Slice0.lean ====
section
/-! SUPPORT. Tests: ill-formed commands that the check refuses, and for every statement a concrete state and command that meet
its hypotheses, with what the command then does at the boundary values. A result that depends on a free value is not tested:
there the hypotheses alone are shown. The expected values are those of the rules that the statements cite. -/

-- One theorem after another: all of them at once take more memory than the check allows.
set_option Elab.async false

namespace Sys2Proof.Tests

open Machine Claim

/-! ### Small states and descriptors -/

/-- The command answers a next state that passes the check. -/
def after (c : Instr) (s : State) (p : State → Bool) : Bool :=
  match exec c s with
  | .next t => p t
  | _ => false

/-- The command leaves the state as it is. -/
def keeps (c : Instr) (s : State) : Bool := after c s (fun t => t = s)

/-- The command faults. -/
def faults (c : Instr) (s : State) : Bool :=
  match exec c s with
  | .fault _ => true
  | _ => false

/-- A running device with nothing stored and nothing waiting. -/
def on (d : Dev := {}) : State := { dev := { d with life := .running }, mem := [], pending := [] }

/-- A running worker, which takes its descriptors from the manager. -/
def wk (d : Dev := {}) : State := on { d with worker := true }

/-- A descriptor whose body begins with the bytes given and is 0 beyond. -/
def desc (b : List Byte) : Desc := { ring := 0, body := (b ++ List.replicate 56 0).take 56 }

/-- A descriptor whose body is 0 but for the bytes given, each from its offset. -/
def descAt (ps : List (Nat × List Byte)) : Desc :=
  { ring := 0, body := ps.foldl (fun b p => patchBytes b p.1 p.2) (List.replicate 56 0) }

/-- The registers of a manager with ring 0 and completion ring 4 of 64 entries enabled and one descriptor to take. -/
def ringRegs : Tab Word := [(aRing 0 0x08, 0x61), (aRing 0 0x10, 1), (aRing 4 0x08, 0x61)]

/-- A running manager with one descriptor of ring 0 to take. -/
def mgr (d : Dev := {}) : State := on { d with regs := ringRegs, host := { d.host with up := true } }

/-- The rings 8 to 10 enabled too, of 64 entries each. -/
def allRings : Tab Word := ringRegs ++ [(aRing 8 0x08, 0x61), (aRing 9 0x08, 0x61), (aRing 10 0x08, 0x61)]

theorem served_worker {op : Nat} {c : Desc} {d : Dev} {b : Bool} {x : HostRead}
    (h : (c.wf && decide (d.life = .running) && decide (d.header op c true b x = none) && d.worker) = true) :
    Served op c d b x := by
  simp only [Bool.and_eq_true, decide_eq_true_eq] at h
  exact ⟨h.1.1.1, h.1.1.2, h.1.2, .inl h.2⟩

theorem served_mgr {op : Nat} {c : Desc} {d : Dev} {b : Bool} {x : HostRead}
    (h : (c.wf && decide (d.life = .running) && decide (d.header op c true b x = none)
      && (d.ready c && decide (d.reg (aRing c.ring.val 0x18) = c.seq) && decide (c.dest = 0))) = true) : Served op c d b x := by
  simp only [Bool.and_eq_true, decide_eq_true_eq] at h
  exact ⟨h.1.1.1, h.1.1.2, h.1.2, .inr ⟨h.2.1.1, h.2.1.2, h.2.2⟩⟩

theorem zeros_of {c : Desc} {lo hi : Nat} (h : (List.range (hi + 1)).all (fun i => decide (i < lo) || decide (c.u8 i = 0)) = true) :
    Zeros c lo hi := by
  intro i h1 h2
  have := List.all_eq_true.mp h i (List.mem_range.mpr (by omega))
  simp only [Bool.or_eq_true, decide_eq_true_eq] at this
  omega

/-! ### Commands that no sender can give are refused by `Instr.wf` -/

theorem wf_desc_short : Instr.wf (.nop { ring := 0, body := [] }) = false := by decide
theorem wf_desc_long : Instr.wf (.unknownOpcode 0x99 { ring := 0, body := List.replicate 57 0 }) = false := by decide
theorem wf_bulk_short : Instr.wf (.attest { ring := 0, body := List.replicate 55 0 } .failed) = false := by decide
theorem wf_tag_idle : Instr.wf (.queuePush (.laneIn 0) 1 0 false) = false := by decide
theorem wf_tag_reserved : Instr.wf (.ingressWordPush 0 1 5) = false := by decide
theorem wf_stat : Instr.wf (.overheadFrame (.pm 0) { stat := 8 }) = false := by decide
theorem wf_k2 : Instr.wf (.overheadFrame (.ms 0) { k2 := 8 }) = false := by decide
theorem wf_time : Instr.wf (.jyTime 0 0 1000000000 0 0 0) = false := by decide
theorem wf_good : Instr.wf (.nop (desc [])) = true ∧ Instr.wf (.queuePush (.laneIn 0) 1 4 false) = true
    ∧ Instr.wf (.jyFrame 0 { head := jyHead 0 0 }) = true := by decide

/-! ### The block as a whole -/

/-- A short descriptor faults by name and a NOP of 56 bytes answers a next state (R10). -/
theorem witness_everyCommandCompletes :
    descOf (.nop { ring := 0, body := [] }) = some { ring := 0, body := [] } ∧ ([] : List Byte).length ≠ 56
    ∧ faults (.nop { ring := 0, body := [] }) (on) = true
    ∧ (desc []).body.length = 56 ∧ after (.nop (desc [])) (on) (fun t => t.pending = []) = true := by decide

/-- A NOP waits behind no command: the step takes it and leaves the queue's rest (log entry 3 for the idle step). -/
theorem test_step_takes_front :
    step { on with pending := [.nop { ring := 0, body := [] }, .swapTick] } = .fault .malformedDescriptor
    ∧ step State.reset = .next State.reset := ⟨rfl, rfl⟩

theorem witness_memoryKeepsItsForm : Memory.wf (on).mem = true ∧ step (on) = .next (idle (on)) := ⟨by decide, rfl⟩

theorem witness_onlyARunningDeviceActs :
    State.reset.dev.life ≠ .running ∧ anyLife .swapTick = false ∧ descOf .swapTick = none
    ∧ keeps .swapTick State.reset = true := by decide

/-- A step that stores: the parts, the bytes and the registers that it may change are named. -/
theorem witness_touches :
    (touchedLine (.laneAcquired 3 200)).isSome = true ∧ (touchedService .swapTick).isSome = true
    ∧ (touchedUnit .secServiceStart).isSome = true ∧ (touchedOutside (.tapInstruction .bypass)).isSome = true
    ∧ after (.laneAcquired 3 200) (on { lanes := [(3, { bstate := .acquire })] }) (fun _ => true) = true
    ∧ after .swapTick (on) (fun _ => true) = true ∧ after .secServiceStart (on) (fun _ => true) = true
    ∧ after (.tapInstruction .bypass) (on) (fun _ => true) = true := by decide

theorem witness_storageChangesOnlyWhereStored :
    exec (.rewind (.laneIn 0)) (on) = .next (on) ∧ ¬mayStore (.rewind (.laneIn 0)) (on) (on) 0 := ⟨rfl, id⟩

theorem witness_registersKeptByReports :
    ownRegs (.laneCalAbort 3) = some [aLane 3 4] ∧ 0x100 ∉ [aLane 3 4] ∧ 0x100 < 0x10000
    ∧ after (.laneCalAbort 3) (on { lanes := [(3, { bstate := .cal })] }) (fun t => t.dev.reg 0x100 = (on).dev.reg 0x100) = true := by
  decide

/-! ### Lanes, ports and their queues -/

def laneS (b : BState) (a : AState := .aligning) : State := on { lanes := [(3, { bstate := b, rate := 9, sending := true })]
                                                                 ports := [(2, { lanes := 2, format := 0x24, astate := a })]
                                                                 tsu := { elapsed := 20000000 } }

/-- A lane that is a port of its own. -/
def loneS (b : BState) (f : Nat := 2) : State := on { lanes := [(3, { bstate := b })], ports := [(3, { lanes := 1, format := f, astate := .aligning })] }

/-- Boundaries of R64 and R71: an input at 200 ppm locks and one at 201 does not; the bound of RATE 9 is 20 ms. A lane of no
port is LOCKED as it acquires. -/
theorem witness_laneBringUp :
    ((laneS .cal).dev.lane 3).bstate = .cal ∧ (laneS .acquire).dev.cdrOnly 3 = false ∧ (laneS .locked).dev.laneOwner 3 = some 2
    ∧ (on { lanes := [(3, { bstate := .acquire })] }).dev.cdrOnly 3 = true
    ∧ after (.laneAcquired 3 200) (on { lanes := [(3, { bstate := .acquire })] }) (fun t => (t.dev.lane 3).bstate = .locked
        && bit (t.dev.reg (aLane 3 4)) 0) = true
    ∧ after (.laneLost 3 false) (laneS .locked .aligned) (fun t => (t.dev.port 2).astate = .aligning && (t.dev.lane 3).cdrLock
        && !(t.dev.lane 3).sending) = true
    ∧ after (.laneCalComplete 3 7) (laneS .cal) (fun t => (t.dev.lane 3).bstate = .acquire && (t.dev.lane 3).calOk
        && (t.dev.lane 3).offsets = some 7) = true
    ∧ after (.laneCalAbort 3) (laneS .cal) (fun t => (t.dev.lane 3).bstate = .acquire && !(t.dev.lane 3).calOk
        && bit (t.dev.reg (aLane 3 4)) 3) = true
    ∧ after (.laneAcquired 3 (-200)) (laneS .acquire) (fun t => (t.dev.lane 3).bstate = .pcsWait && (t.dev.lane 3).cdrLock) = true
    ∧ keeps (.laneAcquired 3 201) (laneS .acquire) = true
    ∧ ((laneS .acquire).dev.lane 3).acqSince + acqBound 9 ≤ (laneS .acquire).dev.now
    ∧ after (.acqRetry 3) (laneS .acquire) (fun t => (t.dev.lane 3).acqSince = 20000000 && t.dev.reg (aLane 3 0x1C) = 1) = true
    ∧ ((laneS .pcsWait).dev.port 2).lanes = 2 ∧ 3 ∈ (laneS .locked).dev.portLanes 2
    ∧ after (.laneLocked 3) (laneS .pcsWait) (fun t => (t.dev.lane 3).bstate = .locked && bit (t.dev.reg (aLane 3 4)) 0
        && (t.dev.port 2).astate = .aligning) = true
    ∧ (loneS .pcsWait).dev.laneOwner 3 = some 3 ∧ ((loneS .pcsWait).dev.port 3).lanes = 1 ∧ (loneS .acquire 0x10).dev.cdrOnly 3 = true
    ∧ after (.laneLocked 3) (loneS .pcsWait) (fun t => (t.dev.port 3).astate = .aligned && (t.dev.lane 3).bstate = .locked) = true
    ∧ after (.laneAcquired 3 200) (loneS .acquire 0x10) (fun t => (t.dev.port 3).astate = .aligned) = true
    ∧ after (.laneCdrLost 3) (laneS .pcsWait) (fun t => (t.dev.lane 3).bstate = .acquire) = true
    ∧ after (.laneLost 3 true) (laneS .locked) (fun t => (t.dev.lane 3).bstate = .acquire && bit (t.dev.reg (aLane 3 4)) 1) = true := by
  decide

/-- A port of two lanes that are LOCKED. -/
def portS (a : AState) : State := on { lanes := [(2, { bstate := .locked }), (3, { bstate := .locked })]
                                       ports := [(2, { lanes := 2, format := 0x24, astate := a })] }

/-- Boundary of R74: a skew of 512 aligns, one of 513 is SKEW_FAIL. -/
theorem witness_portAligns :
    ((portS .aligning).dev.port 2).format ≠ 0 ∧ (portS .aligning).dev.lanesLocked 2 = true ∧ (portS .aligning).dev.shownSkew 2 512 = 512
    ∧ after (.portAligned 2 512) (portS .aligning) (fun t => (t.dev.port 2).astate = .aligned && (t.dev.port 2).skew = 512) = true
    ∧ after (.portAligned 2 513) (portS .aligning) (fun t => (t.dev.port 2).astate = .skewFail && bit (t.dev.reg (aPort 2 4)) 3) = true
    ∧ after (.skewMeasurement 2 512 false) (portS .aligned) (fun t => (t.dev.port 2).astate = .aligned) = true
    ∧ after (.skewMeasurement 2 513 false) (portS .aligned) (fun t => (t.dev.port 2).astate = .aligning) = true
    ∧ after (.skewMeasurement 2 0 true) (portS .aligned) (fun t => (t.dev.port 2).astate = .aligning) = true
    ∧ ((on { ports := [(3, { lanes := 1, format := 2, astate := .aligned })] }).dev.port 3).astate = .aligned
    ∧ after (.skewMeasurement 3 0 true) (on { ports := [(3, { lanes := 1, format := 2, astate := .aligned })] }) (fun t =>
        (t.dev.port 3).astate = .aligned) = true := by decide

/-- Lane 48, RATE 12, RX_CAL, the boundary taps −16 and 15 with 32 between them. -/
def laneCfg48 : Desc := desc [48, 12, 9, 2, 0xF0, 32, 15, 1]

theorem witness_laneCfg :
    Served 0x10 laneCfg48 (wk).dev ∧ Zeros laneCfg48 8 55 ∧ laneCfg48.u8 0 ≤ 63 ∧ (laneCfg48.u8 1 ≤ 9 ∨ laneCfg48.u8 1 ≤ 12 ∧ 48 ≤ laneCfg48.u8 0)
    ∧ laneCfg48.u8 2 ≤ 31 ∧ laneCfg48.u8 3 ≤ 2 ∧ laneCfg48.u8 5 ≤ 63 ∧ laneCfg48.u8 7 ≤ 1 ∧ -16 ≤ signed 8 (laneCfg48.u8 4)
    ∧ signed 8 (laneCfg48.u8 4) ≤ 15 ∧ -16 ≤ signed 8 (laneCfg48.u8 6) ∧ signed 8 (laneCfg48.u8 6) ≤ 15
    ∧ (signed 8 (laneCfg48.u8 4)).natAbs + laneCfg48.u8 5 + (signed 8 (laneCfg48.u8 6)).natAbs ≤ 63
    ∧ (wk).dev.laneOwner 48 = none
    ∧ after (.laneCfg laneCfg48) (wk) (fun t => (t.dev.lane 48).bstate = .cal && (t.dev.lane 48).rate = 12 && (t.dev.lane 48).txPre = 0xF0
        && (t.dev.lane 48).loopback = 2) = true
    ∧ after (.laneCfg (desc [48, 12, 0, 0, 0, 48, 0, 1])) (wk) (fun t => (t.dev.lane 48).bstate = .off) = true :=
  ⟨served_worker (by decide), zeros_of (by decide), by decide +kernel⟩

/-- A port of format 0x24 (100 Gbit/s Ethernet) on two lanes of RATE 2 with FEC 2, SHED and the least SKEW_WARN. -/
def portCfg2 : Desc := desc [2, 2, 0x24, 0, 2, 3, 16, 0]

def lanes2 : Tab Lane := [(2, { rate := 2 }), (3, { rate := 2 })]

theorem witness_portCfg :
    Served 0x11 portCfg2 (wk { lanes := lanes2 }).dev ∧ Zeros portCfg2 8 55 ∧ portCfg2.u8 0 ≤ 63 ∧ portCfg2.u8 5 ≤ 3
    ∧ portCfg2.bit 5 0 = true ∧ portCfg2.u8 2 ≠ 0 ∧ (wk { lanes := lanes2 }).dev.portOn 2 = false ∧ portCfg2.u8 1 ∈ [1, 2, 4, 8]
    ∧ formatKind 0x24 ≠ 0 ∧ portCfg2.u8 3 = 0 ∧ portCfg2.u8 4 ≤ 3 ∧ 16 ≤ portCfg2.u16 6 ∧ portCfg2.u16 6 ≤ 512 ∧ 2 % portCfg2.u8 1 = 0
    ∧ (∀ i, i < 2 → ((wk { lanes := lanes2 }).dev.lane (2 + i)).rate = 2 ∧ (wk { lanes := lanes2 }).dev.laneOwner (2 + i) = none)
    ∧ formatOk 0x24 2 2 2 = true ∧ (wk { lanes := lanes2 }).dev.portBlocked 2 0x24 2 0 = none
    ∧ after (.portCfg portCfg2) (wk { lanes := lanes2 }) (fun t => (t.dev.port 2).astate = .aligning && (t.dev.port 2).format = 0x24
        && (t.dev.port 2).shed && (t.dev.port 2).skewWarn = 16) = true
    ∧ (portS .aligned).dev.portBlocked 2 0 0 0 = none
    ∧ after (.portCfg (desc [2])) (wk (portS .aligned).dev) (fun t => t.dev.port 2 = {}) = true
    ∧ after (.portCfg (desc [2, 1, 2, 0, 0, 1, 16, 0])) (wk { lanes := [(2, { rate := 4, bstate := .locked })] }) (fun t =>
        (t.dev.port 2).astate = .aligned) = true :=
  ⟨served_worker (by decide), zeros_of (by decide), by decide +kernel⟩

def edgeS (q : FQueue) (eg : FQueue) (x : Lane := {}) : State := on { (portS .aligned).dev with
  lanes := [(2, { x with bstate := .locked, sending := true }), (3, { bstate := .locked })]
  ports := [(2, { lanes := 2, format := 0x24, astate := .aligned, fec := 2 })]
  queues := [(4, q), (5, eg)] }

/-- A word of an Ethernet lane whose second lane is in turn, one after an uncorrectable codeword, one in line loopback, and a
poisoned word of the egress queue; a lane of no port sends PRBS31, which its last 31 bits give back. -/
theorem witness_laneWords :
    (∀ a, (edgeS {} { items := [newItem 5 1 false] }).dev.armMask (srcOf 10 2) 1 a = 0)
    ∧ (edgeS {} {}).dev.laneOwner (2 : Fin 64) = some 2 ∧ ((edgeS {} {}).dev.lane 2).bstate = .locked ∧ ((edgeS {} {}).dev.queue (.laneIn 2)).level < 1024
    ∧ (2 : Nat) = 2 + ((edgeS {} {}).dev.port 2).inTurn ∧ parityOk (newItem 5 1 false).d (newItem 5 1 false).c = true
    ∧ (edgeS {} {}).dev.macSilent 2 = false
    ∧ after (.ingressWordPush 2 5 1) (edgeS {} {}) (fun t => (t.dev.queue (.laneIn 2)).items = [newItem 5 1 false]) = true
    ∧ after (.ingressWordPush 3 5 1) (edgeS {} {}) (fun t => (t.dev.queue (.laneIn 3)).items = []) = true
    ∧ after (.ingressWordPush 2 5 1) (edgeS {} {} { errBlocks := 1 }) (fun t =>
        (t.dev.queue (.laneIn 2)).items = [newItem EthBlock.error.word 4 false] && (t.dev.lane 2).errBlocks = 0) = true
    ∧ after (.ingressWordPush 2 5 1) (edgeS {} {} { loopback := 1 }) (fun t => t.dev.host.out = [.laneWord 2 5 false true]) = true
    ∧ ((edgeS {} {}).dev.lane 2).sending = true ∧ ((edgeS {} {}).dev.port 2).onHold = false ∧ (newItem 5 1 false).good = true
    ∧ after (.egressWordPop 2) (edgeS {} { items := [newItem 5 1 false] }) (fun t => (t.dev.queue (.laneEg 2)).items = []
        && t.dev.host.out.head? = some (.laneWord 2 5 false false)) = true
    ∧ after (.egressWordPop 2) (edgeS {} { items := [newItem 5 1 true] }) (fun t =>
        t.dev.host.out.head? = some (.laneFill 2 .error false)) = true
    ∧ after (.egressWordPop 2) (on { (edgeS {} { items := [newItem 5 1 false] }).dev with
        ports := [(2, { lanes := 2, format := 0x24, astate := .aligned, pktTx := .broken })] }) (fun t =>
        t.dev.host.out.head? = some (.laneFill 2 .idle false)) = true
    ∧ after (.egressWordPop 3) (on { lanes := [(3, { bstate := .locked })] }) (fun t => t.dev.host.out ≠ []
        && (t.dev.lane 3).prbs ≠ ({} : Lane).prbs) = true
    ∧ after (.egressWordPop 2) (edgeS {} {}) (fun t => t.dev.reg (aLane 2 0x18) = 1 && bit (t.dev.reg (aLane 2 4)) 4) = true
    ∧ after (.fecCodeword 2 true) (edgeS {} {}) (fun t => t.dev.reg (aLane 2 0x10) = 1) = true
    ∧ after (.fecCodeword 2 false) (edgeS {} {}) (fun t => t.dev.reg (aLane 2 0x14) = 1 && bit (t.dev.reg (aLane 2 4)) 2
        && (t.dev.lane 2).errBlocks = 80) = true :=
  ⟨fun _ => rfl, by decide +kernel⟩

/-- The forwarding queue of a merge group, which has mark and rewind. -/
def emuS (q : FQueue) : State := on { queues := [(qkey (.emu 0 0), q)], tsu := { elapsed := 48 } }

theorem witness_queues :
    (∀ a, (emuS {}).dev.armMask (QId.emu 0 0).owner.1 (QId.emu 0 0).owner.2.1.val a = 0) ∧ (emuS {}).dev.qDead (.emu 0 0) = false ∧ (QId.emu 0 0).mr = true ∧ (QId.laneIn 0).mr = false ∧ ((emuS {}).dev.queue (.laneIn 0)).level < (QId.laneIn 0).cap
    ∧ after (.queuePush (.laneIn 0) 5 1 false) (emuS {}) (fun t => (t.dev.queue (.laneIn 0)).items = [newItem 5 1 false]) = true
    ∧ ((newItem 5 1 false).upset { c := 1 }).good = false
    ∧ parityOk ((newItem 5 1 false).upset { c := 0 }).d ((newItem 5 1 false).upset { c := 0 }).c = true
    ∧ ((newItem 5 1 false).upset { c := 0 }).good = true
    ∧ after (.queuePop (.emu 0 0) { c := 0 }) (emuS { items := [newItem 5 1 false, newItem 6 1 false] }) (fun t =>
        (t.dev.queue (.emu 0 0)).items = [newItem 6 1 false] && (t.dev.queue (.emu 0 0)).held = [newItem 5 1 false]) = true
    ∧ after (.rewind (.emu 0 0)) (emuS { items := [newItem 6 1 false], held := [newItem 5 1 false] }) (fun t =>
        (t.dev.queue (.emu 0 0)).items = [newItem 5 1 false, newItem 6 1 false] && (t.dev.queue (.emu 0 0)).held = []) = true
    ∧ after (.release (.emu 0 0)) (emuS { items := [newItem 6 1 false], held := [newItem 5 1 false] }) (fun t =>
        (t.dev.queue (.emu 0 0)).items = [newItem 6 1 false] && (t.dev.queue (.emu 0 0)).held = []) = true
    ∧ after (.queueTimeout (.laneIn 0)) (on { regs := [(qbase (.laneIn 0) + 4, 3)], queues := [(0, { items := [newItem 5 1 false] })]
                                              tsu := { elapsed := 48 } }) (fun t => (t.dev.queue (.laneIn 0)).expired) = true :=
  ⟨fun _ => rfl, by decide +kernel⟩

/-! ### Framers and multiframes -/

/-- Port 2 of OTU4 on two lanes, aligned, with its framer. -/
def frS (f : Framer) (x : Dev := {}) : State := on { x with ports := [(2, { lanes := 2, format := 2, astate := .aligned })], framers := [(32, f)] }

/-- The pattern of R90 written out, F6F6F628_2828 by bits, after one bit. -/
def fas1 : List Bool := true :: ((List.replicate 3 [true, true, true, true, false, true, true, false]).flatten
  ++ (List.replicate 3 [false, false, true, false, true, false, false, false]).flatten)

/-- Boundaries of R90, R91 and R95: the pattern one bit into the byte matches at phase 1 on a 1-lane OTU4 port and not where the
lane PCS fixes the byte boundary; the second candidate still opens; the fourth bad position in a row is borne, the fifth is
OOF. -/
theorem witness_portFramers :
    (frS {}).dev.framerAt 32 = true ∧ (frS {}).dev.flexoOk 32 = true ∧ (frS {}).dev.frRuns 2 = true
    ∧ fasAt fas1 1 = true ∧ fasAt fas1 0 = false ∧ (frS {}).dev.matchPhase 2 (fas1.drop 1) = some 0
    ∧ (frS {}).dev.matchPhase 2 fas1 = none
    ∧ (on { ports := [(2, { lanes := 1, format := 2 })] }).dev.matchPhase 2 fas1 = some 1
    ∧ after (.scanMatch (.port 2 0) ⟨7, fas1.drop 1⟩) (frS { cands := [{ pos := 5 }], scanFrom := 7 }) (fun t =>
        (t.dev.framer 32).cands = [{ pos := 5 }, { pos := 7 }] && (t.dev.framer 32).scanFrom = 8) = true
    ∧ after (.scanMatch (.port 2 0) ⟨7, fas1⟩) (frS { cands := [{ pos := 5 }], scanFrom := 7 }) (fun t =>
        (t.dev.framer 32).cands = [{ pos := 5 }] && (t.dev.framer 32).scanFrom = 8) = true
    ∧ after (.candidateCheck (.port 2 0) [(7, fas1)]) (frS { cands := [{ pos := 7, phase := 1 }] }) (fun t =>
        (t.dev.framer 32).inFrame && (t.dev.framer 32).cands = [] && (t.dev.framer 32).phase = 1) = true
    ∧ after (.fasPosition 2 0 fas1 7) (frS { inFrame := true, phase := 1, err := 4 }) (fun t => (t.dev.framer 32).err = 0) = true
    ∧ nOof 2 = 5
    ∧ after (.fasPosition 2 0 fas1 7) (frS { inFrame := true, err := 3 }) (fun t => (t.dev.framer 32).err = 4
        && (t.dev.framer 32).inFrame && t.dev.reg (aPort 2 0x1C) = 1) = true
    ∧ after (.fasPosition 2 0 fas1 7) (frS { inFrame := true, err := 4 }) (fun t => !(t.dev.framer 32).inFrame
        && (t.dev.framer 32).scanFrom = 8) = true
    ∧ 32 ∈ (frS {}).dev.framersOf 2
    ∧ after (.slipMark 2 9) (frS { inFrame := true }) (fun t => !(t.dev.framer 32).inFrame && (t.dev.framer 32).scanFrom = 9) = true := by
  decide +kernel

/-- R93: a candidate that fails its check is dropped, and the scanner goes on one byte after its place in the failed frame. -/
theorem witness_failedCandidates :
    (frS { cands := [{ pos := 7 }] }).dev.framer 32 = { cands := [{ pos := 7 }] } ∧ 0 ≤ 7 + (frS {}).dev.frameLen 2
    ∧ fasAt fas1 0 = false ∧ after (.candidateCheck (.port 2 0) [(7, fas1)]) (frS { cands := [{ pos := 7 }] }) (fun t =>
        (t.dev.framer 32).cands = [] && (t.dev.framer 32).scanFrom = 16328) = true
    ∧ ([true] : List Bool).take 7 ≠ e1FasBits ∧ ([false] : List Bool).head? ≠ some true
    ∧ after (.candidateCheck (.e1 5) [(7, [false])]) (on { e1s := [(5, { st := .oof, cands := [{ pos := 7 }], scanFrom := 263 })] })
        (fun t => (t.dev.e1 5).cands = [] && (t.dev.e1 5).scanFrom = 264) = true
    ∧ after (.candidateCheck (.e1 5) [(7, [true])]) (on { e1s := [(5, { st := .oof, cands := [{ pos := 7, passed := 1 }], scanFrom := 519 })] })
        (fun t => (t.dev.e1 5).cands = [] && (t.dev.e1 5).scanFrom = 520) = true := by decide +kernel

/-- A FlexO port of OTUC1 on one lane. -/
def flexoS (x : MfAlign) : State := on { ports := [(2, { lanes := 1, format := 1, otucN := 1, astate := .aligned })], flexo := [(32, x)] }

/-- An ODU4 of the line of port 2, which serves clients. -/
def omfiS (x : MfAlign) : State := on { (frS { inFrame := true, mf := { lock := true } }).dev with
  odus := [(7, some { ty := 4, kind := 0, server := 2, omfi := x })] }

/-- An opened VC-4 in NORM. -/
def h4S (x : MfAlign) : State := on { ports := [(2, { lanes := 1, format := 0x13, astate := .aligned })], framers := [(32, { inFrame := true })]
                                      vc4s := [(9, some { port := 2, au4 := 1, struct := true, ptr := { st := 1 }, h4 := x })] }

/-- Boundaries of R97 to R101: the last but one mismatch in a row keeps lock, the last loses it, and the modulus wraps. -/
theorem witness_multiframes :
    (frS { inFrame := true }).dev.framerAt 32 = true ∧ isOtn ((frS {}).dev.port 2).format = true
    ∧ after (.mfas 2 0 0) (frS { inFrame := true, mf := { prev := some 255 } }) (fun t => (t.dev.framer 32).mf.lock && (t.dev.framer 32).mf.x = 1
        && (t.dev.framer 32).mfas = 0) = true
    ∧ after (.mfas 2 0 9) (frS { inFrame := true, mf := { lock := true, x := 255, merr := 3 } }) (fun t => (t.dev.framer 32).mf.lock
        && (t.dev.framer 32).mf.x = 0 && (t.dev.framer 32).mf.merr = 4) = true
    ∧ after (.mfas 2 0 9) (frS { inFrame := true, mf := { lock := true, x := 255, merr := 4 } }) (fun t => !(t.dev.framer 32).mf.lock) = true
    ∧ 0 < ((flexoS {}).dev.port 2).otucN ∧ (h4S {}).dev.portInFrame ((h4S {}).dev.feedPort 2) = true
    ∧ keeps (.flexoMfIndicator 2 1 9) (flexoS { lock := true, x := 255, merr := 4 }) = true
    ∧ after (.omfi 7 100) (omfiS { prev := some 79 }) (fun t => match t.dev.odu 7 with | some y => y.omfi.prev = none | none => false) = true
    ∧ after (.flexoMfIndicator 2 0 9) (flexoS { lock := true, x := 255, merr := 3 }) (fun t => (tget {} t.dev.flexo 32).merr = 4) = true
    ∧ after (.flexoMfIndicator 2 0 9) (flexoS { lock := true, x := 255, merr := 4 }) (fun t => !(tget {} t.dev.flexo 32).lock) = true
    ∧ (omfiS {}).dev.oduPort 5 7 = some 2 ∧ (omfiS {}).dev.portMfLock 2 = true ∧ ({ ty := 4 } : Odu).usesOmfi = true
    ∧ after (.omfi 7 0) (omfiS { prev := some 79 }) (fun t => match t.dev.odu 7 with | some y => y.omfi.lock && y.omfi.x = 1 | none => false) = true
    ∧ after (.omfi 7 9) (omfiS { lock := true, x := 79, merr := 4 }) (fun t => match t.dev.odu 7 with | some y => !y.omfi.lock | none => false) = true
    ∧ after (.h4 9 0) (h4S { prev := some 3 }) (fun t => match t.dev.vc4 9 with | some y => y.h4.lock && y.h4.x = 1 | none => false) = true
    ∧ after (.h4 9 2) (h4S { lock := true, x := 3, merr := 2 }) (fun t => match t.dev.vc4 9 with | some y => y.h4.merr = 3 && y.h4.lock | none => false) = true
    ∧ after (.h4 9 2) (h4S { lock := true, x := 3, merr := 3 }) (fun t => match t.dev.vc4 9 with | some y => !y.h4.lock | none => false) = true := by
  decide +kernel

/-- The E1 of entry 5 in framing mode `m`. -/
def e1S (m : Nat) (x : E1) (now : Nat := 0) : State := on { los := [(5, { e1Mode := 1 })], points := [(mpKeyOf 8 0 5, { e1Framing := m })], e1s := [(5, x)], tsu := { elapsed := now } }

/-- The FAS of R102 written out, 0011011. -/
def e1Fas001 : List Bool := [false, false, true, true, false, true, true]

/-- Boundaries of R102 to R104: the second check, the third errored FAS, the fourth missing signal, 915 of 1,000, 8 ms, 400 ms. -/
theorem witness_e1Framer :
    (e1S 3 {}).dev.e1Framing 5 = 3 ∧ e1Fas001.take 7 = e1FasBits
    ∧ after (.scanMatch (.e1 5) ⟨7, e1Fas001⟩) (e1S 1 { st := .oof, cands := [{ pos := 4 }, { pos := 5 }, { pos := 6 }], scanFrom := 7 }) (fun t =>
        (t.dev.e1 5).cands.length = 4) = true
    ∧ after (.candidateCheck (.e1 5) [(7, [true])]) (e1S 1 { st := .oof, cands := [{ pos := 7 }] }) (fun t =>
        (t.dev.e1 5).cands = [{ pos := 7, passed := 1 }]) = true
    ∧ after (.candidateCheck (.e1 5) [(7, e1Fas001)]) (e1S 1 { st := .oof, cands := [{ pos := 7, passed := 1 }] }) (fun t => (t.dev.e1 5).st = .ifBasic) = true
    ∧ after (.e1Fas 5 e1FasBits 9) (e1S 1 { st := .ifBasic, fe := 2 }) (fun t => (t.dev.e1 5).fe = 0 && (t.dev.e1 5).fasPos = 9) = true
    ∧ [false] ≠ e1FasBits ∧ after (.e1Fas 5 [false] 9) (e1S 1 { st := .ifMf, fe := 1 }) (fun t => (t.dev.e1 5).fe = 2 && (t.dev.e1 5).st = .ifMf) = true
    ∧ after (.e1Fas 5 [false] 9) (e1S 1 { st := .ifBasic, fe := 2 }) (fun t => (t.dev.e1 5).st = .oof) = true
    ∧ crc4MfasBits = [false, false, true, false, true, true] ∧ after (.e1Crc4Mfas 5 ⟨crc4MfasBits, 7⟩) (e1S 3 { st := .ifBasic, mfasSeen := [7] }) (fun t => (t.dev.e1 5).st = .ifMf && (t.dev.e1 5).mfPhase = 7) = true
    ∧ after (.e1Crc4Mfas 5 ⟨crc4MfasBits, 6⟩) (e1S 3 { st := .ifBasic, mfasSeen := [7] }) (fun t => (t.dev.e1 5).st = .ifBasic) = true
    ∧ after (.e1Crc4Mfas 5 ⟨crc4MfasBits, 2⟩) (e1S 2 { st := .ifMf, me := 3, mfPhase := 2 }) (fun t => (t.dev.e1 5).me = 0 && (t.dev.e1 5).st = .ifMf) = true
    ∧ [true] ≠ crc4MfasBits ∧ after (.e1Crc4Mfas 5 ⟨[true], 2⟩) (e1S 2 { st := .ifMf, me := 3, mfPhase := 2 }) (fun t => (t.dev.e1 5).st = .ifBasic) = true
    ∧ after (.e1Crc4Mfas 5 ⟨[true], 2⟩) (e1S 2 { st := .ifMf, me := 2, mfPhase := 2 }) (fun t => (t.dev.e1 5).st = .ifMf) = true
    ∧ crc4 [true] = 3 ∧ crc4 [true, false] = 6
    ∧ after (.e1Submultiframe 5 { bits := [true], c := 3 } true) (e1S 2 { st := .ifMf, subs := List.replicate 914 true }) (fun t =>
        (t.dev.e1 5).st = .ifMf) = true
    ∧ after (.e1Submultiframe 5 { bits := [true] } true) (e1S 2 { st := .ifMf, subs := List.replicate 914 true }) (fun t => (t.dev.e1 5).st = .oof) = true
    ∧ after (.e1Submultiframe 5 { bits := [true] } true) (e1S 2 { st := .ifMf, subs := List.replicate 913 true }) (fun t => (t.dev.e1 5).st = .ifMf) = true
    ∧ after (.e1MfRestart 5) (e1S 3 { st := .ifBasic, mfRestarts := 255 } 8000000) (fun t => (t.dev.e1 5).st = .oof && (t.dev.e1 5).mfRestarts = 255) = true
    ∧ keeps (.e1MfRestart 5) (e1S 3 { st := .ifBasic } 7999999) = true
    ∧ after (.e1NoCrc4 5) (e1S 3 { st := .oof, timer400 := some 0 } 400000000) (fun t => (t.dev.e1 5).noCrc4 && (t.dev.e1 5).timer400 = none) = true := by
  decide +kernel

/-! ### Overhead, defects and performance monitoring -/

/-- The PM point of ODU 7, in service, with no engine. -/
def pmS (x : Point) (now : Nat := 0) (sec : BitVec 48 := 0) (role : Nat := 1) : State := on { (omfiS {}).dev with
  points := [(mpKeyOf 2 0 7, { x with role := role })], tsu := { elapsed := now, sec := sec } }

theorem witness_overhead :
    (pmS {}).dev.pointExists 2 7 = true ∧ (pmS {}).dev.pointHeld (mpKey (.pm 7)) = false ∧ ((pmS {}).dev.point (mpKey (.pm 7))).engine = none
    ∧ (pmS {}).dev.framed (mpKey (.pm 7)) = true
    ∧ (on { (pmS {}).dev with framers := [] }).dev.framed (mpKey (.pm 7)) = false
    ∧ after (.overheadFrame (.pm 7) { nBip := [3], stat := 5 }) (on { (pmS { neEb := 1, statCand := 5, statRun := 2 }).dev with framers := [] })
        (fun t => let y := t.dev.point (mpKey (.pm 7)); y.neEb = 1 && y.stat = 1) = true
    ∧ (pmS {} 0 0 2).dev.hasReverse (mpKeyOf 2 0 7) = true
    ∧ after (.overheadFrame (.pm 7) { nBip := [3] }) (pmS { txTti := [0x41], maint := 2 } 0 0 2) (fun t =>
        match t.dev.host.out with | .overhead _ o :: _ => o.tti = some 0x41 && o.sig = .lck && o.poison = [] | _ => false) = true
    ∧ ttiByte [0x41, 0x42] 63 = 0x42
    ∧ after (.overheadFrame (.pm 7) { nBip := [3], bei := [8], stat := 5, pt := some 0x20 })
        (pmS { neEb := 1, statCand := 5, statRun := 2, ptCand := 0x20, ptRun := 2 }) (fun t =>
        let y := t.dev.point (mpKey (.pm 7)); y.neEb = 2 && y.feEb = 1 && y.stat = 5 && y.pt = some 0x20) = true
    ∧ after (.overheadFrame (.pm 7) { nBip := [0], bei := [9], stat := 5, pt := some 0x20 })
        (pmS { neEb := 1, statCand := 5, statRun := 1, ptCand := 0x20, ptRun := 1 }) (fun t =>
        let y := t.dev.point (mpKey (.pm 7)); y.neEb = 1 && y.feEb = 0 && y.stat = 1 && y.pt = none) = true := by decide +kernel

theorem witness_seconds :
    after (.pmSecond (.pm 7)) (pmS { neEb := 3, held := [{}, {}, {}, {}, {}, {}, {}, {}] } 0 901) (fun t =>
      let y := t.dev.point (mpKey (.pm 7)); y.held.length = 9 && y.neEb = 0 && match y.held with | r :: _ => r.sec = 900 && r.eb = 3 && r.es | [] => false) = true
    ∧ (pmS { ended15 := [{ neEb := 4 }], cur15 := { start := 900 } }).dev.point (mpKey (.pm 7))
      = { ended15 := [{ neEb := 4 }], cur15 := { start := 900 }, role := 1 }
    ∧ ({ ended15 := [{ neEb := 4 }], cur15 := { start := 900 } } : Point).endOf false = 900
    ∧ after (.pmBinClose (.pm 7) false) (pmS { ended15 := [{ neEb := 4 }], cur15 := { start := 900 }, held := [{ sec := 900 }] } 0 910) (fun t =>
      (t.dev.point (mpKey (.pm 7))).prev15.neEb = 4 && (t.dev.point (mpKey (.pm 7))).ended15 = []) = true
    ∧ keeps (.pmBinClose (.pm 7) false) (pmS { ended15 := [{ neEb := 4 }], cur15 := { start := 900 } } 0 909) = true
    ∧ keeps (.pmBinClose (.pm 7) false) (pmS { ended15 := [{ neEb := 4 }], cur15 := { start := 900 }, held := [{ sec := 899 }] } 0 910) = true
    ∧ after (.pmBinClose (.pm 7) true) (pmS { ended24 := [{ neEb := 4 }], cur24 := { start := 900 } } 0 910) (fun t =>
      (t.dev.point (mpKey (.pm 7))).prev24.neEb = 4) = true := by decide +kernel

/-- The SM point of port 2, out of frame since 0, at the given time. -/
def smS (x : Point) (now : Nat) : State := on { (frS {}).dev with points := [(mpKeyOf 1 0 2, { x with role := 1 })], tsu := { elapsed := now } }

/-- Boundaries of R125, R128 and R131: 3 ms, SET_INT, CLR_INT and RECOVERY to the nanosecond. -/
theorem witness_defects :
    (smS {} 0).dev.pointExists 1 2 = true ∧ (smS {} 0).dev.lasting (mpKey (.sm 2)) 1 = some (true, 0)
    ∧ after (.defectPersistence (.sm 2) 1) (smS {} 3000000) (fun t => (t.dev.point (mpKey (.sm 2))).raw.getLsbD 1) = true
    ∧ keeps (.defectPersistence (.sm 2) 1) (smS {} 2999999) = true
    ∧ after (.setIntExpiry (.sm 2) 1) (smS { settling := true, det := 2, setInt := 1 } 100000000) (fun t => (t.dev.point (mpKey (.sm 2))).dec = 2) = true
    ∧ keeps (.setIntExpiry (.sm 2) 1) (smS { settling := true, det := 2, setInt := 1 } 99999999) = true
    ∧ after (.clrIntExpiry (.sm 2) 1) (smS { settling := true, dec := 6, clrInt := 1 } 100000000) (fun t => (t.dev.point (mpKey (.sm 2))).dec = 4) = true
    ∧ after (.recoveryExpiry (.sm 2)) (smS { settling := true, det := 2, recovery := 1 } 1000000000) (fun t =>
        !(t.dev.point (mpKey (.sm 2))).settling && (t.dev.point (mpKey (.sm 2))).dec = 2) = true
    ∧ keeps (.recoveryExpiry (.sm 2)) (smS { settling := true, det := 2, recovery := 1 } 999999999) = true := by decide +kernel

/-- DEFECT_CFG section 0 of the SM point of port 2: ROLE 1, SET_INT, CLR_INT and RECOVERY at their least. -/
def defectSm : Desc := descAt [(0, [1]), (2, [2]), (5, [5]), (10, [2]), (11, [100]), (16, [1, 0, 1, 0, 1]), (24, [7])]

def dayOff : Desc := descAt [(12, [0x7F, 0x51, 1])]

def ttiSm : Desc := descAt [(0, [1]), (1, [3]), (2, [2]), (8, [0x41, 0x42])]

/-- A worker with port 2. -/
def wkOtu : State := wk (frS {}).dev

theorem witness_dayOffset :
    Served 0x12 dayOff (wk).dev ∧ (∀ i, i < 56 → 5 ≤ i → i < 12 ∨ 16 ≤ i → dayOff.u8 i = 0) ∧ dayOff.u32 12 = 86399
    ∧ after (.defectCfg dayOff) (wk) (fun t => t.dev.dayOffset = 86399) = true :=
  ⟨served_worker (by decide), by decide +kernel⟩

theorem witness_defectCfg :
    Served 0x12 defectSm wkOtu.dev ∧ (∀ i, i < 56 → 22 ≤ i → i < 24 ∨ 34 ≤ i → defectSm.u8 i = 0)
    ∧ wkOtu.dev.timOk 1 2 (defectSm.u8 6) = true ∧ maintOk 1 0 1 = true ∧ wkOtu.dev.pointExists 1 2 = true
    ∧ (wkOtu.dev.allocate (wkOtu.dev.pointSlice (mpKeyOf 1 0 2)) (wkOtu.dev.pointLoad (mpKeyOf 1 0 2)).1 (wkOtu.dev.pointLoad (mpKeyOf 1 0 2)).2).isSome = true
    ∧ after (.defectCfg defectSm) wkOtu (fun t => let y := t.dev.point (mpKeyOf 1 0 2)
        y.role = 1 && y.timAct && y.degm = 2 && y.sesPct = 100 && y.setInt = 1 && y.clrInt = 1 && y.recovery = 1 && y.tca = [7, 0, 0, 0]
        && y.engine.isSome && y.settling) = true :=
  ⟨served_worker (by decide), by decide +kernel⟩

theorem witness_defectTti :
    Served 0x12 ttiSm wkOtu.dev ∧ (∀ i, i < 56 → 5 ≤ i → i < 8 ∨ 40 ≤ i → ttiSm.u8 i = 0)
    ∧ after (.defectCfg ttiSm) wkOtu (fun t => (t.dev.point (mpKeyOf 1 0 2)).txTti.getD 32 0 = 0x41 && (t.dev.point (mpKeyOf 1 0 2)).txTti.length = 64) = true :=
  ⟨served_worker (by decide), by decide +kernel⟩

/-! ### Mapping, pointers and justification -/

/-- ODU 8, an ODU0 in slot 80 of ODU4 7 with TPN 80. -/
def mapTrib : Desc := descAt [(1, [1]), (2, [8]), (4, [0, 1, 7, 0, 3]), (12, [80]), (25, [0x80])]

/-- The ODU4 of the line of port 3. -/
def mapLine : Desc := descAt [(1, [1]), (2, [8]), (4, [4, 0, 3, 0, 0])]

/-- A packet ODU2 on scheduler port 127. -/
def mapPacket : Desc := descAt [(1, [1]), (2, [8]), (4, [2, 2, 0, 0, 1]), (14, [127])]

/-- A worker with ODU4 7 on port 2, and port 3 with no ODU. -/
def wkMap (x : Dev := {}) : State := wk { x with
  ports := [(2, { lanes := 2, format := 2, astate := .aligned }), (3, { lanes := 2, format := 2, astate := .aligned })]
  odus := (7, some { ty := 4, kind := 0, server := 2 }) :: x.odus }

theorem witness_mapCreate :
    (Served 0x13 mapTrib (wkMap).dev ∧ Served 0x13 mapLine (wkMap).dev ∧ Served 0x13 mapPacket (wkMap).dev)
    ∧ (wkMap).dev.odu 8 = none
    ∧ (let x := mapOdu mapTrib
       kindTypes x.kind x.ty = true ∧ payloadOk x.payload x.ty x.kind = true ∧ x.flexTs = 0 ∧ (wkMap).dev.taken x = none
       ∧ (∀ k ∈ serverChecks x { ty := 4, kind := 0, server := 2 } ((wkMap).dev.serverTs 7), k.2 = true) ∧ (wkMap).dev.oduInPages 7 = false
       ∧ ((wkMap).dev.setOdu 8 (some { x with omfi := (wkMap).dev.unlocked })).budgetBroken = none)
    ∧ (let x := mapOdu mapLine
       kindTypes x.kind x.ty = true ∧ payloadOk x.payload x.ty x.kind = true ∧ x.tpn = 0 ∧ x.ts = [] ∧ (wkMap).dev.lineOdu 3 = none)
    ∧ (let x := mapOdu mapPacket
       kindTypes x.kind x.ty = true ∧ payloadOk x.payload x.ty x.kind = true ∧ x.gfpPort = 127 ∧ (wkMap).dev.gfpTaken 127 = false)
    ∧ ((wkMap).dev.planned.odu 8 = none ∧ (wkMap).dev.planned.odu 7 = some { ty := 4, kind := 0, server := 2 }
       ∧ ((wkMap).dev.port 3).format = 2 ∧ (wkMap).dev.planned.lineOdu 3 = none)
    ∧ after (.mapCfg mapTrib) (wkMap) (fun t => t.dev.odu 8 = none
        && t.dev.mapJobs = [{ odu := 8, job := 0, make := some { ty := 0, kind := 1, server := 7, payload := 3, tpn := 80, ts := [80] } }]) = true
    ∧ after (.mapCfg mapLine) (wkMap) (fun t => t.dev.odu 8 = some { ty := 4, kind := 0, server := 3 } && t.dev.mapJobs = []) = true
    ∧ after (.mapCfg mapPacket) (wkMap) (fun t => t.dev.odu 8 = some { ty := 2, kind := 2, payload := 1, gfpPort := 127, gfp := 1 }) = true :=
  ⟨⟨served_worker (by decide), served_worker (by decide), served_worker (by decide)⟩, by decide +kernel⟩

/-- An ODU0 in slot 80 of ODU4 7. -/
def mapOdu8 : Odu := { ty := 0, kind := 1, server := 7, payload := 3, tpn := 80, ts := [80] }

theorem witness_mapDelete :
    Served 0x13 (descAt [(2, [7])]) (wkMap).dev ∧ ((wkMap).dev.setOdu 7 none).budgetBroken = none ∧ (wkMap).dev.isLeaf 7 = true
    ∧ (wkMap).dev.oduInPages 7 = false
    ∧ after (.mapCfg (descAt [(2, [7])])) (wkMap) (fun t => t.dev.odu 7 = none) = true
    ∧ (wkMap).dev.planned.odu 7 = some { ty := 4, kind := 0, server := 2 } ∧ (wkMap).dev.planned.isLeaf 7 = true
    ∧ ((wkMap).dev.planned.setOdu 7 none).budgetBroken = none ∧ ((wkMap).dev.point (mpKeyOf 2 0 7)).role = 0
    ∧ after (.mapCfg (descAt [(2, [8])])) (wkMap { odus := [(8, some mapOdu8)] }) (fun t => t.dev.odu 8 = some mapOdu8
        && t.dev.mapJobs = [{ odu := 8, job := 0 }]) = true
    ∧ after (.mapCfgTakesEffect ⟨8, 0⟩) (wkMap { mapJobs := [{ odu := 8, job := 0, make := some mapOdu8 }] })
        (fun t => t.dev.mapJobs = [] && t.dev.odu 8 = some mapOdu8) = true
    ∧ keeps (.mapCfgTakesEffect ⟨8, 1⟩) (wkMap { mapJobs := [{ odu := 8, job := 0, make := some mapOdu8 }] }) = true :=
  ⟨served_worker (by decide), by decide +kernel⟩

/-- A worker with an STM-64 port 2 and the VC-4s given. -/
def wkSdh (vs : Tab (Option Vc4) := []) (x : Dev := {}) : State := wk { x with
  ports := [(2, { lanes := 1, format := 0x10, astate := .aligned })], vc4s := vs }

/-- An opened VC-4, the last of an STM-64, as VC-4 511 in slot 127. -/
def vcTop : Desc := descAt [(0, [1, 1, 2, 64, 1, 1, 0xFF, 1, 127, 7])]

def vcOpen : Vc4 := { port := 2, au4 := 64, struct := true, loSlot := 127 }

theorem witness_vc4s :
    (Served 0x13 vcTop (wkSdh).dev ∧ Served 0x13 (descAt [(0, [1, 0, 2, 64])]) (wkSdh [(511, some vcOpen)]).dev)
    ∧ isSdh ((wkSdh).dev.port 2).format = true ∧ stmN 0x10 = 64 ∧ (∀ i, i < 56 → 10 ≤ i → vcTop.u8 i = 0) ∧ (wkSdh).dev.mspProt 2 = none
    ∧ (wkSdh).dev.vc4Holding 511 = none ∧ (wkSdh).dev.portVc4s 2 = [] ∧ (wkSdh).dev.loVc4 127 = none
    ∧ after (.mapCfg vcTop) (wkSdh) (fun t => t.dev.vc4 511 = some { vcOpen with tug3 := 7 }) = true
    ∧ (∀ e ∈ slotEntries 127, (wkSdh [(511, some vcOpen)]).dev.entryHeld e = none)
    ∧ (wkSdh [(511, some vcOpen)]).dev.inEitherPage 1 511 = false ∧ (wkSdh [(511, some vcOpen)]).dev.feedsAny 1 1 511 = false
    ∧ after (.mapCfg (descAt [(0, [1, 0, 2, 64])])) (wkSdh [(511, some vcOpen)]) (fun t => t.dev.vc4 511 = none) = true :=
  ⟨⟨served_worker (by decide), served_worker (by decide)⟩, by decide +kernel⟩

/-- Entry 8,063, the last, in E1 mode 3. -/
def entryTop : Desc := descAt [(0, [2, 0, 0x7F, 0x1F, 3])]

theorem witness_entries :
    Served 0x13 entryTop (wkSdh [(511, some vcOpen)]).dev ∧ entryTop.u16 2 = 8063 ∧ (wkSdh [(511, some vcOpen)]).dev.isVc3 8063 = false
    ∧ (∀ i, i < 56 → 5 ≤ i → entryTop.u8 i = 0) ∧ (wkSdh [(511, some vcOpen)]).dev.entryExists 8063 = true
    ∧ after (.mapCfg entryTop) (wkSdh [(511, some vcOpen)]) (fun t => (t.dev.lo 8063).e1Mode = 3) = true :=
  ⟨served_worker (by decide), by decide +kernel⟩

/-- ODU 8, an ODU1 in ODU2 7. -/
def ampS (x : Odu) (now : Nat := 0) (l : Lo := {}) : State := on { odus := [(7, some { ty := 2, kind := 1, server := 6 }), (8, some { x with ty := 1, kind := 1, server := 7 })], los := [(5, l)], tsu := { elapsed := now } }

/-- ODU 8, an ODU0 in ODU4 7. -/
def gmpS (x : Odu) (inFrame : Bool := true) : State := on { (frS { inFrame := inFrame }).dev with
  odus := [(7, some { ty := 4, kind := 0, server := 2 }), (8, some { x with ty := 0, kind := 1, server := 7, ts := [80] })] }

def oduIs (t : State) (p : Odu → Bool) : Bool := match t.dev.odu 8 with | some y => p y | none => false

/-- Boundaries of R152 and R153: an ODU0 in a slot of an ODU4 has Cm 14,524 to 14,532 by hand, with the CRC-8 of the least and
of one below it; 14,528 bytes that wait are sent as that Cm. -/
theorem witness_gmp :
    (gmpS {}).dev.serverTy 8 = some 4 ∧ (gmpS {}).dev.oduFramed 8 = true ∧ (gmpS {} false).dev.oduFramed 8 = false
    ∧ after (.gmpMultiframe 8 0xF0E2 0x95 0x0F0500 14528) (gmpS { cm := 7, cnd := 3 } false) (fun t => oduIs t fun y => y.cm = 7 && y.cnd = 3
        && y.cmTx = 14528) = true
    ∧ cmRange mapOdu8 4 = (14524, 14532) ∧ jcCrc8 0xE2 0xF0 = 0x95 ∧ jcCrc5 0 5 = 15
    ∧ after (.gmpMultiframe 8 0xF0E2 0x95 0x0F0500 14528) (gmpS { jcBad := true }) (fun t => oduIs t fun y => y.cm = 14524 && !y.jcBad
        && y.cnd = 5 && y.cmTx = 14528 && y.cndTx = 0) = true
    ∧ after (.gmpMultiframe 8 0xECE2 0x19 0x0F0500 14523) (gmpS { jcErr := 255 }) (fun t => oduIs t fun y => y.cm = 0 && y.jcBad && y.jcErr = 255
        && y.cmTx = 14524 && y.cndTx = 0) = true
    ∧ after (.gmpMultiframe 8 0xF0E2 0x94 0x0E0500 14528) (gmpS { cnd := 9, cmTx := 14528 }) (fun t => (oduIs t fun y => y.jcBad && y.jcErr = 1
        && y.cnd = 9) && t.dev.host.out.contains (.justification 8 80
          [(1, 16, 0xE3), (2, 16, 0), (3, 16, 0x40), (1, 15, 0), (2, 15, 0), (3, 15, 0)])) = true := by decide +kernel

/-- Boundaries of R154, R163, R166 and R177: fills 12, 20 and 32, the upper end of the buffer, and one second. -/
theorem witness_justification :
    (ampS {}).dev.serverTy 8 = some 2 ∧ (ampS {}).dev.oduFramed 8 = true
    ∧ after (.ampJc 8 ⟨(1, 1, 0), 0xAA, 0xBB⟩ ⟨20, -21⟩) (ampS {} 7) (fun t => oduIs t fun y => y.rateAlarm && y.inRange = 7) = true
    ∧ after (.ampJc 8 ⟨(1, 1, 0), 0xAA, 0xBB⟩ ⟨20, 20⟩) (ampS {}) (fun t => (oduIs t fun y => y.jcRx = 1 && y.jcTx = 1)
        && t.dev.host.out = [.ampTx 8 1 true true, .ampRx 8 [0xAA, 0xBB]]) = true
    ∧ after (.ampJc 8 ⟨(3, 2, 0), 0xAA, 0xBB⟩ ⟨12, -20⟩) (ampS {}) (fun t => (oduIs t fun y => y.jcRx = 0 && y.jcTx = 3)
        && t.dev.host.out = [.ampTx 8 3 false false, .ampRx 8 [0xBB]]) = true
    ∧ after (.ampJc 8 ⟨(3, 3, 0), 0xAA, 0xBB⟩ ⟨13, 0⟩) (ampS {}) (fun t => (oduIs t fun y => y.jcRx = 3 && y.jcTx = 0)
        && t.dev.host.out = [.ampTx 8 0 false true, .ampRx 8 []]) = true
    ∧ after (.rateAlarmClear true 8) (ampS { rateAlarm := true } 1000000000) (fun t => match t.dev.odu 8 with | some y => !y.rateAlarm | none => false) = true
    ∧ keeps (.rateAlarmClear true 8) (ampS { rateAlarm := true } 999999999) = true
    ∧ after (.rateAlarmClear false 5) (ampS {} 1000000000 { rateAlarm := true }) (fun t => !(t.dev.lo 5).rateAlarm) = true
    ∧ after (.c12MultiframeMap 5 []) (ampS {} 0 { e1Mode := 2, mapFill := 20, arrived := 1024 }) (fun t => (t.dev.lo 5).cBits = 0
        && (t.dev.lo 5).mapFill = 19 && (t.dev.lo 5).arrived = 0) = true
    ∧ after (.c12MultiframeMap 5 []) (ampS {} 0 { e1Mode := 3, mapFill := 13, cBits := 3 }) (fun t => (t.dev.lo 5).cBits = 1
        && (t.dev.lo 5).mapFill = 13) = true
    ∧ after (.c12MultiframeMap 5 []) (ampS {} 0 { e1Mode := 3, mapFill := 12 }) (fun t => (t.dev.lo 5).cBits = 3
        && (t.dev.lo 5).mapFill = 13) = true
    ∧ ((c12Bytes 1 (List.replicate 1024 true)).drop 34).take 2 = [0x80, 0xFF] ∧ (c12Bytes 1 []).length = 136
    ∧ (ampS {} 0 { e1Mode := 1 }).dev.e1Ais 5 = true
    ∧ after (.c12MultiframeDemap 5 [] [] []) (ampS {} 0 { e1Mode := 1, desync := 255 }) (fun t => (t.dev.lo 5).desync = 255
        && t.dev.host.out.head? = some (.e1 5 (List.replicate 1024 true) true)) = true
    ∧ after (.c12MultiframeDemap 5 [] [] []) (ampS {} 0 { e1Mode := 1, desync := 256 }) (fun t => (t.dev.lo 5).desync = 128 && (t.dev.lo 5).slips = 1) = true := by
  decide +kernel

def ptrS (x : Ptr) : State := on { ports := [(2, { lanes := 1, format := 0x13, astate := .aligned })], framers := [(32, { inFrame := true })], vc4s := [(9, some { port := 2, au4 := 1, ptr := x }), (10, some { port := 2, au4 := 2, struct := true, loSlot := 0 })]
                                   los := [(5, { ptr := x })] }

def auPtr (t : State) (p : Ptr → Bool) : Bool := match t.dev.vc4 9 with | some y => p y.ptr | none => false

/-- Boundaries of R158 and R160: three inverted I bits of 0110 SS 10-bit words, and two that are none; the offset wraps at 782
and at 139, and a store on its mark moves the pointer. -/
theorem witness_pointers :
    (ptrS {}).dev.entryExists 5 = true ∧ (ptrS {}).dev.isVc3 5 = false ∧ (ptrS {}).dev.loFramed 5 = true
    ∧ (ptrS {}).dev.portInFrame ((ptrS {}).dev.feedPort 2) = true
    ∧ ((0x6DAE : BitVec 16) ≠ 0xFFFF ∧ ndfOf 6 = some false ∧ inverted 782 0x6DAE [9, 7, 5, 3, 1] = 3
       ∧ inverted 782 0x6DAE [8, 6, 4, 2, 0] = 0 ∧ inverted 0 0x6150 [8, 6, 4, 2, 0] = 3 ∧ inverted 139 0x622B [9, 7, 5, 3, 1] = 3)
    ∧ after (.pointerFrame (.au 9) 0x6DAE []) (ptrS { st := 1, off := 782, sinceChange := 2 }) (fun t => auPtr t fun p => p.off = 0 && p.st = 1 && p.inc = 1) = true
    ∧ after (.pointerFrame (.au 9) 0x6D8E []) (ptrS { st := 1, off := 782, sinceChange := 2 }) (fun t => auPtr t fun p => p.off = 782 && p.inc = 0) = true
    ∧ after (.pointerFrame (.au 9) 0x6150 []) (ptrS { st := 1, off := 0, sinceChange := 2 }) (fun t => auPtr t fun p => p.off = 782 && p.st = 1 && p.dec = 1) = true
    ∧ ndfOf 9 = some true ∧ after (.pointerFrame (.au 9) 0x930E []) (ptrS { st := 1, ndfRun := 6 }) (fun t => auPtr t fun p => p.off = 782 && p.st = 1) = true
    ∧ after (.pointerFrame (.au 9) 0xFFFF []) (ptrS { st := 1, aisRun := 2 }) (fun t => auPtr t fun p => p.st = 2) = true
    ∧ after (.pointerFrame (.tu 5) 0x622B []) (ptrS { st := 1, off := 139, sinceChange := 2 }) (fun t => (t.dev.lo 5).ptr.off = 0) = true
    ∧ after (.pointerJustification (.au 9) 12) (ptrS { txOff := 782, genGap := 3 }) (fun t => auPtr t fun p => p.txOff = 0) = true
    ∧ after (.pointerJustification (.au 9) 13) (ptrS { txOff := 782, genGap := 3 }) (fun t => auPtr t fun p => p.txOff = 782) = true
    ∧ after (.pointerJustification (.au 9) 36) (ptrS { txOff := 0, genGap := 3 }) (fun t => auPtr t fun p => p.txOff = 782) = true
    ∧ after (.pointerJustification (.tu 5) 4) (ptrS { txOff := 139, genGap := 3 }) (fun t => (t.dev.lo 5).ptr.txOff = 0) = true
    ∧ after (.pointerJustification (.tu 5) 12) (ptrS { txOff := 0, genGap := 3 }) (fun t => (t.dev.lo 5).ptr.txOff = 139) = true := by
  decide +kernel

/-! ### SAToP, GFP-F and the Ethernet MAC -/

/-- Circuit 5, made, of 256 bytes a packet and 32 × 125 µs, whose clock nothing steers: its buffer spans 8 packets. -/
def satS (x : Circuit) (d : Dev := {}) : State := on { d with circuits := [(5, { x with made := true, clock := 2 })] }

/-- A packet of the staging buffer. -/
def jb (n : BitVec 16) (l : Bool := false) : JbPkt := { seq := n, l := l, bytes := List.replicate 256 0x55 }

def seqs (t : State) : List Nat := (t.dev.circuit 5).buf.map fun p => p.seq.toNat

/-- E1 data of a packet. -/
def bytes (n : Nat) : List Byte := List.replicate n 0x55

/-- A circuit of one block, with room for packets of 8 bytes. -/
def storeS (x : Circuit) (mem : List Host.Cell := []) : State := { satS { x with payload := 8, jb := 1024, blocks := [0] } with mem := mem }

/-- Boundaries of R172 about a playout at 65,534: one before, the first, one after a wrap, the last of the span, one beyond. -/
theorem witness_satopRx :
    ({} : Circuit).span = 8
    ∧ after (.satopPacketRx 5 { seq := 1, payload := bytes 255 }) (satS { malformed := 65535 }) (fun t => t.dev.circuit 5 = { made := true, clock := 2, malformed := 65535 }) = true
    ∧ after (.satopPacketRx 5 { seq := 0, payload := bytes 256, r := true }) (satS { st := 2, next := some 0xFFFE, buf := [jb 0xFFFE, jb 1] })
        (fun t => seqs t = [0xFFFE, 0, 1] && (t.dev.circuit 5).rRx && (t.dev.circuit 5).lastSeq = some 0) = true
    ∧ after (.satopPacketRx 5 { seq := 1, payload := bytes 256 }) (satS { st := 2, next := some 0xFFFE, buf := [jb 1] })
        (fun t => seqs t = [1] && (t.dev.circuit 5).dup = 1) = true
    ∧ after (.satopPacketRx 5 { seq := 0xFFFD, payload := bytes 256 }) (satS { st := 2, next := some 0xFFFE, buf := [jb 1] })
        (fun t => seqs t = [1] && (t.dev.circuit 5).late = 1) = true
    ∧ after (.satopPacketRx 5 { seq := 5, payload := bytes 256 }) (satS { st := 2, next := some 0xFFFE }) (fun t => seqs t = [5] && (t.dev.circuit 5).overrun = 0) = true
    ∧ after (.satopPacketRx 5 { seq := 6, payload := [], l := true }) (satS { st := 2, next := some 0xFFFE, buf := [jb 1] })
        (fun t => seqs t = [6] && (t.dev.circuit 5).overrun = 1 && (t.dev.circuit 5).lRx) = true
    ∧ (storeS {}).dev.circuit 5 = { made := true, clock := 2, payload := 8, jb := 1024, blocks := [0] } ∧ ({ payload := 8, blocks := [0] } : Circuit).freePlace = some 0
    ∧ (let k : SatopRx := { seq := 3, payload := bytes 8 }
       kept ((storeS {}).dev.circuit 5) k = { seq := 3, l := false, place := some 0 }
       ∧ after (.satopPacketRx 5 k) (storeS {}) (fun t => (t.dev.circuit 5).buf = [{ seq := 3, l := false, place := some 0 }]
          && t.mem = (storeS {}).dev.putBytes ((storeS {}).dev.pktPlaces ((storeS {}).dev.circuit 5) 0) (bytes 8) [] none []) = true) := by
  decide +kernel

/-- Packet queue 4,095 enabled. -/
def pq4095 : Pkt := { queues := [(4095, { enable := true })] }

/-- The circuit of `storeS` with the packet of 3 in its block. -/
def storedS : State := storeS { st := 2, next := some 3, buf := [{ seq := 3, l := false, place := some 0 }] }
  ((storeS {}).dev.putBytes ((storeS {}).dev.pktPlaces ((storeS {}).dev.circuit 5) 0) (bytes 8) [] none [])

theorem test_jitter_sound : Sound storedS (storedS.dev.pktPlaces (storedS.dev.circuit 5) 0) := by unfold Sound; decide +kernel

theorem witness_satopPlayout :
    after (.satopPlayout 5) (satS { st := 2, next := some 0xFFFF, buf := [jb 0xFFFF true, jb 0] }) (fun t => seqs t = [0]
        && (t.dev.circuit 5).next = some 0 && lastPlayout t = some (.playout 5 (List.replicate 256 0xFF) [])) = true
    ∧ after (.satopPlayout 5) (satS { st := 2, next := some 0, buf := [jb 0] }) (fun t => lastPlayout t = some (.playout 5 (bytes 256) [])) = true
    ∧ storedS.dev.sliceDead 0 (some (storedS.dev.pointSlice (mpKeyOf 7 0 5))) = false
    ∧ storedS.dev.sliceDead 1 (some (storedS.dev.pointSlice (mpKeyOf 7 0 5))) = false
    ∧ after (.satopPlayout 5) storedS (fun t => lastPlayout t = some (.playout 5 (bytes 8) [])) = true
    ∧ after (.satopPlayout 5) (satS { st := 2, next := some 0xFFFF, buf := [jb 0] }) (fun t => seqs t = [0]
        && (t.dev.circuit 5).next = some 0 && (t.dev.circuit 5).lost = 1 && lastPlayout t = some (.playout 5 (List.replicate 256 0xFF) [])) = true
    ∧ after (.satopPlayout 5) (satS { st := 2, next := some 0xFFFF }) (fun t => (t.dev.circuit 5).st = 1 && (t.dev.circuit 5).underrun = 1) = true
    ∧ after (.satopPlayout 5) (satS { st := 1, buf := [jb 0] }) (fun t => seqs t = [0] && lastPlayout t = some (.playout 5 (List.replicate 256 0xFF) [])) = true
    ∧ (let s := satS { queue := 4095, txSeq := 0xFFFF, tmplLen := 14 } { pkt := pq4095 }
       (s.dev.pq 4095).enable = true ∧ (s.dev.pq 4095).stopped = false
       ∧ (s.dev.pq 4095).cells + cellsOf ((s.dev.satopPacket 5 []).length + 4) ≤ (s.dev.pq 4095).limit
       ∧ ((5 : Nat) : Int) ≤ s.dev.sharedFree ∧ cellsOf ((s.dev.satopPacket 5 []).length + 4) = 5
       ∧ after (.satopPacketTx 5 { bytes := [] }) s (fun t => (t.dev.circuit 5).txSeq = 0 && (t.dev.pq 4095).frames.length = 1) = true) := by decide +kernel

/-- Circuit 8,063 at the boundaries of its fields. -/
def satTop : Desc := descAt [(0, [0, 1, 0x7F, 0x1F, 32, 0, 8, 0, 1, 7]), (10, [9]), (12, [0xFF, 0x0F]), (14, [2, 15, 14, 127])]

/-- A worker with entry 8,063 in E1 mode 3, its template, and a reserve of 16 KiB. -/
def wkSat (x : Circuit := { tmplLen := 14 }) (r : Reserve := { size := 16 }) : State :=
  wk { los := [(8063, { e1Mode := 3 })], circuits := [(8063, x)], reserve := r }

theorem witness_satopCfg :
    (Served 0x44 satTop (wkSat).dev ∧ Served 0x44 (descAt [(0, [0, 0, 0x7F, 0x1F, 32, 0, 8, 0, 1, 7]), (14, [2, 15, 14, 127])]) (wkSat).dev
      ∧ Served 0x44 (descAt [(0, [1, 0, 0x7F, 0x1F, 14]), (8, [0xAA])]) (wkSat).dev ∧ Served 0x44 (descAt [(0, [2]), (4, [4])]) (wkSat).dev)
    ∧ (Zeros satTop 18 19 ∧ Zeros satTop 24 55 ∧ Zeros (descAt [(0, [1, 0, 0x7F, 0x1F, 14]), (8, [0xAA])]) 22 55 ∧ Zeros (descAt [(0, [2]), (4, [4])]) 8 55)
    ∧ (satTop.u16 2 = 8063 ∧ 2 * satTop.u16 4 ≤ 32 * satTop.u16 6 ∧ (wkSat).dev.jitterUse + (satTop.u16 6 + 7) / 8 * 512 ≤ reserveBytes 0 16)
    ∧ after (.satopCfg satTop) (wkSat) (fun t => let y := t.dev.circuit 8063
        y.made && y.payload = 32 && y.jb = 8 && y.blocks.length = 1 && y.clock = 1 && y.flags = 7 && y.flowTag = 9 && y.queue = 4095 && y.lopsSet = 2 && y.lopsClr = 15
        && y.rxHdr = 14 && y.rtpPt = 127) = true
    ∧ after (.satopCfg (descAt [(0, [0, 0, 0x7F, 0x1F, 32, 0, 8, 0, 1, 7]), (14, [2, 15, 14, 127])])) (wkSat { made := true }) (fun t =>
        !(t.dev.circuit 8063).made) = true
    ∧ after (.satopCfg (descAt [(0, [1, 0, 0x7F, 0x1F, 14]), (8, [0xAA])])) (wkSat) (fun t => (t.dev.circuit 8063).tmplLen = 14
        && (t.dev.circuit 8063).tmpl.head? = some 0xAA) = true
    ∧ (∀ b ∈ reserveBanks 0 4, b ∉ (wkSat).dev.usedBanks) ∧ (wkSat).dev.reservedCells + 16 * 4 ≤ 524288
    ∧ after (.satopCfg (descAt [(0, [2]), (4, [4])])) (wkSat) (fun t => t.dev.reserve = { size := 4 }) = true
    ∧ after (.satopCfg (descAt [(0, [2]), (4, [1])])) (wkSat { made := true }) (fun t => t.dev.reserve = { size := 16, cut := some 1 }) = true
    ∧ after .satopReserveApplied (wkSat { made := true } { size := 16, cut := some 2 }) (fun t => t.dev.reserve = { size := 2 }) = true
    ∧ keeps .satopReserveApplied (wkSat { made := true } { size := 16, cut := some 1 }) = true :=
  ⟨⟨served_worker (by decide), served_worker (by decide), served_worker (by decide), served_worker (by decide)⟩,
    ⟨zeros_of (by decide), zeros_of (by decide), zeros_of (by decide), zeros_of (by decide)⟩, by decide +kernel⟩

/-- Ethernet port 2 with a flow entry to queue 9. -/
def ethS (d : Dev := {}) : State := on { d with
  ports := [(2, { lanes := 2, format := 0x24, astate := .aligned })]
  odus := [(7, some { ty := 2, kind := 2, payload := 1, gfp := 3 })]
  pkt := { queues := [(9, { enable := true, limit := 1 })]
           flows := [(3, { ingress := 2, tagged := true, vid := 4095, pcp := 7, queue := 9, valid := true })
             , (4, { ingress := 4103, queue := 9, valid := true })] } }

/-- The bytes of a frame with the tag PCP 7, VID 4,095, without its FCS; a frame of the least length that matches the entry, and
one of the given length and type. -/
def tagged (n : Nat) (type : List Byte) : List Byte :=
  (List.replicate 12 0 ++ [0x81, 0, 0xFF, 0xFF] ++ type ++ List.replicate n 0).take (n - 4)

def rx64 : MacRx := { bytes := tagged 64 [8, 0] }

/-- An untagged MAC control frame. -/
def rxControl : MacRx := { bytes := (List.replicate 12 0 ++ [0x88, 0x08] ++ List.replicate 46 0) }

theorem witness_mac :
    keeps (.macFrameRx 2 rx64) (on { (ethS).dev with ports := [(2, { lanes := 2, format := 0x24, astate := .aligning })] }) = true
    ∧ (ethS).dev.withoutBehind 2 = (ethS).dev ∧ (ethS).dev.ingressExists 2 = true ∧ ((ethS).dev.port 2).onHold = false ∧ isEth ((ethS).dev.port 2).format = true
    ∧ after (.macFrameRx 2 { rx64 with slip := true, fcsOk := false }) (ethS) (fun t => t.dev.reg (aPort 2 0x208) = 1) = true
    ∧ after (.macFrameRx 2 { fcsOk := false, bytes := tagged 63 [8, 0] }) (ethS) (fun t => t.dev.reg (aPort 2 0x204) = 1) = true
    ∧ after (.macFrameRx 2 { rx64 with errored := true }) (ethS) (fun t => t.dev.reg (aPort 2 0x204) = 1) = true
    ∧ after (.macFrameRx 2 { bytes := tagged 63 [8, 0] }) (ethS) (fun t => t.dev.reg (aPort 2 0x204) = 0x10000) = true
    ∧ ((ethS).dev.ingr 2).maxFrame = 1522
    ∧ after (.macFrameRx 2 { bytes := tagged 1523 [8, 0] }) (ethS) (fun t => t.dev.reg (aPort 2 0x204) = 0x10000) = true
    ∧ after (.macFrameRx 2 rxControl) (ethS) (fun t => t.dev.reg (aPort 2 0x208) = 0x10000) = true
    ∧ rx64.bytes.length = 60 ∧ etherType rx64.bytes ≠ 0x8808 ∧ vlanOf rx64.bytes = some (4095, 7)
    ∧ (ethS).dev.flowOf 2 true 4095 7 = some { ingress := 2, tagged := true, vid := 4095, pcp := 7, queue := 9, valid := true }
    ∧ (∀ y ∈ (ethS).dev.circuits, y.2.made = true → y.2.flowTag ≠ 0) ∧ cellsOf 64 = 1 ∧ ((1 : Nat) : Int) ≤ (ethS).dev.sharedFree
    ∧ after (.macFrameRx 2 rx64) (ethS) (fun t => (t.dev.pq 9).frames = [{ len := 64, cells := [0], key := 2 }]) = true
    ∧ after (.macFaultSequence 2 .localFault) (ethS) (fun t => tget false t.dev.pkt.locFault 2 && bit (t.dev.reg (aPort 2 0x210)) 0) = true
    ∧ after (.macFaultSequence 2 .remoteFault) (ethS) (fun t => tget false t.dev.pkt.remFault 2 && bit (t.dev.reg (aPort 2 0x210)) 1) = true
    ∧ after (.macFaultSequence 2 .ok) (ethS) (fun t => !tget false t.dev.pkt.locFault 2 && !tget false t.dev.pkt.remFault 2) = true := by
  decide +kernel

/-- An untagged frame of the least length. -/
def rxPlain : MacRx := { bytes := List.replicate 60 0 }

def gfpS (n flags : Nat) : State := on { odus := [(7, some { ty := 2, kind := 2, payload := 1, gfp := n, flags := flags })] }

def gfpIs (n : Nat) (t : State) : Bool := match t.dev.odu 7 with | some y => y.gfp = n | none => false

/-- The idle frame's core header, PLI 0, scrambled as R168 says, and with one bit in error. -/
def headIdle : List Byte := [0xB6, 0xAB, 0x31, 0xE0]

def headOne : List Byte := [0xB6, 0xAB, 0x31, 0xE1]

/-- The scrambled payload area of a type header and a payload. -/
def gfpArea (ty payload : List Byte) : List Byte :=
  packBits (scramble 0 ((ty ++ be 2 (gfpHec ty) ++ payload).flatMap bitsOfByte)).1

theorem witness_gfp :
    chec headIdle = .correct ∧ chec headOne = .single ∧ gfpCoreHead 0 = headIdle
    ∧ after (.gfpCoreHeader 7 headIdle) (gfpS 1 0) (gfpIs 2) = true ∧ after (.gfpCoreHeader 7 headOne) (gfpS 1 4) (gfpIs 1) = true
    ∧ after (.gfpCoreHeader 7 headIdle) (gfpS 2 0) (gfpIs 3) = true ∧ after (.gfpCoreHeader 7 headOne) (gfpS 2 4) (gfpIs 1) = true
    ∧ after (.gfpCoreHeader 7 headOne) (gfpS 3 4) (gfpIs 3) = true ∧ after (.gfpCoreHeader 7 headOne) (gfpS 3 3) (gfpIs 1) = true
    ∧ after (.gfpFrame 7 (packBits (scramble 0 (([0, 1, 0, 0] : List Byte).flatMap bitsOfByte)).1) {}) (gfpS 3 0) (fun t => t.dev.reg (aGfp 7) = 1) = true
    ∧ after (.gfpFrame 7 (gfpArea [1, 1] []) {}) (gfpS 3 0) (fun t => t.dev.reg (aGfp 7) = 1) = true
    ∧ after (.gfpFrame 7 (gfpArea [0x80, 3] []) {}) (gfpS 3 0) (fun t => t.dev.reg (aGfp 7) = 1) = true
    ∧ after (.gfpFrame 7 (gfpArea [0x10, 1] [0, 0, 0, 1]) {}) (gfpS 3 0) (fun t => t.dev.reg (aGfp 7) = 1) = true
    ∧ vlanOf rxPlain.bytes = none ∧ rxPlain.bytes.length = 60
    ∧ (ethS).dev.ingressExists 4103 = true ∧ (ethS).dev.flowOf 4103 false 0 0 = some { ingress := 4103, queue := 9, valid := true }
    ∧ (let f := gfpParse (packBits (descramble 0 ((gfpArea [0, 1] (withFcs rxPlain.bytes)).flatMap bitsOfByte)).1)
       f.thecOk = true ∧ f.pfi = false ∧ f.pti = 0 ∧ f.exi = 0 ∧ f.upi = 1) := by decide +kernel

/-- A payload that ends with the FCS of its frame is that frame, with a good FCS. -/
theorem witness_gfpClient (bs : List Byte) : gfpClient (withFcs bs) {} = { bytes := bs, bad := badOf [] 4 bs.length } := by
  have h : (withFcs bs).length - 4 = bs.length := by simp [withFcs, le_length]
  have ht : (withFcs bs).take bs.length = bs := by simp [withFcs]
  simp only [gfpClient, h, ht, decide_true]

/-! ### The packet path -/

/-- Queue 4,095 enabled and sampled at the greatest LIMIT, RESERVE and K. -/
def queueTop : Desc := descAt [(0, [0, 3, 0xFF, 0x0F, 0, 0, 8, 0, 0, 0, 8, 0, 10])]

/-- Flow entry 65,535: a tagged VID 4,095 of Ethernet port 2 with any PCP to queue 4,095 and no policer. -/
def flowTop : Desc := descAt [(0, [1, 1, 0xFF, 0xFF, 2, 0, 0xFF, 0x1F, 8]), (12, [0xFF, 0x0F, 0xFF, 0xFF])]

/-- Port 2 sends what no entry matches to queues 4,088 to 4,095 by PCP. -/
def missTop : Desc := descAt [(0, [2, 1, 2, 0, 64, 0, 0xF8, 0x0F, 0x88, 0xC6, 0xFA, 0, 0xFF, 0xFF])]

def wkEth : State := wk { ports := [(2, { lanes := 2, format := 0x24, astate := .aligned })] }

theorem witness_queueCfg :
    (Served 0x40 queueTop wkEth.dev ∧ Served 0x40 flowTop wkEth.dev ∧ Served 0x40 missTop wkEth.dev)
    ∧ (Zeros queueTop 13 55 ∧ Zeros flowTop 16 55 ∧ Zeros missTop 14 55)
    ∧ (queueTop.u32 4 = 524288 ∧ queueTop.u32 8 = 524288 ∧ wkEth.dev.reservedCells - 0 + 524288 ≤ wkEth.dev.poolCells)
    ∧ after (.queueCfg queueTop) wkEth (fun t => let y := t.dev.pq 4095
        y.enable && y.sampleEn && y.limit = 524288 && y.reserve = 524288 && y.k = 10 && y.frames = []) = true
    ∧ (flowTop.u16 6 = 0x1FFF ∧ flowTop.bit 7 4 = true ∧ flowTop.u8 8 = 8 ∧ wkEth.dev.ingressExists 2 = true ∧ wkEth.dev.pkt.flows = [])
    ∧ after (.queueCfg flowTop) wkEth (fun t => t.dev.flow 65535 = { ingress := 2, tagged := true, vid := 4095, pcpAny := true, queue := 4095, valid := true }) = true
    ∧ after (.queueCfg (descAt [(0, [1, 0, 0xFF, 0xFF, 2])])) (wk { wkEth.dev with pkt := { flows := [(65535, { valid := true })] } }) (fun t =>
        !(t.dev.flow 65535).valid) = true
    ∧ after (.queueCfg (descAt [(0, [1, 2, 0xFF, 0xFF, 2])])) wkEth (fun t => t.dev.pkt = wkEth.dev.pkt) = true
    ∧ after (.queueCfg (descAt [(0, [1, 0, 0xFF, 0xFF, 3])])) (wk { wkEth.dev with pkt := { flows := [(65535, { valid := true })] } }) (fun t =>
        (t.dev.flow 65535).valid) = true
    ∧ (∀ p, p < 8 → missTop.u16 6 + pcpOffset (missTop.u24 8) p ≤ 4095)
    ∧ after (.queueCfg missTop) wkEth (fun t => t.dev.ingr 2 = { miss := 1, maxFrame := 64, defQueue := 4088, pcpOff := 0xFAC688 }) = true :=
  ⟨⟨served_worker (by decide), served_worker (by decide), served_worker (by decide)⟩,
    ⟨zeros_of (by decide), zeros_of (by decide), zeros_of (by decide)⟩, by decide +kernel⟩

/-- Subscriber 511 of port 127 with the greatest RATE, RESET_MODE 1 and BORROW; scheduler port 127 to Ethernet port 2; policer 4,095. -/
def shaperTop : Desc := descAt [(0, [1, 3, 0xFF, 1, 0, 0x70, 0xC9, 0xB2, 0x8B, 2, 0, 0, 127, 0, 1, 0, 0xFF, 0xFF])]
def shaperPort : Desc := descAt [(0, [2, 0, 127, 0, 1]), (9, [1]), (18, [2, 0x80])]
def policerTop : Desc := descAt [(0, [1, 0, 0xFF, 0x0F, 1]), (9, [3])]

theorem witness_shapers :
    (Served 0x41 shaperTop wkEth.dev ∧ Served 0x41 shaperPort wkEth.dev ∧ Served 0x42 policerTop wkEth.dev)
    ∧ (Zeros shaperTop 20 55 ∧ Zeros shaperPort 12 14 ∧ Zeros shaperPort 20 55 ∧ Zeros policerTop 12 55)
    ∧ (shaperTop.u40 4 = 600000000000 ∧ shaperTop.u24 9 = 2 ∧ shaperTop.u16 18 = 0 ∧ wkEth.dev.subHolds 511 = false)
    ∧ after (.shaperCfg shaperTop) wkEth (fun t => let y := t.dev.shaper (4096 + 511)
        y.rate = 600000000000 && y.cap = 2 && y.resetFull && y.borrow && y.debt = 65535 && y.parent = 127 && y.weight = 1 && y.credit = 131072) = true
    ∧ after (.shaperCfg shaperTop) (wk { wkEth.dev with pkt := { shapers := [(4607, { rate := 600000000000, cap := 2, resetFull := true, borrow := true, debt := 65535, parent := 127, credit := 5 })] } })
        (fun t => (t.dev.shaper 4607).credit = 5) = true
    ∧ isEth (wkEth.dev.port 2).format = true
    ∧ after (.shaperCfg shaperPort) wkEth (fun t => (t.dev.shaper (8192 + 127)).target = 32770 && (t.dev.shaper (8192 + 127)).rate = 1) = true
    ∧ after (.policerCfg policerTop) wkEth (fun t => (t.dev.policer 4095).cap = 3 && (t.dev.policer 4095).credit = 196608) = true :=
  ⟨⟨served_worker (by decide), served_worker (by decide), served_worker (by decide)⟩,
    ⟨zeros_of (by decide), zeros_of (by decide), zeros_of (by decide), zeros_of (by decide)⟩, by decide +kernel⟩

/-- Service 9 and subscriber 1 of port 0, with the head frame given in queue 9, 8 ns after the last update. -/
def schS (x : Shaper) (fs : List PFrame := [{ len := 64, cells := [0] }]) : State := on {
  pkt := { shapers := [(9, x), (4097, { parent := 0 }), (8192, { target := 0x8002 })], policers := [(7, { rate := 1, cap := 1, acc := 10 ^ 12 - 524288, credit := 65535 })]
           queues := [(9, { enable := true, frames := fs })] }
  ports := [(2, { lanes := 2, format := 0x24, astate := .aligned })], tsu := { elapsed := 8 } }

/-- Boundaries of R265: the remainder reaches one unit, the credit stops at CAP, an idle node loses what it has and keeps what it owes. -/
theorem witness_credit :
    tabWf {} (schS { rate := 1 }).dev.pkt.shapers = true ∧ tabWf {} (schS { rate := 1 }).dev.pkt.policers = true ∧ (schS {}).dev.accrues 9 = true
    ∧ after .shaperUpdate (schS { rate := 1, cap := 1, acc := 10 ^ 12 - 524288, credit := 65535 }) (fun t => (t.dev.shaper 9).credit = 65536 && (t.dev.shaper 9).acc = 0
        && t.dev.pkt.updated = 8 && (t.dev.policer 7).credit = 65536) = true
    ∧ after .shaperUpdate (schS { rate := 1, cap := 1, acc := 10 ^ 12 - 524288, credit := 65536 }) (fun t => (t.dev.shaper 9).credit = 65536) = true
    ∧ (schS { rate := 1 } []).dev.accrues 9 = false
    ∧ after .shaperUpdate (schS { rate := 1, credit := 7, acc := 3 } []) (fun t => (t.dev.shaper 9).credit = 0) = true
    ∧ after .shaperUpdate (schS { rate := 1, credit := -7, acc := 3 } []) (fun t => (t.dev.shaper 9).credit = -7) = true := by decide +kernel

/-- The table form holds before the idle step and after it. -/
theorem witness_packetTables :
    tabWf {} (schS { rate := 1 }).dev.pkt.shapers = true ∧ tabWf {} (schS { rate := 1 }).dev.pkt.policers = true ∧ step (schS { rate := 1 }) = .next (idle (schS { rate := 1 })) :=
  ⟨by decide, by decide, rfl⟩

/-- Scheduler port 0 of `schS` on packet ODU 8, which carries packets to port 0. -/
def schGfp : State := on { (schS { rate := 1, credit := 65536 }).dev with
  odus := [(8, some { ty := 2, kind := 2, payload := 1 })]
  pkt := { (schS { rate := 1, credit := 65536 }).dev.pkt with shapers := [(9, { rate := 1, credit := 65536 }), (4097, { parent := 0 })] } }

/-- The bytes of the head frame of `schS`: nothing is written in its cell. -/
theorem test_sound : Sound (schS { rate := 1, credit := 65536 }) ((cellPlaces [0]).take (wordsFor 60))
    ∧ (heldBytes (schS { rate := 1, credit := 65536 }) ((cellPlaces [0]).take (wordsFor 60))).take 60 = List.replicate 60 0 := by
  unfold Sound; decide +kernel

/-- Subscriber 1 has its turn and sends the head frame of its service 1, which is charged; without credit nothing is sent, and
a packet ODU maps the frame in a GFP frame. -/
theorem witness_scheduler :
    (schS { rate := 1, credit := 65536 }).dev.portMaySend 0 = true ∧ (schS { rate := 1, credit := 65536 }).dev.attached 0 = [1]
    ∧ tabWf {} (schS { rate := 1, credit := 65536 }).dev.pkt.shapers = true ∧ (schS { rate := 1, credit := 65536 }).dev.gfpRoom 0 64 = true
    ∧ (schS { rate := 1, credit := 65536 }).dev.serviceReady 0 9 = true ∧ (∀ i, i < 1 → (schS { rate := 1, credit := 65536 }).dev.serviceReady 0 (8 + i) = false)
    ∧ ((schS {}).dev.shaper 4097).funded = true ∧ ((schS {}).dev.schP 0).turnF = 0
    ∧ (∀ i, i < 8 → ((schS {}).dev.schP 0).gates.oversize i 64 ((schS {}).dev.overheadOf 0) = false)
    ∧ after (.frameStart 0) (schS { rate := 1, credit := 65536 }) (fun t => (t.dev.pq 9).frames = [] && (t.dev.shaper 9).credit = 0 && (t.dev.schP 0).turnF = 1
        && (match t.dev.host.out with | [.frame 0 bs []] => bs.length = 64 && bs.take 60 = List.replicate 60 0 | _ => false) && (t.dev.schP 0).freeAt = 8 + pacing 0x24 64) = true
    ∧ keeps (.frameStart 0) (schS { rate := 1, credit := 65535 }) = true
    ∧ schGfp.dev.schEth 0 = none ∧ schGfp.dev.gfpOdu 0 = some 8 ∧ schGfp.dev.portMaySend 0 = true ∧ schGfp.dev.gfpRoom 0 64 = true
    ∧ after (.frameStart 0) schGfp (fun t => match t.dev.host.out with | .gfp 8 bs [] :: _ => bs.take 4 = gfpCoreHead 68 | _ => false) = true
    ∧ (∀ p : Fin 2, schGfp.dev.sliceDead p.val (schGfp.dev.schSlice 0) = false
      ∧ (schS { rate := 1, credit := 65536 }).dev.sliceDead p.val ((schS { rate := 1, credit := 65536 }).dev.schSlice 0) = false) := by
  decide +kernel

/-- Queue 9 sampled with K 1, at 2,500 ns of second 5. -/
def sampS (x : PQueue) : State := on { pkt := { queues := [(9, { x with sampleEn := true, k := 1 })] }, tsu := { elapsed := 2500, ns := 2500, sec := 5 } }

theorem witness_samples :
    after (.queueSample 9) (sampS { frames := [{ len := 64, at_ := 500 }, { len := 64, at_ := 900 }] }) (fun t => (t.dev.pq 9).samples = [(2, 2000)]) = true
    ∧ after (.queueSample 9) (sampS { sampAt := 2000 }) (fun t => (t.dev.pq 9).samples = [(0, 0)]) = true
    ∧ keeps (.queueSample 9) (sampS { sampAt := 2001 }) = true
    ∧ after (.queueSampleRecord 9) (sampS { samples := [(2, 7)], suspect := true, recSec := 4 }) (fun t => (t.dev.pq 9).samples = [] && !(t.dev.pq 9).suspect) = true
    ∧ keeps (.queueSampleRecord 9) (sampS { samples := [(2, 7)], recSec := 5 }) = true
    ∧ (let s := on { (sampS { samples := [(2, 7)] }).dev with regs := allRings }
       s.dev.ringOn 10 = true ∧ 2 ≤ s.dev.ringFree 10
       ∧ after (.queueSampleRecord 9) s (fun t => t.dev.host.out.any fun o => match o with
          | .stats _ 0 _ _ body => body.take 20 = [0x40, 1, 9, 0, 1, 0, 0, 0, 4, 0, 0, 0, 0, 0, 0, 0, 1, 0, 0, 0] | _ => false) = true) := by decide +kernel

/-- Section 0 with REF 0 and the greatest phases; section 1 with eight windows 1,000 ns apart, and the last start at 124,000. -/
def gateRef : Desc := descAt [(2, [0xE7, 3, 0x47, 0xE8, 1])]
def gateWin : Desc := descAt [(0, [1, 2, 127, 0, 1]), (12, [0x60, 0xE4, 1]), (40, [1, 2])]

theorem witness_gates :
    (Served 0x43 gateRef (wk).dev ∧ Served 0x43 gateWin (wk).dev) ∧ (Zeros gateRef 8 55 ∧ Zeros gateWin 48 55)
    ∧ gateRef.u16 2 = 999 ∧ gateRef.u32 4 = 124999
    ∧ after (.gateCfg gateRef) (wk) (fun t => t.dev.pkt.tickPhase = 999 && t.dev.pkt.nextRef = some (0, 124999, 0) && t.dev.pkt.ref = 0) = true
    ∧ gateStart gateWin 0 = 0 ∧ gateStart gateWin 1 = 124000 ∧ (∀ i, i < 8 → 2 ≤ i → gateStart gateWin i = 0 ∧ gateMask gateWin i = 0)
    ∧ after (.gateCfg gateWin) (wk) (fun t => (t.dev.schP 127).next = some ({ lineRate := 1, starts := [0, 124000], masks := [1, 2] }, 0)
        && (t.dev.schP 127).gates = {}) = true
    ∧ (let s := on { pkt := { sch := [(127, { next := some ({ lineRate := 1 }, 125000) })], nextRef := some (1, 9, 125000) }, tsu := { elapsed := 125000 } }
       (s.dev.schP 127).cycle < s.dev.now - s.dev.cycleAge
       ∧ after (.gateCycleStart 127) s (fun t => (t.dev.schP 127).gates = { lineRate := 1 } && (t.dev.schP 127).next = none
          && t.dev.pkt.ref = 1 && t.dev.pkt.gatePhase = 9 && t.dev.pkt.nextRef = none) = true)
    ∧ (let s := on { pkt := { sch := [(127, { next := some ({ lineRate := 1 }, 125001) })], nextRef := some (1, 9, 125001) }, tsu := { elapsed := 125001, ns := 1 } }
       s.dev.cycleAge = 1 ∧ after (.gateCycleStart 127) s (fun t => (t.dev.schP 127).gates = {} && (t.dev.schP 127).next = some ({ lineRate := 1 }, 125001)
          && (t.dev.schP 127).cycle = 125000 && t.dev.pkt.ref = 0 && t.dev.pkt.nextRef = some (1, 9, 125001)) = true) :=
  ⟨⟨served_worker (by decide), served_worker (by decide)⟩, ⟨zeros_of (by decide), zeros_of (by decide)⟩, by decide +kernel⟩

/-! ### Damask cross-connect -/

/-- ODU2s 8 and 9 and ODU0 10 with their slots, two VC-4s, an opened one with its entries, and link 0 in RUN; the words given. -/
def xcD (ws : Tab Data := []) (arms : List Arm := []) : Dev := {
  odus := [(8, some { ty := 2, kind := 1, server := 7 }), (9, some { ty := 2, kind := 1, server := 7 }), (10, some { ty := 0, kind := 1, server := 7 })]
  vc4s := [(3, some { port := 2, au4 := 1 }), (4, some { port := 2, au4 := 2 }), (5, some { port := 2, au4 := 3, struct := true, loSlot := 0 })]
  xc := { slots := [(5, 9), (6, 9), (7, 10), (8, 10), (9, 11)], words := ws, arms := arms }
  jersey := { links := [(0, { st := 7 })] } }

def xcCopy (f : Byte) : Desc := descAt [(0, [0, 0, f])]

/-- VC-4 position 4 from 3 in the active page A, and 3 from 4 in the standby page B. -/
def xcPages : Tab Data := [(xcKey 0 1 4, vcWord 1 3 1 0), (xcKey 1 1 3, vcWord 1 4 1 0)]

theorem witness_xcPages :
    (Served 0x20 (xcCopy 0) (wk (xcD xcPages)).dev ∧ Served 0x20 (xcCopy 1) (wk (xcD xcPages)).dev ∧ Served 0x20 (xcCopy 2) (wk (xcD xcPages)).dev)
    ∧ Zeros (xcCopy 1) 3 55 ∧ (wk (xcD xcPages)).dev.tsiArmed 0 = false
    ∧ after (.xcWrite (xcCopy 0)) (wk (xcD xcPages)) (fun t => t.dev.xcWord 1 1 3 = vcWord 1 4 1 0 && t.dev.xcWord 1 1 4 = 0 && t.dev.xcWord 0 1 4 = vcWord 1 3 1 0) = true
    ∧ after (.xcWrite (xcCopy 1)) (wk (xcD xcPages)) (fun t => t.dev.xcWord 1 1 3 = 0 && t.dev.xcWord 1 1 4 = vcWord 1 3 1 0 && t.dev.xcWord 0 1 4 = vcWord 1 3 1 0) = true
    ∧ after (.xcWrite (xcCopy 2)) (wk (xcD xcPages)) (fun t => t.dev.xcWord 1 1 3 = 0 && t.dev.xcWord 1 1 4 = 0 && t.dev.xcWord 0 1 4 = vcWord 1 3 1 0) = true :=
  ⟨⟨served_worker (by decide), served_worker (by decide), served_worker (by decide)⟩, zeros_of (by decide), by decide +kernel⟩

/-- One record: TSI, then OP, DST_KIND, DST, SRC_KIND, SLOTS, SRC. -/
def xcRec (tsi : Byte) (r : List Byte) : Desc := descAt [(0, [tsi, 1]), (8, r)]

def xcOdu : Desc := xcRec 0 [1, 0, 9, 0, 0, 0, 8]
def xcVc : Desc := xcRec 0 [1, 2, 4, 0, 2, 0, 3]
def xcLo : Desc := xcRec 1 [1, 3, 62, 0, 3, 0, 0]
def xcJy : Desc := xcRec 0 [1, 1, 0, 19, 0, 0, 10]
def xcOff : Desc := xcRec 0 [0, 2, 3]

theorem witness_xcRecords :
    (Served 0x20 xcOdu (wk (xcD)).dev ∧ Served 0x20 xcVc (wk (xcD)).dev ∧ Served 0x20 xcLo (wk (xcD)).dev ∧ Served 0x20 xcJy (wk (xcD)).dev
      ∧ Served 0x20 xcOff (wk (xcD xcPages)).dev)
    ∧ (Zeros xcOdu 3 7 ∧ Zeros xcOdu 16 55 ∧ Zeros xcJy 16 55 ∧ Zeros xcOff 16 55)
    ∧ (dstKinds 0 0 = true ∧ xcRange 0 9 0 = true ∧ srcKinds 0 0 = true ∧ xcRange 1 (xcJy.u16 10) 0 = true ∧ xcJy.u16 10 / 256 % 32 + 1 ≤ 20)
    ∧ ((wk (xcD)).dev.xcObj 0 9 2 0 = some { table := 0, pos := [7, 8], count := 2, shape := .odu 2 0 0 }
      ∧ (wk (xcD)).dev.xcObj 0 8 2 0 = some { table := 0, pos := [5, 6], count := 2, shape := .odu 2 0 0 })
    ∧ after (.xcWrite xcOdu) (wk (xcD)) (fun t => srcKind (t.dev.xcWord 1 0 8) = 1 && srcVal 0 (t.dev.xcWord 1 0 8) = 6
        && srcVal 0 (t.dev.xcWord 1 0 7) = 5 && srcKind (t.dev.xcWord 0 0 8) = 0) = true
    ∧ (wk (xcD)).dev.xcObj 2 4 1 2 = some { table := 1, pos := [4], count := 1, shape := .vc4 1 }
    ∧ after (.xcWrite xcVc) (wk (xcD)) (fun t => srcKind (t.dev.xcWord 1 1 4) = 1 && srcVal 1 (t.dev.xcWord 1 1 4) = 3) = true
    ∧ (wk (xcD)).dev.xcObj 3 62 1 3 = some { table := 2, pos := [62], count := 1, shape := .lo false }
    ∧ after (.xcWrite xcLo) (wk (xcD)) (fun t => srcKind (t.dev.xcWord 1 2 62) = 1 && srcVal 2 (t.dev.xcWord 1 2 62) = 0) = true
    ∧ (wk (xcD)).dev.xcObj 1 (xcJy.u16 10) 1 0 = some { table := 0, pos := [2579], count := 1, shape := .jersey }
    ∧ after (.xcWrite xcJy) (wk (xcD)) (fun t => srcKind (t.dev.xcWord 1 0 2579) = 1 && srcVal 0 (t.dev.xcWord 1 0 2579) = 9) = true
    ∧ after (.xcWrite xcOff) (wk (xcD xcPages)) (fun t => srcKind (t.dev.xcWord 1 1 3) = 0) = true :=
  ⟨⟨served_worker (by decide), served_worker (by decide), served_worker (by decide), served_worker (by decide), served_worker (by decide)⟩,
    ⟨zeros_of (by decide), zeros_of (by decide), zeros_of (by decide), zeros_of (by decide)⟩, by decide +kernel⟩

/-- A manager at tick 7 with the words and arms given, `wait` ns before the next tick. -/
def swapS (ws : Tab Data) (arms : List Arm) (wait : Nat := 1000000) : State := on { xcD ws arms with
  xc := { (xcD ws arms).xc with tick := 7 }, regs := ringRegs, host := { up := true }, tsu := { ns := 8000000 - wait, elapsed := 8000000 - wait } }

/-- XC_SWAP of mask 1 for a tick. -/
def swapAt (m op : Byte) (n : Byte) : Desc := descAt [(0, [m, op]), (4, [n])]

/-- Boundaries of R200 at tick 7: tick 8 needs 100 µs to come, tick 0 takes the next tick or the one after, a cancel keeps the others. -/
theorem witness_xcSwap :
    (Served 0x21 (swapAt 1 0 8) (swapS [] [] 100000).dev ∧ Served 0x21 (swapAt 3 0 0) (swapS [] [] 99999).dev ∧ Zeros (swapAt 3 0 0) 8 55)
    ∧ (swapS [] [] 100000).dev.tickNow = 7 ∧ (swapS [] [] 100000).dev.tickWait = 100000 ∧ ahead 7 8 = 1
    ∧ after (.xcSwap (swapAt 1 0 8)) (swapS [] [] 100000) (fun t => t.dev.xc.arms = [{ mask := 1, tick := 8, copyBack := false, job := 0 }]
        && t.dev.host.jobs.any fun j => j.id = 0 && j.desc = swapAt 1 0 8) = true
    ∧ after (.xcSwap (swapAt 1 0 8)) (swapS [] [] 99999) (fun t => t.dev.xc.arms = []) = true
    ∧ after (.xcSwap (swapAt 3 0 0)) (swapS [] [] 100000) (fun t => (t.dev.xc.arms.map fun a => (a.mask, a.tick)) = [(3, 8)]) = true
    ∧ after (.xcSwap (swapAt 3 0 0)) (swapS [] [] 99999) (fun t => (t.dev.xc.arms.map fun a => (a.mask, a.tick)) = [(3, 9)]) = true
    ∧ passes 7 8 7 = false
    ∧ after (.xcSwap (swapAt 1 1 0)) (swapS [] [{ mask := 1, tick := 8, copyBack := false, job := 5 }, { mask := 2, tick := 8, copyBack := false, job := 6 }])
        (fun t => (t.dev.xc.arms.map fun a => a.job) = [6]) = true :=
  ⟨⟨served_mgr (by decide +kernel), served_mgr (by decide +kernel), zeros_of (by decide)⟩, by decide +kernel⟩

/-- Tick 8 falls for an arm of both TSIs; then the last position of each TSI changes. -/
theorem witness_swaps :
    (let s := swapS (xcPages ++ [(xcKey 1 2 62, loWord 1 0 false)]) [{ mask := 3, tick := 8, copyBack := false, job := 5 }] 0
     s.dev.tickNow = 8 ∧ passes 7 8 8 = true ∧ s.dev.changes 0 = [(1, 4), (1, 3)] ∧ s.dev.changes 1 = [(2, 62)]
     ∧ after .swapTick s (fun t => t.dev.xc.tick = 8 && (t.dev.xc.arms.map fun a => (a.swapping, a.left, a.job)) = [(true, [(1, 4), (1, 3), (2, 62)], 5)]) = true)
    ∧ (let s := swapS xcPages [{ mask := 1, tick := 8, copyBack := false, job := 5, swapping := true, busy := 1, left := [(1, 4), (1, 3)] }]
       after (.swapBoundary 1 4) s (fun t => (t.dev.xc.arms.map fun a => (a.left, a.job)) = [([(1, 3)], 5)]
         && match t.dev.vc4 4 with | some y => y.ptr.ndfDue | none => false) = true)
    ∧ (let s := swapS xcPages [{ mask := 1, tick := 8, copyBack := false, job := 5, swapping := true, busy := 1, left := [(1, 3)] }]
       after (.swapBoundary 1 3) s (fun t => t.dev.xc.arms = [] && t.dev.xc.hPhys = 1 && t.dev.xc.lPhys = 0 && bit (t.dev.reg 0xA00004) 0) = true)
    ∧ (let s := swapS xcPages [{ mask := 2, tick := 8, copyBack := false, job := 5, swapping := true, busy := 2, left := [(2, 62)] }]
       after (.swapBoundary 2 62) s (fun t => t.dev.xc.arms = [] && t.dev.xc.lPhys = 1 && t.dev.xc.hPhys = 0 && bit (t.dev.reg 0xA00004) 0
         && (t.dev.lo 62).ptr.ndfDue) = true) := by decide +kernel

/-! ### Linear protection -/

/-- ODU2s 8 and 9 of ODU4 7 with their PM points in service: 8 with the raw defects given. -/
def apsD (raw : BitVec 24 := 0) (sels : Tab (Option Selector) := []) : Dev := {
  ports := [(2, { lanes := 2, format := 2, astate := .aligned })]
  odus := [(7, some { ty := 4, kind := 0, server := 2 }), (8, some { ty := 2, kind := 1, server := 7 }), (9, some { ty := 2, kind := 1, server := 7 })]
  points := [(mpKeyOf 2 0 8, { role := 1, raw := raw }), (mpKeyOf 2 0 9, { role := 1 })]
  sels := sels }

/-- Selector 1,023 of ODUs 8 and 9: SNC/N with BIDIR, REVERTIVE and SD_EN, the greatest HOLDOFF and WTR. -/
def apsNew (op f : Byte) : Desc := descAt [(0, [op, 0, 0xFF, 3, 8, 0, 9, 0, f, 0, 100, 0, 0xD0, 2])]

def sel89 : Selector := { work := 8, prot := 9, sncN := true }

theorem witness_apsCfg :
    (Served 0x31 (apsNew 1 15) (wk (apsD)).dev ∧ Served 0x31 (apsNew 2 14) (wk (apsD 0 [(1023, some sel89)])).dev
      ∧ Served 0x31 (apsNew 0 4) (wk (apsD 0 [(1023, some sel89)])).dev) ∧ Zeros (apsNew 1 15) 14 55
    ∧ ((apsNew 1 15).u16 2 = selMax 0 ∧ (wk (apsD)).dev.apsSource 0 8 = some (.odu 2 0 0) ∧ (wk (apsD)).dev.apsSource 0 9 = some (.odu 2 0 0)
      ∧ (wk (apsD)).dev.apsPoint 0 true 8 = true ∧ (wk (apsD)).dev.apsPoint 0 true 9 = true ∧ (wk (apsD)).dev.sourceHeld 0 8 = false
      ∧ (wk (apsD)).dev.sourceHeld 0 9 = false ∧ ((wk (apsD)).dev.allocate ((wk (apsD)).dev.selSlice 0 9) (selLoad 0).1 (selLoad 0).2).isSome = true)
    ∧ after (.apsCfg (apsNew 1 15)) (wk (apsD)) (fun t => match t.dev.sel 1023 with
        | some y => y.work = 8 && y.prot = 9 && y.bidir && y.revertive && y.sncN && y.sdEn && y.holdoff = 100 && y.wtr = 720 && !y.selected
          && y.cmd = 0 && y.engine.isSome | none => false) = true
    ∧ after (.apsCfg (apsNew 2 14)) (wk (apsD 0 [(1023, some { sel89 with selected := true })])) (fun t => match t.dev.sel 1023 with
        | some y => y.revertive && y.sdEn && y.holdoff = 100 && y.wtr = 720 && y.selected && y.work = 8 | none => false) = true
    ∧ (wk (apsD 0 [(1023, some sel89)])).dev.fedBy 0 3 1023 = none
    ∧ after (.apsCfg (apsNew 0 4)) (wk (apsD 0 [(1023, some sel89)])) (fun t => t.dev.sel 1023 = none) = true :=
  ⟨⟨served_worker (by decide), served_worker (by decide), served_worker (by decide)⟩, zeros_of (by decide), by decide +kernel⟩

/-- A command to selector 1,023. -/
def protD (cmd : Byte) : Desc := descAt [(0, [0, cmd, 0xFF, 3])]

def selIs (n : Nat) (p : Selector → Bool) (t : State) : Bool := match t.dev.sel n with | some y => p y | none => false

theorem witness_protCommand :
    (Served 0x32 (protD 1) (wk (apsD 0 [(1023, some sel89)])).dev ∧ Served 0x32 (protD 2) (wk (apsD 0 [(1023, some sel89)])).dev
      ∧ Served 0x32 (protD 3) (wk (apsD 0 [(1023, some sel89)])).dev) ∧ Zeros (protD 1) 4 55
    ∧ (wk (apsD 0 [(1023, some sel89)])).dev.selHeld 1023 = false
    ∧ after (.protCommand (protD 1)) (wk (apsD 0 [(1023, some { sel89 with selected := true, want := true, cmd := 2 })]))
        (selIs 1023 fun y => y.cmd = 1 && y.selected && !y.want) = true
    ∧ after (.protCommand (protD 2)) (wk (apsD 0 [(1023, some { sel89 with sfW := true })])) (selIs 1023 fun y => y.cmd = 2 && !y.selected && y.want) = true
    ∧ after (.protCommand (protD 2)) (wk (apsD 0 [(1023, some { sel89 with sfP := true })])) (selIs 1023 fun y => y.cmd = 0) = true
    ∧ after (.protCommand (protD 3)) (wk (apsD 0 [(1023, some sel89)])) (selIs 1023 fun y => y.cmd = 3) = true
    ∧ after (.protCommand (protD 4)) (wk (apsD 0 [(1023, some sel89)])) (selIs 1023 fun y => y.cmd = 4) = true
    ∧ after (.protCommand (protD 0)) (wk (apsD 0 [(1023, some { sel89 with cmd := 1 })])) (selIs 1023 fun y => y.cmd = 0) = true
    ∧ after (.protCommand (protD 2)) (wk (apsD 0 [(1023, some { sel89 with bidir := true })])) (fun t => selIs 1023 (fun y => y.apsTx = 0xDA010100) t
        && t.dev.host.out.contains (.aps 1023 0xDA010100)) = true :=
  ⟨⟨served_worker (by decide), served_worker (by decide), served_worker (by decide)⟩, zeros_of (by decide), by decide +kernel⟩

/-- Selector 5 at a time, its working source with the raw defects given. -/
def selS (x : Selector) (raw : BitVec 24 := 0) (now : Nat := 0) : State := on { apsD raw [(5, some { x with work := 8, prot := 9, sncN := true })] with
  tsu := { elapsed := now } }

/-- Boundaries of R214, R216 and R218: HOLDOFF 0 and 1, the holdoff's end, and the end of WTR. -/
theorem witness_conditions :
    (selS {}).dev.selHeld 5 = false ∧ (selS {} 0x10).dev.srcSf 0 true 8 = true ∧ (selS {} 0x10).dev.srcSf 0 true 9 = false
    ∧ after (.sourceCondition ⟨0, 5⟩ false) (selS {} 0x10) (selIs 5 fun y => y.sfW && !y.sdW && y.want) = true
    ∧ after (.sourceCondition ⟨0, 5⟩ false) (selS { holdoff := 1 } 0x10 7) (selIs 5 fun y => !y.sfW && y.holdW = some 7) = true
    ∧ after (.sourceCondition ⟨0, 5⟩ true) (selS { sfP := true } 0x10) (selIs 5 fun y => !y.sfP) = true
    ∧ after (.holdoffExpiry ⟨0, 5⟩ false) (selS { holdW := some 0, holdForW := 1, holdoff := 1 } 0x10 100000000) (selIs 5 fun y => y.sfW) = true
    ∧ keeps (.holdoffExpiry ⟨0, 5⟩ false) (selS { holdW := some 0, holdForW := 1, holdoff := 1 } 0x10 99999999) = true
    ∧ after (.holdoffExpiry ⟨0, 5⟩ true) (selS { holdP := some 0, holdForP := 1, holdoff := 1 } 0 100000000) (selIs 5 fun y => !y.sfP && y.holdP = none) = true
    ∧ after (.selectedChange ⟨0, 5⟩) (selS { want := true }) (selIs 5 fun y => y.selected) = true
    ∧ after (.wtrExpiry ⟨0, 5⟩) (selS { wtrStart := some 0, wtrFor := 30, revertive := true, selected := true, want := true } 0 30000000000)
        (selIs 5 fun y => y.wtrStart = none && y.selected && !y.want) = true
    ∧ keeps (.wtrExpiry ⟨0, 5⟩) (selS { wtrStart := some 0, wtrFor := 30, revertive := true, selected := true, want := true } 0 29999999999) = true := by
  decide +kernel

/-- Boundaries of R219: the third occurrence, and 50 ms of a mismatch that must be passed. -/
theorem witness_farEnd :
    after (.apsAccept ⟨0, 5⟩ ⟨0xDA010100⟩) (selS { bidir := true, farCand := 0xDA010100, farRun := 2 })
        (selIs 5 fun y => y.far = some { code := 13, ch := 1, d := true } && y.want) = true
    ∧ after (.apsAccept ⟨0, 5⟩ ⟨0xDA010100⟩) (selS { bidir := true, farCand := 0xDA010000, farRun := 3 })
        (selIs 5 fun y => y.far = none && y.farRun = 1 && y.farCand = 0xDA010100) = true
    ∧ after (.apsAccept ⟨1, 5⟩ ⟨0xD11F0000⟩) (on { sels := [(selKey 1 5, some { farCand := 0xD1180000, farRun := 2 })] })
        (fun t => match t.dev.sel (selKey 1 5) with | some y => y.far = some { code := 13, ch := 1, b := true } && y.farCand = 0xD1180000 | none => false) = true
    ∧ after (.fopTimer ⟨0, 5⟩) (selS { nrNow := true, bidir := true } 0 50000001) (fun t => selIs 5 (fun y => y.fopNr) t && bit (t.dev.reg (aSel 5 4)) 2) = true
    ∧ keeps (.fopTimer ⟨0, 5⟩) (selS { nrNow := true, bidir := true } 0 50000000) = true
    ∧ after (.fopTimer ⟨0, 5⟩) (selS { fopNr := true, bidir := true } 0 50000000) (selIs 5 fun y => !y.fopNr) = true := by decide +kernel

/-! ### Errorless merge and plane selectors -/

/-- A group of ODU2s 8 and 9 in standard mode with MERGE, of the least MAX_SKEW. -/
def mergeNew (op : Byte) (skew : Byte := 1) : Desc := descAt [(0, [op, 1, 0xFF, 3, 8, 0, 9, 0, 5, 0, skew])]

def mg89 : MGroup := { std := true, east := 8, west := 9, merge := true, maxSkew := 100, units := [0, 1] }

def mgD (x : Option MGroup := none) : Dev := { apsD with groups := match x with | some g => [(1023, some g)] | none => [] }

def grpIs (p : MGroup → Bool) (t : State) : Bool := match t.dev.group 1023 with | some g => p g | none => false

theorem witness_mergeCfg :
    (Served 0x30 (mergeNew 1) (wk (mgD)).dev ∧ Served 0x30 (mergeNew 0) (wk (mgD (some mg89))).dev ∧ Served 0x30 (mergeNew 2 200) (wk (mgD (some mg89))).dev
      ∧ Served 0x30 (mergeNew 3) (wk (mgD (some mg89))).dev) ∧ Zeros (mergeNew 1) 12 13 ∧ Zeros (mergeNew 1) 16 55
    ∧ ((wk (mgD)).dev.leafOdu 8 = some { ty := 2, kind := 1, server := 7 } ∧ (wk (mgD)).dev.leafOdu 9 = some { ty := 2, kind := 1, server := 7 }
      ∧ 1 ≤ skewMax true { ty := 2 } ∧ (wk (mgD)).dev.sourceHeld 0 8 = false ∧ ((wk (mgD)).dev.point (mpKeyOf 2 0 8)).role ≠ 0
      ∧ unitsFor { ty := 2, kind := 1, server := 7 } 1 = 1 ∧ (wk (mgD)).dev.freeUnits.take 1 = [0])
    ∧ after (.mergeGroupCfg (mergeNew 1)) (wk (mgD)) (grpIs fun g => g.std && g.east = 8 && g.west = 9 && g.prefer && !g.insert && g.merge
        && g.maxSkew = 1 && g.units = [0] && !g.playing) = true
    ∧ (wk (mgD (some mg89))).dev.fedBy 0 2 1023 = none
    ∧ after (.mergeGroupCfg (mergeNew 0)) (wk (mgD (some mg89))) (fun t => t.dev.group 1023 = none) = true
    ∧ unitsFor { ty := 2, kind := 1, server := 7 } 200 = 4 ∧ unitsFor { ty := 2, kind := 1, server := 7 } 50 = 1
    ∧ after (.mergeGroupCfg (mergeNew 2 200)) (wk (mgD (some mg89))) (grpIs fun g => g.maxSkew = 200 && g.units = [0, 1, 2, 3] && g.cut = none) = true
    ∧ after (.mergeGroupCfg (mergeNew 2 50)) (wk (mgD (some mg89))) (grpIs fun g => g.maxSkew = 50 && g.units = [0, 1] && g.cut = some 1) = true
    ∧ after (.mergeGroupCfg (mergeNew 3)) (wk (mgD (some mg89))) (grpIs fun g => g = { mg89 with prefer := true }) = true
    ∧ after (.mergeResizeApplied 1023) (wk (mgD (some { mg89 with
        units := [0, 1], cut := some 1, slots := [(9, { full := true, place := some 4, len := 1, good := true }), (10, { full := true, place := some 3, len := 1 })] })))
        (fun t => grpIs (fun g => g.units = [0] && g.cut = none && g.maxSkew = 100 && tget {} g.slots 10 = { full := true, place := some 3, len := 1 }
          && tget {} g.slots 9 = { full := true, place := some 0, len := 1, good := true }) t && bit (t.dev.reg (aMg 1023 4)) 6) = true :=
  ⟨⟨served_worker (by decide +kernel), served_worker (by decide +kernel), served_worker (by decide +kernel), served_worker (by decide +kernel)⟩,
    zeros_of (by decide), zeros_of (by decide), by decide +kernel⟩

def mgS (x : MGroup) (raw : BitVec 24 := 0) (now : Nat := 0) : State := on { mgD (some { x with std := true, east := 8, west := 9, merge := true }) with
  points := [(mpKeyOf 2 0 8, { role := 1, raw := raw }), (mpKeyOf 2 0 9, { role := 1 })], tsu := { elapsed := now } }

/-- A standard unit of number n. -/
def mu (n : Word) (bad : Bool := false) (bs : List Byte := [1]) : MUnit := { num := n, bytes := bs, nBip := if bad then 1 else 0 }

/-- Boundaries of R229 to R231: the second good unit, the eighth late or early one, the fifth odd one, and the wrap of MFAS. -/
theorem witness_mergeCopies :
    (mgS {} 0x10).dev.copySf 8 = true
    ∧ after (.mergeCopySf 1023 false) (mgS { e := { st := .up } } 0x10) (grpIs fun g => g.e.st = .down && g.e.sf) = true
    ∧ after (.mergeCopySf 1023 true) (mgS { w := { st := .down, sf := true } }) (grpIs fun g => g.w.st = .aligning && !g.w.sf) = true
    ∧ after (.mergeUnitArrival 1023 true (mu 3)) (mgS { w := { st := .down } }) (grpIs fun g => g.w.st = .down && g.slots = [] && !g.playing && g.nextUnit = 0) = true
    ∧ after (.mergeUnitArrival 1023 true (mu 0)) (mgS { w := { st := .aligning, last := some 255, goodRun := 1 }, maxSkew := 1000 } 0 7) (grpIs fun g => g.w.st = .up && g.playing
        && g.ref && g.nextUnit = 0 && g.nextAt = 1000007000 && (tget {} g.slots 0).bytes = [1]) = true
    ∧ after (.mergeUnitArrival 1023 false (mu 4)) (mgS { e := { st := .aligning, last := some 3, goodRun := 1 }, w := { st := .up }, playing := true, nextUnit := 5 })
        (grpIs fun g => g.e.st = .skew) = true
    ∧ after (.mergeUnitArrival 1023 false (mu 4)) (mgS { e := { st := .up, last := some 3, lateRun := 7 }, playing := true, nextUnit := 5 }) (grpIs fun g => g.e.st = .skew) = true
    ∧ after (.mergeUnitArrival 1023 false (mu 9)) (mgS { e := { st := .up, last := some 3, oddRun := 4 }, playing := true, nextUnit := 4 }) (grpIs fun g => g.e.st = .aligning) = true
    ∧ after (.mergeUnitArrival 1023 false (mu 5)) (mgS { e := { st := .skew, last := some 4, earlyRun := 7 }, w := { st := .up }, playing := true, nextUnit := 5 })
        (grpIs fun g => g.e.st = .up) = true := by decide +kernel

/-- A group whose east copy is UP at number 3 and plays number 4. -/
def upS (x : MGroup) : State := mgS { x with playing := true, nextUnit := 4 }

/-- Boundaries of R231: the first copy, the later copy's staging, and the BIP-8 that comes two frames later. -/
theorem witness_mergeStore :
    after (.mergeUnitArrival 1023 false (mu 4)) (upS { e := { st := .up, last := some 3 } }) (grpIs fun g =>
        let y := tget {} g.slots 4
        y.full && y.len = 1 && y.bytes = [1] && !y.west && y.good && y.place = none) = true
    ∧ after (.mergeUnitArrival 1023 false { mu 4 with defect := true }) (upS { e := { st := .up, last := some 3 }, units := [0] }) (fun t => grpIs (fun g =>
        let y := tget {} g.slots 4
        y.full && y.len = 1 && y.bytes = [] && !y.good && y.place = some 0
          && (heldBytes t (g.slotPlaces 0 1)).take 1 = [1]) t) = true
    ∧ after (.mergeUnitArrival 1023 false (mu 4)) (upS { e := { st := .up, last := some 3 }, w := { st := .up }, slots := [(4, { full := true, len := 1, bytes := [2], west := true })] })
        (grpIs fun g => (tget {} g.slots 4).bytes = [2] && (tget {} g.slots 4).west && !(tget {} g.slots 4).good && g.e.stage = [{ pos := 4, defect := false, bytes := [1] }]) = true
    ∧ (let st : List MStage := [{ pos := 3, defect := false, bytes := [7] }, { pos := 2, defect := false, bytes := [8, 9] }]
       after (.mergeUnitArrival 1023 false (mu 4)) (upS { e := { st := .up, last := some 3, stage := st }, slots := [(2, { full := true, len := 1, west := true })] })
          (grpIs fun g => let z := tget {} g.slots 2
            z.len = 2 && z.bytes = [8, 9] && !z.west && z.good) = true
       ∧ after (.mergeUnitArrival 1023 false (mu 4 true)) (upS { prefer := true, e := { st := .up, last := some 3, stage := st }, slots := [(2, { full := true, len := 1, west := true })] })
          (grpIs fun g => let z := tget {} g.slots 2
            z.len = 1 && z.west && !z.good && z.badE) = true
       ∧ after (.mergeUnitArrival 1023 false (mu 4 true)) (upS { e := { st := .up, last := some 3, stage := st }, slots := [(2, { full := true, len := 1, good := true })] })
          (grpIs fun g => let z := tget {} g.slots 2
            !z.good && !z.west) = true) := by decide +kernel

/-- A native group of ODUflexes: its east copy UP, and position 0 or 5 held by the west copy. -/
def nativeS (last : Nat) (x : MSlot) (prefer : Bool := false) : State := on { groups := [(1023, some {
  merge := true, prefer := prefer, playing := true, nextUnit := (last + 1) % 2 ^ 32, e := { st := .up, last := some last }
  slots := [((last + 1) % 2 ^ 32, { x with full := true, west := true })] })] }

/-- A block with the trailer that the insert side writes is good, and its CRC field is not that of every other block. -/
theorem witness_diverge (data : List Byte) (seq : Nat) :
    let u : MUnit := { num := 0, bytes := trailerBlock data seq false }
    u.good false = true ∧ crcField u.bytes + 1 ≠ crcField u.bytes := by
  refine ⟨?_, by omega⟩
  have hb : ((data ++ le (1016 - data.length) 0).take 1016 ++ be 4 seq).length = 1020 := by
    simp [be, le_length]; omega
  simp only [MUnit.good, trailerBlock, crcField, Bool.false_eq_true, if_false]
  generalize hx : (data ++ le (1016 - data.length) 0).take 1016 ++ be 4 seq = b at hb ⊢
  rw [List.take_left' hb, List.drop_left' hb, List.take_of_length_le (by simp [le_length])]
  rw [leNat_le, Nat.mod_eq_of_lt (show (crcOf 0 b).toNat < 256 ^ 4 from (crcOf 0 b).isLt)]
  simp [hb, le_length]

/-- A bad block stands where the running number says. -/
theorem witness_mergeNative :
    after (.mergeUnitArrival 1023 false { num := 0, bytes := [] }) (nativeS (2 ^ 32 - 1) { len := 1 }) (grpIs fun g => (tget {} g.slots 0).len = 0 && !(tget {} g.slots 0).west) = true
    ∧ after (.mergeUnitArrival 1023 false { num := 0, bytes := [] }) (nativeS (2 ^ 32 - 1) { len := 1 } true) (grpIs fun g => (tget {} g.slots 0).len = 1 && (tget {} g.slots 0).west) = true
    ∧ ({ num := 0, bytes := trailerBlock [] 5 false } : MUnit).number false = 5 := by decide +kernel

/-- What a slot holds is played out once, at its instant; its BIP-8 is sent inverted where the unit is bad. -/
theorem witness_mergePlayout :
    after (.mergePlayout 1023) (mgS { playing := true, nextAt := 7000, nextUnit := 255, slots := [(255, { full := true, len := 1, bytes := [2], good := true })] } 0 7) (fun t =>
        grpIs (fun g => g.nextUnit = 0 && g.slots = []) t && t.dev.host.out.head? = some (.mergeUnit 1023 [2] [] false false [(0, 0)])) = true
    ∧ keeps (.mergePlayout 1023) (mgS { playing := true, nextAt := 7000, slots := [(0, { full := true, len := 1, bytes := [2], good := true })] } 0 6) = true
    ∧ after (.mergePlayout 1023) (mgS { playing := true, units := [0], slots := [(0, { full := true, place := some 0, len := 1, west := true, bytes := [9] })] }) (fun t =>
        t.dev.host.out.contains (.mergeUnit 1023 [0] [] false false [(0, 0xFF)]) && bit (t.dev.reg (aMg 1023 4)) 3) = true
    ∧ after (.mergePlayout 1023) (mgS { playing := true }) (fun t => t.dev.host.out.head? = some (.mergeUnit 1023 [] [] true false []) && bit (t.dev.reg (aMg 1023 4)) 4) = true
    ∧ after (.mergePlayout 1023) (on { groups := [(1023, some { playing := true, nextUnit := 2 ^ 32 - 1 })] }) (fun t => grpIs (fun g => g.nextUnit = 0) t
        && t.dev.host.out.any fun o => match o with | .mergeUnit _ bs [] false false [] => bs.length = 1024 && decide ((bs.drop 1016).take 4 = [0xFF, 0xFF, 0xFF, 0xFF]) | _ => false) = true := by
  decide +kernel

/-- The one place that a stored unit of the test above takes reads without an error. -/
theorem test_slot_sound : Sound (mgS { units := [0] }) (MGroup.slotPlaces { std := true, units := [0] } 0 1) := by
  unfold Sound; decide +kernel

/-- Port 2 with the words held from plane 0 given, fences and preference. -/
def pselS (x : PSel) (f : Tab Bool := []) : State := on { ports := [(2, { lanes := 2, format := 2, astate := .aligned })], psels := [(2, x)]
                                                          plane := { fences := f } }

/-- A word of cell 0, the first after the wrap of the cell numbers. -/
def pw (p : Bool := false) (v : Data := 0) : SelWord := { cell := 0, w := 7, d := v, c := parity v, p := p }

def pheld (p : Bool := false) (v : Data := 0) : PSel := { held := [{ cell := 65536, w := 7, d := v, c := parity v, p := p }], ahead := 0, pos := 524288 }

theorem witness_pselWord :
    (pselS {}).dev.selTakes 2 = [0, 1] ∧ (pselS {} [(srcOf 15 0, true)]).dev.selTakes 2 = [1] ∧ (pselS {}).dev.portOn 2 = true
    ∧ unwrapCell (524288 / 8) 0 = 65536
    ∧ after (.pselWord 2 0 (pw)) (pselS { pos := 524288 }) (fun t => (t.dev.psel 2).ahead = 0 && (t.dev.psel 2).held = (pheld).held) = true
    ∧ after (.pselWord 2 1 (pw true)) (pselS (pheld)) (fun t => t.dev.host.out.head? = some (.selWord 2 2 0 7 0 false)) = true
    ∧ after (.pselWord 2 1 (pw)) (pselS (pheld true 5)) (fun t => t.dev.host.out.head? = some (.selWord 2 2 0 7 0 false)) = true
    ∧ after (.pselWord 2 1 (pw true)) (pselS (pheld true 5)) (fun t => t.dev.host.out.contains (.selWord 2 2 0 7 5 true)) = true
    ∧ after (.pselWord 2 1 (pw)) (pselS (pheld)) (fun t => t.dev.host.out.head? = some (.selWord 2 2 0 7 0 false) && (t.dev.psel 2).held = []
        && (t.dev.psel 2).pos = 524296) = true
    ∧ after (.pselWord 2 1 (pw)) (pselS {} [(srcOf 15 0, true)]) (fun t => t.dev.host.out.head? = some (.selWord 2 2 0 7 0 false)) = true
    ∧ parityOk (0 : Data) 0 = false
    ∧ after (.pselWord 2 1 { pw with c := 0 }) (pselS (pheld)) (fun t => t.dev.host.out.head? = some (.selWord 2 2 0 7 0 false)) = true
    ∧ after (.pselWord 2 0 (pw)) (pselS { pos := 524288, joining := some 1 }) (fun t => (t.dev.psel 2).joining = some 1
        && t.dev.host.out.head? = some (.selWord 2 2 0 7 0 false)) = true
    ∧ after (.pselWord 2 1 { pw with cell := 1 }) (pselS {} [(srcOf 15 0, true)]) (fun t =>
        t.dev.host.out.head? = some (.selWord 2 3 1 7 0 false)) = true := by decide +kernel

/-! ### Timing and calibration -/

/-- Reference 67, a 1PPS input, at the boundaries of its fields; reference 69 with the least STEER_TIMEOUT. -/
def refPps : Desc := descAt [(0, [0, 67, 3, 0, 15]), (6, [100, 0, 1]), (12, [0x4F, 0xC3, 0, 0, 0xA0, 0x86, 1, 0, 0xE8, 3, 0xB0, 4, 0xC0, 0xBD, 0xF0, 0xFF])]
def refServo : Desc := descAt [(0, [0, 69, 1]), (12, [100, 0, 0, 0, 200, 0, 0, 0, 1]), (28, [1])]
def refGlobal : Desc := descAt [(0, [1, 3, 7, 69, 15, 0, 10, 0, 60])]
def refOut : Desc := descAt [(0, [2, 5, 2, 2]), (8, [0, 0x65, 0xCD, 0x1D, 0xFF, 0xC9, 0x9A, 0x3B])]

theorem witness_tsuRefCfg :
    (Served 0x50 refPps (wk).dev ∧ Served 0x50 refServo (wk).dev ∧ Served 0x50 refGlobal (wk).dev ∧ Served 0x50 refOut (wk).dev)
    ∧ (Zeros refPps 29 55 ∧ Zeros refServo 29 55 ∧ Zeros refGlobal 12 55)
    ∧ (bwOk 67 true 100 = true ∧ refPps.u32 8 = 1 ∧ refPps.u32 12 = 49999 ∧ refPps.u32 16 = 100000 ∧ refPps.u16 20 = 1000 ∧ refPps.u16 22 = 1200
      ∧ refPps.s32 24 = -1000000)
    ∧ after (.tsuRefCfg refPps) (wk) (fun t => let y := t.dev.tref 67
        y.enable && y.pps && !y.qlSrc && y.prio = 0 && y.ql = 15 && y.bw = 100 && y.freq = 1 && y.soft = 49999 && y.hard = 100000 && y.drift = 1000
        && y.wtr = 1200 && y.delay = -1000000 && y.st = 1 && y.offset = none && !y.active) = true
    ∧ after (.tsuRefCfg refServo) (wk) (fun t => (t.dev.tref 69).enable && (t.dev.tref 69).steerTo = 1 && (t.dev.tref 69).st = 1) = true
    ∧ after (.tsuRefCfg refGlobal) (wk) (fun t => let u := t.dev.tsu
        u.mode = 3 && u.revertive && u.qlEn && u.hoEn && u.forceRef = 69 && u.ownQl = 15 && u.dispute = 10 && u.hoMax = 60) = true
    ∧ (∀ k ∈ outChecks refOut, k.2 = true)
    ∧ after (.tsuRefCfg refOut) (wk) (fun t => let y := t.dev.tout 5
        y.mode = 2 && y.flags = 2 && y.width = 500000000 && y.offset = 999999999 && y.phase = 1 && (t.dev.tsu.realign.map fun a => a.mask) = [32]) = true :=
  ⟨⟨served_worker (by decide), served_worker (by decide), served_worker (by decide), served_worker (by decide)⟩,
    ⟨zeros_of (by decide), zeros_of (by decide), zeros_of (by decide)⟩, by decide +kernel⟩

/-- Reference 69 selected, in a state of the TSU. -/
def servo (st : Nat) (x : Tsu := {}) : Dev := { tsu := { x with st := st, sel := some 69, refs := [(69, { enable := true, active := true, prio := 1, ql := 11, st := 3 })] } }

def steerLock : Desc := descAt [(1, [1]), (8, [0x00, 0xC2, 0xEB, 0x0B])]
def steerBack : Desc := descAt [(0, [1]), (12, [0xFF, 0xFF, 0xFF, 0xFF, 0xFF, 0xFF, 0xFF, 0xFF])]
def steerSet : Desc := descAt [(0, [2]), (20, [5, 0, 0, 0, 0, 0, 0, 0, 0xFF, 0xC9, 0x9A, 0x3B])]

theorem witness_tsuSteer :
    (Served 0x51 steerLock (wk (servo 1)).dev ∧ Served 0x51 steerBack (mgr).dev ∧ Served 0x51 steerSet (mgr).dev)
    ∧ (Zeros steerLock 2 7 ∧ Zeros steerLock 26 27 ∧ Zeros steerSet 32 55) ∧ steerLock.s32 8 = 200000000
    ∧ after (.tsuSteer steerLock) (wk (servo 1)) (fun t => t.dev.tsu.steer = 200000000 && t.dev.tsu.freqTerm = 200000000 && t.dev.tsu.st = 2 && (t.dev.tref 69).active) = true
    ∧ after (.tsuSteer steerBack) (mgr) (fun t => t.dev.timeNs = 2 ^ 48 * 1000000000 - 1 && t.dev.tsu.ns = 999999999 && bit (t.dev.reg aTsuHist) 8 && t.dev.now = 0) = true
    ∧ after (.tsuSteer steerSet) (mgr) (fun t => t.dev.tsu.sec = 5 && t.dev.tsu.ns = 999999999 && bit (t.dev.reg aTsuHist) 8) = true :=
  ⟨⟨served_worker (by decide), served_mgr (by decide), served_mgr (by decide)⟩, ⟨zeros_of (by decide), zeros_of (by decide), zeros_of (by decide)⟩, by decide +kernel⟩

theorem witness_realign :
    Served 0x52 (desc [63]) (wk).dev ∧ Zeros (desc [63]) 1 55 ∧ (wk).dev.awaiting 63 = none
    ∧ after (.tsuRealign (desc [63])) (wk) (fun t => t.dev.tsu.realign = [{ mask := 63, notBefore := 1000000, job := some 0 }]
        && t.dev.host.jobs.any fun j => j.id = 0 && j.desc = desc [63]) = true
    ∧ (let s := on { tsu := { outs := [(5, { phase := 7 })], elapsed := 8, realign := [{ mask := 32, notBefore := 8, job := none }, { mask := 1, notBefore := 9, job := none }] } }
       after .outputAlignment s (fun t => (t.dev.tout 5).phase = 0 && bit (t.dev.reg aTsuHist) 9 && (t.dev.tsu.realign.map fun a => a.mask) = [1]) = true
       ∧ keeps .outputAlignment { s with dev.tsu.ns := 8 } = true
       ∧ keeps .outputAlignment { s with dev.tsu.ns := 1 } = true
       ∧ after .outputAlignment { s with dev.tsu.ns := 7, dev.tsu.elapsed := 15 } (fun t => (t.dev.tout 5).phase = 0) = true) :=
  ⟨served_worker (by decide), zeros_of (by decide), by decide +kernel⟩

/-- REFIN 64 in a state, and lane 3 of a port with SF, at a time. -/
def refS (x : TRef) (now : Nat := 0) : State := on { tsu := { refs := [(64, { x with enable := true }), (69, { enable := true, st := 3, steerTo := 1 })], elapsed := now } }

def laneRef (b : BState) (raw : BitVec 24) : State := on { tsu := { refs := [(2, { enable := true, st := 3 })] }, lanes := [(2, { bstate := b })]
                                                           ports := [(2, { lanes := 2, format := 2, astate := .aligned })], points := [(mpKeyOf 1 0 2, { role := 1, raw := raw })] }

/-- Boundaries of R285 to R289: HARD_PPB, DRIFT_PPBS and SOFT_PPB themselves hold; one ppt beyond does not; the eighth S1. -/
theorem witness_references :
    (refS { offs := [(0, 9700000)] } 10000000000).dev.measuredNow 64 = false ∧ (refS { offs := [(0, 0)] } 999999999).dev.measuredNow 64 = true
    ∧ (refS { offs := [(0, 9700000)] } 10000000000).dev.offsOf { offs := [(0, 9700000)] } 5 = [(10000000000, 5), (0, 9700000)]
    ∧ after (.refMeasurement 64 9200000 0) (refS { st := 1, cause := 6, offs := [(0, 9700000)] } 10000000000) (fun t => let y := t.dev.tref 64
        y.offset = some 9200000 && y.driftM = some (-50000) && y.cause = 0 && (y.st = 2 || y.st = 3) && y.softWarn) = true
    ∧ after (.refMeasurement 64 9200001 0) (refS { st := 3, offs := [(0, 9200001)] } 10000000000) (fun t => (t.dev.tref 64).st = 1
        && (t.dev.tref 64).cause = 2) = true
    ∧ after (.refMeasurement 64 4000000 0) (refS { st := 1, offs := [(0, 0)] } 9999999999) (fun t => !(t.dev.tref 64).softWarn
        && (t.dev.tref 64).driftM = none) = true
    ∧ after (.refMeasurement 64 0 15) (refS { st := 1, pps := true, pulses := (List.range 15).reverse.map fun i => (i : Int) }) (fun t =>
        (t.dev.tref 64).offset = some 1000) = true
    ∧ after (.refMeasurement 64 0 5) (refS { st := 1, pps := true, pulses := [4] }) (fun t => (t.dev.tref 64).offset = none
        && (t.dev.tref 64).pulses = [5, 4]) = true
    ∧ after (.refActivityLost 64) (refS { st := 2, offset := some 1 }) (fun t => (t.dev.tref 64).st = 1 && (t.dev.tref 64).cause = 1 && (t.dev.tref 64).offset = none) = true
    ∧ (laneRef .acquire 0).dev.refActive 2 = false
    ∧ after (.refActivityLost 2) (laneRef .acquire 0) (fun t => (t.dev.tref 2).st = 1 && (t.dev.tref 2).cause = 1) = true
    ∧ (laneRef .locked 1).dev.refActive 2 = true ∧ (laneRef .locked 1).dev.refSf 2 = true
    ∧ after (.refSignalFail 2) (laneRef .locked 1) (fun t => (t.dev.tref 2).st = 1 && (t.dev.tref 2).cause = 4) = true
    ∧ after .refSteerTimeout (refS {} 1000000000) (fun t => (t.dev.tref 69).st = 1 && (t.dev.tref 69).cause = 5) = true
    ∧ keeps .refSteerTimeout (refS {} 999999999) = true
    ∧ (refS { st := 2, wtr := 1, active := true, offset := some 0, driftM := some 0 } 1000000000).dev.refFail 64 = none
    ∧ after (.refWtrExpiry 64) (refS { st := 2, wtr := 1, active := true, offset := some 0, driftM := some 0 } 1000000000) (fun t => (t.dev.tref 64).st = 3
        && bit (t.dev.reg (aRefEvent 64)) 1) = true
    ∧ after (.refQlChange 64 2) (refS { qlSrc := true, s1Cand := 2, s1Run := 7 }) (fun t => (t.dev.tref 64).s1 = 2) = true
    ∧ after (.refQlChange 64 2) (refS { qlSrc := true, s1Cand := 4, s1Run := 8, s1 := 4 }) (fun t => (t.dev.tref 64).s1 = 4 && (t.dev.tref 64).s1Run = 1
        && (t.dev.tref 64).s1Cand = 2) = true := by decide +kernel

/-- The host servo chosen or selected; a REFIN selected in LOCKED with the phase given. -/
def chosen (st : Nat) (x : Tsu := {}) : State := on { servo st x with tsu := { (servo st x).tsu with sel := none } }
def refin (st : Nat) (x : Tsu) (now : Nat) : State := on { tsu := { x with
  st := st, sel := some 64, elapsed := now, refs := [(64, { enable := true, active := true, prio := 1, ql := 2, st := 3, offset := some 0, driftM := some 0 })] } }

/-- Boundaries of R298 and R299: the lock window itself locks, four windows themselves do not fall back, 300 entries are a valid history. -/
theorem witness_tsuStates :
    (chosen 0).dev.choose = some 69 ∧ (chosen 0).dev.tsu.sel = none
    ∧ after (.refSelection 0) (chosen 0) (fun t => t.dev.tsu.st = 1 && t.dev.tsu.sel = some 69 && bit (t.dev.reg aTsuHist) 5) = true
    ∧ (let s := on { tsu := { st := 2, sel := some 64, lastTerm := 7 } }
       s.dev.choose = none ∧ after (.refSelection 0) s (fun t => t.dev.tsu.st = 4 && t.dev.tsu.sel = none && t.dev.tsu.freqTerm = 7) = true)
    ∧ (refin 2 {} 0).dev.choose = some 64
    ∧ after (.refSelection (-9)) (refin 2 {} 0) (fun t => t.dev.tsu.phaseErr = -9 && t.dev.tsu.sel = some 64 && t.dev.tsu.st = 2) = true
    ∧ (refin 1 {} 0).dev.lockOf 64 = (50, 10000000000)
    ∧ after .tsuLocked (refin 1 { phaseErr := -50 } 10000000000) (fun t => t.dev.tsu.st = 2 && t.dev.tsu.sel = some 64 && bit (t.dev.reg aTsuHist) 2
        && t.dev.tsu.lockedAt = 10000000000) = true
    ∧ keeps .tsuLocked (refin 1 { phaseErr := 51 } 10000000000) = true ∧ keeps .tsuLocked (refin 1 {} 9999999999) = true
    ∧ 4 * ((refin 2 { phaseErr := 201 } 10000000000).dev.lockOf 64).1 < (201 : Int).natAbs
    ∧ keeps .tsuPhaseLoss (refin 2 { phaseErr := 200 } 10000000000) = true
    ∧ (let x : TRef := { enable := true, pps := true, active := true, prio := 1, ql := 2, st := 3, offset := some 0, driftM := some 0 }
       let s := on { tsu := { st := 2, sel := some 64, phaseErr := 1001, elapsed := 100000000000, refs := [(64, x)] } }
       s.dev.lockOf 64 = (100, 100000000000)
       ∧ s.dev.tsu.outSince + 100000000000 ≤ s.dev.now ∧ 4 * 100 < s.dev.tsu.phaseErr.natAbs ∧ (s.dev.tref 64).pps = true
       ∧ 1000 < s.dev.tsu.phaseErr.natAbs)
    ∧ after .tsuLostResolve (chosen 4) (fun t => t.dev.tsu.st = 1 && t.dev.tsu.sel = some 69) = true
    ∧ after .tsuLostResolve (on { tsu := { st := 4, hist := List.replicate 300 3 } }) (fun t => t.dev.tsu.st = 3 && t.dev.tsu.freqTerm = 3) = true
    ∧ after .tsuLostResolve (on { tsu := { st := 4, hist := List.replicate 299 3 } }) (fun t => t.dev.tsu.st = 0 && t.dev.tsu.hist = [] && t.dev.tsu.freqTerm = 0) = true
    ∧ after .tsuHoldoverExpired (on { tsu := { st := 3, hoMax := 60, hist := [1], elapsed := 60000000000 } }) (fun t => t.dev.tsu.st = 0 && t.dev.tsu.hist = []
        && bit (t.dev.reg aTsuHist) 6) = true
    ∧ keeps .tsuHoldoverExpired (on { tsu := { st := 3, hoMax := 60, hist := [1], elapsed := 59999999999 } }) = true
    ∧ after (.historySecond 5) (refin 2 { hist := [4] } 1000000000) (fun t => t.dev.tsu.hist = [5, 4] && t.dev.tsu.freqTerm = 5
        && t.dev.tsu.histAt = 1000000000) = true
    ∧ keeps (.historySecond 5) (refin 2 { hist := [4], histAt := 1 } 1000000000) = true
    ∧ after (.historySecond 5) (on { servo 2 with tsu := { (servo 2).tsu with steer := 3, meanSum := 1000000000, meanAt := 500000000, elapsed := 1000000000 } })
        (fun t => t.dev.tsu.sel = some 69) = true
    ∧ after (.historySecond 5) (on { servo 2 with tsu := { (servo 2).tsu with steer := 4, meanSum := 1000000000, meanAt := 500000000, elapsed := 1000000000 } })
        (fun t => t.dev.tsu.hist = [3]) = true
    ∧ keeps (.historySecond 5) (refin 2 {} 999999999) = true := by decide +kernel

/-- LOCKED to REFIN 64 of QL 2 for ten minutes. -/
def calS (c : Cal := {}) : Dev := { tsu := { st := 2, sel := some 64, elapsed := 600000000000, refs := [(64, { enable := true, ql := 2, st := 3 })], selQl := 2 }, cal := c }

def calStart : Desc := descAt [(1, [3, 7, 0, 100])]
def run0 : CalRun := { set := 3, point := 0, window := 100, job := 9, start := 500000000000, temp0 := 0, mark := 600000000000 }
def seven : List CalPoint := (List.range 7).map fun i => { temp := (i : Int), value := 0 }

theorem witness_calRun :
    Served 0x53 calStart (wk (calS { sets := [(3, seven)] })).dev ∧ Served 0x53 (desc [1]) (wk (calS { run := some run0 })).dev
    ∧ Zeros calStart 6 7 ∧ Zeros calStart 18 55 ∧ (wk (calS)).dev.calReason = none ∧ ((wk (calS { sets := [(3, seven)] })).dev.calSet 3).length = 7
    ∧ after (.calRun calStart) (wk (calS { sets := [(3, seven)] })) (fun t => t.dev.cal.run
        = some { set := 3, point := 7, window := 100, job := 0, start := 600000000000, temp0 := 0, mark := 600000000000 }) = true
    ∧ after (.calRun (desc [1])) (wk (calS { run := some { run0 with start := 500000000001 } })) (fun t => t.dev.cal.run = none && bit (t.dev.reg aCalEvent) 1) = true
    ∧ after .calRunWindowEnd (on (calS { run := some { run0 with sumDco := 249999999999, sumTemp := -200000000000 } })) (fun t => t.dev.cal.run = none
        && t.dev.calSet 3 = [{ temp := -2, value := 2 }] && bit (t.dev.reg aCalEvent) 0) = true
    ∧ after .calRunWindowEnd (on (calS { run := some { run0 with sumTemp := 100000000000, point := 1 }, sets := [(3, [{ temp := 1 }])] })) (fun t =>
        t.dev.cal.run = none && t.dev.calSet 3 = [{ temp := 1 }] && bit (t.dev.reg aCalEvent) 1) = true :=
  ⟨served_worker (by decide), served_worker (by decide), zeros_of (by decide), zeros_of (by decide), by decide +kernel⟩

/-- Two points in set 3, made active, between which C is interpolated and rounded away from zero. -/
def calTable : Desc := descAt [(0, [2, 3, 2]), (8, [0, 0, 0xFF, 0xFF, 0xFF, 0xFF, 2])]

theorem witness_calTable :
    Served 0x54 calTable (wk (calS { temp := 1 })).dev ∧ Served 0x54 (desc [1, 3]) (wk (calS { temp := 1 })).dev ∧ Zeros calTable 3 7
    ∧ (∀ k ∈ calPointChecks calTable 2, k.2 = true)
    ∧ after (.calTableCommit calTable) (wk (calS { temp := 1 })) (fun t => t.dev.calSet 3 = [{ temp := 0, value := -1 }, { temp := 2, value := 0 }]
        && t.dev.cal.active = 3 && t.dev.cal.corr = -1 && t.dev.corrNow = -1) = true
    ∧ after (.calTableCommit (desc [1, 3])) (wk (calS { sets := [(3, [{ value := 5 }])] })) (fun t => t.dev.cal.active = 3 && t.dev.cal.corr = 5) = true
    ∧ (calS {}).elapsedSec = 600
    ∧ after .calSecond (on (calS { run := some { run0 with mark := 599999999999 }, temp := 4, sets := [(0, [{ value := 5 }])], corrSec := 599 })) (fun t =>
        t.dev.cal.corr = 5 && t.dev.cal.corrSec = 600
        && t.dev.tsu.freqTerm = -5 && t.dev.tsu.lastTerm = -5 && t.dev.cal.run = some { run0 with sumTemp := 4, mark := 600000000000 }) = true
    ∧ keeps .calSecond (on (calS { corrSec := 600 })) = true
    ∧ after (.tempRead (.i2c (some (0x80, 0)))) (on { regs := [(0x60000, 0x0591)], cal := { fails := 4 } }) (fun t => t.dev.cal.temp = -32768 && t.dev.cal.i2c
        && t.dev.cal.fails = 0 && t.dev.cal.readSec = some 0 && t.dev.host.out.contains (.i2c 0x48 5)) = true
    ∧ keeps (.tempRead (.onDie 1)) (on { regs := [(0x60000, 1)] }) = true
    ∧ keeps (.tempRead (.i2c none)) (on { regs := [(0x60000, 1)], tsu := { elapsed := 100000000 } }) = true
    ∧ keeps (.tempRead (.onDie 1)) (on { cal := { readSec := some 0 } }) = true
    ∧ bit ((on).dev.reg 0x60000) 0 = false
    ∧ after (.tempRead (.onDie 32767)) (on { cal := { i2c := true } }) (fun t => t.dev.cal.temp = 32767 && !t.dev.cal.i2c) = true
    ∧ after (.tempRead (.i2c none)) (on { regs := [(0x60000, 1)], cal := { fails := 3, temp := 5 } }) (fun t => t.dev.cal.fails = 4 && t.dev.cal.temp = 5 && !t.dev.cal.srcFail) = true
    ∧ after (.tempRead (.i2c none)) (on { regs := [(0x60000, 1)], cal := { fails := 4, temp := 5 } }) (fun t => t.dev.cal.srcFail && t.dev.cal.i2c
        && bit (t.dev.reg aCalEvent) 2) = true :=
  ⟨served_worker (by decide), served_worker (by decide), zeros_of (by decide), by decide +kernel⟩

/-! ### Twill engines -/

def pkg7 : Pkg := { id := 7, ver := 0xFFFFFFFF, cat := 1 }
def stageIt : Desc := descAt [(0, [0]), (8, [1, 2, 3, 4, 5, 6, 7, 8]), (16, [0, 0, 1])]
def stageLeast : Desc := descAt [(16, [0, 4])]
def staged : Dev := { plane := { fences := [(0xF001, true)] }, twill := { staged := some pkg7 }, sec := { pkgBytesStage := [9] } }
def waitsStage : Dev := { sec := { service := some { job := 5, work := .stage 1024 } } }

/-- OP 0 with the greatest and the least LENGTH, OP 1 into plane S and OP 2; a package that cannot be read or has the wrong length is not staged. -/
theorem witness_packages :
    (Served 0x70 stageIt (wk).dev ∧ Served 0x70 stageLeast (mgr).dev ∧ Served 0x70 (desc [1, 1]) (wk staged).dev ∧ Served 0x70 (desc [2]) (wk staged).dev)
    ∧ (Zeros stageIt 2 7 ∧ Zeros stageIt 32 55 ∧ Zeros (desc [1, 1]) 2 7 ∧ Zeros (desc [1, 1]) 32 55)
    ∧ stageIt.u32 16 = 65536 ∧ stageLeast.u32 16 = 1024
    ∧ after (.enginePkgLoad stageIt) (wk) (fun t => t.dev.sec.waiting = [{ job := 0, work := .stage 65536, addr := 0x0807060504030201 }]) = true
    ∧ after (.enginePkgLoad stageLeast) (mgr) (fun t => t.dev.sec.waiting = [{ job := 0, work := .stage 1024, addr := 0 }]) = true
    ∧ ((wk staged).dev.staging = false ∧ (wk staged).dev.planeFenced 1 = true)
    ∧ after (.enginePkgLoad (desc [1, 1])) (wk staged) (fun t => t.dev.twill.loading = some { plane := 1, job := 0, pkg := pkg7, bytes := [9] }) = true
    ∧ after (.enginePkgLoad (desc [2])) (wk staged) (fun t => t.dev.twill.staged = none && t.dev.sec.pkgBytesStage = []) = true
    ∧ after (.twPkgStaged .failed) (on waitsStage) (fun t => t.dev.sec.service = none && t.dev.twill.staged = none) = true
    ∧ pkgReason 0 [1] ≠ 0
    ∧ after (.twPkgStaged (.data [1])) (on waitsStage) (fun t => t.dev.sec.service = none && t.dev.twill.staged = none) = true
    ∧ after .twPkgLoaded (on { twill := { loading := some { plane := 1, job := 0, pkg := pkg7, bytes := [9] } } }) (fun t =>
        t.dev.twill.loading = none && t.dev.pkgOf 1 = some pkg7 && t.dev.pkgBytes 1 = [9] && t.dev.pkgOf 0 = none) = true :=
  ⟨⟨served_worker (by decide), served_mgr (by decide), served_worker (by decide), served_worker (by decide)⟩,
    ⟨zeros_of (by decide), zeros_of (by decide), zeros_of (by decide), zeros_of (by decide)⟩, by decide +kernel⟩

/-- Plane N fenced, both planes with a package of one catalogue revision, and a handover to plane N at its third stage. -/
def handed (r : Option Resync := none) : Dev := { plane := { fences := [(0xF000, true)], preferred := 1, resync := r }, twill := { pkgN := some pkg7, pkgS := some {} } }

theorem witness_planesHandOver :
    (Served 0x71 (desc [0, 1]) (wk).dev ∧ Zeros (desc [0, 1]) 2 55 ∧ Served 0x71 (desc [1]) (wk handed).dev)
    ∧ (wk).dev.planeState = 0 ∧ (wk).dev.firstFenced 0 = none
    ∧ after (.planeHandover (desc [0, 1])) (wk) (fun t => t.dev.planeFenced 1 && !t.dev.planeFenced 0 && t.dev.plane.preferred = 0) = true
    ∧ (wk handed).dev.planeFenced 0 = true ∧ (wk handed).dev.firstFenced 0 = none ∧ ((wk handed).dev.pkgOf 1).map Pkg.cat = some pkg7.cat
    ∧ after (.planeHandover (desc [1])) (wk handed) (fun t => t.dev.plane.resync = some { plane := 0, why := .handover, job := 0 }) = true
    ∧ after .twHandoverDone (on (handed (some { plane := 0, why := .handover, job := 0, copied := true }))) (fun t => t.dev.plane.resync = none
        && t.dev.plane.preferred = 0 && !t.dev.planeFenced 0 && t.dev.planeFenced 1) = true :=
  ⟨⟨served_worker (by decide), zeros_of (by decide), served_worker (by decide)⟩, by decide +kernel⟩

def budget0 : Desc := descAt [(1, [7, 0x80, 0x3E])]
def moveTo (k : Byte) : Desc := desc [1, 7, 15, k]
def dccMake : Desc := desc [2, 1, 7, 63, 2, 15, 0]

/-- A monitor on the ODU channel of port 63, with its engine, and the CRC units that its slice owns. -/
def dcc7 (x : Dcc := { port := 63, channel := 2, crcN := 15, crcS := 0, engine := some 15, made := true }) : Dev := { twill := { dcc := [(7, x)] } }
def crcs : Dev := { ports := [(63, { format := 2 })], crc := [(0, { owner := 17 }), (15, { owner := 9 })] }

theorem witness_engineCfg :
    (Served 0x72 budget0 (wk).dev ∧ Served 0x72 (moveTo 0) (wk (dcc7)).dev ∧ Served 0x72 (moveTo 0xFF) (wk (dcc7)).dev ∧ Served 0x72 dccMake (wk crcs).dev
      ∧ Served 0x72 (desc [2, 0, 7]) (mgr (dcc7)).dev)
    ∧ (Zeros budget0 4 55 ∧ Zeros (moveTo 0) 5 55 ∧ Zeros dccMake 7 55)
    ∧ budget0.u16 2 = 16000
    ∧ after (.engineCfg budget0) (wk { twill := { budgets := [(7, 0)] } }) (fun t => t.dev.budget 7 = 16000) = true
    ∧ ((wk (dcc7)).dev.inMove 7 15 = false ∧ (wk (dcc7)).dev.funcsOn 7 15 ≠ [] ∧ (wk (dcc7)).dev.engineFencedAny 7 0 = false
      ∧ (wk (dcc7)).dev.unitsOn 7 0 + (wk (dcc7)).dev.unitsOn 7 15 ≤ 1000 ∧ (wk (dcc7)).dev.bytesOn 7 0 + (wk (dcc7)).dev.bytesOn 7 15 ≤ 30720)
    ∧ after (.engineCfg (moveTo 0)) (wk { dcc7 with queues := [(qkey (.twIn 255), { items := [newItem 5 4 false] })] }) (fun t =>
        t.dev.twill.moves = [{ slice := 7, src := 15, dst := 0, job := 0 }] && (t.dev.queue (.twIn (engineId 1 7 15))).items = []) = true
    ∧ (wk (dcc7)).dev.bestEngine 7 ((wk (dcc7)).dev.unitsOn 7 15) ((wk (dcc7)).dev.bytesOn 7 15)
      (fun k => (wk (dcc7)).dev.eligible 7 k && decide (k ≠ 15) && !(wk (dcc7)).dev.inMove 7 k) = some 0
    ∧ after (.engineCfg (moveTo 0xFF)) (wk (dcc7)) (fun t => t.dev.twill.moves = [{ slice := 7, src := 15, dst := 0, job := 0 }]) = true
    ∧ after (.engineCfg (desc [2, 0, 7])) (mgr (dcc7)) (fun t => t.dev.dcc 7 = {}) = true
    ∧ (isOtn ((wk crcs).dev.port 63).format = true ∧ (wk crcs).dev.crcClaim 0 = false ∧ (wk crcs).dev.crcClaim 15 = false
      ∧ (wk crcs).dev.allocate 7 (dccLoad 2).1 (dccLoad 2).2 = some 0)
    ∧ after (.engineCfg dccMake) (wk crcs) (fun t => let y := t.dev.dcc 7
        y.made && y.port = 63 && y.channel = 2 && y.crcN = 15 && y.crcS = 0 && y.engine = some 0) = true
    ∧ after (.engineMoveDone 7 15) (on { dcc7 with twill := { (dcc7).twill with moves := [{ slice := 7, src := 15, dst := 3, job := 0 }, { slice := 6, src := 15, dst := 1, job := 1 }] } })
        (fun t => t.dev.twill.moves = [{ slice := 6, src := 15, dst := 1, job := 1 }] && (t.dev.dcc 7).engine = some 3) = true :=
  ⟨⟨served_worker (by decide), served_worker (by decide), served_worker (by decide), served_worker (by decide +kernel), served_mgr (by decide +kernel)⟩,
    ⟨zeros_of (by decide), zeros_of (by decide), zeros_of (by decide)⟩, by decide +kernel⟩

def msg5 : QItem := newItem 5 4 false

/-- Engine 255 with a message waiting since time 0, at a time. -/
def waitsMsg (now : Nat) : State := on { queues := [(qkey (.twIn 255), { items := [msg5] })], tsu := { elapsed := now } }

/-- A message of the host queue engine or of a cluster that waits for engine 255, whose queue holds `n` messages and which
waits on the host queue engine where its output queue holds `o` of 256. -/
def mxS (master n o : Nat) (held : Bool := false) : State := on {
  queues := [(qkey (.twIn 255), { items := List.replicate n msg5 }), (qkey (.twOut 255), { items := List.replicate o msg5 })]
  mx := { waiting := [{ master := master, target := 255, cls := 2, held := held, item := newItem 7 4 false }] } }

/-- Boundaries of R422: the last entry of an engine's queue, and its output queue with one entry free. -/
theorem witness_matrix :
    (mxS 1 1024 256).dev.engineWaits 255 = true ∧ (mxS 1 1024 255).dev.engineWaits 255 = false
    ∧ after (.twillMessage 255) (mxS 1 1024 256) (fun t => ((t.dev.queue (.twIn 255)).items.length = 1023) && (t.dev.mx.waiting.map fun x => x.held) = [true]
        && t.dev.reg 0x90004 = 1) = true
    ∧ after (.twillMessage 255) (mxS 1 1024 256 true) (fun t => t.dev.mx.waiting.length = 1 && t.dev.reg 0x90004 = 0) = true
    ∧ after (.twillMessage 255) (mxS 1 1024 255) (fun t => (t.dev.queue (.twIn 255)).items.drop 1022 = [msg5, newItem 7 4 false] && t.dev.mx.waiting = []) = true
    ∧ after (.twillMessage 255) (mxS 2 1024 256) (fun t => (t.dev.queue (.twIn 255)).items.drop 1022 = [msg5, newItem 7 4 false] && t.dev.mx.waiting = []) = true
    ∧ after (.twillMessage 255) (mxS 1 1 256) (fun t => (t.dev.queue (.twIn 255)).items = [newItem 7 4 false]) = true := by decide +kernel

/-- A second of a data channel by hand: two octets with their FCS, two whose FCS is wrong by a bit, a frame of two bytes, and an open
frame that an abort sequence ends, each with zero-bit insertion, between flags, the first bit of each octet its least significant one. -/
def hdlc : List Byte :=
  [0x7E, 0xFB, 0xA1, 0x46, 0x79, 0xF5, 0x14, 0x9F, 0xA0, 0x90, 0x98, 0x0C, 0xA5, 0x83, 0x1F, 0xA0, 0x90, 0x9F, 0x80, 0x3F, 0xFF]

theorem witness_enginesWork :
    ((waitsMsg 0).dev.qDead (.twIn 255) = false ∧ (waitsMsg 0).dev.mx.waiting = []
      ∧ ((waitsMsg 0).dev.queue (.twIn 255)).items.all (fun x => x.good && parityOk x.d x.c) = true)
    ∧ after (.twillMessage 255) (waitsMsg 0) (fun t => (t.dev.queue (.twIn 255)).items = []) = true
    ∧ after (.twStall 255) (waitsMsg 2000000) (fun t => t.dev.fenced (srcOf 9 255) && bit (t.dev.reg (aEng 255 4)) 3) = true
    ∧ keeps (.twStall 255) (waitsMsg 1999999) = true
    ∧ after (.dccSecond 7 hdlc [] false false) (on { dcc7 with regs := allRings }) (fun t => !(t.dev.dcc 7).suspect && t.dev.host.out.any fun x => match x with
        | .stats _ _ _ _ b => (b.take 8 = [0x41, 1, 7, 2, 63, 1, 0, 0] && (b.drop 16).take 16 = [1, 0, 0, 0, 1, 0, 0, 0, 2, 0, 0, 0, 2, 0, 0, 0])
        | _ => false) = true := by decide +kernel

/-! ### Security processor -/

/-- A descriptor with BULK: the host address 16 and the length of its buffer. -/
def bulkOf (n : Nat) : Desc := { ring := 0, flags := 1, body := le 8 16 ++ le 4 n ++ List.replicate 44 0 }

theorem served_bulk {op : Nat} {n : Nat} (d : Dev) (x : Byte) (hw : (bulkOf n).u32 8 = n) (hz : ((bulkOf n).zeros 12 55).2 = true)
    (hb : 56 ≤ n ∧ n ≤ 65536) (hd : d.worker = true ∧ d.life = .running ∧ d.plane.frozen = false) :
    Served op (bulkOf n) d true (.data (List.replicate n x)) := by
  refine ⟨?_, hd.2.1, ?_, .inl hd.1⟩
  · simp [Desc.wf, bulkOf, le]
  · have hf : (bulkOf n).bulk = true := by simp [Desc.bulk, bulkOf]
    have h1 : (bulkOf n).flags = 1 := rfl
    simp [Dev.header, hf, hw, hz, hd.1, hd.2.2, h1, List.length_replicate]
    omega

/-- The buffers of ATTEST and of both forms of KEY_ADMIN are of the lengths of log entry 46. -/
theorem witness_security_bulk :
    Served 0x90 (bulkOf 50368) (wk).dev true (.data (List.replicate 50368 0)) ∧ (List.replicate 50368 (0 : Byte)).length = 50368
    ∧ Served 0x91 (bulkOf 432) (wk).dev true (.data (List.replicate 432 0)) ∧ (List.replicate 432 (0 : Byte)).length = 432
    ∧ Served 0x91 (bulkOf 29968) (wk).dev true (.data (List.replicate 29968 1)) ∧ (List.replicate 29968 (1 : Byte)).length = 29968 :=
  ⟨served_bulk _ _ (by decide) (by decide) (by omega) (by decide), List.length_replicate,
    served_bulk _ _ (by decide) (by decide) (by omega) (by decide), List.length_replicate,
    served_bulk _ _ (by decide) (by decide) (by omega) (by decide), List.length_replicate⟩

def secS (x : Sec) : State := on { sec := x }
def admin (b : List Byte) : SecJob := { job := 0, work := .keyAdmin b, addr := 16 }

/-- A KEY_ADMIN and an attestation wait; the attestation ends. -/
theorem witness_securityServes :
    after .secServiceStart (secS { waiting := [admin [0], admin [1]] }) (fun t => t.dev.sec.service = some (admin [0]) && t.dev.sec.waiting = [admin [1]]) = true
    ∧ after .secServiceStart (secS { waiting := [{ job := 3, work := .attest [] }] }) (fun t => t.dev.sec.waiting = []
        && match t.dev.sec.service with | some y => y.job = 3 && y.work = .attest [] | none => false) = true
    ∧ after .attestDone (on { host := { jobs := [{ id := 3, desc := desc [] }] }, sec := { service := some { job := 3, work := .attest [] } } }) (fun t =>
        t.dev.sec.service = none && t.dev.host.jobs.isEmpty) = true := by decide +kernel

/-- A key that no ACTIVE slot's owner gives: ENROL into the last slot, and the advance of the counter to the image's SVN. -/
def enrol (auth : Byte) : List Byte := [1, 3, auth] ++ List.replicate 429 0
def advance (v : Byte) : List Byte := [3, 0, 0xFF, 0, 0, 0, 0, 0, v] ++ List.replicate 423 0

theorem witness_keyAdmin :
    after (.keyAdminDone true) (secS { service := some (admin [0]) }) (fun t => t.dev.sec.service = none && t.dev.sec.chal = 0 && t.dev.sec.slotSt = [0, 0, 0, 0]) = true
    ∧ ({} : Sec).adminReason (enrol 0xFF) = 0
    ∧ after (.keyAdminDone true) (secS { service := some (admin (enrol 0xFF)) }) (fun t => t.dev.sec.slotSt = [0, 0, 0, 1] && t.dev.sec.chal = 1 && t.dev.sec.counter = 0) = true
    ∧ after (.keyAdminDone false) (secS { service := some (admin (enrol 0xFF)) }) (fun t => t.dev.sec.slotSt = [0, 0, 0, 0] && t.dev.sec.chal = 1 && t.dev.sec.counter = 0) = true
    ∧ ({} : Sec).adminReason (enrol 0) = 2
    ∧ after (.keyAdminDone true) (secS { service := some (admin (enrol 0)) }) (fun t => t.dev.sec.slotSt = [0, 0, 0, 0] && t.dev.sec.chal = 0) = true
    ∧ ({ slotSt := [0, 0, 0, 2] } : Sec).adminReason (enrol 0xFF) = 4
    ∧ after (.keyAdminDone true) (secS { service := some (admin (enrol 0xFF)), slotSt := [0, 0, 0, 2] }) (fun t => t.dev.sec.slotSt = [0, 0, 0, 2] && t.dev.sec.chal = 1) = true
    ∧ ({ svn := 9 } : Sec).adminReason (advance 9) = 0 ∧ ({ svn := 9 } : Sec).adminReason (advance 10) = 6 ∧ ({ svn := 9, counter := 9 } : Sec).adminReason (advance 9) = 6
    ∧ ({ svn := 9, used := 127 } : Sec).adminReason (advance 9) = 0 ∧ ({ svn := 9, used := 128 } : Sec).adminReason (advance 9) = 7
    ∧ after (.keyAdminDone true) (secS { service := some (admin (advance 9)), svn := 9, counter := 8, used := 127 }) (fun t => t.dev.sec.counter = 9
        && t.dev.sec.used = 128 && bit (t.dev.reg 0x80040) 1) = true
    ∧ after (.keyAdminDone false) (secS { service := some (admin (advance 9)), svn := 9, counter := 8 }) (fun t => t.dev.sec.counter = 8 && t.dev.sec.used = 2) = true := by
  decide +kernel

/-- A step that advances the counter. -/
theorem witness_otpNeverGoesBack :
    (match step { secS { service := some (admin (advance 9)), svn := 9 } with pending := [.keyAdminDone true] } with
      | .next t => decide (t.dev.sec.counter = 9) && decide (t.dev.sec.used = 2) | _ => false) = true := by decide +kernel

/-! ### Storage, faults and fences -/

/-- The last word of the merge bank 63, of packet bank 63 and of the instruction store of engine 255, each holding 5. -/
def stored (n a : Nat) (p : Bool := false) (d : Dev := {}) : State := { on d with mem := putWord [] n a 5 p }

def sees (s : State) (n a : Nat) (u : BitVec 72) : Ecc := eccOf (syndrome (flipWord s.mem n a u) n a)

theorem witness_storage :
    ((stored 63 262143).dev.memFenced (.merge 63) = false ∧ (stored 63 262143).dev.armMask (srcOf 11 63) 0 262143 = 0 ∧ 0x3FFFF % memWords (.packet 63) = 131071)
    ∧ sees (stored 63 262143) 63 262143 0 = .clean ∧ sees (stored 63 262143) 63 262143 (2 ^ 63) = .data 63 ∧ sees (stored 63 262143) 63 262143 (2 ^ 71) = .checkOnly
    ∧ sees (stored 63 262143 true) 63 262143 0 = .poison ∧ sees (stored 63 262143) 63 262143 3 = .bad
    ∧ after (.storageRead (.merge 63) 0x3FFFF 0) (stored 63 262143) (fun t => t.mem = (stored 63 262143).mem && t.dev.host.out = [.word (srcOf 11 63) 5 (parity 5) false]) = true
    ∧ after (.storageRead (.merge 63) 0x3FFFF (2 ^ 63)) (stored 63 262143) (fun t => t.mem = (stored 63 262143).mem && t.dev.host.out.head? = some (.word (srcOf 11 63) 5 (parity 5) false)
        && bit (t.dev.reg (fwBase (srcOf 11 63))) 0) = true
    ∧ after (.memoryScrub (.merge 63) 0x3FFFF (2 ^ 71)) (stored 63 262143) (fun t => t.mem = (stored 63 262143).mem && bit (t.dev.reg (fwBase (srcOf 11 63))) 0) = true
    ∧ after (.storageRead (.packet 63) 0x3FFFF 1) (stored (64 + 63) 131071) (fun t => t.mem = (stored (64 + 63) 131071).mem
        && t.dev.host.out.head? = some (.word (srcOf 12 63) 5 (parity 5) false)) = true
    ∧ after (.storageRead (.merge 63) 0x3FFFF 0) (stored 63 262143 true) (fun t => t.mem = (stored 63 262143 true).mem && t.dev.host.out.contains (.word (srcOf 11 63) 5 (parity 5) true)) = true
    ∧ keeps (.memoryScrub (.merge 63) 0x3FFFF 0) (stored 63 262143 true) = true
    ∧ after (.storageRead (.merge 63) 0x3FFFF 3) (stored 63 262143) (fun t => t.dev.fenced (srcOf 11 63) && wordData t.mem 63 262143 = 6
        && t.dev.host.out.contains (.word (srcOf 11 63) 6 (parity 6) true)) = true
    ∧ after (.memoryScrub (.twInstr 255) 2047 3) (stored (160 + 255) 2047) (fun t => t.dev.fenced (srcOf 9 255) && wordData t.mem (160 + 255) 2047 = 6) = true := by decide +kernel

def recC : FaultRec := { source := BitVec.ofNat 16 (srcOf 11 63), cls := 1, checker := 0, addr := 9, master := 0xFE, access := 0 }
def recU : FaultRec := { recC with source := BitVec.ofNat 16 (srcOf 13 31), cls := 2, checker := 11 }

/-- A report into an empty window, into a full one, and the greatest checker whose class U fences. -/
theorem witness_faultReports :
    recordOk recC = true ∧ recordOk recU = true ∧ (on).dev.pairBad recC = false
    ∧ after (.faultReport recC [] true) (on) (fun t => bit (t.dev.reg (fwBase (srcOf 11 63))) 0 && t.dev.reg (fwBase (srcOf 11 63) + 4) = capInfo recC) = true
    ∧ after (.faultReport recC [] true) (on { regs := [(fwBase (srcOf 11 63) + 4, 1)] }) (fun t => bit (t.dev.reg (fwBase (srcOf 11 63))) 0
        && t.dev.reg (fwBase (srcOf 11 63) + 4) = 1) = true
    ∧ after (.faultReport recU [] false) (on) (fun t => t.dev.fenced (srcOf 13 31)) = true
    ∧ (on { wires := [(srcOf 11 63, 1)] }).dev.pairBad recC = true
    ∧ after (.faultReport recC [] true) (on { wires := [(srcOf 11 63, 1)] }) (fun t => t.dev.reports = [{ r := recC, at_ := t.dev.stamp }]
        && t.dev.reg (fwBase (srcOf 11 63) + 4) = 0) = true
    ∧ wired 0x1000 = true ∧ wired 0 = false
    ∧ after (.wireFault 0x1000 2) (on) (fun t => tget 0 t.dev.wires 0x1000 = 4 && t.dev.plane.fences.isEmpty && bit (t.dev.reg 0x40040) 3) = true
    ∧ after (.wirePairValid 0x1000 2) (on { wires := [(0x1000, 7)] }) (fun t => tget 0 t.dev.wires 0x1000 = 3) = true
    ∧ after (.wirePairValid (BitVec.ofNat 16 (srcOf 11 63)) 0) (on { wires := [(srcOf 11 63, 1)], reports := [{ r := recC, at_ := 2 ^ 32 + 7 }, { r := recU, at_ := 5 }] })
        (fun t => t.dev.reports = [{ r := recU, at_ := 5 }] && t.dev.reg 0x40044 = capInfo recC && t.dev.reg 0x40050 = 7 && t.dev.reg 0x40054 = 1) = true := by
  decide +kernel

theorem witness_wholeBlocks :
    after (.collectorMismatch ⟨0xFFFF, 1⟩) (on { plane := { fences := [(0xF001, true)], resync := some { plane := 1, why := .unfence, job := 0 } } }) (fun t =>
        t.dev.plane.frozen && t.dev.planeState = 3 && t.dev.plane.frozenFrom = 1 && t.dev.plane.resync = none && t.dev.plane.unfence = none) = true
    ∧ (on).dev.armMask 0 15 0 = 0 ∧ after (.collectorMismatch ⟨0, 0⟩) (on) (fun t => !t.dev.plane.frozen) = true
    ∧ (on).dev.armMask 0x1000 0 0 = 0 ∧ keeps (.lockstepDisagreement { diff := 0 }) (on { tsu := { st := 2, sel := some 64 } }) = true
    ∧ after (.lockstepDisagreement { diff := 1, equal := List.replicate 302 true }) (on { tsu := { st := 2, sel := some 64, hist := List.replicate 302 3 } }) (fun t =>
        t.dev.tsu.st = 3 && t.dev.tsu.sel = none) = true
    ∧ after (.lockstepDisagreement { diff := 1, equal := List.replicate 301 true }) (on { tsu := { st := 2, sel := some 64, hist := List.replicate 301 3 } }) (fun t =>
        t.dev.tsu.st = 0) = true
    ∧ after (.lockstepDisagreement { diff := 1, equal := List.replicate 300 true }) (on { tsu := { st := 4, hist := List.replicate 300 3 } }) (fun t =>
        t.dev.tsu.st = 3 && t.dev.tsu.sel = none) = true
    ∧ after (.lockstepDisagreement { diff := 1, equal := List.replicate 299 true }) (on { tsu := { st := 2, sel := some 64, hist := List.replicate 300 3 } }) (fun t =>
        t.dev.tsu.st = 0 && t.dev.tsu.sel = none) = true
    ∧ ((on).dev.planeFenced 0 = false ∧ (on).dev.planeFenced 1 = false)
    ∧ (on).dev.forkFeeds 63 0 = true ∧ (on { plane := { fences := [(srcOf 14 7, true)] } }).dev.forkFeeds 63 0 = false
    ∧ keeps (.forkStall 63 0) (on { plane := { fences := [(srcOf 14 7, true)] } }) = true
    ∧ after (.forkStall 63 0) (on) (fun t => tget false t.dev.plane.forkStopped 63 && t.dev.planeFenced 0 && !t.dev.planeFenced 1 && t.dev.plane.preferred = 1) = true := by
  decide +kernel

/-- FAULT_ACTION on a unit, with its OP and ALLOW. -/
def act (op allow : Byte) (u : Nat) : Desc := descAt [(0, [op, allow] ++ le 2 u)]
def fenced (us : List Nat) : Dev := { plane := { fences := us.map fun u => (u, true) } }

theorem witness_faultAction :
    (Served 0x80 (act 0 0 0xF001) (wk).dev ∧ Served 0x80 (act 0 0 (srcOf 9 255)) (wk).dev ∧ Served 0x80 (act 0 1 (srcOf 11 63)) (wk (fenced [srcOf 11 31])).dev
      ∧ Served 0x80 (act 1 0 (srcOf 14 15)) (wk (fenced [srcOf 14 7, srcOf 14 15])).dev ∧ Served 0x80 (act 1 0 0xF000) (wk (fenced [0xF000])).dev)
    ∧ (Zeros (act 0 0 0xF001) 5 55 ∧ Zeros (act 0 1 (srcOf 11 63)) 5 55)
    ∧ fenceable 0xF001 = true ∧ fenceable (srcOf 9 255) = true ∧ fenceable (srcOf 11 63) = true ∧ fenceable (srcOf 14 15) = true
    ∧ ((wk).dev.planeState = 0 ∧ (wk).dev.fenced (partner (srcOf 9 255)) = false ∧ (wk).dev.carrier = none)
    ∧ after (.faultAction (act 0 0 0xF001)) (wk) (fun t => t.dev.fenced 0xF001) = true
    ∧ after (.faultAction (act 0 0 (srcOf 9 255))) (wk) (fun t => t.dev.fenced (srcOf 9 255) && t.dev.planeState = 0) = true
    ∧ after (.faultAction (act 0 1 (srcOf 11 63))) (wk (fenced [srcOf 11 31])) (fun t => t.dev.fenced (srcOf 11 63) && t.dev.planeState = 0) = true
    ∧ (wk (fenced [srcOf 14 7, srcOf 14 15])).dev.planeFenced (planeOf (srcOf 14 15)) = false
    ∧ after (.faultAction (act 1 0 (srcOf 14 15))) (wk (fenced [srcOf 14 7, srcOf 14 15])) (fun t =>
        t.dev.plane.unfence = some { unit := srcOf 14 15, job := 0, restart := true }) = true
    ∧ ((wk (fenced [0xF000])).dev.pkgOf 0).map (fun k => (k.id, k.ver)) = ((wk (fenced [0xF000])).dev.pkgOf 1).map (fun k => (k.id, k.ver))
    ∧ after (.faultAction (act 1 0 0xF000)) (wk (fenced [0xF000])) (fun t => t.dev.plane.resync = some { plane := 0, why := .unfence, job := 0 }) = true :=
  ⟨⟨served_worker (by decide), served_worker (by decide), served_worker (by decide), served_worker (by decide), served_worker (by decide)⟩,
    ⟨zeros_of (by decide), zeros_of (by decide)⟩, by decide +kernel⟩

/-- A unit, or a plane, that returns while a word of the store given holds 5. -/
def returnsU (u n : Nat) (restart : Bool := false) : State :=
  stored n 262143 false { plane := { fences := [(u, true)], unfence := some { unit := u, job := 0, restart := restart } } }
def returnsP (why : ResyncFor) : State := stored 63 262143 false { plane := { fences := [(0xF000, true)], resync := some { plane := 0, why := why, job := 0 } } }

theorem witness_returns :
    eccOf (syndrome (returnsU (srcOf 11 0) 32).mem 32 262143) = .clean ∧ srcInst (partner (srcOf 11 0)) = 32
    ∧ after (.unfenceDone {}) (returnsU (srcOf 11 0) 32) (fun t => t.dev.plane.unfence = none && !t.dev.fenced (srcOf 11 0) && wordData t.mem 0 262143 = 5) = true
    ∧ after (.unfenceDone {}) (returnsU (srcOf 14 15) 0 true) (fun t => t.dev.plane.unfence = none && !t.dev.fenced (srcOf 14 15)) = true
    ∧ (let s := returnsU (srcOf 11 0) 32
       let b : ReadBack := { addr := 0x3FFFF, upset := 3 }
       let m := unitUpset b (srcOf 11 0) (unitStores (srcOf 11 0) false s.dev s.mem).2
       (memSource (.merge 0)).1 = srcOf 11 0 ∧ 262143 ∈ listedWords m 0 ∧ eccOf (syndrome m 0 262143) = .bad
       ∧ after (.unfenceDone b) s (fun t => t.dev.plane.unfence = none && t.dev.fenced (srcOf 11 0)) = true)
    ∧ backQueue (srcOf 14 8) (.slice 0 0 0) = true ∧ ((newItem 5 1 false).upset { c := 1 }).good = false
    ∧ after (.unfenceDone { queue := some (.slice 0 0 0), flip := { c := 1 } }) (on { (returnsU (srcOf 14 8) 0).dev with
        queues := [(qkey (.slice 0 0 0), { items := [newItem 5 1 false] })] }) (fun t => t.dev.plane.unfence = none && t.dev.fenced (srcOf 14 8)) = true
    ∧ after (.resyncComplete true) (returnsP .unfence) (fun t => t.dev.plane.resync = none && t.dev.planeFenced 0 && t.mem = (returnsP .unfence).mem) = true
    ∧ after (.resyncComplete false) (returnsP .unfence) (fun t => t.dev.plane.resync = none && !t.dev.planeFenced 0 && wordData t.mem 31 262143 = 5) = true
    ∧ after (.resyncComplete false) (returnsP .handover) (fun t => t.dev.plane.resync = some { plane := 0, why := .handover, job := 0, copied := true }
        && t.dev.planeFenced 0) = true
    ∧ configBad 1 (returnsP .unfence).mem = false
    ∧ (let s := on { (returnsP .unfence).dev with ports := [(2, { lanes := 2, format := 2, astate := .aligned })] }
       s.dev.enabledPorts = [2] ∧ after (.resyncComplete false) s (fun t => (t.dev.psel 2).joining = some 0) = true)
    ∧ (let s := { returnsP .unfence with mem := putWord [] 673 0 5 true }
       configBad 1 s.mem = true ∧ after (.resyncComplete false) s (fun t => t.dev.plane.resync = none && t.dev.planeFenced 0 && t.mem = s.mem) = true) := by decide +kernel

/-! ### The host interface -/

/-- A manager with a descriptor to take, in FROZEN. -/
def frozenMgr : State := mgr { plane := { frozen := true } }

/-- A NOP with the SEQ, FLAGS and first bytes given. -/
def nopOf (seq : Word) (flags : Byte) (b : List Byte := []) : Desc := { ring := 0, seq := seq, flags := flags, body := (b ++ List.replicate 56 0).take 56 }

/-- The completion that the manager writes is the first entry, with the status and resource given, and the slot is the host's again. -/
def ended (op : Nat) (c : Desc) (x : Done) (t : State) : Bool :=
  t.dev.host.out.contains (.completion 4 0 { opcode := op, status := x.status, tag := c.tag, seq := c.seq, body := c.body, resKind := x.kind, resPart := x.part
                                             device := 0, resId := x.id, sec := 0, ns := 0, ring := 0, phase := true })
    && t.dev.host.jobs.isEmpty && decide (t.dev.ringCi 0 = 1) && decide (t.dev.reg (aRing 0 0x18) = c.seq + 1)

/-- Boundaries of R376: SEQ one off, each reserved flag, BULK, an absent worker, FROZEN, the first and the last byte of a NOP, a present worker. -/
theorem witness_headers :
    ((mgr).dev.ready (nopOf 0 0) = true ∧ frozenMgr.dev.ready (nopOf 0 0) = true ∧ (mgr).dev.reg (aRing 0 0x18) = 0)
    ∧ after (.nop (nopOf 1 0)) (mgr) (fun t => ended 1 (nopOf 1 0) { status := 1, kind := 0x27, id := 0 } t && bit (t.dev.reg (aHq 8)) 0 && t.dev.reg (aRing 0 0x1C) = 1) = true
    ∧ after (.unknownOpcode 0x99 (nopOf 0 0)) (mgr) (ended 0x99 (nopOf 0 0) (refusedDone)) = true
    ∧ after (.nop (nopOf 0 4)) (mgr) (ended 1 (nopOf 0 4) (refusedDone)) = true ∧ after (.nop (nopOf 0 0x80)) (mgr) (ended 1 (nopOf 0 0x80) (refusedDone)) = true
    ∧ after (.nop (nopOf 0 1)) (mgr) (ended 1 (nopOf 0 1) (refusedDone)) = true
    ∧ (mgr).dev.present 7 = false ∧ (nopOf 0 0x70).dest = 7
    ∧ after (.nop (nopOf 0 0x70)) (mgr) (ended 1 (nopOf 0 0x70) (refusedDone)) = true
    ∧ after (.nop (nopOf 0 0)) frozenMgr (ended 1 (nopOf 0 0) notPermitted) = true
    ∧ after (.nop (nopOf 0 0)) (mgr) (ended 1 (nopOf 0 0) okDone) = true
    ∧ after (.nop (nopOf 0 0 [1])) (mgr) (ended 1 (nopOf 0 0 [1]) (refusedDone 0)) = true
    ∧ after (.nop (nopOf 0 0 (List.replicate 55 0 ++ [1]))) (mgr) (ended 1 (nopOf 0 0 (List.replicate 55 0 ++ [1])) (refusedDone 55)) = true
    ∧ after (.nop (nopOf 0 0x10)) (mgr { jersey := { links := [(1, { st := 7 })] } }) (fun t =>
        t.dev.host.jobs = [{ id := 0, op := 1, desc := nopOf 0 0x10, device := 1 }] && t.dev.reg (aRing 0 0x18) = 1) = true := by decide +kernel

/-- The rings of a manager, ring 8 having lost 3 entries and ring 4 holding one unread since time 0. -/
def rings (rs : Tab Ring) (regs : Tab Word := ringRegs) (now : Nat := 0) : State := mgr { host := { rings := rs, up := true }, tsu := { elapsed := now } } |> fun s =>
  { s with dev := { s.dev with regs := regs } }

/-- MSI-X is enabled, and vector 31 has its address and its data and is not masked. -/
def openMsix (s : State) : State := { s with dev.host.pci := { cfg := [(16, 0x80000000)], table := [(124, 1), (125, 2), (126, 3), (127, 0)] } }

theorem witness_rings :
    (on).dev.ringOn 10 = false
    ∧ after (.ringEnable .pf0 10 0x61) (on) (fun t => t.dev.ringOn 10 && t.dev.ringSize 10 = 64 && t.dev.ringPi 10 = 0 && t.dev.ringCi 10 = 0 && (t.dev.ring 10).phase) = true
    ∧ after (.ringEnable .pf0 0 0x101) (rings [(0, { fetchStop := true })] [(aRing 0 0x18, 9)]) (fun t => t.dev.ringSize 0 = 65536 && !(t.dev.ring 0).fetchStop
        && t.dev.reg (aRing 0 0x18) = 9) = true
    ∧ after (.ringEnable .pf0 8 0x61) (rings [(8, { lost := 3 })] []) (fun t => t.dev.ringPi 8 = 1 && (t.dev.ring 8).lost = 0
        && t.dev.host.out.contains (.event 8 0 0x1B01 0 true 0 0 0 (le 4 3))) = true
    ∧ (mgr).dev.ringOn 0 = true
    ∧ after (.ringEnable .pf0 0 0x100) (mgr) (fun t => t.dev.ringSize 0 = 64 && !t.dev.ringOn 0) = true
    ∧ after (.ringPiWrite .pf0 0 63) (mgr) (fun t => t.dev.ringPi 0 = 63) = true ∧ keeps (.ringPiWrite .pf0 0 64) (mgr) = true ∧ keeps (.ringPiWrite .pf0 4 0) (mgr) = true
    ∧ after (.ringCiWrite .pf0 4 63) (mgr) (fun t => t.dev.ringCi 4 = 63) = true ∧ keeps (.ringCiWrite .pf0 4 64) (mgr) = true ∧ keeps (.ringCiWrite .pf0 3 0) (mgr) = true
    ∧ after (.descriptorFetchError 0) (mgr) (fun t => (t.dev.ring 0).fetchStop && bit (t.dev.reg (aHq 8)) 1) = true
    ∧ after (.coalTimeExpiry 4) (rings [(4, { unread := [0] })] [(aRing 4 0x08, 0x021F0061), (aRing 4 0x0C, 5)] 5000) (fun t => t.dev.host.out = [] && t.dev.host.pci.pend = 0x80000000
        && (t.dev.ring 4).sent) = true
    ∧ (openMsix (rings [(4, { unread := [0, 0] })] [(aRing 4 0x08, 0x021F0061), (aRing 4 0x0C, 5)])).dev.msixOpen 31 = true
    ∧ after (.coalTimeExpiry 4) (openMsix (rings [(4, { unread := [0, 0] })] [(aRing 4 0x08, 0x021F0061), (aRing 4 0x0C, 5)])) (fun t =>
        t.dev.host.out = [.msix 31 0x200000001 3] && (t.dev.ring 4).sent) = true
    ∧ keeps (.coalTimeExpiry 4) (rings [(4, { unread := [0] })] [(aRing 4 0x08, 0x021F0061), (aRing 4 0x0C, 5)] 4999) = true := by decide +kernel

/-- Scope 1 on lane 63, with CLEAR and DUMP, into a buffer of the length given. -/
def snapOf (flags len : Byte) : Desc := descAt [(0, [1, flags, 63, 0, 63, 0]), (8, [16]), (16, [len])]

def laneCounts (s : State) : State := { s with dev := { s.dev with regs := s.dev.regs ++ [(aLane 63 0x10, 3), (aLane 63 0x1C, 9)] } }

theorem witness_snapshots :
    (Served 0x60 (snapOf 3 48) (laneCounts (mgr)).dev ∧ Served 0x60 (snapOf 0 0) (laneCounts (mgr)).dev ∧ Served 0x60 (snapOf 2 47) (laneCounts (mgr)).dev)
    ∧ (Zeros (snapOf 3 48) 28 55 ∧ Zeros (snapOf 0 0) 28 55 ∧ Zeros (snapOf 2 47) 28 55)
    ∧ (snapAddrs 1 0 63 63).length = 6
    ∧ after (.statsSnap (snapOf 3 48)) (laneCounts (mgr)) (fun t => t.dev.reg (aLane 63 0x10) = 0 && t.dev.reg (aLane 63 0x1C) = 0
        && match t.dev.host.snaps with | [x] => x.job = 0 && x.count = 6 && x.bytes.length = 48 | _ => false) = true
    ∧ after (.statsSnap (snapOf 0 0)) (laneCounts (mgr)) (fun t => t.dev.reg (aLane 63 0x10) = 3
        && match t.dev.host.snaps with | [x] => x.job = 0 && x.count = 6 && x.bytes = [] | _ => false) = true
    ∧ after (.statsSnap (snapOf 2 47)) (laneCounts (mgr)) (fun t => t.dev.host.snaps = [] && t.dev.reg (aLane 63 0x10) = 3
        && t.dev.host.out.any fun o => match o with | .completion _ _ c => c.status = 1 && c.body.drop 20 = le 4 6 ++ le 4 48 ++ List.replicate 28 0 | _ => false) = true
    ∧ after .statsSnapDone (mgr { host := { snaps := [{ job := 5, addr := 16, bytes := [7], count := 0 }], jobs := [{ id := 5, desc := desc [] }] } }) (fun t =>
        t.dev.host.snaps = [] && t.dev.host.jobs = [] && t.dev.host.out.contains (.hostMem 16 [7])) = true
    ∧ (let d : Desc := { ring := 0, tag := 9, seq := 8, body := [] }
       let s := mgr { jersey := { links := [(7, { st := 7 })] }, host := { jobs := [{ id := 0, op := 0x21, desc := d, device := 7 }] } }
       s.dev.present 7 = true ∧ s.dev.ringOn 4 = true
       ∧ after (.workerCompletion 7 { ring := 0, tag := 9, seq := 8, status := 5, body := [1] }) s (fun t => t.dev.host.jobs = []
          && t.dev.host.out.any fun o => match o with | .completion 4 0 c => c.opcode = 0x21 && c.status = 5 && c.device = 7 && c.body = [1] && c.seq = 8 | _ => false) = true) :=
  ⟨⟨served_mgr (by decide +kernel), served_mgr (by decide +kernel), served_mgr (by decide +kernel)⟩, ⟨zeros_of (by decide), zeros_of (by decide), zeros_of (by decide)⟩,
    by decide +kernel⟩

/-- An enabled port 63, a selector of scheme 3 and number 4095, in a device that runs. -/
def urg (p : PlaneSt := {}) (u : List Word := []) : State := on { ports := [(63, { lanes := 1, format := 7 })], sels := [(selKey 3 4095, some { work := 0, prot := 1 })], plane := p
                                                                  host := { urgent := u } }

/-- The word executed with a status. -/
def acted (st : Nat) (p : State → Bool) (t : State) : Bool := t.dev.host.urgLast = st && t.dev.host.urgDone = 1 && p t
def yes : State → Bool := fun _ => true

theorem witness_urgent :
    keeps (.freezePort .pf1 0 63) (urg) = true ∧ keeps (.forceSelector .pf1 0 0) (urg) = true ∧ keeps (.stopService .pf1 0 0) (urg) = true ∧ keeps (.forcePlane .pf1 0 0) (urg) = true
    ∧ after (.freezePort .pf0 0 63) (urg { frozen := true }) (acted 5 yes) = true ∧ after (.forcePlane .pf0 0 0) (urg { frozen := true }) (acted 5 yes) = true
    ∧ after (.freezePort .pf0 0 0x100003F) (urg) (acted 0 fun t => (t.dev.port 63).frozenUrg) = true ∧ after (.freezePort .pf0 0 63) (urg) (acted 0 fun t => !(t.dev.port 63).frozenUrg) = true
    ∧ after (.freezePort .pf0 0 0x7F) (urg) (acted 1 yes) = true ∧ after (.freezePort .pf0 0 62) (urg) (acted 1 yes) = true
    ∧ after (.forceSelector .pf0 0 0x7FFF) (urg) (acted 0 fun t => (t.dev.sel (selKey 3 4095)).any fun y => y.cmd = 1) = true
    ∧ after (.forceSelector .pf0 0 0x8FFF) (urg) (acted 1 yes) = true ∧ after (.forceSelector .pf0 0 0x7FFE) (urg) (acted 1 yes) = true
    ∧ after (.stopService .pf0 0 0x1000FFF) (urg) (acted 0 fun t => (t.dev.pq 4095).stopped) = true ∧ after (.stopService .pf0 0 0xFFF) (urg) (acted 0 fun t => !(t.dev.pq 4095).stopped) = true
    ∧ after (.forcePlane .pf0 0 1) (urg) (acted 0 fun t => t.dev.planeFenced 0) = true ∧ after (.forcePlane .pf0 0 0) (urg) (acted 0 fun t => t.dev.planeFenced 1) = true
    ∧ (urg { fences := [(0xF001, true)] }).dev.planeState = 1 ∧ after (.forcePlane .pf0 0 0) (urg { fences := [(0xF001, true)] }) (acted 1 yes) = true
    ∧ after (.forcePlane .pf0 0 0) (urg { fences := [(0xF001, true)], resync := some { plane := 1, why := .unfence, job := 0 } }) (acted 2 yes) = true
    ∧ after (.urgentUnknownCmd .pf0 0x50000000) (urg) (acted 1 yes) = true
    ∧ after (.urgentUnknownCmd .pf0 0) (urg {} (List.replicate 16 0)) (fun t => t.dev.host.urgent.length = 16 && t.dev.reg (aHq 0x48) = 1 && bit (t.dev.reg (aHq 8)) 4) = true := by
  decide +kernel

/-- A manager's ring 8 has lost 3 entries when its link goes. -/
def lostLink : State := rings [(8, { lost := 3 })]

theorem witness_pcie :
    lostLink.dev.awake = true
    ∧ [Instr.pcieLinkLoss, .perstN].all (fun i => after i lostLink fun t => !t.dev.host.up && t.dev.host.jobs = [] && (t.dev.ring 8).lost = 3 && !t.dev.ringOn 0
        && t.dev.reg (aRing 4 0x08) = resetOf (aRing 4 0x08)) = true
    ∧ [Instr.flr false, .d3hotEntry].all (fun i => after i lostLink fun t => t.dev.host.up && (t.dev.ring 8).lost = 3 && !t.dev.ringOn 0) = true
    ∧ after .perstN { lostLink with dev.host.pci := { cfg := [(1, 6), (65, 6)], table := [(0, 4)], pend := 1 }, dev.cfg.heldBack := [(0x10, 1), (2 ^ 26 + 0x10, 2)] }
        (fun t => t.dev.host.pci = {} && t.dev.cfg.heldBack = [(2 ^ 26 + 0x10, 2)]) = true
    ∧ after (.flr false) { lostLink with dev.host.pci := { cfg := [(1, 6), (65, 6)] } } (fun t => t.dev.host.pci.cfg = [(65, 6)]) = true
    ∧ after .pcieLinkLoss { lostLink with dev.host.pci := { cfg := [(1, 6), (65, 6)] } } (fun t => t.dev.host.pci.cfg = [(1, 6), (65, 6)]) = true
    ∧ after (.flr true) { lostLink with dev.host.pci := { cfg := [(1, 6), (65, 6)] } } (fun t => t.dev.host.pci.cfg = [(1, 6)] && t.dev.ringOn 0) = true
    ∧ after .pcieLinkLoss { lostLink with dev.worker := true, dev.host.jobs := [{ id := 0, desc := desc [] }] } (fun t => t.dev.host.jobs.length = 1) = true
    ∧ keeps (.flr true) lostLink = true
    ∧ after (.pcieLinkUp 5 4) (on) (fun t => t.dev.host.up && t.dev.host.gen = 5 && t.dev.host.width = 4) = true
    ∧ after (.pcieLinkUp 1 1) (on) (fun t => t.dev.host.up && t.dev.host.gen = 1 && t.dev.host.width = 1) = true ∧ keeps (.pcieLinkUp 1 3) (on) = true := by decide +kernel

/-! ### Registers, CRC units, configuration and windows -/

/-- QCFG and QTMO of lane 63's ingress queue, GL_SCRATCH, an RS register. -/
def qcfg : Nat := 0x10FD00
def qtmo : Nat := 0x10FD04
def named (a : Nat) (n : String) : Bool := (findReg a).any fun r => r.name = n

def regsOn (rs : Tab Word) (d : Dev := {}) : State := on { d with regs := rs }

/-- Boundaries of R403 to R411: shapes, alignment, windows, a value beyond a field's limit, the SEQ of an RS register, FROZEN and a commit pass. -/
theorem witness_registerWrites :
    keeps (.registerWrite .pf1 (.dw 0xF) 0x10FD04 5) (on) = true ∧ keeps (.aliasWrite .pf1 .set 0x10FD04 5) (on) = true ∧ keeps (.rsSeqClear .pf1 0x10FD04 5) (on) = true
    ∧ keeps (.registerWrite .pf0 .other 0x10FD04 5) (on) = true ∧ keeps (.registerWrite .pf0 (.dw 7) 0x10FD04 5) (on) = true
    ∧ keeps (.registerWrite .pf0 .qw 0x10FD04 5) (on) = true ∧ keeps (.registerWrite .pf0 (.dw 0xF) 0x10FD06 5) (on) = true
    ∧ findReg 0xFFFFFC = none ∧ keeps (.registerWrite .pf0 (.dw 0xF) 0xFFFFFC 5) (on) = true
    ∧ (named qtmo "QTMO" = true ∧ named qcfg "QCFG" = true ∧ plainName "QTMO" = true)
    ∧ ((findReg (aHq 8)).any (fun r => r.has .rs) = true ∧ (findReg qtmo).any (fun r => r.has .rs) = false ∧ (findReg qtmo).any (fun r => r.has .rwc) = true)
    ∧ after (.rsSeqClear .pf0 0x010008 0x0A000000) (regsOn [(aHq 8, 0x0A00001F)]) (fun t => t.dev.reg (aHq 8) = 0x0A000000) = true
    ∧ keeps (.rsSeqClear .pf0 0x010008 0x09000000) (regsOn [(aHq 8, 0x0A00001F)]) = true ∧ keeps (.aliasWrite .pf0 .clear 0x010008 0x0A00001F) (regsOn [(aHq 8, 0x0A00001F)]) = true
    ∧ aHq 8 = 0x010008
    ∧ (named (aPort 2 0x48) "DEF_HIST" = true ∧ (on).dev.groupShown (aPort 2 0x48) = false)
    ∧ keeps (.rsSeqClear .pf0 (BitVec.ofNat 24 (aPort 2 0x48)) 0) (regsOn [(aPort 2 0x48, 3)]) = true
    ∧ (let s := regsOn [(aPort 2 0x48, 3)] { ports := [(2, { lanes := 2, format := 2, astate := .aligned })], points := [(mpKeyOf 1 0 2, { role := 1 })] }
       s.dev.groupShown (aPort 2 0x48) = true ∧ after (.rsSeqClear .pf0 (BitVec.ofNat 24 (aPort 2 0x48)) 0) s (fun t => t.dev.reg (aPort 2 0x48) = 0) = true)
    ∧ after (.rsSeqClear .pf0 0x10FD04 7) (on { cfg := { busy := true } }) (fun t => t.dev.cfg.heldBack = [(qtmo, 7)] && t.dev.reg qtmo = 0) = true
    ∧ after (.rsSeqClear .pf0 0x010008 0x0A000000) (regsOn [(aHq 8, 0x0A00001F)] { cfg := { busy := true, heldBack := [(qtmo, 7)] } }) (fun t =>
        t.dev.cfg.heldBack = [(qtmo, 7), (0x10008, 0x0A000000)] && t.dev.reg (aHq 8) = 0x0A00001F) = true
    ∧ inHostq 0x010008 = true ∧ keeps (.registerWrite .mgr (.dw 0xF) 0x01004C 1) (on) = true
    ∧ after (.registerWrite .bar2 (.dw 0xF) 0x1FC 2) (on { host := { pci := { table := [(127, 1)] } } }) (fun t => t.dev.msixWord 127 = 0) = true
    ∧ after (.registerWrite .bar2 (.dw 0xF) 0x1F8 7) (on) (fun t => t.dev.msixWord 126 = 7) = true
    ∧ after (.registerWrite (.cfg false) (.dw 0xF) 64 0xFFFFFFFF) (on) (fun t => bit t.dev.msixCtl 31 && bit t.dev.msixCtl 30) = true
    ∧ keeps (.rsSeqClear .pf0 0x10FD04 7) (on { plane := { frozen := true } }) = true ∧ keeps (.aliasWrite .pf0 .set 0x10FD04 7) (on { plane := { frozen := true } }) = true
    ∧ after (.registerWrite .pf0 (.dw 0xF) 0x10FD04 0xFFFFFFFF00012345) (on) (fun t => t.dev.reg qtmo = 0x2345) = true
    ∧ after (.registerWrite .pf0 (.dw 0xF) 0x10FD00 0x10001001) (regsOn [(qcfg, 0x00050005)]) (fun t => t.dev.reg qcfg = 0x10000005) = true
    ∧ after (.aliasWrite .pf0 .set 0x10FD04 6) (regsOn [(qtmo, 3)]) (fun t => t.dev.reg qtmo = 7) = true
    ∧ after (.aliasWrite .pf0 .clear 0x10FD04 6) (regsOn [(qtmo, 3)]) (fun t => t.dev.reg qtmo = 1) = true
    ∧ after (.aliasWrite .pf0 .toggle 0x10FD04 6) (regsOn [(qtmo, 3)]) (fun t => t.dev.reg qtmo = 5) = true := by decide +kernel

/-- Unit 15 owned by master 17, and unit 0 by the host; a count one below its end. -/
def units : State := on { crc := [(0, { state := 0xFFFFFFFF, count := 0xFFFFFFFE }), (15, { poly := 3, state := 0xFF, owner := 17 })] }

/-- The states after bytes are those of R60 (CRC-32C and CRC-8). -/
theorem witness_crcUnits :
    (units.dev.masterDead 17 = false ∧ units.dev.crcOwns 15 17 = true ∧ units.dev.crcOwns 0 0 = true ∧ units.dev.crcOwns 15 16 = false)
    ∧ after (.data8 17 15 0x131) units (fun t => (t.dev.crcU 15).state = crcByte 3 0xFF 0x31 && (t.dev.crcU 15).count = 1 && t.dev.crcU 0 = units.dev.crcU 0) = true
    ∧ after (.data16 0 0 0x3231) units (fun t => (t.dev.crcU 0).state = crcByte 0 (crcByte 0 0xFFFFFFFF 0x31) 0x32 && (t.dev.crcU 0).count = 0xFFFFFFFF) = true
    ∧ after (.data32 0 0 0x34333231) units (fun t => (t.dev.crcU 0).count = 0xFFFFFFFF) = true
    ∧ after (.crcLoad 17 15 0x102) (regsOn [(aCrc 15 0, 0x1108), (aCrc 15 4, 0xABCDEF12)] units.dev) (fun t => (t.dev.crcU 15).poly = 2 && (t.dev.crcU 15).count = 0
        && (t.dev.crcU 15).state = 0xEF12) = true
    ∧ after (.crcLoad 1 0 8) units (fun t => (t.dev.crcU 0).poly = 0 && (t.dev.crcU 0).state = 0xFFFFFFFF && (t.dev.crcU 0).count = 0) = true
    ∧ keeps (.data8 16 15 0x31) units = true ∧ keeps (.crcLoad 16 15 0) units = true
    ∧ crcOf 0 [0x31, 0x32, 0x33, 0x34, 0x35, 0x36, 0x37, 0x38, 0x39] = 0xE3069283 := by decide +kernel

/-- The reference does not lie in the image, so that a state holds its own image's CRC. -/
theorem reference_outside_image : imageRegs.all (fun x => decide (x.1 ≠ 0x20004)) = true := by decide +kernel

theorem image_setReg (d : Dev) (w : Word) : (d.setReg 0x20004 w).configImage = d.configImage := by
  refine List.map_congr_left fun x hx => ?_
  rw [Dev.setReg_reg_ne _ _ (of_decide_eq_true (List.all_eq_true.mp reference_outside_image x hx))]

theorem witness_configuration :
    after (.cfgCommit .pf0) (on) (fun t => t.dev.cfg.busy && !t.dev.cfg.again) = true
    ∧ after (.cfgCommit .pf0) (on { cfg := { busy := true } }) (fun t => t.dev.cfg.busy && t.dev.cfg.again) = true
    ∧ after (.cfgCrcRefWrite .pf0 7) (on { cfg := { blocksValid := true, blocks := 1 } }) (fun t => t.dev.reg 0x20004 = 7 && !t.dev.cfg.blocksValid && t.dev.cfg.blocks = 0) = true
    ∧ keeps .cfgCommitDone (on) = true ∧ keeps .cfgScrubPass (on { cfg := { busy := true } }) = true := by decide +kernel

/-- The hypotheses of the scrubber's cases: the reference is the image's CRC, or is not. -/
theorem witness_scrubber (x : RegCrc) :
    (let d := ((on { cfg := x }).dev).setReg 0x20004 (imageCrc (on { cfg := x }).dev.configImage)
     imageCrc d.configImage = d.reg 0x20004 ∧ d.cfg = x ∧ d.life = .running)
    ∧ (let d := ((on { cfg := x }).dev).setReg 0x20004 (imageCrc (on { cfg := x }).dev.configImage + 1)
       imageCrc d.configImage ≠ d.reg 0x20004 ∧ d.cfg = x ∧ d.life = .running) := by
  refine ⟨⟨?_, rfl, rfl⟩, ?_, rfl, rfl⟩
  · rw [image_setReg, Dev.setReg_reg]
  · rw [image_setReg, Dev.setReg_reg]
    intro h
    simp at h

/-- The word 8063 of the LO table in both pages of plane N, and a merge word that TBL_SEL names. -/
def damask (a : Nat) : State := stored (128 + 15) a
def tblS (f : Tab Bool := []) : State := stored 63 262143 false { regs := [(0x100, 0x03F3FFFF), (0x104, 0x11111111), (0x108, 0x22222222)], plane := { fences := f } }

theorem witness_windows :
    tableSize 2 = 8064
    ∧ after (.xcTableRead .pf0 0x5F80) (on) (fun t => t.dev.xcTbl.data = 0 && !t.dev.xcTbl.poison && t.mem = []) = true
    ∧ damaskAt 0 2 8063 = (15, 1007) ∧ damaskAt 1 2 8063 = (15, 2031)
    ∧ (syndrome (damask 1007).mem (memNo (.damask 15)) 1007 = 0 ∧ (damask 1007).dev.fencedOrPlane (srcOf 13 15) = false ∧ (damask 1007).dev.shownPlane = 0)
    ∧ after (.xcTableRead .pf0 0x5F7F) (damask 1007) (fun t => t.dev.xcTbl.data = 5 && t.dev.xcTbl.check = secded 5 && !t.dev.xcTbl.poison) = true
    ∧ after (.xcTableRead .pf0 0xDF7F) (damask 2031) (fun t => t.dev.xcTbl.data = 5 && t.dev.xcTbl.check = secded 5) = true
    ∧ (tblS).dev.tblWord = some (.merge 63, srcOf 11 63, 262143) ∧ syndrome (tblS).mem (memNo (.merge 63)) 262143 = 0
    ∧ after (.tableWindowRead .pf0) (tblS) (fun t => t.dev.reg 0x104 = 5 && t.dev.reg 0x108 = 0 && t.dev.tbl.check = secded 5 && !t.dev.tbl.denied) = true
    ∧ (let s : State := { tblS with mem := putWord [] 63 262143 0x500000007 true }
       eccOf (syndrome s.mem (memNo (.merge 63)) 262143) = .poison
       ∧ after (.tableWindowRead .pf0) s (fun u => u.dev.tbl.poison && u.mem = s.mem && u.dev.hostRead .pf0 (.dw 0xF) 0x104 = (7, true)
          && u.dev.hostRead .pf0 (.dw 0xF) 0x3000108 = (5, true) && u.dev.hostRead .pf0 (.dw 0xF) 0x3000100 = (0x03F3FFFF, false)) = true)
    ∧ after (.tableWindowWrite .pf0) (tblS [(srcOf 11 63, true)]) (fun t => wordData t.mem 63 262143 = 0x2222222211111111 && !t.dev.tbl.denied) = true
    ∧ after (.tableWindowWrite .pf0) (tblS) (fun t => t.mem = (tblS).mem && t.dev.tbl.denied) = true
    ∧ (regsOn [(0x100, 0x30000000)]).dev.tblWord = none ∧ (regsOn [(0x100, 0x10020000)]).dev.tblWord = none
    ∧ after (.tableWindowRead .pf0) (regsOn [(0x100, 0x10020000)]) (fun t => t.dev.tbl.denied && t.dev.reg 0x104 = 0) = true
    ∧ after (.timeCapture .pf0) (on { tsu := { sec := 7, ns := 9 } }) (fun t => t.dev.tsu.capSec = 7 && t.dev.tsu.capNs = 9) = true := by decide +kernel

def fwU : Nat := fwBase (srcOf 11 63)

theorem witness_triggers :
    (named (fwU + 0x18) "FW_CTRL" = true ∧ named (fwU + 0x24) "FW_INJ_CTRL" = true ∧ fwU % 4 = 0 ∧ fwU < 2 ^ 24 - 64)
    ∧ after (.fwRearm .pf0 (BitVec.ofNat 16 (srcOf 11 63))) (regsOn [(fwU + 4, 0xFF)]) (fun t => t.dev.reg (fwU + 4) = 0xFE) = true
    ∧ (on).dev.injSource fwU = srcOf 11 63 ∧ (on).dev.armDenied fwU (srcOf 11 63) 0 0x80 = false ∧ (on).dev.armDenied fwU (srcOf 11 63) 1 0x80 = true
    ∧ (on).dev.armDenied fwU (srcOf 11 63) 0 0 = true
    ∧ after (.injArm .pf0 (BitVec.ofNat 16 (srcOf 11 63)) 0xFF1080) (on) (fun t => tget {} t.dev.arms (16 * srcOf 11 63) = { mask := 0x80, any := true, count := 255 }) = true
    ∧ after (.injArm .pf0 (BitVec.ofNat 16 (srcOf 11 63)) 0xFF0180) (on) (fun t => t.dev.arms = [] && bit (t.dev.reg (fwU + 0x24)) 15) = true
    ∧ after (.injArm .pf0 (BitVec.ofNat 16 (srcOf 11 63)) 0x80) (on { arms := [(16 * srcOf 11 63, { mask := 1, count := 1 })] }) (fun t => t.dev.arms = []) = true
    ∧ after (.calCfgWrite .pf0 1) (on { cal := { run := some run0, srcFail := true, fails := 4 } }) (fun t => t.dev.cal.run = none && !t.dev.cal.srcFail && t.dev.cal.fails = 0
        && t.dev.cal.i2c && bit (t.dev.reg aCalEvent) 1) = true
    ∧ after (.xcTickCfgWrite .pf0 999) (on) (fun t => t.dev.xc.newPhase = some 999) = true
    ∧ after (.xcTickCfgWrite .pf0 0) (on) (fun t => t.dev.xc.newPhase = none) = true := by decide +kernel

/-! ### Warm resets -/

def ranReset (b n : Nat) (p : State → Bool) (t : State) : Bool := t.dev.power.reset = some (b, n) && !t.dev.power.denied && p t

theorem witness_warmResets :
    after (.warmResetHostQueueEngine .pf0) (mgr) (ranReset 1 0 fun t => !t.dev.ringOn 0 && t.dev.host.jobs = []) = true
    ∧ after (.warmResetTsu .pf0) (on { tsu := { elapsed := 8, refs := [(69, { enable := true, st := 3 })], realign := [{ mask := 1, notBefore := 0, job := some 0 }, { mask := 2, notBefore := 0, job := none }] } })
        (ranReset 2 0 fun t => (t.dev.tref 69).st = 1 && (t.dev.tref 69).cause = 6 && t.dev.tsu.elapsed = 8 && t.dev.tsu.realign.all (fun x => x.job = none)) = true
    ∧ after (.warmResetCal .pf0) (on { cal := { run := some run0, srcFail := true, fails := 4 } }) (ranReset 3 0 fun t => t.dev.cal.run = none && !t.dev.cal.srcFail && t.dev.cal.fails = 0) = true
    ∧ ({ service := some (admin (advance 9)), svn := 9 } : Sec).writing = some (advance 9) ∧ ({ service := some (admin [1]) } : Sec).writing = none
    ∧ after (.warmResetSecurity .pf0) (secS { service := some (admin (advance 9)), svn := 9, waiting := [admin [0]] }) (ranReset 4 0 fun t => t.dev.sec.waiting = [admin [0]]
        && t.dev.sec.service = some (admin (advance 9)) && t.dev.sec.resetAfter) = true
    ∧ after (.warmResetSecurity .pf0) (secS { service := some (admin [1]), waiting := [admin [0]] }) (ranReset 4 0 fun t => t.dev.sec.waiting = [] && t.dev.sec.service = none) = true
    ∧ after (.warmResetSecurity .pf0) (secS { service := some { job := 3, work := .attest [] } }) (ranReset 4 0 fun t => t.dev.sec.service = none) = true
    ∧ after (.warmResetStatisticsDma .pf0) (on { host := { snaps := [{ job := 0, addr := 0, bytes := [], count := 0 }] } }) (ranReset 5 0 fun t => t.dev.host.snaps = []) = true
    ∧ after (.warmResetCrcUnit .pf0 15) units (ranReset 6 15 fun t => (t.dev.crcU 15).state = 0 && (t.dev.crcU 15).owner = 17 && t.dev.crcU 0 = units.dev.crcU 0) = true
    ∧ after (.warmResetLane .pf0 63) (on { lanes := [(63, { rate := 1, ctrl := 9, bstate := .locked })] }) (ranReset 7 63 fun t => (t.dev.lane 63).bstate = .cal) = true
    ∧ after (.warmResetLane .pf0 63) (on { lanes := [(63, { rate := 1, ctrl := 1, bstate := .locked })] }) (ranReset 7 63 fun t => (t.dev.lane 63).bstate = .acquire) = true
    ∧ after (.registerWrite .pf0 (.dw 0xF) 0x70040 0x8008) (on) (fun t => t.dev.power.denied && t.dev.power.reset = none) = true
    ∧ after (.registerWrite .pf0 (.dw 0xF) 0x70040 0x8000) (on) (fun t => t.dev.power.denied && t.dev.power.reset = none) = true
    ∧ after (.warmResetTsu .pf0) (on { power := { reset := some (3, 0) } }) (fun t => t.dev.power.resetNext && t.dev.power.reset = some (3, 0)) = true
    ∧ keeps .warmResetDone (on) = true
    ∧ after .warmResetDone (on { power := { reset := some (7, 63) } }) (fun t => t.dev.power.reset = none && t.dev.power.lastBlock = 7 && t.dev.power.lastInst = 63
        && bit (t.dev.reg 0x70008) 4) = true := by decide +kernel

/-! ### Jersey links -/

/-- Link 7 of a manager, and link 0 of a worker, at a time. -/
def jyM (l : JyLink) (now : Nat := 0) (regs : Tab Word := []) : State := on { jersey := { links := [(7, l)] }, tsu := { elapsed := now }, regs := regs }
def jyW (l : JyLink) (now : Nat := 0) : State := wk { jersey := { links := [(0, l)] }, tsu := { elapsed := now } }
def isL (j : Nat) (p : JyLink → Bool) (t : State) : Bool := p (t.dev.link j)

def oldMsg : JyMsg := { ty := 7, mseq := 5 }

/-- Headers by R428: FRAME 0 with no TIMING, with RDI, with TICK at 1,599 ns, one whose HCRC is not that of its bytes, and one without
MARKER. -/
def h0 : List Byte := jyHead 0 0
def hRdi : List Byte := jyHead 0 0x1000
def hTick : List Byte := jyHead 0 (0x800 + 1599)
def hBad : List Byte := h0.take 8 ++ [0, 0]
def hNone : List Byte := [0, 0, 0, 0] ++ h0.drop 4

/-- Boundaries of R429: MARKER opens a candidate, not twice in one frame; its check with its HCRC brings the receiver into frame; the
fourth errored header in a row ends it; a position beside the frame's is passed over; a slip ends it. -/
theorem witness_frames :
    (JyFrame.marked { head := h0 } = true ∧ JyFrame.hcrcOk { head := h0 } = true ∧ JyFrame.hcrcOk { head := hBad } = false ∧ JyFrame.marked { head := hBad } = true
      ∧ JyFrame.marked { head := hNone } = false ∧ JyFrame.hcrcOk { head := hNone } = true ∧ JyFrame.rdi { head := hRdi } = true ∧ JyFrame.tick { head := hTick } = true
      ∧ JyFrame.tickOffset { head := hTick } = 1599 ∧ h0.length = 10)
    ∧ after (.jyFrame 7 { pos := 9, head := h0 }) (jyM { st := 2, frameAt := some 0, cands := [5] }) (isL 7 fun l => !l.inFrame && l.cands = [5, 9] && l.scanFrom = 10) = true
    ∧ after (.jyFrame 7 { pos := 21255, head := h0 }) (jyM { st := 2, frameAt := some 0, cands := [5] }) (isL 7 fun l => l.inFrame && l.cands = [] && l.framePos = 21255) = true
    ∧ after (.jyFrame 7 { pos := 21255, head := hBad }) (jyM { st := 2, frameAt := some 0, cands := [5] }) (isL 7 fun l => !l.inFrame && l.cands = [] && l.scanFrom = 21256) = true
    ∧ after (.jyFrame 7 { pos := 42505, head := h0 }) (jyM { st := 2, frameAt := some 0, cands := [5] }) (isL 7 fun l => !l.inFrame && l.cands = [5] && l.scanFrom = 42506) = true
    ∧ after (.jyFrame 7 { pos := 9, head := h0 }) (jyM { st := 2, frameAt := some 0, cands := [5, 6] }) (isL 7 fun l => l.cands = [5, 6] && l.scanFrom = 0) = true
    ∧ after (.jyFrame 7 { head := hRdi }) (jyM { st := 7, frameAt := some 0, inFrame := true, bad := 3 }) (isL 7 fun l => l.bad = 0 && l.rdi) = true
    ∧ after (.jyFrame 0 { head := hTick }) (jyW { st := 7, frameAt := some 2000, inFrame := true } 2000) (isL 0 fun l => l.tickMark = some 401 && l.tickTime = some 0) = true
    ∧ after (.jyFrame 7 { head := hBad }) (jyM { st := 7, frameAt := some 0, inFrame := true, bad := 2 }) (fun t => isL 7 (fun l => l.bad = 3 && l.st = 7) t
        && t.dev.reg (aJy 7 0x14) = 1) = true
    ∧ after (.jyFrame 7 { head := hNone }) (jyM { st := 7, frameAt := some 0, inFrame := true, bad := 3 }) (isL 7 fun l => l.st = 1 && !l.inFrame) = true
    ∧ after (.jyFrame 7 { pos := 1, head := hNone }) (jyM { st := 7, frameAt := some 0, inFrame := true, bad := 3 }) (isL 7 fun l => l.st = 7 && l.bad = 3 && l.inFrame) = true
    ∧ after (.jyFrame 7 { head := h0 }) (jyM { st := 7, frameAt := some 0, inFrame := true, slipSeen := 1 }) (isL 7 fun l => l.st = 1 && !l.inFrame) = true := by
  decide +kernel

/-- R428: the frame that leaves a manager 1,599 ns after a tick, out of frame, and none 1,599 ns after the last one. -/
theorem witness_frameSent :
    (let s := on { jersey := { links := [(7, { st := 7, txFrame := 0xFFFF })] }, xc := { tick := 3, tickAt := 1 }, tsu := { elapsed := 1600 } }
     after (.jyFrame 7 { head := hNone }) s (fun t => isL 7 (fun l => l.txFrame = 0 && l.frameAt = some 1600) t && match t.dev.host.out with
       | .jyFrame 7 y 0 :: _ => y.frame = 0xFFFF && y.timing = 0x1000 + 0x800 + 1599 && y.ack = 0 && y.credit = 1024 && y.stream.length = 396
       | _ => false) = true)
    ∧ after (.jyFrame 7 { head := h0 }) (jyM { st := 7, frameAt := some 1 } 1600) (isL 7 fun l => l.txFrame = 0 && l.frameAt = some 1) = true
    ∧ after (.jyFrame 7 { head := h0 }) (jyM {}) (isL 7 fun l => l.txFrame = 0 && l.frameAt = none) = true := by decide +kernel

/-- Boundaries of R431 and R432: 20 µs, 1 ms, 100 µs. -/
theorem witness_links :
    after (.jyClockLocked 7) (jyM { st := 1, acqSince := 7 } 200000006) (isL 7 fun l => l.st = 2 && l.acqSince = 100000007) = true
    ∧ after (.jyClockLocked 7) (jyM { st := 2 }) (isL 7 fun l => l.st = 2) = true
    ∧ after (.jyInFrame 7) (jyM { st := 2, inFrame := true }) (isL 7 fun l => l.st = 3) = true ∧ after (.jyInFrame 7) (jyM { st := 2 }) (isL 7 fun l => l.st = 2) = true
    ∧ after (.jyHelloTimer 7) (jyM { st := 3 } 100000) (isL 7 fun l => l.helloAt = 100000) = true ∧ keeps (.jyHelloTimer 7) (jyM { st := 3 } 99999) = true
    ∧ after (.jyCdrLost 7) (jyM { st := 7, inFrame := true }) (isL 7 fun l => l.st = 1 && !l.inFrame) = true
    ∧ after (.jyRetransmitTimeout 7) (jyM { st := 7, unacked := [oldMsg] } 20000) (fun t => isL 7 (fun l => l.unacked = [{ oldMsg with sentAt := 20000 }]
        && l.txQ = [{ oldMsg with sentAt := 20000 }]) t && t.dev.host.out = [.jersey 7 { oldMsg with sentAt := 20000 }] && t.dev.reg (aJy 7 0x18) = 1) = true
    ∧ keeps (.jyRetransmitTimeout 7) (jyM { st := 7, unacked := [oldMsg] } 19999) = true
    ∧ after (.jyAckStall 7) (jyM { st := 7, unacked := [oldMsg] } 1000000) (isL 7 fun l => l.st = 1) = true ∧ keeps (.jyAckStall 7) (jyM { st := 7, unacked := [oldMsg] } 999999) = true
    ∧ after (.jyControlMessage 7 { mseq := 9, ty := 0xFF, ack := 6, credit := 0xFFFF }) (jyM { st := 7, rxSeq := 9, unacked := [oldMsg] }) (isL 7 fun l => l.credit = 4194240
        && l.rxSeq = 10 && l.unacked = []) = true
    ∧ after (.jyControlMessage 7 { mseq := 8, ty := 0xFF, ack := 5, credit := 0 }) (jyM { st := 3, rxSeq := 9 }) (isL 7 fun l => l.credit = 0 && l.rxSeq = 9) = true := by decide +kernel

/-- A boot of worker 7, whose link waits in BOOT since time 0. -/
def jyBoot (now : Nat := 0) : State := jyM { st := 4, bootAt := some 0 } now

theorem witness_jyBoot :
    after (.jyHello 7 true 7 true) (jyM { st := 4 }) (isL 7 fun l => l.peer = 15 && l.st = 4) = true
    ∧ after (.jyHello 7 false 7 true) (jyM { st := 3 }) (fun t => isL 7 (fun l => l.st = 5) t && bit (t.dev.reg (aJy 7 4)) 2) = true
    ∧ after (.jyHello 7 true 6 true) (jyM { st := 3 }) (isL 7 fun l => l.st = 5) = true
    ∧ after (.jyHello 7 true 7 true) (jyM { st := 3 }) (fun t => isL 7 (fun l => l.st = 7) t && bit (t.dev.reg (aJy 7 4)) 0) = true
    ∧ after (.jyHello 7 true 7 false) (jyM { st := 3 }) (isL 7 fun l => l.st = 4) = true
    ∧ (let s : State := { jyW { st := 3 } with dev := { (jyW { st := 3 }).dev with life := .bootFailed } }
       after (.jyHello 0 false 0 true) s (fun t => isL 0 (fun l => l.st = 4) t && t.dev.life = .booting) = true)
    ∧ (let s : State := { jyW { st := 6, txSeq := 9 } with dev := { (jyW { st := 6, txSeq := 9 }).dev with life := .bootFailed, jersey.bootBuf := [1] } }
       after (.jyHello 0 false 0 true) s (fun t => isL 0 (fun l => l.st = 4) t && t.dev.life = .booting && t.dev.jersey.bootBuf = []
         && t.dev.host.out.any fun o => match o with | .jersey 0 m => m.ty = 0x0B && m.mseq = 0 | _ => false) = true)
    ∧ after .jyBootStart (jyM { st := 4 } 8) (isL 7 fun l => l.bootAt = some 8) = true ∧ keeps .jyBootStart (jyBoot) = true
    ∧ after (.jyBootResult 7 0) (jyBoot) (fun t => isL 7 (fun l => l.st = 7 && l.bootReason = 0) t && bit (t.dev.reg (aJy 7 4)) 0 && bit (t.dev.reg (aJy 7 4)) 3) = true
    ∧ after (.jyBootResult 7 15) (jyBoot) (fun t => isL 7 (fun l => l.st = 6 && l.bootReason = 15) t && bit (t.dev.reg (aJy 7 4)) 4) = true
    ∧ after (.jyBootTimeout 7) (jyBoot 5000000000) (isL 7 fun l => l.st = 6 && l.bootReason = 1) = true ∧ keeps (.jyBootTimeout 7) (jyBoot 4999999999) = true
    ∧ after (.jyBootTimeout 0) (jyW { st := 4, bootAt := some 0 } 5000000000) (fun t => t.dev.life = .bootFailed && t.dev.sec.reasonA = 1) = true := by decide +kernel

/-- A manager that addresses the last register of worker 7, and a worker behind its link. -/
def rmt (a : Word := 0x70FFFFFC) (j : Jersey := {}) : State := on { jersey := { j with links := [(7, { st := 7 })] }, regs := [(0x120010, a), (0x120014, 9)] }

theorem witness_remote :
    ((rmt).dev.present 7 = true ∧ fld ((rmt).dev.reg 0x120010) 28 3 = 7 ∧ fld ((rmt).dev.reg 0x120010) 0 24 % 4 = 0)
    ∧ after (.remoteRead .pf0) (rmt) (fun t => t.dev.jersey.rmtBusy && !t.dev.jersey.rmtDenied && t.dev.jersey.rmtRead) = true
    ∧ after (.remoteWrite .pf0) (rmt) (fun t => t.dev.jersey.rmtBusy && !t.dev.jersey.rmtDenied && !t.dev.jersey.rmtRead) = true
    ∧ after (.remoteRead .pf0) (rmt 0x70000002) (fun t => !t.dev.jersey.rmtBusy && t.dev.jersey.rmtDenied && t.dev.reg 0x120014 = 0) = true
    ∧ after (.remoteWrite .pf0) (rmt 0x60000000) (fun t => !t.dev.jersey.rmtBusy && t.dev.jersey.rmtDenied && t.dev.reg 0x120014 = 9) = true
    ∧ keeps (.remoteResponse 5) (rmt) = true
    ∧ after (.remoteResponse 5) (rmt 0 { rmtBusy := true, rmtRead := true }) (fun t => !t.dev.jersey.rmtBusy && t.dev.reg 0x120014 = 5) = true
    ∧ after (.remoteResponse 5) (rmt 0 { rmtBusy := true }) (fun t => !t.dev.jersey.rmtBusy && t.dev.reg 0x120014 = 9) = true
    ∧ after (.remoteResponse 5) (rmt 0 { rmtBusy := true, rmtAlso := true, rmtNext := some (true, false) }) (fun t => t.dev.jersey.rmtBusy && !t.dev.jersey.rmtAlso
        && t.dev.jersey.rmtRead && t.dev.jersey.rmtNext = some (true, false)) = true
    ∧ after (.jyLinkRestart .pf0 7) (jyM { st := 5 }) (isL 7 fun l => l.st = 1) = true ∧ after (.jyLinkRestart .pf0 7) (jyM { st := 4 }) (isL 7 fun l => l.st = 4) = true
    ∧ after (.jyBuildWrite .pf0 0x80) (on) (isL 7 fun l => l.st = 1) = true ∧ after (.jyBuildWrite .pf0 0x80) (jyM { st := 5 }) (isL 7 fun l => l.st = 5) = true
    ∧ after (.jyBuildWrite .pf0 1) (jyM { st := 7 }) (isL 7 fun l => l.st = 0) = true
    ∧ after (.jyDelayExchange 7 (-9) ⟨5, 1⟩ ⟨6, 0⟩ 131060) (jyM { st := 7 }) (isL 7 fun l => l.delay = 65535) = true
    ∧ after (.jyDelayExchange 0 0 ⟨0xFFFF, -1⟩ ⟨6, 2⟩ 3) (jyW { st := 7, delay := 4, txSeq := 8 }) (fun t => isL 0 (fun l => l.delay = 4) t && t.dev.host.out.any fun o =>
        match o with | .jersey 0 m => m.ty = 0x0A && m.mseq = 8 && m.payload = List.replicate 10 0xFF ++ [6, 0, 2, 0, 0, 0, 0, 0, 0, 0] | _ => false) = true
    ∧ ((jyW { st := 7, delay := 4, txSeq := 8 }).dev.link 0).waiting = [] ∧ 30 ≤ ((jyW { st := 7 }).dev.link 0).credit
    ∧ after (.jyTime 0xFFFFFFFF 0 999999999 0xFFFF 0x1FFFF 15) (jyW { st := 7, rxSeq := 0xFFFF }) (fun t => isL 0 (fun l => l.delay = 65535 && l.rxSeq = 0) t
        && t.dev.jersey.ql = 15 && t.dev.xc.haveTick && t.dev.xc.tick = 0xFFFFFFFF && t.dev.timeNs = 0) = true
    ∧ after (.jyTime 7 0 0 1 9 15) (jyW { st := 7, delay := 4 }) (fun t => isL 0 (fun l => l.delay = 4) t && t.dev.xc.tick = 0) = true
    ∧ after (.jyTime 7 0 0 0 0 15) (jyW { st := 7, tickTime := some 20 }) (fun t => isL 0 (fun l => l.timeDiff = some 20) t && t.dev.timeNs = 0) = true
    ∧ after (.jyTime 7 0 0 0 0 15) (jyW { st := 7, tickTime := some 21, timeDiff := some 1 }) (fun t => isL 0 (fun l => l.timeDiff = some 21) t && t.dev.timeNs = 0) = true
    ∧ after (.jyTime 7 0 0 0 0 15) (jyW { st := 7, tickTime := some 21 }) (fun t => isL 0 (fun l => l.timeDiff = some 0) t && bit (t.dev.reg aTsuHist) 8
        && t.dev.timeNs = 2 ^ 48 * 1000000000 - 21) = true := by decide +kernel

/-! ### Supplies, resets and boot -/

/-- A device in a life, with OTP written. -/
def inLife (l : Life) (d : Dev := {}) : State := { on d with dev := { d with life := l, sec := { d.sec with slotSt := [1, 2, 0, 0], counter := 9, used := 3 } } }

def otpKept (t : State) : Bool := t.dev.sec.slotSt = [1, 2, 0, 0] && t.dev.sec.counter = 9 && t.dev.sec.used = 3

/-- Boundaries: a pulse of 999 ns and of 1 µs, straps of worker 0 and 7, a boot whose slots cannot be read or hold no header. -/
theorem witness_resets :
    keeps (.porNAssert 999) (inLife .running) = true
    ∧ after (.porNAssert 1000) (inLife .running { tap := .highz, lanes := [(1, { rate := 1 })] }) (fun t => otpKept t && t.dev.life = .por && t.dev.porLow && t.dev.tap = .highz && t.dev.lanes = []) = true
    ∧ keeps (.porNRelease true 7) (inLife .running { porLow := false }) = true
    ∧ after (.porNRelease true 0) (inLife .por) (fun t => t.dev.life = .strapBad && !t.dev.porLow && t.dev.worker) = true
    ∧ after (.porNRelease true 7) (inLife .por) (fun t => t.dev.life = .booting && t.dev.devid = 7 && (t.dev.link 0).st = 1) = true
    ∧ after (.porNRelease false 0) (inLife .por) (fun t => t.dev.life = .booting && !t.dev.worker) = true
    ∧ keeps .railUndervoltage (inLife .por) = true
    ∧ after .railUndervoltage (inLife .running { porLow := false, worker := true, devid := 7, regs := [(0x8, 1)] }) (fun t => t.dev.life = .railOff && otpKept t && t.dev.regs = []
        && t.dev.worker && t.dev.devid = 7) = true
    ∧ keeps .railRestored (inLife .running) = true ∧ after .railRestored (inLife .railOff { worker := true, devid := 7 }) (fun t => t.dev.life = .booting) = true
    ∧ after .railRestored (inLife .railOff { worker := true }) (fun t => t.dev.life = .strapBad) = true
    ∧ keeps (.bootDone {} {}) (inLife .running) = true
    ∧ after (.bootDone { readOk := false } { bytes := [0x51] }) (inLife .booting) (fun t => t.dev.life = .bootFailed && t.dev.sec.reasonA = 1 && t.dev.sec.reasonB = 2) = true
    ∧ keeps (.bootDone {} {}) (inLife .booting { worker := true, devid := 7, jersey := { links := [(0, { st := 4 })] } }) = true
    ∧ after (.bootDone {} {}) (inLife .booting { worker := true, devid := 7, jersey := { links := [(0, { st := 4 })], bootBuf := [0x51] } }) (fun t => t.dev.life = .bootFailed
        && (t.dev.link 0).st = 6 && (t.dev.link 0).bootReason = 2) = true
    ∧ (secS { service := some (admin (advance 9)), svn := 9, used := 3 }).dev.sec.writing = some (advance 9)
    ∧ after (.porNAssert 1000) (secS { service := some (admin (advance 9)), svn := 9, used := 3 }) (fun t => t.dev.sec.used = 4 && t.dev.sec.counter = 0
        && t.dev.sec.slotSt = [0, 0, 0, 0]) = true := by decide +kernel

/-- Port 63, SHED or KEEP, with its lane at RATE 1, in a supply state. -/
def sup (shed : Bool) (x : Power) (now : Nat := 0) : State := on { ports := [(63, { lanes := 1, format := 7, shed := shed, shedNow := decide (x.st = 3) && shed })], lanes := [(63, { rate := 1 })], power := x, tsu := { elapsed := now } }

theorem witness_supplies :
    ((sup true {}).dev.awake = true ∧ fld ((sup true {}).dev.reg 0x70000) 16 10 = 10 ∧ fld ((sup true {}).dev.reg 0x70000) 0 6 = 25)
    ∧ after .pwrWarnAssert (sup true {}) (fun t => t.dev.power.st = 1 && t.dev.power.warnPin && (t.dev.port 63).shedNow && bit (t.dev.reg 0x70008) 0) = true
    ∧ after .pwrWarnAssert (sup true { st := 3 }) (fun t => t.dev.power.st = 1 && t.dev.power.warnPin) = true
    ∧ after .pwrWarnAssert (sup true { st := 2 }) (fun t => t.dev.power.st = 2 && t.dev.power.warnPin) = true
    ∧ after .pwrWarnDeassert (sup true { st := 1, warnPin := true }) (fun t => t.dev.power.st = 3 && !t.dev.power.warnPin) = true
    ∧ after .pwrWarnDeassert (sup true { st := 2, warnPin := true }) (fun t => t.dev.power.st = 2) = true
    ∧ keeps .vcoreLow (sup true { st := 2 }) = true ∧ keeps .vcoreRestored (sup true { st := 1 }) = true
    ∧ after .vcoreLow (sup true {}) (fun t => t.dev.power.st = 2 && (t.dev.port 63).shedNow && bit (t.dev.reg 0x70008) 1 && t.dev.reg 0x70018 = 1) = true
    ∧ after .vcoreRestored (sup true { st := 2 }) (fun t => t.dev.power.st = 3) = true ∧ after .vcoreRestored (sup true { st := 2, warnPin := true }) (fun t => t.dev.power.st = 1) = true
    ∧ after .recoverHoldExpiry (sup true { st := 3 } 100000000) (fun t => t.dev.power.st = 0 && !(t.dev.port 63).shedNow && bit (t.dev.reg 0x70008) 2) = true
    ∧ keeps .recoverHoldExpiry (sup true { st := 3 } 99999999) = true
    ∧ (63 ∈ (sup false {}).dev.enabledPorts ∧ 63 ∈ (sup false {}).dev.portLanes 63)
    ∧ after (.keepAtRisk 2411) (sup false {}) (fun t => t.dev.power.tcell = 2411 && t.dev.power.keepRisk && bit (t.dev.reg 0x70008) 3) = true
    ∧ after (.keepAtRisk 2410) (sup false { keepRisk := true }) (fun t => !t.dev.power.keepRisk) = true ∧ after (.keepAtRisk 4095) (sup true {}) (fun t => !t.dev.power.keepRisk) = true
    ∧ after (.governorUpdate 3000 499 2411 1023) (sup false { inrush := false }) (fun t => t.dev.power.ceil = 5500 && t.dev.power.floor = 500 && t.dev.power.filler
        && t.dev.power.iEst = 30 && t.dev.power.vcore = 1023 && t.dev.power.keepRisk) = true
    ∧ after (.governorUpdate 409600 409400 0 0) (sup false {}) (fun t => t.dev.power.ceil = 409800 && t.dev.power.floor = 409400 && !t.dev.power.filler && t.dev.power.iEst = 4095) = true
    ∧ after (.tapInstruction .clamp) (on) (fun t => t.dev.tap = .clamp) = true := by decide +kernel

/-! ### Rules stated whole -/

/-- A byte with an even number of ones and its bit of C. -/
theorem witness_parity : weight (byteOf 0x0300 1) = 2 ∧ (parity 0x0300).getLsbD 1 = true ∧ (parity 0x0100).getLsbD 1 = false := by decide +kernel

theorem witness_popOfAnEmptyQueue :
    ((on).dev.queue (.laneIn 63)).items = [] ∧ keeps (.queuePop (.laneIn 63) {}) (on) = true ∧ (({} : QItem).tag = 0 ∧ ({} : QItem).c = 0xFF ∧ ({} : QItem).p = false) := by decide +kernel

end Sys2Proof.Tests
end

section
/-! SUPPORT. What a command's outcome is, whatever it does to the device and its memory: a next state with the queue of waiting
commands as it was, save that a descriptor whose body is not 56 bytes faults by name. Said once for each shape that the meaning
of a row has, and from these for every command. -/

namespace Sys2Proof

theorem Desc.wf_iff (c : Desc) : c.wf = true ↔ c.body.length = 56 := beq_iff_eq

end Sys2Proof

namespace Sys2Proof.Machine

open Claim

/-- The outcome of a row in `s` that carries the descriptor `b`, or none. -/
def CompletesWith (b : Option Desc) (s : State) (o : Out1) : Prop :=
  ∃ t : State, t.pending = s.pending ∧ o = if b.all Desc.wf then .next t else .fault .malformedDescriptor

/-! ### Shapes of rows without a descriptor -/

/-- A row that changes the device and the memories alone: `onDev`, `onMem` and all that is made of them. -/
theorem next_completes (s : State) (d : Dev) (m : List Host.Cell) :
    CompletesWith none s (.next { s with dev := d, mem := m }) := ⟨{ s with dev := d, mem := m }, rfl, rfl⟩

/-- A plain write is no exception, whichever space it addresses. -/
theorem execRegisterWrite_completes (via : Via) (sh : Shape) (addr : BitVec 26) (x : Data) (s : State) :
    CompletesWith none s (execRegisterWrite via sh addr x s) := by
  cases via <;> exact next_completes s _ _

/-! ### Shapes of rows with a descriptor -/

/-- A row that acts on a body of 56 bytes alone completes with its descriptor where its action completes. -/
theorem CompletesWith.guarded {s : State} {o : Out1} (h : CompletesWith none s o) (c : Desc) :
    CompletesWith (some c) s (if c.wf then o else .fault .malformedDescriptor) := by
  obtain ⟨t, ht, rfl⟩ := h
  exact ⟨t, ht, rfl⟩

theorem hostRow_completes (op : Nat) (c : Desc) (run : Desc → Dev → Nat → Ran) (s : State) :
    CompletesWith (some c) s (hostRow op c run s) := (next_completes s _ _).guarded c

theorem bulkRow_completes (op : Nat) (c : Desc) (bulk : HostRead) (run : List Byte → Dev → Nat → Ran) (s : State) :
    CompletesWith (some c) s (bulkRow op c bulk run s) := (next_completes s _ _).guarded c

theorem hostSync_completes (op : Nat) (c : Desc) (run : Desc → Dev → Nat → Ran) (s : State) :
    CompletesWith (some c) s (hostSync op c run s) := (next_completes s _ _).guarded c

theorem execSatopCfg_completes (c : Desc) (s : State) : CompletesWith (some c) s (execSatopCfg c s) :=
  (next_completes s _ _).guarded c

theorem execUnknownOpcode_completes (op : Byte) (c : Desc) (s : State) : CompletesWith (some c) s (execUnknownOpcode op c s) :=
  (next_completes s _ _).guarded c

/-! ### Every command -/

/-- No command is refused, and the one fault is that of a descriptor of another length: each row has one of the shapes above,
and those that are not listed change the device and the memories alone. -/
theorem exec_completes (i : Instr) (s : State) : CompletesWith (descOf i) s (exec i s) := by
  cases i with
  | nop c | laneCfg c | portCfg c | defectCfg c | xcSwap c | mergeGroupCfg c | apsCfg c | protCommand c | queueCfg c
  | shaperCfg c | policerCfg c | gateCfg c | tsuRefCfg c | tsuSteer c | tsuRealign c | calRun c | calTableCommit c
  | statsSnap c | enginePkgLoad c | planeHandover c | engineCfg c | faultAction c => exact hostRow_completes _ c _ s
  | attest c | keyAdmin c => exact bulkRow_completes _ c _ _ s
  | mapCfg c | xcWrite c => exact hostSync_completes _ c _ s
  | satopCfg c => exact execSatopCfg_completes c s
  | unknownOpcode op c => exact execUnknownOpcode_completes op c s
  | registerWrite via sh addr x => exact execRegisterWrite_completes via sh addr x s
  | _ => exact next_completes s _ _

theorem exec_malformed {i : Instr} {c : Desc} {s : State} (hc : descOf i = some c) (h : c.body.length ≠ 56) :
    exec i s = .fault .malformedDescriptor := by
  obtain ⟨t, -, ht⟩ := exec_completes i s
  rw [ht, hc]
  exact if_neg fun hw => h (c.wf_iff.mp hw)

theorem exec_answers {i : Instr} {s : State} (h : ∀ c, descOf i = some c → c.body.length = 56) :
    Answers i s fun t => t.pending = s.pending := by
  obtain ⟨t, hp, ht⟩ := exec_completes i s
  refine ⟨t, ?_, hp⟩
  rw [ht]
  exact if_pos ((Option.all_eq_true _ _).mpr fun c hc => c.wf_iff.mpr (h c hc))

end Sys2Proof.Machine

namespace Sys2Proof.Claim

/-- Settles O2: a row's outcome is decided by its shape, which looks at no more than the length of its descriptor's body. -/
theorem everyCommandCompletes : Obligations.EveryCommandCompletes := by
  unfold Obligations.EveryCommandCompletes
  exact fun _ _ => ⟨fun _ => Machine.exec_malformed, Machine.exec_answers⟩

end Sys2Proof.Claim
end

section
/-! SUPPORT. What the device has written, sent or shown stays in its record: an event, and each operation that an event goes
through, only adds to `HostQ.out`. -/

namespace Sys2Proof.Machine

theorem Dev.msixSend_out (d : Dev) (v : Nat) : d.host.out <:+ (d.msixSend v).host.out := by
  unfold Dev.msixSend
  dsimp only
  split
  · exact List.suffix_cons _ _
  · exact List.suffix_rfl

theorem Dev.ringNotify_out (d : Dev) (r : Nat) : d.host.out <:+ (d.ringNotify r).host.out := by
  unfold Dev.ringNotify
  split
  · exact Dev.msixSend_out (d.updRing r _) _
  · exact List.suffix_rfl

theorem Dev.writeEntry_out (d : Dev) (r : Nat) (mk : Nat → Bool → Word → Out) : d.host.out <:+ (d.writeEntry r mk).host.out := by
  unfold Dev.writeEntry
  dsimp only
  refine List.IsSuffix.trans ?_ (Dev.ringNotify_out _ _)
  split <;> exact List.suffix_cons _ _

theorem jyPump_out (j n : Nat) (d : Dev) : d.host.out <:+ (jyPump j n d).host.out := by
  induction n generalizing d with
  | zero => exact List.suffix_rfl
  | succ n ih =>
    unfold jyPump
    dsimp only
    split
    · exact List.suffix_rfl
    · split
      · refine List.IsSuffix.trans ?_ (ih _)
        exact List.suffix_cons _ _
      · exact List.suffix_rfl

theorem Dev.jySend_out (d : Dev) (j ty : Nat) (payload : List Byte) (r0 : Bool) :
    d.host.out <:+ (d.jySend j ty payload r0).host.out := by
  unfold Dev.jySend Dev.jySendAt
  split
  · exact jyPump_out _ _ (d.updLink j _)
  · exact List.suffix_rfl

theorem Dev.postAt_out (d : Dev) (device code : Nat) (sec : BitVec 48) (ns : Nat) (args : List Byte) :
    d.host.out <:+ (d.postAt device code sec ns args).host.out := by
  unfold Dev.postAt
  generalize (if urgentCode code = true then 8 else 9) = r
  dsimp only
  split
  · exact Dev.writeEntry_out ..
  · exact List.suffix_rfl

theorem Dev.post_out (d : Dev) (code : Nat) (args : List Byte) : d.host.out <:+ (d.post code args).host.out := by
  unfold Dev.post
  split
  · split
    · exact Dev.jySend_out ..
    · exact List.suffix_rfl
  · exact Dev.postAt_out ..

theorem Dev.raise_out (d : Dev) (a i code : Nat) (args : List Byte) : d.host.out <:+ (d.raise a i code args).host.out := by
  unfold Dev.raise
  dsimp only
  split
  · exact List.suffix_rfl
  · exact Dev.post_out (d.setReg a _) code args

end Sys2Proof.Machine
end

section
/-! SUPPORT. The plane selector (R240–R243): the cell number that a word's 16 bits stand for, what a word that leaves adds to
the record, and which of the branches of PSEL_WORD a word takes, by what the selector holds. -/

namespace Sys2Proof.Machine

/-- The cell number that a word's 16 bits are taken for ends in them. -/
theorem unwrapCell_mod (base : Nat) (cell : BitVec 16) : unwrapCell base cell % 65536 = cell.toNat := by
  have hc := cell.isLt
  unfold unwrapCell
  dsimp only
  split
  · rename_i h
    simp only [Bool.and_eq_true, decide_eq_true_eq] at h
    omega
  · split <;> omega

/-- What a word adds to the record as it leaves the selector of a port: it leaves by the lane that its cell number gives (R19). -/
def Dev.selShown (d : Dev) (p : Nat) (x : PWord) : Out :=
  .selWord p (p + x.cell % (d.port p).lanes) (x.cell % 65536) x.w x.d x.p

/-- The word as the selector takes it: its cell number unwrapped, its P set where it comes poisoned or with bad parity. -/
def selSeen (w : SelWord) (cell : Nat) : PWord :=
  { cell := cell, w := w.w.val, d := w.d, c := w.c, p := w.p || !parityOk w.d w.c }

/-- A word without P is the last thing shown as it leaves. -/
theorem Dev.selOut_good {d : Dev} {p : Nat} {x : PWord} (h : x.p = false) :
    (d.selOut p x).host.out.head? = some (d.selShown p x) := by
  unfold Dev.selOut
  rw [h]
  simp only [Bool.false_eq_true, if_false]
  rw [← h]
  rfl

/-- A word that leaves is shown, its count and its event with it where it has P = 1. -/
theorem Dev.selOut_shows (d : Dev) (p : Nat) (x : PWord) : d.selShown p x ∈ (d.selOut p x).host.out := by
  have hm : d.selShown p x ∈ ((d.emit (d.selShown p x)).updPsel p fun s => { s with pos := 8 * x.cell + x.w + 1 }).host.out :=
    List.mem_cons_self
  unfold Dev.selOut
  dsimp only
  split
  · exact (Dev.raise_out _ _ _ _ _).subset hm
  · exact hm

/-- A word without P leaves the selector past it, and otherwise as it was. -/
theorem Dev.selOut_psel {d : Dev} {p : Nat} {x : PWord} (h : x.p = false) :
    (d.selOut p x).psel p = { d.psel p with pos := 8 * x.cell + x.w + 1 } := by
  unfold Dev.selOut
  simp only [h, Bool.false_eq_true, if_false, Dev.updPsel_psel]
  rfl

/-! ### Pairs -/

/-- Of two copies of a word the other one leaves where the preferred one alone has P = 1 (R24). -/
theorem Dev.selPair_other {d : Dev} {p : Nat} {a b : PWord} (ha : a.p = true) (hb : b.p = false) :
    (d.selPair p a b).host.out.head? = some (d.selShown p b) := by
  unfold Dev.selPair
  simp only [ha, hb, Bool.not_false, Bool.and_self, if_true]
  exact Dev.selOut_good hb

/-- The preferred copy leaves where it is without P and the other one has P = 1. -/
theorem Dev.selPair_preferred {d : Dev} {p : Nat} {a b : PWord} (ha : a.p = false) (hb : b.p = true) :
    (d.selPair p a b).host.out.head? = some (d.selShown p a) := by
  unfold Dev.selPair
  simp only [ha, hb, Bool.not_false, Bool.not_true, Bool.and_false, Bool.false_and, Bool.false_eq_true, if_false]
  exact Dev.selOut_good ha

/-- Of two copies with P = 1 the preferred one leaves. -/
theorem Dev.selPair_both {d : Dev} {p : Nat} {a b : PWord} (ha : a.p = true) (hb : b.p = true) :
    d.selShown p a ∈ (d.selPair p a b).host.out := by
  unfold Dev.selPair
  simp only [ha, hb, Bool.not_true, Bool.and_false, Bool.false_and, Bool.false_eq_true, if_false]
  exact Dev.selOut_shows _ p a

/-- A word meets its partner: which of the two counts as preferred goes by the plane that the word comes from (R24). -/
def Dev.selMeet (d : Dev) (p : Nat) (plane : Fin 2) (x y : PWord) : Dev :=
  if d.plane.preferred = plane then d.selPair p x y else d.selPair p y x

section
variable {d : Dev} {p : Nat} {plane : Fin 2} {x y : PWord}

theorem Dev.selMeet_partner (hx : x.p = true) (hy : y.p = false) :
    (d.selMeet p plane x y).host.out.head? = some (d.selShown p y) := by
  unfold Dev.selMeet
  split
  · exact Dev.selPair_other hx hy
  · exact Dev.selPair_preferred hy hx

theorem Dev.selMeet_self (hx : x.p = false) (hy : y.p = true) :
    (d.selMeet p plane x y).host.out.head? = some (d.selShown p x) := by
  unfold Dev.selMeet
  split
  · exact Dev.selPair_preferred hx hy
  · exact Dev.selPair_other hy hx

theorem Dev.selMeet_both {o : Out} (hx : x.p = true) (hy : y.p = true) (hox : d.plane.preferred = plane → d.selShown p x = o)
    (hoy : d.plane.preferred ≠ plane → d.selShown p y = o) : o ∈ (d.selMeet p plane x y).host.out := by
  unfold Dev.selMeet
  split
  · rename_i h; exact hox h ▸ Dev.selPair_both hx hy
  · rename_i h; exact hoy h ▸ Dev.selPair_both hy hx

/-- Two equal copies leave as one word. -/
theorem Dev.selMeet_same (hx : x.p = false) :
    d.selMeet p plane x x = (d.updPsel p fun s => { s with run := 0 }).selOut p x := by
  unfold Dev.selMeet Dev.selPair
  simp only [hx, Bool.false_and, ne_eq, not_true_eq_false, decide_false, Bool.or_self, Bool.and_false,
    Bool.false_eq_true, if_false, ite_self]

end

/-! ### Which branch a word takes -/

/-- The cell whose neighbourhood a word's 16 bits are read in (R240). -/
def PSel.base (s : PSel) (w : SelWord) : Nat :=
  if s.pos ≠ 0 then s.pos / 8 else match s.held with | x :: _ => x.cell | [] => 65536 + w.cell.toNat

section
variable {d : Dev} {p : Nat} {plane : Fin 2} {w : SelWord} (hp : d.portOn p = true)
include hp

/-- The word of the one plane that a port takes leaves as it is. -/
theorem pselWord_single (hs : d.selTakes p = [plane]) :
    pselWord p plane w d = d.selOut p (selSeen w (unwrapCell ((d.psel p).base w) w.cell)) := by
  unfold pselWord
  simp only [hp, Bool.not_true, Bool.false_eq_true, if_false, hs, List.length_singleton, ne_eq, OfNat.one_ne_ofNat,
    not_false_eq_true, if_true, Dev.selSingle]
  rfl

/-- While the selector waits for the plane `back` and holds nothing, a word of the other plane leaves. -/
theorem pselWord_carried {back : Fin 2} (hs : d.selTakes p = [0, 1]) (hj : (d.psel p).joining = some back) (hb : plane ≠ back)
    (hh : (d.psel p).held = []) :
    ∃ f : PSel → PSel, (f (d.psel p)).joining = some back ∧
      pselWord p plane w d = (d.updPsel p f).selOut p (selSeen w (unwrapCell ((d.psel p).base w) w.cell)) := by
  refine ⟨fun s => { s with held := s.held.filter (fun y => decide
    (8 * unwrapCell ((d.psel p).base w) w.cell + w.w.val < 8 * y.cell + y.w)) }, hj, ?_⟩
  unfold pselWord
  simp only [hp, Bool.not_true, Bool.false_eq_true, if_false, hs, List.length_cons, List.length_nil, ne_eq,
    not_true_eq_false, hj, Dev.selJoin, hb, hh, List.find?_nil]
  simp only [PSel.base, hh, selSeen]

/-- A word of the plane ahead, or the first of either, is held. -/
theorem pselWord_held (hs : d.selTakes p = [0, 1]) (hj : (d.psel p).joining = none) (hh : (d.psel p).held = [])
    (hq : (d.psel p).pos ≤ 8 * unwrapCell ((d.psel p).base w) w.cell + w.w.val) :
    pselWord p plane w d = d.updPsel p fun s =>
      { s with held := [selSeen w (unwrapCell ((d.psel p).base w) w.cell)], ahead := plane } := by
  have hl : (d.selTakes p).length = 2 := by rw [hs]; rfl
  simp only [PSel.base, hh] at hq
  unfold pselWord
  simp only [hp, Bool.not_true, Bool.false_eq_true, if_false, hl, ne_eq, not_true_eq_false, hj, hh,
    Nat.not_lt.mpr hq, List.length_nil, selFlush, ite_self]
  simp only [PSel.base, hh, selSeen]

/-- A word that has its partner at the head of the queue of the plane ahead is paired with it, the preferred one first. -/
theorem pselWord_paired {y : PWord} {rest : List PWord} (hs : d.selTakes p = [0, 1]) (hj : (d.psel p).joining = none)
    (hh : (d.psel p).held = y :: rest) (ha : (d.psel p).ahead ≠ plane) (hw : y.w = w.w.val)
    (hc : unwrapCell ((d.psel p).base w) w.cell = y.cell) (hq : (d.psel p).pos ≤ 8 * y.cell + y.w) :
    pselWord p plane w d =
      (d.updPsel p fun s => { s with held := rest }).selMeet p plane (selSeen w y.cell) y := by
  have hl : (d.selTakes p).length = 2 := by rw [hs]; rfl
  simp only [PSel.base, hh] at hc
  unfold pselWord
  simp only [hp, Bool.not_true, Bool.false_eq_true, if_false, hl, ne_eq, not_true_eq_false, hj, hh, hc, ← hw,
    Nat.not_lt.mpr hq, ha, List.length_cons, selFlush, Nat.lt_irrefl, if_true]
  simp only [selSeen, hw]
  rfl

end

end Sys2Proof.Machine
end

section
/-! PROOF of O31: a word takes the branch that the selector's queue gives it, and what leaves is what that branch sends out. -/

namespace Sys2Proof.Claim

open Machine

/-- A row that acts on the device alone, in a device that runs, answers what its operation makes of the device. -/
theorem answers_onDev {c : Instr} {s : State} {f : Dev → Dev} {P : State → Prop} (hc : exec c s = onDev (live f) s)
    (hl : s.dev.life = .running) (h : P { s with dev := f s.dev }) : Answers c s P :=
  ⟨_, hc.trans (by rw [onDev_eq, live_running hl]), h⟩

/-- A good word is shown with the 16 bits of its cell number as they came. -/
theorem selShown_seen (d : Dev) (p base : Nat) {w : SelWord} (hb : (w.p || !parityOk w.d w.c) = false) :
    d.selShown p (selSeen w (unwrapCell base w.cell))
      = .selWord p (p + unwrapCell base w.cell % (d.port p).lanes) w.cell.toNat w.w.val w.d false := by
  unfold Dev.selShown selSeen
  rw [hb, unwrapCell_mod]

/-- Settles O31: each clause fixes what the selector holds, and with it the branch of PSEL_WORD. -/
theorem planeSelectorForwardsOneCopy : Obligations.PlaneSelectorForwardsOneCopy := by
  unfold Obligations.PlaneSelectorForwardsOneCopy
  intro s p plane w hl hp
  refine ⟨fun hs hj => ⟨fun hh hq => ?held, fun y rest hh ha hw hc hq => ?paired⟩, fun hs hb => ?single,
    fun back hs hj hne hh hb => ?carried⟩
  case held =>
    have hbase : (s.dev.psel p).base w = if (s.dev.psel p).pos ≠ 0 then (s.dev.psel p).pos / 8 else 65536 + w.cell.toNat := by
      unfold PSel.base; rw [hh]
    refine answers_onDev rfl hl ?_
    rw [pselWord_held hp hs hj hh (by rw [hbase]; exact hq), hbase]
    dsimp only
    rw [Dev.updPsel_psel]
    exact ⟨rfl, rfl⟩
  case paired =>
    have hbase : (s.dev.psel p).base w = if (s.dev.psel p).pos ≠ 0 then (s.dev.psel p).pos / 8 else y.cell := by
      unfold PSel.base; rw [hh]
    refine answers_onDev rfl hl ?_
    rw [pselWord_paired hp hs hj hh ha hw (by rw [hbase]; exact hc) hq]
    have hx : selSeen w y.cell = { y with d := w.d, c := w.c, p := w.p || !parityOk w.d w.c } := by unfold selSeen; rw [hw]
    rw [hx]
    refine ⟨fun hb hg => ?_, fun hb hg => ?_, fun hb hg => ?_, fun hb hg hd hcc => ?_⟩
    · exact (Dev.selMeet_partner hb hg).trans (by rw [← hg]; rfl)
    · exact (Dev.selMeet_self hb hg).trans (by rw [← hb]; rfl)
    · refine Dev.selMeet_both hb hg (fun h => ?_) (fun h => ?_)
      · rw [if_pos (show s.dev.plane.preferred = plane from h), ← hb]; rfl
      · rw [if_neg (show s.dev.plane.preferred ≠ plane from h), ← hg]; rfl
    · have hy : ({ y with d := w.d, c := w.c, p := w.p || !parityOk w.d w.c } : PWord) = y := by rw [hb, ← hg, ← hd, ← hcc]
      rw [hy, Dev.selMeet_same hg, Dev.selOut_psel hg, Dev.updPsel_psel, Dev.updPsel_psel]
      exact ⟨(Dev.selOut_good hg).trans (by rw [← hg, ← hd]; rfl), rfl, rfl⟩
  case single =>
    refine answers_onDev rfl hl ⟨unwrapCell ((s.dev.psel p).base w) w.cell, unwrapCell_mod _ _, ?_⟩
    rw [pselWord_single hp hs, ← selShown_seen s.dev p _ hb]
    exact Dev.selOut_good hb
  case carried =>
    obtain ⟨f, hf, he⟩ := pselWord_carried (w := w) hp hs hj hne hh
    refine answers_onDev rfl hl ?_
    rw [he]
    refine ⟨?_, unwrapCell ((s.dev.psel p).base w) w.cell, unwrapCell_mod _ _, ?_⟩
    · rw [Dev.selOut_psel hb, Dev.updPsel_psel]; exact hf
    · exact (Dev.selOut_good hb).trans (congrArg some (selShown_seen (s.dev.updPsel p f) p _ hb))

end Sys2Proof.Claim
end

section
/-! SUPPORT. What a load of an instruction store leaves in a memory: with an empty package it writes the reset content into the
2,048 words of the store, so that a memory that lists none of them stays as it is, whatever it lists beyond them. -/

namespace Sys2Proof.Machine

/-- A fold of which no step changes its start ends at it. -/
theorem foldl_same {α β : Type} {f : β → α → β} {b : β} {l : List α} (h : ∀ x ∈ l, f b x = b) : l.foldl f b = b := by
  induction l with
  | nil => rfl
  | cons x l ih => rw [List.foldl_cons, h x List.mem_cons_self, ih fun y hy => h y (List.mem_cons_of_mem _ hy)]

theorem terase_absent {α : Type} {t : Tab α} {k : Nat} (h : ∀ e ∈ t, e.1 ≠ k) : terase t k = t :=
  List.filter_eq_self.mpr fun e he => decide_eq_true (h e he)

/-- Writing the reset content of a cell that is not listed changes nothing. -/
theorem writeCell_reset {m : List Host.Cell} {a : Nat} (h : ∀ e ∈ m, e.1 ≠ a) : writeCell m a (cellReset a) = m := by
  unfold writeCell tput
  rw [if_pos rfl, terase_absent h]

theorem cellReset_cellOf {a i : Nat} (n : Nat) (ha : a < 262144) (hi : i < 9) :
    cellReset (cellOf n a i) = if i < 8 then byteOf (wordReset n a) i else secded (wordReset n a) := by
  have hw : cellOf n a i / 9 = n * 262144 + a := by unfold cellOf; omega
  have hb : cellOf n a i % 9 = i := by unfold cellOf; omega
  have hn : (n * 262144 + a) / 262144 = n := by omega
  have hm : (n * 262144 + a) % 262144 = a := by omega
  unfold cellReset
  simp only [hw, hb, hn, hm]

/-- Storing the reset content in a word of which no cell is listed changes nothing. -/
theorem putWord_reset {m : List Host.Cell} {n a : Nat} (ha : a < 262144) (h : ∀ e ∈ m, e.1 / 9 ≠ n * 262144 + a) :
    putWord m n a (wordReset n a) false = m := by
  have hcell : ∀ i, i < 9 → writeCell m (cellOf n a i) (cellReset (cellOf n a i)) = m := fun i hi =>
    writeCell_reset fun e he hc => h e he (by rw [hc]; unfold cellOf; omega)
  have hdata : (List.range 8).foldl (fun m i => writeCell m (cellOf n a i) (byteOf (wordReset n a) i)) m = m := by
    refine foldl_same fun i hi => ?_
    have hi := List.mem_range.mp hi
    have hc := hcell i (by omega)
    rwa [cellReset_cellOf n ha (by omega), if_pos hi] at hc
  have hc := hcell 8 (by omega)
  rw [cellReset_cellOf n ha (by omega), if_neg (by omega)] at hc
  unfold putWord putRaw
  rw [hdata]
  exact hc

/-- A load of an empty package into a store of which no word is listed changes nothing. -/
theorem loadInstr_empty {m : List Host.Cell} {g : Nat} (h : ∀ e ∈ m, ∀ a, a < 2048 → e.1 / 9 ≠ (160 + g) * 262144 + a) :
    loadInstr [] g m = m := by
  have hw : ∀ a, wordReset (160 + g) a = wordOf [] (64 + 8 * a) := fun a => by
    have : ¬ (160 + g < 160) := by omega
    unfold wordReset wordOf
    simp [this, leNat]
  unfold loadInstr
  refine foldl_same fun a ha => ?_
  have ha := List.mem_range.mp ha
  rw [← hw]
  exact putWord_reset (by omega) fun e he => h e he a ha

/-- Once a return has ended, no further word is read back. -/
theorem backMem_ended {d : Dev} {m : List Host.Cell} (h : d.plane.unfence = none) (id : MemId) : backMem d m id = (d, m) :=
  foldl_same fun a _ => by simp only [h, Option.isNone_none, if_true]

/-- A return that its read-back ends leaves the fences as the read-back has left them. -/
theorem unfenceDone_ended {b : ReadBack} {d : Dev} {m : List Host.Cell} {x : Unfence} (hx : d.plane.unfence = some x)
    (hq : b.queue = none) (h : (unitBack b x.unit x.restart d m).1.plane.unfence = none) (u : Nat) :
    (unfenceDone b d m).1.fenced u = (unitBack b x.unit x.restart d m).1.fenced u := by
  unfold unfenceDone
  simp only [hx, hq, h, Option.isNone_none, if_true]

/-- The device that UNFENCE_DONE answers, in a device that runs. -/
theorem unfenceDone_answer {b : ReadBack} {s t : State} (hl : s.dev.life = .running) (h : exec (.unfenceDone b) s = .next t) :
    t.dev = (unfenceDone b s.dev s.mem).1 := by
  have hrow : exec (.unfenceDone b) s = onMem (liveMem (unfenceDone b)) s := rfl
  rw [hrow, onMem_eq, liveMem, if_pos hl] at h
  exact (congrArg State.dev (Host.Outcome.next.inj h)).symm

end Sys2Proof.Machine
end

section
/-! REFUTATION of O42, by a state that UNFENCE_DONE leaves with its unit fenced, against the clause that admits every unit whose
stores take no upset as they are read back. -/

namespace Sys2Proof.Claim

open Machine

/-- Engine 0 of plane N returns from its partner. -/
def strayUnfence : Unfence := { unit := 0x9000, job := 0, restart := false }

/-- The memory of the engine's instruction store lists one word, at 2,048: the first beyond the
2,048 words that the store has (R334), with two wrong bits in its check field, so that no read can correct it (R38). -/
def strayReturn : State :=
  { dev := { life := .running, plane := { fences := [(0x9000, true)], unfence := some strayUnfence } }
    mem := [(cellOf 160 2048 8, 3)], pending := [] }

theorem unitStores_stray : unitStores 0x9000 false strayReturn.dev strayReturn.mem = (strayReturn.dev, strayReturn.mem) := by
  have hload : loadInstr [] 0 strayReturn.mem = strayReturn.mem := loadInstr_empty fun e he a ha => by
    rw [List.mem_singleton.mp he]
    show cellOf 160 2048 8 / 9 ≠ _
    unfold cellOf; omega
  have hcopy : copyMem (.twData 128) (.twData 0) strayReturn.dev strayReturn.mem = (strayReturn.dev, strayReturn.mem) := rfl
  exact (congrArg (copyMem (.twData 128) (.twData 0) strayReturn.dev) hload).trans hcopy

/-- The read-back of the instruction store finds the word, and ends the return with the unit fenced (R461). -/
theorem backMem_stray :
    (backMem strayReturn.dev strayReturn.mem (.twInstr 0)).1.plane.unfence = none
      ∧ (backMem strayReturn.dev strayReturn.mem (.twInstr 0)).1.fenced 0x9000 = true := by decide

theorem unitBack_stray : unitBack {} strayUnfence.unit strayUnfence.restart strayReturn.dev strayReturn.mem
    = backMem strayReturn.dev strayReturn.mem (.twInstr 0) := by
  have hback : unitBack {} strayUnfence.unit strayUnfence.restart strayReturn.dev strayReturn.mem =
      let y := backMem strayReturn.dev strayReturn.mem (.twInstr 0)
      backMem y.1 y.2 (.twData 0) := by
    have hstores : unitStores strayUnfence.unit strayUnfence.restart _ _ = _ := unitStores_stray
    unfold unitBack
    rw [hstores]
    rfl
  exact hback.trans (backMem_ended backMem_stray.1 _)

theorem unfenceDone_stray : (unfenceDone {} strayReturn.dev strayReturn.mem).1.fenced 0x9000 = true := by
  obtain ⟨hend, hfenced⟩ := backMem_stray
  rw [← unitBack_stray] at hend hfenced
  exact (unfenceDone_ended (b := {}) (d := strayReturn.dev) (m := strayReturn.mem)
    (x := strayUnfence) rfl rfl hend _).trans hfenced

/-- Refutes O42: UNFENCE_DONE is said to take back every unit whose return has no upset and no queue to read back. In the state
`strayReturn` it does not: the load of the package writes the 2,048 words of the instruction store and no others, the read-back
reads every word that the store's memory lists, and the uncorrectable one at 2,048 leaves the engine fenced. -/
theorem not_unitsAreFencedAndReturn : ¬ Obligations.UnitsAreFencedAndReturn := by
  unfold Obligations.UnitsAreFencedAndReturn UnitsAndPlanesReturn
  rintro ⟨-, h⟩
  obtain ⟨hunit, -⟩ := h strayReturn rfl
  obtain ⟨-, -, hadmit⟩ := hunit strayUnfence {} rfl
  obtain ⟨t, ht, hfree, -⟩ := hadmit rfl rfl rfl
  have hkept : t.dev.fenced 0x9000 = true := (congrArg (Dev.fenced · 0x9000) (unfenceDone_answer rfl ht)).trans unfenceDone_stray
  exact Bool.false_ne_true (hfree.symm.trans hkept)

end Sys2Proof.Claim
end

section
/-! SUPPORT. Where a fault record shows: the capture registers of the fault windows, that no reaction to a record touches one, and
what the record of one fault sets in its window (R449, R452, R453). -/

namespace Sys2Proof.Machine

/-! ### Status words -/

/-- An event bit is set after any events among which it is. -/
theorem rsSet_bit_of {w m : Word} {i : Nat} (hi : i < 24) (hb : m.getLsbD i = true) : bit (rsSet w m) i = true := by
  have hm : (0x00FFFFFF : Word).getLsbD i = true := by interval_cases i <;> rfl
  have hn : (rsNew w m).getLsbD i = !w.getLsbD i := by
    simp only [rsNew, BitVec.getLsbD_and, BitVec.getLsbD_not, hb, hm, Bool.true_and, Bool.and_true]
    simp; omega
  unfold bit rsSet
  split
  · rename_i h
    rw [h] at hn
    simpa using hn
  · simp only [BitVec.getLsbD_or, BitVec.getLsbD_and, hm, hn, Bool.and_true]
    cases w.getLsbD i <;> simp

theorem bitAt_bit {i : Nat} (hi : i < 32) : (bitAt true i).getLsbD i = true := by
  simp only [bitAt, if_true, BitVec.getLsbD_ofNat, Nat.testBit_two_pow_self]; simp; omega

/-- The bits of several events hold that of each. -/
theorem eventBits_bit {i : Nat} (hi : i < 32) (evs : List (Nat × Option (Nat × List Byte))) (m : Word)
    (h : m.getLsbD i = true ∨ i ∈ evs.map Prod.fst) :
    (evs.foldl (fun m e => m ||| bitAt true e.1) m).getLsbD i = true := by
  induction evs generalizing m with
  | nil => simpa using h
  | cons e evs ih =>
    refine ih _ ?_
    rw [BitVec.getLsbD_or]
    rcases h with h | h
    · exact .inl (by rw [h, Bool.true_or])
    · rcases List.mem_cons.mp h with rfl | h
      · exact .inl (by rw [bitAt_bit hi, Bool.or_true])
      · exact .inr h

/-- Each of several events at one instant has its bit set. -/
theorem Dev.raiseAll_bit {a i : Nat} {evs : List (Nat × Option (Nat × List Byte))} (h : offHq a) (d : Dev) (hi : i < 24)
    (he : i ∈ evs.map Prod.fst) : bit ((d.raiseAll a evs).reg a) i = true := by
  rw [Dev.raiseAll_reg h]
  exact rsSet_bit_of hi (eventBits_bit (by omega) evs 0 (.inr he))

/-! ### Capture registers (R452, R466) -/

/-- What the addresses of the registers that capture a record (CAP_INFO) have in common, by the windows of R466. -/
def captureReg (a : Nat) : Prop :=
  a % 0x40 = 4 ∧ (a = 0x40044 ∨ 0x100000 ≤ a ∧ a < 0x200000 ∨ 0x400000 ≤ a ∧ a < 0x480000 ∧ a % 0x800 = 0x44
    ∨ 0x860000 ≤ a ∧ a < 0xC00000)

theorem captureReg.offHq {a : Nat} (h : captureReg a) : offHq a := by
  unfold captureReg at h; unfold Machine.offHq; omega

theorem captureReg.window {b : Nat} (h : captureReg (b + 4)) : Machine.offHq b := by
  unfold captureReg at h; unfold Machine.offHq; omega

/-- The source of a record that can be made is one of its family's instances (R447). -/
theorem recordOk_iff {r : FaultRec} : recordOk r = true ↔ 1 ≤ r.cls.val ∧ 1 ≤ srcFamily r.source.toNat
    ∧ srcFamily r.source.toNat ≤ 13 ∧ srcInst r.source.toNat < familySize (srcFamily r.source.toNat) := by
  unfold recordOk
  simp only [Bool.and_eq_true, decide_eq_true_eq, and_assoc]

theorem familySize_le (f : Nat) : familySize f ≤ 256 := by
  unfold familySize; split <;> decide

theorem fwBase_captureReg {s : Nat} (h : srcInst s < familySize (srcFamily s)) : captureReg (fwBase s + 4) := by
  unfold fwBase captureReg aEng aLane
  dsimp only
  split <;> rename_i hf
  case h_2 => rw [hf] at h; simp only [familySize] at h; split <;> omega
  case h_6 => omega
  all_goals rw [hf] at h; simp only [familySize] at h; omega

/-- The capture register of a window that is an engine's stands at 0x44 of the engine's registers. -/
theorem captureReg.engine {b : Nat} (h : captureReg (b + 4)) (he : srcFamily (fwSource b) = 9) : (b + 4) % 0x800 = 0x44 := by
  unfold captureReg at h
  unfold fwSource srcFamily srcOf at he
  split_ifs at he <;> omega

/-! ### One record in its window -/

theorem fltSrcAddr_bounds {s x : Nat} (h : fltSrcAddr s = some x) : 0x40100 ≤ x ∧ x < 0x50000 := by
  have hi : srcInst s < 0x1000 := Nat.mod_lt _ (by decide)
  unfold fltSrcAddr at h
  split at h <;> simp only [Option.some.injEq, reduceCtorEq] at h <;> omega

/-- Counting a record leaves the capture register of its window as it was. -/
theorem Dev.countRec_reg {b : Nat} {r : FaultRec} (h : captureReg (b + 4))
    (hs : b = 0x40040 ∨ srcInst r.source.toNat < 256) (d : Dev) : (d.countRec b r).reg (b + 4) = d.reg (b + 4) := by
  have hbounds := fun x => fltSrcAddr_bounds (s := r.source.toNat) (x := x)
  have hcls : ∀ e : Dev, (match r.cls.val with
      | 1 => e.count (b + 0x1C) 0 16
      | 2 => e.count (b + 0x1C) 16 16
      | _ => e.count (b + 0x20) 0 16).reg (b + 4) = e.reg (b + 4) := by
    intro e; split <;> exact Dev.count_reg_ne (by omega) _ _ _ _
  have hsrc : ∀ e : Dev, (match fltSrcAddr r.source.toNat with
      | some a => e.count a (8 * (r.cls.val - 1)) 8
      | none => e).reg (b + 4) = e.reg (b + 4) := by
    intro e
    split
    · rename_i a ha
      exact Dev.count_reg_ne (by have := hbounds a ha; unfold captureReg at h; omega) _ _ _ _
    · rfl
  unfold Dev.countRec
  dsimp only
  split
  · refine (Dev.count32_reg_ne ?_ _ _).trans ((hsrc _).trans (hcls d))
    unfold captureReg at h; unfold aEng; omega
  · exact (hsrc _).trans (hcls d)

/-- What a capture leaves in its window (R452). -/
theorem Dev.captureRec_reg (d : Dev) (b : Nat) (r : FaultRec) (t : Nat) :
    (d.captureRec b r t).reg (b + 4) = capInfo r ∧ (d.captureRec b r t).reg (b + 16) = BitVec.ofNat 32 t
      ∧ (d.captureRec b r t).reg (b + 20) = BitVec.ofNat 32 (t / 2 ^ 32) := by
  unfold Dev.captureRec
  refine ⟨?_, ?_, Dev.setReg_reg _ _ _⟩
  · repeat rw [Dev.setReg_reg_ne _ _ (by omega)]
    exact Dev.setReg_reg _ _ _
  · rw [Dev.setReg_reg_ne _ _ (by omega)]
    exact Dev.setReg_reg _ _ _

/-- The window after one record is counted: it holds the record where it was empty, and the earlier one otherwise (R453). -/
def Dev.recorded (d : Dev) (b : Nat) (r : FaultRec) (t : Nat) : Dev :=
  if bit ((d.countRec b r).reg (b + 4)) 0 then d.countRec b r else (d.countRec b r).captureRec b r t

/-- A wire fault's record, by which the collector tells it from others (R450). -/
def wireRecord (r : FaultRec) : Bool :=
  decide (r.access.val = 6) && decide (12 ≤ r.checker.val) && decide (r.checker.val ≤ 14)

/-- The event bits of FW_EVENT that one record sets, with their events (R452, R453); `cap` is the source of the record that the
window then holds. -/
def recordEvents (own cap : Nat) (r : FaultRec) : List (Nat × Option (Nat × List Byte)) :=
  let items := le 2 own ++ le 2 cap
  (if r.cls.val = 1 then [(0, if srcFamily own = 9 then none else some (0x1C10, items))] else [])
    ++ (if r.cls.val = 2 then [(1, some (0x1C11, items))] else [])
    ++ (if r.cls.val = 3 then [(2, some (0x1C12, items))] else [])
    ++ (if own = 0 ∧ wireRecord r = true then [(3, some (0x1C13, le 2 r.source.toNat ++ le 1 r.checker.val))] else [])
    ++ (if r.inj then [(4, none)] else [])

theorem recordEvents_correctable (own cap : Nat) {r : FaultRec} (h : r.cls = 1) : 0 ∈ (recordEvents own cap r).map Prod.fst := by
  unfold recordEvents; simp [h]

theorem recordEvents_wire (cap : Nat) {r : FaultRec} (h : wireRecord r = true) :
    3 ∈ (recordEvents 0 cap r).map Prod.fst := by
  unfold recordEvents; simp [h]

/-- One record into its window: the count and the capture, the events, and an engine's own event for class C. -/
theorem Dev.recordIn_one {d : Dev} (b : Nat) (r : FaultRec) (at_ : Option Nat) (hf : d.plane.frozen = false) :
    d.recordIn b r [] at_ =
      let c := d.recorded b r (at_.getD d.stamp)
      let e := c.raiseAll b (recordEvents (fwSource b) (fld (c.reg (b + 8)) 16 16) r)
      if srcFamily (fwSource b) = 9 ∧ r.cls.val = 1 then
        e.raise (aEng (srcInst (fwSource b)) 4) 1 0x1A04 (le 2 (srcInst (fwSource b)))
      else e := by
  have hstamp : (d.countRec b r).stamp = d.stamp := by
    unfold Dev.stamp; rw [Dev.tsu_of_mask (Dev.countRec_mask (T := [.regs]) (by decide) d b r) (by decide)]
  have hfind : [r].find? (fun x => decide (fwSource b = 0) && decide (x.access.val = 6) && decide (12 ≤ x.checker.val)
      && decide (x.checker.val ≤ 14)) = if fwSource b = 0 ∧ wireRecord r = true then some r else none := by
    simp only [List.find?_singleton, wireRecord, Bool.and_eq_true, decide_eq_true_eq, and_assoc]
  unfold Dev.recordIn Dev.recorded
  simp only [hf, Bool.and_false, Bool.false_eq_true, if_false, List.foldl_cons, List.foldl_nil, winner, List.length_nil,
    hstamp, recordEvents, List.any_cons, List.any_nil, Bool.or_false, decide_eq_true_eq, Bool.and_eq_true, hfind]
  by_cases hw : fwSource b = 0 ∧ wireRecord r = true <;> by_cases hb : bit ((d.countRec b r).reg (b + 4)) 0 = true <;>
    simp only [hw, hb, Bool.not_true, Bool.not_false, Bool.false_eq_true, if_false, if_true, List.append_nil, and_self]

/-- An event of a record has its bit set in the window. -/
theorem Dev.recordIn_bit {d : Dev} {b : Nat} {r : FaultRec} {i : Nat} (h : captureReg (b + 4)) (hf : d.plane.frozen = false)
    (at_ : Option Nat) (hi : i < 24) (he : ∀ cap, i ∈ (recordEvents (fwSource b) cap r).map Prod.fst) :
    bit ((d.recordIn b r [] at_).reg b) i = true := by
  have hb := h.window
  rw [Dev.recordIn_one b r at_ hf]
  dsimp only
  split
  · rw [Dev.raise_reg_ne hb (by unfold captureReg at h; unfold aEng; omega)]
    exact Dev.raiseAll_bit hb _ hi (he _)
  · exact Dev.raiseAll_bit hb _ hi (he _)

/-- The other registers of the window are as the count and the capture of the record leave them. -/
theorem Dev.recordIn_reg {d : Dev} {b x : Nat} {r : FaultRec} (h : captureReg (b + 4)) (hf : d.plane.frozen = false)
    (at_ : Option Nat) (hb : b < x) (hx : x < b + 0x40) :
    (d.recordIn b r [] at_).reg x = (d.recorded b r (at_.getD d.stamp)).reg x := by
  have ho : offHq x := by unfold captureReg at h; unfold offHq; omega
  rw [Dev.recordIn_one b r at_ hf]
  dsimp only
  split
  · rename_i he
    have hm := h.engine he.1
    rw [Dev.raise_reg_ne ho (by unfold aEng; omega)]
    exact Dev.raiseAll_reg_ne ho (by omega) _ _
  · exact Dev.raiseAll_reg_ne ho (by omega) _ _

/-- An empty window captures the record. -/
theorem Dev.recorded_empty {d : Dev} {b : Nat} {r : FaultRec} (t : Nat) (h : captureReg (b + 4))
    (hs : b = 0x40040 ∨ srcInst r.source.toNat < 256) (he : bit (d.reg (b + 4)) 0 = false) :
    d.recorded b r t = (d.countRec b r).captureRec b r t := by
  unfold Dev.recorded
  rw [Dev.countRec_reg h hs, he]
  exact if_neg Bool.false_ne_true

/-- A window that holds a record keeps it. -/
theorem Dev.recorded_full {d : Dev} {b : Nat} {r : FaultRec} (t : Nat) (h : captureReg (b + 4))
    (hs : b = 0x40040 ∨ srcInst r.source.toNat < 256) (he : bit (d.reg (b + 4)) 0 = true) :
    (d.recorded b r t).reg (b + 4) = d.reg (b + 4) := by
  unfold Dev.recorded
  rw [Dev.countRec_reg h hs, if_pos he, Dev.countRec_reg h hs]

/-- The collector's own window. -/
theorem collector_captureReg : captureReg (0x40040 + 4) := by unfold captureReg; decide

/-! ### Whole reports -/

/-- A report over an invalid pair stays with its source (R450). -/
theorem Dev.recordAll_held {d : Dev} {r : FaultRec} (h : d.pairBad r = true) :
    d.recordAll [r] = { d with reports := d.reports ++ [{ r := r, at_ := d.stamp }] } := by
  unfold Dev.recordAll
  have hp : ∀ x : List HeldReport, ({ d with reports := x } : Dev).pairBad r = true := fun _ => h
  simp [h, hp]

/-- A report over a valid pair is recorded in its source's window. -/
theorem Dev.recordAll_taken {d : Dev} {r : FaultRec} (h : d.pairBad r = false) :
    d.recordAll [r] = d.recordIn (fwBase r.source.toNat) r [] := by
  unfold Dev.recordAll
  simp [h, List.eraseDups_cons]

/-- A report of one record, which a source can make. -/
theorem Dev.report_one {d : Dev} {r : FaultRec} (h : recordOk r = true) (fields : Bool) :
    d.report r [] fields = ((d.recordAll [if fields then r else fieldless r]).react r).endAborted := by
  unfold Dev.report
  cases fields <;> simp [h]

/-- A class C record has no reaction (R454). -/
theorem Dev.react_correctable {r : FaultRec} (h : r.cls = 1) (d : Dev) : d.react r = d := by
  unfold Dev.react
  simp [h]

end Sys2Proof.Machine
end

section
/-! SUPPORT. What the reaction to a record leaves of the register file: no capture register changes, since a reaction writes the
event registers of the unit that it fences, the plane selectors', the timing unit's and the queues' alone. -/

namespace Sys2Proof.Machine

/-! ### The timing unit -/

/-- Outside the registers that a TSU state's entry and the end of a calibration write. -/
def offTsu (a : Nat) : Prop := offHq a ∧ a ≠ aTsuHist ∧ a ≠ aCalEvent

variable {a : Nat}

theorem Dev.tsuRaise_reg (h : offTsu a) (d : Dev) (evs : List (Nat × List Byte)) : (d.tsuRaise evs).reg a = d.reg a :=
  Dev.raiseAll_reg_ne h.1 h.2.1 d _

theorem Dev.dcoCheck_reg (h : offTsu a) (d : Dev) : d.dcoCheck.reg a = d.reg a := by
  unfold Dev.dcoCheck
  dsimp only
  split
  · exact Dev.tsuRaise_reg h _ _
  · rfl

theorem Dev.setTerm_reg (h : offTsu a) (d : Dev) (x : Int) : (d.setTerm x).reg a = d.reg a := Dev.dcoCheck_reg h _

theorem Dev.calDrop_reg (h : offTsu a) (d : Dev) (reason : Nat) : (d.calDrop reason).reg a = d.reg a := by
  unfold Dev.calDrop
  split
  · rfl
  · exact Dev.raise_reg_ne h.1 h.2.2 _ _ _ _

/-- The first part of an entry to a TSU state: the exit from LOCKED, and the state itself (R299). -/
def Dev.tsuMoved (d : Dev) (st : Nat) (sel : Option Nat) : Dev :=
  let d := if d.tsu.st = 2 then ({ d with tsu.hist := d.tsu.hist.drop 2 }).calDrop 1 else d
  { d with
    tsu.st := st, tsu.sel := sel, tsu.since := d.now, tsu.phaseErr := 0, tsu.inSince := d.now, tsu.outSince := d.now
    tsu.lockedAt := if st = 2 then d.now else d.tsu.lockedAt
    tsu.histAt := d.now, tsu.meanSum := 0, tsu.meanAt := d.now
    tsu.hist := if st = 0 then [] else d.tsu.hist }

/-- The second part: the frequency term of the state (R300). -/
def Dev.tsuTerm (d : Dev) (st : Nat) (sel : Option Nat) : Int × Dev :=
  if st = 1 then
    if sel = some 69 then (d.tsu.steer, d)
    else (Config.loopTerm d.fresh 0, { d with fresh := d.fresh + 1 })
  else if st = 2 then (if sel = some 69 then d.tsu.steer else d.tsu.freqTerm, d)
  else if st = 3 then d.meanFree ((d.tsu.hist.take 300).foldl (· + ·) 0) 300
  else if st = 4 then (d.tsu.lastTerm, d)
  else (0, d)

theorem Dev.tsuEnter_eq (d : Dev) (st : Nat) (sel : Option Nat) (extra : List (Nat × List Byte)) :
    d.tsuEnter st sel extra =
      let e := (d.tsuMoved st sel).tsuTerm st sel
      (({ e.2 with tsu.selQl := e.2.selQlNow }).tsuRaise
        ([(st, [])] ++ extra ++ if e.2.selQlNow ≠ e.2.tsu.selQl then [(10, [])] else [])).setTerm e.1 := rfl

theorem Dev.tsuTerm_mask (d : Dev) (st : Nat) (sel : Option Nat) : (d.tsuTerm st sel).2.mask [.fresh] = d.mask [.fresh] := by
  unfold Dev.tsuTerm
  split_ifs
  case pos => rfl
  case neg => rfl
  case pos => rfl
  case pos => exact Dev.meanFree_mask (by decide) _ _ _
  all_goals rfl

theorem Dev.tsuMoved_reg (h : offTsu a) (d : Dev) (st : Nat) (sel : Option Nat) : (d.tsuMoved st sel).reg a = d.reg a := by
  unfold Dev.tsuMoved
  show Dev.reg (if d.tsu.st = 2 then _ else d) a = _
  split
  · exact Dev.calDrop_reg h _ _
  · rfl

theorem Dev.tsuEnter_reg (h : offTsu a) (d : Dev) (st : Nat) (sel : Option Nat) (extra : List (Nat × List Byte)) :
    (d.tsuEnter st sel extra).reg a = d.reg a := by
  rw [Dev.tsuEnter_eq]
  dsimp only
  rw [Dev.setTerm_reg h, Dev.tsuRaise_reg h]
  exact (Dev.reg_of_mask (Dev.tsuTerm_mask _ st sel) (by decide) a).trans (Dev.tsuMoved_reg h d st sel)

/-- The device with the history that a fault of the timing unit keeps: the entries that both copies hold equal (R298). -/
def Dev.histKept (d : Dev) (equal : Option (List Bool)) : Dev :=
  equal.elim d fun es =>
    { d with tsu.hist := ((d.tsu.hist.zipIdx).filter (fun x => es.getD x.2 false)).map (fun x => x.1) }

/-- The entries that an exit from the present state leaves in the history (R299). -/
def Dev.histLeft (d : Dev) : Nat := d.tsu.hist.length - if d.tsu.st = 2 then 2 else 0

theorem Dev.tsuFault_eq (d : Dev) (equal : Option (List Bool)) :
    d.tsuFault equal =
      let e := d.histKept equal
      if e.tsu.st = 0 then e else e.tsuEnter (if 300 ≤ e.histLeft ∧ e.tsu.hoEn = true then 3 else 0) none := by
  have hstep : ∀ e : Dev, (if e.tsu.st = 0 then e
      else if (decide (300 ≤ e.histLeft) && e.tsu.hoEn) = true then e.tsuEnter 3 none else e.tsuEnter 0 none)
      = if e.tsu.st = 0 then e else e.tsuEnter (if 300 ≤ e.histLeft ∧ e.tsu.hoEn = true then 3 else 0) none := fun e => by
    simp only [Bool.and_eq_true, decide_eq_true_eq, apply_ite (fun n => e.tsuEnter n none)]
  cases equal <;> exact hstep _

theorem Dev.tsuFault_reg (h : offTsu a) (d : Dev) (equal : Option (List Bool)) : (d.tsuFault equal).reg a = d.reg a := by
  have hk : (d.histKept equal).reg a = d.reg a := by cases equal <;> rfl
  rw [Dev.tsuFault_eq]
  dsimp only
  split
  · exact hk
  · exact (Dev.tsuEnter_reg h _ _ _ _).trans hk

/-! ### Queues, plane selectors, completions and fences -/

/-- The completions of a step change no register outside the host queue engine's window. -/
theorem Dev.endAborted_reg (h : offHq a) (d : Dev) : d.endAborted.reg a = d.reg a := by
  unfold Dev.endAborted
  exact foldl_keeps (fun e : Dev => e.reg a = d.reg a) _ (fun e x he => (Dev.complete_reg h e _ _ _).trans he) _ _ rfl

theorem Dev.expose_reg (h : offHq a) (d : Dev) : d.expose.reg a = d.reg a := by
  unfold Dev.expose
  refine foldl_keeps (fun e : Dev => e.reg a = d.reg a) _ (fun e p he => ?_) _ _ rfl
  split
  · rw [Dev.post_reg h]; exact he
  · exact he

theorem Dev.postState_reg (h : offHq a) (d : Dev) (was : Nat) : (d.postState was).reg a = d.reg a := by
  unfold Dev.postState
  split
  · rfl
  · exact Dev.post_reg h ..

/-- Words leave the plane selectors with the counts and events of their ports alone. -/
theorem Dev.selOut_reg (h : offHq a) (hp : a < 0xC00100) (d : Dev) (p : Nat) (x : PWord) : (d.selOut p x).reg a = d.reg a := by
  unfold Dev.selOut
  dsimp only
  split
  · rw [Dev.raise_reg_ne h (by omega)]
    exact Dev.count32_reg_ne (by omega) _ _
  · rfl

theorem Dev.unpair_reg (h : offHq a) (hp : a < 0xC00100) (d : Dev) (p c : Nat) : (d.unpair p c).reg a = d.reg a := by
  unfold Dev.unpair
  dsimp only
  split
  · refine foldl_keeps (fun e : Dev => e.reg a = d.reg a) _ (fun e x he => ?_) _ _ rfl
    exact (Dev.selOut_reg h hp e p x).trans he
  · rfl

/-- Notices of a queue's level change the queue's QSTAT alone. -/
theorem Dev.emptyQueue_reg (h : offHq a) (d : Dev) (q : QId) (hq : a ≠ qbase q + 8) : (d.emptyQueue q).reg a = d.reg a := by
  have hn : ∀ (c : Prop) [Decidable c] (e : Dev) (b : Nat), (if c then e.qNotice q b else e).reg a = e.reg a := by
    intro c _ e b
    split
    · unfold Dev.qNotice
      split
      · exact Dev.raise_reg_ne h hq ..
      · exact Dev.raiseQuiet_reg_ne hq ..
    · rfl
  unfold Dev.emptyQueue Dev.levelMoved
  dsimp only
  split
  · rfl
  · rw [hn, hn]; rfl

theorem Dev.abortResync_reg (d : Dev) : d.abortResync.reg a = d.reg a :=
  Dev.reg_of_mask (Dev.abortResync_mask (T := [.plane, .host]) (by decide) d) (by decide) a

theorem Dev.abortUnfence_reg (d : Dev) : d.abortUnfence.reg a = d.reg a :=
  Dev.reg_of_mask (Dev.abortUnfence_mask (T := [.plane, .host]) (by decide) d) (by decide) a

theorem Dev.abortMoves_reg (d : Dev) (slice k : Nat) : (d.abortMoves slice k).reg a = d.reg a :=
  Dev.reg_of_mask (Dev.abortMoves_mask (T := [.twill, .host]) (by decide) d slice k) (by decide) a

theorem captureReg.offTsu (h : captureReg a) : offTsu a := by
  refine ⟨h.offHq, ?_, ?_⟩ <;> unfold captureReg at h <;> simp only [aTsuHist, aCalEvent] <;> omega

theorem captureReg.below (h : captureReg a) : a < 0xC00100 := by unfold captureReg at h; omega

section
variable (h : captureReg a)
include h

theorem Dev.engineOut_reg (d : Dev) (g : Nat) : (d.engineOut g).reg a = d.reg a := by
  unfold Dev.engineOut
  dsimp only
  split
  · rename_i hg
    have hq : ∀ q : QId, q = .twIn ⟨g, hg⟩ ∨ q = .twOut ⟨g, hg⟩ → a ≠ qbase q + 8 := by
      unfold captureReg at h
      rintro q (rfl | rfl) <;> simp only [qbase, aEng] <;> omega
    exact (Dev.emptyQueue_reg h.offHq _ _ (hq _ (.inr rfl))).trans (Dev.emptyQueue_reg h.offHq _ _ (hq _ (.inl rfl)))
  · rfl

theorem fwBase_ne_captureReg (s : Nat) : a ≠ fwBase s := by
  have hb : fwBase s % 0x40 = 0 := by
    unfold fwBase aEng aLane
    dsimp only
    split <;> try split
    all_goals omega
  unfold captureReg at h
  omega

theorem Dev.planeOut_reg (d : Dev) (p : Fin 2) : (d.planeOut p).reg a = d.reg a := by
  unfold Dev.planeOut
  dsimp only
  rw [Dev.expose_reg h.offHq]
  refine foldl_keeps (fun e : Dev => e.reg a = d.reg a) _ (fun e q he => (Dev.unpair_reg h.offHq h.below e q _).trans he) _ _ ?_
  rw [Dev.postState_reg h.offHq, Dev.post_reg h.offHq]
  rfl

theorem Dev.fencePlane_reg (d : Dev) (p : Fin 2) : (d.fencePlane p).reg a = d.reg a := by
  unfold Dev.fencePlane
  dsimp only
  split
  · rw [Dev.abortUnfence_reg, Dev.planeOut_reg h]
  · exact Dev.planeOut_reg h d p

/-- A unit's fence sets the event of the unit's own window or registers. -/
theorem Dev.fenceUnit_reg (d : Dev) (src : Nat) (hs : srcFamily src = 9 → srcInst src < 256) :
    (d.fenceUnit src).reg a = d.reg a := by
  unfold Dev.fenceUnit
  split
  · split
    · exact Dev.abortUnfence_reg d
    · rfl
  · dsimp only
    have habort : ∀ e : Dev, (if e.plane.resync.any (fun r => r.plane.val = planeOf src) = true then e.abortResync else e).reg a
        = e.reg a := fun e => by split <;> [exact Dev.abortResync_reg e; rfl]
    have hmoves : ∀ e : Dev, (if srcFamily src = 9 then e.abortMoves (srcInst src % 128 / 16) (srcInst src % 16) else e).reg a
        = e.reg a := fun e => by split <;> [exact Dev.abortMoves_reg e _ _; rfl]
    rw [habort, hmoves, Dev.expose_reg h.offHq]
    split
    · rename_i h9
      have := hs h9
      rw [Dev.engineOut_reg h, Dev.raise_reg_ne h.offHq (by unfold captureReg at h; unfold aEng; omega)]
      rfl
    · refine foldl_keeps (fun x : Dev => x.reg a = d.reg a) _ (fun x q hx => (Dev.unpair_reg h.offHq h.below x q _).trans hx)
        _ _ ?_
      exact Dev.post_reg h.offHq ..
    · exact Dev.raise_reg_ne h.offHq (fwBase_ne_captureReg h src) ..

theorem Dev.planeFault_reg (d : Dev) (p : Nat) (instead : Option Nat) (hi : ∀ u ∈ instead, srcFamily u = 14) :
    (d.planeFault p instead).reg a = d.reg a := by
  unfold Dev.planeFault
  split
  · split
    · exact Dev.abortResync_reg d
    · rfl
  · split
    · split
      · rename_i u
        exact Dev.fenceUnit_reg h d u fun h9 => absurd (h9.symm.trans (hi u rfl)) (by decide)
      · rfl
    · exact Dev.fencePlane_reg h d _

/-- No reaction to a record that a source can make touches the capture register of a window (R454). -/
theorem Dev.react_reg {r : FaultRec} (hr : recordOk r = true) (d : Dev) : (d.react r).reg a = d.reg a := by
  obtain ⟨-, -, -, hi⟩ := recordOk_iff.mp hr
  unfold Dev.react
  dsimp only
  split
  · rfl
  · split
    case h_1 => exact Dev.tsuFault_reg h.offTsu d none
    case h_2 =>
      split
      · exact Dev.planeFault_reg h d _ none (by simp)
      · rfl
    case h_3 hf =>
      have hi2 : srcInst r.source.toNat < 2 := by rw [hf] at hi; exact hi
      have hslice : ∀ n, n < 16 → srcFamily (srcOf 14 n) = 14 := fun n hn => by unfold srcFamily srcOf; omega
      split
      · have hp : ∀ (c : Nat), ∀ u ∈ (if c < 8 then some (srcOf 14 (8 * srcInst r.source.toNat + c)) else none),
            srcFamily u = 14 := fun c u hu => by
          split at hu
          · exact Option.mem_some.mp hu ▸ hslice _ (by omega)
          · exact absurd hu (by simp)
        split
        · exact Dev.planeFault_reg h d _ _ (hp _)
        · exact (Dev.abortResync_reg _).trans (Dev.planeFault_reg h d _ _ (hp _))
      · split
        · split
          · exact Dev.fenceUnit_reg h _ _ fun h9 => absurd (h9.symm.trans (hslice _ (by omega))) (by decide)
          · rfl
        · split
          · exact Dev.planeFault_reg h d _ _ fun u hu => Option.mem_some.mp hu ▸ hslice _ (by omega)
          · rfl
    case h_8 => rfl
    all_goals
      rename_i hf
      split
      · rfl
      · split
        · exact Dev.abortUnfence_reg d
        · exact Dev.fenceUnit_reg h d _ fun h9 => by rw [h9] at hi; exact hi

end

end Sys2Proof.Machine
end

section
/-! SUPPORT. What fences, their aborts and the entry to FROZEN make of the redundancy state (`Dev.plane`), said once for each
operation that changes it (R28, R31, R455, R458, R461). -/

namespace Sys2Proof.Machine

theorem Dev.post_plane (d : Dev) (code : Nat) (args : List Byte) : (d.post code args).plane = d.plane :=
  Dev.plane_of_mask (Dev.post_mask (T := [.regs, .host, .jersey]) (by decide) d code args) (by decide)

theorem Dev.raise_plane (d : Dev) (a i code : Nat) (args : List Byte) : (d.raise a i code args).plane = d.plane :=
  Dev.plane_of_mask (Dev.raise_mask (T := [.regs, .host, .jersey]) (by decide) d a i code args) (by decide)

theorem Dev.endAborted_plane (d : Dev) : d.endAborted.plane = d.plane :=
  Dev.plane_of_mask (Dev.endAborted_mask (T := [.regs, .host, .jersey]) (by decide) d) (by decide)

theorem Dev.postState_plane (d : Dev) (was : Nat) : (d.postState was).plane = d.plane :=
  Dev.plane_of_mask (Dev.postState_mask (T := [.regs, .host, .jersey]) (by decide) d was) (by decide)

theorem Dev.unpair_plane (d : Dev) (p c : Nat) : (d.unpair p c).plane = d.plane :=
  Dev.plane_of_mask (Dev.unpair_mask (T := [.regs, .psels, .host, .jersey]) (by decide) d p c) (by decide)

theorem Dev.recordAll_plane (d : Dev) (rs : List FaultRec) : (d.recordAll rs).plane = d.plane :=
  Dev.plane_of_mask (Dev.recordAll_mask (T := [.regs, .host, .jersey, .reports]) (by decide) d rs) (by decide)

theorem Dev.recordIn_plane (d : Dev) (b : Nat) (r : FaultRec) (rs : List FaultRec) (at_ : Option Nat) :
    (d.recordIn b r rs at_).plane = d.plane :=
  Dev.plane_of_mask (Dev.recordIn_mask (T := [.regs, .host, .jersey]) (by decide) d b r rs at_) (by decide)

theorem Dev.armUse_plane (d : Dev) (src k : Nat) : (d.armUse src k).plane = d.plane :=
  Dev.plane_of_mask (Dev.armUse_mask (T := [.regs, .arms]) (by decide) d src k) (by decide)

theorem Dev.expose_plane (d : Dev) : d.expose.plane = { d.plane with exposed := d.exposedNow } := by
  unfold Dev.expose
  refine foldl_keeps (fun e : Dev => e.plane = { d.plane with exposed := d.exposedNow }) _ (fun e p he => ?_) _ _ rfl
  split
  · rw [Dev.post_plane]; exact he
  · exact he

theorem Dev.abortResync_plane (d : Dev) : d.abortResync.plane = { d.plane with resync := none } := by
  unfold Dev.abortResync
  split
  · rename_i h; rw [← h]
  · rfl

theorem Dev.abortUnfence_plane (d : Dev) : d.abortUnfence.plane = { d.plane with unfence := none } := by
  unfold Dev.abortUnfence
  split
  · rename_i h; rw [← h]
  · rfl

/-- A unit that is not fenced gets its fence, and no other (R455). -/
theorem Dev.fenceUnit_fences {d : Dev} {src : Nat} (h : d.fenced src = false) :
    (d.fenceUnit src).plane.fences = tput false d.plane.fences src true := by
  have habort : ∀ e : Dev, (if e.plane.resync.any (fun r => r.plane.val = planeOf src) = true then e.abortResync
      else e).plane.fences = e.plane.fences := fun e => by
    split
    · rw [Dev.abortResync_plane]
    · rfl
  have hmoves : ∀ e : Dev, (if srcFamily src = 9 then e.abortMoves (srcInst src % 128 / 16) (srcInst src % 16) else e).plane
      = e.plane := fun e => by
    split
    · exact Dev.plane_of_mask (Dev.abortMoves_mask (T := [.twill, .host]) (by decide) e _ _) (by decide)
    · rfl
  unfold Dev.fenceUnit
  rw [h, if_neg Bool.false_ne_true]
  dsimp only
  rw [habort, hmoves, Dev.expose_plane]
  dsimp only
  split
  · rw [Dev.plane_of_mask (Dev.engineOut_mask (T := [.regs, .queues, .twill, .host, .jersey]) (by decide) _ _) (by decide),
      Dev.raise_plane]
    rfl
  · refine foldl_keeps (fun x : Dev => x.plane.fences = _) _ (fun x q hx => by rw [Dev.unpair_plane]; exact hx) _ _ ?_
    rw [Dev.post_plane]; rfl
  · rw [Dev.raise_plane]; rfl

/-- The unit that a fence is put on is fenced. -/
theorem Dev.fenceUnit_fenced (d : Dev) (src : Nat) : (d.fenceUnit src).fenced src = true := by
  cases h : d.fenced src with
  | false => unfold Dev.fenced; rw [Dev.fenceUnit_fences h]; exact tget_tput_self ..
  | true =>
    unfold Dev.fenceUnit
    rw [if_pos h]
    split
    · unfold Dev.fenced; rw [Dev.abortUnfence_plane]; exact h
    · exact h

/-- The fence of plane p as a whole and the preference for the other, before any event of them (R28). -/
def Dev.planeStruck (d : Dev) (p : Fin 2) : Dev :=
  let d := (d.setFence (0xF000 + p.val) true).disarm (0xF000 + p.val)
  { d with plane.preferred := if d.plane.preferred = p then (if p = 0 then 1 else 0) else d.plane.preferred }

theorem Dev.planeStruck_plane (d : Dev) (p : Fin 2) : (d.planeStruck p).plane = { d.plane with
    fences := tput false d.plane.fences (0xF000 + p.val) true
    preferred := if d.plane.preferred = p then (if p = 0 then 1 else 0) else d.plane.preferred } := by
  have hslice : srcFamily (0xF000 + p.val) ≠ 14 := by unfold srcFamily; omega
  unfold Dev.planeStruck Dev.setFence Dev.disarm
  simp only [hslice, if_false]

/-- What follows the fence of a plane changes no more of the redundancy state than PLANE_EXPOSED. -/
theorem Dev.planeOut_plane (d : Dev) (p : Fin 2) : ∃ e, (d.planeOut p).plane = { (d.planeStruck p).plane with exposed := e } := by
  have hfold : ∀ (e : Dev) (c : Nat) (l : List Nat), (l.foldl (fun d q => d.unpair q c) e).plane = e.plane := fun e c l =>
    foldl_keeps (fun x : Dev => x.plane = e.plane) _ (fun x q hx => (Dev.unpair_plane x q c).trans hx) l e rfl
  have hexpose : ∀ x : Dev, x.plane = (d.planeStruck p).plane → ∃ e, x.expose.plane = { (d.planeStruck p).plane with exposed := e } :=
    fun x hx => ⟨_, (Dev.expose_plane x).trans (by rw [hx])⟩
  refine hexpose _ ?_
  rw [hfold, Dev.postState_plane, Dev.post_plane]
  rfl

theorem Dev.planeState_congr {d e : Dev} (h : d.plane = e.plane) : d.planeState = e.planeState := by
  unfold Dev.planeState Dev.fencedState Dev.planeFenced Dev.fenced; rw [h]

theorem Dev.fenced_congr {d e : Dev} (h : d.plane = e.plane) (src : Nat) : d.fenced src = e.fenced src := by
  unfold Dev.fenced; rw [h]

theorem Dev.freeze_plane {d : Dev} (h : d.plane.frozen = false) : d.freeze.plane = { d.plane with
    frozen := true, frozenFrom := BitVec.ofNat 2 d.planeState, resync := none, unfence := none } := by
  unfold Dev.freeze
  rw [h, if_neg Bool.false_ne_true]
  dsimp only
  rw [Dev.endAborted_plane, Dev.abortUnfence_plane, Dev.abortResync_plane,
    Dev.plane_of_mask (Dev.calDrop_mask (T := [.regs, .cal, .host, .jersey]) (by decide) _ _) (by decide),
    Dev.plane_of_mask (Dev.dropArms_mask (T := [.regs, .xc, .host, .jersey]) (by decide) _ _) (by decide),
    Dev.postState_plane, Dev.post_plane]

end Sys2Proof.Machine
end

section
/-! PROOF of O41, first part: reports, wire faults and valid pairs. -/

namespace Sys2Proof.Claim

open Machine

/-- A class U report of an engine or bank, not injected, of a checker whose records have a reaction, fences the unit (R454). -/
theorem react_fences {d : Dev} {r : FaultRec} (hcls : r.cls = 2) (hfam : srcFamily r.source.toNat ∈ [9, 11, 12, 13])
    (hk : r.checker.val < 12) (hinj : r.inj = false) (hun : d.plane.unfence = none) :
    d.react r = d.fenceUnit r.source.toNat := by
  have hs : d.suppressed r = false := by unfold Dev.suppressed; rw [hinj]; rfl
  have hk' : ¬ 12 ≤ r.checker.val := by omega
  simp only [List.mem_cons, List.not_mem_nil, or_false] at hfam
  unfold Dev.react
  rcases hfam with hf | hf | hf | hf <;> simp [hs, hcls, hk', hf, hun]

/-- The bit of a pair. -/
theorem pairBit (pair : Fin 3) : (BitVec.ofNat 3 (2 ^ pair.val)).getLsbD pair.val = true := by revert pair; decide

/-- The reports that a pair's source holds back while the pair is invalid (R449). -/
def heldBy (src : BitVec 16) (pair : Fin 3) (x : HeldReport) : Bool :=
  decide (x.r.source = src) && decide (x.r.cls.val = pair.val + 1)

/-- The device as a pair has just read valid again: the collector has still to take the reports. -/
def pairFreed (d : Dev) (src : BitVec 16) (pair : Fin 3) : Dev :=
  { d with
    wires := tput 0 d.wires src.toNat (tget 0 d.wires src.toNat &&& ~~~(BitVec.ofNat 3 (2 ^ pair.val)))
    reports := d.reports.filter (fun x => !heldBy src pair x) }

theorem wireValid_eq (d : Dev) (src : BitVec 16) (pair : Fin 3) :
    d.wireValid src pair = (d.reports.filter (heldBy src pair)).foldl (fun d x => d.recordIn 0x40040 x.r [] (some x.at_))
      (pairFreed d src pair) := rfl

/-- Taking the reports changes neither the wires nor what the sources still hold. -/
theorem wireValid_mask (d : Dev) (src : BitVec 16) (pair : Fin 3) :
    (d.wireValid src pair).mask [.regs, .host, .jersey] = (pairFreed d src pair).mask [.regs, .host, .jersey] := by
  rw [wireValid_eq]
  exact Dev.mask_foldl (fun e x => Dev.recordIn_mask (by decide) e _ _ _ _) _ _

/-- The collector's record of a wire fault (R450). -/
def wireReport (src : BitVec 16) (pair : Fin 3) : FaultRec :=
  { source := src, cls := 2, checker := ⟨12 + pair.val, by omega⟩, master := 0xFF, access := 6 }

theorem wireReport_wire (src : BitVec 16) (pair : Fin 3) : wireRecord (wireReport src pair) = true := by
  unfold wireRecord wireReport
  have := pair.isLt
  simp; omega

/-- A wire fault of a pair that was valid closes it and is recorded (R450). -/
theorem wireFault_closes {d : Dev} {src : BitVec 16} {pair : Fin 3} (hw : wired src.toNat = true)
    (hok : (tget 0 d.wires src.toNat).getLsbD pair = false) :
    d.wireFault src pair = ({ d with
        wires := tput 0 d.wires src.toNat (tget 0 d.wires src.toNat ||| BitVec.ofNat 3 (2 ^ pair.val)) } : Dev).recordIn
      0x40040 (wireReport src pair) [] := by
  unfold Dev.wireFault
  simp only [hw, hok, Bool.not_true, Bool.or_self, Bool.false_eq_true, if_false]
  rfl

/-- Reports of class C, over an invalid pair, and of class U, and the faults and returns of wire pairs (R449, R450, R452–R454). -/
theorem faultReportsAreRecorded : FaultReportsAreRecorded := by
  unfold FaultReportsAreRecorded
  intro s r hl hr
  obtain ⟨-, -, -, hi⟩ := recordOk_iff.mp hr
  have hcap : captureReg (fwBase r.source.toNat + 4) := fwBase_captureReg hi
  refine ⟨fun hcls hpair hfree => ?correctable, fun hpair => ?held, fun fields hcls hfam hk hinj hun => ?fenced,
    fun src pair => ⟨fun hw hok => ?wire, ?valid⟩⟩
  case correctable =>
    refine answers_onDev rfl hl ?_
    unfold EventSet
    dsimp only
    have hinfo := Dev.recordIn_reg (x := fwBase r.source.toNat + 4) (r := r) hcap hfree none (by omega) (by omega)
    rw [Dev.report_one hr, if_pos rfl, Dev.recordAll_taken hpair, Dev.react_correctable hcls, Dev.endAborted_reg hcap.window,
      Dev.endAborted_reg hcap.offHq, hinfo]
    have hs : fwBase r.source.toNat = 0x40040 ∨ srcInst r.source.toNat < 256 :=
      .inr (lt_of_lt_of_le hi (familySize_le _))
    refine ⟨Dev.recordIn_bit hcap hfree none (by decide) fun cap => recordEvents_correctable _ cap hcls, fun he => ?_,
      fun he => Dev.recorded_full _ hcap hs he⟩
    rw [Dev.recorded_empty _ hcap hs he]
    exact (Dev.captureRec_reg _ _ _ _).1
  case held =>
    refine answers_onDev rfl hl ?_
    dsimp only
    rw [Dev.report_one hr, if_pos rfl, Dev.recordAll_held hpair]
    refine ⟨?_, ?_⟩
    · rw [Dev.reports_of_mask (Dev.endAborted_mask (T := [.regs, .host, .jersey]) (by decide) _) (by decide),
        Dev.reports_of_mask (Dev.react_mask (T := [.regs, .plane, .arms, .sliceU, .queues, .psels, .tsu, .cal, .twill, .host,
          .jersey, .mx, .fresh]) (by decide) _ _) (by decide)]
    · rw [Dev.endAborted_reg hcap.offHq, Dev.react_reg hcap hr]; rfl
  case fenced =>
    refine answers_onDev rfl hl ?_
    dsimp only
    rw [Dev.report_one hr, Dev.fenced_congr (Dev.endAborted_plane _),
      react_fences hcls hfam hk hinj (by rw [Dev.recordAll_plane]; exact hun)]
    exact Dev.fenceUnit_fenced _ _
  case wire =>
    refine answers_onDev rfl hl ?_
    dsimp only
    rw [wireFault_closes hw hok]
    refine ⟨?_, by rw [Dev.recordIn_plane], fun hfree => ?_⟩
    · rw [Dev.wires_of_mask (Dev.recordIn_mask (T := [.regs, .host, .jersey]) (by decide) _ _ _ _ _) (by decide), tget_tput_self,
        BitVec.getLsbD_or, pairBit, Bool.or_true]
    · unfold EventSet
      refine Dev.recordIn_bit (b := 0x40040) ?_ ?_ none ?_ ?_
      · exact collector_captureReg
      · exact hfree
      · decide
      · exact fun cap => recordEvents_wire cap (wireReport_wire src pair)
  case valid =>
    refine answers_onDev rfl hl ?_
    dsimp only
    refine ⟨?_, ?_, fun x hx hfree hempty => ?_⟩
    · rw [Dev.wires_of_mask (wireValid_mask _ src pair) (by decide)]
      unfold pairFreed
      rw [tget_tput_self, BitVec.getLsbD_and, BitVec.getLsbD_not, pairBit, Bool.not_true, Bool.and_false, Bool.and_false]
    · rw [Dev.reports_of_mask (wireValid_mask _ src pair) (by decide)]
      rfl
    · have hone : s.dev.reports.filter (heldBy src pair) = [x] := hx
      rw [wireValid_eq, hone, List.foldl_cons, List.foldl_nil]
      have hwindow : ∀ o, 0 < o → o < 0x40 → ((pairFreed s.dev src pair).recordIn 0x40040 x.r [] (some x.at_)).reg (0x40040 + o)
          = (((pairFreed s.dev src pair).countRec 0x40040 x.r).captureRec 0x40040 x.r x.at_).reg (0x40040 + o) := fun o h1 h2 => by
        have he := Dev.recorded_empty (d := pairFreed s.dev src pair) (r := x.r) x.at_ collector_captureReg (.inl rfl) hempty
        rw [Dev.recordIn_reg (d := pairFreed s.dev src pair) collector_captureReg hfree _ (by omega) (by omega), ← he]
        rfl
      obtain ⟨hinfo, hlow, hhigh⟩ := Dev.captureRec_reg ((pairFreed s.dev src pair).countRec 0x40040 x.r) 0x40040 x.r x.at_
      exact ⟨(hwindow 4 (by decide) (by decide)).trans hinfo, (hwindow 16 (by decide) (by decide)).trans hlow,
        (hwindow 20 (by decide) (by decide)).trans hhigh⟩

end Sys2Proof.Claim
end

section
/-! PROOF of O41, second part: the collector, the lockstep pair of the TSU and the forks. -/

namespace Sys2Proof.Machine

/-! ### The state of the TSU after a disagreement of its copies (R25, R298) -/

theorem Dev.tsuRaise_tsu (d : Dev) (evs : List (Nat × List Byte)) : (d.tsuRaise evs).tsu = d.tsu :=
  Dev.tsu_of_mask (Dev.tsuRaise_mask (T := [.regs, .host, .jersey]) (by decide) d evs) (by decide)

theorem Dev.endAborted_tsu (d : Dev) : d.endAborted.tsu = d.tsu :=
  Dev.tsu_of_mask (Dev.endAborted_mask (T := [.regs, .host, .jersey]) (by decide) d) (by decide)

theorem Dev.recordAll_tsu (d : Dev) (rs : List FaultRec) : (d.recordAll rs).tsu = d.tsu :=
  Dev.tsu_of_mask (Dev.recordAll_mask (T := [.regs, .host, .jersey, .reports]) (by decide) d rs) (by decide)

/-- A new frequency term moves the frequency alone, and DCO_CLAMP with it. -/
theorem Dev.setTerm_state (d : Dev) (x : Int) : (d.setTerm x).tsu.st = d.tsu.st ∧ (d.setTerm x).tsu.sel = d.tsu.sel := by
  unfold Dev.setTerm Dev.dcoCheck
  dsimp only
  split
  · rw [Dev.tsuRaise_tsu]; exact ⟨rfl, rfl⟩
  · exact ⟨rfl, rfl⟩

/-- An entry to a state leaves the TSU in it, with the reference named. -/
theorem Dev.tsuEnter_state (d : Dev) (st : Nat) (sel : Option Nat) (extra : List (Nat × List Byte)) :
    (d.tsuEnter st sel extra).tsu.st = st ∧ (d.tsuEnter st sel extra).tsu.sel = sel := by
  have hterm : ((d.tsuMoved st sel).tsuTerm st sel).2.tsu = (d.tsuMoved st sel).tsu :=
    Dev.tsu_of_mask (Dev.tsuTerm_mask _ st sel) (by decide)
  rw [Dev.tsuEnter_eq]
  dsimp only
  obtain ⟨hst, hsel⟩ := Dev.setTerm_state _ _
  rw [hst, hsel, Dev.tsuRaise_tsu]
  dsimp only
  rw [hterm]
  exact ⟨rfl, rfl⟩

/-- A fault of a TSU that runs leaves it without a reference: in HOLDOVER where the kept history is valid, else in FREE_RUN. -/
theorem Dev.tsuFault_state {d : Dev} {equal : Option (List Bool)} (h : (d.histKept equal).tsu.st ≠ 0) :
    (d.tsuFault equal).tsu.sel = none ∧ (d.tsuFault equal).tsu.st
      = if 300 ≤ (d.histKept equal).histLeft ∧ (d.histKept equal).tsu.hoEn = true then 3 else 0 := by
  rw [Dev.tsuFault_eq]
  dsimp only
  rw [if_neg h]
  exact ((Dev.tsuEnter_state _ _ _ _).symm)

/-! ### The plane that a stalled fork belongs to (R22, R28) -/

/-- While both planes work, a fault that fences plane p fences it whole, prefers the other, and leaves that and the stopped
forks as they were. -/
theorem Dev.planeFault_strikes {d : Dev} {p : Fin 2} {instead : Option Nat} (h0 : d.planeFenced 0 = false)
    (h1 : d.planeFenced 1 = false) :
    (d.planeFault p instead).plane.fences = tput false d.plane.fences (0xF000 + p.val) true
    ∧ (d.planeFault p instead).plane.preferred.val = 1 - p.val
    ∧ (d.planeFault p instead).plane.forkStopped = d.plane.forkStopped := by
  have hun : ∀ k, k < 2 → d.planeFenced k = false := fun k hk => by
    obtain rfl | rfl : k = 0 ∨ k = 1 := by omega
    exacts [h0, h1]
  have hplane : (d.planeFault p instead) = d.fencePlane p := by
    unfold Dev.planeFault
    rw [hun p p.isLt, hun (1 - p.val) (by omega), if_neg Bool.false_ne_true, if_neg Bool.false_ne_true]
    congr 1
    revert p; decide
  have hpref : (if d.plane.preferred = p then (if p = 0 then 1 else 0) else d.plane.preferred : Fin 2).val = 1 - p.val := by
    generalize d.plane.preferred = q
    clear hplane hun
    revert q p; decide
  obtain ⟨e, hout⟩ := Dev.planeOut_plane d p
  rw [Dev.planeStruck_plane] at hout
  rw [hplane]
  unfold Dev.fencePlane
  dsimp only
  split
  · rw [Dev.abortUnfence_plane, hout]; exact ⟨rfl, hpref, rfl⟩
  · rw [hout]; exact ⟨rfl, hpref, rfl⟩

end Sys2Proof.Machine

namespace Sys2Proof.Claim

open Machine

/-- The record of a stalled fork (R22). -/
def stallRecord (l : Nat) (p : Fin 2) : FaultRec :=
  { source := BitVec.ofNat 16 (srcOf 8 p), cls := 3, checker := 2, addr := BitVec.ofNat 48 l, master := 0xFE }

/-- A stalled fork is a fault of its plane. -/
theorem stallRecord_source (l : Nat) (p : Fin 2) : srcFamily (stallRecord l p).source.toNat = 8
    ∧ srcInst (stallRecord l p).source.toNat = p.val ∧ recordOk (stallRecord l p) = true := by
  have hsrc : (stallRecord l p).source.toNat = srcOf 8 p := by revert p; simp only [stallRecord]; decide
  have hplace : srcFamily (srcOf 8 p) = 8 ∧ srcInst (srcOf 8 p) = p.val := by clear hsrc; revert p; decide
  obtain ⟨hf, hi⟩ := hplace
  rw [hsrc]
  refine ⟨hf, hi, recordOk_iff.mpr ?_⟩
  rw [hsrc, hf, hi]
  have hcls : (stallRecord l p).cls.val = 3 := rfl
  have hplanes : familySize 8 = 2 := rfl
  omega

/-- The plane that stalled a fork is at fault (R454). -/
theorem react_stall (d : Dev) (l : Nat) (p : Fin 2) : ∃ instead, d.react (stallRecord l p) = d.planeFault p instead := by
  obtain ⟨hf, hi, -⟩ := stallRecord_source l p
  refine ⟨some (srcOf 14 (8 * p + (stallRecord l p).addr.toNat / 8 % 8)), ?_⟩
  have hs : d.suppressed (stallRecord l p) = false := rfl
  have hcls : (stallRecord l p).cls = 3 := rfl
  have hk : (stallRecord l p).checker = 2 := rfl
  generalize stallRecord l p = r at hf hi hs hcls hk
  unfold Dev.react
  simp [hs, hf, hi, hcls, hk]

/-- A command on a device that runs, and that it leaves, leaves the state. -/
theorem onDev_idle {s : State} {f : Dev → Dev} (hl : s.dev.life = .running) (h : f s.dev = s.dev) :
    onDev (live f) s = .next s := by
  rw [onDev_eq, live_running hl, h]

/-- A difference of the collector's copies freezes the device as it was but for the record. -/
theorem collectorFault_freezes {d : Dev} {x : CopyCmp} (hrun : d.plane.frozen = false)
    (hdiff : x.diff ^^^ (d.armMask 0 15 x.offset.toNat).setWidth 32 ≠ 0) :
    ∃ e : Dev, e.plane = d.plane ∧ d.collectorFault x = e.freeze := by
  unfold Dev.collectorFault
  rw [hrun, if_neg Bool.false_ne_true]
  dsimp only
  rw [if_neg hdiff]
  refine ⟨_, ?_, rfl⟩
  rw [Dev.recordIn_plane]
  split
  · rfl
  · exact Dev.armUse_plane d 0 15

/-- Copies that agree, an armed comparison's mask included, keep the redundancy state. -/
theorem collectorFault_agrees {d : Dev} {x : CopyCmp}
    (hsame : x.diff ^^^ (d.armMask 0 15 x.offset.toNat).setWidth 32 = 0) : (d.collectorFault x).plane = d.plane := by
  unfold Dev.collectorFault
  split
  · rfl
  · dsimp only
    rw [if_pos hsame]
    split
    · rfl
    · exact Dev.armUse_plane d 0 15

/-- The record of a disagreement of the TSU's copies (R25). -/
def lockRecord : FaultRec := { source := 0x1000, cls := 2, checker := 0, master := 0xFF, access := 6 }

/-- A comparison that is not armed compares the words as they are. -/
theorem lockstep_unarmed {d : Dev} (harm : d.armMask 0x1000 0 0 = 0) (x : LockCmp) : d.lockstep x =
    if x.diff = 0 then d else ((d.recordAll [lockRecord]).tsuFault (some x.equal)).endAborted := by
  unfold Dev.lockstep
  rw [harm]
  dsimp only
  have hword : x.diff ^^^ (0 : Byte).setWidth 64 = x.diff := BitVec.xor_zero
  rw [if_pos rfl, hword]
  rfl

/-- A fork that feeds a plane stops doing so when the plane stalls it, and the plane's record is reacted to (R22). -/
theorem forkStalled_fed {d : Dev} {l : Nat} {p : Fin 2} (h : d.forkFeeds l p = true) :
    ∃ e : Dev, e.plane = { d.plane with forkStopped := tput false d.plane.forkStopped (64 * p + l) true }
      ∧ d.forkStalled l p = (e.react (stallRecord l p)).endAborted := by
  obtain ⟨-, -, hok⟩ := stallRecord_source l p
  have hone : [stallRecord l p].filter recordOk = [stallRecord l p] := by rw [List.filter_cons_of_pos hok, List.filter_nil]
  refine ⟨Dev.recordAll { d with plane.forkStopped := tput false d.plane.forkStopped (64 * p + l) true } [stallRecord l p],
    Dev.recordAll_plane _ _, ?_⟩
  unfold Dev.forkStalled
  rw [h, Bool.not_true, if_neg Bool.false_ne_true]
  show Dev.faults _ [stallRecord l p] = _
  unfold Dev.faults
  rw [hone]
  rfl

/-- Whole blocks: the collector, the TSU's copies and the forks (R22, R25, R28, R298, R457). -/
theorem wholeBlocksFail : WholeBlocksFail := by
  unfold WholeBlocksFail
  intro s hl
  refine ⟨fun x hrun => ⟨fun hdiff => ?differ, fun hsame => ?same⟩,
    fun x harm => ⟨fun hsame => ?agree, fun hdiff hst => ?disagree⟩,
    fun l p => ⟨fun h0 h1 hfeeds => ?stall, fun hfeeds => ?unfed⟩⟩
  case differ =>
    refine answers_onDev (f := fun d => d.collectorFault x) rfl hl ?_
    obtain ⟨e, hp, he⟩ := collectorFault_freezes hrun hdiff
    have hfrozen := Dev.freeze_plane (d := e) (by rw [hp]; exact hrun)
    dsimp only
    rw [he]
    have hstate : e.freeze.planeState = 3 := by unfold Dev.planeState; rw [hfrozen]; exact if_pos rfl
    rw [hstate, hfrozen, ← Dev.planeState_congr hp]
    exact ⟨rfl, rfl, rfl, rfl, rfl⟩
  case same =>
    refine answers_onDev (f := fun d => d.collectorFault x) rfl hl ?_
    exact collectorFault_agrees hsame
  case agree =>
    have hf : s.dev.lockstep x = s.dev := by rw [lockstep_unarmed harm, if_pos hsame]
    exact onDev_idle hl hf
  case disagree =>
    refine answers_onDev (f := fun d => d.lockstep x) rfl hl ?_
    dsimp only
    rw [lockstep_unarmed harm, if_neg hdiff, Dev.endAborted_tsu]
    have hkept : ((s.dev.recordAll [lockRecord]).histKept (some x.equal)).tsu = (s.dev.histKept (some x.equal)).tsu := by
      unfold Dev.histKept
      simp only [Option.elim_some, Dev.recordAll_tsu]
    have hrun : (s.dev.histKept (some x.equal)).tsu.st ≠ 0 := hst
    have hleft : ((s.dev.recordAll [lockRecord]).histKept (some x.equal)).histLeft
        = (s.dev.histKept (some x.equal)).histLeft := by unfold Dev.histLeft; rw [hkept]
    obtain ⟨hsel, hstate⟩ := Dev.tsuFault_state (d := s.dev.recordAll [lockRecord]) (equal := some x.equal) (by rw [hkept]; exact hrun)
    rw [hsel, hstate, hkept, hleft]
    exact ⟨rfl, rfl⟩
  case stall =>
    refine answers_onDev (f := fun d => d.forkStalled l p) rfl hl ?_
    obtain ⟨e, hplane, hdev⟩ := forkStalled_fed hfeeds
    have hfence : ∀ k, e.planeFenced k = s.dev.planeFenced k := fun k => by unfold Dev.planeFenced Dev.fenced; rw [hplane]
    obtain ⟨instead, hreact⟩ := react_stall e l p
    obtain ⟨hfences, hpref, hstop⟩ := Dev.planeFault_strikes (p := p) (instead := instead) ((hfence 0).trans h0) ((hfence 1).trans h1)
    dsimp only
    unfold Dev.planeFenced Dev.fenced
    rw [hdev, hreact, Dev.endAborted_plane, hstop, hfences, hplane]
    dsimp only
    refine ⟨tget_tput_self .., tget_tput_self .., ?_, hpref⟩
    have hother : s.dev.planeFenced (1 - p.val) = false := by
      obtain h | h : 1 - p.val = 0 ∨ 1 - p.val = 1 := by omega
      · rw [h]; exact h0
      · rw [h]; exact h1
    rw [tget_tput_ne _ _ _ (by omega)]
    exact hother
  case unfed =>
    have hf : s.dev.forkStalled l p = s.dev := by unfold Dev.forkStalled; rw [hfeeds]; rfl
    exact onDev_idle hl hf

/-- Settles O41: reports and wire faults by what the records of an instant write and the reactions leave, whole blocks by what a
plane's fence, the entry to FROZEN and a fault of the TSU make of the state. -/
theorem faultsAreRecordedAndReactedTo : Obligations.FaultsAreRecordedAndReactedTo := by
  unfold Obligations.FaultsAreRecordedAndReactedTo
  exact ⟨faultReportsAreRecorded, wholeBlocksFail⟩

end Sys2Proof.Claim
end

section
/-! PROOF of O4: every row is of a shape that keeps the canonical form of the storage memories, by the lemma about the operation
that it runs on them (Laws/MemoryKept). -/

namespace Sys2Proof.Machine

/-- A row's outcome leaves the storage memories in canonical form where `s` has them so. -/
def KeepsForm (s : State) (o : Out1) : Prop := ∀ t, o = .next t → Memory.wf s.mem = true → Memory.wf t.mem = true

variable {s : State}

/-! ### Shapes of rows -/

/-- A row that changes the device alone. -/
theorem next_keepsForm (s : State) (d : Dev) : KeepsForm s (.next { s with dev := d }) := fun _ h w => by cases h; exact w

theorem onMem_keepsForm {f : Dev → List Host.Cell → Dev × List Host.Cell} (h : KeepsMem f) : KeepsForm s (onMem f s) :=
  fun _ e w => onMem_wf h w e

theorem liveMem_keepsForm {f : Dev → List Host.Cell → Dev × List Host.Cell} (h : KeepsMem f) :
    KeepsForm s (onMem (liveMem f) s) := onMem_keepsForm (liveMem_wf h)

theorem onSync_keepsForm (f : Dev → Dev) : KeepsForm s (onSync f s) := fun _ e w => onSync_wf f w e

/-- A descriptor of another length faults, so that its row keeps what the row's action keeps. -/
theorem KeepsForm.guarded {o : Out1} (h : KeepsForm s o) (c : Desc) :
    KeepsForm s (if c.wf then o else .fault .malformedDescriptor) := by
  split
  · exact h
  · exact fun _ e => by cases e

theorem hostRow_keepsForm (op : Nat) (c : Desc) (run : Desc → Dev → Nat → Ran) : KeepsForm s (hostRow op c run s) :=
  (next_keepsForm s _).guarded c

theorem bulkRow_keepsForm (op : Nat) (c : Desc) (bulk : HostRead) (run : List Byte → Dev → Nat → Ran) :
    KeepsForm s (bulkRow op c bulk run s) := (next_keepsForm s _).guarded c

theorem hostSync_keepsForm (op : Nat) (c : Desc) (run : Desc → Dev → Nat → Ran) : KeepsForm s (hostSync op c run s) :=
  (onSync_keepsForm _).guarded c

theorem rowWrite_keepsForm (via : Via) (a : Nat) (w : Word) : KeepsForm s (rowWrite via a w s) :=
  onMem_keepsForm (writeDw_wf via a w)

theorem masterWrite_keepsForm (m a : Nat) (w : Word) : KeepsForm s (masterWrite m a w s) := by
  refine onMem_keepsForm fun d mem hw => ?_
  cases decide (m ≤ 17) && d.mayWrite (if m = 1 then .mgr else if m = 0 then .pf0 else .mgr) a with
  | true => exact writeReg_wf m 0 a w d mem hw
  | false => exact hw

theorem execRegisterWrite_keepsForm (via : Via) (sh : Shape) (addr : BitVec 26) (x : Data) :
    KeepsForm s (execRegisterWrite via sh addr x s) := by
  cases via with
  | bar2 | cfg f => exact next_keepsForm s _
  | pf0 | pf1 | mgr => exact onMem_keepsForm (writeBar_wf _ sh _ x)

theorem jyControl_wf (j : Nat) (m : JyRx) : KeepsMem (jyControl j m) := fun d mem w =>
  damaskSync_wf d (jyMessage j m d mem).1 (jyMessage_wf j m d mem w)

/-! ### Every command -/

/-- Every command keeps the form: by the shape of its row, with the operation of its own for a row that acts on the memories. -/
theorem exec_keepsForm (i : Instr) : KeepsForm s (exec i s) := by
  cases i with
  | nop c | laneCfg c | portCfg c | defectCfg c | xcSwap c | mergeGroupCfg c | apsCfg c | protCommand c | queueCfg c
  | shaperCfg c | policerCfg c | gateCfg c | tsuRefCfg c | tsuSteer c | tsuRealign c | calRun c | calTableCommit c
  | statsSnap c | enginePkgLoad c | planeHandover c | engineCfg c | faultAction c => exact hostRow_keepsForm _ c _
  | attest c bulk | keyAdmin c bulk => exact bulkRow_keepsForm _ c bulk _
  | unknownOpcode op c => exact (next_keepsForm s _).guarded c
  | mapCfg c | xcWrite c => exact hostSync_keepsForm _ c _
  | mapCfgTakesEffect o | swapTick | swapBoundary table pos | jyTime tick sec ns mseq delay ql => exact onSync_keepsForm _
  | satopCfg c => exact (onMem_keepsForm fun d mem w => Dev.moveBlocks_wf _ mem w).guarded c
  | satopReserveApplied => exact liveMem_keepsForm fun d mem w => Dev.moveBlocks_wf _ mem w
  | storageRead m addr u => exact liveMem_keepsForm (storageRead_wf m _ u)
  | memoryScrub m addr u => exact liveMem_keepsForm (memoryScrub_wf m _ u)
  | unfenceDone x => exact liveMem_keepsForm (unfenceDone_wf x)
  | resyncComplete bad => exact liveMem_keepsForm (resyncComplete_wf bad)
  | frameStart n => exact liveMem_keepsForm (frameStart_wf n)
  | satopPacketRx e k => exact liveMem_keepsForm (Dev.satopRx_wf e k none)
  | satopPlayout e => exact liveMem_keepsForm (satopPlayout_wf e)
  | satopPacketTx e k => exact liveMem_keepsForm (satopTx_wf e k)
  | macFrameRx i f => exact liveMem_keepsForm (Dev.macRx_wf _ f)
  | gfpFrame o area w => exact liveMem_keepsForm (gfpFrame_wf o area w)
  | mergeUnitArrival g west u => exact liveMem_keepsForm (unitArrival_wf g west u)
  | mergePlayout g => exact liveMem_keepsForm (mergePlayout_wf g)
  | mergeResizeApplied g => exact liveMem_keepsForm (mergeResizeApplied_wf g)
  | keyAdminDone ok => exact liveMem_keepsForm (keyAdminDone_wf ok)
  | twPkgLoaded => exact liveMem_keepsForm pkgLoaded_wf
  | engineMoveDone j src => exact liveMem_keepsForm (moveDone_wf j src)
  | warmResetDone => exact liveMem_keepsForm warmDone_wf
  | cfgCommitDone => exact liveMem_keepsForm commitDone_wf
  | porNAssert ns => exact onMem_keepsForm (porAssert_wf ns)
  | railUndervoltage => exact onMem_keepsForm railLow_wf
  | bootDone a b => exact onMem_keepsForm (bootDone_wf a b)
  | jyControlMessage j m => exact onMem_keepsForm (jyControl_wf j m)
  | registerWrite via sh addr x => exact execRegisterWrite_keepsForm via sh addr x
  | data8 m u w | data16 m u w | data32 m u w | crcLoad m u w => exact masterWrite_keepsForm _ _ _
  | aliasWrite via | rsSeqClear via | ringEnable via | ringPiWrite via | ringCiWrite via | xcTableRead via
  | tableWindowRead via | tableWindowWrite via | cfgCommit via | cfgCrcRefWrite via | timeCapture via | remoteRead via
  | remoteWrite via | jyLinkRestart via | jyBuildWrite via | fwRearm via | injArm via | calCfgWrite via | xcTickCfgWrite via
  | freezePort via | forceSelector via | stopService via | forcePlane via | urgentUnknownCmd via
  | warmResetHostQueueEngine via | warmResetTsu via | warmResetCal via | warmResetSecurity via
  | warmResetStatisticsDma via | warmResetCrcUnit via | warmResetLane via => exact rowWrite_keepsForm via _ _
  | _ => exact next_keepsForm s _

/-- An idle step leaves the memories. -/
theorem idle_mem (s : State) : (idle s).mem = s.mem := by unfold idle; split <;> rfl

end Sys2Proof.Machine

namespace Sys2Proof.Claim

open Machine

/-- Settles O4: a step is idle, or it is the command at the front of the queue. -/
theorem memoryKeepsItsForm : Obligations.MemoryKeepsItsForm := by
  unfold Obligations.MemoryKeepsItsForm
  intro s t w h
  unfold step at h
  cases hp : s.pending with
  | nil => rw [hp] at h; cases h; rw [idle_mem]; exact w
  | cons c rest => rw [hp] at h; exact exec_keepsForm c t h w

end Sys2Proof.Claim
end

section
/-! PROOF of O59 and O60: datapath parity bit by bit, and the pop of an empty queue for each consumer. -/

namespace Sys2Proof.Machine

/-- Of the bits that a fold over the first `n` places sets, bit j is the one that its place sets. -/
theorem placedBits_getLsbD (f : Nat → Bool) {n j : Nat} (hn : n ≤ 8) :
    ((List.range n).foldl (fun (c : Byte) i => if f i then c else c ||| BitVec.ofNat 8 (2 ^ i)) 0).getLsbD j
      = (decide (j < n) && !f j) := by
  induction n with
  | zero => simp
  | succ n ih =>
    have hbit : (BitVec.ofNat 8 (2 ^ n)).getLsbD j = decide (j = n) := by
      rw [BitVec.getLsbD_ofNat, Nat.testBit_two_pow]
      by_cases hj : j = n
      · simp [hj]; omega
      · simp [hj, Ne.symm hj]
    have hstep : ∀ c : Byte, (if f n then c else c ||| BitVec.ofNat 8 (2 ^ n)).getLsbD j
        = (c.getLsbD j || decide (j = n) && !f j) := fun c => by
      by_cases hj : j = n
      · subst hj
        cases h : f j with
        | true => simp
        | false => rw [if_neg Bool.false_ne_true, BitVec.getLsbD_or, hbit]; simp
      · rw [decide_eq_false hj, Bool.false_and, Bool.or_false]
        split
        · rfl
        · rw [BitVec.getLsbD_or, hbit, decide_eq_false hj, Bool.or_false]
    rw [List.range_succ, List.foldl_append, List.foldl_cons, List.foldl_nil, hstep, ih (by omega), ← Bool.and_or_distrib_right]
    congr 1
    rw [← Bool.decide_or]
    exact decide_eq_decide.mpr (by omega)

/-- C[i] is set where byte i has an even number of ones (R40). -/
theorem parity_getLsbD (d : Data) {i : Nat} (hi : i < 8) : (parity d).getLsbD i = !oddOnes (byteOf d i) := by
  unfold parity
  rw [placedBits_getLsbD (fun i => oddOnes (byteOf d i)) (le_refl 8), decide_eq_true hi, Bool.true_and]

/-! ### Empty queues (R47) -/

section
variable {d : Dev} {q : QId} (u : QItem) (h : (d.queue q).items = [])
include h

theorem Dev.qRead_empty : d.qRead q u = (none, d) := by
  unfold Dev.qRead
  simp only [h]

theorem Dev.qPop_empty : d.qPop q u = d := by
  unfold Dev.qPop
  rw [Dev.qRead_empty u h]
  exact ite_self d

theorem Dev.queuePop_empty : d.queuePop q u = d := by
  unfold Dev.queuePop
  split
  · rw [Dev.qRead_empty u h]; exact ite_self d
  · rw [h]; rfl
  · exact Dev.qPop_empty u h

end

end Sys2Proof.Machine

namespace Sys2Proof.Claim

open Machine

/-- Settles O59: a byte's bit of C is set where the byte's own ones are even. -/
theorem parityIsOddOnEveryByte : Obligations.ParityIsOddOnEveryByte := by
  unfold Obligations.ParityIsOddOnEveryByte
  refine ⟨fun d i hi => ?_, by decide, fun _ _ _ => rfl⟩
  rw [parity_getLsbD d hi]
  unfold oddOnes
  by_cases h : weight (byteOf d i) % 2 = 1
  · simp [h]
  · simp [h]; omega

/-- Settles O60: nothing is read from an empty queue, whichever consumer pops it. -/
theorem popOfAnEmptyQueueIsIdle : Obligations.PopOfAnEmptyQueueIsIdle := by
  unfold Obligations.PopOfAnEmptyQueueIsIdle
  refine ⟨fun s q u h => ⟨?_, Dev.qRead_empty u h, by rw [Dev.qRead_empty u h]; rfl⟩, by decide +kernel, by decide +kernel⟩
  have hkeep : live (fun d => d.queuePop q u) s.dev = s.dev := by
    unfold live
    dsimp only
    rw [Dev.queuePop_empty u h, ite_self]
  exact (onDev_eq _ s).trans (by rw [hkeep])

end Sys2Proof.Claim
end

section
/-! REFUTATION of O51, against the clause that a word read as poisoned makes every function's read of the table window's data a
poisoned TLP: a read of BAR2 reaches the MSI-X table, not the window (R367), and no read of it is poisoned. -/

namespace Sys2Proof.Claim

open Machine

/-- A device that runs, with word 1 of merge-store bank 0 named by TBL_SEL, and that word stored as stored poison. -/
def poisonedWindow : State :=
  { dev := { life := .running, regs := [(0x100, 1)] }, mem := [(cellOf 0 1 8, 0x7F)], pending := [] }

theorem poisonedWindow_word : poisonedWindow.dev.tblWord = some (.merge 0, srcOf 11 0, 1) := by decide

theorem poisonedWindow_poison : eccOf (syndrome poisonedWindow.mem (memNo (.merge 0)) 1) = .poison := by decide

/-- A read of one DW of BAR2 is no poisoned TLP. -/
theorem hostRead_bar2 (d : Dev) (addr : Nat) : (d.hostRead .bar2 (.dw 0xF) addr).2 = false := rfl

/-- Refutes O51: the clause on poisoned reads covers every way to make a read. In the state `poisonedWindow` TABLE_WINDOW_READ is
said to make a read of BAR2 at 0x104 a poisoned TLP too. -/
theorem not_windowsAndTriggersAct : ¬ Obligations.WindowsAndTriggersAct := by
  unfold Obligations.WindowsAndTriggersAct
  intro h
  obtain ⟨-, -, hpoison, -⟩ := h poisonedWindow rfl rfl rfl rfl
  obtain ⟨u, -, -, -, hread⟩ := hpoison (.merge 0) (srcOf 11 0) 1 poisonedWindow_word poisonedWindow_poison
  obtain ⟨hlow, -⟩ := hread .bar2 0 (by decide)
  exact Bool.false_ne_true ((hostRead_bar2 u.dev _).symm.trans (congrArg Prod.snd hlow))

end Sys2Proof.Claim
end

section
/-! SUPPORT. Reads of storage with no checker armed (R38): what the read leaves and delivers, by what the syndrome says of the
word, and the record that it makes of a wrong one. -/

namespace Sys2Proof.Machine

/-- The record of a wrong word that a read met, with no injection (R452). -/
def storageRecord (m : MemId) (addr : Nat) (master : Byte) (access : Fin 8) (cls : Fin 4) (syn : Byte) : FaultRec :=
  { source := BitVec.ofNat 16 (memSource m).1, cls := cls, checker := if (memSource m).2 = 1 then 1 else 0
    addr := BitVec.ofNat 48 addr, master := master, access := access, syndrome := syn }

theorem storageRecord_source (m : MemId) (addr : Nat) (master : Byte) (access : Fin 8) (cls : Fin 4) (syn : Byte) :
    (storageRecord m addr master access cls syn).source.toNat = (memSource m).1 := by
  refine (BitVec.toNat_ofNat _ _).trans (Nat.mod_eq_of_lt ?_)
  cases m <;> simp only [memSource, srcOf] <;> omega

/-- A storage memory is one of the sources that make records (R447). -/
theorem storageRecord_ok (m : MemId) (addr : Nat) (master : Byte) (access : Fin 8) {cls : Fin 4} (hcls : 1 ≤ cls.val) (syn : Byte) :
    recordOk (storageRecord m addr master access cls syn) = true := by
  refine recordOk_iff.mpr ⟨hcls, ?_⟩
  rw [storageRecord_source]
  cases m with
  | merge n | packet n | damask n | twInstr n | twData n | config n | psel n =>
    have hn := n.isLt
    have hfam : ∀ f, srcFamily (srcOf f n.val) = f ∧ srcInst (srcOf f n.val) = n.val := fun f => by
      unfold srcFamily srcInst srcOf; omega
    simp only [memSource, hfam, familySize]
    omega
  | tsuHist | hostBuf | mxBuf | secMem | regCrc => simp only [memSource]; decide

theorem storageRecord_checker (m : MemId) (addr : Nat) (master : Byte) (access : Fin 8) (cls : Fin 4) (syn : Byte) :
    (storageRecord m addr master access cls syn).checker.val < 12 := by
  unfold storageRecord; dsimp only; split <;> decide

section
variable {d : Dev} {mem : List Host.Cell} {m : MemId} {a : Nat} (master : Byte) (access : Fin 8)

/-- Stored poison is delivered as it stands, whatever is armed. -/
theorem readStored_poison (he : eccOf (syndrome mem (memNo m) a) = .poison) : readStored d mem m a master access =
    { d := d, mem := mem, data := wordData mem (memNo m) a, check := wordCheck mem (memNo m) a, poison := true } := by
  unfold readStored
  exact if_pos he

variable (harm : d.armMask (memSource m).1 (memSource m).2 a = 0)
include harm

theorem readStored_clean (he : eccOf (syndrome mem (memNo m) a) = .clean) : readStored d mem m a master access =
    { d := d, mem := mem, data := wordData mem (memNo m) a, check := wordCheck mem (memNo m) a, poison := false } := by
  unfold readStored
  dsimp only
  rw [harm, he]
  rfl

/-- More than one wrong bit: the word stays, and is delivered with P = 1. -/
theorem readStored_bad (he : eccOf (syndrome mem (memNo m) a) = .bad) : readStored d mem m a master access =
    { d := d.fault1 (storageRecord m a master access 2 (syndrome mem (memNo m) a)), mem := mem
      data := wordData mem (memNo m) a, check := wordCheck mem (memNo m) a, poison := true } := by
  unfold readStored
  dsimp only
  rw [harm, he]
  rfl

/-- One wrong bit: the word `v` without it is delivered, and stored with its check field. -/
theorem readStored_corrected {v : Data}
    (hv : eccOf (syndrome mem (memNo m) a) = .checkOnly ∧ v = wordData mem (memNo m) a
      ∨ ∃ j, eccOf (syndrome mem (memNo m) a) = .data j ∧ v = wordData mem (memNo m) a ^^^ BitVec.ofNat 64 (2 ^ j)) :
    readStored d mem m a master access =
      { d := d.fault1 (storageRecord m a master access 1 (syndrome mem (memNo m) a)), mem := putWord mem (memNo m) a v false
        data := v, check := wordCheck mem (memNo m) a, poison := false } := by
  unfold readStored
  dsimp only
  obtain ⟨he, rfl⟩ | ⟨j, he, rfl⟩ := hv <;> rw [harm, he] <;> rfl

end

/-! ### The record of the wrong word -/

theorem Dev.fault1_eq {d : Dev} {r : FaultRec} (h : recordOk r = true) : d.fault1 r = ((d.recordAll [r]).react r).endAborted := by
  unfold Dev.fault1 Dev.faults
  rw [List.filter_cons_of_pos h]
  rfl

/-- A class C record that reaches its window sets CORRECTED there. -/
theorem Dev.fault1_corrected {d : Dev} {r : FaultRec} (hr : recordOk r = true) (hcls : r.cls = 1) (hpair : d.pairBad r = false)
    (hf : d.plane.frozen = false) : bit ((d.fault1 r).reg (fwBase r.source.toNat)) 0 = true := by
  obtain ⟨-, -, -, hi⟩ := recordOk_iff.mp hr
  have hcap := fwBase_captureReg hi
  rw [Dev.fault1_eq hr, Dev.endAborted_reg hcap.window, Dev.react_correctable hcls, Dev.recordAll_taken hpair]
  exact Dev.recordIn_bit hcap hf none (by decide) fun cap => recordEvents_correctable _ cap hcls

/-- A class U record of an engine or bank fences it, where no return of a unit is under way. -/
theorem Dev.fault1_fences {d : Dev} {r : FaultRec} (hr : recordOk r = true) (hcls : r.cls = 2)
    (hfam : srcFamily r.source.toNat ∈ [9, 11, 12, 13]) (hk : r.checker.val < 12) (hinj : r.inj = false)
    (hun : d.plane.unfence = none) : (d.fault1 r).fenced r.source.toNat = true := by
  rw [Dev.fault1_eq hr, Dev.fenced_congr (Dev.endAborted_plane _),
    Claim.react_fences hcls hfam hk hinj (by rw [Dev.recordAll_plane]; exact hun)]
  exact Dev.fenceUnit_fenced _ _

/-! ### What a completion leaves of the record of what has been sent -/

theorem Dev.jySendAt_out (d : Dev) (j ty : Nat) (payload : List Byte) (cls : Nat) :
    d.host.out <:+ (d.jySendAt j ty payload cls).host.out := by
  unfold Dev.jySendAt
  split
  · exact jyPump_out _ _ (d.updLink j _)
  · exact List.suffix_rfl

theorem Dev.complete_out (d : Dev) (op jid : Nat) (r : Done) : d.host.out <:+ (d.complete op jid r).host.out := by
  unfold Dev.complete
  split
  · exact List.suffix_rfl
  · rename_i j _
    let e : Dev := { d with host.jobs := d.host.jobs.filter (fun x => x.id ≠ jid) }
    dsimp only
    split
    · exact Dev.jySendAt_out e _ _ _ _
    · unfold Dev.writeCompletion
      split
      · exact Dev.writeEntry_out e _ _
      · exact List.suffix_rfl

theorem Dev.endAborted_out (d : Dev) : d.host.out <:+ d.endAborted.host.out := by
  unfold Dev.endAborted
  exact foldl_keeps (fun e : Dev => d.host.out <:+ e.host.out) _ (fun e x he => he.trans (Dev.complete_out e _ _ _)) _ _
    List.suffix_rfl

theorem Dev.abortResync_out (d : Dev) : d.abortResync.host.out = d.host.out := by
  unfold Dev.abortResync; split <;> rfl

theorem Dev.abortResync_fenced (d : Dev) (src : Nat) : d.abortResync.endAborted.fenced src = d.fenced src := by
  unfold Dev.fenced
  rw [Dev.endAborted_plane, Dev.abortResync_plane]

/-! ### The two readers -/

section
variable {d : Dev} {mem : List Host.Cell} {m : MemId} (hm : d.memFenced m = false)
include hm

/-- The scrub of a unit that is not fenced reads the word. -/
theorem memoryScrub_eq (addr : Nat) (u : BitVec 72) : memoryScrub m addr u d mem =
    let r := readStored d (flipWord mem (memNo m) (addr % memWords m) u) m (addr % memWords m) 0xFE 4
    (r.d, r.mem) := by
  unfold memoryScrub
  dsimp only
  rw [hm, if_neg Bool.false_ne_true]

/-- A read by the datapath of a unit that is not fenced delivers what it read; a poisoned word of a configuration store may end a
resynchronisation (R31). -/
theorem storageRead_eq (addr : Nat) (u : BitVec 72) :
    let r := readStored d (flipWord mem (memNo m) (addr % memWords m) u) m (addr % memWords m) (memMaster m) 0
    let e := r.d.deliver (memSource m).1 r.data r.poison
    (storageRead m addr u d mem).2 = r.mem
      ∧ ((storageRead m addr u d mem).1 = e ∨ r.poison = true ∧ (storageRead m addr u d mem).1 = e.abortResync.endAborted) := by
  unfold storageRead readPath
  dsimp only
  rw [hm, Bool.false_and, if_neg Bool.false_ne_true, Bool.false_and, if_neg Bool.false_ne_true]
  split
  · refine ⟨rfl, ?_⟩
    dsimp only
    split
    · rename_i h
      exact .inr ⟨(Bool.and_eq_true _ _ ▸ h).1, rfl⟩
    · exact .inl rfl
  · exact ⟨rfl, .inl rfl⟩

end

end Sys2Proof.Machine
end

section
/-! PROOF of O40: each clause fixes what the syndrome says, and with it the read. -/

namespace Sys2Proof.Claim

open Machine

/-- A row that acts on the device and the memories, in a device that runs, answers what its operation makes of them. -/
theorem answers_onMem {c : Instr} {s : State} {f : Dev → List Host.Cell → Dev × List Host.Cell} {P : State → Prop}
    (hc : exec c s = onMem (liveMem f) s) (hl : s.dev.life = .running)
    (h : P { s with dev := (f s.dev s.mem).1, mem := (f s.dev s.mem).2 }) : Answers c s P :=
  ⟨_, hc.trans (by rw [onMem_eq, liveMem, if_pos hl]), h⟩

section
variable {s : State} {m : MemId} {addr : BitVec 18} {u : BitVec 72} {m0 : List Host.Cell} {P : State → Prop}
  (hl : s.dev.life = .running) (hm : s.dev.memFenced m = false) (hm0 : flipWord s.mem (memNo m) (addr.toNat % memWords m) u = m0)
include hl hm hm0

/-- What a scrub answers, by what the read leaves. -/
theorem answers_memoryScrub {r : Read1} (hr : readStored s.dev m0 m (addr.toNat % memWords m) 0xFE 4 = r)
    (h : P { s with dev := r.d, mem := r.mem }) : Answers (.memoryScrub m addr u) s P := by
  refine answers_onMem rfl hl ?_
  rw [memoryScrub_eq hm, hm0, hr]
  exact h

/-- What a read by the datapath answers, by what the read leaves and delivers. -/
theorem answers_storageRead {r : Read1} (hr : readStored s.dev m0 m (addr.toNat % memWords m) (memMaster m) 0 = r)
    (h : P { s with dev := r.d.deliver (memSource m).1 r.data r.poison, mem := r.mem })
    (hend : r.poison = true → P { s with dev := (r.d.deliver (memSource m).1 r.data r.poison).abortResync.endAborted, mem := r.mem }) :
    Answers (.storageRead m addr u) s P := by
  obtain ⟨hmem, hdev⟩ := storageRead_eq (mem := s.mem) hm addr.toNat u
  rw [hm0, hr] at hmem hdev
  refine answers_onMem rfl hl ?_
  rw [hmem]
  obtain hd | ⟨hp, hd⟩ := hdev
  · rw [hd]; exact h
  · rw [hd]; exact hend hp

end

/-- Settles O40: a read is what its word's syndrome makes of it, for the datapath as for the scrub. -/
theorem storageIsCheckedAndCorrected : Obligations.StorageIsCheckedAndCorrected := by
  unfold Obligations.StorageIsCheckedAndCorrected
  intro s m addr u hl hm
  dsimp only
  generalize hm0 : flipWord s.mem (memNo m) (addr.toNat % memWords m) u = m0
  intro harm
  refine ⟨fun e v he hv => ?corrected, fun he => ?clean, fun he => ?poison, fun he => ?bad⟩
  case corrected =>
    have hv' : eccOf (syndrome m0 (memNo m) (addr.toNat % memWords m)) = .checkOnly
          ∧ v = wordData m0 (memNo m) (addr.toNat % memWords m)
        ∨ ∃ j, eccOf (syndrome m0 (memNo m) (addr.toNat % memWords m)) = .data j
          ∧ v = wordData m0 (memNo m) (addr.toNat % memWords m) ^^^ BitVec.ofNat 64 (2 ^ j) := he ▸ hv
    have hset : ∀ master access syn, s.dev.plane.frozen = false → (tget 0 s.dev.wires (memSource m).1).getLsbD 0 = false →
        bit ((s.dev.fault1 (storageRecord m (addr.toNat % memWords m) master access 1 syn)).reg (fwBase (memSource m).1)) 0 = true := by
      intro master access syn hf hwire
      have hsrc := storageRecord_source m (addr.toNat % memWords m) master access 1 syn
      rw [← hsrc] at hwire ⊢
      exact Dev.fault1_corrected (storageRecord_ok m _ master access (by decide) syn) rfl hwire hf
    refine ⟨answers_storageRead hl hm hm0 (readStored_corrected _ _ harm hv') ?_ fun h => absurd h Bool.false_ne_true,
      answers_memoryScrub hl hm hm0 (readStored_corrected _ _ harm hv') ?_⟩
    · exact ⟨⟨wordData_putRaw .., wordCheck_putRaw .., hset _ _ _⟩, rfl⟩
    · exact ⟨wordData_putRaw .., wordCheck_putRaw .., hset _ _ _⟩
  case clean =>
    exact ⟨answers_storageRead hl hm hm0 (readStored_clean _ _ harm he) ⟨rfl, rfl⟩ fun h => absurd h Bool.false_ne_true,
      answers_memoryScrub hl hm hm0 (readStored_clean _ _ harm he) ⟨rfl, rfl⟩⟩
  case poison =>
    refine ⟨answers_storageRead hl hm hm0 (readStored_poison _ _ he) ⟨rfl, List.mem_cons_self⟩ fun _ => ⟨rfl, ?_⟩,
      answers_memoryScrub hl hm hm0 (readStored_poison _ _ he) ⟨rfl, rfl⟩⟩
    exact (Dev.endAborted_out _).subset (by rw [Dev.abortResync_out]; exact List.mem_cons_self)
  case bad =>
    have hread := fun master access => readStored_bad (mem := m0) master access harm he
    have hfenced : ∀ master access syn, s.dev.plane.unfence = none → srcFamily (memSource m).1 ∈ [9, 11, 12, 13] →
        (s.dev.fault1 (storageRecord m (addr.toNat % memWords m) master access 2 syn)).fenced (memSource m).1 = true := by
      intro master access syn hun hfam
      have hsrc := storageRecord_source m (addr.toNat % memWords m) master access 2 syn
      rw [← hsrc] at hfam ⊢
      exact Dev.fault1_fences (storageRecord_ok m _ master access (by decide) syn) rfl hfam (storageRecord_checker ..) rfl hun
    refine ⟨answers_storageRead hl hm hm0 (hread _ _) ⟨rfl, List.mem_cons_self⟩ fun _ => ⟨rfl, ?_⟩, fun hun hfam =>
      ⟨answers_storageRead hl hm hm0 (hread _ _) ?_ fun _ => ?_,
        answers_memoryScrub hl hm hm0 (hread _ _) ⟨rfl, hfenced _ _ _ hun hfam⟩⟩⟩
    · exact (Dev.endAborted_out _).subset (by rw [Dev.abortResync_out]; exact List.mem_cons_self)
    · exact hfenced _ _ _ hun hfam
    · exact (Dev.abortResync_fenced _ _).trans (hfenced _ _ _ hun hfam)

end Sys2Proof.Claim
end

section
/-! SUPPORT. A register write of a bus master that takes effect (R403–R414): from the row to what the register does with the
value; and a check of an item that holds, with no checker armed (R46). -/

namespace Sys2Proof.Machine

/-! ### Writes that take effect -/

section
variable {d : Dev} {mem : List Host.Cell} {m win a : Nat} {rr : RReg} {v w : Word}

/-- A write of no RS register that no pass holds back reaches its register with the value of FROZEN (R411). -/
theorem writeReg_acts (hr : findReg a = some rr) (hdead : d.masterDead m = false) (hheld : d.holdsBack m rr = false)
    (hrs : rr.has .rs = false) (hv : d.frozenValue a rr (d.readReg a) (aliasOp win (d.readReg a) w) = some v) :
    writeReg m win a w d mem = regMem m win a rr v d mem := by
  unfold writeReg
  simp only [hr, hdead, hheld, hrs, hv, Bool.false_eq_true, if_false]

theorem writeReg_dead (hdead : d.masterDead m = true) : writeReg m win a w d mem = (d, mem) := by
  unfold writeReg
  split
  · rfl
  · rw [if_pos hdead]

/-- A register that is no table window's and no reset's acts on the device alone. -/
theorem regMem_device (h : rr.name ∉ ["XC_TBL_SEL", "TBL_CTRL", "RST_CTRL"]) :
    regMem m win a rr v d mem = (d.regAct m win a rr v, mem) := by
  unfold regMem
  split <;> rename_i hn
  · exact absurd (hn ▸ List.mem_cons_self) h
  · exact absurd (hn ▸ List.mem_cons_of_mem _ List.mem_cons_self) h
  · exact absurd (hn ▸ List.mem_cons_of_mem _ (List.mem_cons_of_mem _ List.mem_cons_self)) h
  · rfl

/-- While the device is not frozen a write acts with its value. -/
theorem Dev.frozenValue_thawed (h : d.plane.frozen = false) (old : Word) : d.frozenValue a rr old v = some v := by
  unfold Dev.frozenValue
  rw [h]
  rfl

theorem Dev.holdsBack_idle (h : d.cfg.busy = false) : d.holdsBack m rr = false := by
  unfold Dev.holdsBack
  rw [h, Bool.false_and]

/-- No pass holds back a write of a register without RWC fields whose master has no write held back. -/
theorem Dev.holdsBack_passing (h : Claim.Passes d m) (hr : rr.has .rwc = false) : d.holdsBack m rr = false := by
  unfold Dev.holdsBack
  rw [hr, Bool.false_or, Bool.and_eq_false_iff]
  cases hb : d.cfg.busy with
  | false => exact .inl rfl
  | true => exact .inr (List.any_eq_false.mpr fun x hx => by simpa using h hb x hx)

end

/-- A master of the bus may write outside HOSTQ while the device runs; the host's own as long as it is no worker's. -/
theorem Dev.mayWrite_master {d : Dev} {m a : Nat} (hl : d.life = .running) (hw : m = 0 → d.worker = false) (ha : offHq a) :
    d.mayWrite (if m = 1 then .mgr else if m = 0 then .pf0 else .mgr) a = true := by
  have hq : inHostq a = false := by unfold inHostq; unfold offHq at ha; simp; omega
  unfold Dev.mayWrite
  rw [hl]
  split_ifs with h1 h0
  · simp [hq]
  · simp [hw h0]
  · simp [hq]

/-- What a bus master's write makes of the state, by what its register makes of it. -/
theorem masterWrite_acts {s : State} {m a : Nat} {w : Word} (hm : m ≤ 17) (hl : s.dev.life = .running)
    (hw : m = 0 → s.dev.worker = false) (ha : offHq a) :
    masterWrite m a w s = .next { s with dev := (writeReg m 0 a w s.dev s.mem).1, mem := (writeReg m 0 a w s.dev s.mem).2 } := by
  unfold masterWrite
  rw [onMem_eq, decide_eq_true hm, Dev.mayWrite_master hl hw ha]
  rfl

/-- A write that its register ignores leaves the state. -/
theorem masterWrite_ignored {s : State} {m a : Nat} {w : Word} (h : writeReg m 0 a w s.dev s.mem = (s.dev, s.mem)) :
    masterWrite m a w s = .next s := by
  unfold masterWrite
  rw [onMem_eq, h, ite_self]

/-! ### Checks that hold -/

/-- An item with good QP and good parity passes its check, and leaves the device as it was. -/
theorem Dev.itemCheck_sound {d : Dev} {src addr : Nat} {k : Fin 16} {master : Byte} {good : Bool} {sound : Byte → Bool}
    (harm : d.armMask src k.val addr = 0) (hg : good = true) (hs : sound 0 = true) :
    d.itemCheck src k addr master good sound = (false, d) := by
  unfold Dev.itemCheck
  dsimp only
  rw [harm, if_pos rfl, hg, hs]
  rfl

end Sys2Proof.Machine
end

section
/-! SUPPORT. The CRC units (R57–R61): what an item that is fed leaves of each unit, and what a write of a unit's registers feeds. -/

namespace Sys2Proof.Machine

/-- A unit with an empty input queue and no checker armed processes what it is fed. -/
theorem Dev.crcFeed_crcU {d : Dev} {u : Nat} (hq : (d.crcU u).queue = []) (harm : ∀ a, d.armMask (srcOf 6 u) 0 a = 0) (x : CrcItem) :
    (d.crcFeed u x).crcU u = (d.crcU u).process x := by
  have hcheck : ∀ a, (d.draw.2).itemCheck (srcOf 6 u) 0 a 0xFF true = (false, d.draw.2) := fun a =>
    Dev.itemCheck_sound (harm a) rfl rfl
  have hunit : (d.draw.2).crcU u = d.crcU u := rfl
  unfold Dev.crcFeed
  dsimp only
  rw [hcheck, Dev.updCrc_crcU, hunit]
  generalize d.crcU u = c at hq
  obtain ⟨⟩ := c
  cases hq
  rfl

theorem Dev.crcFeed_crcU_ne {d : Dev} {u v : Nat} (h : v ≠ u) (x : CrcItem) : (d.crcFeed u x).crcU v = d.crcU v := by
  unfold Dev.crcFeed
  dsimp only
  rw [Dev.updCrc_crcU_ne _ _ h]
  refine (Dev.crcU_of_mask (Dev.itemCheck_mask (T := [.regs, .plane, .arms, .sliceU, .queues, .psels, .tsu, .cal, .twill, .host,
    .jersey, .mx, .fresh, .reports]) (by decide) _ _ _ _ _ _ _) (by decide) v).trans ?_
  rfl

/-- A checker that applies no mask to any address applies none, wherever its window's address registers point. -/
theorem Dev.armMask_unarmed {d e : Dev} {src k : Nat} (he : e.arms = d.arms) (h : ∀ a, d.armMask src k a = 0) (a : Nat) :
    e.armMask src k a = 0 := by
  have hz := h (d.injAddr (fwBase src))
  unfold Dev.armMask at hz ⊢
  rw [he]
  simp only [decide_true, Bool.or_true, Bool.and_true] at hz
  dsimp only
  split
  · rename_i hc
    rwa [if_pos (Bool.and_eq_true _ _ ▸ hc).1] at hz
  · rfl

/-! ### The data registers (R58) -/

/-- The data registers of a unit: offset, name, and the bytes that a write feeds. -/
def crcDataRegs : List (Nat × String × Nat) := [(0x8, "DATA8", 1), (0xC, "DATA16", 2), (0x10, "DATA32", 4)]

theorem findReg_crcData : ∀ u : Fin 16, ∀ x ∈ crcDataRegs, (findReg (aCrc u x.1)).any (fun rr => rr.name = x.2.1 && !rr.has .rs
    && !rr.has .rwc && ((rr.at (aCrc u x.1)).getD []).headD 0 = u.val) = true := by decide +kernel

theorem aCrc_offHq {u off : Nat} : offHq (aCrc u off) := by unfold offHq aCrc; omega

section
variable {d : Dev} {mem : List Host.Cell} {m : Nat} {u : Fin 16} {rr : RReg} {v w : Word}

/-- A register of a unit's window is no ring's. -/
theorem aCrc_noRing (off : Nat) : (decide (0x10100 ≤ aCrc u off) && decide (aCrc u off < 0x103C0)) = false := by
  unfold aCrc; simp; omega

/-- A write of a data register by a master that lives, in any state of the planes. -/
theorem writeReg_crcData {x : Nat × String × Nat} (hx : x ∈ crcDataRegs) (hdead : d.masterDead m = false) (hp : Claim.Passes d m) :
    writeReg m 0 (aCrc u x.1) w d mem = (d.crcData m u x.2.2 w, mem) := by
  obtain ⟨rr, hr, h⟩ := (Option.any_eq_true _ _).mp (findReg_crcData u x hx)
  simp only [Bool.and_eq_true, Bool.not_eq_true', decide_eq_true_eq] at h
  obtain ⟨⟨⟨hn, hrs⟩, hrwc⟩, hu⟩ := h
  have hname : rr.name = "DATA8" ∧ x.2.2 = 1 ∨ rr.name = "DATA16" ∧ x.2.2 = 2 ∨ rr.name = "DATA32" ∧ x.2.2 = 4 := by
    rw [hn]
    simp only [crcDataRegs, List.mem_cons, List.not_mem_nil, or_false] at hx
    obtain rfl | rfl | rfl := hx <;> decide
  have hv : d.frozenValue (aCrc u x.1) rr (d.readReg (aCrc u x.1)) w = some w := by
    unfold Dev.frozenValue
    split
    · rfl
    · obtain ⟨h, -⟩ | ⟨h, -⟩ | ⟨h, -⟩ := hname <;> rw [h] <;> rfl
  rw [writeReg_acts (win := 0) (w := w) hr hdead (Dev.holdsBack_passing hp hrwc) hrs hv,
    regMem_device (by obtain ⟨h, -⟩ | ⟨h, -⟩ | ⟨h, -⟩ := hname <;> rw [h] <;> decide)]
  unfold Dev.regAct
  rw [aCrc_noRing, if_neg Bool.false_ne_true, hu]
  obtain ⟨h, hb⟩ | ⟨h, hb⟩ | ⟨h, hb⟩ := hname <;> rw [h, hb] <;> rfl

theorem Dev.crcData_owned (hown : d.crcOwns u m = true) (n : Nat) : d.crcData m u n w = d.crcFeed u (.bytes (le n w.toNat)) :=
  if_pos hown

theorem Dev.crcData_foreign (hown : d.crcOwns u m = false) (n : Nat) : d.crcData m u n w = d := by
  unfold Dev.crcData
  rw [hown, if_neg Bool.false_ne_true]

/-! ### CRC_CTRL (R57, R59, R61) -/

/-- The fields of CRC_CTRL: POLY, LOAD, INIT, OWNER. -/
def crcCtrlFields : List RField :=
  [⟨0, 2, .rwc, 0, []⟩, ⟨2, 1, .go, 0, []⟩, ⟨3, 1, .rwc, 1, []⟩, ⟨8, 5, .rwc, 0, [(0, 0), (2, 17)]⟩]

theorem findReg_crcCtrl : ∀ u : Fin 16, (findReg (aCrc u 0)).any (fun rr => rr.name = "CRC_CTRL" && rr.fields = crcCtrlFields
    && ((rr.at (aCrc u 0)).getD []).headD 0 = u.val) = true := by decide +kernel

/-- A write of CRC_CTRL while no pass runs, by a master that lives. -/
theorem writeReg_crcCtrl (hdead : d.masterDead m = false) (hb : d.cfg.busy = false) : ∃ rr v, rr.fields = crcCtrlFields
    ∧ writeReg m 0 (aCrc u 0) w d mem = (d.crcCtrl m u rr v, mem) ∧ (d.plane.frozen = false → v = w) := by
  obtain ⟨rr, hr, h⟩ := (Option.any_eq_true _ _).mp (findReg_crcCtrl u)
  simp only [Bool.and_eq_true, decide_eq_true_eq] at h
  obtain ⟨⟨hn, hf⟩, hu⟩ := h
  have hrs : rr.has .rs = false := by unfold RReg.has; rw [hf]; decide
  obtain ⟨v, hv, hw⟩ : ∃ v, d.frozenValue (aCrc u 0) rr (d.readReg (aCrc u 0)) w = some v ∧ (d.plane.frozen = false → v = w) := by
    unfold Dev.frozenValue
    split
    · exact ⟨w, rfl, fun _ => rfl⟩
    · rename_i hz
      rw [hn]
      exact ⟨_, rfl, fun hf => absurd (by rw [hf]; rfl) hz⟩
  refine ⟨rr, v, hf, ?_, hw⟩
  rw [writeReg_acts (win := 0) (w := w) hr hdead (Dev.holdsBack_idle hb) hrs hv, regMem_device (by rw [hn]; decide)]
  unfold Dev.regAct
  rw [aCrc_noRing, if_neg Bool.false_ne_true, hu, hn]
  rfl

theorem Dev.crcCtrl_foreign (hown : d.crcOwns u m = false) : d.crcCtrl m u rr v = d := by
  unfold Dev.crcCtrl
  rw [hown]
  rfl

/-- What CRC_CTRL keeps of a write in POLY and INIT. -/
theorem crcCtrl_store_low (hf : rr.fields = crcCtrlFields) (old : Word) {i : Nat} (hi : i = 0 ∨ i = 1 ∨ i = 3) :
    (rr.store old v).getLsbD i = v.getLsbD i := by
  have hlow : (((old &&& ~~~3 ||| v &&& 3) &&& ~~~8 ||| v &&& 8 : Word)).getLsbD i = v.getLsbD i := by
    obtain rfl | rfl | rfl := hi <;> simp
  have hstore : rr.store old v = if (RField.mk 8 5 .rwc 0 [(0, 0), (2, 17)]).accepts (v.toNat / 2 ^ 8 % 2 ^ 5)
      then ((old &&& ~~~3 ||| v &&& 3) &&& ~~~8 ||| v &&& 8) &&& ~~~0x1F00 ||| v &&& 0x1F00
      else (old &&& ~~~3 ||| v &&& 3) &&& ~~~8 ||| v &&& 8 := by
    unfold RReg.store
    rw [hf]
    rfl
  rw [hstore]
  split
  · rw [BitVec.getLsbD_or, BitVec.getLsbD_and, hlow, BitVec.getLsbD_and]
    obtain rfl | rfl | rfl := hi <;> simp
  · exact hlow

/-- POLY as a field is POLY as bits. -/
theorem ofNat_fld_poly (w : Word) : BitVec.ofNat 2 (fld w 0 2) = w.setWidth 2 := by
  apply BitVec.eq_of_toNat_eq
  simp [fld]

/-- A new OWNER moves no bit below it. -/
theorem setFld_low (w : Word) (x : Nat) {i : Nat} (hi : i < 8) : (setFld w 8 5 x).getLsbD i = w.getLsbD i := by
  unfold setFld
  rw [BitVec.getLsbD_or, BitVec.getLsbD_and, BitVec.getLsbD_not]
  have hx : (BitVec.ofNat 32 (x % 2 ^ 5 * 2 ^ 8)).getLsbD i = false := by
    rw [BitVec.getLsbD_ofNat, Nat.testBit_mul_two_pow]
    simp; omega
  rw [hx]
  interval_cases i <;> simp

/-- LOAD samples POLY, INIT and CRC_INIT as the write leaves them. -/
theorem Dev.crcCtrl_load (hown : d.crcOwns u m = true) (hf : rr.fields = crcCtrlFields) (hv : bit v 2 = true) :
    ∃ x, d.crcCtrl m u rr v = (d.setReg (aCrc u 0) x).crcFeed u
      (.load (BitVec.ofNat 2 (fld v 0 2)) (if bit v 3 then none else some (d.reg (aCrc u 4)))) := by
  have hlow : ∀ v' : Word, (∀ i, i < 8 → v'.getLsbD i = v.getLsbD i) → ∃ x,
      (let e := d.setReg (aCrc u 0) (rr.store (d.reg (aCrc u 0)) v')
        if bit v' 2 then e.crcFeed u (.load (BitVec.ofNat 2 (fld (e.reg (aCrc u 0)) 0 2))
          (if bit (e.reg (aCrc u 0)) 3 then none else some (e.reg (aCrc u 4)))) else e)
      = (d.setReg (aCrc u 0) x).crcFeed u
        (.load (BitVec.ofNat 2 (fld v 0 2)) (if bit v 3 then none else some (d.reg (aCrc u 4)))) := by
    intro v' h
    refine ⟨rr.store (d.reg (aCrc u 0)) v', ?_⟩
    have hbit : ∀ i, i = 0 ∨ i = 1 ∨ i = 3 → (rr.store (d.reg (aCrc u 0)) v').getLsbD i = v.getLsbD i := fun i hi =>
      (crcCtrl_store_low hf _ hi).trans (h i (by omega))
    have hpoly : BitVec.ofNat 2 (fld (rr.store (d.reg (aCrc u 0)) v') 0 2) = BitVec.ofNat 2 (fld v 0 2) := by
      rw [ofNat_fld_poly, ofNat_fld_poly]
      refine BitVec.eq_of_getLsbD_eq fun i hi => ?_
      rw [BitVec.getLsbD_setWidth, BitVec.getLsbD_setWidth, hbit i (by omega)]
    have hinit : bit (rr.store (d.reg (aCrc u 0)) v') 3 = bit v 3 := hbit 3 (by decide)
    have hload : bit v' 2 = true := (h 2 (by decide)).trans hv
    dsimp only
    rw [if_pos hload, Dev.setReg_reg, hpoly, hinit, Dev.setReg_reg_ne _ _ (by unfold aCrc; omega)]
  unfold Dev.crcCtrl
  rw [hown, Bool.not_true, if_neg Bool.false_ne_true]
  refine hlow (if d.crcClaim u then setFld v 8 5 (fld (d.reg (aCrc u 0)) 8 5) else v) fun i hi => ?_
  split
  · exact setFld_low _ _ hi
  · rfl

end

end Sys2Proof.Machine
end

section
/-! PROOF of O49: a write of a unit's owner feeds the unit, and a write of another master stops at the ownership. -/

namespace Sys2Proof.Claim

open Machine

/-- A write of a data register by the unit's owner feeds the unit and no other (R58). -/
theorem crcData_feeds {s : State} {m : Fin 21} {u : Fin 16} {w : Word} (hl : s.dev.life = .running)
    (hw : m.val = 0 → s.dev.worker = false) (hp : Passes s.dev m) (hm : m.val ≤ 17) (hdead : s.dev.masterDead m = false)
    (hown : s.dev.crcOwns u m = true) (hq : (s.dev.crcU u).queue = []) (harm : ∀ a, s.dev.armMask (srcOf 6 u) 0 a = 0)
    {i : Instr} {x : Nat × String × Nat} (hx : x ∈ crcDataRegs) (hi : exec i s = masterWrite m (aCrc u x.1) w s) :
    Answers i s fun t => (t.dev.crcU u).state = (le x.2.2 w.toNat).foldl (crcByte (s.dev.crcU u).poly) (s.dev.crcU u).state
      ∧ (t.dev.crcU u).poly = (s.dev.crcU u).poly
      ∧ (t.dev.crcU u).count.toNat = min ((s.dev.crcU u).count.toNat + x.2.2) (2 ^ 32 - 1)
      ∧ ∀ v : Fin 16, v ≠ u → t.dev.crcU v = s.dev.crcU v := by
  refine ⟨_, hi.trans (masterWrite_acts hm hl hw aCrc_offHq), ?_⟩
  dsimp only
  rw [writeReg_crcData hx hdead hp, Dev.crcData_owned hown, Dev.crcFeed_crcU hq harm]
  refine ⟨rfl, rfl, ?_, fun v hv => Dev.crcFeed_crcU_ne (Fin.val_ne_of_ne hv) _⟩
  unfold CrcUnit.process
  dsimp only
  rw [le_length, BitVec.toNat_ofNat, Nat.mod_eq_of_lt (by omega)]

/-- Settles O49: the owner's writes feed the unit, and those of another master are ignored. -/
theorem crcUnitsComputeForTheirOwner : Obligations.CrcUnitsComputeForTheirOwner := by
  unfold Obligations.CrcUnitsComputeForTheirOwner
  intro s m u w hl hw hp
  refine ⟨fun hm hdead hown hq harm => ?owner, fun hown hb i hi => ?foreign⟩
  case owner =>
    have hfeeds := fun {i : Instr} {x : Nat × String × Nat} => crcData_feeds (x := x) (w := w) (i := i) hl hw hp hm hdead hown hq harm
    refine ⟨hfeeds (x := (0x8, "DATA8", 1)) (by decide) rfl, hfeeds (x := (0xC, "DATA16", 2)) (by decide) rfl,
      hfeeds (x := (0x10, "DATA32", 4)) (by decide) rfl, fun hf hb => ?_⟩
    obtain ⟨rr, v, hfields, hwrite, hv⟩ := writeReg_crcCtrl (u := u) (w := w ||| 4) (mem := s.mem) hdead hb
    refine ⟨_, masterWrite_acts hm hl hw aCrc_offHq, ?_⟩
    dsimp only
    obtain ⟨x, hload⟩ := Dev.crcCtrl_load (v := w ||| 4) hown hfields (by unfold bit; simp)
    have hunarmed : ∀ a, (s.dev.setReg (aCrc u 0) x).armMask (srcOf 6 u) 0 a = 0 := Dev.armMask_unarmed
      (Dev.arms_of_mask (Dev.setReg_mask (T := [.regs]) (by decide) _ _ _) (by decide)) harm
    have hempty : ((s.dev.setReg (aCrc u 0) x).crcU u).queue = [] := hq
    rw [hwrite, hv hf, hload, Dev.crcFeed_crcU hempty hunarmed]
    have hinit : bit (w ||| 4) 3 = bit w 3 := by unfold bit; simp
    have hpoly : BitVec.ofNat 2 (fld (w ||| 4) 0 2) = BitVec.ofNat 2 (fld w 0 2) := by
      rw [ofNat_fld_poly, ofNat_fld_poly, BitVec.setWidth_or]
      exact BitVec.or_zero
    rw [hinit, hpoly]
    refine ⟨rfl, rfl, ?_⟩
    cases bit w 3 <;> rfl
  case foreign =>
    have hignored : ∀ x ∈ crcDataRegs, masterWrite m (aCrc u x.1) w s = .next s := fun x hx => by
      refine masterWrite_ignored ?_
      cases hdead : s.dev.masterDead m with
      | true => exact writeReg_dead hdead
      | false => rw [writeReg_crcData hx hdead hp, Dev.crcData_foreign hown]
    simp only [List.mem_cons, List.not_mem_nil, or_false] at hi
    obtain rfl | rfl | rfl | rfl := hi
    · exact hignored (0x8, "DATA8", 1) (by decide)
    · exact hignored (0xC, "DATA16", 2) (by decide)
    · exact hignored (0x10, "DATA32", 4) (by decide)
    · refine masterWrite_ignored ?_
      cases hdead : s.dev.masterDead m with
      | true => exact writeReg_dead hdead
      | false =>
        obtain ⟨rr, v, -, hwrite, -⟩ := writeReg_crcCtrl (u := u) (w := w ||| 4) (mem := s.mem) hdead hb
        rw [hwrite, Dev.crcCtrl_foreign hown]

end Sys2Proof.Claim
end

section
/-! SUPPORT. The fall-through queues (R44–R52) as the rules of their operations: what a push that finds room, the read of a sound
item and the freeing of space leave in the queue, and that each of its consumers leaves the queue as the read left it. -/

namespace Sys2Proof.Machine

theorem qbase_offHq (q : QId) : offHq (qbase q + 8) := by
  unfold offHq qbase aLane aJy aEng
  cases q <;> dsimp only <;> omega

section
variable (d : Dev) (q : QId)

@[simp] theorem Dev.qNotice_queue (b : Nat) (x : QId) : (d.qNotice q b).queue x = d.queue x :=
  Dev.queue_of_mask (Dev.qNotice_mask (T := [.regs, .host, .jersey]) (by decide) ..) (by decide) x

@[simp] theorem Dev.levelMoved_queue (a b : Nat) (x : QId) : (d.levelMoved q a b).queue x = d.queue x :=
  Dev.queue_of_mask (Dev.levelMoved_mask (T := [.regs, .host, .jersey]) (by decide) ..) (by decide) x

/-- A notice sets its bit of QSTAT, reported or not. -/
theorem Dev.qNotice_bit {b : Nat} (hb : b < 24) : bit ((d.qNotice q b).reg (qbase q + 8)) b = true := by
  unfold Dev.qNotice
  split
  · exact Dev.raise_bit (qbase_offHq q) _ _ _ hb _
  · rw [Dev.raiseQuiet_reg]
    exact rsSet_bit _ _ hb

/-! ### Pushes -/

theorem Dev.qEnter_queue (x : QItem) : ((d.qEnter q x).queue q).items = (d.queue q).items ++ [x]
    ∧ ((d.qEnter q x).queue q).held = (d.queue q).held := by
  unfold Dev.qEnter
  simp only [Dev.levelMoved_queue, Dev.updQueue_queue, and_self]

theorem Dev.qEnter_queue_ne {x : QItem} {r : QId} (h : qkey r ≠ qkey q) : (d.qEnter q x).queue r = d.queue r := by
  unfold Dev.qEnter
  rw [Dev.levelMoved_queue, Dev.updQueue_queue_ne _ _ h]

variable {d q}

/-- A push enters a queue that has room and at which no other push waits. -/
theorem Dev.qPush_room (hd : d.qDead q = false) (hlevel : (d.queue q).level < q.cap) (hw : (d.queue q).waiting = []) (x : QItem) :
    d.qPush q x = d.qEnter q x := by
  unfold Dev.qPush
  dsimp only
  rw [hd, hw, decide_eq_true hlevel]
  rfl

theorem Dev.qPush_queue_ne {x : QItem} {r : QId} (h : qkey r ≠ qkey q) : (d.qPush q x).queue r = d.queue r := by
  unfold Dev.qPush
  dsimp only
  split_ifs
  · rfl
  · exact Dev.qEnter_queue_ne d q h
  · unfold Dev.qSlip
    rw [Dev.qNotice_queue]
    exact Dev.updQueue_queue_ne d (fun f => { f with drops := f.drops + 1 }) h
  · exact Dev.updQueue_queue_ne d _ h

/-- What QUEUE_PUSH makes of the device: an egress queue that fills far enough starts its lane. -/
def Dev.queuePush (d : Dev) (q : QId) (x : QItem) : Dev :=
  match q with
  | .laneEg l => (d.qPush q x).startSending l.val l.isLt
  | _ => d.qPush q x

theorem exec_queuePush (q : QId) (w : Data) (tag : BitVec 4) (p : Bool) (s : State) :
    exec (.queuePush q w tag p) s = onDev (live (fun d => d.queuePush q (newItem w tag p))) s := by
  cases q <;> rfl

theorem Dev.queuePush_queue (x : QItem) : (d.queuePush q x).queue q = (d.qPush q x).queue q := by
  unfold Dev.queuePush
  split
  · exact Dev.queue_of_mask (Dev.startSending_mask (T := [.lanes]) (by decide) ..) (by decide) _
  · rfl

/-- Space that is freed while no push waits is noted in the level alone. -/
theorem Dev.qFreed_unawaited (hw : (d.queue q).waiting = []) (a : Nat) : d.qFreed q a = d.levelMoved q a (d.queue q).level := by
  unfold Dev.qFreed
  dsimp only
  rw [Dev.levelMoved_queue, hw]
  rfl

/-! ### Reads -/

/-- The read of a sound item by an unarmed checker: it takes the oldest item, keeps it for REWIND where the queue marks, and
touches no other part of the device than the queues, the registers, the events and the draw of a slot. -/
theorem Dev.qRead_sound {x : QItem} {rest : List QItem} {u : QItem} (hx : (d.queue q).items = x :: rest)
    (hw : (d.queue q).waiting = []) (hg : (x.upset u).good = true) (hp : parityOk (x.upset u).d (x.upset u).c = true)
    (harm : ∀ a, d.armMask q.owner.1 q.owner.2.1.val a = 0) :
    ∃ e, d.qRead q u = (some (x.upset u), e) ∧ (e.queue q).items = rest
      ∧ (e.queue q).held = (if q.mr then (d.queue q).held ++ [x.upset u] else (d.queue q).held)
      ∧ e.mask [.regs, .queues, .host, .jersey, .fresh] = d.mask [.regs, .queues, .host, .jersey, .fresh] := by
  unfold Dev.qRead
  dsimp only
  rw [hx]
  dsimp only
  generalize hy : x.upset u = y at hg hp ⊢
  generalize hf : (fun f : FQueue => ({ f with
    items := rest, held := if q.mr then f.held ++ [y] else f.held, since := d.now, expired := false } : FQueue)) = take
  generalize ht : (d.updQueue q take).draw.2 = t
  have hq : t.queue q = take (d.queue q) := by
    rw [← ht]
    exact Dev.updQueue_queue d q take
  have hitems : (t.queue q).items = rest := by rw [hq, ← hf]
  have hheld : (t.queue q).held = if q.mr then (d.queue q).held ++ [y] else (d.queue q).held := by rw [hq, ← hf]
  have hwait : (t.queue q).waiting = [] := by rw [hq, ← hf]; exact hw
  have hmask : t.mask [.regs, .queues, .host, .jersey, .fresh] = d.mask [.regs, .queues, .host, .jersey, .fresh] := by
    rw [← ht]
    exact (Dev.draw_mask (by decide) _).trans (Dev.updQueue_mask (by decide) _ _ _)
  have hpass : ∀ a, t.itemCheck q.owner.1 q.owner.2.1 a q.owner.2.2.1 y.good (fun k => parityOk y.d (y.c ^^^ k)) = (false, t) :=
    fun a => Dev.itemCheck_sound (Dev.armMask_unarmed (Dev.arms_of_mask hmask (by decide)) harm a) hg
      ((congrArg (parityOk y.d) BitVec.xor_zero).trans hp)
  rw [hpass, Bool.or_false]
  dsimp only
  rw [if_neg Bool.false_ne_true]
  by_cases hmr : q.mr = true
  · rw [if_pos hmr] at hheld ⊢
    exact ⟨t, rfl, hitems, by rw [if_pos hmr, hheld], hmask⟩
  · rw [if_neg hmr] at hheld ⊢
    refine ⟨_, rfl, ?_, ?_, (Dev.qFreed_mask (by decide) _ _ _).trans hmask⟩
    · rw [Dev.qFreed_unawaited hwait, Dev.levelMoved_queue, hitems]
    · rw [Dev.qFreed_unawaited hwait, Dev.levelMoved_queue, if_neg hmr, hheld]

end

/-! ### The consumers -/

theorem Dev.mx_of_mask {T : List Part} {a b : Dev} (h : a.mask T = b.mask T) (hT : Part.mx ∉ T) : a.mx = b.mx := by
  have hmx := congrArg Dev.mx h
  simpa only [Dev.mask, Part.pick_out hT] using hmx

section
variable {d : Dev}

theorem Dev.forkPush_queue (l : Nat) (x : QItem) (q : QId) : (d.forkPush l x).queue q = d.queue q :=
  Dev.queue_of_mask (Dev.forkPush_mask (T := [.host]) (by decide) ..) (by decide) q

theorem Dev.forkMark_queue (l : Fin 64) (x : QItem) (q : QId) : (d.forkMark l x).queue q = d.queue q :=
  Dev.queue_of_mask (Dev.forkMark_mask (T := [.lanes, .host]) (by decide) ..) (by decide) q

/-- An idle matrix grants nothing. -/
theorem Dev.mxRun_idle (h : d.mx.waiting = []) : d.mxRun = d := by
  unfold Dev.mxRun
  rw [h]
  unfold Dev.mxHold mxHeads
  rw [show (mxGrants [].length d).mx.waiting = [] from h]
  rfl

theorem Dev.tapEnters_idle {g : Fin 256} (h : (d.engine g.val).tapBusy = false) : d.tapEnters g = d := by
  unfold Dev.tapEnters
  rw [h]
  rfl

theorem twOut_ne_twIn (g t : Fin 256) : qkey (.twOut g) ≠ qkey (.twIn t) := by
  unfold qkey
  dsimp only
  omega

/-- The matrix grants entries of input queues alone. -/
theorem mxGrants_twOut (g : Fin 256) (n : Nat) (d : Dev) : (mxGrants n d).queue (.twOut g) = d.queue (.twOut g) := by
  induction n generalizing d with
  | zero => rfl
  | succ n ih =>
    unfold mxGrants
    split
    · exact (ih _).trans (Dev.qPush_queue_ne (twOut_ne_twIn g _))
    · rfl

theorem Dev.mxRun_twOut (g : Fin 256) : d.mxRun.queue (.twOut g) = d.queue (.twOut g) :=
  (Dev.queue_of_mask (Dev.mxHold_mask (T := [.regs, .mx]) (by decide) _) (by decide) _).trans (mxGrants_twOut g _ d)

theorem Dev.engineSends_twOut (g h : Fin 256) (x : QItem) : (d.engineSends h x).queue (.twOut g) = d.queue (.twOut g) := by
  unfold Dev.engineSends
  dsimp only
  split_ifs
  · rfl
  · exact Dev.qPush_queue_ne (twOut_ne_twIn g _)
  · exact Dev.mxRun_twOut g

/-- What becomes of an item that the consumer of a queue has read. -/
def Dev.handsOn (d : Dev) (q : QId) (x : QItem) : Dev :=
  match q with
  | .laneIn l =>
    if (match d.laneOwner l.val with | some p => (d.port p).onHold | none => false) then d
    else (d.forkMark l x).forkPush l.val x
  | .twIn g => (d.emit (.word q.owner.1 x.d x.c x.p)).tapEnters g
  | _ => d.emit (.word q.owner.1 x.d x.c (x.p || d.qSilent q))

theorem Dev.qPop_read {q : QId} {u x : QItem} {e : Dev} (hd : d.qDead q = false) (hr : d.qRead q u = (some x, e)) :
    d.qPop q u = e.handsOn q x := by
  unfold Dev.qPop Dev.handsOn
  rw [hd, if_neg Bool.false_ne_true, hr] <;> cases q <;> rfl

/-- An engine takes a message with none behind it in its tap register. -/
theorem Dev.handsOn_twIn {g : Fin 256} (h : (d.engine g).tapBusy = false) (x : QItem) :
    d.handsOn (.twIn g) x = d.emit (.word (QId.twIn g).owner.1 x.d x.c x.p) := Dev.tapEnters_idle (d := d.emit _) h

/-- Handing an item on leaves its queue as the read left it. -/
theorem Dev.handsOn_queue {q : QId} {x : QItem} (htap : ∀ g, q = .twIn g → (d.engine g).tapBusy = false) :
    (d.handsOn q x).queue q = d.queue q := by
  cases q with
  | laneIn l =>
    unfold Dev.handsOn
    dsimp only
    split_ifs
    · rfl
    · rw [Dev.forkPush_queue, Dev.forkMark_queue]
  | twIn g => rw [Dev.handsOn_twIn (htap g rfl)]; rfl
  | laneEg | jyIn | jyEg | twOut | slice | emu => rfl

/-- A pop takes from its queue what the read of a sound item takes. -/
theorem Dev.queuePop_read {q : QId} {u x : QItem} {e : Dev} (hd : d.qDead q = false) (hr : d.qRead q u = (some x, e))
    (hne : (d.queue q).items ≠ []) (htap : ∀ g, q = .twIn g → (e.engine g).tapBusy = false ∧ e.mx.waiting = []) :
    (d.queuePop q u).queue q = e.queue q := by
  have hpop : (d.qPop q u).queue q = e.queue q :=
    (congrArg (Dev.queue · q) (Dev.qPop_read hd hr)).trans (Dev.handsOn_queue fun g hg => (htap g hg).1)
  unfold Dev.queuePop
  split
  · rename_i g
    rw [hd, if_neg Bool.false_ne_true, hr]
    exact (Dev.mxRun_twOut g).trans (Dev.engineSends_twOut g g x)
  · rename_i g
    obtain ⟨hbusy, hmx⟩ := htap g rfl
    rw [if_neg (by simpa using hne), Dev.mxRun_idle, hpop]
    rw [Dev.qPop_read hd hr, Dev.handsOn_twIn hbusy]
    exact hmx
  · exact hpop

end

end Sys2Proof.Machine
end

section
/-! PROOF of O14, first half: the fall-through queues carry items first in, first out (R44–R52). -/

namespace Sys2Proof.Claim

open Machine

theorem queuesAreFirstInFirstOut : QueuesAreFirstInFirstOut := by
  unfold QueuesAreFirstInFirstOut
  intro s q hl hd
  refine ⟨fun w tag p hlevel hw => ?push, fun x rest u hx hw hg hp harm htap => ?pop, fun hmr => ⟨?rewind, fun hw => ?release⟩,
    fun hmr => ⟨?_, ?_⟩, fun n hn hn0 hne hexp hsince => ?timeout⟩
  case push =>
    refine answers_onDev (exec_queuePush q w tag p s) hl ?_
    dsimp only
    rw [Dev.queuePush_queue, Dev.qPush_room hd hlevel hw]
    exact Dev.qEnter_queue s.dev q _
  case pop =>
    obtain ⟨e, hr, hitems, hheld, hmask⟩ := Dev.qRead_sound hx hw hg hp harm
    refine answers_onDev rfl hl ?_
    dsimp only
    rw [Dev.queuePop_read hd hr (by rw [hx]; exact List.cons_ne_nil _ _) fun g hq => ?_]
    · exact ⟨hitems, hheld⟩
    · rw [Dev.engine_of_mask hmask (by decide), Dev.mx_of_mask hmask (by decide)]
      exact htap g hq
  case rewind =>
    refine answers_onDev rfl hl ?_
    dsimp only
    unfold Dev.qRewind
    rw [if_pos hmr, Dev.updQueue_queue]
    exact ⟨rfl, rfl⟩
  case release =>
    refine answers_onDev rfl hl ?_
    dsimp only
    unfold Dev.qRelease
    rw [if_pos hmr]
    dsimp only
    rw [Dev.qFreed_unawaited (by rw [Dev.updQueue_queue]; exact hw), Dev.levelMoved_queue, Dev.updQueue_queue]
    exact ⟨rfl, rfl⟩
  · exact onDev_idle hl (if_neg (by rw [hmr]; exact Bool.false_ne_true))
  · exact onDev_idle hl (if_neg (by rw [hmr]; exact Bool.false_ne_true))
  case timeout =>
    have hexpire : s.dev.qExpire q = (s.dev.updQueue q (fun f => { f with expired := true })).qNotice q 2 := by
      unfold Dev.qExpire
      dsimp only
      rw [hn, hexp, if_pos]
      unfold Dev.after
      simp [hn0, hne, hsince]
    refine answers_onDev rfl hl ?_
    dsimp only
    unfold EventSet
    dsimp only
    rw [hexpire, Dev.qNotice_queue, Dev.updQueue_queue]
    exact ⟨rfl, Dev.qNotice_bit _ q (by decide)⟩

end Sys2Proof.Claim
end

section
/-! SUPPORT. The lanes at their edge queues (R73, R76–R81): what a push leaves in the registers and in what was sent out, what a
lane sends for a word, and that a missing word touches no register of the lane but those of its ingress queue. -/

namespace Sys2Proof.Machine

/-! ### Registers and transmissions of a push -/

section
variable (d : Dev) {q : QId}

theorem Dev.qNotice_reg_ne {a : Nat} (h : offHq a) (hq : a ≠ qbase q + 8) (b : Nat) : (d.qNotice q b).reg a = d.reg a := by
  unfold Dev.qNotice
  split
  · exact Dev.raise_reg_ne h hq ..
  · exact Dev.raiseQuiet_reg_ne hq ..

theorem Dev.qNotice_out (b : Nat) : d.host.out <:+ (d.qNotice q b).host.out := by
  unfold Dev.qNotice
  split
  · exact Dev.raise_out ..
  · exact List.suffix_rfl

theorem Dev.levelMoved_reg_ne {a : Nat} (h : offHq a) (hq : a ≠ qbase q + 8) (m n : Nat) : (d.levelMoved q m n).reg a = d.reg a := by
  unfold Dev.levelMoved
  dsimp only
  split_ifs
  · rfl
  · rw [Dev.qNotice_reg_ne _ h hq, Dev.qNotice_reg_ne _ h hq]
  · exact Dev.qNotice_reg_ne _ h hq _
  · exact Dev.qNotice_reg_ne _ h hq _
  · rfl

theorem Dev.levelMoved_out (m n : Nat) : d.host.out <:+ (d.levelMoved q m n).host.out := by
  unfold Dev.levelMoved
  dsimp only
  split_ifs
  · exact List.suffix_rfl
  · exact (Dev.qNotice_out d 0).trans (Dev.qNotice_out _ 1)
  · exact Dev.qNotice_out d 1
  · exact Dev.qNotice_out d 0
  · exact List.suffix_rfl

/-- A push touches no register but the status and the slip count of its queue. -/
theorem Dev.qPush_reg_ne {a : Nat} (h : offHq a) (h8 : a ≠ qbase q + 8) (h10 : a ≠ qbase q + 0x10) (x : QItem) :
    (d.qPush q x).reg a = d.reg a := by
  unfold Dev.qPush Dev.qEnter Dev.qSlip
  dsimp only
  split_ifs
  · rfl
  · exact Dev.levelMoved_reg_ne _ h h8 ..
  · rw [Dev.qNotice_reg_ne _ h h8, Dev.count32_reg_ne h10]
    rfl
  · rfl

theorem Dev.qPush_out (x : QItem) : d.host.out <:+ (d.qPush q x).host.out := by
  unfold Dev.qPush Dev.qEnter Dev.qSlip
  dsimp only
  split_ifs
  · exact List.suffix_rfl
  · exact Dev.levelMoved_out (d.updQueue q _) ..
  · exact Dev.qNotice_out ((d.updQueue q _).count32 (qbase q + 0x10)) 4
  · exact List.suffix_rfl

end

/-! ### The ingress side -/

section
variable (d : Dev) {l : Fin 64}

theorem Dev.laneTake_reg_ne {a : Nat} (h : offHq a) (h8 : a ≠ aLane l 0x108) (h10 : a ≠ aLane l 0x110) (w : Data) (tag : BitVec 4) :
    (d.laneTake l w tag).reg a = d.reg a := by
  unfold Dev.laneTake
  dsimp only
  split
  · rfl
  · split
    · rfl
    · rw [Dev.qPush_reg_ne (q := .laneIn l) _ h h8 h10]
      split <;> rfl

theorem Dev.laneTake_out (w : Data) (tag : BitVec 4) : d.host.out <:+ (d.laneTake l w tag).host.out := by
  unfold Dev.laneTake
  dsimp only
  split
  · exact List.suffix_rfl
  · split
    · exact List.suffix_rfl
    · refine List.IsSuffix.trans ?_ (Dev.qPush_out ..)
      split <;> exact List.suffix_rfl

variable {d}

/-- In its turn, a lane of an aligned port puts a word into its ingress queue: an error block, while one is due (R80). -/
theorem Dev.laneTake_items {p : Nat} (hp : d.laneOwner l = some p) (ha : (d.port p).astate = .aligned)
    (hturn : l.val = p + (d.port p).inTurn) (hlevel : (d.queue (.laneIn l)).level < 1024) (hw : (d.queue (.laneIn l)).waiting = [])
    (w : Data) (tag : BitVec 4) : ((d.laneTake l w tag).queue (.laneIn l)).items = (d.queue (.laneIn l)).items
      ++ [if isEth (d.port p).format && (d.lane l).errBlocks ≠ 0 then newItem EthBlock.error.word 4 false
        else newItem w tag false] := by
  have hroom : ∀ (e : Dev) (x : QItem), e.queues = d.queues → ((e.qPush (.laneIn l) x).queue (.laneIn l)).items
      = (d.queue (.laneIn l)).items ++ [x] := by
    intro e x he
    have hqueue : e.queue (.laneIn l) = d.queue (.laneIn l) := by unfold Dev.queue; rw [he]
    rw [Dev.qPush_room rfl (by rw [hqueue]; exact hlevel) (by rw [hqueue]; exact hw), (Dev.qEnter_queue e _ x).1, hqueue]
  unfold Dev.laneTake
  rw [hp]
  dsimp only
  rw [if_neg (by simp [ha, ← hturn])]
  refine (hroom _ _ ?_).trans ?_
  · split <;> rfl
  · rfl

/-! ### The egress side -/

theorem Dev.laneSend_plain (h : (d.lane l).loopback = 0) (o : Bool → Out) (w : Data) (tag : BitVec 4) :
    d.laneSend l o w tag = d.emit (o (d.lane l).onRecovered) := by
  unfold Dev.laneSend
  simp [h]

theorem Dev.laneSend_reg_ne {a : Nat} (h : offHq a) (h8 : a ≠ aLane l 0x108) (h10 : a ≠ aLane l 0x110) (o : Bool → Out) (w : Data)
    (tag : BitVec 4) : (d.laneSend l o w tag).reg a = d.reg a := by
  unfold Dev.laneSend
  dsimp only
  split_ifs
  · rfl
  · exact Dev.laneTake_reg_ne (d.emit _) h h8 h10 w tag
  · rfl

theorem Dev.missingWord_reg_ne {a : Nat} (h : offHq a) (h8 : a ≠ aLane l 0x108) (h10 : a ≠ aLane l 0x110) (p : Nat) :
    (d.missingWord l p).reg a = d.reg a := by
  unfold Dev.missingWord
  split
  · exact Dev.laneSend_reg_ne h h8 h10 ..
  · exact Dev.laneSend_reg_ne (d := d.updPort p _) h h8 h10 ..

/-- An item is unchanged by a flip of none of its bits. -/
theorem QItem.upset_none (x : QItem) : x.upset { c := 0 } = x := by
  unfold QItem.upset
  obtain ⟨d, c, tag, p, qp⟩ := x
  simp

/-- A word of the egress queue leaves its lane as the format of the port has it, and touches no queue (R79, R81). -/
theorem Dev.wordOut_sends {p : Nat} {x : QItem} (h0 : (d.lane l).loopback = 0)
    (hs : isEth (d.port p).format = true → d.macSilent p = false) :
    (d.wordOut l p x).host.out = Claim.sentFor d l p x :: d.host.out ∧ (d.wordOut l p x).queues = d.queues := by
  unfold Dev.wordOut Claim.sentFor Dev.laneBlock
  dsimp only
  cases he : isEth (d.port p).format with
  | false => rw [Bool.not_false, if_pos rfl, if_neg Bool.false_ne_true, Dev.laneSend_plain h0]; exact ⟨rfl, rfl⟩
  | true =>
    have h0' : ((d.updPort p (fun q => { q with pktTx := (d.port p).pktTx.next x })).lane l).loopback = 0 := h0
    rw [Bool.not_true, if_neg Bool.false_ne_true, hs he, if_neg Bool.false_ne_true, if_pos rfl]
    simp only [Dev.laneSend_plain h0']
    split_ifs <;> exact ⟨rfl, rfl⟩

end

end Sys2Proof.Machine
end

section
/-! PROOF of O14, second half: the words and codewords of a lane at its edge queues (R73, R76–R81), and the two halves
together. -/

namespace Sys2Proof.Claim

open Machine

/-- A lane of no port sends the next word of its PRBS31 (R73). -/
theorem prbsLane_sends {s : State} {l : Fin 64} (hl : s.dev.life = .running) (hnone : s.dev.laneOwner l = none)
    (hoff : (s.dev.lane l).bstate ≠ .off) (h0 : (s.dev.lane l).loopback = 0) : Answers (.egressWordPop l) s fun t =>
      t.dev.host.out = .laneWord l (prbsWord (s.dev.lane l).prbs).1 false (s.dev.lane l).onRecovered :: s.dev.host.out
      ∧ LaneIs s t l { s.dev.lane l with prbs := (prbsWord (s.dev.lane l).prbs).2 } := by
  refine answers_onDev rfl hl ?_
  have hset : (s.dev.updLane l (fun x => { x with prbs := (prbsWord (s.dev.lane l).prbs).2 })).lane l
      = { s.dev.lane l with prbs := (prbsWord (s.dev.lane l).prbs).2 } := Dev.updLane_lane ..
  have hsent : s.dev.laneWordOut l = (s.dev.updLane l (fun x => { x with prbs := (prbsWord (s.dev.lane l).prbs).2 })).emit
      (.laneWord l (prbsWord (s.dev.lane l).prbs).1 false (s.dev.lane l).onRecovered) := by
    unfold Dev.laneWordOut Dev.prbsOut
    rw [hnone]
    dsimp only
    rw [if_neg hoff, Dev.laneSend_plain (by rw [hset]; exact h0), hset]
    rfl
  dsimp only
  rw [hsent]
  exact ⟨rfl, hset, fun k hk =>
    Dev.updLane_lane_ne s.dev (fun x => { x with prbs := (prbsWord (s.dev.lane l).prbs).2 }) hk⟩

section
variable {s : State} {l : Fin 64} {p : Nat} (hl : s.dev.life = .running) (hp : s.dev.laneOwner l = some p)
include hl hp

/-- A word that a LOCKED lane receives: a line loopback sends it back, and the port takes it in the lane's turn (R76, R82). -/
theorem lockedLane_takes (hlock : (s.dev.lane l).bstate = .locked) (h2 : (s.dev.lane l).loopback ≠ 2) (w : Data) (tag : BitVec 4) :
    ((s.dev.lane l).loopback = 1 → Answers (.ingressWordPush l w tag) s fun t => .laneWord l.val w false true ∈ t.dev.host.out)
    ∧ ((s.dev.port p).astate = .aligned → l.val = p + (s.dev.port p).inTurn → (s.dev.queue (.laneIn l)).level < 1024 →
      (s.dev.queue (.laneIn l)).waiting = [] → Answers (.ingressWordPush l w tag) s fun t => (t.dev.queue (.laneIn l)).items =
        (s.dev.queue (.laneIn l)).items ++ [if isEth (s.dev.port p).format && (s.dev.lane l).errBlocks ≠ 0 then
          newItem EthBlock.error.word 4 false else newItem w tag false]) := by
  have htakes : s.dev.laneWordIn l w tag = (if (s.dev.lane l).loopback = 1 then s.dev.emit (.laneWord l.val w false true)
      else s.dev).laneTake l w tag := by
    unfold Dev.laneWordIn
    dsimp only
    rw [if_neg (by simp [hlock, h2])]
  refine ⟨fun h1 => answers_onDev rfl hl ?_, fun ha hturn hlevel hw => answers_onDev rfl hl ?_⟩
  · dsimp only
    rw [htakes, if_pos h1]
    exact (Dev.laneTake_out (s.dev.emit _) w tag).subset List.mem_cons_self
  · dsimp only
    rw [htakes]
    split
    · exact Dev.laneTake_items (d := s.dev.emit _) hp ha hturn hlevel hw w tag
    · exact Dev.laneTake_items hp ha hturn hlevel hw w tag

/-- A lane that sends transmits the oldest word of its egress queue (R76, R79, R81). -/
theorem sendingLane_sends (hsend : (s.dev.lane l).sending = true) (hhold : (s.dev.port p).onHold = false) {y : QItem}
    {rest : List QItem} (hy : (s.dev.queue (.laneEg l)).items = y :: rest) (hw : (s.dev.queue (.laneEg l)).waiting = [])
    (hg : y.good = true) (hpar : parityOk y.d y.c = true) (harm : ∀ a, s.dev.armMask (srcOf 10 l) 1 a = 0)
    (h0 : (s.dev.lane l).loopback = 0) (hmac : isEth (s.dev.port p).format = true → s.dev.macSilent p = false) :
    Answers (.egressWordPop l) s fun t =>
      (t.dev.queue (.laneEg l)).items = rest ∧ t.dev.host.out.head? = some (sentFor s.dev l p y) := by
  obtain ⟨e, hr, hitems, -, hmask⟩ := Dev.qRead_sound (q := .laneEg l) (u := { c := 0 }) hy hw
    (by rw [QItem.upset_none]; exact hg) (by rw [QItem.upset_none]; exact hpar) harm
  rw [QItem.upset_none] at hr
  have hlane : e.lane l = s.dev.lane l := Dev.lane_of_mask hmask (by decide) l
  have hport : e.port p = s.dev.port p := Dev.port_of_mask hmask (by decide) p
  have hpkt : e.pkt = s.dev.pkt := Dev.pkt_of_mask hmask (by decide)
  have hsilent : e.macSilent p = s.dev.macSilent p := by unfold Dev.macSilent; rw [hpkt]
  have hsame : sentFor e l p y = sentFor s.dev l p y := by unfold sentFor; rw [hlane, hport]
  have hout : s.dev.laneWordOut l = e.wordOut l p y := by
    unfold Dev.laneWordOut
    rw [hp]
    dsimp only
    rw [hsend, hhold, hr]
    rfl
  obtain ⟨hsends, hqueues⟩ := Dev.wordOut_sends (d := e) (l := l) (p := p) (x := y) (by rw [hlane]; exact h0)
    (by rw [hport, hsilent]; exact hmac)
  refine answers_onDev rfl hl ?_
  dsimp only
  rw [hout, hsends, ← hsame]
  refine ⟨?_, rfl⟩
  unfold Dev.queue at hitems ⊢
  rw [hqueues]
  exact hitems

/-- A lane that sends and finds its egress queue empty counts an underrun (R78). -/
theorem sendingLane_underruns (hsend : (s.dev.lane l).sending = true) (hhold : (s.dev.port p).onHold = false)
    (hempty : (s.dev.queue (.laneEg l)).items = []) : Answers (.egressWordPop l) s fun t =>
      t.dev.reg (aLane l 0x18) = countUp (s.dev.reg (aLane l 0x18)) 0 32 1 ∧ EventSet t (aLane l 4) 4 := by
  have hoff : ∀ off, offHq (aLane l off) := fun off => by unfold offHq aLane; omega
  have hne : ∀ {i j : Nat}, i ≠ j → aLane l i ≠ aLane l j := fun h => by unfold aLane; omega
  have hout : s.dev.laneWordOut l
      = ((s.dev.count32 (aLane l 0x18)).raise (aLane l 4) 4 0x1006 (le 1 l)).missingWord l p := by
    unfold Dev.laneWordOut
    rw [hp]
    dsimp only
    rw [hsend, hhold, Dev.qRead_empty _ hempty]
    rfl
  refine answers_onDev rfl hl ?_
  unfold EventSet
  dsimp only
  rw [hout, Dev.missingWord_reg_ne (hoff _) (hne (by decide)) (hne (by decide)),
    Dev.missingWord_reg_ne (hoff _) (hne (by decide)) (hne (by decide)), Dev.raise_reg_ne (hoff _) (hne (by decide)),
    Dev.count32_reg]
  exact ⟨rfl, Dev.raise_bit (hoff _) _ _ _ (by decide) _⟩

/-- A codeword counts as corrected, or as uncorrectable with error blocks in place of what it carried (R80). -/
theorem fecLane_counts (hfec : (s.dev.port p).fec ≠ 0) :
    Answers (.fecCodeword l true) s (fun t => t.dev.reg (aLane l 0x10) = countUp (s.dev.reg (aLane l 0x10)) 0 32 1)
    ∧ Answers (.fecCodeword l false) s fun t =>
        t.dev.reg (aLane l 0x14) = countUp (s.dev.reg (aLane l 0x14)) 0 32 1 ∧ EventSet t (aLane l 4) 2
        ∧ (isEth (s.dev.port p).format = true → (s.dev.port p).astate = .aligned →
          (t.dev.lane l).errBlocks = codewordBlocks) := by
  have hoff : ∀ off, offHq (aLane l off) := fun off => by unfold offHq aLane; omega
  have hne : aLane l 0x14 ≠ aLane l 4 := by unfold aLane; omega
  refine ⟨answers_onDev rfl hl ?_, answers_onDev rfl hl ?_⟩
  · dsimp only
    unfold Dev.fecWord
    rw [hp]
    dsimp only
    rw [if_neg hfec, if_pos rfl, Dev.count32_reg]
  · have hword : ∃ e : Dev, s.dev.fecWord l false = (e.count32 (aLane l 0x14)).raise (aLane l 4) 2 0x1003 (le 1 l)
        ∧ e.regs = s.dev.regs ∧ (isEth (s.dev.port p).format = true → (s.dev.port p).astate = .aligned →
          (e.lane l).errBlocks = codewordBlocks) := by
      unfold Dev.fecWord
      rw [hp]
      dsimp only
      rw [if_neg hfec, if_neg Bool.false_ne_true]
      refine ⟨_, rfl, ?_, fun he ha => ?_⟩
      · split <;> rfl
      · rw [if_pos (by simp [he, ha]), Dev.updLane_lane]
    obtain ⟨e, hword, hregs, herr⟩ := hword
    have hreg : e.reg (aLane l 0x14) = s.dev.reg (aLane l 0x14) := by unfold Dev.reg; rw [hregs]
    have hlane : ((e.count32 (aLane l 0x14)).raise (aLane l 4) 2 0x1003 (le 1 l)).lane l = e.lane l :=
      Dev.lane_of_mask ((Dev.raise_mask (T := [.regs, .host, .jersey]) (by decide) ..).trans (Dev.count32_mask (by decide) ..))
        (by decide) l
    unfold EventSet
    dsimp only
    rw [hword, Dev.raise_reg_ne (hoff _) hne, Dev.count32_reg, hreg, hlane]
    exact ⟨rfl, Dev.raise_bit (hoff _) _ _ _ (by decide) _, herr⟩

end

theorem laneWordsCrossTheEdgeQueues : LaneWordsCrossTheEdgeQueues := by
  unfold LaneWordsCrossTheEdgeQueues
  intro s l hl
  refine ⟨prbsLane_sends hl, fun p hp => ⟨fun w tag hlock h2 => lockedLane_takes hl hp hlock h2 w tag, fun hsend hhold => ⟨?_, ?_⟩,
    fecLane_counts hl hp⟩⟩
  · exact fun _ _ hy hw hg hpar harm h0 hmac => sendingLane_sends hl hp hsend hhold hy hw hg hpar harm h0 hmac
  · exact sendingLane_underruns hl hp hsend hhold

/-- Settles O14: the lanes at their edge queues, and the operations of every fall-through queue. -/
theorem queuesCarryInOrder : Obligations.QueuesCarryInOrder :=
  ⟨laneWordsCrossTheEdgeQueues, queuesAreFirstInFirstOut⟩

end Sys2Proof.Claim
end

section
/-! SUPPORT. What the framers and the points of a port leave alone: the port but for the record of its frame conditions (R125),
and every register below the ports' windows. -/

namespace Sys2Proof.Machine

/-- A port without the record of its frame and multiframe conditions (R125), which is all that its framers write in it. -/
def Port.unframed (q : Port) : Port := { q with frIn := false, frSince := 0, mfCode := 0, mfSince := 0 }

/-! ### Ports -/

section
variable (d : Dev) (p k : Nat)

theorem Dev.updPort_unframed {f : Port → Port} (hf : ∀ q, (f q).unframed = q.unframed) :
    ((d.updPort p f).port k).unframed = (d.port k).unframed := by
  by_cases h : k = p
  · rw [h, Dev.updPort_port, hf]
  · rw [Dev.updPort_port_ne _ _ h]

theorem Dev.refresh_port : d.refresh.port k = d.port k :=
  Dev.port_of_mask (Dev.refresh_mask (T := [.regs, .points, .host, .jersey]) (by decide) d) (by decide) k

theorem Dev.frTouch_unframed : ((d.frTouch p).port k).unframed = (d.port k).unframed := by
  have hset : ∀ (e : Dev) (c : Prop) [Decidable c] (f : Port → Port), (∀ q, (f q).unframed = q.unframed) →
      ((if c then e else e.updPort p f).port k).unframed = (e.port k).unframed := by
    intro e c _ f hf
    split
    · rfl
    · exact Dev.updPort_unframed e p k hf
  unfold Dev.frTouch
  dsimp only
  rw [Dev.refresh_port, hset _ _ _ (by exact fun _ => rfl), hset _ _ _ (by exact fun _ => rfl)]

theorem Dev.framersStop_unframed (cause : Nat) : ((d.framersStop p cause).port k).unframed = (d.port k).unframed := by
  unfold Dev.framersStop
  rw [Dev.frTouch_unframed, Dev.port_of_mask ((Dev.dropMf_mask (by decide) _ p).trans
    (Dev.oof_mask (T := [.regs, .framers, .flexo, .oofCause, .odus, .vc4s, .host, .jersey]) (by decide) d ..)) (by decide) k]

theorem Dev.framersGo_unframed : ((d.framersGo p).port k).unframed = (d.port k).unframed := by
  unfold Dev.framersGo
  rw [Dev.frTouch_unframed, Dev.port_of_mask (Dev.mask_foldl (T := [.framers]) (fun _ _ => Dev.updFramer_mask (by decide) ..) _ d)
    (by decide) k]

variable {p k}

theorem Dev.frTouch_port_ne (h : k ≠ p) : (d.frTouch p).port k = d.port k := by
  unfold Dev.frTouch
  dsimp only
  rw [Dev.refresh_port, apply_ite (fun e : Dev => e.port k), Dev.updPort_port_ne _ _ h, ite_self,
    apply_ite (fun e : Dev => e.port k), Dev.updPort_port_ne _ _ h, ite_self]

theorem Dev.framersGo_port_ne (h : k ≠ p) : (d.framersGo p).port k = d.port k := by
  unfold Dev.framersGo
  rw [Dev.frTouch_port_ne _ h, Dev.port_of_mask (Dev.mask_foldl (T := [.framers]) (fun _ _ => Dev.updFramer_mask (by decide) ..) _ d)
    (by decide) k]

end

/-! ### Registers below the ports' windows -/

/-- Outside the host queue engine's window and below the windows of the ports, of which the registers of the points are. -/
def belowPorts (a : Nat) : Prop := offHq a ∧ a < 0x200000

theorem aLane_belowPorts (l : Fin 64) {off : Nat} (h : off < 0x400) : belowPorts (aLane l off) := by
  have := l.isLt
  unfold belowPorts offHq aLane
  omega

theorem belowPorts.ne_aPort {a : Nat} (h : belowPorts a) (p off : Nat) : a ≠ aPort p off := by
  obtain ⟨-, h⟩ := h
  unfold aPort
  omega

theorem pointRegs_above (k : Nat) : 0x200000 ≤ pointRegs k := by
  unfold pointRegs aPort
  dsimp only
  split <;> omega

section
variable {a : Nat} (h : belowPorts a)
include h

theorem Dev.declare_reg (d : Dev) (k : Nat) (new : BitVec 24) : (d.declare k new).reg a = d.reg a := by
  have hev : ∀ (e : Dev) (c : Prop) [Decidable c] (off : Nat) (evs : List (Nat × Option (Nat × List Byte))),
      (if c then e else e.raiseAll (pointRegs k + off) evs).reg a = e.reg a := by
    intro e c _ off evs
    have hne : a ≠ pointRegs k + off := by have := pointRegs_above k; have := h.2; omega
    split
    · rfl
    · exact Dev.raiseAll_reg_ne h.1 hne ..
  unfold Dev.declare
  dsimp only
  split
  · rfl
  · exact (hev ..).trans (hev ..)

theorem Dev.refreshPoint_reg (d : Dev) (k : Nat) : (d.refreshPoint k).reg a = d.reg a := by
  have hact : ∀ e : Dev, (e.act k).reg a = e.reg a := fun e =>
    Dev.reg_of_mask (Dev.act_mask (T := [.points, .host]) (by decide) e k) (by decide) a
  have hupd : ∀ (e : Dev) (f : Point → Point), (e.updPoint k f).reg a = e.reg a := fun _ _ => rfl
  unfold Dev.refreshPoint
  dsimp only
  by_cases hrole : (d.point k).role = 0
  · rw [if_pos hrole]
  · rw [if_neg hrole, apply_ite (fun e : Dev => e.reg a), Dev.declare_reg h, ite_self, hact, hupd, hupd]

theorem Dev.refresh_reg (d : Dev) : d.refresh.reg a = d.reg a := by
  unfold Dev.refresh
  refine foldl_keeps (fun e : Dev => e.reg a = d.reg a) _ (fun e k he => (Dev.refreshPoint_reg h e k).trans he) _ _ ?_
  refine foldl_keeps (fun e : Dev => e.reg a = d.reg a) _ (fun e k he => ?_) _ _ rfl
  dsimp only
  split
  · exact he
  · exact he

theorem Dev.frTouch_reg (d : Dev) (p : Nat) : (d.frTouch p).reg a = d.reg a := by
  unfold Dev.frTouch
  dsimp only
  rw [Dev.refresh_reg h]
  split_ifs <;> rfl

theorem Dev.frRaise_reg (d : Dev) (p : Nat) (bits : List Nat) (more : List Byte) : (d.frRaise p bits more).reg a = d.reg a := by
  unfold Dev.frRaise
  split
  · exact Dev.raiseAll_reg_ne h.1 (h.ne_aPort _ _) ..
  · rfl

theorem Dev.frCount_reg (d : Dev) (p off : Nat) : (d.frCount p off).reg a = d.reg a := by
  unfold Dev.frCount
  split
  · exact Dev.count32_reg_ne (h.ne_aPort _ _) ..
  · rfl

theorem Dev.oofOne_reg (d : Dev) (k cause from_ : Nat) (stop : Bool) : (d.oofOne k cause from_ stop).reg a = d.reg a := by
  unfold Dev.oofOne
  dsimp only
  split_ifs
  · rw [Dev.frRaise_reg h, Dev.frCount_reg h, Dev.frCount_reg h]; rfl
  · rw [Dev.frRaise_reg h, Dev.frCount_reg h]; rfl
  · rfl

theorem Dev.dropFlexo_reg (d : Dev) (p : Nat) (ins : List Nat) : (d.dropFlexo p ins).reg a = d.reg a := by
  unfold Dev.dropFlexo
  dsimp only
  split
  · rfl
  · refine foldl_keeps (fun e : Dev => e.reg a = d.reg a) _ (fun e i he => ?_) _ _ (Dev.frRaise_reg h ..)
    split
    · exact (Dev.oofOne_reg h ..).trans he
    · exact he

theorem Dev.dropOmfi_reg (d : Dev) (p : Nat) : (d.dropOmfi p).reg a = d.reg a := by
  have hfold : ∀ (os : List Nat) (f : Dev → Nat → Odu → Odu), (os.foldl (fun d o => d.updOdu o (f d o)) d).reg a = d.reg a :=
    fun os f => Dev.reg_of_mask (Dev.mask_foldl (T := [.odus]) (fun _ _ => Dev.updOdu_mask (by decide) ..) os d) (by decide) a
  unfold Dev.dropOmfi
  dsimp only
  split_ifs
  · rfl
  · rw [Dev.frRaise_reg h, hfold]
  · rw [hfold]

theorem Dev.dropH4_reg (d : Dev) (v : Nat) : (d.dropH4 v).reg a = d.reg a := by
  have hvc4 : ∀ f, (d.updVc4 v f).reg a = d.reg a := fun f =>
    Dev.reg_of_mask (Dev.updVc4_mask (T := [.vc4s]) (by decide) d v f) (by decide) a
  unfold Dev.dropH4
  split
  · split
    · exact (Dev.frRaise_reg h ..).trans (hvc4 _)
    · exact hvc4 _
  · rfl

theorem Dev.dropMf_reg (d : Dev) (p : Nat) : (d.dropMf p).reg a = d.reg a := by
  have hfold : ∀ (ks : List Nat) (e : Dev) (f : Framer → Framer), (ks.foldl (fun d k => d.updFramer k f) e).reg a = e.reg a :=
    fun ks e f => Dev.reg_of_mask (Dev.mask_foldl (T := [.framers]) (fun _ _ => Dev.updFramer_mask (by decide) ..) ks e) (by decide) a
  unfold Dev.dropMf
  dsimp only
  refine foldl_keeps (fun e : Dev => e.reg a = d.reg a) _ (fun e v he => (Dev.dropH4_reg h e v).trans he) _ _ ?_
  rw [Dev.dropOmfi_reg h]
  rw [hfold]
  split
  · exact Dev.dropFlexo_reg h ..
  · rfl

theorem Dev.oof_reg (d : Dev) (p : Nat) (ks : List Nat) (cause from_ : Nat) (stop : Bool) :
    (d.oof p ks cause from_ stop).reg a = d.reg a := by
  have hfold : (ks.foldl (fun d k => d.oofOne k cause from_ stop) d).reg a = d.reg a :=
    foldl_keeps (fun e : Dev => e.reg a = d.reg a) _ (fun e k he => (Dev.oofOne_reg h e ..).trans he) _ _ rfl
  unfold Dev.oof
  dsimp only
  split
  · exact (Dev.dropMf_reg h ..).trans hfold
  · exact hfold

theorem Dev.framersStop_reg (d : Dev) (p cause : Nat) : (d.framersStop p cause).reg a = d.reg a := by
  unfold Dev.framersStop
  rw [Dev.frTouch_reg h, Dev.dropMf_reg h, Dev.oof_reg h]

theorem Dev.framersGo_reg (d : Dev) (p : Nat) : (d.framersGo p).reg a = d.reg a := by
  unfold Dev.framersGo
  rw [Dev.frTouch_reg h]
  exact Dev.reg_of_mask (Dev.mask_foldl (T := [.framers]) (fun _ _ => Dev.updFramer_mask (by decide) ..) _ d) (by decide) a

theorem Dev.portRaise_reg (d : Dev) (p : Nat) (bits : List Nat) : (d.portRaise p bits).reg a = d.reg a :=
  Dev.raiseAll_reg_ne h.1 (h.ne_aPort _ _) ..

end

end Sys2Proof.Machine
end

section
/-! SUPPORT. The operations of lanes and ports (R68–R75) as rules about what they write: which lanes and which fields of a port
an operation changes, and that no register of a lane is among what the operations of a port write. -/

namespace Sys2Proof.Machine

/-- What a PORT_CFG sets in a port (R83). -/
def Port.settings (q : Port) : Port :=
  { lanes := q.lanes, format := q.format, otucN := q.otucN, fec := q.fec, shed := q.shed, skewWarn := q.skewWarn }

theorem Port.settings_unframed (q : Port) : q.unframed.settings = q.settings := rfl

theorem Port.settings_of_unframed {q r : Port} (h : q.unframed = r.unframed) : q.settings = r.settings := by
  rw [← q.settings_unframed, h, r.settings_unframed]

theorem Port.astate_of_unframed {q r : Port} (h : q.unframed = r.unframed) : q.astate = r.astate :=
  (congrArg Port.astate h :)

theorem Port.skew_of_unframed {q r : Port} (h : q.unframed = r.unframed) : q.skew = r.skew := (congrArg Port.skew h :)

theorem Port.lanes_of_settings {q r : Port} (h : q.settings = r.settings) : q.lanes = r.lanes := (congrArg Port.lanes h :)

theorem Dev.portLanes_congr {d e : Dev} {p : Nat} (h : (d.port p).lanes = (e.port p).lanes) : d.portLanes p = e.portLanes p := by
  unfold Dev.portLanes
  rw [h]

theorem Dev.laneOwner_congr {d e : Dev} (h : d.ports = e.ports) (l : Nat) : d.laneOwner l = e.laneOwner l := by
  unfold Dev.laneOwner
  rw [h]

/-- The one lane of a port of one lane. -/
theorem Dev.portLanes_one {d : Dev} {p : Nat} (h : (d.port p).lanes = 1) : d.portLanes p = [p] := by
  unfold Dev.portLanes
  rw [h]
  rfl

theorem Dev.updPort_settings (d : Dev) (p k : Nat) {f : Port → Port} (hf : ∀ q, (f q).settings = q.settings) :
    ((d.updPort p f).port k).settings = (d.port k).settings := by
  by_cases h : k = p
  · rw [h, Dev.updPort_port, hf]
  · rw [Dev.updPort_port_ne _ _ h]

theorem Dev.portRaise_port (d : Dev) (p : Nat) (bits : List Nat) (k : Nat) : (d.portRaise p bits).port k = d.port k :=
  Dev.port_of_mask (Dev.portRaise_mask (T := [.regs, .host, .jersey]) (by decide) d p bits) (by decide) k

theorem Dev.portRaise_lane (d : Dev) (p : Nat) (bits : List Nat) (k : Nat) : (d.portRaise p bits).lane k = d.lane k :=
  Dev.lane_of_mask (Dev.portRaise_mask (T := [.regs, .host, .jersey]) (by decide) d p bits) (by decide) k

theorem Dev.raise_port (d : Dev) (a i code : Nat) (args : List Byte) (k : Nat) : (d.raise a i code args).port k = d.port k :=
  Dev.port_of_mask (Dev.raise_mask (T := [.regs, .host, .jersey]) (by decide) d a i code args) (by decide) k

theorem Dev.raise_lane (d : Dev) (a i code : Nat) (args : List Byte) (k : Nat) : (d.raise a i code args).lane k = d.lane k :=
  Dev.lane_of_mask (Dev.raise_mask (T := [.regs, .host, .jersey]) (by decide) d a i code args) (by decide) k

theorem Dev.raise_now (d : Dev) (a i code : Nat) (args : List Byte) : (d.raise a i code args).now = d.now :=
  Dev.now_of_mask (Dev.raise_mask (T := [.regs, .host, .jersey]) (by decide) d a i code args) (by decide)

theorem Dev.raise_laneOwner (d : Dev) (a i code : Nat) (args : List Byte) (l : Nat) :
    (d.raise a i code args).laneOwner l = d.laneOwner l :=
  Dev.laneOwner_congr (Dev.ports_of_mask (Dev.raise_mask (T := [.regs, .host, .jersey]) (by decide) d a i code args) (by decide)) l

theorem Dev.refresh_lane (d : Dev) (k : Nat) : d.refresh.lane k = d.lane k :=
  Dev.lane_of_mask (Dev.refresh_mask (T := [.regs, .points, .host, .jersey]) (by decide) d) (by decide) k

theorem Dev.frTouch_lane (d : Dev) (p k : Nat) : (d.frTouch p).lane k = d.lane k :=
  Dev.lane_of_mask (Dev.frTouch_mask (T := [.regs, .ports, .points, .host, .jersey]) (by decide) d p) (by decide) k

theorem Dev.framersStop_lane (d : Dev) (p cause k : Nat) : (d.framersStop p cause).lane k = d.lane k :=
  Dev.lane_of_mask (Dev.framersStop_mask (T := [.regs, .ports, .framers, .flexo, .oofCause, .points, .odus, .vc4s, .host, .jersey])
    (by decide) d p cause) (by decide) k

theorem Dev.framersGo_lane (d : Dev) (p k : Nat) : (d.framersGo p).lane k = d.lane k :=
  Dev.lane_of_mask (Dev.framersGo_mask (T := [.regs, .ports, .framers, .points, .host, .jersey]) (by decide) d p) (by decide) k

/-! ### Traffic stops (R68, R75) -/

theorem Lane.quiet_quiet (x : Lane) : x.quiet.quiet = x.quiet := rfl

theorem Dev.quietLanes_lane (ls : List Nat) (d : Dev) (k : Nat) :
    (ls.foldl (fun d l => d.updLane l Lane.quiet) d).lane k = if k ∈ ls then (d.lane k).quiet else d.lane k := by
  induction ls generalizing d with
  | nil => simp
  | cons l ls ih =>
    rw [List.foldl_cons, ih]
    by_cases hk : k = l
    · rw [hk, Dev.updLane_lane, Lane.quiet_quiet, ite_self, if_pos List.mem_cons_self]
    · rw [Dev.updLane_lane_ne _ _ hk]
      simp only [List.mem_cons, hk, false_or]

theorem Dev.quietLanes_port (ls : List Nat) (d : Dev) (k : Nat) :
    (ls.foldl (fun d l => d.updLane l Lane.quiet) d).port k = d.port k :=
  Dev.port_of_mask (Dev.mask_foldl (T := [.lanes]) (fun _ _ => Dev.updLane_mask (by decide) ..) ls d) (by decide) k

theorem Dev.quietLanes_reg (ls : List Nat) (d : Dev) (a : Nat) :
    (ls.foldl (fun d l => d.updLane l Lane.quiet) d).reg a = d.reg a :=
  Dev.reg_of_mask (Dev.mask_foldl (T := [.lanes]) (fun _ _ => Dev.updLane_mask (by decide) ..) ls d) (by decide) a

section
variable (d : Dev) (p : Nat)

theorem Dev.trafficStop_lane (k : Nat) : (d.trafficStop p).lane k = if k ∈ d.portLanes p then (d.lane k).quiet else d.lane k :=
  Dev.quietLanes_lane (d.portLanes p) d k

theorem Dev.trafficStop_port : (d.trafficStop p).port p = { d.port p with egress := false } := by
  unfold Dev.trafficStop
  rw [Dev.updPort_port, Dev.quietLanes_port]

variable (bits : List Nat)

/-- A port that leaves ALIGNED silences its lanes (R68, R75). -/
theorem Dev.portLost_lane (k : Nat) :
    (d.portLost p bits).lane k = if k ∈ d.portLanes p then (d.lane k).quiet else d.lane k := by
  unfold Dev.portLost
  rw [Dev.framersStop_lane, Dev.portRaise_lane, Dev.trafficStop_lane,
    Dev.portLanes_congr (e := d) (by rw [Dev.updPort_port])]
  rfl

theorem Dev.portLost_port : ((d.portLost p bits).port p).unframed
    = ({ d.port p with astate := .aligning, egress := false } : Port).unframed := by
  unfold Dev.portLost
  rw [Dev.framersStop_unframed, Dev.portRaise_port, Dev.trafficStop_port, Dev.updPort_port]

theorem Dev.portLost_reg {a : Nat} (h : belowPorts a) : (d.portLost p bits).reg a = d.reg a := by
  unfold Dev.portLost
  rw [Dev.framersStop_reg h, Dev.portRaise_reg h]
  exact Dev.quietLanes_reg _ (d.updPort p _) a

end

/-! ### Traffic starts (R79) -/

section
variable (d : Dev) (p : Nat)

theorem Dev.egressRestart_port (k : Nat) : (d.egressRestart p).port k = (d.updPort p (fun q => { q with egress := true })).port k := by
  unfold Dev.egressRestart
  refine foldl_keeps (fun e : Dev => e.port k = _) _ (fun e l he => ?_) _ _ rfl
  split
  · exact he
  · exact he

theorem Dev.egressRestart_reg (a : Nat) : (d.egressRestart p).reg a = d.reg a := by
  unfold Dev.egressRestart
  refine foldl_keeps (fun e : Dev => e.reg a = d.reg a) _ (fun e l he => ?_) _ _ rfl
  split
  · exact he
  · exact he

/-- The start of traffic settles whether a lane sends, and nothing else of it. -/
theorem Dev.egressRestart_lane (k : Nat) (b : Bool) :
    ({ (d.egressRestart p).lane k with sending := b } : Lane) = { d.lane k with sending := b } := by
  unfold Dev.egressRestart
  refine foldl_keeps (fun e : Dev => ({ e.lane k with sending := b } : Lane) = { d.lane k with sending := b }) _
    (fun e l he => ?_) _ _ rfl
  split
  · by_cases hk : k = l
    · rw [hk] at he ⊢
      rw [Dev.updLane_lane]
      exact he
    · rw [Dev.updLane_lane_ne _ _ hk]
      exact he
  · exact he

theorem Dev.egressRestart_lane_ne {k : Nat} (h : k ∉ d.portLanes p) : (d.egressRestart p).lane k = d.lane k := by
  have hl : (d.updPort p (fun q => { q with egress := true })).portLanes p = d.portLanes p :=
    Dev.portLanes_congr (by rw [Dev.updPort_port])
  unfold Dev.egressRestart
  dsimp only
  rw [hl]
  refine List.foldlRecOn (motive := fun e : Dev => e.lane k = d.lane k) _ _ rfl fun e he l hmem => ?_
  split
  · have hk : k ≠ l := fun hk => h (hk ▸ hmem)
    rw [Dev.updLane_lane_ne _ _ hk, he]
  · exact he

end

/-! ### Alignment (R74) -/

/-- What the operations that a measured alignment is made of all keep, it keeps. -/
theorem Dev.portAligned_keeps {P : Dev → Prop} {p : Nat}
    (hport : ∀ e (f : Port → Port), (∀ q, (f q).settings = q.settings) → P e → P (e.updPort p f))
    (hraise : ∀ e bits, P e → P (e.portRaise p bits)) (hegress : ∀ e, P e → P (e.egressRestart p))
    (hrefresh : ∀ e, P e → P e.refresh) (hgo : ∀ e, P e → P (e.framersGo p)) {d : Dev} (h : P d) (skew : Nat) :
    P (d.portAligned p skew) := by
  unfold Dev.portAligned
  dsimp only
  split
  · split
    · split
      · exact hrefresh _ (hegress _ (hraise _ _ (hport _ _ (fun _ => rfl) h)))
      · exact hgo _ (hegress _ (hraise _ _ (hport _ _ (fun _ => rfl) h)))
    · exact hraise _ _ (hport _ _ (fun _ => rfl) h)
  · exact h

section
variable (d : Dev) (p skew : Nat)

theorem Dev.portAligned_reg {a : Nat} (h : belowPorts a) : (d.portAligned p skew).reg a = d.reg a :=
  Dev.portAligned_keeps (P := fun e => e.reg a = d.reg a) (fun _ _ _ he => he) (fun e bits he => (Dev.portRaise_reg h e p bits).trans he)
    (fun e he => (e.egressRestart_reg p a).trans he) (fun e he => (Dev.refresh_reg h e).trans he)
    (fun e he => (Dev.framersGo_reg h e p).trans he) rfl skew

theorem Dev.portAligned_lane (k : Nat) (b : Bool) :
    ({ (d.portAligned p skew).lane k with sending := b } : Lane) = { d.lane k with sending := b } :=
  Dev.portAligned_keeps (P := fun e => ({ e.lane k with sending := b } : Lane) = { d.lane k with sending := b }) (fun _ _ _ he => he)
    (fun e bits he => by rw [Dev.portRaise_lane]; exact he) (fun e he => (e.egressRestart_lane p k b).trans he)
    (fun e he => by rw [Dev.refresh_lane]; exact he) (fun e he => by rw [Dev.framersGo_lane]; exact he) rfl skew

theorem Dev.portAligned_settings (k : Nat) : ((d.portAligned p skew).port k).settings = (d.port k).settings :=
  Dev.portAligned_keeps (P := fun e => (e.port k).settings = (d.port k).settings)
    (fun e f hf he => (e.updPort_settings p k hf).trans he) (fun e bits he => by rw [Dev.portRaise_port]; exact he)
    (fun e he => by rw [Dev.egressRestart_port, Dev.updPort_settings _ _ _ (by exact fun _ => rfl)]; exact he)
    (fun e he => by rw [Dev.refresh_port]; exact he)
    (fun e he => (Port.settings_of_unframed (e.framersGo_unframed p k)).trans he) rfl skew

theorem Dev.portAligned_lane_ne {k : Nat} (h : k ∉ d.portLanes p) : (d.portAligned p skew).lane k = d.lane k := by
  refine (Dev.portAligned_keeps (P := fun e => e.lane k = d.lane k ∧ (e.port p).settings = (d.port p).settings) ?_ ?_ ?_ ?_ ?_
    ⟨rfl, rfl⟩ skew).1
  · exact fun e f hf he => ⟨he.1, (e.updPort_settings p p hf).trans he.2⟩
  · exact fun e bits he => ⟨(e.portRaise_lane p bits k).trans he.1, by rw [Dev.portRaise_port]; exact he.2⟩
  · refine fun e he => ⟨?_, by rw [Dev.egressRestart_port, Dev.updPort_settings _ _ _ (by exact fun _ => rfl)]; exact he.2⟩
    rw [Dev.egressRestart_lane_ne, he.1]
    rwa [Dev.portLanes_congr (Port.lanes_of_settings he.2)]
  · exact fun e he => ⟨(e.refresh_lane k).trans he.1, by rw [Dev.refresh_port]; exact he.2⟩
  · exact fun e he => ⟨(e.framersGo_lane p k).trans he.1, (Port.settings_of_unframed (e.framersGo_unframed p p)).trans he.2⟩

theorem Dev.portAligned_port_ne {k : Nat} (h : k ≠ p) : (d.portAligned p skew).port k = d.port k :=
  Dev.portAligned_keeps (P := fun e => e.port k = d.port k) (fun e f _ he => (e.updPort_port_ne f h).trans he)
    (fun e bits he => (e.portRaise_port p bits k).trans he)
    (fun e he => (e.egressRestart_port p k).trans ((e.updPort_port_ne _ h).trans he)) (fun e he => (e.refresh_port k).trans he)
    (fun e he => (e.framersGo_port_ne h).trans he) rfl skew

end

section
variable {d : Dev} {p skew : Nat} (hf : (d.port p).format ≠ 0) (ha : (d.port p).astate = .aligning) (hl : d.lanesLocked p = true)
include hf ha hl

/-- A port whose skew is within the limit is ALIGNED (R74). -/
theorem Dev.portAligned_aligns (hk : d.shownSkew p skew ≤ 512) :
    ((d.portAligned p skew).port p).astate = .aligned ∧ ((d.portAligned p skew).port p).skew = d.shownSkew p skew := by
  have hport : ∀ (e : Dev) (bits : List Nat), (e.port p).astate = .aligned ∧ (e.port p).skew = d.shownSkew p skew →
      let e' := (e.portRaise p bits).egressRestart p
      (e'.port p).astate = .aligned ∧ (e'.port p).skew = d.shownSkew p skew := by
    intro e bits he
    dsimp only
    rw [Dev.egressRestart_port, Dev.updPort_port, Dev.portRaise_port]
    exact he
  unfold Dev.portAligned
  dsimp only
  rw [if_pos (by simp [hf, ha, hl]), if_pos hk]
  split
  · rw [Dev.refresh_port]
    exact hport _ _ (by rw [Dev.updPort_port]; exact ⟨rfl, rfl⟩)
  · rw [Port.astate_of_unframed (Dev.framersGo_unframed ..), Port.skew_of_unframed (Dev.framersGo_unframed ..)]
    exact hport _ _ (by rw [Dev.updPort_port]; exact ⟨rfl, rfl⟩)

/-- A port whose skew exceeds the limit is in SKEW_FAIL, with its event (R74). -/
theorem Dev.portAligned_fails (hk : 512 < d.shownSkew p skew) :
    ((d.portAligned p skew).port p).astate = .skewFail ∧ ((d.portAligned p skew).port p).skew = d.shownSkew p skew
    ∧ bit ((d.portAligned p skew).reg (aPort p 4)) 3 = true := by
  have hoff : offHq (aPort p 4) := by unfold offHq aPort; omega
  have hzero : ∀ w : Word, 0 ||| w = w := fun _ => BitVec.zero_or
  unfold Dev.portAligned
  dsimp only
  rw [if_pos (by simp [hf, ha, hl]), if_neg (by omega), Dev.portRaise_port, Dev.updPort_port]
  refine ⟨rfl, rfl, ?_⟩
  unfold Dev.portRaise
  rw [Dev.raiseAll_reg hoff, List.map_singleton, List.foldl_cons, List.foldl_nil, hzero]
  exact rsSet_bit _ 3 (by decide)

end

/-- The measurement of an aligned port is shown, and the port leaves ALIGNED where it exceeds the limit or its lanes, more than
one, have changed their order (R75). -/
theorem Dev.skewMeasured_aligned {d : Dev} {p skew : Nat} (hf : (d.port p).format ≠ 0) (ha : (d.port p).astate = .aligned)
    (order : Bool) : ((d.skewMeasured p skew order).port p).skew = d.shownSkew p skew
      ∧ ((d.skewMeasured p skew order).port p).astate
        = if order = true ∧ (d.port p).lanes ≠ 1 ∨ 512 < d.shownSkew p skew then .aligning else .aligned := by
  unfold Dev.skewMeasured
  dsimp only
  rw [if_pos (by simp [hf, ha])]
  by_cases hleft : order = true ∧ (d.port p).lanes ≠ 1 ∨ 512 < d.shownSkew p skew
  · rw [if_pos (by simpa using hleft), if_pos hleft, Port.skew_of_unframed (Dev.portLost_port ..),
      Port.astate_of_unframed (Dev.portLost_port ..), Dev.updPort_port]
    exact ⟨rfl, rfl⟩
  · rw [if_neg (by simpa using hleft), if_neg hleft, Dev.portRaise_port, Dev.updPort_port]
    exact ⟨rfl, ha⟩

section
variable (d : Dev) (p : Nat)

theorem Dev.alignOne_lane (k : Nat) (b : Bool) :
    ({ (d.alignOne p).lane k with sending := b } : Lane) = { d.lane k with sending := b } := by
  unfold Dev.alignOne
  split
  · exact Dev.portAligned_lane ..
  · rfl

theorem Dev.alignOne_port_ne {k : Nat} (h : k ≠ p) : (d.alignOne p).port k = d.port k := by
  unfold Dev.alignOne
  split
  · exact Dev.portAligned_port_ne d p 0 h
  · rfl

theorem Dev.alignOne_reg {a : Nat} (h : belowPorts a) : (d.alignOne p).reg a = d.reg a := by
  unfold Dev.alignOne
  split
  · exact Dev.portAligned_reg d p 0 h
  · rfl

theorem Dev.alignOne_settings (k : Nat) : ((d.alignOne p).port k).settings = (d.port k).settings := by
  unfold Dev.alignOne
  split
  · exact Dev.portAligned_settings ..
  · rfl

variable {d p}

theorem Dev.alignOne_lane_ne {k : Nat} (h : k ≠ p) : (d.alignOne p).lane k = d.lane k := by
  unfold Dev.alignOne
  split
  case isTrue h1 =>
    refine Dev.portAligned_lane_ne d p 0 ?_
    rwa [Dev.portLanes_one h1, List.mem_singleton]
  case isFalse => rfl

/-- A port that has several lanes, or does not align, is no port that its one lane aligns. -/
theorem Dev.alignOne_other (h : ¬ ((d.port p).lanes = 1 ∧ (d.port p).astate = .aligning)) : d.alignOne p = d := by
  unfold Dev.alignOne
  split
  case isTrue h1 =>
    have ha : (d.port p).astate ≠ .aligning := fun ha => h ⟨h1, ha⟩
    unfold Dev.portAligned
    dsimp only
    rw [if_neg (by simp [ha])]
  case isFalse => rfl

/-- A port waits for its one lane, or for the measurement of several (R74). -/
theorem Dev.alignOne_waits (h : ¬ ((d.port p).lanes = 1 ∧ (d.lane p).bstate = .locked)) : d.alignOne p = d := by
  unfold Dev.alignOne
  split
  case isTrue h1 =>
    have hb : (d.lane p).bstate ≠ .locked := fun hb => h ⟨h1, hb⟩
    have hl : d.lanesLocked p = false := by
      unfold Dev.lanesLocked
      simp [Dev.portLanes_one h1, hb]
    unfold Dev.portAligned
    dsimp only
    rw [if_neg (by simp [hl])]
  case isFalse => rfl

/-- One lane that is LOCKED aligns its port (R74). -/
theorem Dev.alignOne_aligns (hf : (d.port p).format ≠ 0) (h1 : (d.port p).lanes = 1) (ha : (d.port p).astate = .aligning)
    (hl : (d.lane p).bstate = .locked) : ((d.alignOne p).port p).astate = .aligned := by
  unfold Dev.alignOne
  rw [if_pos h1]
  refine (Dev.portAligned_aligns hf ha ?_ ?_).1
  · unfold Dev.lanesLocked
    simp [Dev.portLanes_one h1, hl]
  · unfold Dev.shownSkew
    rw [if_pos h1]
    exact Nat.zero_le _

end

/-! ### Lanes (R70–R72) -/

section
variable (d : Dev) (l : Nat)

theorem Dev.toAcquire_lane : (d.toAcquire l).lane l
    = { d.lane l with bstate := .acquire, cdrLock := false, pcsLock := false, acqSince := d.now } := Dev.updLane_lane ..

theorem Dev.toAcquire_lane_ne {k : Nat} (h : k ≠ l) : (d.toAcquire l).lane k = d.lane k := Dev.updLane_lane_ne _ _ h

/-- The device with lane l LOCKED and its event posted, before its port follows (R72). -/
def Dev.withLocked (d : Dev) (l : Nat) : Dev :=
  (d.updLane l (fun x => { x with bstate := .locked, pcsLock := true })).raise (aLane l 4) 0 0x1001 (le 1 l)

theorem Dev.withLocked_lane : (d.withLocked l).lane l = { d.lane l with bstate := .locked, pcsLock := true } := by
  unfold Dev.withLocked
  rw [Dev.raise_lane, Dev.updLane_lane]

theorem Dev.withLocked_lane_ne {k : Nat} (h : k ≠ l) : (d.withLocked l).lane k = d.lane k := by
  unfold Dev.withLocked
  rw [Dev.raise_lane, Dev.updLane_lane_ne _ _ h]

theorem Dev.withLocked_port (k : Nat) : (d.withLocked l).port k = d.port k := Dev.raise_port (d.updLane l _) ..

theorem Dev.withLocked_laneOwner (k : Nat) : (d.withLocked l).laneOwner k = d.laneOwner k := Dev.raise_laneOwner (d.updLane l _) ..

theorem Dev.withLocked_event (l : Fin 64) : bit ((d.withLocked l).reg (aLane l 4)) 0 = true :=
  Dev.raise_bit (aLane_belowPorts l (by decide)).1 _ _ _ (by decide) _

variable {d l}

/-- A lane in PCS_WAIT locks, and its port follows: it aligns again after SKEW_FAIL, or by its one lane (R72, R74). -/
theorem Dev.laneLocks_cases (h : (d.lane l).bstate = .pcsWait) :
    d.laneOwner l = none ∧ d.laneLocks l = d.withLocked l
    ∨ ∃ p, d.laneOwner l = some p ∧ ((d.port p).astate = .skewFail
        ∧ d.laneLocks l = (d.withLocked l).updPort p (fun q => { q with astate := .aligning, laneLeft := false })
      ∨ d.laneLocks l = (d.withLocked l).alignOne p) := by
  have heq : d.laneLocks l = match (d.withLocked l).laneOwner l with
      | some p => if ((d.withLocked l).port p).astate = .skewFail && ((d.withLocked l).port p).laneLeft then
            (d.withLocked l).updPort p (fun q => { q with astate := .aligning, laneLeft := false })
          else (d.withLocked l).alignOne p
      | none => d.withLocked l := by
    unfold Dev.laneLocks
    rw [if_pos h]
    rfl
  rw [heq, Dev.withLocked_laneOwner]
  cases d.laneOwner l with
  | none => exact .inl ⟨rfl, rfl⟩
  | some p =>
    refine .inr ⟨p, rfl, ?_⟩
    dsimp only
    rw [Dev.withLocked_port]
    split
    case isTrue hs =>
      simp only [Bool.and_eq_true, decide_eq_true_eq] at hs
      exact .inl ⟨hs.1, rfl⟩
    case isFalse => exact .inr rfl

end

/-! ### A lane leaves LOCKED (R70, R74) -/

section
variable (d : Dev) (l : Nat) (cdr : Bool)

/-- The device with lane l lost and its event posted, before its port follows (R70, R84). -/
def Dev.withLost (d : Dev) (l : Nat) (cdr : Bool) : Dev :=
  ((d.toAcquire l).updLane l (fun x => { x with cdrLock := !cdr })).raise (aLane l 4) 1 0x1002 (le 1 l)

theorem Dev.withLost_lane : (d.withLost l cdr).lane l
    = { d.lane l with bstate := .acquire, cdrLock := !cdr, pcsLock := false, acqSince := d.now } := by
  unfold Dev.withLost
  rw [Dev.raise_lane, Dev.updLane_lane, Dev.toAcquire_lane]

theorem Dev.withLost_lane_ne {k : Nat} (h : k ≠ l) : (d.withLost l cdr).lane k = d.lane k := by
  unfold Dev.withLost
  rw [Dev.raise_lane, Dev.updLane_lane_ne _ _ h, Dev.toAcquire_lane_ne _ _ h]

theorem Dev.withLost_port (k : Nat) : (d.withLost l cdr).port k = d.port k :=
  Dev.raise_port ((d.toAcquire l).updLane l (fun x => { x with cdrLock := !cdr })) ..

theorem Dev.withLost_laneOwner (k : Nat) : (d.withLost l cdr).laneOwner k = d.laneOwner k :=
  Dev.raise_laneOwner ((d.toAcquire l).updLane l (fun x => { x with cdrLock := !cdr })) ..

theorem Dev.withLost_event (l : Fin 64) : bit ((d.withLost l cdr).reg (aLane l 4)) 1 = true :=
  Dev.raise_bit (aLane_belowPorts l (by decide)).1 _ _ _ (by decide) _

theorem Dev.laneLoses_locked (h : (d.lane l).bstate = .locked) : d.laneLoses l cdr = (d.withLost l cdr).portLaneLeft l := by
  unfold Dev.laneLoses
  rw [if_pos h]
  rfl

variable {d l}

/-- The port of a lane that leaves LOCKED follows only where it was ALIGNED: otherwise no lane and no register changes. -/
theorem Dev.portLaneLeft_apart (h : ∀ p, d.laneOwner l = some p → (d.port p).astate ≠ .aligned) :
    (∀ k, (d.portLaneLeft l).lane k = d.lane k) ∧ ∀ a, (d.portLaneLeft l).reg a = d.reg a := by
  unfold Dev.portLaneLeft
  split
  case h_1 => exact ⟨fun _ => rfl, fun _ => rfl⟩
  case h_2 p hp =>
    split
    case h_1 ha => exact absurd ha (h p hp)
    case h_2 => exact ⟨fun _ => rfl, fun _ => rfl⟩
    case h_3 => exact ⟨fun _ => rfl, fun _ => rfl⟩

theorem Dev.portLaneLeft_aligned {p : Nat} (hp : d.laneOwner l = some p) (ha : (d.port p).astate = .aligned) :
    d.portLaneLeft l = d.portLost p := by
  unfold Dev.portLaneLeft
  rw [hp]
  dsimp only
  rw [ha]

end

end Sys2Proof.Machine
end

section
/-! PROOF of O12: the bring-up of a lane event by event (R70–R72, R330), and the alignment of a port (R74, R75). -/

namespace Sys2Proof.Claim

open Machine

section
variable {s : State} {l : Fin 64}

/-- A lane on its entry to ACQUIRE (R70, R71). -/
def acquiring (d : Dev) (x : Lane) : Lane := { x with bstate := .acquire, cdrLock := false, pcsLock := false, acqSince := d.now }

/-- A lane whose clock recovery has locked (R70). -/
def awaiting (d : Dev) (x : Lane) : Lane := { x with bstate := .pcsWait, cdrLock := true, waitSince := d.now }

/-- A lane with lane PCS lock (R70, R72). -/
def lockedLane (x : Lane) : Lane := { x with bstate := .locked, pcsLock := true }

theorem laneIs_toAcquire {d : Dev} (hk : ∀ k : Nat, k ≠ l → d.lane k = s.dev.lane k) :
    LaneIs s { s with dev := d.toAcquire l } l (acquiring d (d.lane l)) :=
  ⟨d.toAcquire_lane l, fun k hne => (d.toAcquire_lane_ne l hne).trans (hk k hne)⟩

/-! ### CAL and ACQUIRE (R70–R72, R330) -/

section
variable (hl : s.dev.life = .running)
include hl

theorem laneCalComplete_acquires (hc : (s.dev.lane l).bstate = .cal) (o : BitVec 32) : Answers (.laneCalComplete l o) s fun t =>
    LaneIs s t l { acquiring s.dev (s.dev.lane l) with offsets := some o, calOk := true } := by
  refine answers_onDev rfl hl ?_
  dsimp only
  unfold Dev.laneCalDone
  rw [if_pos hc]
  have h := laneIs_toAcquire (s := s) (l := l) (d := s.dev.updLane l (fun x => { x with offsets := some o, calOk := true }))
    fun k hk => Dev.updLane_lane_ne _ _ hk
  rwa [Dev.updLane_lane] at h

theorem laneCalAbort_acquires (hc : (s.dev.lane l).bstate = .cal) : Answers (.laneCalAbort l) s fun t =>
    LaneIs s t l { acquiring s.dev (s.dev.lane l) with calOk := false } ∧ EventSet t (aLane l 4) 3 := by
  refine answers_onDev rfl hl ?_
  dsimp only
  unfold Dev.laneCalAborted
  rw [if_pos hc]
  have h := laneIs_toAcquire (s := s) (l := l)
    (d := (s.dev.updLane l (fun x => { x with calOk := false })).raise (aLane l 4) 3 0x1004 (le 1 l))
    fun k hk => by rw [Dev.raise_lane, Dev.updLane_lane_ne _ _ hk]
  unfold acquiring at h
  rw [Dev.raise_now, Dev.raise_lane, Dev.updLane_lane] at h
  exact ⟨h, Dev.raise_bit (aLane_belowPorts l (by decide)).1 _ _ _ (by decide) _⟩

theorem acqRetry_restarts (hc : (s.dev.lane l).bstate = .acquire)
    (hb : (s.dev.lane l).acqSince + acqBound (s.dev.lane l).rate ≤ s.dev.now) : Answers (.acqRetry l) s fun t =>
    LaneIs s t l (acquiring s.dev (s.dev.lane l)) ∧ t.dev.reg (aLane l 0x1C) = countUp (s.dev.reg (aLane l 0x1C)) 0 32 1 := by
  refine answers_onDev rfl hl ?_
  dsimp only
  unfold Dev.acqRetries
  rw [if_pos (by simp [hc, Dev.after, hb])]
  exact ⟨laneIs_toAcquire (d := s.dev.count32 (aLane l 0x1C)) fun _ _ => rfl, s.dev.count32_reg (aLane l 0x1C) 1⟩

/-! ### PCS_WAIT (R70, R72, R74) -/

theorem laneCdrLost_acquires (hc : (s.dev.lane l).bstate = .pcsWait) : Answers (.laneCdrLost l) s fun t =>
    LaneIs s t l (acquiring s.dev (s.dev.lane l)) := by
  refine answers_onDev rfl hl ?_
  unfold Dev.laneCdrGone
  rw [if_pos hc]
  exact laneIs_toAcquire fun _ _ => rfl

end

/-- Port p has one lane and aligns: its lane, LOCKED, aligns it (R74). -/
def Lone (d : Dev) (p : Nat) : Prop := (d.port p).lanes = 1 ∧ (d.port p).astate = .aligning

/-- A lane that locks is LOCKED with its event set; no other lane changes, and the port changes neither (R72). -/
theorem laneLocks_lane {d : Dev} (hw : (d.lane l).bstate = .pcsWait) (hp : ∀ p, d.laneOwner l = some p → ¬ Lone d p) :
    (d.laneLocks l).lane l = lockedLane (d.lane l) ∧ (∀ k : Nat, k ≠ l → (d.laneLocks l).lane k = d.lane k)
    ∧ bit ((d.laneLocks l).reg (aLane l 4)) 0 = true := by
  have hlocked : (d.withLocked l).lane l = lockedLane (d.lane l) ∧ (∀ k : Nat, k ≠ l → (d.withLocked l).lane k = d.lane k)
      ∧ bit ((d.withLocked l).reg (aLane l 4)) 0 = true :=
    ⟨d.withLocked_lane l, fun _ hk => d.withLocked_lane_ne l hk, d.withLocked_event l⟩
  obtain ⟨-, h⟩ | ⟨p, ho, ⟨-, h⟩ | h⟩ := Dev.laneLocks_cases hw
  · rw [h]; exact hlocked
  · rw [h]; exact hlocked
  · rw [h, Dev.alignOne_other (by rw [Dev.withLocked_port]; exact hp p ho)]; exact hlocked

/-- The one lane of an aligning port locks, and the port is ALIGNED (R74). -/
theorem laneLocks_alone {d : Dev} (hw : (d.lane l).bstate = .pcsWait) (ho : d.laneOwner l = some l.val)
    (hf : (d.port l).format ≠ 0) (hlone : Lone d l) :
    ((d.laneLocks l).port l).astate = .aligned
    ∧ (∀ b, ({ (d.laneLocks l).lane l with sending := b } : Lane) = { lockedLane (d.lane l) with sending := b })
    ∧ (∀ k : Nat, k ≠ l → (d.laneLocks l).lane k = d.lane k) ∧ bit ((d.laneLocks l).reg (aLane l 4)) 0 = true := by
  obtain ⟨h1, ha⟩ := hlone
  have hport : ((d.withLocked l).port l) = d.port l := d.withLocked_port l l
  have hlocks : d.laneLocks l = (d.withLocked l).alignOne l := by
    obtain ⟨hn, -⟩ | ⟨p, hp, hs⟩ := Dev.laneLocks_cases hw
    · rw [ho] at hn; cases hn
    · obtain rfl : l.val = p := Option.some.inj (ho.symm.trans hp)
      obtain ⟨hs, -⟩ | h := hs
      · rw [ha] at hs; cases hs
      · exact h
  rw [hlocks]
  refine ⟨Dev.alignOne_aligns (by rwa [hport]) (by rwa [hport]) (by rwa [hport]) (by rw [Dev.withLocked_lane]), fun b => ?_,
    fun k hk => ?_, ?_⟩
  · rw [Dev.alignOne_lane, Dev.withLocked_lane]
    rfl
  · rw [Dev.alignOne_lane_ne hk, Dev.withLocked_lane_ne _ _ hk]
  · rw [Dev.alignOne_reg _ _ (aLane_belowPorts l (by decide))]
    exact d.withLocked_event l

/-- What LANE_LOCKED, or LANE_ACQUIRED where clock recovery is the whole lane PCS lock, makes of a lane and of its port (R72, R74):
`d` is the device whose lane l waits in PCS_WAIT. -/
theorem locking_answers {c : Instr} {d : Dev} (hc : exec c s = .next { s with dev := d.laneLocks l })
    (hw : (d.lane l).bstate = .pcsWait) (hports : d.ports = s.dev.ports) (hk : ∀ k : Nat, k ≠ l → d.lane k = s.dev.lane k) :
    ((∀ p, s.dev.laneOwner l = some p → ¬ Lone s.dev p) → Answers c s fun t =>
      LaneIs s t l (lockedLane (d.lane l)) ∧ EventSet t (aLane l 4) 0)
    ∧ (s.dev.laneOwner l = some l.val → (s.dev.port l).format ≠ 0 → Lone s.dev l → Answers c s fun t =>
      (t.dev.port l).astate = .aligned
      ∧ { t.dev.lane l with sending := (lockedLane (d.lane l)).sending } = lockedLane (d.lane l)
      ∧ (∀ k : Nat, k ≠ l → t.dev.lane k = s.dev.lane k) ∧ EventSet t (aLane l 4) 0) := by
  have howner : ∀ k, d.laneOwner k = s.dev.laneOwner k := Dev.laneOwner_congr hports
  have hport : ∀ p, d.port p = s.dev.port p := fun p => by unfold Dev.port; rw [hports]
  refine ⟨fun hp => ⟨_, hc, ?_⟩, fun ho hf hlone => ⟨_, hc, ?_⟩⟩
  · obtain ⟨hlane, hother, hevent⟩ := laneLocks_lane hw fun p hq => by
      unfold Lone
      rw [hport]
      exact hp p ((howner l).symm.trans hq)
    exact ⟨⟨hlane, fun k hne => (hother k hne).trans (hk k hne)⟩, hevent⟩
  · obtain ⟨hal, hlane, hother, hevent⟩ := laneLocks_alone hw ((howner l).trans ho) (by rwa [hport]) (by unfold Lone; rwa [hport])
    exact ⟨hal, hlane _, fun k hne => (hother k hne).trans (hk k hne), hevent⟩

section
variable (hl : s.dev.life = .running)
include hl

theorem exec_laneLocked : exec (.laneLocked l) s = .next { s with dev := s.dev.laneLocks l } :=
  (onDev_eq ..).trans (by rw [live_running hl])

/-- Clock recovery locks on an input within 200 ppm (R64), and the lane goes on where that is its whole lane PCS lock (R72). -/
theorem exec_laneAcquired (hc : (s.dev.lane l).bstate = .acquire) {ppm : Int} (hppm : ppm.natAbs ≤ 200) :
    exec (.laneAcquired l ppm) s = .next { s with dev := (s.dev.updLane l (awaiting s.dev)).laneNoWait l } := by
  have hacq : s.dev.laneAcquires l ppm = (s.dev.updLane l (awaiting s.dev)).laneNoWait l := by
    unfold Dev.laneAcquires
    rw [if_pos (by simp [hc, hppm])]
    rfl
  rw [← hacq]
  exact (onDev_eq ..).trans (by rw [live_running hl])

/-- LANE_ACQUIRED of a lane whose lane PCS lock needs more leaves it in PCS_WAIT. -/
theorem laneAcquired_pcsWait (hc : (s.dev.lane l).bstate = .acquire) {ppm : Int} (hppm : ppm.natAbs ≤ 200)
    (hcdr : s.dev.cdrOnly l = false) : Answers (.laneAcquired l ppm) s fun t => LaneIs s t l (awaiting s.dev (s.dev.lane l)) := by
  have hno : (s.dev.updLane l (awaiting s.dev)).laneNoWait l = s.dev.updLane l (awaiting s.dev) :=
    if_neg (by rw [show (s.dev.updLane l (awaiting s.dev)).cdrOnly l = false from hcdr]; exact Bool.false_ne_true)
  refine ⟨_, exec_laneAcquired hl hc hppm, ?_⟩
  rw [hno]
  exact ⟨Dev.updLane_lane .., fun _ hk => Dev.updLane_lane_ne _ _ hk⟩

theorem exec_laneAcquired_cdrOnly (hc : (s.dev.lane l).bstate = .acquire) {ppm : Int} (hppm : ppm.natAbs ≤ 200)
    (hcdr : s.dev.cdrOnly l = true) :
    exec (.laneAcquired l ppm) s = .next { s with dev := (s.dev.updLane l (awaiting s.dev)).laneLocks l } := by
  have hgo : (s.dev.updLane l (awaiting s.dev)).laneNoWait l = (s.dev.updLane l (awaiting s.dev)).laneLocks l := if_pos hcdr
  rw [exec_laneAcquired hl hc hppm, hgo]

/-! ### LOCKED (R70, R74, R84) -/

/-- A lost lane of a port that is not ALIGNED acquires again, and nothing follows. -/
theorem laneLost_acquires (hc : (s.dev.lane l).bstate = .locked) (cdr : Bool)
    (hp : ∀ p, s.dev.laneOwner l = some p → (s.dev.port p).astate ≠ .aligned) : Answers (.laneLost l cdr) s fun t =>
      LaneIs s t l { acquiring s.dev (s.dev.lane l) with cdrLock := !cdr } ∧ EventSet t (aLane l 4) 1 := by
  obtain ⟨hlane, hreg⟩ := Dev.portLaneLeft_apart (d := s.dev.withLost l cdr) (l := l)
    (by simpa only [Dev.withLost_laneOwner, Dev.withLost_port] using hp)
  refine answers_onDev rfl hl ?_
  unfold EventSet
  dsimp only
  rw [Dev.laneLoses_locked _ _ _ hc, hreg]
  exact ⟨⟨(hlane l).trans (s.dev.withLost_lane l cdr), fun k hk => (hlane k).trans (s.dev.withLost_lane_ne l cdr hk)⟩,
    s.dev.withLost_event cdr l⟩

/-- With a lane of an ALIGNED port lost, the port aligns again and its lanes send no more (R68, R75). -/
theorem laneLost_stopsPort (hc : (s.dev.lane l).bstate = .locked) (cdr : Bool) {p : Nat} (hp : s.dev.laneOwner l = some p)
    (hmem : l.val ∈ s.dev.portLanes p) (ha : (s.dev.port p).astate = .aligned) : Answers (.laneLost l cdr) s fun t =>
      (t.dev.port p).astate = .aligning ∧ EventSet t (aLane l 4) 1
      ∧ t.dev.lane l = ({ acquiring s.dev (s.dev.lane l) with cdrLock := !cdr } : Lane).quiet
      ∧ ∀ k : Nat, k ≠ l → t.dev.lane k = if k ∈ s.dev.portLanes p then (s.dev.lane k).quiet else s.dev.lane k := by
  have hlost : s.dev.laneLoses l cdr = (s.dev.withLost l cdr).portLost p := by
    rw [Dev.laneLoses_locked _ _ _ hc]
    exact Dev.portLaneLeft_aligned (by rwa [Dev.withLost_laneOwner]) (by rwa [Dev.withLost_port])
  have hlanes : (s.dev.withLost l cdr).portLanes p = s.dev.portLanes p := Dev.portLanes_congr (by rw [Dev.withLost_port])
  refine answers_onDev rfl hl ?_
  unfold EventSet
  dsimp only
  rw [hlost, Dev.portLost_reg _ _ _ (aLane_belowPorts l (by decide)), Port.astate_of_unframed (Dev.portLost_port ..),
    Dev.portLost_lane, hlanes, if_pos hmem, Dev.withLost_lane]
  refine ⟨rfl, s.dev.withLost_event cdr l, rfl, fun k hk => ?_⟩
  rw [Dev.portLost_lane, hlanes, Dev.withLost_lane_ne _ _ _ hk]

end

end

theorem laneBringUpMovesAsDrawn : LaneBringUpMovesAsDrawn := by
  unfold LaneBringUpMovesAsDrawn
  intro s l hl
  refine ⟨fun hc => ⟨laneCalComplete_acquires hl hc, laneCalAbort_acquires hl hc⟩,
    fun hc => ⟨fun ppm hppm => ⟨laneAcquired_pcsWait hl hc hppm, fun hcdr => ?_⟩, acqRetry_restarts hl hc⟩,
    fun hc => ⟨locking_answers (exec_laneLocked hl) hc rfl fun _ _ => rfl, laneCdrLost_acquires hl hc⟩,
    fun hc cdr => ⟨laneLost_acquires hl hc cdr, fun p hp hmem ha => laneLost_stopsPort hl hc cdr hp hmem ha⟩⟩
  have hwait : (s.dev.updLane l (awaiting s.dev)).lane l = awaiting s.dev (s.dev.lane l) := Dev.updLane_lane ..
  have h := locking_answers (exec_laneAcquired_cdrOnly hl hc hppm hcdr) (by rw [hwait]; rfl) rfl
    fun k hk => Dev.updLane_lane_ne s.dev (awaiting s.dev) hk
  rwa [hwait] at h

/-! ### Ports (R74, R75) -/

theorem portAlignsWithinSkewLimit : PortAlignsWithinSkewLimit := by
  unfold PortAlignsWithinSkewLimit
  intro s p skew hl hf
  refine ⟨fun ha hlocked => ⟨fun hk => ?_, fun hk => ?_⟩, fun ha order => ?_⟩
  · exact answers_onDev rfl hl (Dev.portAligned_aligns hf ha hlocked hk)
  · exact answers_onDev rfl hl (Dev.portAligned_fails hf ha hlocked hk)
  · exact answers_onDev rfl hl (Dev.skewMeasured_aligned hf ha order)

/-- Settles O12: the bring-up of a lane and the alignment of a port. -/
theorem lanesAndPortsComeUp : Obligations.LanesAndPortsComeUp := ⟨laneBringUpMovesAsDrawn, portAlignsWithinSkewLimit⟩

end Sys2Proof.Claim
end

section
/-! SUPPORT. LANE_CFG and PORT_CFG (R66, R82, R83): the passage of their descriptors, what a legal one does, and what is in force
on the lane or the port afterwards. -/

namespace Sys2Proof.Machine

/-! ### Checks that hold (R12, R13) -/

theorem checked_ok {α : Type} {cs : List Check} (h : ∀ x ∈ cs, x.2 = true) (k : Except Done α) : checked cs k = k := by
  have hnone : firstBad cs = none := by
    unfold firstBad
    rw [Option.map_eq_none_iff, List.find?_eq_none]
    intro x hx
    simp [h x hx]
  unfold checked
  rw [hnone]

theorem need_ok {α : Type} {b : Bool} (h : b = true) (r : Done) (k : Except Done α) : need b r k = k := if_pos h

theorem zeros_ok {c : Desc} {lo hi : Nat} (h : ∀ i, lo ≤ i → i ≤ hi → c.u8 i = 0) : (c.zeros lo hi).2 = true := by
  have hnone : ((List.range (hi + 1 - lo)).map (fun i => lo + i)).find? (fun i => c.u8 i ≠ 0) = none := by
    rw [List.find?_eq_none]
    intro x hx
    obtain ⟨i, hi', rfl⟩ := List.mem_map.mp hx
    have := List.mem_range.mp hi'
    simp [h (lo + i) (by omega) (by omega)]
  unfold Desc.zeros
  rw [hnone]

/-! ### The descriptor's device -/

section
variable (d : Dev) (op : Nat) (c : Desc)

theorem Dev.opened_lane (k : Nat) : (d.opened op c).lane k = d.lane k :=
  Dev.lane_of_mask (Dev.opened_mask (T := [.regs, .host]) (by decide) d op c) (by decide) k

theorem Dev.opened_port (k : Nat) : (d.opened op c).port k = d.port k :=
  Dev.port_of_mask (Dev.opened_mask (T := [.regs, .host]) (by decide) d op c) (by decide) k

theorem Dev.opened_portOn (k : Nat) : (d.opened op c).portOn k = d.portOn k := by
  unfold Dev.portOn
  rw [Dev.opened_port]

theorem Dev.opened_laneOwner (l : Nat) : (d.opened op c).laneOwner l = d.laneOwner l :=
  Dev.laneOwner_congr (Dev.ports_of_mask (Dev.opened_mask (T := [.regs, .host]) (by decide) d op c) (by decide)) l

/-- What forbids a change of a port does not look at the registers or at the host interface (R180). -/
theorem Dev.portBlocked_mask (p f lanes otucN : Nat) : (d.mask [.regs, .host]).portBlocked p f lanes otucN
    = d.portBlocked p f lanes otucN := rfl

theorem Dev.opened_portBlocked (p f lanes otucN : Nat) :
    (d.opened op c).portBlocked p f lanes otucN = d.portBlocked p f lanes otucN := by
  rw [← Dev.portBlocked_mask, Dev.opened_mask (by decide), Dev.portBlocked_mask]

theorem Dev.complete_lane (jid : Nat) (r : Done) (k : Nat) : (d.complete op jid r).lane k = d.lane k :=
  Dev.lane_of_mask (Dev.complete_mask (T := [.regs, .host, .jersey]) (by decide) d op jid r) (by decide) k

theorem Dev.complete_port (jid : Nat) (r : Done) (k : Nat) : (d.complete op jid r).port k = d.port k :=
  Dev.port_of_mask (Dev.complete_mask (T := [.regs, .host, .jersey]) (by decide) d op jid r) (by decide) k

end

/-! ### LANE_CFG (R82) -/

/-- What a LANE_CFG sets in a lane (R82). -/
def Lane.settings (x : Lane) : Lane :=
  { rate := x.rate, ctrl := x.ctrl, loopback := x.loopback, txPre := x.txPre, txMain := x.txMain, txPost := x.txPost
    rxAdapt := x.rxAdapt }

theorem Lane.settings_of_quiet {x y : Lane} (h : x.quiet = y.quiet) : x.settings = y.settings := (congrArg Lane.settings h :)

theorem Lane.bstate_of_quiet {x y : Lane} (h : x.quiet = y.quiet) : x.bstate = y.bstate := (congrArg Lane.bstate h :)

/-- A lane with the settings of a LANE_CFG (R82). -/
def laneCfgSets (c : Desc) (x : Lane) : Lane :=
  { x with
    rate := c.u8 1, ctrl := BitVec.ofNat 8 (c.u8 2), loopback := c.u8 3, txPre := BitVec.ofNat 8 (c.u8 4)
    txMain := BitVec.ofNat 8 (c.u8 5), txPost := BitVec.ofNat 8 (c.u8 6), rxAdapt := BitVec.ofNat 8 (c.u8 7) }

section
variable (d : Dev) (l : Nat)

theorem Dev.portLaneLeft_quiet (k : Nat) : ((d.portLaneLeft l).lane k).quiet = (d.lane k).quiet := by
  unfold Dev.portLaneLeft
  split
  case h_1 => rfl
  case h_2 p _ =>
    split
    case h_1 =>
      rw [Dev.portLost_lane]
      split <;> rfl
    case h_2 => rfl
    case h_3 => rfl

theorem Dev.unlockLane_quiet (was : BState) (k : Nat) : ((d.unlockLane l was).lane k).quiet = (d.lane k).quiet := by
  unfold Dev.unlockLane
  split
  · exact Dev.portLaneLeft_quiet d l k
  · rfl

theorem Dev.laneOff_settings : ((d.laneOff l).lane l).settings = (d.lane l).settings := by
  unfold Dev.laneOff
  rw [Lane.settings_of_quiet (Dev.unlockLane_quiet ..), Dev.updLane_lane]
  rfl

theorem Dev.laneOff_bstate : ((d.laneOff l).lane l).bstate = .off := by
  unfold Dev.laneOff
  rw [Lane.bstate_of_quiet (Dev.unlockLane_quiet ..), Dev.updLane_lane]

theorem Dev.bringUp_settings : ((d.bringUp l).lane l).settings = (d.lane l).settings := by
  unfold Dev.bringUp
  rw [Lane.settings_of_quiet (Dev.unlockLane_quiet ..)]
  split
  · rw [Dev.updLane_lane]; rfl
  · rw [Dev.toAcquire_lane]; rfl

theorem Dev.bringUp_bstate : ((d.bringUp l).lane l).bstate = if (d.lane l).ctrl.getLsbD 3 then .cal else .acquire := by
  unfold Dev.bringUp
  rw [Lane.bstate_of_quiet (Dev.unlockLane_quiet ..)]
  split
  · rw [Dev.updLane_lane]
  · rw [Dev.toAcquire_lane]

theorem Dev.settlePort_lane (p cause k : Nat) : (d.settlePort p cause).lane k = d.lane k :=
  Dev.lane_of_mask (Dev.settlePort_mask (T := [.regs, .points, .groupCause, .host, .jersey]) (by decide) d p cause) (by decide) k

theorem Dev.settlePort_port (p cause k : Nat) : (d.settlePort p cause).port k = d.port k :=
  Dev.port_of_mask (Dev.settlePort_mask (T := [.regs, .points, .groupCause, .host, .jersey]) (by decide) d p cause) (by decide) k

end

/-- The state that a LANE_CFG calls for in a lane that was as `x`: OFF, bring-up, or none of its own (R82). -/
def Dev.laneMoved (d : Dev) (c : Desc) (l : Nat) (x : Lane) : Dev :=
  let ctrl := BitVec.ofNat 8 (c.u8 2)
  if !ctrl.getLsbD 0 || c.u8 1 = 0 then d.laneOff l
  else if x.bstate = .off || (c.u8 1 ≠ x.rate || c.u8 3 ≠ x.loopback || ctrl.getLsbD 1 != x.ctrl.getLsbD 1) then d.bringUp l
  else d

section
variable (d : Dev) (c : Desc) (l : Nat) (x : Lane)

theorem Dev.laneMoved_settings : ((d.laneMoved c l x).lane l).settings = (d.lane l).settings := by
  unfold Dev.laneMoved
  dsimp only
  split_ifs
  · exact Dev.laneOff_settings d l
  · exact Dev.bringUp_settings d l
  · rfl

variable {c l x}

theorem Dev.laneMoved_off (h : (BitVec.ofNat 8 (c.u8 2)).getLsbD 0 = false ∨ c.u8 1 = 0) :
    ((d.laneMoved c l x).lane l).bstate = .off := by
  unfold Dev.laneMoved
  dsimp only
  rw [if_pos (by simpa using h)]
  exact Dev.laneOff_bstate d l

theorem Dev.laneMoved_bringsUp (hen : (BitVec.ofNat 8 (c.u8 2)).getLsbD 0 = true) (hr : c.u8 1 ≠ 0)
    (h : x.bstate = .off ∨ c.u8 1 ≠ x.rate ∨ c.u8 3 ≠ x.loopback ∨ (BitVec.ofNat 8 (c.u8 2)).getLsbD 1 ≠ x.ctrl.getLsbD 1) :
    ((d.laneMoved c l x).lane l).bstate = if (d.lane l).ctrl.getLsbD 3 then .cal else .acquire := by
  unfold Dev.laneMoved
  dsimp only
  rw [if_neg (by simp [hen, hr]), if_pos (by simpa [or_assoc] using h)]
  exact Dev.bringUp_bstate d l

end

/-- The points of the lane's port settle where the loopback of a lane that was as `x` changes (R130). -/
def Dev.loopSettles (d : Dev) (c : Desc) (l : Nat) (x : Lane) : Dev :=
  if c.u8 3 = x.loopback then d
  else match d.laneOwner l with
    | some p => d.settlePort p 2
    | none => d

theorem Dev.loopSettles_lane (d : Dev) (c : Desc) (l : Nat) (x : Lane) (k : Nat) : (d.loopSettles c l x).lane k = d.lane k := by
  unfold Dev.loopSettles
  split
  · rfl
  · split
    · exact Dev.settlePort_lane ..
    · rfl

/-- A legal LANE_CFG sets its lane and moves it (R82). -/
theorem laneCfg_legal {c : Desc} {d : Dev} (j : Nat) (hl : c.u8 0 ≤ 63) (hrate : c.u8 1 ≤ 9 ∨ c.u8 1 ≤ 12 ∧ 48 ≤ c.u8 0)
    (hctrl : c.u8 2 ≤ 31) (hloop : c.u8 3 ≤ 2) (hmain : c.u8 5 ≤ 63) (hadapt : c.u8 7 ≤ 1)
    (hpre : -16 ≤ signed 8 (c.u8 4) ∧ signed 8 (c.u8 4) ≤ 15) (hpost : -16 ≤ signed 8 (c.u8 6) ∧ signed 8 (c.u8 6) ≤ 15)
    (hz : ∀ i, 8 ≤ i → i ≤ 55 → c.u8 i = 0)
    (htaps : (signed 8 (c.u8 4)).natAbs + c.u8 5 + (signed 8 (c.u8 6)).natAbs ≤ 63)
    (howner : c.u8 1 = (d.lane (c.u8 0)).rate ∨ d.laneOwner (c.u8 0) = none) :
    laneCfg c d j = ran (((d.updLane (c.u8 0) (laneCfgSets c)).laneMoved c (c.u8 0) (d.lane (c.u8 0))).loopSettles c (c.u8 0)
      (d.lane (c.u8 0))) := by
  unfold laneCfg
  dsimp only
  rw [checked_ok, need_ok (by simpa using htaps), need_ok (by simpa using howner)]
  · rfl
  · simp only [List.forall_mem_cons]
    exact ⟨decide_eq_true hl, by simpa using hrate, decide_eq_true hctrl, decide_eq_true hloop, by simpa using hpre,
      decide_eq_true hmain, by simpa using hpost, decide_eq_true hadapt, zeros_ok hz, List.forall_mem_nil _⟩

/-! ### PORT_CFG that disables (R83, R180) -/

section
variable {d : Dev} {p : Nat}

/-- A lane that locks changes no port that neither aligns by one lane nor stands in SKEW_FAIL. -/
theorem Dev.laneNoWait_port (h1 : ¬ ((d.port p).lanes = 1 ∧ (d.port p).astate = .aligning)) (hs : (d.port p).astate ≠ .skewFail)
    (l : Nat) : (d.laneNoWait l).port p = d.port p := by
  unfold Dev.laneNoWait
  split
  case isFalse => rfl
  case isTrue =>
    by_cases hw : (d.lane l).bstate = .pcsWait
    · obtain ⟨-, h⟩ | ⟨q, -, ⟨hq, h⟩ | h⟩ := Dev.laneLocks_cases hw
      · rw [h, Dev.withLocked_port]
      · have hne : p ≠ q := fun hpq => hs (hpq ▸ hq)
        rw [h, Dev.updPort_port_ne _ _ hne, Dev.withLocked_port]
      · rw [h]
        by_cases hpq : p = q
        · rw [← hpq, Dev.alignOne_other (by rwa [Dev.withLocked_port]), Dev.withLocked_port]
        · rw [Dev.alignOne_port_ne _ _ hpq, Dev.withLocked_port]
    · unfold Dev.laneLocks
      rw [if_neg hw]

theorem Dev.frHold_port (d : Dev) (p : Nat) (ws : List (Nat × Word)) (k : Nat) : (d.frHold p ws).port k = d.port k := rfl

theorem Dev.frHold_lane (d : Dev) (p : Nat) (ws : List (Nat × Word)) (k : Nat) : (d.frHold p ws).lane k = d.lane k := rfl

theorem Dev.emit_port (d : Dev) (o : Out) (k : Nat) : (d.emit o).port k = d.port k := rfl

theorem Dev.emit_lane (d : Dev) (o : Out) (k : Nat) : (d.emit o).lane k = d.lane k := rfl

theorem Dev.expose_port (d : Dev) (k : Nat) : d.expose.port k = d.port k :=
  Dev.port_of_mask (Dev.expose_mask (T := [.regs, .plane, .host, .jersey]) (by decide) d) (by decide) k

theorem Dev.expose_lane (d : Dev) (k : Nat) : d.expose.lane k = d.lane k :=
  Dev.lane_of_mask (Dev.expose_mask (T := [.regs, .plane, .host, .jersey]) (by decide) d) (by decide) k

/-- A disabled port is as reset leaves it, but for a freeze by an urgent word (R83, R395). -/
theorem Dev.portDisable_port (d : Dev) (p : Nat) : (d.portDisable p).port p = { frozenUrg := (d.port p).frozenUrg } := by
  unfold Dev.portDisable
  dsimp only
  rw [Dev.expose_port, Dev.refresh_port]
  refine foldl_keeps (fun e : Dev => e.port p = { frozenUrg := (d.port p).frozenUrg }) _ (fun e l he => ?_) _ _ ?_
  · rw [Dev.laneNoWait_port (by rw [he]; exact fun hn => nomatch hn.1) (by rw [he]; exact fun hn => nomatch hn), he]
  · rw [Dev.updPort_port, Dev.quietLanes_port]
    rfl

theorem portCfg_disables {c : Desc} {d : Dev} (j : Nat) (hp : c.u8 0 ≤ 63) (h5 : c.u8 5 ≤ 3)
    (hz : ∀ i, 8 ≤ i → i ≤ 55 → c.u8 i = 0) (hoff : c.u8 2 = 0 ∨ c.bit 5 0 = false) (hon : d.portOn (c.u8 0) = true)
    (hfree : d.portBlocked (c.u8 0) 0 0 0 = none) : portCfg c d j = ran (d.portDisable (c.u8 0)) := by
  unfold portCfg
  dsimp only
  rw [if_pos (by simpa using hoff), checked_ok (by simp [atMost, hp, h5, zeros_ok hz]), if_neg (by simp [hon]), hfree]

end

/-! ### PORT_CFG that enables (R66, R74, R83) -/

/-- The settings of a PORT_CFG (R83). -/
def portCfgSettings (c : Desc) : Port :=
  { lanes := c.u8 1, format := c.u8 2, otucN := c.u8 3, fec := c.u8 4, shed := c.bit 5 1, skewWarn := c.u16 6 }

/-- Port p comes up with the settings `q`: it aligns, or its one lane, LOCKED, has aligned it (R74). -/
structure Dev.ComesUp (d : Dev) (p : Nat) (q : Port) : Prop where
  settings : (d.port p).settings = q
  astate : (d.port p).astate = .aligning ∨ (d.port p).astate = .aligned ∧ (d.port p).lanes = 1 ∧ (d.lane p).bstate = .locked

namespace Dev.ComesUp

variable {d e : Dev} {p : Nat} {q : Port} (h : d.ComesUp p q)
include h

/-- A change of no field of the port but the record of its frames, and of no state of its lowest lane. -/
theorem of_unframed (hp : (e.port p).unframed = (d.port p).unframed) (hb : (e.lane p).bstate = (d.lane p).bstate) : e.ComesUp p q := by
  have hlanes : (e.port p).lanes = (d.port p).lanes := Port.lanes_of_settings (Port.settings_of_unframed hp)
  refine ⟨(Port.settings_of_unframed hp).trans h.settings, ?_⟩
  rw [Port.astate_of_unframed hp, hlanes, hb]
  exact h.astate

theorem of_port (hp : e.port p = d.port p) (hl : e.lane p = d.lane p) : e.ComesUp p q :=
  h.of_unframed (by rw [hp]) (by rw [hl])

theorem not_skewFail : (d.port p).astate ≠ .skewFail := by
  obtain ha | ⟨ha, -⟩ := h.astate
  · rw [ha]; exact nofun
  · rw [ha]; exact nofun

theorem egressRestart : (d.egressRestart p).ComesUp p q := by
  have hport : (d.egressRestart p).port p = { d.port p with egress := true } := by rw [Dev.egressRestart_port, Dev.updPort_port]
  refine ⟨by rw [hport]; exact h.settings, ?_⟩
  have hb : ((d.egressRestart p).lane p).bstate = (d.lane p).bstate := (congrArg Lane.bstate (d.egressRestart_lane p p false) :)
  rw [hport, hb]
  exact h.astate

theorem withLocked (l : Nat) : (d.withLocked l).ComesUp p q := by
  refine ⟨by rw [Dev.withLocked_port]; exact h.settings, ?_⟩
  rw [Dev.withLocked_port]
  refine h.astate.imp id fun ⟨ha, h1, hb⟩ => ⟨ha, h1, ?_⟩
  by_cases hl : p = l
  · rw [hl, Dev.withLocked_lane]
  · rwa [Dev.withLocked_lane_ne _ _ hl]

/-- Its one lane, if LOCKED, has aligned the port; otherwise the port still aligns (R74). -/
theorem alignOne_settles (hf : q.format ≠ 0) : ((d.alignOne p).port p).settings = q
    ∧ ((d.alignOne p).port p).astate = if q.lanes = 1 ∧ ((d.alignOne p).lane p).bstate = .locked then .aligned else .aligning := by
  have hlanes : (d.port p).lanes = q.lanes := (congrArg Port.lanes h.settings :)
  have hformat : (d.port p).format = q.format := (congrArg Port.format h.settings :)
  have hb : ((d.alignOne p).lane p).bstate = (d.lane p).bstate := (congrArg Lane.bstate (d.alignOne_lane p p false) :)
  refine ⟨(d.alignOne_settings p p).trans h.settings, ?_⟩
  rw [hb, ← hlanes]
  obtain ha | ⟨ha, h1, hlock⟩ := h.astate
  · split
    case isTrue hlone => exact Dev.alignOne_aligns (by rwa [hformat]) hlone.1 ha hlone.2
    case isFalse hwait => rw [Dev.alignOne_waits hwait, ha]
  · rw [if_pos ⟨h1, hlock⟩, Dev.alignOne_other (by rw [ha]; exact fun hn => nomatch hn.2), ha]

theorem alignOne (hf : q.format ≠ 0) (k : Nat) : (d.alignOne k).ComesUp p q := by
  have hb : ((d.alignOne k).lane p).bstate = (d.lane p).bstate := (congrArg Lane.bstate (d.alignOne_lane k p false) :)
  by_cases hk : p = k
  · subst hk
    obtain ⟨hset, ha⟩ := h.alignOne_settles hf
    refine ⟨hset, ?_⟩
    have hlanes : ((d.alignOne p).port p).lanes = q.lanes := (congrArg Port.lanes hset :)
    rw [ha, hlanes]
    split
    case isTrue hlone => exact .inr ⟨rfl, hlone⟩
    case isFalse => exact .inl rfl
  · exact h.of_unframed (by rw [Dev.alignOne_port_ne _ _ hk]) hb

theorem laneNoWait (hf : q.format ≠ 0) (l : Nat) : (d.laneNoWait l).ComesUp p q := by
  unfold Dev.laneNoWait
  split
  case isFalse => exact h
  case isTrue =>
    by_cases hw : (d.lane l).bstate = .pcsWait
    · obtain ⟨-, hs⟩ | ⟨k, -, ⟨hk, hs⟩ | hs⟩ := Dev.laneLocks_cases hw
      · rw [hs]; exact h.withLocked l
      · have hne : p ≠ k := fun hpk => h.not_skewFail (hpk ▸ hk)
        rw [hs]
        exact (h.withLocked l).of_port (Dev.updPort_port_ne _ _ hne) rfl
      · rw [hs]; exact (h.withLocked l).alignOne hf k
    · unfold Dev.laneLocks
      rwa [if_neg hw]

end Dev.ComesUp

/-- A port that a PORT_CFG enables or changes is ALIGNED where its one lane is LOCKED, and aligns otherwise (R74, R83). -/
theorem Dev.portApply_comesUp {d : Dev} {c : Desc} {p : Nat} (hf : c.u8 2 ≠ 0) :
    ((d.portApply c p).port p).settings = portCfgSettings c
    ∧ ((d.portApply c p).port p).astate
      = if c.u8 1 = 1 ∧ ((d.portApply c p).lane p).bstate = .locked then .aligned else .aligning := by
  have hlocks : ∀ (ls : List Nat) (e : Dev), e.ComesUp p (portCfgSettings c) →
      (ls.foldl Dev.laneNoWait e).ComesUp p (portCfgSettings c) := fun ls e he =>
    foldl_keeps (fun e : Dev => e.ComesUp p (portCfgSettings c)) _ (fun e l h => h.laneNoWait hf l) ls e he
  have hframers : ∀ (ks : List Nat) (e : Dev) (f : Dev → Nat → Framer → Framer), e.ComesUp p (portCfgSettings c) →
      (ks.foldl (fun d k => d.updFramer k (f d k)) e).ComesUp p (portCfgSettings c) := fun ks e f he =>
    have hmask := Dev.mask_foldl (T := [.framers]) (fun d k => Dev.updFramer_mask (by decide) d k (f d k)) ks e
    he.of_port (Dev.port_of_mask hmask (by decide) p) (Dev.lane_of_mask hmask (by decide) p)
  unfold Dev.portApply
  dsimp only
  rw [Dev.expose_port, Dev.expose_lane]
  refine Dev.ComesUp.alignOne_settles (q := portCfgSettings c) ?_ hf
  refine Dev.ComesUp.of_port ?_ (Dev.settlePort_port ..) (Dev.settlePort_lane ..)
  refine Dev.ComesUp.of_unframed ?_ (Dev.frTouch_unframed ..) (congrArg Lane.bstate (Dev.frTouch_lane ..))
  refine Dev.ComesUp.egressRestart ?_
  refine Dev.ComesUp.of_port ?_ (Dev.frHold_port ..) (Dev.frHold_lane ..)
  have hset : ∀ (e : Dev) (f : Port → Port), (∀ q, (f q).settings = portCfgSettings c ∧ (f q).astate = .aligning) →
      (e.updPort p f).ComesUp p (portCfgSettings c) := fun e f hq =>
    ⟨by rw [Dev.updPort_port]; exact (hq _).1, .inl (by rw [Dev.updPort_port]; exact (hq _).2)⟩
  split
  · refine Dev.ComesUp.of_port ?_ (Dev.emit_port ..) (Dev.emit_lane ..)
    exact hlocks _ _ (hframers _ _ _ (hset _ _ fun _ => ⟨rfl, rfl⟩))
  · exact hlocks _ _ (hframers _ _ _ (hset _ _ fun _ => ⟨rfl, rfl⟩))

/-- A legal PORT_CFG of a disabled port on lanes of no port applies its settings (R66, R68, R83). -/
theorem portCfg_enables {c : Desc} {d : Dev} (j : Nat) (hp : c.u8 0 ≤ 63) (h5 : c.u8 5 ≤ 3)
    (hz : ∀ i, 8 ≤ i → i ≤ 55 → c.u8 i = 0) (hen : c.bit 5 0 = true) (hf : c.u8 2 ≠ 0) (hoff : d.portOn (c.u8 0) = false)
    (hlanes : c.u8 1 ∈ [1, 2, 4, 8]) (hkind : formatKind (c.u8 2) ≠ 0)
    (hotuc : if c.u8 2 = 1 then 1 ≤ c.u8 3 ∧ c.u8 3 ≤ 16 else c.u8 3 = 0) (hfec : c.u8 4 ≤ 3) (hlo : 16 ≤ c.u16 6)
    (hhi : c.u16 6 ≤ 512) (hmod : c.u8 0 % c.u8 1 = 0)
    (hfree : ∀ i, i < c.u8 1 → (d.lane (c.u8 0 + i)).rate = (d.lane (c.u8 0)).rate ∧ d.laneOwner (c.u8 0 + i) = none)
    (hok : formatOk (c.u8 2) (c.u8 1) (d.lane (c.u8 0)).rate (c.u8 4) = true)
    (hn : c.u8 2 ≠ 1 ∨ c.u8 3 ≤ if (d.lane (c.u8 0)).rate = 1 then 2 * c.u8 1 else c.u8 1)
    (hblock : d.portBlocked (c.u8 0) (c.u8 2) (c.u8 1) (c.u8 3) = none) :
    portCfg c d j = ran (d.portApply c (c.u8 0)) := by
  have hrates : ((List.range (c.u8 1)).map (fun i => c.u8 0 + i)).all (fun l => (d.lane l).rate = (d.lane (c.u8 0)).rate) = true := by
    simpa using fun i hi => (hfree i hi).1
  unfold portCfg
  dsimp only
  rw [if_neg (by simp [hen, hf]), checked_ok, need_ok (by simpa using hmod), need_ok, need_ok, hblock]
  · dsimp only
    rw [if_neg (by simp [hoff])]
  · rw [Option.isNone_iff_eq_none, List.find?_eq_none]
    intro l hl
    obtain ⟨i, hi, rfl⟩ := List.mem_map.mp hl
    rw [(hfree i (List.mem_range.mp hi)).2]
    exact Bool.false_ne_true
  · rw [hrates, hok]
    simpa using hn
  · have hslices : (if c.u8 2 = 1 then decide (1 ≤ c.u8 3) && decide (c.u8 3 ≤ 16) else decide (c.u8 3 = 0)) = true := by
      split
      case isTrue h1 => simpa [h1] using hotuc
      case isFalse h1 => simpa [h1] using hotuc
    have hwarn : (within 6 (c.u16 6) 16 512).2 = true := by simp [within, hlo, hhi]
    simp only [List.forall_mem_cons]
    exact ⟨decide_eq_true hp, decide_eq_true hlanes, decide_eq_true hkind, hslices, decide_eq_true hfec, decide_eq_true h5,
      hwarn, zeros_ok hz, List.forall_mem_nil _⟩

end Sys2Proof.Machine
end

section
/-! PROOF of O13: a legal LANE_CFG or PORT_CFG is in force on its lane or port (R66, R74, R82, R83). -/

namespace Sys2Proof.Claim

open Machine

/-- A descriptor that is served under its own rule, which completes it, leaves the device of that rule but for the completion. -/
theorem answers_hostRow {i : Instr} {op : Nat} {c : Desc} {run : Desc → Dev → Nat → Ran} {s : State} {d : Dev} {r : Done}
    {P : State → Prop} (hi : exec i s = hostRow op c run s) (hs : Served op c s.dev)
    (hr : run c (s.dev.opened op c) s.dev.host.nextJob = .ok (d, some r))
    (hP : P { s with dev := d.complete op s.dev.host.nextJob r }) : Answers i s P := by
  obtain ⟨hwf, hl, hh, hq⟩ := hs
  refine ⟨_, hi.trans ?_, hP⟩
  unfold hostRow
  rw [if_pos hwf, onDev_eq, Dev.command_ran hl hh hq hr]
  rfl

theorem laneCfgSetsItsLane : LaneCfgSetsItsLane := by
  unfold LaneCfgSetsItsLane
  intro s c hs
  dsimp only
  intro hl hrate hctrl hloop hmain hadapt hpre hpre' hpost hpost' hz htaps howner
  refine answers_hostRow rfl hs (laneCfg_legal _ hl hrate hctrl hloop hmain hadapt ⟨hpre, hpre'⟩ ⟨hpost, hpost'⟩ hz htaps
    (by rwa [Dev.opened_lane, Dev.opened_laneOwner])) ?_
  have hset : (((s.dev.opened 0x10 c).updLane (c.u8 0) (laneCfgSets c)).lane (c.u8 0)) = laneCfgSets c (s.dev.lane (c.u8 0)) := by
    rw [Dev.updLane_lane, Dev.opened_lane]
  dsimp only
  rw [Dev.complete_lane, Dev.loopSettles_lane, Dev.opened_lane]
  have hsettings := Dev.laneMoved_settings ((s.dev.opened 0x10 c).updLane (c.u8 0) (laneCfgSets c)) c (c.u8 0) (s.dev.lane (c.u8 0))
  rw [hset] at hsettings
  refine ⟨(congrArg Lane.rate hsettings :), (congrArg Lane.ctrl hsettings :), (congrArg Lane.loopback hsettings :),
    (congrArg Lane.txPre hsettings :), (congrArg Lane.txMain hsettings :), (congrArg Lane.txPost hsettings :),
    (congrArg Lane.rxAdapt hsettings :), Dev.laneMoved_off _, fun hen hr hmoved => ?_⟩
  rw [Dev.laneMoved_bringsUp _ hen hr hmoved, hset]
  rfl

theorem portCfgEnablesAndDisables : PortCfgEnablesAndDisables := by
  unfold PortCfgEnablesAndDisables
  intro s c hs
  dsimp only
  intro hp h5 hz
  refine ⟨fun hen hf hoff hlanes hkind hotuc hfec hlo hhi hmod hfree hok hn hblock => ?_, fun hoff hon hblock => ?_⟩
  · refine answers_hostRow rfl hs (portCfg_enables _ hp h5 hz hen hf (by rwa [Dev.opened_portOn]) hlanes hkind hotuc hfec hlo hhi hmod
      (by simpa only [Dev.opened_lane, Dev.opened_laneOwner] using hfree) (by rwa [Dev.opened_lane]) (by rwa [Dev.opened_lane])
      (by rwa [Dev.opened_portBlocked])) ?_
    obtain ⟨hset, ha⟩ := Dev.portApply_comesUp (d := s.dev.opened 0x11 c) (p := c.u8 0) hf
    generalize (s.dev.opened 0x11 c).portApply c (c.u8 0) = e at hset ha ⊢
    dsimp only
    rw [Dev.complete_port, Dev.complete_lane]
    exact ⟨(congrArg Port.lanes hset :), (congrArg Port.format hset :), (congrArg Port.otucN hset :), (congrArg Port.fec hset :),
      (congrArg Port.shed hset :), (congrArg Port.skewWarn hset :), ha⟩
  · refine answers_hostRow rfl hs (portCfg_disables _ hp h5 hz hoff (by rwa [Dev.opened_portOn])
      (by rwa [Dev.opened_portBlocked])) ?_
    dsimp only
    rw [Dev.complete_port, Dev.portDisable_port, Dev.opened_port]

/-- Settles O13: LANE_CFG and PORT_CFG. -/
theorem laneAndPortSettingsTakeEffect : Obligations.LaneAndPortSettingsTakeEffect :=
  ⟨laneCfgSetsItsLane, portCfgEnablesAndDisables⟩

end Sys2Proof.Claim
end

section
/-! SUPPORT. The framers of ports and of E1s (R89–R104) as rules of their operations: which framers an operation writes and what it
leaves in them. -/

namespace Sys2Proof.Machine

/-! ### Port framers: what reports and conditions leave alone -/

section
variable (d : Dev) (p k : Nat)

@[simp] theorem Dev.frTouch_framer : (d.frTouch p).framer k = d.framer k :=
  Dev.framer_of_mask (Dev.frTouch_mask (T := [.regs, .ports, .points, .host, .jersey]) (by decide) d p) (by decide) k

@[simp] theorem Dev.frRaise_framer (bits : List Nat) (more : List Byte) : (d.frRaise p bits more).framer k = d.framer k :=
  Dev.framer_of_mask (Dev.frRaise_mask (T := [.regs, .host, .jersey]) (by decide) d p bits more) (by decide) k

@[simp] theorem Dev.frCount_framer (off : Nat) : (d.frCount p off).framer k = d.framer k :=
  Dev.framer_of_mask (Dev.frCount_mask (T := [.regs]) (by decide) d p off) (by decide) k

@[simp] theorem Dev.dropOmfi_framer : (d.dropOmfi p).framer k = d.framer k :=
  Dev.framer_of_mask (Dev.dropOmfi_mask (T := [.regs, .odus, .host, .jersey]) (by decide) d p) (by decide) k

@[simp] theorem Dev.dropH4_framer (v : Nat) : (d.dropH4 v).framer k = d.framer k :=
  Dev.framer_of_mask (Dev.dropH4_mask (T := [.regs, .vc4s, .host, .jersey]) (by decide) d v) (by decide) k

theorem Dev.frCount_eq (off : Nat) (h : d.frRuns p = true) : d.frCount p off = d.count32 (aPort p off) := if_pos h

end

theorem Dev.updFramer_reg (d : Dev) (k : Nat) (f : Framer → Framer) (a : Nat) : (d.updFramer k f).reg a = d.reg a := rfl

/-- Two changes that write the same into a framer are the same. -/
theorem Dev.updFramer_congr {d : Dev} {k : Nat} {f g : Framer → Framer} (h : f (d.framer k) = g (d.framer k)) :
    d.updFramer k f = d.updFramer k g :=
  congrArg (fun x => { d with framers := tput {} d.framers k x }) h

/-! ### Out of frame (R95, R96) -/

/-- A framer in OOF that searches from stream position `n` on. -/
def Framer.SearchesFrom (f : Framer) (n : Nat) : Prop := f.inFrame = false ∧ f.scanFrom = n

section
variable {d : Dev} {k n : Nat}

theorem Dev.updFramer_searches {j : Nat} {f : Framer → Framer} (hf : ∀ x, x.SearchesFrom n → (f x).SearchesFrom n)
    (h : (d.framer k).SearchesFrom n) : ((d.updFramer j f).framer k).SearchesFrom n := by
  by_cases hk : k = j
  · rw [← hk, Dev.updFramer_framer]; exact hf _ h
  · rwa [Dev.updFramer_framer_ne _ _ hk]

/-- A framer out of frame, with its candidates discarded and its search from stream position `n` on (R95, R551). -/
def Framer.putOut (cause n : Nat) (stop : Bool) (f : Framer) : Framer :=
  { f with inFrame := false, err := 0, cands := [], scanFrom := n, stopped := f.stopped && cause = 1 || stop }

theorem Dev.oofOne_framer (d : Dev) (j cause n : Nat) (stop : Bool) (k : Nat) :
    (d.oofOne j cause n stop).framer k = (d.updFramer j (Framer.putOut cause n stop)).framer k := by
  unfold Dev.oofOne
  dsimp only
  split_ifs
  · exact (Dev.frRaise_framer ..).trans ((Dev.frCount_framer ..).trans (Dev.frCount_framer ..))
  · exact (Dev.frRaise_framer ..).trans (Dev.frCount_framer ..)
  · rfl

theorem Dev.oofOne_searches (d : Dev) (k cause n : Nat) (stop : Bool) : ((d.oofOne k cause n stop).framer k).SearchesFrom n := by
  rw [Dev.oofOne_framer, Dev.updFramer_framer]
  exact ⟨rfl, rfl⟩

theorem Dev.oofOne_framer_ne {j : Nat} (h : k ≠ j) (cause n : Nat) (stop : Bool) :
    (d.oofOne j cause n stop).framer k = d.framer k := by
  rw [Dev.oofOne_framer, Dev.updFramer_framer_ne _ _ h]

theorem Dev.dropFlexo_searches (p : Nat) (ins : List Nat) (h : (d.framer k).SearchesFrom n) :
    ((d.dropFlexo p ins).framer k).SearchesFrom n := by
  unfold Dev.dropFlexo
  dsimp only
  split
  · exact h
  · refine foldl_keeps (fun e : Dev => (e.framer k).SearchesFrom n) _ (fun e i he => ?_) _ _ (by rw [Dev.frRaise_framer]; exact h)
    split
    · rename_i hin
      have hne : k ≠ 16 * p + i := fun hk => Bool.false_ne_true (he.1.symm.trans (hk ▸ hin))
      rwa [Dev.oofOne_framer_ne hne]
    · exact Dev.updFramer_searches (by exact fun _ hx => hx) he

theorem Dev.dropMf_searches (p : Nat) (h : (d.framer k).SearchesFrom n) : ((d.dropMf p).framer k).SearchesFrom n := by
  unfold Dev.dropMf
  dsimp only
  refine foldl_keeps (fun e : Dev => (e.framer k).SearchesFrom n) _ (fun e v he => by rwa [Dev.dropH4_framer]) _ _ ?_
  rw [Dev.dropOmfi_framer]
  refine foldl_keeps (fun e : Dev => (e.framer k).SearchesFrom n) _
    (fun e j he => Dev.updFramer_searches (by exact fun _ hx => hx) he) _ _ ?_
  split
  · exact Dev.dropFlexo_searches p _ h
  · exact h

/-- Every framer that leaves IF searches from the position given. -/
theorem Dev.oof_searches (d : Dev) (p : Nat) {ks : List Nat} (hk : k ∈ ks) (cause n : Nat) (stop : Bool) :
    ((d.oof p ks cause n stop).framer k).SearchesFrom n := by
  have hstep : ∀ (e : Dev) (j : Nat), (e.framer k).SearchesFrom n → ((e.oofOne j cause n stop).framer k).SearchesFrom n := by
    intro e j he
    by_cases hkj : k = j
    · exact hkj ▸ Dev.oofOne_searches e k cause n stop
    · rwa [Dev.oofOne_framer_ne hkj]
  have hfold : ((ks.foldl (fun d k => d.oofOne k cause n stop) d).framer k).SearchesFrom n := by
    obtain ⟨before, after, rfl⟩ := List.append_of_mem hk
    rw [List.foldl_append, List.foldl_cons]
    exact foldl_keeps _ _ hstep after _ (Dev.oofOne_searches _ k cause n stop)
  unfold Dev.oof
  dsimp only
  split
  · exact Dev.dropMf_searches p hfold
  · exact hfold

end

/-! ### Checks of one candidate (R92, R93) -/

/-- Whether the bits at the next check of a candidate of a framer of `last` checks are those that the check asks for. -/
def Cand.passes (last : Nat) (c : Cand) (bits : List Bool) : Bool :=
  if last = 1 then fasAt bits c.phase else if c.passed = 0 then bits.head? = some true else decide (bits.take 7 = e1FasBits)

theorem judged_one (last : Nat) (c : Cand) (bits : List Bool) : judged last [c] [(c.pos, bits)] = [(c.pos, c.passes last bits)] := by
  unfold judged
  simp only [List.filterMap_cons, List.find?_cons_of_pos, decide_true, Option.map_some, List.filterMap_nil]
  rfl

section
variable {unit last scan : Nat} {c : Cand} {bits : List Bool}

theorem judge_fails (h : c.passes last bits = false) : judge unit last [c] scan (judged last [c] [(c.pos, bits)])
    = (none, [], max scan (c.pos + unit * (c.passed + 1) + 1)) := by
  rw [judged_one, h]
  simp [judge]

theorem judge_goesOn (h : c.passes last bits = true) (hl : c.passed + 1 ≠ last) :
    judge unit last [c] scan (judged last [c] [(c.pos, bits)]) = (none, [{ c with passed := c.passed + 1 }], scan) := by
  rw [judged_one, h]
  simp [judge, hl]

theorem judge_wins (h : c.passes last bits = true) (hl : c.passed + 1 = last) :
    judge unit last [c] scan (judged last [c] [(c.pos, bits)]) = (some c.pos, [{ c with passed := c.passed + 1 }], scan) := by
  rw [judged_one, h]
  simp [judge, hl]

end

/-! ### The search of a port framer (R90–R94) -/

/-- Framer `k` of a port searches: it is there and in OOF, it is not stopped, and its FlexO aligner, where it has one, is
locked (R99). -/
def Dev.Searching (d : Dev) (k : Nat) : Prop :=
  d.framerAt k = true ∧ (d.framer k).inFrame = false ∧ (d.framer k).stopped = false ∧ d.flexoOk k = true

section
variable {d : Dev} {p : Fin 64} {sl : Fin 16} (h : d.Searching (16 * p.val + sl.val))
include h

section
variable {pos : Nat} {bits : List Bool} (hpos : (d.framer (16 * p.val + sl.val)).scanFrom ≤ pos)
  (hroom : (d.framer (16 * p.val + sl.val)).cands.length < 2)
include hpos hroom

theorem scanMatch_opens {ph : Nat} (hph : d.matchPhase p.val bits = some ph)
    (hfree : ¬ ∃ c ∈ (d.framer (16 * p.val + sl.val)).cands, c.pos % d.frameLen p.val = pos % d.frameLen p.val) :
    scanMatch (.port p sl) pos bits d = d.updFramer (16 * p.val + sl.val) (fun x => { x with
      scanFrom := pos + 1, cands := x.cands ++ [{ pos := pos, phase := ph }] }) := by
  obtain ⟨hat, hout, hrun, hflexo⟩ := h
  unfold scanMatch
  dsimp only
  rw [if_pos (by simp [hat, hout, hrun, hflexo, hpos, hroom]), hph]
  refine Dev.updFramer_congr ?_
  simp only [List.any_eq_true, decide_eq_true_eq, if_neg hfree]

theorem scanMatch_passes (hno : d.matchPhase p.val bits = none
      ∨ ∃ c ∈ (d.framer (16 * p.val + sl.val)).cands, c.pos % d.frameLen p.val = pos % d.frameLen p.val) :
    scanMatch (.port p sl) pos bits d = d.updFramer (16 * p.val + sl.val) (fun x => { x with scanFrom := pos + 1 }) := by
  obtain ⟨hat, hout, hrun, hflexo⟩ := h
  unfold scanMatch
  dsimp only
  rw [if_pos (by simp [hat, hout, hrun, hflexo, hpos, hroom])]
  refine Dev.updFramer_congr ?_
  cases hm : d.matchPhase p.val bits with
  | none => rfl
  | some ph =>
    have hcovered := hno.resolve_left (by rw [hm]; exact Option.some_ne_none ph)
    simp only [List.any_eq_true, decide_eq_true_eq, if_pos hcovered]

end

variable {seen : List (Nat × List Bool)} {left : List Cand} {n : Nat}

theorem candidateCheck_enters {q : Nat} (hj : judge (d.frameLen p.val) 1 (d.framer (16 * p.val + sl.val)).cands
      (d.framer (16 * p.val + sl.val)).scanFrom (judged 1 (d.framer (16 * p.val + sl.val)).cands seen) = (some q, left, n)) :
    candidateCheck (.port p sl) seen d = d.frIn (16 * p.val + sl.val)
      ((((d.framer (16 * p.val + sl.val)).cands.find? (fun c => c.pos = q)).map Cand.phase).getD 0) := by
  obtain ⟨hat, hout, hrun, hflexo⟩ := h
  unfold candidateCheck
  dsimp only
  rw [if_pos (by simp [hat, hout, hrun, hflexo]), hj]

theorem candidateCheck_searches (hj : judge (d.frameLen p.val) 1 (d.framer (16 * p.val + sl.val)).cands
      (d.framer (16 * p.val + sl.val)).scanFrom (judged 1 (d.framer (16 * p.val + sl.val)).cands seen) = (none, left, n)) :
    candidateCheck (.port p sl) seen d = d.updFramer (16 * p.val + sl.val) (fun x => { x with cands := left, scanFrom := n }) := by
  obtain ⟨hat, hout, hrun, hflexo⟩ := h
  unfold candidateCheck
  dsimp only
  rw [if_pos (by simp [hat, hout, hrun, hflexo]), hj]

end

theorem Dev.frIn_framer (d : Dev) (k phase : Nat) : (d.frIn k phase).framer k
    = { d.framer k with inFrame := true, phase := phase, err := 0, cands := [], mf := {}, skewRun := 0 } := by
  unfold Dev.frIn
  rw [Dev.frTouch_framer, Dev.frRaise_framer, Dev.updFramer_framer]

/-! ### Frames of a port in frame (R95) -/

section
variable {d : Dev} {k : Nat} {bits : List Bool} (hat : d.framerAt k = true) (hin : (d.framer k).inFrame = true)
include hat hin

theorem fasPosition_good (h : fasAt bits (d.framer k).phase = true) (pos : Nat) :
    fasPosition k bits pos d = d.updFramer k (fun f => { f with err := 0 }) := by
  unfold fasPosition
  dsimp only
  rw [if_neg (by simp [hat, hin]), if_pos h]

theorem fasPosition_bad (h : fasAt bits (d.framer k).phase = false) (pos : Nat) : fasPosition k bits pos d =
    if (d.framer k).err + 1 < nOof (d.port (k / 16)).format then
      (d.frCount (k / 16) 0x1C).updFramer k (fun f => { f with err := f.err + 1 })
    else ((d.frCount (k / 16) 0x1C).oof (k / 16) [k] 0 (pos + 1) false).frTouch (k / 16) := by
  have hport : (d.frCount (k / 16) 0x1C).port (k / 16) = d.port (k / 16) :=
    Dev.port_of_mask (Dev.frCount_mask (T := [.regs]) (by decide) d _ _) (by decide) _
  unfold fasPosition
  dsimp only
  rw [if_neg (by simp [hat, hin]), if_neg (by simp [h]), hport]

end

end Sys2Proof.Machine
end

section
/-! PROOF of O16, first half: the framers of ports (R88–R95, R99). -/

namespace Sys2Proof.Claim

open Machine

/-- What a command answers that acts on a running device alone. -/
theorem gives_onDev {c : Instr} {s : State} {f : Dev → Dev} {d : Dev} (hc : exec c s = onDev (live f) s)
    (hl : s.dev.life = .running) (h : f s.dev = d) : Gives c s d :=
  hc.trans (by rw [onDev_eq, live_running hl, h])

section
variable {s : State} {p : Fin 64} {sl : Fin 16} (hl : s.dev.life = .running)
include hl

/-- The scanner tests a position: a match that no candidate covers opens a candidate (R90, R91). -/
theorem searchingFramer_scans (h : s.dev.Searching (16 * p.val + sl.val)) {pos : Nat} {bits : List Bool}
    (hpos : (s.dev.framer (16 * p.val + sl.val)).scanFrom ≤ pos) (hroom : (s.dev.framer (16 * p.val + sl.val)).cands.length < 2) :
    (∀ ph, s.dev.matchPhase p bits = some ph →
      ¬ (∃ c ∈ (s.dev.framer (16 * p.val + sl.val)).cands, c.pos % s.dev.frameLen p = pos % s.dev.frameLen p) →
      Gives (.scanMatch (.port p sl) ⟨pos, bits⟩) s (s.dev.updFramer (16 * p.val + sl.val) fun _ =>
        { s.dev.framer (16 * p.val + sl.val) with
          scanFrom := pos + 1, cands := (s.dev.framer (16 * p.val + sl.val)).cands ++ [{ pos := pos, phase := ph }] }))
    ∧ (s.dev.matchPhase p bits = none
        ∨ (∃ c ∈ (s.dev.framer (16 * p.val + sl.val)).cands, c.pos % s.dev.frameLen p = pos % s.dev.frameLen p) →
      Gives (.scanMatch (.port p sl) ⟨pos, bits⟩) s (s.dev.updFramer (16 * p.val + sl.val) fun _ =>
        { s.dev.framer (16 * p.val + sl.val) with scanFrom := pos + 1 })) := by
  refine ⟨fun ph hph hfree => gives_onDev rfl hl ?_, fun hno => gives_onDev rfl hl ?_⟩
  · exact (scanMatch_opens h hpos hroom hph hfree).trans (Dev.updFramer_congr rfl)
  · exact (scanMatch_passes h hpos hroom hno).trans (Dev.updFramer_congr rfl)

/-- The check of a framer's one candidate: it enters IF, or drops the candidate (R92, R93). -/
theorem searchingFramer_checks (h : s.dev.Searching (16 * p.val + sl.val)) {pos ph : Nat} {bits : List Bool}
    (hc : (s.dev.framer (16 * p.val + sl.val)).cands = [{ pos := pos, phase := ph }]) :
    (fasAt bits ph = true → Answers (.candidateCheck (.port p sl) [(pos, bits)]) s fun t =>
      (t.dev.framer (16 * p.val + sl.val)).inFrame = true ∧ (t.dev.framer (16 * p.val + sl.val)).phase = ph
      ∧ (t.dev.framer (16 * p.val + sl.val)).err = 0 ∧ (t.dev.framer (16 * p.val + sl.val)).cands = [])
    ∧ (fasAt bits ph = false → Gives (.candidateCheck (.port p sl) [(pos, bits)]) s
      (s.dev.updFramer (16 * p.val + sl.val) fun _ => { s.dev.framer (16 * p.val + sl.val) with
        cands := [], scanFrom := max (s.dev.framer (16 * p.val + sl.val)).scanFrom (pos + s.dev.frameLen p + 1) })) := by
  refine ⟨fun hok => answers_onDev rfl hl ?_, fun hbad => gives_onDev rfl hl ?_⟩
  · dsimp only
    rw [candidateCheck_enters h (by rw [hc]; exact judge_wins (c := { pos := pos, phase := ph }) hok rfl), Dev.frIn_framer, hc]
    exact ⟨rfl, by simp, rfl, rfl⟩
  · rw [candidateCheck_searches h (by rw [hc]; exact judge_fails (c := { pos := pos, phase := ph }) hbad)]
    exact Dev.updFramer_congr (by simp only [Nat.zero_add, Nat.mul_one])

/-- A FAS position of a framer in IF (R95). -/
theorem framerInFrame_counts (hat : s.dev.framerAt (16 * p.val + sl.val) = true)
    (hin : (s.dev.framer (16 * p.val + sl.val)).inFrame = true) (pos : Nat) {bits : List Bool}
    (hbad : fasAt bits (s.dev.framer (16 * p.val + sl.val)).phase = false) :
    ((s.dev.framer (16 * p.val + sl.val)).err + 1 < nOof (s.dev.port p).format → Answers (.fasPosition p sl bits pos) s fun t =>
      (t.dev.framer (16 * p.val + sl.val)).err = (s.dev.framer (16 * p.val + sl.val)).err + 1
      ∧ (t.dev.framer (16 * p.val + sl.val)).inFrame = true
      ∧ (s.dev.frRuns p = true → t.dev.reg (aPort p 0x1C) = countUp (s.dev.reg (aPort p 0x1C)) 0 32 1))
    ∧ (nOof (s.dev.port p).format ≤ (s.dev.framer (16 * p.val + sl.val)).err + 1 → Answers (.fasPosition p sl bits pos) s fun t =>
      (t.dev.framer (16 * p.val + sl.val)).inFrame = false ∧ (t.dev.framer (16 * p.val + sl.val)).scanFrom = pos + 1) := by
  have hk : (16 * p.val + sl.val) / 16 = p.val := by omega
  have hbad := fasPosition_bad hat hin hbad pos
  rw [hk] at hbad
  refine ⟨fun hfew => answers_onDev rfl hl ?_, fun hmany => answers_onDev rfl hl ?_⟩
  · dsimp only
    rw [hbad, if_pos hfew, Dev.updFramer_framer, Dev.frCount_framer, Dev.updFramer_reg]
    refine ⟨rfl, hin, fun hruns => ?_⟩
    rw [Dev.frCount_eq _ _ _ hruns, Dev.count32_reg]
  · dsimp only
    rw [hbad, if_neg (by omega), Dev.frTouch_framer]
    exact Dev.oof_searches _ _ (List.mem_singleton.mpr rfl) ..

/-- A SLIP mark puts every framer of its port out of frame (R95). -/
theorem slipMark_searches (pos : Nat) : Answers (.slipMark p pos) s fun t => ∀ j ∈ s.dev.framersOf p,
    (t.dev.framer j).inFrame = false ∧ (t.dev.framer j).scanFrom = pos := by
  refine answers_onDev rfl hl fun j hj => ?_
  dsimp only
  unfold slipMarked
  rw [Dev.frTouch_framer]
  exact Dev.oof_searches _ _ hj ..

end

theorem portFramersSearchAndHold : PortFramersSearchAndHold := by
  unfold PortFramersSearchAndHold
  intro s p sl hl
  dsimp only
  refine ⟨fun pos bits hat hout hrun hflexo => searchingFramer_scans hl ⟨hat, hout, hrun, hflexo⟩,
    fun pos ph bits hat hout hrun hflexo => searchingFramer_checks hl ⟨hat, hout, hrun, hflexo⟩,
    fun hat hin pos bits => ⟨fun hok => gives_onDev rfl hl (fasPosition_good hat hin hok pos),
      fun hbad => (framerInFrame_counts hl hat hin pos hbad).1, fun hbad => (framerInFrame_counts hl hat hin pos hbad).2⟩,
    slipMark_searches hl⟩

end Sys2Proof.Claim
end

section
/-! SUPPORT. The E1 framers (R102–R104) as rules of their operations. -/

namespace Sys2Proof.Machine

/-- An E1 framer without the record of its posted events (R105). -/
def E1.unposted (x : E1) : E1 := { x with posted := [] }

section
variable (d : Dev) (e : Nat)

@[simp] theorem Dev.refresh_e1 : d.refresh.e1 e = d.e1 e :=
  Dev.e1_of_mask (Dev.refresh_mask (T := [.regs, .points, .host, .jersey]) (by decide) d) (by decide) e

theorem Dev.e1Post_unposted (code : Nat) : ((d.e1Post e code).e1 e).unposted = (d.e1 e).unposted := by
  unfold Dev.e1Post
  split
  · rw [Dev.e1_of_mask (Dev.post_mask (T := [.regs, .host, .jersey]) (by decide) ..) (by decide), Dev.updE1_e1]
    rfl
  · rfl

theorem Dev.e1Oof_st (from_ : Nat) (restart : Bool) : ((d.e1Oof e from_ restart).e1 e).st = .oof := by
  unfold Dev.e1Oof
  rw [Dev.refresh_e1, Dev.updE1_e1]

theorem Dev.e1Oof_mfRestarts (from_ : Nat) (restart : Bool) :
    ((d.e1Oof e from_ restart).e1 e).mfRestarts = (d.e1 e).mfRestarts := by
  unfold Dev.e1Oof
  rw [Dev.refresh_e1, Dev.updE1_e1]

theorem Dev.e1Post_st (code : Nat) : ((d.e1Post e code).e1 e).st = (d.e1 e).st :=
  (congrArg E1.st (d.e1Post_unposted e code) :)

theorem Dev.e1In_st (pos : Nat) : ((d.e1In e pos).e1 e).st = .ifBasic := by
  unfold Dev.e1In
  dsimp only
  rw [Dev.refresh_e1, Dev.e1Post_st, Dev.updE1_e1]

end

section
variable {d : Dev} {e : Fin 8064}

/-- The scanner of an E1 opens a candidate at a FAS that no candidate covers and that is not abandoned (R91, R104). -/
theorem scanMatch_e1 (hst : (d.e1 e).st = .oof) {pos : Nat} {bits : List Bool} (hpos : (d.e1 e).scanFrom ≤ pos)
    (hroom : (d.e1 e).cands.length < 4) (hfree : ∀ c ∈ (d.e1 e).cands, c.pos % 512 ≠ pos % 512) (hban : (d.e1 e).ban = none)
    (hfas : bits.take 7 = e1FasBits) : ((scanMatch (.e1 e) pos bits d).e1 e).cands = (d.e1 e).cands ++ [{ pos := pos }] := by
  have hno : ((d.e1 e).cands.any fun c => c.pos % 512 = pos % 512) = false := by simpa using hfree
  unfold scanMatch
  dsimp only
  rw [if_pos (by simp [hst, hpos, hroom]), Dev.updE1_e1, hban]
  simp [hfas, hno]

variable {seen : List (Nat × List Bool)} {left : List Cand} {n : Nat} (hst : (d.e1 e).st = .oof)
include hst

theorem candidateCheck_e1_enters {q : Nat}
    (hj : judge 256 2 (d.e1 e).cands (d.e1 e).scanFrom (judged 2 (d.e1 e).cands seen) = (some q, left, n)) :
    candidateCheck (.e1 e) seen d = d.e1In e q := by
  unfold candidateCheck
  dsimp only
  rw [if_pos hst, hj]

theorem candidateCheck_e1_searches
    (hj : judge 256 2 (d.e1 e).cands (d.e1 e).scanFrom (judged 2 (d.e1 e).cands seen) = (none, left, n)) :
    candidateCheck (.e1 e) seen d = d.updE1 e (fun x => { x with cands := left, scanFrom := n }) := by
  unfold candidateCheck
  dsimp only
  rw [if_pos hst, hj]

end

/-! ### E1 framers in frame (R103) -/

section
variable {d : Dev} {e : Nat}

section
variable (hin : (d.e1 e).st = .ifBasic ∨ (d.e1 e).st = .ifMf)
include hin

theorem e1Fas_good (pos : Nat) : e1Fas e e1FasBits pos d = d.updE1 e (fun x => { x with fasPos := pos, fe := 0 }) := by
  unfold e1Fas
  dsimp only
  rw [if_neg (by rcases hin with h | h <;> simp [h]), if_pos (by simp)]
  simp

theorem e1Fas_bad {bits : List Bool} (hbad : bits ≠ e1FasBits) (pos : Nat) : e1Fas e bits pos d =
    if (d.e1 e).fe < 2 then d.updE1 e (fun x => { x with fasPos := pos, fe := x.fe + 1 })
    else ((d.updE1 e (fun x => { x with fasPos := pos, fe := x.fe + 1 })).e1Oof e (pos + 7) false).e1Post e 0x1282 := by
  unfold e1Fas
  dsimp only
  rw [if_neg (by rcases hin with h | h <;> simp [h])]
  simp [hbad]

end

/-- The second signal at one phase reaches IF_MF. -/
theorem e1Mfas_reaches (hst : (d.e1 e).st = .ifBasic) (hmode : d.e1Framing e = 2 ∨ d.e1Framing e = 3) {ph : Nat}
    (hseen : ph ∈ (d.e1 e).mfasSeen) : ((e1Mfas e crc4MfasBits ph d).e1 e).st = .ifMf
      ∧ ((e1Mfas e crc4MfasBits ph d).e1 e).mfPhase = ph := by
  unfold e1Mfas
  dsimp only
  rw [hst]
  dsimp only
  rw [if_pos (by simpa using hmode), if_pos (by simp [hseen]), Dev.refresh_e1]
  have hpost := fun f => Dev.e1Post_unposted (d.updE1 e f) e 0x1283
  simp only [Dev.updE1_e1] at hpost
  exact ⟨(congrArg E1.st (hpost _) :), (congrArg E1.mfPhase (hpost _) :)⟩

section
variable (hst : (d.e1 e).st = .ifMf)
include hst

theorem e1Mfas_keeps : e1Mfas e crc4MfasBits (d.e1 e).mfPhase d = d.updE1 e (fun x => { x with me := 0 }) := by
  unfold e1Mfas
  dsimp only
  rw [hst]
  dsimp only
  rw [if_neg (by simp), if_pos (by simp)]

theorem e1Mfas_leaves {bits : List Bool} (hbad : bits ≠ crc4MfasBits) (hme : 3 ≤ (d.e1 e).me) :
    ((e1Mfas e bits (d.e1 e).mfPhase d).e1 e).st = .ifBasic := by
  unfold e1Mfas
  dsimp only
  rw [hst]
  dsimp only
  rw [if_neg (by simp), if_neg (by simpa using hbad), if_neg (by omega), Dev.refresh_e1, Dev.updE1_e1]

/-- A sub-multiframe in IF_MF: 915 errored of the last 1,000 lose frame. -/
theorem e1Sub_st (r : E1Smf) (eBit : Bool) : ((e1Sub e r eBit d).e1 e).st =
    if 915 ≤ (((decide (crc4 r.bits ≠ r.c.toNat) :: (d.e1 e).subs).take 1000).filter fun b => b).length then .oof else .ifMf := by
  unfold e1Sub
  simp only [hst, decide_true, Bool.true_and, Bool.not_true, Bool.false_eq_true, if_false]
  split
  · rw [Dev.e1Post_st, Dev.e1Oof_st]
  · rw [Dev.updE1_e1]
    split_ifs <;> exact hst

end

theorem e1Restart_restarts (hst : (d.e1 e).st = .ifBasic)
    (hmode : d.e1Framing e = 2 ∨ d.e1Framing e = 3 ∧ (d.e1 e).noCrc4 = false) (h : (d.e1 e).ifSince + 8000000 ≤ d.now) :
    ((e1Restart e d).e1 e).st = .oof ∧ ((e1Restart e d).e1 e).mfRestarts = min ((d.e1 e).mfRestarts + 1) 255 := by
  unfold e1Restart
  dsimp only
  rw [if_pos (by simpa [hst, Dev.after, h] using hmode)]
  have hpost := fun x => Dev.e1Post_unposted x e 0x1284
  refine ⟨?_, (congrArg E1.mfRestarts (hpost _)).trans ?_⟩
  · rw [Dev.e1Post_st, Dev.e1Oof_st]
  · exact (Dev.e1Oof_mfRestarts ..).trans (congrArg E1.mfRestarts (Dev.updE1_e1 ..))

theorem e1NoCrc_concludes {since : Nat} (ht : (d.e1 e).timer400 = some since) (hmode : d.e1Framing e = 3)
    (h : since + 400000000 ≤ d.now) (hst : (d.e1 e).st ≠ .ifMf) :
    ((e1NoCrc e d).e1 e).noCrc4 = true ∧ ((e1NoCrc e d).e1 e).timer400 = none := by
  unfold e1NoCrc
  dsimp only
  rw [ht]
  dsimp only
  rw [if_pos (by simp [hmode, Dev.after, h]), if_neg hst, Dev.refresh_e1]
  have hpost := fun f => Dev.e1Post_unposted ((d.updE1 e fun x => { x with timer400 := none, timerDone := true }).updE1 e f) e 0x1285
  simp only [Dev.updE1_e1] at hpost
  exact ⟨(congrArg E1.noCrc4 (hpost _) :), (congrArg E1.timer400 (hpost _) :)⟩

end

end Sys2Proof.Machine
end

section
/-! PROOF of O16, second half: the E1 framer (R102–R104), and the two halves together. -/

namespace Sys2Proof.Claim

open Machine

section
variable {s : State} {e : Fin 8064} (hl : s.dev.life = .running)
include hl

/-- The candidates of an E1 framer in OOF: two checks, then IF_BASIC (R91, R92, R102). -/
theorem oofE1_searches (hst : (s.dev.e1 e).st = .oof) :
    (∀ pos bits, (s.dev.e1 e).scanFrom ≤ pos → (s.dev.e1 e).cands.length < 4 →
      (∀ c ∈ (s.dev.e1 e).cands, c.pos % 512 ≠ pos % 512) → (s.dev.e1 e).ban = none → bits.take 7 = e1FasBits →
      Answers (.scanMatch (.e1 e) ⟨pos, bits⟩) s fun t => (t.dev.e1 e).cands = (s.dev.e1 e).cands ++ [{ pos := pos }])
    ∧ (∀ pos bits, (s.dev.e1 e).cands = [{ pos := pos }] → bits.head? = some true →
      Answers (.candidateCheck (.e1 e) [(pos, bits)]) s fun t => (t.dev.e1 e).cands = [{ pos := pos, passed := 1 }])
    ∧ (∀ pos bits, (s.dev.e1 e).cands = [{ pos := pos, passed := 1 }] → bits.take 7 = e1FasBits →
      Answers (.candidateCheck (.e1 e) [(pos, bits)]) s fun t => (t.dev.e1 e).st = .ifBasic) := by
  refine ⟨fun pos bits hpos hroom hfree hban hfas => answers_onDev rfl hl (scanMatch_e1 hst hpos hroom hfree hban hfas),
    fun pos bits hc hok => answers_onDev rfl hl ?_, fun pos bits hc hok => answers_onDev rfl hl ?_⟩
  · have hpass : ({ pos := pos } : Cand).passes 2 bits = true := by simp [Cand.passes, hok]
    dsimp only
    rw [candidateCheck_e1_searches hst (by rw [hc]; exact judge_goesOn hpass (show 0 + 1 ≠ 2 by decide)), Dev.updE1_e1]
  · have hpass : ({ pos := pos, passed := 1 } : Cand).passes 2 bits = true := by simp [Cand.passes, hok]
    dsimp only
    rw [candidateCheck_e1_enters hst (by rw [hc]; exact judge_wins hpass rfl), Dev.e1In_st]

/-- FAS positions of an E1 framer in frame (R103). -/
theorem inFrameE1_counts (hin : (s.dev.e1 e).st = .ifBasic ∨ (s.dev.e1 e).st = .ifMf) {bits : List Bool} (hbad : bits ≠ e1FasBits)
    (pos : Nat) :
    ((s.dev.e1 e).fe < 2 → Answers (.e1Fas e bits pos) s fun t =>
      (t.dev.e1 e).fe = (s.dev.e1 e).fe + 1 ∧ (t.dev.e1 e).st = (s.dev.e1 e).st)
    ∧ (2 ≤ (s.dev.e1 e).fe → Answers (.e1Fas e bits pos) s fun t => (t.dev.e1 e).st = .oof) := by
  refine ⟨fun hfew => answers_onDev rfl hl ?_, fun hmany => answers_onDev rfl hl ?_⟩
  · dsimp only
    rw [e1Fas_bad hin hbad, if_pos hfew, Dev.updE1_e1]
    exact ⟨rfl, rfl⟩
  · dsimp only
    rw [e1Fas_bad hin hbad, if_neg (by omega), Dev.e1Post_st, Dev.e1Oof_st]

end

theorem e1FramerMovesAsStated : E1FramerMovesAsStated := by
  unfold E1FramerMovesAsStated
  intro s e hl
  refine ⟨oofE1_searches hl, fun hin pos => ⟨gives_onDev rfl hl (e1Fas_good hin pos), fun bits hbad => inFrameE1_counts hl hin hbad pos⟩,
    fun hst => ⟨fun hmode ph hseen => answers_onDev rfl hl (e1Mfas_reaches hst hmode hseen),
      fun hmode h => answers_onDev rfl hl (e1Restart_restarts hst hmode h)⟩,
    fun hst => ⟨fun ph hph => ⟨answers_onDev rfl hl ?_, fun bits hbad hme => answers_onDev rfl hl ?_⟩,
      fun r eb => answers_onDev rfl hl (e1Sub_st hst r eb)⟩,
    fun since ht hmode h hst => answers_onDev rfl hl (e1NoCrc_concludes ht hmode h hst)⟩
  · dsimp only
    rw [hph, e1Mfas_keeps hst, Dev.updE1_e1]
    exact ⟨rfl, hst⟩
  · dsimp only
    rw [hph]
    exact e1Mfas_leaves hst hbad hme

/-- Settles O16: the framers of ports and of E1s. -/
theorem framersSearchAndHold : Obligations.FramersSearchAndHold := ⟨portFramersSearchAndHold, e1FramerMovesAsStated⟩

end Sys2Proof.Claim
end

section
/-! SUPPORT. The multiframe aligners (R97–R101): what a value makes of one, and that nothing else in its operation writes it. -/

namespace Sys2Proof.Machine

open Claim

/-- A value moves an aligner as R97 says. -/
theorem MfAlign.take_moves (x : MfAlign) (m n v now : Nat) : MfMoves m n x v (x.take m n v now).1 := by
  unfold MfMoves MfAlign.take
  refine ⟨fun hlock => ⟨fun hv => ?_, fun hv hn => ?_, fun hv hn => ?_⟩, fun hlock => ⟨fun q hq hv => ?_, fun hv => ?_⟩⟩
  · rw [if_pos hlock, if_pos hv]
    exact ⟨hlock, rfl, rfl⟩
  · rw [if_pos hlock, if_neg hv, if_pos hn]
    exact ⟨hlock, rfl, rfl⟩
  · rw [if_pos hlock, if_neg hv, if_neg (by omega)]
  · rw [if_neg (by simp [hlock]), if_pos (by rw [hq, ← hv]; rfl)]
    exact ⟨rfl, rfl⟩
  · rw [if_neg (by simp [hlock]), if_neg hv]
    exact ⟨hlock, rfl⟩

/-- Whatever is left of an aligner that a value unlocks, it has moved as R97 says where it is in search. -/
theorem MfAlign.moves_of_lost {x y : MfAlign} {m n v now : Nat} (h : (x.take m n v now).2 = .lost) (hy : y.lock = false) :
    MfMoves m n x v y := by
  unfold MfAlign.take at h
  split_ifs at h with hlock hv hn
  exact ⟨fun _ => ⟨fun hx => absurd hx hv, fun _ hlt => absurd hlt hn, fun _ _ => hy⟩, fun hx => absurd hlock (by simp [hx])⟩

theorem MfAlign.take_lost {x : MfAlign} {m n v now : Nat} (h : (x.take m n v now).2 = .lost) : (x.take m n v now).1.lock = false := by
  unfold MfAlign.take at h ⊢
  split_ifs at h ⊢
  rfl

/-! ### MFAS (R97, R98) -/

/-- Slice 1, and a slice that has not yet differed from it in four frames, keep what they have aligned to (R98). -/
theorem Dev.sliceSkew_framer {d : Dev} {k : Nat} (h : k % 16 = 0 ∨ (d.framer k).skewRun + 1 < 5) :
    ∃ n, (d.sliceSkew k).framer k = { d.framer k with skewRun := n } := by
  have hset : ∀ f, (d.updFramer k f).framer k = f (d.framer k) := Dev.updFramer_framer d k
  unfold Dev.sliceSkew
  dsimp only
  split_ifs with hfirst hsame hfew
  · exact ⟨_, hset _⟩
  · exact ⟨_, hset _⟩
  · exact ⟨_, hset _⟩
  · simp only [Bool.or_eq_true, decide_eq_true_eq, not_or] at hfirst
    exact absurd (h.resolve_left hfirst.1.1) hfew

theorem mfasByte_framer {d : Dev} {k : Nat} (hat : d.framerAt k = true) (hin : (d.framer k).inFrame = true)
    (hotn : isOtn (d.port (k / 16)).format = true) (hskew : k % 16 = 0 ∨ (d.framer k).skewRun + 1 < 5) (v : Nat) :
    ((mfasByte k v d).framer k).mf = ((d.framer k).mf.take 256 5 v d.now).1 ∧ ((mfasByte k v d).framer k).mfas = v := by
  have hend : ∀ e : Dev, (e.framer k).skewRun = (d.framer k).skewRun → ∀ x : MfAlign, (e.framer k).mf = x → (e.framer k).mfas = v →
      (((e.sliceSkew k).frTouch (k / 16)).framer k).mf = x ∧ (((e.sliceSkew k).frTouch (k / 16)).framer k).mfas = v := by
    intro e hrun x hmf hmfas
    obtain ⟨n, hn⟩ := Dev.sliceSkew_framer (d := e) (hskew.imp_right fun h => by rwa [hrun])
    rw [Dev.frTouch_framer, hn]
    exact ⟨hmf, hmfas⟩
  unfold mfasByte
  dsimp only
  rw [if_neg (by simp [hat, hin, hotn])]
  obtain ⟨mf, did⟩ := (d.framer k).mf.take 256 5 v d.now
  dsimp only
  generalize he : (if k % 16 = 0 then _ else d) = e
  have hrun : (e.framer k).skewRun = (d.framer k).skewRun := by
    subst he
    split
    · refine foldl_keeps (fun x : Dev => (x.framer k).skewRun = (d.framer k).skewRun) _ (fun x j hx => ?_) _ _ rfl
      by_cases hj : k = j
      · rw [← hj, Dev.updFramer_framer]; exact hx
      · rwa [Dev.updFramer_framer_ne _ _ hj]
    · rfl
  cases did
  case nothing =>
    exact hend _ (by rw [Dev.updFramer_framer]; exact hrun) _ (by rw [Dev.updFramer_framer]) (by rw [Dev.updFramer_framer])
  case locked =>
    exact hend _ (by rw [Dev.frRaise_framer, Dev.updFramer_framer]; exact hrun) _ (by rw [Dev.frRaise_framer, Dev.updFramer_framer])
      (by rw [Dev.frRaise_framer, Dev.updFramer_framer])
  case lost =>
    exact hend _ (by rw [Dev.dropOmfi_framer, Dev.frRaise_framer, Dev.updFramer_framer]; exact hrun) _
      (by rw [Dev.dropOmfi_framer, Dev.frRaise_framer, Dev.updFramer_framer])
      (by rw [Dev.dropOmfi_framer, Dev.frRaise_framer, Dev.updFramer_framer])

/-! ### The FlexO multiframe indicator (R99) -/

/-- The FlexO multiframe aligner `k % 16` of port `k / 16`. -/
def Dev.flexoMf (d : Dev) (k : Nat) : MfAlign := tget {} d.flexo k

section
variable {d : Dev} {k : Nat}

theorem Dev.flexoMf_of_mask {T : List Part} {a b : Dev} (h : a.mask T = b.mask T) (hT : Part.flexo ∉ T) :
    a.flexoMf k = b.flexoMf k := by
  unfold Dev.flexoMf; rw [Dev.flexo_of_mask h hT]

/-- An aligner that is not locked is still in search when those of a port are reset. -/
theorem Dev.dropFlexo_unlocked (h : (d.flexoMf k).lock = false) (p : Nat) (ins : List Nat) :
    ((d.dropFlexo p ins).flexoMf k).lock = false := by
  unfold Dev.dropFlexo
  dsimp only
  generalize ins.filter (fun i => (tget {} d.flexo (16 * p + i)).lock) = lost
  generalize htab : ins.foldl (fun t i => tput {} t (16 * p + i) { since := d.now }) d.flexo = t
  have ht : (tget {} t k).lock = false := by
    subst htab
    refine foldl_keeps (fun t : Tab MfAlign => (tget {} t k).lock = false) _ (fun t i hi => ?_) _ _ h
    by_cases hk : k = 16 * p + i
    · rw [← hk, tget_tput_self]
    · rwa [tget_tput_ne _ _ _ hk]
  split
  · exact ht
  · refine foldl_keeps (fun e : Dev => (e.flexoMf k).lock = false) _ (fun e i he => ?_) _ _ ?_
    · split
      · rwa [Dev.flexoMf_of_mask (Dev.oofOne_mask (T := [.regs, .framers, .oofCause, .host, .jersey]) (by decide) ..) (by decide)]
      · exact he
    · rw [Dev.flexoMf_of_mask (Dev.frRaise_mask (T := [.regs, .host, .jersey]) (by decide) ..) (by decide)]
      exact ht

theorem Dev.dropMf_unlocked (h : (d.flexoMf k).lock = false) (p : Nat) : ((d.dropMf p).flexoMf k).lock = false := by
  have hrest : (d.dropMf p).flexoMf k = (if (d.port p).format = 1 then d.dropFlexo p (List.range 16) else d).flexoMf k := by
    unfold Dev.dropMf
    exact (Dev.flexoMf_of_mask (Dev.mask_foldl (T := [.regs, .vc4s, .host, .jersey]) (fun _ _ => Dev.dropH4_mask (by decide) ..) _ _)
      (by decide)).trans ((Dev.flexoMf_of_mask (Dev.dropOmfi_mask (T := [.regs, .odus, .host, .jersey]) (by decide) ..)
      (by decide)).trans (Dev.flexoMf_of_mask (Dev.mask_foldl (T := [.framers]) (fun _ _ => Dev.updFramer_mask (by decide) ..) _ _)
      (by decide)))
  rw [hrest]
  split
  · exact Dev.dropFlexo_unlocked h ..
  · exact h

theorem Dev.oof_unlocked (h : (d.flexoMf k).lock = false) (p : Nat) (ks : List Nat) (cause n : Nat) (stop : Bool) :
    ((d.oof p ks cause n stop).flexoMf k).lock = false := by
  have hfold : ((ks.foldl (fun d k => d.oofOne k cause n stop) d).flexoMf k).lock = false := by
    rwa [Dev.flexoMf_of_mask (Dev.mask_foldl (T := [.regs, .framers, .oofCause, .host, .jersey])
      (fun _ _ => Dev.oofOne_mask (by decide) ..) ks d) (by decide)]
  unfold Dev.oof
  dsimp only
  split
  · exact Dev.dropMf_unlocked hfold p
  · exact hfold

end

theorem flexoIndicator_moves {d : Dev} {p i : Nat} (hf : (d.port p).format = 1) (hi : i < (d.port p).otucN)
    (ha : (d.port p).astate = .aligned) (hh : (d.port p).onHold = false) (v : Nat) :
    MfMoves 256 5 (d.flexoMf (16 * p + i)) v ((flexoIndicator p i v d).flexoMf (16 * p + i)) := by
  have hmoves := (d.flexoMf (16 * p + i)).take_moves 256 5 v d.now
  have htouch : ∀ e : Dev, (e.frTouch p).flexoMf (16 * p + i) = e.flexoMf (16 * p + i) := fun e =>
    Dev.flexoMf_of_mask (Dev.frTouch_mask (T := [.regs, .ports, .points, .host, .jersey]) (by decide) e p) (by decide)
  have hraise : ∀ e : Dev, (e.frRaise p [5]).flexoMf (16 * p + i) = e.flexoMf (16 * p + i) := fun e =>
    Dev.flexoMf_of_mask (Dev.frRaise_mask (T := [.regs, .host, .jersey]) (by decide) e p [5]) (by decide)
  have hset : ∀ mf, ({ d with flexo := tput {} d.flexo (16 * p + i) mf } : Dev).flexoMf (16 * p + i) = mf := fun mf => tget_tput_self ..
  rcases hr : (d.flexoMf (16 * p + i)).take 256 5 v d.now with ⟨mf, did⟩
  have htake : (tget {} d.flexo (16 * p + i)).take 256 5 v d.now = (mf, did) := hr
  rw [hr] at hmoves
  unfold flexoIndicator
  rw [if_pos (by simp [hf, hi, ha, hh]), htake]
  cases did
  case nothing => exact (congrArg (MfMoves _ _ _ _) (hset mf)).mpr hmoves
  case locked => exact (congrArg (MfMoves _ _ _ _) (hset mf)).mpr hmoves
  case lost =>
    have hlost : ((d.flexoMf (16 * p + i)).take 256 5 v d.now).2 = .lost := by rw [hr]
    have hmf : mf.lock = false := (congrArg (fun r => r.1.lock) hr).symm.trans (MfAlign.take_lost hlost)
    refine MfAlign.moves_of_lost hlost ?_
    refine (congrArg MfAlign.lock (htouch _)).trans ?_
    split
    · exact Dev.oof_unlocked (by rw [hraise, hset]; exact hmf) ..
    · rw [hraise, hset]; exact hmf

/-! ### OMFI and H4 (R100, R101) -/

theorem omfiByte_omfi {d : Dev} {o p : Nat} {x : Odu} (ho : d.odu o = some x) (hp : d.oduPort 5 o = some p)
    (huse : x.usesOmfi = true) (hlock : d.portMfLock p = true) (v : Nat) :
    (omfiByte o v d).odu o = some { x with omfi := (x.omfi.take 80 5 v d.now).1 } := by
  have hset : ∀ mf : MfAlign, (d.updOdu o (fun x => { x with omfi := mf })).odu o = some { x with omfi := mf } := by
    intro mf; rw [Dev.updOdu_odu, ho]; rfl
  have hraise : ∀ e : Dev, (e.frRaise p [4]).odu o = e.odu o := fun e =>
    Dev.odu_of_mask (Dev.frRaise_mask (T := [.regs, .host, .jersey]) (by decide) e p [4]) (by decide) o
  unfold omfiByte
  rw [ho, hp]
  dsimp only
  rw [if_pos (by simp [huse, hlock])]
  split
  · rw [hraise, hset]
  · rw [hset]

theorem h4Byte_h4 {d : Dev} {n : Nat} {x : Vc4} (hx : d.vc4 n = some x) (hstruct : x.struct = true) (hptr : x.ptr.st = 1)
    (hin : d.portInFrame (d.feedPort x.port) = true) (h : Nat) :
    (h4Byte n h d).vc4 n = some { x with h4 := (x.h4.take 4 4 h d.now).1 } := by
  have hset : ∀ mf : MfAlign, (d.updVc4 n (fun x => { x with h4 := mf })).vc4 n = some { x with h4 := mf } := by
    intro mf; rw [Dev.updVc4_vc4, hx]; rfl
  have hraise : ∀ (e : Dev) (q : Nat) (more : List Byte), (e.frRaise q [6] more).vc4 n = e.vc4 n := fun e q more =>
    Dev.vc4_of_mask (Dev.frRaise_mask (T := [.regs, .host, .jersey]) (by decide) e q [6] more) (by decide) n
  unfold h4Byte
  rw [hx]
  dsimp only
  rw [if_pos (by simp [hstruct, hptr, hin])]
  split
  · rw [hraise, hset]
  · rw [hset]

end Sys2Proof.Machine
end

section
/-! PROOF of O15: the four aligners (R97–R101). -/

namespace Sys2Proof.Claim

open Machine

/-- Settles O15: each aligner takes the value as `MfMoves` says, and no reaction to a lost lock writes it again but to reset it. -/
theorem multiframeAlignersLockAndLose : Obligations.MultiframeAlignersLockAndLose := by
  unfold Obligations.MultiframeAlignersLockAndLose
  intro s hl
  refine ⟨fun p sl v => ?_, fun p i v hf hi ha hh => answers_onDev rfl hl (flexoIndicator_moves hf hi ha hh v.toNat),
    fun o v x p ho hp huse hlock => answers_onDev rfl hl ⟨_, omfiByte_omfi ho hp huse hlock v.toNat, MfAlign.take_moves ..⟩,
    fun v h x hx hstruct hptr hin => answers_onDev rfl hl ⟨_, h4Byte_h4 hx hstruct hptr hin h.toNat, MfAlign.take_moves ..⟩⟩
  have hk : (16 * p.val + sl.val) / 16 = p.val := by omega
  intro k hat hin hotn hskew
  have hfirst : k % 16 = 0 ∨ (s.dev.framer k).skewRun + 1 < 5 :=
    hskew.imp_left fun h => by simp [k, h]
  obtain ⟨hmf, hmfas⟩ := mfasByte_framer hat hin (by rwa [hk]) hfirst v.toNat
  refine answers_onDev rfl hl ⟨?_, hmfas⟩
  exact hmf ▸ MfAlign.take_moves ..

end Sys2Proof.Claim
end

section
/-! REFUTATION of O58, against its clause on the framers of ports, which leaves out the lock of the slice's FlexO aligner: a slice
whose aligner is not locked is given no check (R99), and keeps its candidate. -/

namespace Sys2Proof.Claim

open Machine

/-- A framer whose FlexO aligner is not locked takes no check of a candidate (R99). -/
theorem candidateCheck_unlocked {d : Dev} {p : Fin 64} {sl : Fin 16} (h : d.flexoOk (16 * p.val + sl.val) = false)
    (seen : List (Nat × List Bool)) : candidateCheck (.port p sl) seen d = d := by
  unfold candidateCheck
  dsimp only
  rw [if_neg (by simp [h])]

/-- Port 0 carries an OTUC1; the framer of its one slice has a candidate open at 0, and the FlexO aligner of the slice
is not locked. -/
def openInUnlocked : State :=
  { dev := { life := .running, ports := [(0, { lanes := 1, format := 1, otucN := 1, astate := .aligned })]
             framers := [(0, { cands := [{ pos := 0 }] })] }
    mem := [], pending := [] }

theorem openInUnlocked_framerAt : openInUnlocked.dev.framerAt (16 * (0 : Fin 64).val + (0 : Fin 16).val) = true := by decide

theorem openInUnlocked_unlocked : openInUnlocked.dev.flexoOk (16 * (0 : Fin 64).val + (0 : Fin 16).val) = false := by decide

/-- Refutes O58: in the state `openInUnlocked` the candidate is said to be dropped where its check finds no pattern. The check of a
slice whose FlexO aligner is not locked reaches no framer, and the candidate stays. -/
theorem not_failedCandidatesAreDropped : ¬ Obligations.FailedCandidatesAreDropped := by
  unfold Obligations.FailedCandidatesAreDropped
  intro h
  obtain ⟨hport, -⟩ := h openInUnlocked 0 rfl
  have hdropped : exec (.candidateCheck (.port 0 0) [(0, [])]) openInUnlocked = .next _ :=
    hport 0 0 0 [] openInUnlocked_framerAt rfl rfl rfl (Nat.zero_le _) (by decide)
  have hkept : exec (.candidateCheck (.port 0 0) [(0, [])]) openInUnlocked = .next openInUnlocked :=
    gives_onDev rfl rfl (candidateCheck_unlocked openInUnlocked_unlocked [(0, [])])
  have hsame := Host.Outcome.next.inj (hkept.symm.trans hdropped)
  have hcands : (openInUnlocked.dev.framer (16 * (0 : Fin 64).val + (0 : Fin 16).val)).cands = [] :=
    (congrArg (fun t : State => (t.dev.framer (16 * (0 : Fin 64).val + (0 : Fin 16).val)).cands) hsame).trans
      (congrArg Framer.cands (Dev.updFramer_framer ..))
  exact absurd hcands (by decide)

end Sys2Proof.Claim
end

section
/-! SUPPORT. Monitored points (R112–R146) as rules of their operations: what bringing the points up to date, a received frame and
the end of a second write in a point, and which other parts of the device their conditions read. -/

namespace Sys2Proof.Machine

/-! ### Keys -/

theorem mpTyOf_mpKey (m : MpId) : mpTyOf (mpKey m) = mpType m := by
  cases m <;> simp only [mpTyOf, mpKey, mpKeyOf, mpType, mpLevel, mpIndex] <;> omega

theorem mpIndexOf_mpKey (m : MpId) : mpIndexOf (mpKey m) = mpIndex m := by
  cases m <;> simp only [mpIndexOf, mpKey, mpKeyOf, mpType, mpLevel, mpIndex] <;> omega

/-! ### Points brought up to date (R125–R136) -/

/-- A point without its defects and its consequent actions but the signal that MAINT orders, which ROLE 2 alone has: what
`Dev.refresh` writes in a point is left out. -/
def Point.settings (x : Point) : Point :=
  { x with raw := 0, det := 0, dec := 0, changed := [], neDef := false, feDef := false
           act := { sig := if x.role = 2 then x.act.sig else .normal } }

theorem Point.counts_of_settings {x y : Point} (h : x.settings = y.settings) :
    x.neEb = y.neEb ∧ x.feEb = y.feEb ∧ x.stat = y.stat ∧ x.pt = y.pt ∧ x.tti = y.tti :=
  ⟨(congrArg Point.neEb h :), (congrArg Point.feEb h :), (congrArg Point.stat h :), (congrArg Point.pt h :), (congrArg Point.tti h :)⟩

section
variable (d : Dev) (k j : Nat)

theorem Dev.updPoint_settings {f : Point → Point} (hf : (f (d.point k)).settings = (d.point k).settings) :
    ((d.updPoint k f).point j).settings = (d.point j).settings := by
  by_cases h : j = k
  · rw [h, Dev.updPoint_point, hf]
  · rw [Dev.updPoint_point_ne _ _ h]

theorem Dev.act_settings : ((d.act k).point j).settings = (d.point j).settings := by
  have hsig : (d.point k).role = 2 → (d.actions k).sig = (d.point k).act.sig := by
    intro h
    unfold Dev.actions
    simp only [h, ne_eq, not_true_eq_false, if_false]
  have hset : ({ d.point k with act := d.actions k } : Point).settings = (d.point k).settings := by
    unfold Point.settings
    by_cases h : (d.point k).role = 2
    · simp only [h, if_true, hsig h]
    · simp only [h, if_false]
  unfold Dev.act
  dsimp only
  split
  · rfl
  · exact Dev.updPoint_settings (f := fun x => { x with act := d.actions k }) d k j hset

theorem Dev.declare_settings (new : BitVec 24) : ((d.declare k new).point j).settings = (d.point j).settings := by
  have hev : ∀ (e : Dev) (c : Prop) [Decidable c] (a : Nat) (evs : List (Nat × Option (Nat × List Byte))),
      (if c then e else e.raiseAll a evs).point j = e.point j := by
    intro e c _ a evs
    split
    · rfl
    · exact Dev.point_of_mask (Dev.raiseAll_mask (T := [.regs, .host, .jersey]) (by decide) ..) (by decide) j
  unfold Dev.declare
  dsimp only
  split
  · rfl
  · rw [hev, hev]
    exact Dev.updPoint_settings d k j rfl

theorem Dev.refreshPoint_settings : ((d.refreshPoint k).point j).settings = (d.point j).settings := by
  have hdeclare : ∀ (e : Dev) (c : Prop) [Decidable c] (new : BitVec 24),
      ((if c then e else e.declare k new).point j).settings = (e.point j).settings := by
    intro e c _ new
    split
    · rfl
    · exact Dev.declare_settings ..
  unfold Dev.refreshPoint
  dsimp only
  split
  · rfl
  · rw [hdeclare, Dev.act_settings, Dev.updPoint_settings _ _ _ (by exact rfl), Dev.updPoint_settings _ _ _ (by exact rfl)]

theorem Dev.refresh_settings : (d.refresh.point j).settings = (d.point j).settings := by
  unfold Dev.refresh
  refine foldl_keeps (fun e : Dev => (e.point j).settings = (d.point j).settings) _
    (fun e k he => (Dev.refreshPoint_settings e k j).trans he) _ _ ?_
  refine foldl_keeps (fun e : Dev => (e.point j).settings = (d.point j).settings) _ (fun e k he => ?_) _ _ rfl
  dsimp only
  split
  · exact he
  · exact (Dev.updPoint_settings e k j (by exact rfl)).trans he

end

/-! ### What the conditions of a point read -/

/-- The parts of the device that a received frame and the end of a second change. -/
def pointParts : List Part := [.regs, .queues, .points, .twill, .host, .jersey, .fresh]

section
variable {a b : Dev}

theorem Dev.oduPort_congr (h : a.odus = b.odus) (n o : Nat) : a.oduPort n o = b.oduPort n o := by
  have hodu : ∀ i, a.odu i = b.odu i := fun i => by unfold Dev.odu; rw [h]
  induction n generalizing o with
  | zero => rfl
  | succ n ih =>
    unfold Dev.oduPort
    rw [hodu]
    cases b.odu o with
    | none => rfl
    | some x => simp only [ih]

variable (h : a.mask pointParts = b.mask pointParts)
include h

theorem Dev.pointPort_alike (k : Nat) : a.pointPort k = b.pointPort k := by
  have hodu := Dev.oduPort_congr (Dev.odus_of_mask h (by decide)) 5 (mpIndexOf k)
  have hvc4s := Dev.vc4s_of_mask h (by decide)
  unfold Dev.pointPort Dev.entryPort Dev.loVc4 Dev.vc4
  dsimp only
  rw [hodu, hvc4s]

theorem Dev.pointSlice_alike (k : Nat) : a.pointSlice k = b.pointSlice k := by
  unfold Dev.pointSlice
  rw [Dev.pointPort_alike h]

theorem Dev.hasReverse_alike (k : Nat) : a.hasReverse k = b.hasReverse k := by
  unfold Dev.hasReverse
  rw [Dev.pointPort_alike h, Dev.lo_of_mask h (by decide)]

theorem Dev.engineDead_alike (p s e : Nat) : a.engineDead p s e = b.engineDead p s e := by
  unfold Dev.engineDead
  rw [Dev.fenced_of_mask h (by decide), Dev.fenced_of_mask h (by decide), Dev.planeFenced_of_mask h (by decide)]

theorem Dev.pointHeld_alike {k : Nat} (he : (a.point k).engine = (b.point k).engine) : a.pointHeld k = b.pointHeld k := by
  unfold Dev.pointHeld
  rw [he]
  simp only [Dev.engineDead_alike h, Dev.pointSlice_alike h]

theorem Dev.deadCopies_alike {k : Nat} (he : (a.point k).engine = (b.point k).engine) : a.deadCopies k = b.deadCopies k := by
  unfold Dev.deadCopies
  rw [he]
  simp only [Dev.pointHeld_alike h he, Dev.engineDead_alike h, Dev.pointSlice_alike h]

end

/-! ### The hardware's part of a frame (R114–R122) -/

/-- A point without its counts of errored blocks, its runs of frames and its STAT: what the hardware's part of a frame writes. -/
def Point.unread (x : Point) : Point :=
  { x with raw := 0, aisRun := 0, noAisRun := 0, rdiRun := 0, noRdiRun := 0, neEb := 0, feEb := 0
           stat := 0, statCand := 0, statRun := 0 }

theorem Point.label_of_unread {x y : Point} (h : x.unread = y.unread) :
    x.engine = y.engine ∧ x.ptCand = y.ptCand ∧ x.ptRun = y.ptRun :=
  ⟨(congrArg Point.engine h :), (congrArg Point.ptCand h :), (congrArg Point.ptRun h :)⟩

theorem Point.aisFrame_eq (x : Point) (ty : Nat) (f : OhFrame) :
    ∃ set clr raw, x.aisFrame ty f = { x with aisRun := set, noAisRun := clr, raw := raw } := by
  unfold Point.aisFrame
  split
  · exact ⟨_, _, _, rfl⟩
  · exact ⟨_, _, _, rfl⟩

theorem Point.frame_unread (x : Point) (ty : Nat) (f : OhFrame) : (x.frame ty f).unread = x.unread := by
  obtain ⟨_, _, _, h⟩ := (x.rdiFrame ty f).aisFrame_eq ty f
  unfold Point.frame
  rw [h]
  rfl

section
variable (d : Dev) (k : Nat) (f : OhFrame)

theorem Dev.emit_point (o : Out) (j : Nat) : (d.emit o).point j = d.point j := rfl

/-- The signal that MAINT orders is in force on a point at ROLE 2 from a frame boundary on (R134). -/
theorem Dev.maintStart_point : (d.maintStart k).point k =
    { d.point k with act := { (d.point k).act with
        sig := if (d.point k).role = 2 then maintSig (mpTyOf k) (d.point k).maint else (d.point k).act.sig } } := by
  unfold Dev.maintStart
  dsimp only
  by_cases hrole : (d.point k).role = 2
  · by_cases hact : ({ (d.point k).act with sig := maintSig (mpTyOf k) (d.point k).maint } : Actions) = (d.point k).act
    · rw [if_pos (by simp [hact]), if_pos hrole, hact]
    · rw [if_neg (by simp [hrole, hact]), if_pos hrole]
      rw [Dev.emit_point, Dev.updPoint_point]
  · rw [if_pos (by simp [hrole]), if_neg hrole]

theorem Dev.takeStat_point (v : Nat) : (d.takeStat k v).point k =
    { d.point k with
      statCand := v, statRun := (takeRun 3 v (d.point k).statCand (d.point k).statRun (some (d.point k).stat)).1
      stat := if (takeRun 3 v (d.point k).statCand (d.point k).statRun (some (d.point k).stat)).2 then v else (d.point k).stat } := by
  unfold Dev.takeStat
  exact Dev.updPoint_point d k _

theorem Dev.hardFrame_unread : ((d.hardFrame k f).point k).unread = (d.point k).unread := by
  have hframe := (d.point k).frame_unread (mpTyOf k) f
  unfold Dev.hardFrame
  dsimp only
  split
  · rw [Dev.takeStat_point, Dev.updPoint_point]
    exact hframe
  · rw [Dev.updPoint_point]
    exact hframe

theorem Dev.hardFrame_blocks : ((d.hardFrame k f).point k).neEb = (d.point k).neEb + nearBlocks (mpTyOf k) f
    ∧ ((d.hardFrame k f).point k).feEb = (d.point k).feEb + farBlocks (mpTyOf k) f := by
  unfold Dev.hardFrame
  dsimp only
  split
  · rw [Dev.takeStat_point, Dev.updPoint_point]
    exact ⟨rfl, rfl⟩
  · rw [Dev.updPoint_point]
    exact ⟨rfl, rfl⟩

/-- The third sight in a row of a value completes its run, and the value is accepted unless it was so before (R122). -/
theorem takeRun_third {α : Type} [DecidableEq α] (v : α) {run : Nat} (h : 2 ≤ run) (was : Option α) :
    takeRun 3 v v run was = (3, decide (was ≠ some v)) := by
  have hrun : min (run + 1) 3 = 3 := by omega
  unfold takeRun
  simp [hrun]

theorem Dev.hardFrame_stat (hty : mpTyOf k = 2 ∨ mpTyOf k = 3) (hv : f.stat = (d.point k).statCand) (hrun : 2 ≤ (d.point k).statRun) :
    ((d.hardFrame k f).point k).stat = f.stat := by
  obtain ⟨_, _, _, h⟩ := ((d.point k).rdiFrame (mpTyOf k) f).aisFrame_eq (mpTyOf k) f
  unfold Dev.hardFrame
  dsimp only
  rw [if_pos (by simpa using hty), Dev.takeStat_point, Dev.updPoint_point]
  dsimp only
  unfold Point.frame
  rw [h]
  show (if (takeRun 3 f.stat (d.point k).statCand (d.point k).statRun (some (d.point k).stat)).2 then f.stat
    else (d.point k).stat) = f.stat
  rw [← hv, takeRun_third _ hrun]
  by_cases hs : (d.point k).stat = f.stat
  · simp [hs]
  · simp [hs]

end

/-! ### The engine's part of a frame (R122, R346) -/

/-- A point without its TTI, its label and its MSI: what the engine's part of a frame writes. -/
def Point.unheard (x : Point) : Point :=
  { x with tti := [], ttiCand := [], ttiRun := 0, pt := none, ptCand := 0, ptRun := 0, msi := [], msiCand := [], msiRun := 0 }

theorem Point.counts_of_unheard {x y : Point} (h : x.unheard = y.unheard) : x.neEb = y.neEb ∧ x.feEb = y.feEb ∧ x.stat = y.stat :=
  ⟨(congrArg Point.neEb h :), (congrArg Point.feEb h :), (congrArg Point.stat h :)⟩

section
variable (d : Dev) (k : Nat)

theorem Dev.post_point (code : Nat) (args : List Byte) (j : Nat) : (d.post code args).point j = d.point j :=
  Dev.point_of_mask (Dev.post_mask (T := [.regs, .host, .jersey]) (by decide) ..) (by decide) j

theorem Dev.funcSays_point (j : Nat) : (d.funcSays k).point j = d.point j :=
  Dev.point_of_mask (Dev.funcSays_mask (T := [.regs, .queues, .host, .jersey, .fresh]) (by decide) ..) (by decide) j

theorem Dev.accepted_point (c : Prop) [Decidable c] (code : Nat) (args : List Byte) (j : Nat) :
    (if c then (d.post code args).acceptedRecs k else d).point j = d.point j := by
  split
  · rw [Dev.point_of_mask (Dev.acceptedRecs_mask (T := [.regs, .queues, .host, .jersey, .fresh]) (by decide) ..) (by decide) j,
      Dev.post_point]
  · rfl

theorem Dev.takeTti_point (bs : List Byte) (ok : Bool) :
    ∃ cand run tti, (d.takeTti k bs ok).point k = { d.point k with ttiCand := cand, ttiRun := run, tti := tti } := by
  unfold Dev.takeTti
  dsimp only
  split
  · exact ⟨_, _, _, rfl⟩
  · rw [Dev.accepted_point, Dev.updPoint_point]
    exact ⟨_, _, _, rfl⟩

theorem Dev.takePt_point (v : Nat) : (d.takePt k v).point k =
    { d.point k with
      ptCand := v, ptRun := (takeRun (if mpTyOf k = 2 then 3 else 5) v (d.point k).ptCand (d.point k).ptRun (d.point k).pt).1
      pt := if (takeRun (if mpTyOf k = 2 then 3 else 5) v (d.point k).ptCand (d.point k).ptRun (d.point k).pt).2 then some v
        else (d.point k).pt } := by
  unfold Dev.takePt
  dsimp only
  rw [Dev.accepted_point, Dev.updPoint_point]

theorem Dev.takeMsi_point (v : List Nat) :
    ∃ cand run msi, (d.takeMsi k v).point k = { d.point k with msiCand := cand, msiRun := run, msi := msi } := by
  unfold Dev.takeMsi
  dsimp only
  rw [Dev.updPoint_point]
  exact ⟨_, _, _, rfl⟩

variable (f : OhFrame)

/-- What the engine does with the TTI of a frame, if one arrives with it. -/
def Dev.hearTti : Dev :=
  match f.tti with | some (bs, ok) => if mpTyOf k = 5 || mpTyOf k = 8 then d else d.takeTti k bs ok | none => d

/-- What the engine does with the label of a frame. -/
def Dev.hearPt : Dev :=
  match f.pt with | some v => if mpTyOf k = 2 || mpTyOf k = 6 || mpTyOf k = 7 then d.takePt k v else d | none => d

/-- What the engine does with the MSI of a frame. -/
def Dev.hearMsi : Dev :=
  match f.msi with | some v => if mpTyOf k = 2 then d.takeMsi k v else d | none => d

theorem Dev.engineFrame_eq : d.engineFrame k f = ((d.hearTti k f).hearPt k f).hearMsi k f := rfl

theorem Dev.hearTti_point : ∃ cand run tti, (d.hearTti k f).point k = { d.point k with ttiCand := cand, ttiRun := run, tti := tti } := by
  unfold Dev.hearTti
  split
  · split
    · exact ⟨_, _, _, rfl⟩
    · exact Dev.takeTti_point ..
  · exact ⟨_, _, _, rfl⟩

theorem Dev.hearMsi_point : ∃ cand run msi, (d.hearMsi k f).point k = { d.point k with msiCand := cand, msiRun := run, msi := msi } := by
  unfold Dev.hearMsi
  split
  · split
    · exact Dev.takeMsi_point ..
    · exact ⟨_, _, _, rfl⟩
  · exact ⟨_, _, _, rfl⟩

theorem Dev.hearPt_unheard : ((d.hearPt k f).point k).unheard = (d.point k).unheard := by
  unfold Dev.hearPt
  split
  · split
    · rw [Dev.takePt_point]; rfl
    · rfl
  · rfl

/-- The label of an ODU that a frame brings for the third time in a row is accepted. -/
theorem Dev.hearPt_pt (hty : mpTyOf k = 2) (hv : f.pt = some (d.point k).ptCand) (hrun : 2 ≤ (d.point k).ptRun) :
    ((d.hearPt k f).point k).pt = some (d.point k).ptCand := by
  unfold Dev.hearPt
  rw [hv]
  dsimp only
  rw [if_pos (by simp [hty]), Dev.takePt_point, if_pos hty, takeRun_third _ hrun]
  by_cases hs : (d.point k).pt = some (d.point k).ptCand
  · simp [hs]
  · simp [hs]

theorem Dev.engineFrame_unheard : ((d.engineFrame k f).point k).unheard = (d.point k).unheard := by
  obtain ⟨_, _, _, htti⟩ := d.hearTti_point k f
  obtain ⟨_, _, _, hmsi⟩ := ((d.hearTti k f).hearPt k f).hearMsi_point k f
  calc ((d.engineFrame k f).point k).unheard
      = (((d.hearTti k f).hearPt k f).point k).unheard := by rw [Dev.engineFrame_eq, hmsi]; rfl
    _ = ((d.hearTti k f).point k).unheard := Dev.hearPt_unheard ..
    _ = (d.point k).unheard := by rw [htti]; rfl

theorem Dev.engineFrame_pt (hty : mpTyOf k = 2) (hv : f.pt = some (d.point k).ptCand) (hrun : 2 ≤ (d.point k).ptRun) :
    ((d.engineFrame k f).point k).pt = some (d.point k).ptCand := by
  obtain ⟨_, _, _, htti⟩ := d.hearTti_point k f
  obtain ⟨_, _, _, hmsi⟩ := ((d.hearTti k f).hearPt k f).hearMsi_point k f
  have hcand : ((d.hearTti k f).point k).ptCand = (d.point k).ptCand := by rw [htti]
  have hruns : ((d.hearTti k f).point k).ptRun = (d.point k).ptRun := by rw [htti]
  rw [Dev.engineFrame_eq, hmsi, ← hcand]
  exact (d.hearTti k f).hearPt_pt k f hty (by rw [hcand]; exact hv) (by rw [hruns]; exact hrun)

end

/-! ### Taps (R345–R353) -/

section
variable {d : Dev} {k : Nat}

theorem Dev.tapMessage_free {g : Fin 256} (hdead : d.engineDead (g.val / 128) (g.val % 128 / 16) (g.val % 16) = false)
    (hfree : (d.engine g).tapBusy = false) : d.tapMessage g = (true, (d.updEngine g fun e => { e with tapBusy := true }).tapEnters g) := by
  unfold Dev.tapMessage
  rw [if_neg (by simp [hdead]), if_neg (by simp [hfree])]

/-- A message of one engine occupies no other engine's tap. -/
theorem Dev.tapMessage_engine_ne {g j : Fin 256} (h : j ≠ g) : (d.tapMessage g).2.engine j = d.engine j := by
  have hne : j.val ≠ g.val := fun e => h (Fin.ext e)
  have henters : ∀ e : Dev, (e.tapEnters g).engine j = e.engine j := by
    intro e
    unfold Dev.tapEnters
    split
    · exact (Dev.engine_of_mask (Dev.qEnter_mask (T := [.regs, .queues, .host, .jersey]) (by decide) ..) (by decide) j).trans
        (Dev.updEngine_engine_ne _ _ hne)
    · rfl
  unfold Dev.tapMessage
  split
  · rfl
  · split
    · rw [Dev.engine_of_mask (Dev.raise_mask (T := [.regs, .host, .jersey]) (by decide) ..) (by decide)]
      rfl
    · exact (henters _).trans (Dev.updEngine_engine_ne _ _ hne)

theorem Dev.tapPoint_point (j : Nat) : (d.tapPoint k).2.point j = d.point j :=
  Dev.point_of_mask (Dev.tapPoint_mask (T := [.regs, .queues, .twill, .host, .jersey, .fresh]) (by decide) d k) (by decide) j

/-- The messages of two engines with free taps reach both. -/
theorem Dev.tapMessage_both {g j : Fin 256} (h : j ≠ g) (hg : d.engineDead (g.val / 128) (g.val % 128 / 16) (g.val % 16) = false)
    (hgfree : (d.engine g).tapBusy = false) (hj : d.engineDead (j.val / 128) (j.val % 128 / 16) (j.val % 16) = false)
    (hjfree : (d.engine j).tapBusy = false) : (d.tapMessage g).1 = true ∧ ((d.tapMessage g).2.tapMessage j).1 = true := by
  refine ⟨by rw [Dev.tapMessage_free hg hgfree], ?_⟩
  rw [Dev.tapMessage_free ((Dev.engineDead_alike (Dev.tapMessage_mask (by decide) d g) ..).trans hj)
    (by rw [Dev.tapMessage_engine_ne h]; exact hjfree)]

/-- The taps of both planes are free: the point's engine gets the message in each. -/
theorem Dev.tapPoint_got (h : Claim.TapsFree d k) : (d.tapPoint k).1 = true := by
  unfold Dev.tapPoint
  split
  · rfl
  · rename_i e he
    dsimp only
    generalize hm : d.movedTo (d.pointSlice k) e = m
    have hne : Fin.ofNat 256 (engineNo 1 (d.pointSlice k) m) ≠ Fin.ofNat 256 (engineNo 0 (d.pointSlice k) m) := by
      intro hg
      have hg := congrArg Fin.val hg
      simp only [Fin.ofNat, engineNo] at hg
      omega
    obtain ⟨hdead, hfree⟩ := h e he 0
    obtain ⟨hdead', hfree'⟩ := h e he 1
    rw [hm] at hdead hfree hdead' hfree'
    have hgot := Dev.tapMessage_both hne hdead hfree hdead' hfree'
    show (if _ then Prod.fst (Dev.tapMessage (Prod.snd _) _) else if _ then Prod.fst (d.tapMessage _) else if _ then
      Prod.fst (d.tapMessage _) else Prod.fst (Dev.tapMessage (Prod.snd _) _)) = true
    simp only [hgot, ite_self]

end

/-! ### A frame at a point (R96, R113, R345) -/

section
variable (d : Dev) (k : Nat) (f : OhFrame)

theorem Dev.softFrame_unheard : ((d.softFrame k f).point k).unheard = (d.point k).unheard := by
  unfold Dev.softFrame
  split
  · rfl
  · dsimp only
    split
    · rw [Dev.engineFrame_unheard, Dev.tapPoint_point]
    · rw [Dev.updPoint_point, Dev.tapPoint_point]
      rfl

variable {d k f} in
theorem Dev.softFrame_pt (hheld : d.pointHeld k = false) (htaps : Claim.TapsFree d k) (hty : mpTyOf k = 2)
    (hv : f.pt = some (d.point k).ptCand) (hrun : 2 ≤ (d.point k).ptRun) :
    ((d.softFrame k f).point k).pt = some (d.point k).ptCand := by
  have hpoint := Dev.tapPoint_point (d := d) (k := k) k
  unfold Dev.softFrame
  rw [if_neg (by simp [hheld])]
  dsimp only
  rw [if_pos (Dev.tapPoint_got htaps), ← hpoint]
  exact Dev.engineFrame_pt _ k f hty (by rw [hpoint]; exact hv) (by rw [hpoint]; exact hrun)

theorem Dev.funcWrites_point : (d.funcWrites k).point k = { d.point k with
    wroteTti := if d.pointHeld k then (d.point k).wroteTti else (d.point k).sentTti (mpTyOf k)
    wroteLabel := if d.pointHeld k then (d.point k).wroteLabel else d.expLabel k (d.point k).expPt } := by
  unfold Dev.funcWrites
  cases d.pointHeld k
  case true => rfl
  case false => exact Dev.updPoint_point ..

/-- A point without what its functions have written into the insertion tables: all that sending writes in a point. -/
def Point.unwritten (x : Point) : Point := { x with wroteTti := [], wroteLabel := 0 }

theorem Dev.sendBack_unwritten : ((d.sendBack k f).point k).unwritten = (d.point k).unwritten := by
  unfold Dev.sendBack
  split
  · dsimp only
    rw [Dev.emit_point, Dev.funcWrites_point]
    rfl
  · rfl

variable {d k}

/-- What a terminating point with a reverse direction sends for a received frame (R113, R123, R351). -/
theorem Dev.sendBack_out (hrole : (d.point k).role = 2) (hrev : d.hasReverse k = true) :
    (d.sendBack k f).host.out.head? = some (.overhead k
      { tti := if mpTyOf k = 5 ∨ mpTyOf k = 8 then none
          else some (ttiByte (if d.pointHeld k = true then (d.point k).wroteTti else (d.point k).sentTti (mpTyOf k)) f.txMf)
        fields := (d.sendBack k f).ohFields k f, sig := (d.point k).act.sig, poison := d.deadCopies k }) := by
  have hsent : d.sendBack k f = (d.funcWrites k).emit (.overhead k
      { tti := if mpTyOf k = 5 || mpTyOf k = 8 then none else some (ttiByte ((d.funcWrites k).point k).wroteTti f.txMf)
        fields := (d.funcWrites k).ohFields k f, sig := ((d.funcWrites k).point k).act.sig
        poison := (d.funcWrites k).deadCopies k }) := by
    unfold Dev.sendBack
    exact if_pos (by simp [hrole, hrev])
  have hwrites : (d.funcWrites k).mask pointParts = d.mask pointParts := Dev.funcWrites_mask (by decide) d k
  have hdead : (d.funcWrites k).deadCopies k = d.deadCopies k := Dev.deadCopies_alike hwrites (by rw [Dev.funcWrites_point])
  have hfields : (d.sendBack k f).ohFields k f = (d.funcWrites k).ohFields k f := by rw [hsent]; rfl
  rw [hfields, hsent, hdead, Dev.funcWrites_point]
  simp [Dev.emit]

end

end Sys2Proof.Machine
end

section
/-! SUPPORT. OVERHEAD_FRAME as a whole (R96, R113, R134, R345): what the steps from a frame boundary to the reverse point leave in
the point. -/

namespace Sys2Proof.Machine

theorem Dev.framed_alike {a b : Dev} (h : a.mask pointParts = b.mask pointParts) (k : Nat) : a.framed k = b.framed k := by
  have hport : ∀ p, a.port p = b.port p := Dev.port_of_mask h (by decide)
  have hframer : ∀ j, a.framer j = b.framer j := Dev.framer_of_mask h (by decide)
  have hin : ∀ p, a.portInFrame p = b.portInFrame p := by
    intro p
    unfold Dev.portInFrame Dev.framersOf
    simp only [hport, hframer]
  have hfeed : a.pointFeed k = b.pointFeed k := by
    unfold Dev.pointFeed Dev.feedPort Dev.mspOf
    rw [Dev.pointPort_alike h, Dev.sels_of_mask h (by decide)]
  unfold Dev.framed
  rw [hfeed, Dev.e1_of_mask h (by decide)]
  simp only [hin]

theorem tapsFree_alike {a b : Dev} {k : Nat} (h : a.mask [.points, .host] = b.mask [.points, .host])
    (he : (a.point k).engine = (b.point k).engine) (hb : Claim.TapsFree b k) : Claim.TapsFree a k := by
  have hparts : a.mask pointParts = b.mask pointParts := Dev.mask_mono (by decide) h
  have hmoved : ∀ s e, a.movedTo s e = b.movedTo s e := fun s e => by unfold Dev.movedTo; rw [Dev.twill_of_mask h (by decide)]
  intro e hek p
  dsimp only
  rw [Dev.pointSlice_alike hparts, hmoved, Dev.engineDead_alike hparts, Dev.engine_of_mask h (by decide)]
  exact hb e (he ▸ hek) p

/-- What a point sends by, and no received frame changes: its role, its engine, the TTI that it transmits and has written, and the
signal that MAINT orders, which ROLE 2 alone has. -/
def Point.sender (x : Point) : Nat × Option Nat × List Byte × List Byte × Nat × TxSig :=
  (x.role, x.engine, x.wroteTti, x.txTti, x.timMode, if x.role = 2 then x.act.sig else .normal)

section
variable {x y : Point}

theorem Point.sender_of_settings (h : x.settings = y.settings) : x.sender = y.sender :=
  (congrArg (fun z : Point => (z.role, z.engine, z.wroteTti, z.txTti, z.timMode, z.act.sig)) h :)

theorem Point.sender_of_unheard (h : x.unheard = y.unheard) : x.sender = y.sender := (congrArg Point.sender h :)

theorem Point.sender_of_unread (h : x.unread = y.unread) : x.sender = y.sender := (congrArg Point.sender h :)

variable (h : x.sender = y.sender)
include h

theorem Point.fields_of_sender : x.role = y.role ∧ x.engine = y.engine ∧ x.wroteTti = y.wroteTti := by
  simp only [Point.sender, Prod.mk.injEq] at h
  obtain ⟨hrole, hengine, hwrote, -⟩ := h
  exact ⟨hrole, hengine, hwrote⟩

theorem Point.sender_sig (hx : x.role = 2) : x.act.sig = y.act.sig := by
  simp only [Point.sender, Prod.mk.injEq] at h
  obtain ⟨hrole, -, -, -, -, hsig⟩ := h
  rwa [← hrole, if_pos hx, if_pos hx] at hsig

theorem Point.sentTti_congr (ty : Nat) : x.sentTti ty = y.sentTti ty := by
  simp only [Point.sender, Prod.mk.injEq] at h
  obtain ⟨-, -, -, htx, hmode, -⟩ := h
  unfold Point.sentTti
  rw [htx, hmode]

end

/-- A frame as a point receives it: the hardware's part, the engine's, and what follows from them. -/
def Dev.receives (d : Dev) (k : Nat) (f : OhFrame) : Dev := (((d.maintStart k).hardFrame k f).softFrame k f).refresh

/-- A frame whose structure is not there (R96). -/
def Dev.misses (d : Dev) (k : Nat) (f : OhFrame) : Dev := ((d.maintStart k).updPoint k (fun x => x.unframed (mpTyOf k) f)).refresh

/-- What sending leaves in a point of what is counted and accepted. -/
theorem Point.counts_of_unwritten {x y : Point} (h : x.unwritten = y.unwritten) :
    x.neEb = y.neEb ∧ x.feEb = y.feEb ∧ x.stat = y.stat ∧ x.pt = y.pt ∧ x.tti = y.tti :=
  ⟨(congrArg Point.neEb h :), (congrArg Point.feEb h :), (congrArg Point.stat h :), (congrArg Point.pt h :), (congrArg Point.tti h :)⟩

section
variable {d : Dev} {k : Nat} {f : OhFrame}

section
variable (hrole : (d.point k).role ≠ 0) (hex : d.pointExists (mpTyOf k) (mpIndexOf k) = true)
include hrole hex

theorem Dev.overhead_framed (h : d.framed k = true) : d.overhead k f = (d.receives k f).sendBack k f := by
  have hstart : (d.maintStart k).framed k = true := (Dev.framed_alike (Dev.maintStart_mask (by decide) d k) k).trans h
  unfold Dev.overhead
  rw [if_neg (by simp [hrole, hex])]
  exact if_pos hstart

theorem Dev.overhead_unframed (h : d.framed k = false) :
    d.overhead k f = (d.misses k f).sendBack k { f with nBip := f.nBip.map (fun _ => 0) } := by
  have hstart : (d.maintStart k).framed k = false := (Dev.framed_alike (Dev.maintStart_mask (by decide) d k) k).trans h
  unfold Dev.overhead
  rw [if_neg (by simp [hrole, hex])]
  exact if_neg (by simp [hstart])

end

variable (d k f)

theorem Dev.receives_mask : (d.receives k f).mask pointParts = d.mask pointParts :=
  (Dev.refresh_mask (by decide) _).trans ((Dev.softFrame_mask (by decide) _ k f).trans
    ((Dev.hardFrame_mask (by decide) _ k f).trans (Dev.maintStart_mask (by decide) d k)))

theorem Dev.receives_sender : ((d.receives k f).point k).sender = ((d.maintStart k).point k).sender :=
  (Point.sender_of_settings (Dev.refresh_settings _ k)).trans
    ((Point.sender_of_unheard (Dev.softFrame_unheard _ k f)).trans (Point.sender_of_unread (Dev.hardFrame_unread _ k f)))

theorem Dev.receives_blocks : ((d.receives k f).point k).neEb = (d.point k).neEb + nearBlocks (mpTyOf k) f
    ∧ ((d.receives k f).point k).feEb = (d.point k).feEb + farBlocks (mpTyOf k) f := by
  obtain ⟨hne, hfe, -⟩ := Point.counts_of_settings ((((d.maintStart k).hardFrame k f).softFrame k f).refresh_settings k)
  obtain ⟨hne', hfe', -⟩ := Point.counts_of_unheard (((d.maintStart k).hardFrame k f).softFrame_unheard k f)
  have hblocks := (d.maintStart k).hardFrame_blocks k f
  rw [Dev.maintStart_point] at hblocks
  unfold Dev.receives
  rw [hne, hfe, hne', hfe']
  exact hblocks

variable {d k f}

theorem Dev.receives_stat (hty : mpTyOf k = 2 ∨ mpTyOf k = 3) (hv : f.stat = (d.point k).statCand)
    (hrun : 2 ≤ (d.point k).statRun) : ((d.receives k f).point k).stat = f.stat := by
  obtain ⟨-, -, hstat, -⟩ := Point.counts_of_settings ((((d.maintStart k).hardFrame k f).softFrame k f).refresh_settings k)
  obtain ⟨-, -, hstat'⟩ := Point.counts_of_unheard (((d.maintStart k).hardFrame k f).softFrame_unheard k f)
  unfold Dev.receives
  rw [hstat, hstat']
  exact (d.maintStart k).hardFrame_stat k f hty (by rw [Dev.maintStart_point]; exact hv) (by rw [Dev.maintStart_point]; exact hrun)

theorem Dev.receives_pt (hty : mpTyOf k = 2) (hheld : d.pointHeld k = false) (htaps : Claim.TapsFree d k)
    (hv : f.pt = some (d.point k).ptCand) (hrun : 2 ≤ (d.point k).ptRun) :
    ((d.receives k f).point k).pt = some (d.point k).ptCand := by
  obtain ⟨-, -, -, hpt, -⟩ := Point.counts_of_settings ((((d.maintStart k).hardFrame k f).softFrame k f).refresh_settings k)
  have hhard := (d.maintStart k).hardFrame_unread k f
  rw [Dev.maintStart_point] at hhard
  obtain ⟨hengine, hcand, hruns⟩ := Point.label_of_unread hhard
  have halike : ((d.maintStart k).hardFrame k f).mask [.points, .host] = d.mask [.points, .host] :=
    (Dev.hardFrame_mask (by decide) _ k f).trans (Dev.maintStart_mask (by decide) d k)
  have hheld' : ((d.maintStart k).hardFrame k f).pointHeld k = false :=
    (Dev.pointHeld_alike (Dev.mask_mono (by decide) halike) hengine).trans hheld
  unfold Dev.receives
  rw [hpt, Dev.softFrame_pt hheld' (tapsFree_alike halike hengine htaps) hty (by rw [hcand]; exact hv) (by rw [hruns]; exact hrun),
    hcand]

variable (d k f)

/-- A frame that is not there counts nothing and brings no value (R96). -/
theorem Dev.misses_keeps : ((d.misses k f).point k).neEb = (d.point k).neEb ∧ ((d.misses k f).point k).feEb = (d.point k).feEb
    ∧ ((d.misses k f).point k).stat = (d.point k).stat ∧ ((d.misses k f).point k).pt = (d.point k).pt
    ∧ ((d.misses k f).point k).tti = (d.point k).tti := by
  have hruns : ∀ x : Point, (x.unframed (mpTyOf k) f).neEb = x.neEb ∧ (x.unframed (mpTyOf k) f).feEb = x.feEb
      ∧ (x.unframed (mpTyOf k) f).stat = x.stat ∧ (x.unframed (mpTyOf k) f).pt = x.pt ∧ (x.unframed (mpTyOf k) f).tti = x.tti := by
    intro x
    obtain ⟨_, _, _, h⟩ := x.aisFrame_eq (mpTyOf k) f
    unfold Point.unframed
    rw [h]
    by_cases hty : mpTyOf k = 8 <;> simp [hty]
  have hrefresh := ((d.maintStart k).updPoint k (fun x => x.unframed (mpTyOf k) f)).refresh_settings k
  have hstart := hruns ((d.maintStart k).point k)
  rw [Dev.updPoint_point] at hrefresh
  obtain ⟨hne, hfe, hstat, hpt, htti⟩ := Point.counts_of_settings hrefresh
  unfold Dev.misses
  rw [hne, hfe, hstat, hpt, htti]
  rw [Dev.maintStart_point] at hstart ⊢
  exact hstart

end

end Sys2Proof.Machine
end

section
/-! PROOF of O17, first half: OVERHEAD_FRAME (R96, R113–R123, R134, R345, R351). -/

namespace Sys2Proof.Claim

open Machine

/-- What the reverse point of a terminating point sends for a frame that the point receives. -/
theorem receives_sends {d : Dev} {k : Nat} (f : OhFrame) (hrole : (d.point k).role = 2) (hrev : d.hasReverse k = true) :
    ((d.receives k f).sendBack k f).host.out.head? = some (.overhead k
      { tti := if mpTyOf k = 5 ∨ mpTyOf k = 8 then none
          else some (ttiByte (if d.pointHeld k = true then (d.point k).wroteTti else (d.point k).sentTti (mpTyOf k)) f.txMf)
        fields := ((d.receives k f).sendBack k f).ohFields k f, sig := maintSig (mpTyOf k) (d.point k).maint
        poison := d.deadCopies k }) := by
  have hsender := d.receives_sender k f
  have halike := d.receives_mask k f
  rw [Dev.maintStart_point, if_pos hrole] at hsender
  obtain ⟨hrole', hengine, hwrote⟩ := Point.fields_of_sender hsender
  replace hrole' : ((d.receives k f).point k).role = 2 := hrole'.trans hrole
  have htti : ((d.receives k f).point k).sentTti (mpTyOf k) = (d.point k).sentTti (mpTyOf k) := Point.sentTti_congr hsender _
  have hrev' : (d.receives k f).hasReverse k = true := (Dev.hasReverse_alike halike k).trans hrev
  rw [Dev.sendBack_out f hrole' hrev', Dev.pointHeld_alike halike hengine, hwrote, htti,
    Point.sender_sig hsender hrole', Dev.deadCopies_alike halike hengine]

theorem overheadCountsAndIsAccepted : OverheadCountsAndIsAccepted := by
  unfold OverheadCountsAndIsAccepted
  intro s m f hl k x ty hrole hex
  have hty : mpTyOf k = ty := mpTyOf_mpKey m
  have hex' : s.dev.pointExists (mpTyOf k) (mpIndexOf k) = true := by rw [hty, mpIndexOf_mpKey]; exact hex
  refine ⟨fun hframed => answers_onDev rfl hl ?_, fun hout => answers_onDev rfl hl ?_⟩
  · obtain ⟨hneS, hfeS, hstatS, hptS, -⟩ := Point.counts_of_unwritten ((s.dev.receives k f).sendBack_unwritten k f)
    obtain ⟨hne, hfe⟩ := s.dev.receives_blocks k f
    dsimp only
    rw [Dev.overhead_framed hrole hex' hframed, ← hty, hneS, hfeS, hstatS, hptS]
    exact ⟨hne, hfe, Dev.receives_stat, Dev.receives_pt, receives_sends f⟩
  · obtain ⟨hneS, hfeS, hstatS, hptS, httiS⟩ :=
      Point.counts_of_unwritten ((s.dev.misses k f).sendBack_unwritten k { f with nBip := f.nBip.map (fun _ => 0) })
    dsimp only
    rw [Dev.overhead_unframed hrole hex' hout, hneS, hfeS, hstatS, hptS, httiS]
    exact s.dev.misses_keeps k f

end Sys2Proof.Claim
end

section
/-! SUPPORT. The seconds and bins of a point (R137–R141, R345): what the end of a second leaves of the counts and of the seconds held,
and what the end of a bin leaves of the bins. -/

namespace Sys2Proof.Machine

section
variable (d : Dev) (k : Nat)

/-- The second that ends, as it is held (R137). -/
theorem Dev.pmTake_point : ∃ r, ((d.pmTake k).point k).held = r :: (d.point k).held ∧ r.sec = d.tsu.sec.toNat - 1
    ∧ r.eb = (d.point k).neEb ∧ r.feEb = (d.point k).feEb ∧ r.es = (r.ses || decide (0 < (d.point k).neEb))
    ∧ r.feEs = (r.feSes || decide (0 < (d.point k).feEb)) ∧ ((d.pmTake k).point k).neEb = 0 ∧ ((d.pmTake k).point k).feEb = 0 := by
  have hdeg : ∀ (x : Point) (bad : Bool), (x.degSecond bad).held = x.held := by
    intro x bad
    unfold Point.degSecond
    dsimp only
    split_ifs <;> rfl
  unfold Dev.pmTake
  dsimp only
  rw [Dev.updPoint_point]
  refine ⟨_, congrArg₂ List.cons rfl ?_, rfl, rfl, rfl, rfl, rfl, rfl, rfl⟩
  split
  · rfl
  · split
    · rfl
    · exact hdeg ..

/-- The counts of the running second and the seconds held, which the bins do not touch. -/
def Point.second (x : Point) : List SecRes × Nat × Nat := (x.held, x.neEb, x.feEb)

theorem Point.roll_second (x : Point) (off s : Nat) : (x.roll off s).second = x.second := by
  unfold Point.roll
  dsimp only
  split_ifs <;> rfl

theorem Dev.rollPoint_second : ((d.rollPoint k).point k).second = (d.point k).second := by
  unfold Dev.rollPoint
  rw [Dev.updPoint_point, Point.roll_second]

theorem Dev.binSecond_second (r : SecRes) : ((d.binSecond k r).point k).second = (d.point k).second := by
  unfold Dev.binSecond
  dsimp only
  refine foldl_keeps (fun e : Dev => (e.point k).second = (d.point k).second) _ (fun e i he => ?_) _ _ ?_
  · rwa [Dev.funcSays_point, Dev.post_point]
  · rw [Dev.updPoint_point]
    rfl

/-- The ten newest seconds stay held (R139). -/
theorem Dev.pmPass_second : ((d.pmPass k).point k).second = ((d.point k).held.take 10, (d.point k).neEb, (d.point k).feEb) := by
  have hunavail : ∀ (e : Dev) (c : Prop) [Decidable c] (b : Bool),
      ((if c then d.updPoint k (fun x => { x with unavail := b }) else e).point k).second
        = if c then (d.point k).second else (e.point k).second := by
    intro e c _ b
    split
    · rw [Dev.updPoint_point]
      rfl
    · rfl
  unfold Dev.pmPass
  dsimp only
  split
  · rename_i hfew
    rw [List.take_of_length_le (by omega)]
    rfl
  · generalize he : (if (!(d.point k).unavail && _) = true then _ else _) = e
    have hsame : (e.point k).second = (d.point k).second := by
      rw [← he, hunavail, hunavail, ite_self, ite_self]
    have hcut : ((e.updPoint k (fun y => { y with held := y.held.take 10 })).point k).second
        = ((d.point k).held.take 10, (d.point k).neEb, (d.point k).feEb) := by
      rw [Dev.updPoint_point]
      exact congrArg (fun x => (x.1.take 10, x.2)) hsame
    split
    · rw [Dev.binSecond_second, hcut]
    · exact hcut

theorem Dev.refresh_second : (d.refresh.point k).second = (d.point k).second :=
  (congrArg Point.second (d.refresh_settings k) :)

end

/-- The end of a second at a point whose engine takes the message (R137, R345). -/
theorem Dev.pmSecond_point {d : Dev} {k : Nat} (hrole : (d.point k).role ≠ 0)
    (hex : d.pointExists (mpTyOf k) (mpIndexOf k) = true) (hheld : d.pointHeld k = false) (htaps : Claim.TapsFree d k) :
    (∃ r, ((d.pmSecond k).point k).held = (r :: (d.point k).held).take 10 ∧ r.sec = d.tsu.sec.toNat - 1
      ∧ r.eb = (d.point k).neEb ∧ r.feEb = (d.point k).feEb ∧ r.es = (r.ses || decide (0 < (d.point k).neEb))
      ∧ r.feEs = (r.feSes || decide (0 < (d.point k).feEb)))
    ∧ ((d.pmSecond k).point k).neEb = 0 ∧ ((d.pmSecond k).point k).feEb = 0 := by
  have hpoint := Dev.tapPoint_point (d := d) (k := k) k
  have htsu : (d.tapPoint k).2.tsu = d.tsu :=
    Dev.tsu_of_mask (Dev.tapPoint_mask (T := [.regs, .queues, .twill, .host, .jersey, .fresh]) (by decide) d k) (by decide)
  obtain ⟨r, htake, hsec, heb, hfeEb, hes, hfeEs, hne, hfe⟩ := (d.tapPoint k).2.pmTake_point k
  rw [hpoint] at htake heb hfeEb hes hfeEs
  rw [htsu] at hsec
  have hsecond : d.pmSecond k = ((((d.tapPoint k).2.pmTake k).rollPoint k).pmPass k).refresh := by
    unfold Dev.pmSecond
    dsimp only
    rw [if_neg (by simp [hrole, hex]), if_neg (by simp [hheld]), if_pos (Dev.tapPoint_got htaps)]
  have hend : ((d.pmSecond k).point k).second = ((r :: (d.point k).held).take 10, 0, 0) := by
    have hroll := ((d.tapPoint k).2.pmTake k).rollPoint_second k
    rw [hsecond, Dev.refresh_second, Dev.pmPass_second]
    simp only [Point.second, Prod.mk.injEq] at hroll
    obtain ⟨hh, hn, hf⟩ := hroll
    rw [hh, hn, hf, htake, hne, hfe]
  simp only [Point.second, Prod.mk.injEq] at hend
  obtain ⟨hheld', hne', hfe'⟩ := hend
  exact ⟨⟨r, hheld', hsec, heb, hfeEb, hes, hfeEs⟩, hne', hfe'⟩

/-- The oldest ended bin of a point is the previous one ten seconds after its end, when no second of it is held (R140). -/
theorem Dev.pmClose_eq {d : Dev} {k : Nat} {day : Bool} (hrole : (d.point k).role ≠ 0) (hheld : d.pointHeld k = false)
    (hten : (d.point k).endOf day + 10 ≤ d.tsu.sec.toNat) (hfree : ∀ r ∈ (d.point k).held, (d.point k).endOf day ≤ r.sec) :
    d.pmClose k day = d.closeBin k day := by
  have hnone : (d.point k).held.any (fun r => r.sec < (d.point k).endOf day) = false := by simpa using hfree
  unfold Dev.pmClose
  dsimp only
  rw [if_neg]
  simp only [hrole, hheld, hnone, decide_false, Bool.or_self, Bool.and_false, Bool.or_false, Bool.false_or, decide_eq_true_eq, not_and]
  omega

theorem Dev.closeBin_point {d : Dev} {k : Nat} {day : Bool} {b : Bin}
    (hb : (if day then (d.point k).ended24 else (d.point k).ended15).getLast? = some b) : (d.closeBin k day).point k =
    if day then { d.point k with prev24 := b, ended24 := (d.point k).ended24.dropLast }
    else { d.point k with prev15 := b, ended15 := (d.point k).ended15.dropLast } := by
  have hstat : ∀ (e : Dev) body, (e.stat body).point k = e.point k := fun e body =>
    Dev.point_of_mask (Dev.stat_mask (T := [.regs, .host, .jersey]) (by decide) e body) (by decide) k
  unfold Dev.closeBin
  dsimp only
  rw [hb]
  dsimp only
  rw [Dev.funcSays_point, hstat, Dev.updPoint_point]

end Sys2Proof.Machine
end

section
/-! PROOF of O17, second half: PM_SECOND and PM_BIN_CLOSE (R137–R141, R345), and the two halves together. -/

namespace Sys2Proof.Claim

open Machine

theorem performanceSecondsAndBins : PerformanceSecondsAndBins := by
  unfold PerformanceSecondsAndBins
  intro s m hl k x hrole hheld
  refine ⟨fun hex htaps => answers_onDev rfl hl ?_, fun b hb hten hfree => answers_onDev rfl hl ?_,
    fun b hb hten hfree => answers_onDev rfl hl ?_⟩
  · exact Dev.pmSecond_point hrole (by rw [mpTyOf_mpKey, mpIndexOf_mpKey]; exact hex) hheld htaps
  · dsimp only
    rw [Dev.pmClose_eq hrole hheld hten hfree, Dev.closeBin_point (day := false) hb]
    exact ⟨rfl, rfl⟩
  · dsimp only
    rw [Dev.pmClose_eq hrole hheld hten hfree, Dev.closeBin_point (day := true) hb]
    exact ⟨rfl, rfl⟩

/-- Settles O17: overhead frames, and the seconds and bins of a point. -/
theorem overheadIsCountedAndSummed : Obligations.OverheadIsCountedAndSummed :=
  ⟨overheadCountsAndIsAccepted, performanceSecondsAndBins⟩

end Sys2Proof.Claim
end

section
/-! SUPPORT. The life of a defect (R125–R132): which of a point's own conditions bringing it up to date keeps, what a declaration
writes, and what the settle filter makes of the declared defects. -/

namespace Sys2Proof.Machine

/-! ### One bit of a defect word -/

theorem defectBit_getLsbD (b i : Nat) : (BitVec.ofNat 24 (2 ^ b)).getLsbD i = (decide (i < 24) && decide (b = i)) := by
  rw [BitVec.getLsbD_ofNat, Nat.testBit_two_pow]

theorem dbit_getLsbD_ne {i j : Nat} (h : i ≠ j) (b : Bool) : (dbit b i).getLsbD j = false := by
  unfold dbit
  split
  · rw [defectBit_getLsbD, decide_eq_false h, Bool.and_false]
  · exact BitVec.getLsbD_zero

theorem setOrClear_getLsbD (v : BitVec 24) (b : Fin 24) (on : Bool) :
    (if on then v ||| BitVec.ofNat 24 (2 ^ b.val) else v &&& ~~~BitVec.ofNat 24 (2 ^ b.val)).getLsbD b = on := by
  cases on
  case false =>
    rw [if_neg Bool.false_ne_true, BitVec.getLsbD_and, BitVec.getLsbD_not, defectBit_getLsbD]
    simp
  case true =>
    rw [if_pos rfl, BitVec.getLsbD_or, defectBit_getLsbD]
    simp

/-- A defect that is declared already is not declared again. -/
theorem or_defectBit {v : BitVec 24} {b : Nat} (h : v.getLsbD b = true) : v ||| BitVec.ofNat 24 (2 ^ b) = v := by
  refine BitVec.eq_of_getLsbD_eq fun i hi => ?_
  rw [BitVec.getLsbD_or, defectBit_getLsbD]
  by_cases hb : b = i
  · rw [← hb, h, Bool.true_or]
  · rw [decide_eq_false hb, Bool.and_false, Bool.or_false]

theorem andNot_defectBit {v : BitVec 24} {b : Nat} (h : v.getLsbD b = false) : v &&& ~~~BitVec.ofNat 24 (2 ^ b) = v := by
  refine BitVec.eq_of_getLsbD_eq fun i hi => ?_
  rw [BitVec.getLsbD_and, BitVec.getLsbD_not, defectBit_getLsbD]
  by_cases hb : b = i
  · rw [← hb, h, Bool.false_and]
  · rw [decide_eq_false hb, Bool.and_false, decide_eq_true hi, Bool.not_false, Bool.and_true, Bool.and_true]

/-! ### What a point's own operations write in it -/

section
variable (d : Dev) (k : Nat)

theorem Dev.act_point : (d.act k).point k = { d.point k with act := d.actions k } := by
  unfold Dev.act
  dsimp only
  split
  case isTrue h => rw [h]
  case isFalse => rw [Dev.emit_point, Dev.updPoint_point]

theorem Dev.act_point_ne {j : Nat} (h : j ≠ k) : (d.act k).point j = d.point j := by
  unfold Dev.act
  dsimp only
  split
  · rfl
  · rw [Dev.emit_point, Dev.updPoint_point_ne _ _ h]

theorem Dev.raiseAll_point (a : Nat) (evs : List (Nat × Option (Nat × List Byte))) (j : Nat) :
    (d.raiseAll a evs).point j = d.point j :=
  Dev.point_of_mask (Dev.raiseAll_mask (T := [.regs, .host, .jersey]) (by decide) ..) (by decide) j

theorem Dev.declare_points (new : BitVec 24) (j : Nat) : (d.declare k new).point j =
    if new = (d.point k).dec || d.pointHeld k then d.point j else (d.updPoint k (fun x => { x with dec := new })).point j := by
  have hev : ∀ (e : Dev) (c : Prop) [Decidable c] (a : Nat) (evs : List (Nat × Option (Nat × List Byte))),
      (if c then e else e.raiseAll a evs).point j = e.point j := by
    intro e c _ a evs
    split
    · rfl
    · exact Dev.raiseAll_point ..
  unfold Dev.declare
  dsimp only
  split
  · rfl
  · rw [hev, hev]

/-- A declaration writes the declared defects of a point whose engine runs, and nothing else in it (R146, R351). -/
theorem Dev.declare_point (new : BitVec 24) :
    (d.declare k new).point k = if d.pointHeld k then d.point k else { d.point k with dec := new } := by
  rw [Dev.declare_points, Dev.updPoint_point]
  by_cases hheld : d.pointHeld k = true
  · simp [hheld]
  · by_cases hnew : new = (d.point k).dec
    · simp [hheld, hnew]
    · simp [hheld, hnew]

theorem Dev.declare_point_ne (new : BitVec 24) {j : Nat} (h : j ≠ k) : (d.declare k new).point j = d.point j := by
  rw [Dev.declare_points, Dev.updPoint_point_ne _ _ h, ite_self]

theorem Dev.act_raw (j : Nat) : ((d.act k).point j).raw = (d.point j).raw := by
  by_cases h : j = k
  · rw [h, Dev.act_point]
  · rw [Dev.act_point_ne d k h]

theorem Dev.declare_raw (new : BitVec 24) (j : Nat) : ((d.declare k new).point j).raw = (d.point j).raw := by
  by_cases h : j = k
  · rw [h, Dev.declare_point]
    split <;> rfl
  · rw [Dev.declare_point_ne d k new h]

/-- Bringing a point up to date writes its own detected defects and those of no other point (R126). -/
theorem Dev.refreshPoint_raw (j : Nat) : ((d.refreshPoint k).point j).raw =
    if j = k ∧ (d.point k).role ≠ 0 then d.rawNow k (d.point k) else (d.point j).raw := by
  have hdeclare : ∀ (e : Dev) (c : Prop) [Decidable c] (new : BitVec 24),
      ((if c then e else e.declare k new).point j).raw = (e.point j).raw := by
    intro e c _ new
    split
    · rfl
    · exact Dev.declare_raw ..
  unfold Dev.refreshPoint
  dsimp only
  split
  case isTrue h => rw [if_neg (fun hn => hn.2 h)]
  case isFalse h =>
    rw [hdeclare, Dev.act_raw]
    by_cases hj : j = k
    · rw [if_pos (show j = k ∧ (d.point k).role ≠ 0 from ⟨hj, h⟩), hj, Dev.updPoint_point, Dev.updPoint_point]
    · rw [if_neg (show ¬ (j = k ∧ (d.point k).role ≠ 0) from fun hn => hj hn.1), Dev.updPoint_point_ne _ _ hj,
        Dev.updPoint_point_ne _ _ hj]

end

/-! ### Conditions that need 3 ms (R125) -/

section
variable {a b : Dev} (h : a.mask pointParts = b.mask pointParts)
include h

theorem Dev.entryExists_alike (e : Nat) : a.entryExists e = b.entryExists e := by
  unfold Dev.entryExists Dev.inTu3 Dev.loVc4 Dev.vc4
  rw [Dev.vc4s_of_mask h (by decide)]

theorem Dev.pointExists_alike (ty i : Nat) : a.pointExists ty i = b.pointExists ty i := by
  unfold Dev.pointExists
  rw [Dev.port_of_mask h (by decide), Dev.odu_of_mask h (by decide), Dev.vc4_of_mask h (by decide), Dev.lo_of_mask h (by decide),
    Dev.entryExists_alike h]

end

/-- The defects that the 3 ms of R125 are for: dLOF and dLOM of a section, dLOM of a VC-4 and dLOOMFI of an ODU. -/
theorem Dev.lasting_cases {d : Dev} {k bit : Nat} {y : Bool × Nat} (h : d.lasting k bit = some y) :
    (mpTyOf k = 1 ∨ mpTyOf k = 4) ∧ bit = 1 ∨ (mpTyOf k = 1 ∨ mpTyOf k = 6) ∧ bit = 2 ∨ mpTyOf k = 2 ∧ bit = 3 := by
  unfold Dev.lasting at h
  dsimp only at h
  split at h
  all_goals simp_all

/-- Such a defect is the point's own: nothing but its persistence changes it while the point's object exists. -/
theorem Dev.rawNow_lasting {d e : Dev} {k bit : Nat} {y : Bool × Nat} (h : d.lasting k bit = some y)
    (hex : e.pointExists (mpTyOf k) (mpIndexOf k) = true) (x : Point) : (e.rawNow k x).getLsbD bit = x.raw.getLsbD bit := by
  have hfollow : (e.rawFollow k x).getLsbD bit = x.raw.getLsbD bit := by
    unfold Dev.rawFollow
    dsimp only
    rw [if_neg (by simp [hex])]
    obtain ⟨hty | hty, rfl⟩ | ⟨hty | hty, rfl⟩ | ⟨hty, rfl⟩ := Dev.lasting_cases h
    all_goals
      simp (disch := decide) only [hty, BitVec.getLsbD_or, BitVec.getLsbD_and, dbit_getLsbD_ne, Bool.or_false]
      exact Bool.and_true _
  have hhard : (0x700 : BitVec 24).getLsbD bit = false := by
    obtain ⟨-, rfl⟩ | ⟨-, rfl⟩ | ⟨-, rfl⟩ := Dev.lasting_cases h
    all_goals rfl
  have hsoft : (~~~(0x700 : BitVec 24)).getLsbD bit = true := by
    obtain ⟨-, rfl⟩ | ⟨-, rfl⟩ | ⟨-, rfl⟩ := Dev.lasting_cases h
    all_goals rfl
  unfold Dev.rawNow
  dsimp only
  split
  · rw [BitVec.getLsbD_or, BitVec.getLsbD_and, BitVec.getLsbD_and, hfollow, hhard, hsoft, Bool.and_true, Bool.and_false,
      Bool.or_false]
  · exact hfollow

/-- Bringing the points up to date leaves such a defect as it was set. -/
theorem Dev.refresh_lasting {d e : Dev} {k bit : Nat} {y : Bool × Nat} (h : d.lasting k bit = some y)
    (hex : e.pointExists (mpTyOf k) (mpIndexOf k) = true) : (e.refresh.point k).raw.getLsbD bit = (e.point k).raw.getLsbD bit := by
  have hraw : ∀ f : Dev, f.mask pointParts = e.mask pointParts → (f.rawNow k (f.point k)).getLsbD bit = (f.point k).raw.getLsbD bit :=
    fun f hf => Dev.rawNow_lasting h ((Dev.pointExists_alike hf ..).trans hex) _
  suffices hboth : e.refresh.mask pointParts = e.mask pointParts
      ∧ (e.refresh.point k).raw.getLsbD bit = (e.point k).raw.getLsbD bit from hboth.2
  unfold Dev.refresh
  refine foldl_keeps (fun f : Dev => f.mask pointParts = e.mask pointParts ∧ (f.point k).raw.getLsbD bit = (e.point k).raw.getLsbD bit)
    _ (fun f j hf => ⟨(Dev.refreshPoint_mask (by decide) f j).trans hf.1, ?_⟩) _ _ ?_
  · obtain ⟨hmask, hf⟩ := hf
    rw [Dev.refreshPoint_raw]
    split
    case isTrue hj => rw [← hj.1, hraw f hmask, hf]
    case isFalse => exact hf
  · refine foldl_keeps (fun f : Dev => f.mask pointParts = e.mask pointParts ∧ (f.point k).raw.getLsbD bit = (e.point k).raw.getLsbD bit)
      _ (fun f j hf => ?_) _ _ ⟨rfl, rfl⟩
    dsimp only
    split
    · exact hf
    · obtain ⟨hmask, hf⟩ := hf
      refine ⟨(Dev.updPoint_mask (by decide) ..).trans hmask, ?_⟩
      by_cases hj : k = j
      · rw [← hj, Dev.updPoint_point, hraw f hmask, hf]
      · rw [Dev.updPoint_point_ne _ _ hj, hf]

/-- A condition that has lasted 3 ms sets its defect, and its absence clears it. -/
theorem Dev.persists_raw {d : Dev} {k : Nat} {b : Fin 24} {on : Bool} {since : Nat} (hrole : (d.point k).role ≠ 0)
    (hex : d.pointExists (mpTyOf k) (mpIndexOf k) = true) (hlast : d.lasting k b = some (on, since))
    (hage : since + 3000000 ≤ d.now) : ((d.persists k b).point k).raw.getLsbD b = on := by
  unfold Dev.persists
  rw [if_neg (by simp [hrole, hex]), hlast]
  dsimp only
  rw [if_pos (by simpa [Dev.after] using hage),
    Dev.refresh_lasting hlast ((Dev.pointExists_alike (Dev.updPoint_mask (by decide) ..) ..).trans hex), Dev.updPoint_point]
  exact setOrClear_getLsbD ..

/-! ### The settle filter (R128, R131) -/

section
variable {d : Dev} {k b : Nat} (hrole : (d.point k).role ≠ 0) (hset : (d.point k).settling = true)
include hrole hset

theorem Dev.runDone_of_age {n : Nat} (hage : tget 0 (d.point k).changed b + n * 100000000 ≤ d.now) : d.runDone k b n = true := by
  unfold Dev.runDone
  simpa [hrole, hset, Dev.after] using hage

variable (hheld : d.pointHeld k = false)
include hheld

/-- A defect that has been detected for SET_INT is declared (R131). -/
theorem Dev.setDone_dec (hdet : (d.point k).det.getLsbD b = true)
    (hage : tget 0 (d.point k).changed b + (d.point k).setInt * 100000000 ≤ d.now) :
    ((d.setDone k b).point k).dec = (d.point k).dec ||| BitVec.ofNat 24 (2 ^ b) := by
  have hrun := Dev.runDone_of_age hrole hset hage
  unfold Dev.setDone
  dsimp only
  cases hdec : (d.point k).dec.getLsbD b
  case false =>
    rw [if_pos (by simp [hdet, hrun, hheld]), Dev.funcSays_point, Dev.declare_point, if_neg (by simp [hheld])]
  case true => rw [if_neg (by simp), or_defectBit hdec]

/-- A defect that has been absent for CLR_INT is cleared (R131). -/
theorem Dev.clrDone_dec (hdet : (d.point k).det.getLsbD b = false)
    (hage : tget 0 (d.point k).changed b + (d.point k).clrInt * 100000000 ≤ d.now) :
    ((d.clrDone k b).point k).dec = (d.point k).dec &&& ~~~BitVec.ofNat 24 (2 ^ b) := by
  have hrun := Dev.runDone_of_age hrole hset hage
  unfold Dev.clrDone
  dsimp only
  cases hdec : (d.point k).dec.getLsbD b
  case true =>
    rw [if_pos (by simp [hdet, hrun, hheld]), Dev.funcSays_point, Dev.declare_point, if_neg (by simp [hheld])]
  case false => rw [if_neg (by simp), andNot_defectBit hdec]

end

/-- A point that leaves its port's group is as it was but for that. -/
theorem Dev.ungroup_point (d : Dev) (k : Nat) : (d.ungroup k).point k = { d.point k with group := none } := by
  have hpoint := d.updPoint_point k (fun x => { x with group := none })
  unfold Dev.ungroup
  split
  case h_1 h => rw [← h]
  case h_2 =>
    dsimp only
    split
    · exact hpoint
    · rw [Dev.post_point]
      exact hpoint

/-- At the end of the recovery timer the point is in Service with the defects declared that it detects (R128). -/
theorem Dev.recovers_point {d : Dev} {k : Nat} (hrole : (d.point k).role ≠ 0) (hset : (d.point k).settling = true)
    (hheld : d.pointHeld k = false) (hage : (d.point k).recStart + (d.point k).recovery * 1000000000 ≤ d.now) :
    ((d.recovers k).point k).settling = false ∧ ((d.recovers k).point k).dec = (d.point k).det := by
  have hheld' : (d.updPoint k (fun x => { x with settling := false })).pointHeld k = false :=
    (Dev.pointHeld_alike (Dev.updPoint_mask (by decide) ..) (by rw [Dev.updPoint_point])).trans hheld
  have hpoint : ((d.updPoint k (fun x => { x with settling := false })).declare k (d.point k).det).point k
      = { d.point k with settling := false, dec := (d.point k).det } := by
    rw [Dev.declare_point, if_neg (by simp [hheld']), Dev.updPoint_point]
  unfold Dev.recovers
  dsimp only
  rw [if_neg (by simpa [hrole, hset, hheld, Dev.after] using hage)]
  split
  · rw [Dev.funcSays_point, Dev.ungroup_point, hpoint]
    exact ⟨rfl, rfl⟩
  · rw [Dev.funcSays_point, Dev.post_point, hpoint]
    exact ⟨rfl, rfl⟩

end Sys2Proof.Machine
end

section
/-! PROOF of O18, first half: the persistence of defects and the settle filter (R125, R128, R131). -/

namespace Sys2Proof.Claim

open Machine

theorem defectsPersistAndSettle : DefectsPersistAndSettle := by
  unfold DefectsPersistAndSettle
  intro s m b hl k x hrole
  refine ⟨fun on since hex hlast hage => answers_onDev rfl hl ?_, fun hset hheld => ⟨fun hdet hage => answers_onDev rfl hl ?_,
    fun hdet hage => answers_onDev rfl hl ?_, fun hage => answers_onDev rfl hl ?_⟩⟩
  · exact Dev.persists_raw hrole (by rw [mpTyOf_mpKey, mpIndexOf_mpKey]; exact hex) hlast hage
  · exact Dev.setDone_dec hrole hset hheld hdet hage
  · exact Dev.clrDone_dec hrole hset hheld hdet hage
  · exact Dev.recovers_point hrole hset hheld hage

end Sys2Proof.Claim
end

section
/-! SUPPORT. DEFECT_CFG (R143, R144): the provisioning of a point, which everything that a command sets off in it leaves as it was,
and what a legal DEFECT_CFG writes in it. -/

namespace Sys2Proof.Machine

/-! ### Keys -/

theorem mpTyOf_mpKeyOf {ty level i : Nat} (hl : level < 8) (hi : i < 8192) : mpTyOf (mpKeyOf ty level i) = ty := by
  unfold mpTyOf mpKeyOf
  omega

theorem mpIndexOf_mpKeyOf {i : Nat} (hi : i < 8192) (ty level : Nat) : mpIndexOf (mpKeyOf ty level i) = i := by
  unfold mpIndexOf mpKeyOf
  omega

theorem maxIndex_lt (ty : Nat) : maxIndex ty < 8192 := by
  unfold maxIndex
  split
  all_goals omega

/-! ### The provisioning of a point (R143) -/

/-- A point's provisioning: the parameters of section 0 and both TTIs. -/
def Point.provision (x : Point) : Point := { x.idle with act := {} }

theorem Point.provision_of_settings {x y : Point} (h : x.settings = y.settings) : x.provision = y.provision :=
  (congrArg Point.provision h :)

theorem Point.params_provision {x y : Point} (h : x.provision = y.provision) (c : Desc) (ty : Nat) :
    (x.params c ty).provision = (y.params c ty).provision :=
  (congrArg (fun z => (Point.params z c ty).provision) h :)

theorem Point.roll_provision (x : Point) (off s : Nat) : (x.roll off s).provision = x.provision := by
  unfold Point.roll
  dsimp only
  split_ifs <;> rfl

section
variable (d : Dev) (k : Nat)

theorem Dev.ungroup_provision : ((d.ungroup k).point k).provision = (d.point k).provision := by
  rw [Dev.ungroup_point]
  rfl

theorem Dev.settle_provision (cause : Nat) : ((d.settle cause k).point k).provision = (d.point k).provision := by
  have henter : ((d.enterSettling k cause).point k).provision = (d.point k).provision := by
    unfold Dev.enterSettling
    rw [Dev.ungroup_provision, Dev.updPoint_point]
    rfl
  unfold Dev.settle
  dsimp only
  split
  · rfl
  · split
    · exact henter
    · rw [Dev.post_point, henter]

theorem Dev.funcWrites_provision : ((d.funcWrites k).point k).provision = (d.point k).provision := by
  rw [Dev.funcWrites_point]
  rfl

theorem Dev.act_provision : ((d.act k).point k).provision = (d.point k).provision := Point.provision_of_settings (d.act_settings k k)

theorem Dev.refresh_provision : (d.refresh.point k).provision = (d.point k).provision :=
  Point.provision_of_settings (d.refresh_settings k)

theorem Dev.e1Start_provision (e : Nat) : ((d.e1Start e).point k).provision = (d.point k).provision := by
  have hhold : ∀ (f : Dev) p ws, (f.frHold p ws).point k = f.point k := fun _ _ _ => rfl
  have hupd : ∀ (f : Dev) g, (f.updE1 e g).point k = f.point k := fun _ _ => rfl
  unfold Dev.e1Start
  dsimp only
  rw [hhold]
  split
  · rw [Dev.refresh_provision, hupd]
  · unfold Dev.e1Oof
    dsimp only
    rw [hupd, Dev.refresh_provision, hupd]

theorem Dev.expose_point (j : Nat) : d.expose.point j = d.point j :=
  Dev.point_of_mask (Dev.expose_mask (T := [.regs, .plane, .host, .jersey]) (by decide) d) (by decide) j

theorem Dev.tell_point (cls slice : Nat) (e : Option Nat) (j : Nat) : (d.tell cls slice e).point j = d.point j :=
  Dev.point_of_mask (Dev.tell_mask (T := [.regs, .queues, .host, .jersey, .mx, .fresh]) (by decide) d cls slice e) (by decide) j

theorem Dev.complete_point (op jid : Nat) (r : Done) (j : Nat) : (d.complete op jid r).point j = d.point j :=
  Dev.point_of_mask (Dev.complete_mask (T := [.regs, .host, .jersey]) (by decide) d op jid r) (by decide) j

end

/-- A step that is taken only where it is called for keeps the provisioning that each of the two cases keeps. -/
theorem provision_ite {p : Prop} [Decidable p] {a b : Dev} {k : Nat} {z : Point} (ha : (a.point k).provision = z)
    (hb : (b.point k).provision = z) : ((if p then a else b).point k).provision = z := by
  split
  · exact ha
  · exact hb

/-! ### Section 0 (R143, R144) -/

/-- Section 0 is legal for point `k`: its fields are in range, and where it gives the point a function the point's object is there,
and stays there, and an engine has room (R115, R123, R134, R143). -/
structure Dev.ParamsLegal (d : Dev) (c : Desc) (k : Nat) : Prop where
  ctrl : c.u8 5 % 4 ≤ 2 ∧ c.u8 5 < 16
  timMode : c.u8 6 ≤ 3 ∧ d.timOk (mpTyOf k) (mpIndexOf k) (c.u8 6) = true
  framing : if mpTyOf k = 8 then c.u8 7 ≤ 3 else c.u8 7 = 0
  maint : c.u8 9 ≤ 3 ∧ maintOk (mpTyOf k) (c.u8 9) (c.u8 5 % 4) = true
  degm : 2 ≤ c.u8 10 ∧ c.u8 10 ≤ 10
  sesPct : c.u8 11 ≤ 100
  degThr : c.u8 15 = 0
  setInt : 1 ≤ c.u16 16 ∧ c.u16 16 ≤ 100
  clrInt : 1 ≤ c.u16 18 ∧ c.u16 18 ≤ 600
  recovery : 1 ≤ c.u16 20 ∧ c.u16 20 ≤ 600
  reserved : ∀ i, 22 ≤ i → i ≤ 55 → i < 24 ∨ 34 ≤ i → c.u8 i = 0
  object : c.u8 5 % 4 = 0 ∨ d.pointExists (mpTyOf k) (mpIndexOf k) = true ∧ d.planned.pointExists (mpTyOf k) (mpIndexOf k) = true
  room : (d.point k).role = 0 → c.u8 5 % 4 ≠ 0 →
    (d.allocate (d.pointSlice k) (d.pointLoad k).1 (d.pointLoad k).2).isSome = true

theorem within_ok {off x lo hi : Nat} (h : lo ≤ x ∧ x ≤ hi) : (within off x lo hi).2 = true := by
  simp [within, h.1, h.2]

/-- What section 0 writes in its point, `rise` where ROLE leaves 0, `fall` where it returns to it, and `turn` where it changes,
keeps the provisioning of the point with the new parameters. -/
theorem Point.given_provision {y : Point} {rise fall turn : Prop} [Decidable rise] [Decidable fall] [Decidable turn]
    (engine : Option Nat) (bin15 bin24 : Bin) (off s : Nat) :
    (if rise then { y.idle with engine := engine, cur15 := bin15, cur24 := bin24 } else if fall then y.idle
      else if turn then (y.roll off s).suspects else y : Point).provision = y.provision := by
  split_ifs
  case pos => rfl
  case pos => rfl
  case pos => exact y.roll_provision off s
  case neg => rfl

/-- A legal section 0 puts its parameters in force, whatever it sets off (R115, R130, R144). -/
theorem defectParams_legal {d : Dev} {c : Desc} {k : Nat} (h : d.ParamsLegal c k) (j : Nat) :
    ∃ e, defectParams c k d j = ran e ∧ (e.point k).provision = ((d.point k).params c (mpTyOf k)).provision := by
  unfold defectParams
  dsimp only
  rw [checked_ok]
  · by_cases hsame : (decide (d.point k = (d.point k).params c (mpTyOf k)) && !c.bit 5 3) = true
    case pos =>
      have hpoint : d.point k = (d.point k).params c (mpTyOf k) := of_decide_eq_true ((Bool.and_eq_true ..).mp hsame).1
      rw [if_pos hsame]
      exact ⟨d, rfl, congrArg Point.provision hpoint⟩
    case neg =>
      rw [if_neg hsame, need_ok (by simpa using h.object), need_ok]
      · refine ⟨_, rfl, ?_⟩
        rw [Dev.tell_point, Dev.expose_point, Dev.refresh_provision, provision_ite (Dev.act_provision ..) rfl,
          provision_ite rfl (Dev.funcWrites_provision ..),
          provision_ite (Dev.settle_provision ..) (provision_ite (Dev.settle_provision ..) rfl),
          provision_ite (Dev.e1Start_provision ..) rfl, Dev.updPoint_point, Point.given_provision]
        exact Point.params_provision (provision_ite (Dev.ungroup_provision ..) rfl) c _
      · cases hrise : decide ((d.point k).role = 0) && decide (c.u8 5 % 4 ≠ 0)
        case false => rfl
        case true =>
          obtain ⟨hoff, hon⟩ := (Bool.and_eq_true ..).mp hrise
          exact h.room (of_decide_eq_true hoff) (of_decide_eq_true hon)
  · have hframing : (if mpTyOf k = 8 then decide (c.u8 7 ≤ 3) else decide (c.u8 7 = 0)) = true := by
      have := h.framing
      split <;> simp_all
    simp only [List.forall_mem_cons]
    exact ⟨by simpa using h.ctrl, by simpa using h.timMode, hframing, by simpa using h.maint, within_ok h.degm,
      decide_eq_true h.sesPct, decide_eq_true h.degThr, within_ok h.setInt, within_ok h.clrInt, within_ok h.recovery,
      zeros_ok fun i lo hi => h.reserved i lo (by omega) (.inl (by omega)),
      zeros_ok fun i lo hi => h.reserved i (by omega) hi (.inr lo), List.forall_mem_nil _⟩

/-! ### Sections 1 to 4 (R123, R144) -/

/-- A TTI of a point in TIM_MODE `mode` with the bytes that a section gives it. -/
def ttiGiven (c : Desc) (ty mode : Nat) (t : List Byte) : List Byte :=
  patchBytes ((t ++ le 64 0).take 64) (if c.u8 1 = 3 ∨ c.u8 1 = 4 then 32 else 0)
    (c.bytes 8 (if c.u8 1 ≤ 2 ∧ 4 ≤ ty ∧ mode ≠ 3 then 16 else 32))

/-- A legal section 1 to 4 writes its TTI bytes, whatever it sets off (R130, R144). -/
theorem defectTti_legal {d : Dev} {c : Desc} {k : Nat} (hsec : 1 ≤ c.u8 1 ∧ c.u8 1 ≤ 4)
    (hz : ∀ i, 5 ≤ i → i ≤ 55 → i < 8 ∨ 40 ≤ i → c.u8 i = 0) (j : Nat) :
    ∃ e, defectTti c k d j = ran e ∧ (e.point k).provision = ((if c.u8 1 = 2 ∨ c.u8 1 = 3
      then { d.point k with txTti := ttiGiven c (mpTyOf k) (d.point k).timMode (d.point k).txTti }
      else { d.point k with expTti := ttiGiven c (mpTyOf k) (d.point k).timMode (d.point k).expTti } : Point)).provision := by
  have hoff : (if (decide (c.u8 1 = 3) || decide (c.u8 1 = 4)) = true then 32 else 0) = if c.u8 1 = 3 ∨ c.u8 1 = 4 then 32 else 0 := by
    simp
  have hlen : (if (decide ((if c.u8 1 = 3 ∨ c.u8 1 = 4 then 32 else 0) = 0) && decide (4 ≤ mpTyOf k)
      && decide ((d.point k).timMode ≠ 3)) = true then 16 else 32) = if c.u8 1 ≤ 2 ∧ 4 ≤ mpTyOf k ∧ (d.point k).timMode ≠ 3 then 16 else 32 := by
    have hfirst : ¬ (c.u8 1 = 3 ∨ c.u8 1 = 4) ↔ c.u8 1 ≤ 2 := by omega
    simp [← hfirst, and_assoc]
  unfold defectTti
  dsimp only
  rw [hoff, hlen, checked_ok]
  · by_cases hsent : c.u8 1 = 2 ∨ c.u8 1 = 3
    · rw [if_pos (by simpa using hsent), if_pos hsent]
      refine ⟨_, rfl, ?_⟩
      rw [Dev.tell_point, provision_ite rfl (Dev.funcWrites_provision ..), Dev.updPoint_point]
      rfl
    · rw [if_neg (by simpa using hsent), if_neg hsent]
      refine ⟨_, rfl, ?_⟩
      rw [Dev.tell_point, provision_ite rfl (Dev.funcWrites_provision ..),
        provision_ite rfl ((Dev.refresh_provision ..).trans (Dev.settle_provision ..)), Dev.updPoint_point]
      rfl
  · simp only [List.forall_mem_cons]
    exact ⟨zeros_ok fun i lo hi => hz i lo (by omega) (.inl (by omega)), zeros_ok fun i lo hi => hz i (by omega) hi (.inr lo),
      List.forall_mem_nil _⟩

/-! ### The command -/

theorem Dev.setDayOffset_dayOffset (d : Dev) (off : Nat) : (d.setDayOffset off).dayOffset = off := by
  unfold Dev.setDayOffset
  split
  case isTrue h => exact h
  case isFalse =>
    refine foldl_keeps (fun e : Dev => e.dayOffset = off) _ (fun e k he => ?_) _ _ rfl
    dsimp only
    split
    · exact he
    · exact he

section
variable {c : Desc} (d : Dev) (j : Nat) (hlevel : if c.u8 0 = 3 then 1 ≤ c.u8 4 ∧ c.u8 4 ≤ 6 else c.u8 4 = 0)
include hlevel

/-- The fields that name a point are right: DEFECT_CFG goes on with its section (R143). -/
theorem defectCfg_checks (hty : c.u8 0 ≤ 8) (hsec : c.u8 1 ≤ 4 ∧ (c.u8 0 ≠ 0 ∨ c.u8 1 = 0)) (hidx : c.u16 2 ≤ maxIndex (c.u8 0))
    {α : Type} (r : Except Done α) :
    checked [ atMost 0 (c.u8 0) 8, (1, c.u8 1 ≤ 4 && (c.u8 0 ≠ 0 || c.u8 1 = 0)), atMost 2 (c.u16 2) (maxIndex (c.u8 0))
      , (4, if c.u8 0 = 3 then 1 ≤ c.u8 4 && c.u8 4 ≤ 6 else c.u8 4 = 0) ] r = r := by
  refine checked_ok ?_ r
  have hlevel' : (if c.u8 0 = 3 then decide (1 ≤ c.u8 4) && decide (c.u8 4 ≤ 6) else decide (c.u8 4 = 0)) = true := by
    split <;> simp_all
  simp only [List.forall_mem_cons]
  exact ⟨decide_eq_true hty, by simpa using hsec, decide_eq_true hidx, hlevel', List.forall_mem_nil _⟩

theorem defectCfg_dayOffset (hty : c.u8 0 = 0) (hsec : c.u8 1 = 0) (hidx : c.u16 2 = 0)
    (hz : ∀ i, 5 ≤ i → i ≤ 55 → i < 12 ∨ 16 ≤ i → c.u8 i = 0) (hoff : c.u32 12 ≤ 86399) :
    defectCfg c d j = ran (d.setDayOffset (c.u32 12)) := by
  unfold defectCfg
  dsimp only
  rw [defectCfg_checks hlevel (by omega) ⟨by omega, .inr hsec⟩ (by omega), if_pos hty, checked_ok]
  simp only [List.forall_mem_cons]
  exact ⟨zeros_ok fun i lo hi => hz i lo (by omega) (.inl (by omega)), decide_eq_true hoff,
    zeros_ok fun i lo hi => hz i (by omega) hi (.inr lo), List.forall_mem_nil _⟩

theorem defectCfg_point (hty : 1 ≤ c.u8 0 ∧ c.u8 0 ≤ 8) (hidx : c.u16 2 ≤ maxIndex (c.u8 0)) (hsec : c.u8 1 ≤ 4) :
    defectCfg c d j = if c.u8 1 = 0 then defectParams c (mpKeyOf (c.u8 0) (c.u8 4) (c.u16 2)) d j
      else defectTti c (mpKeyOf (c.u8 0) (c.u8 4) (c.u16 2)) d j := by
  unfold defectCfg
  dsimp only
  rw [defectCfg_checks hlevel hty.2 ⟨hsec, .inl (by omega)⟩ hidx, if_neg (by omega)]

end

/-! ### The descriptor's device -/

/-- The structure that the waiting creates and deletes will leave has to do with neither the registers nor the host interface. -/
theorem Dev.planned_mask (d : Dev) : (d.mask [.regs, .host]).planned = d.planned.mask [.regs, .host] :=
  List.foldl_hom (Dev.mask [.regs, .host]) (fun _ _ => rfl)

theorem Dev.ParamsLegal.opened {d : Dev} {c : Desc} {k : Nat} (h : d.ParamsLegal c k) (op : Nat) (c' : Desc) :
    (d.opened op c').ParamsLegal c k := by
  have hmask : (d.opened op c').mask [.regs, .host] = d.mask [.regs, .host] := Dev.opened_mask (by decide) d op c'
  have hplanned : (d.opened op c').planned.mask [.regs, .host] = d.planned.mask [.regs, .host] := by
    rw [← Dev.planned_mask, hmask, Dev.planned_mask]
  have hpoint : (d.opened op c').point k = d.point k := Dev.point_of_mask hmask (by decide) k
  have hexists : ∀ {a b : Dev}, a.mask [.regs, .host] = b.mask [.regs, .host] → ∀ ty i, a.pointExists ty i = b.pointExists ty i :=
    fun hab => Dev.pointExists_alike (Dev.mask_mono (by decide) hab)
  have htim : ∀ ty i m, (d.opened op c').timOk ty i m = d.timOk ty i m := fun ty i m => by
    show ((d.opened op c').mask [.regs, .host]).timOk ty i m = (d.mask [.regs, .host]).timOk ty i m
    rw [hmask]
  have hroom : (d.opened op c').allocate ((d.opened op c').pointSlice k) ((d.opened op c').pointLoad k).1 ((d.opened op c').pointLoad k).2
      = d.allocate (d.pointSlice k) (d.pointLoad k).1 (d.pointLoad k).2 := by
    show ((d.opened op c').mask [.regs, .host]).allocate (((d.opened op c').mask [.regs, .host]).pointSlice k)
      (((d.opened op c').mask [.regs, .host]).pointLoad k).1 (((d.opened op c').mask [.regs, .host]).pointLoad k).2 = _
    rw [hmask]
    rfl
  refine { h with timMode := ?_, object := ?_, room := ?_ }
  · rw [htim]
    exact h.timMode
  · rw [hexists hmask, hexists hplanned]
    exact h.object
  · rw [hpoint, hroom]
    exact h.room

end Sys2Proof.Machine
end

section
/-! PROOF of O18, second half: DEFECT_CFG (R143, R144), and the two halves together. -/

namespace Sys2Proof.Claim

open Machine

/-- What a point reads as after a DEFECT_CFG that its own rule completes with its provisioning as in `z`. -/
theorem answers_defectCfg {s : State} {c : Desc} (hs : Served 0x12 c s.dev) {k : Nat} {z : Point} {P : State → Prop}
    (hr : ∃ e, defectCfg c (s.dev.opened 0x12 c) s.dev.host.nextJob = ran e ∧ (e.point k).provision = z.provision)
    (hP : ∀ t : State, (t.dev.point k).provision = z.provision → P t) : Answers (.defectCfg c) s P := by
  obtain ⟨e, hran, hz⟩ := hr
  exact answers_hostRow rfl hs hran (hP _ (by rw [Dev.complete_point, hz]))

theorem defectCfgSetsItsPoint : DefectCfgSetsItsPoint := by
  unfold DefectCfgSetsItsPoint
  intro s c hs ty role k x hlevel
  have hpoint : (s.dev.opened 0x12 c).point k = x :=
    Dev.point_of_mask (Dev.opened_mask (T := [.regs, .host]) (by decide) s.dev 0x12 c) (by decide) k
  refine ⟨fun hty hsec hidx hz hoff => ?_, fun hty hty' hidx => ?_⟩
  · refine answers_hostRow rfl hs (defectCfg_dayOffset _ _ hlevel hty hsec hidx hz hoff) ?_
    dsimp only
    rw [Dev.dayOffset_of_mask (Dev.complete_mask (T := [.regs, .host, .jersey]) (by decide) ..) (by decide),
      Dev.setDayOffset_dayOffset]
  have hindex : c.u16 2 < 8192 := Nat.lt_of_le_of_lt hidx (maxIndex_lt ty)
  have hl : c.u8 4 < 8 := by
    split at hlevel
    all_goals omega
  have htyk : mpTyOf k = ty := mpTyOf_mpKeyOf hl hindex
  have hidxk : mpIndexOf k = c.u16 2 := mpIndexOf_mpKeyOf hindex ty (c.u8 4)
  refine ⟨fun hsec hrole h5 h6 htim h7 h9 hmaint h10 h10' h11 h15 h16 h16' h18 h18' h20 h20' hz hobj hroom => ?_,
    fun hsec hsec' hz => ?_⟩
  · have hlegal : s.dev.ParamsLegal c k :=
      { ctrl := ⟨hrole, h5⟩, timMode := ⟨h6, by rw [htyk, hidxk]; exact htim⟩, framing := by rw [htyk]; exact h7
        maint := ⟨h9, by rw [htyk]; exact hmaint⟩, degm := ⟨h10, h10'⟩, sesPct := h11, degThr := h15, setInt := ⟨h16, h16'⟩
        clrInt := ⟨h18, h18'⟩, recovery := ⟨h20, h20'⟩, reserved := hz, object := by rw [htyk, hidxk]; exact hobj, room := hroom }
    refine answers_defectCfg hs (k := k) (z := x.params c ty) ?_ fun t ht => ?_
    · rw [defectCfg_point _ _ hlevel ⟨hty, hty'⟩ hidx (by omega), if_pos hsec, ← hpoint, ← htyk]
      exact defectParams_legal (hlegal.opened 0x12 c) _
    · exact ⟨(congrArg Point.role ht :), (congrArg Point.timAct ht :), (congrArg Point.timMode ht :),
        fun h8 => (congrArg Point.e1Framing ht).trans (if_pos h8), (congrArg Point.expPt ht :), (congrArg Point.maint ht :),
        (congrArg Point.degm ht :), (congrArg Point.sesPct ht :), (congrArg Point.degThr ht :), (congrArg Point.setInt ht :),
        (congrArg Point.clrInt ht :), (congrArg Point.recovery ht :), (congrArg Point.tca ht :)⟩
  · refine answers_defectCfg hs (k := k) (z := if c.u8 1 = 2 ∨ c.u8 1 = 3
      then { x with txTti := ttiGiven c ty x.timMode x.txTti } else { x with expTti := ttiGiven c ty x.timMode x.expTti }) ?_ fun t ht => ?_
    · rw [defectCfg_point _ _ hlevel ⟨hty, hty'⟩ hidx hsec', if_neg (by omega), ← hpoint, ← htyk]
      exact defectTti_legal ⟨hsec, hsec'⟩ hz _
    · dsimp only
      by_cases hsent : c.u8 1 = 2 ∨ c.u8 1 = 3
      · rw [if_pos hsent] at ht
        rw [if_pos hsent, if_pos hsent]
        exact congrArg Point.txTti ht
      · rw [if_neg hsent] at ht
        rw [if_neg hsent, if_neg hsent]
        exact congrArg Point.expTti ht

/-- Settles O18: the life of a defect, and DEFECT_CFG. -/
theorem pointsDeclareAndSettle : Obligations.PointsDeclareAndSettle := ⟨defectsPersistAndSettle, defectCfgSetsItsPoint⟩

end Sys2Proof.Claim
end

section
/-! SUPPORT. Frames offered to a packet queue (R257–R259): the free cells that a frame gets, and its place in its queue, which no
later decision takes from it. -/

namespace Sys2Proof.Machine

/-! ### Free cells and blocks (R257) -/

theorem lowestFree_free {used : List Nat} {c : Nat} (fuel k n : Nat) (h : c ∈ lowestFree used fuel k n) : c ∉ used := by
  fun_induction lowestFree used fuel k n with
  | case1 => cases h
  | case2 => cases h
  | case3 fuel k n hn ih => exact ih h
  | case4 fuel k n hn ih =>
    obtain rfl | h := List.mem_cons.mp h
    · simpa using hn
    · exact ih h

/-- A number in use is one fewer in use above it. -/
theorem usedFrom_lt {used : List Nat} {n : Nat} (h : n ∈ used) :
    (used.filter fun u => n + 1 ≤ u).length < (used.filter fun u => n ≤ u).length := by
  have hsplit : (used.filter fun u => n + 1 ≤ u) = (used.filter fun u => n ≤ u).filter fun u => n + 1 ≤ u := by
    rw [List.filter_filter]
    exact List.filter_congr fun u _ => by rw [← Bool.decide_and]; exact decide_eq_decide.mpr (by omega)
  rw [hsplit, List.length_filter_lt_length_iff_exists]
  exact ⟨n, List.mem_filter.mpr ⟨h, by simp⟩, by simp⟩

theorem usedFrom_le (used : List Nat) (n : Nat) :
    (used.filter fun u => n + 1 ≤ u).length ≤ (used.filter fun u => n ≤ u).length :=
  (List.monotone_filter_right used fun u hu => by simp at hu ⊢; omega).length_le

/-- A search that may pass over every number in use finds as many as it is to. -/
theorem lowestFree_length {used : List Nat} (fuel k n : Nat) (h : (used.filter fun u => n ≤ u).length + k ≤ fuel) :
    (lowestFree used fuel k n).length = k := by
  fun_induction lowestFree used fuel k n with
  | case1 k n => simp only [List.length_nil]; omega
  | case2 => rfl
  | case3 fuel k n hn ih =>
    have := usedFrom_lt (List.contains_iff_mem.mp hn)
    exact ih (by omega)
  | case4 fuel k n hn ih =>
    have := usedFrom_le used n
    rw [List.length_cons, ih (by omega)]

/-! ### Queues (R258, R259) -/

theorem mem_placeFrame_self (f : PFrame) (l : List PFrame) : f ∈ placeFrame f l := by
  induction l with
  | nil => exact List.mem_cons_self
  | cons x xs ih =>
    unfold placeFrame
    split
    · exact List.mem_cons_self
    · exact List.mem_cons_of_mem _ ih

theorem mem_placeFrame {g : PFrame} {l : List PFrame} (h : g ∈ l) (f : PFrame) : g ∈ placeFrame f l := by
  induction l with
  | nil => cases h
  | cons x xs ih =>
    unfold placeFrame
    split
    · exact List.mem_cons_of_mem _ h
    · obtain rfl | h := List.mem_cons.mp h
      · exact List.mem_cons_self
      · exact List.mem_cons_of_mem _ (ih h)

theorem Dev.admits_iff (d : Dev) (q n : Nat) : d.admits q n = true ↔ Claim.Admits d q n := by
  simp only [Dev.admits, Claim.Admits, Bool.and_eq_true, Bool.or_eq_true, decide_eq_true_eq, Bool.not_eq_true', and_assoc]

theorem Dev.tailDrop_frames (d : Dev) (r q : Nat) : ((d.tailDrop r).pq q).frames = (d.pq q).frames := by
  unfold Dev.tailDrop
  dsimp only
  rw [Dev.pq_of_mask (Dev.raise_mask (T := [.regs, .host, .jersey]) (by decide) ..) (by decide),
    Dev.pq_of_mask (Dev.count_mask (T := [.regs]) (by decide) ..) (by decide)]
  by_cases h : q = r
  · subst h
    rw [Dev.updPq_pq]
    split <;> rfl
  · rw [Dev.updPq_pq_ne _ _ h]

/-- A frame that a queue holds stays there while others are decided. -/
theorem Dev.admitFrame_keeps {d : Dev} {q : Nat} {g : PFrame} (h : g ∈ (d.pq q).frames) (r : Nat) (f : PFrame) :
    g ∈ ((d.admitFrame r f).pq q).frames := by
  unfold Dev.admitFrame
  split
  · by_cases hq : q = r
    · subst hq
      rw [Dev.updPq_pq]
      exact mem_placeFrame h f
    · rwa [Dev.updPq_pq_ne _ _ hq]
  · rwa [Dev.tailDrop_frames]

theorem Dev.admitFrame_places {d : Dev} {q : Nat} {f : PFrame} (h : d.admits q (cellsOf f.len) = true) :
    ((d.admitFrame q f).pq q).frames = placeFrame f (d.pq q).frames := by
  unfold Dev.admitFrame
  rw [if_pos h, Dev.updPq_pq]

theorem Dev.poolWatch_pq (d : Dev) (before : Int) (q : Nat) : (d.poolWatch before).pq q = d.pq q :=
  Dev.pq_of_mask (Dev.poolWatch_mask (T := [.regs, .host, .jersey]) (by decide) d before) (by decide) q

/-- The frame that an offer of `n` bytes without their FCS makes: its cells are the lowest that hold nothing. -/
def Dev.offered (d : Dev) (n key : Nat) : PFrame :=
  { len := n + 4, cells := lowestFree d.usedCells (d.usedCells.length + cellsOf (n + 4)) (cellsOf (n + 4)) 0, at_ := d.now, key := key }

theorem Dev.offered_cells_length (d : Dev) (n key : Nat) : (d.offered n key).cells.length = cellsOf (n + 4) :=
  lowestFree_length _ _ _ (Nat.add_le_add_right (List.length_filter_le _ _) _)

theorem Dev.offered_cells_free {d : Dev} {n key c : Nat} (h : c ∈ (d.offered n key).cells) : c ∉ d.usedCells :=
  lowestFree_free _ _ _ h

section
variable {d : Dev} {q key : Nat} {bs : List Byte} (bad : List Nat) (slice : Option Nat) (mem : List Host.Cell)
  (h : Claim.Fits d q (bs.length + 4) key)
include h

theorem Dev.offer_pq : ((d.offer q bs bad slice key mem).1.pq q).frames = (((d.behind key).foldl (fun d x => d.admitFrame x.1 x.2)
    ((d.withoutBehind key).admitFrame q (d.offered bs.length key))).pq q).frames
    ∧ (((d.withoutBehind key).admitFrame q (d.offered bs.length key)).pq q).frames
      = placeFrame (d.offered bs.length key) ((d.withoutBehind key).pq q).frames :=
  ⟨congrArg PQueue.frames (Dev.poolWatch_pq _ _ q), Dev.admitFrame_places ((Dev.admits_iff ..).mpr h)⟩

/-- A frame that fits stands in its queue, whatever is decided after it. -/
theorem Dev.offer_holds : d.offered bs.length key ∈ ((d.offer q bs bad slice key mem).1.pq q).frames := by
  obtain ⟨hoffer, hplace⟩ := Dev.offer_pq bad slice mem h
  rw [hoffer]
  refine foldl_keeps (fun e : Dev => d.offered bs.length key ∈ (e.pq q).frames) _ (fun e x hx => Dev.admitFrame_keeps hx _ _) _ _ ?_
  rw [hplace]
  exact mem_placeFrame_self _ _

theorem Dev.offer_places (hb : d.behind key = []) :
    ((d.offer q bs bad slice key mem).1.pq q).frames = placeFrame (d.offered bs.length key) (d.pq q).frames := by
  obtain ⟨hoffer, hplace⟩ := Dev.offer_pq bad slice mem h
  rw [hoffer, hb, List.foldl_nil, hplace, Dev.withoutBehind, hb, List.foldl_nil]

end

/-! ### What an offer looks at -/

theorem Dev.mask_withoutBehind (d : Dev) (key : Nat) :
    (d.mask [.regs, .odus]).withoutBehind key = (d.withoutBehind key).mask [.regs, .odus] :=
  List.foldl_hom (fun d : Dev => d.mask [.regs, .odus]) fun _ _ => rfl

/-- Whether a frame fits, its cells, and what stands behind it do not rest on registers or ODUs. -/
theorem fits_congr {d e : Dev} (h : d.mask [.regs, .odus] = e.mask [.regs, .odus]) {q n key : Nat} (hf : Claim.Fits e q n key) :
    Claim.Fits d q n key := by
  have key' : ∀ a : Dev, Claim.Fits a q n key = Claim.Fits (a.mask [.regs, .odus]) q n key := fun a => by
    unfold Claim.Fits
    rw [Dev.mask_withoutBehind]
    rfl
  rwa [key', h, ← key']

/-- An offer to a device that is the state's but for registers and ODUs: the state's queue takes the frame. -/
theorem takes_of_offer {s t : State} {d : Dev} {q key : Nat} {bs : List Byte} {bad : List Nat} {slice : Option Nat}
    {mem : List Host.Cell} (hd : d.mask [.regs, .odus] = s.dev.mask [.regs, .odus]) (hf : Claim.Fits s.dev q (bs.length + 4) key)
    (ht : t.dev = (d.offer q bs bad slice key mem).1) : Claim.Takes s t q bs key := by
  have hf' := fits_congr hd hf
  have hused : d.usedCells = s.dev.usedCells := (congrArg Dev.usedCells hd :)
  have hbehind : d.behind key = s.dev.behind key := (congrArg (Dev.behind · key) hd :)
  have hoffered : d.offered bs.length key = s.dev.offered bs.length key := (congrArg (Dev.offered · bs.length key) hd :)
  have hq : d.pq q = s.dev.pq q := Dev.pq_of_mask hd (by decide) q
  refine ⟨(s.dev.offered bs.length key).cells, Dev.offered_cells_length .., fun c => Dev.offered_cells_free, ?_, fun hb => ?_⟩
  · have hmem := Dev.offer_holds bad slice mem hf'
    rw [hoffered] at hmem
    rwa [ht]
  · rw [ht, Dev.offer_places bad slice mem hf' (hbehind.trans hb), hoffered, hq]
    rfl

end Sys2Proof.Machine
end

section
/-! SUPPORT. The events and rate alarms of an ODU and of a lower-order entry (R177, R183): what they write in the object, and that
they add to the record of what has been sent. -/

namespace Sys2Proof.Machine

/-! ### ODUs -/

/-- An ODU without its record of posted events. -/
def Odu.unposted (x : Odu) : Odu := { x with posted := [] }

/-- An ODU without its alarm and its record of posted events. -/
def Odu.unalarmed (x : Odu) : Odu := { x with posted := [], rateAlarm := false, inRange := 0 }

theorem Odu.unalarmed_of_unposted {x y : Odu} (h : x.unposted = y.unposted) : x.unalarmed = y.unalarmed :=
  (congrArg Odu.unalarmed h :)

section
variable {d : Dev} {o : Nat} {x : Odu}

theorem Dev.post_odu (d : Dev) (code : Nat) (args : List Byte) (k : Nat) : (d.post code args).odu k = d.odu k :=
  Dev.odu_of_mask (Dev.post_mask (T := [.regs, .host, .jersey]) (by decide) d code args) (by decide) k

theorem Dev.updOdu_some (hx : d.odu o = some x) (f : Odu → Odu) : (d.updOdu o f).odu o = some (f x) := by
  rw [Dev.updOdu_odu, hx]; rfl

theorem Dev.oduPost_odu (hx : d.odu o = some x) (code : Nat) :
    ∃ y, (d.oduPost o code).odu o = some y ∧ y.unposted = x.unposted := by
  unfold Dev.oduPost
  rw [hx]
  dsimp only
  split
  · exact ⟨_, (Dev.post_odu ..).trans (Dev.updOdu_some hx _), rfl⟩
  · exact ⟨x, hx, rfl⟩

theorem Dev.oduAlarm_odu (hx : d.odu o = some x) :
    ∃ y, (d.oduAlarm o).odu o = some y ∧ y.unalarmed = x.unalarmed ∧ y.rateAlarm = true ∧ y.inRange = d.now := by
  have hset := Dev.updOdu_some hx (fun x => { x with rateAlarm := true, inRange := d.now })
  unfold Dev.oduAlarm
  rw [hx]
  dsimp only
  split
  · exact ⟨_, hset, rfl, rfl, rfl⟩
  · obtain ⟨y, hy, hkeep⟩ := Dev.oduPost_odu hset 0x1401
    exact ⟨y, hy, (congrArg Odu.unalarmed hkeep :), (congrArg Odu.rateAlarm hkeep :), (congrArg Odu.inRange hkeep :)⟩

/-- A limit that a mapper's store meets keeps an alarm of this instant. -/
theorem Dev.oduLimit_odu (hx : d.odu o = some x) (more less : Nat) : ∃ y, (d.oduLimit o more less).odu o = some y
    ∧ y.unalarmed = x.unalarmed ∧ (x.rateAlarm = true ∧ x.inRange = d.now → y.rateAlarm = true ∧ y.inRange = d.now) := by
  unfold Dev.oduLimit
  split
  · exact ⟨x, hx, rfl, id⟩
  · obtain ⟨y, hy, hkeep, halarm⟩ := Dev.oduAlarm_odu (d := d.emit (.rateLimit true o more less)) hx
    exact ⟨y, hy, hkeep, fun _ => halarm⟩

theorem Dev.oduPost_out (d : Dev) (o code : Nat) : d.host.out <:+ (d.oduPost o code).host.out := by
  unfold Dev.oduPost
  split
  · split
    · exact Dev.post_out (d.updOdu o _) ..
    · exact List.suffix_rfl
  · exact List.suffix_rfl

theorem Dev.oduAlarm_out (d : Dev) (o : Nat) : d.host.out <:+ (d.oduAlarm o).host.out := by
  unfold Dev.oduAlarm
  split
  · dsimp only
    split
    · exact List.suffix_rfl
    · exact Dev.oduPost_out (d.updOdu o _) ..
  · exact List.suffix_rfl

theorem Dev.oduLimit_out (d : Dev) (o more less : Nat) : d.host.out <:+ (d.oduLimit o more less).host.out := by
  unfold Dev.oduLimit
  split
  · exact List.suffix_rfl
  · exact (List.suffix_cons _ _).trans (Dev.oduAlarm_out (d.emit _) o)

end

/-! ### Lower-order entries -/

/-- An entry without its record of posted events. -/
def Lo.unposted (x : Lo) : Lo := { x with posted := [] }

/-- An entry without its alarm and its record of posted events. -/
def Lo.unalarmed (x : Lo) : Lo := { x with posted := [], rateAlarm := false, inRange := 0 }

theorem Lo.unalarmed_of_unposted {x y : Lo} (h : x.unposted = y.unposted) : x.unalarmed = y.unalarmed :=
  (congrArg Lo.unalarmed h :)

section
variable (d : Dev) (e : Nat)

theorem Dev.loPost_lo (code : Nat) : ((d.loPost e code).lo e).unposted = (d.lo e).unposted := by
  unfold Dev.loPost
  split
  · rw [Dev.lo_of_mask (Dev.post_mask (T := [.regs, .host, .jersey]) (by decide) ..) (by decide), Dev.updLo_lo]
    rfl
  · rfl

theorem Dev.loAlarm_lo : ((d.loAlarm e).lo e).unalarmed = (d.lo e).unalarmed := by
  have hset : ((d.updLo e fun x => { x with rateAlarm := true, inRange := d.now }).lo e).unalarmed = (d.lo e).unalarmed := by
    rw [Dev.updLo_lo]; rfl
  unfold Dev.loAlarm
  dsimp only
  split
  · exact hset
  · exact (Lo.unalarmed_of_unposted (Dev.loPost_lo ..)).trans hset

theorem Dev.loPost_out (code : Nat) : d.host.out <:+ (d.loPost e code).host.out := by
  unfold Dev.loPost
  split
  · exact Dev.post_out (d.updLo e _) ..
  · exact List.suffix_rfl

theorem Dev.loAlarm_out : d.host.out <:+ (d.loAlarm e).host.out := by
  unfold Dev.loAlarm
  dsimp only
  split
  · exact List.suffix_rfl
  · exact Dev.loPost_out (d.updLo e _) ..

end

end Sys2Proof.Machine
end

section
/-! SUPPORT. The MAC and the GFP-F delineator (R168–R170, R249–R253): what becomes of a received frame by the check that it fails, or
by the flow entry that it matches, and where a core header takes the delineator. -/

namespace Sys2Proof.Machine

/-! ### The MAC (R68, R69, R249–R253) -/

section
variable {d : Dev} {i : Nat} {f : MacRx} (mem : List Host.Cell)

theorem Dev.macRx_unaligned (hi : i ≤ 63) (ha : (d.port i).astate ≠ .aligned) : d.macRx i f mem = (d, mem) := by
  unfold Dev.macRx
  split
  · rfl
  · exact if_pos (by simp [ha]; omega)

/-- A source that takes frames: a packet ODU, or an ALIGNED port that is not on hold (R69). -/
def Dev.takesFrames (d : Dev) (i : Nat) : Prop :=
  d.ingressExists i = true ∧ (i < 4096 → (d.port i).onHold = false ∧ (d.port i).astate = .aligned)

theorem Dev.takesFrames.open {d : Dev} {i : Nat} (h : d.takesFrames i) :
    (decide (i < 4096) && ((d.port i).onHold || decide ((d.port i).astate ≠ .aligned))) = false := by
  obtain ⟨-, hport⟩ := h
  by_cases hi : i < 4096
  · simp [hport hi]
  · simp [hi]

/-- A frame of source i that is discarded is counted in a field of its port's register, or among its packet ODU's discards. -/
def Dev.macDrop (d : Dev) (i off lo : Nat) : Dev := if i < 4096 then d.count (aPort i off) lo 16 else d.count32 (aGfp (i % 4096))

theorem Dev.macDrop_reg (d : Dev) {i : Nat} (hi : i < 4096) (off lo : Nat) :
    (d.macDrop i off lo).reg (aPort i off) = countUp (d.reg (aPort i off)) lo 16 1 := by
  unfold Dev.macDrop
  rw [if_pos hi, Dev.count_reg]

/-- The checks of R249 in their order. -/
theorem Dev.macRx_checks (ht : d.takesFrames i) : d.macRx i f mem =
    if f.slip then (d.macDrop i 0x208 0, mem)
    else if !f.fcsOk || f.errored then (d.macDrop i 0x204 0, mem)
    else if f.bytes.length + 4 < 64 ∨ (d.ingr i).maxFrame < f.bytes.length + 4 then (d.macDrop i 0x204 16, mem)
    else if etherType f.bytes = 0x8808 then (d.macDrop i 0x208 16, mem)
    else (if i < 4096 then d.count32 (aPort i 0x200) else d).classify i f mem := by
  unfold Dev.macRx
  rw [if_neg (by simp [ht.1]), if_neg (by rw [ht.open]; exact Bool.false_ne_true)]
  simp only [Dev.macDrop, decide_eq_true_eq, Bool.or_eq_true]

/-- A frame of a flow entry that names no policer and no circuit is offered to the entry's queue (R253, R256). -/
theorem Dev.classify_offers {d : Dev} {i : Nat} {f : MacRx} {x : Flow} (mem : List Host.Cell)
    (hx : d.flowOf i (vlanOf f.bytes).isSome ((vlanOf f.bytes).getD (0, 0)).1 ((vlanOf f.bytes).getD (0, 0)).2 = some x)
    (hpol : x.policer = 0xFFFF) (hcirc : ∀ y ∈ d.circuits, y.2.made = true → y.2.flowTag ≠ x.flowTag) :
    d.classify i f mem = d.offer x.queue f.bytes f.bad (d.ingressSlice i) i mem := by
  have hflow : d.flowFor i f.bytes = some (some x.flowTag, x.queue, x.policer) := by
    unfold Dev.flowFor
    dsimp only
    rw [hx]
  have hfree : d.circuits.find? (fun y => y.2.made && some x.flowTag = some y.2.flowTag) = none := by
    rw [List.find?_eq_none]
    intro y hy
    simpa using fun hm => Ne.symm (hcirc y hy hm)
  unfold Dev.classify
  rw [hflow]
  simp only [Dev.police, hpol, if_true, Bool.not_true, Bool.false_eq_true, if_false, hfree]

theorem Dev.flowOf_congr {d e : Dev} (h : d.pkt = e.pkt) (i : Nat) (tagged : Bool) (vid pcp : Nat) :
    d.flowOf i tagged vid pcp = e.flowOf i tagged vid pcp := by
  unfold Dev.flowOf
  rw [h]

/-- A good frame of a flow entry enters the entry's queue. -/
theorem Dev.macRx_offers {d : Dev} {i : Nat} {f : MacRx} {x : Flow} (mem : List Host.Cell) (ht : d.takesFrames i)
    (h : Claim.Forwards d i f x) : ∃ (e : Dev) (slice : Option Nat), e.mask [.regs, .odus] = d.mask [.regs, .odus]
      ∧ d.macRx i f mem = e.offer x.queue f.bytes f.bad slice i mem := by
  obtain ⟨-, hs, hok, he, hmin, hmax, hty, hpol, hcirc, hx⟩ := h
  have hrow := Dev.macRx_checks (f := f) mem ht
  rw [if_neg (by simp [hs]), if_neg (by simp [hok, he]), if_neg (by omega), if_neg hty] at hrow
  by_cases hi : i < 4096
  · rw [if_pos hi] at hrow
    have hmask : (d.count32 (aPort i 0x200)).mask [.regs, .odus] = d.mask [.regs, .odus] := Dev.count32_mask (by decide) ..
    rw [← Dev.circuits_of_mask hmask (by decide)] at hcirc
    rw [← Dev.flowOf_congr (Dev.pkt_of_mask hmask (by decide))] at hx
    exact ⟨_, _, hmask, hrow.trans (Dev.classify_offers mem hx hpol hcirc)⟩
  · rw [if_neg hi] at hrow
    exact ⟨d, _, rfl, hrow.trans (Dev.classify_offers mem hx hpol hcirc)⟩

end

/-! ### Faults of the link (R251) -/

theorem aPort_offHq (p off : Nat) : offHq (aPort p off) := by unfold offHq aPort; omega

/-- The faults recorded for port p are `l` and `r`. -/
def Dev.faultsAre (d : Dev) (p : Nat) (l r : Bool) : Prop :=
  tget false d.pkt.locFault p = l ∧ tget false d.pkt.remFault p = r

/-- The device with the faults of port p recorded. -/
def Dev.withFaults (d : Dev) (p : Nat) (l r : Bool) : Dev :=
  { d with pkt.locFault := tput false d.pkt.locFault p l, pkt.remFault := tput false d.pkt.remFault p r }

theorem Dev.withFaults_are (d : Dev) (p : Nat) (l r : Bool) : (d.withFaults p l r).faultsAre p l r :=
  ⟨tget_tput_self false d.pkt.locFault p l, tget_tput_self false d.pkt.remFault p r⟩

theorem Dev.raise_faultsAre {d : Dev} {p : Nat} {l r : Bool} (h : d.faultsAre p l r) (a i code : Nat) (args : List Byte) :
    (d.raise a i code args).faultsAre p l r := by
  unfold Dev.faultsAre
  rwa [Dev.pkt_of_mask (Dev.raise_mask (T := [.regs, .host, .jersey]) (by decide) ..) (by decide)]

theorem macFault_eq {d : Dev} {p : Nat} (h : isEth (d.port p).format = true) (k : FaultSeq) : macFault p k d = match k with
    | .localFault => (d.withFaults p true false).raise (aPort p 0x210) 0 0x1731 (le 1 p)
    | .remoteFault => (d.withFaults p false true).raise (aPort p 0x210) 1 0x1732 (le 1 p)
    | .ok => d.withFaults p false false := by
  unfold macFault
  rw [if_pos h]
  cases k <;> rfl

/-! ### Core headers (R168, R169) -/

theorem bitCrc_lt {n poly : Nat} (hpoly : poly < 2 ^ n) (bits : List Bool) : bitCrc n poly bits < 2 ^ n := by
  refine foldl_keeps (· < 2 ^ n) _ (fun s b _ => ?_) bits 0 (Nat.two_pow_pos n)
  have ht : s * 2 % 2 ^ n < 2 ^ n := Nat.mod_lt _ (Nat.two_pow_pos n)
  dsimp only
  split
  · exact Nat.xor_lt_two_pow ht hpoly
  · exact ht

theorem beNat_be_two {x : Nat} (h : x < 2 ^ 16) : beNat (be 2 x) = x := by
  unfold beNat be
  rw [List.reverse_reverse, leNat_le]
  exact Nat.mod_eq_of_lt h

theorem gfpScramble_twice (a b c d : Byte) : gfpScramble (gfpScramble [a, b, c, d]) = [a, b, c, d] := by
  simp [gfpScramble]

/-- The header that the sender builds is correct (R168). -/
theorem chec_gfpCoreHead (pli : Nat) : chec (gfpCoreHead pli) = .correct := by
  have hplain : gfpScramble (gfpCoreHead pli) = be 2 pli ++ be 2 (gfpHec (be 2 pli)) := gfpScramble_twice ..
  have hlen : (be 2 pli).length = 2 := rfl
  unfold chec
  rw [hplain]
  refine if_pos ?_
  dsimp only
  rw [List.drop_left' hlen, List.take_left' hlen]
  exact beNat_be_two (bitCrc_lt (by decide) _)

/-- Where a core header takes the delineator of a packet ODU (R169). -/
def gfpNext (x : Odu) (c : Chec) : Nat :=
  if x.gfp = 1 then (if c = .correct then 2 else 1)
  else if x.gfp = 2 then (if c = .correct then 3 else 1)
  else if x.gfp = 3 then (if c = .correct ∨ c = .single ∧ x.flags / 4 % 2 = 1 then 3 else 1)
  else x.gfp

theorem gfpCore_gfp {d : Dev} {o : Nat} {x : Odu} (hx : d.odu o = some x) (c : Chec) :
    ∃ y, (gfpCore o c d).odu o = some y ∧ y.gfp = gfpNext x c := by
  have hset : ∀ n, (d.updOdu o fun x => { x with gfp := n }).odu o = some { x with gfp := n } := fun n => Dev.updOdu_some hx _
  have hpost : ∀ n code, ∃ y, ((d.updOdu o fun x => { x with gfp := n }).oduPost o code).odu o = some y ∧ y.gfp = n := fun n code => by
    obtain ⟨y, hy, hkeep⟩ := Dev.oduPost_odu (hset n) code
    exact ⟨y, hy, (congrArg Odu.gfp hkeep :)⟩
  unfold gfpCore
  rw [hx]
  dsimp only
  split
  next h =>
    simp only [gfpNext, h, if_true]
    split <;> rename_i hc
    · exact ⟨_, hset 2, rfl⟩
    · exact ⟨x, hx, h⟩
  next h =>
    simp only [gfpNext, h, if_true]
    split <;> rename_i hc
    · simpa using hpost 3 0x1404
    · exact ⟨_, hset 1, rfl⟩
  next h =>
    simp only [gfpNext, h, if_true]
    split <;> rename_i hc <;> simp only [Bool.or_eq_true, Bool.and_eq_true, decide_eq_true_eq] at hc
    · exact ⟨x, hx, by rw [if_neg (by decide), if_neg (by decide), if_pos (by simpa using hc), h]⟩
    · simpa [hc] using hpost 1 0x1405
  next h1 h2 h3 => exact ⟨x, hx, by unfold gfpNext; rw [if_neg h1, if_neg h2, if_neg h3]⟩

/-! ### GFP frames (R170) -/

/-- The fields of a received frame, descrambled from where the descrambler of its ODU stands. -/
def gfpFields (x : Odu) (area : List Byte) : GfpRx := gfpParse (packBits (descramble x.descr (area.flatMap bitsOfByte)).1)

/-- The device with the descrambler of ODU o moved on over a payload area. -/
def Dev.descrambled (d : Dev) (o : Nat) (x : Odu) (area : List Byte) : Dev :=
  d.updOdu o fun y => { y with descr := (descramble x.descr (area.flatMap bitsOfByte)).2 }

section
variable {d : Dev} {o : Nat} {x : Odu} {area : List Byte} (w : RxWords) (mem : List Host.Cell) (hx : d.odu o = some x)
  (hsync : x.gfp = 3) (hlen : 4 ≤ area.length)
include hx hsync hlen

/-- The checks of R170 in their order. -/
theorem gfpFrame_sync : gfpFrame o area w d mem =
    let e := d.descrambled o x area
    let g := gfpFields x area
    if !g.thecOk || (g.pfi && !g.pfcsOk) then (e.count32 (aGfp o), mem)
    else if g.pti = 4 then (if g.upi = 1 || g.upi = 2 then (e.oduPost o 0x1406, mem) else (e.count32 (aGfp o), mem))
    else if g.pti = 0 && g.exi = 0 && g.upi = 1 then e.macRx (4096 + o) (gfpClient g.payload w) mem
    else (e.count32 (aGfp o), mem) := by
  unfold gfpFrame
  rw [hx]
  dsimp only
  rw [if_neg (show ¬ x.gfp < 2 by omega), if_neg (by simp [hsync]; omega)]
  rfl

/-- A frame of no client, or one that fails a check, is discarded and counted. -/
theorem gfpFrame_discards (h : (gfpFields x area).thecOk = false
      ∨ (gfpFields x area).pfi = true ∧ (gfpFields x area).pfcsOk = false
      ∨ (gfpFields x area).pti ≠ 0 ∧ (gfpFields x area).pti ≠ 4
      ∨ (gfpFields x area).pti = 4 ∧ (gfpFields x area).upi ≠ 1 ∧ (gfpFields x area).upi ≠ 2
      ∨ (gfpFields x area).pti = 0 ∧ ((gfpFields x area).exi ≠ 0 ∨ (gfpFields x area).upi ≠ 1)) :
    (gfpFrame o area w d mem).1.reg (aGfp o) = countUp (d.reg (aGfp o)) 0 32 1 := by
  rw [gfpFrame_sync w mem hx hsync hlen]
  generalize gfpFields x area = g at h ⊢
  dsimp only
  have hcount : ((d.descrambled o x area).count32 (aGfp o)).reg (aGfp o) = countUp (d.reg (aGfp o)) 0 32 1 := Dev.count32_reg ..
  split
  · exact hcount
  next hok =>
    obtain ⟨hhec, hfcs⟩ : g.thecOk = true ∧ (g.pfi = true → g.pfcsOk = true) := by simpa using hok
    obtain h | ⟨hpfi, h⟩ | ⟨h0, h4⟩ | ⟨h4, h1, h2⟩ | ⟨h0, h1⟩ := h
    · exact absurd h (by simp [hhec])
    · exact absurd h (by simp [hfcs hpfi])
    · rw [if_neg h4, if_neg (by simpa using fun h => absurd h h0)]
      exact hcount
    · rw [if_pos h4, if_neg (by simpa using And.intro h1 h2)]
      exact hcount
    · rw [if_neg (by simp [h0]), if_neg (by simpa [h0, imp_iff_not_or] using h1)]
      exact hcount

/-- A client data frame goes to the MAC of its packet ODU. -/
theorem gfpFrame_delivers (hhec : (gfpFields x area).thecOk = true)
    (hfcs : (gfpFields x area).pfi = false ∨ (gfpFields x area).pfcsOk = true) (hpti : (gfpFields x area).pti = 0)
    (hexi : (gfpFields x area).exi = 0) (hupi : (gfpFields x area).upi = 1) :
    gfpFrame o area w d mem = (d.descrambled o x area).macRx (4096 + o) (gfpClient (gfpFields x area).payload w) mem := by
  rw [gfpFrame_sync w mem hx hsync hlen]
  dsimp only
  rw [if_neg (by obtain h | h := hfcs <;> simp [hhec, h]), if_neg (by rw [hpti]; decide), if_pos (by simp [hpti, hexi, hupi])]

end

/-- The flow that a client frame matches does not rest on the descrambler. -/
theorem Dev.descrambled_forwards {d : Dev} {o : Nat} {x : Odu} (hx : d.odu o = some x) (ho : o < 4096) (area : List Byte)
    {f : MacRx} {z : Flow} (h : Claim.Forwards d (4096 + o) f z) :
    Claim.Forwards (d.descrambled o x area) (4096 + o) f z := by
  obtain ⟨hex, hrest⟩ := h
  refine ⟨?_, hrest⟩
  have hset : (d.descrambled o x area).odu o = _ := Dev.updOdu_some hx _
  unfold Dev.ingressExists at hex ⊢
  rw [show (4096 + o) / 4096 = 1 by omega, show (4096 + o) % 4096 = o by omega] at hex ⊢
  rw [hset]
  rw [hx] at hex
  exact hex

end Sys2Proof.Machine
end

section
/-! PROOF of O22: each clause fixes the check of R249 that a frame fails, or the step of the delineator. -/

namespace Sys2Proof.Claim

open Machine

/-- A received frame answers what the MAC makes of it. -/
theorem answers_macFrameRx {s : State} (hl : s.dev.life = .running) {i : BitVec 16} {f : MacRx} (P : State → Prop)
    (h : P { s with dev := (s.dev.macRx i.toNat f s.mem).1, mem := (s.dev.macRx i.toNat f s.mem).2 }) :
    Answers (.macFrameRx i f) s P :=
  answers_onMem rfl hl h

/-- The MAC, from the checks of R249 in their order and the record of a fault sequence. -/
theorem macChecksAndClassifiesFrames : MacChecksAndClassifiesFrames := by
  intro s hl
  refine ⟨fun i f hi ha => ?unaligned, fun i f hi hex hhold ha => ?_, fun p hp => ?faults⟩
  case unaligned =>
    exact (onMem_eq _ s).trans (by rw [liveMem, if_pos hl, Dev.macRx_unaligned s.mem hi ha])
  case faults =>
    have hand : ∀ k (P : State → Prop), P { s with dev := macFault p k s.dev } → Answers (.macFaultSequence p k) s P :=
      fun k P h => answers_onDev rfl hl h
    refine ⟨hand _ _ ?_, hand _ _ ?_, hand _ _ ?_⟩ <;> rw [macFault_eq hp]
    · obtain ⟨hloc, hrem⟩ := Dev.raise_faultsAre (s.dev.withFaults_are p true false) (aPort p 0x210) 0 0x1731 (le 1 p)
      exact ⟨hloc, hrem, Dev.raise_bit (aPort_offHq _ _) _ _ _ (by decide) _⟩
    · obtain ⟨hloc, hrem⟩ := Dev.raise_faultsAre (s.dev.withFaults_are p false true) (aPort p 0x210) 1 0x1732 (le 1 p)
      exact ⟨hloc, hrem, Dev.raise_bit (aPort_offHq _ _) _ _ _ (by decide) _⟩
    · exact s.dev.withFaults_are p false false
  have ht : s.dev.takesFrames i.toNat := ⟨hex, fun _ => ⟨hhold, ha⟩⟩
  have hport : i.toNat < 4096 := by omega
  have hrow := Dev.macRx_checks (f := f) s.mem ht
  refine ⟨fun hs => ?_, fun hs hbad => ?_, fun hs hok he => ⟨fun hlen => ?_, fun hmin hmax hty => ?_⟩, fun x hf hfits => ?_⟩ <;>
    refine answers_macFrameRx hl _ ?_
  · rw [hrow, if_pos hs]
    exact Dev.macDrop_reg _ hport ..
  · rw [hrow, if_neg (by simp [hs]), if_pos (by simpa using hbad)]
    exact Dev.macDrop_reg _ hport ..
  · rw [hrow, if_neg (by simp [hs]), if_neg (by simp [hok, he]), if_pos hlen]
    exact Dev.macDrop_reg _ hport ..
  · rw [hrow, if_neg (by simp [hs]), if_neg (by simp [hok, he]), if_neg (by omega), if_pos hty]
    exact Dev.macDrop_reg _ hport ..
  · obtain ⟨e, slice, he, hmac⟩ := Dev.macRx_offers s.mem ht hf
    exact takes_of_offer he hfits (congrArg Prod.fst hmac)

/-- The delineator, from the step of each of its states; a client frame goes on to the MAC of its packet ODU. -/
theorem gfpDelineatesAndDelivers : GfpDelineatesAndDelivers := by
  intro s o x hl hx
  refine ⟨fun h => ?core, chec_gfpCoreHead, fun hsync area w hlen => ⟨fun hbad => ?discarded, fun z hhec hfcs hpti hexi hupi hf hfits =>
    ?delivered⟩⟩
  case core =>
    obtain ⟨y, hy, hnext⟩ := gfpCore_gfp hx (chec h)
    refine answers_onDev rfl hl ⟨y, hy, ?_⟩
    rw [hnext]
    refine ⟨fun hg => ?_, fun hg => ?_, fun hg => ?_⟩ <;> simp [gfpNext, hg]
  case discarded => exact answers_onMem rfl hl (gfpFrame_discards w s.mem hx hsync hlen hbad)
  case delivered =>
    have hf' := Dev.descrambled_forwards hx o.isLt area hf
    have ht : (s.dev.descrambled o x area).takesFrames (4096 + o) := ⟨hf'.1, fun h => absurd h (by omega)⟩
    obtain ⟨e, slice, he, hmac⟩ := Dev.macRx_offers s.mem ht hf'
    refine answers_onMem rfl hl (takes_of_offer (he.trans rfl) hfits (congrArg Prod.fst (Eq.trans ?_ hmac)))
    exact gfpFrame_delivers w s.mem hx hsync hlen hhec hfcs hpti hexi hupi

/-- Settles O22: a frame meets the checks of R249 in their order, and a core header the step of its delineator's state. -/
theorem framesAreReceived : Obligations.FramesAreReceived := ⟨macChecksAndClassifiesFrames, gfpDelineatesAndDelivers⟩

end Sys2Proof.Claim
end

section
/-! SUPPORT. What words of storage come to that read without an error in both planes (R24, R38). -/

namespace Sys2Proof.Machine

section
variable {s : State} {d : Dev} {bank : Fin 2 → MemId} {addr : Nat} {slice : Option Nat}
  (hplane : d.plane = s.dev.plane) (harms : d.arms = s.dev.arms) (hs : Claim.Sound s [(bank, addr)]) (hr : Claim.SliceRuns s.dev slice)
include hplane harms hs hr

theorem readSlice_sound (pl : Fin 2) : readSlice d s.mem bank addr slice pl =
    { d := d, mem := s.mem, data := wordData s.mem (memNo (bank pl)) addr, poison := false } := by
  obtain ⟨hfence, hsyn, hcount⟩ := hs _ (List.mem_singleton.mpr rfl) pl
  have hdead : d.sliceDead pl.val slice = false := by simpa only [Dev.sliceDead, Dev.fenced, hplane] using hr pl
  have hopen : d.memFenced (bank pl) = false := by simpa only [Dev.memFenced, Dev.fenced, hplane] using hfence
  have harm : d.armMask (memSource (bank pl)).1 (memSource (bank pl)).2 addr = 0 := by
    simp only [Dev.armMask, harms, hcount]; rfl
  have hclean : eccOf (syndrome s.mem (memNo (bank pl)) addr) = .clean := by rw [hsyn]; rfl
  unfold readSlice readPath
  rw [hopen, if_neg (by simp), readStored_clean _ _ harm hclean, hdead]
  rfl

/-- The preferred plane's copy leaves, or the other's where the preferred plane is fenced. -/
theorem readBoth_sound : let first := if s.dev.planeFenced s.dev.plane.preferred.val then 1 - s.dev.plane.preferred else s.dev.plane.preferred
    readBoth d s.mem bank addr slice = { d := d, mem := s.mem, data := wordData s.mem (memNo (bank first)) addr, poison := false } := by
  intro first
  have hfirst : (if d.planeFenced d.plane.preferred.val then 1 - d.plane.preferred else d.plane.preferred) = first := by
    simp only [Dev.planeFenced, Dev.fenced, hplane]; rfl
  unfold readBoth
  dsimp only
  rw [hfirst, readSlice_sound hplane harms hs hr, readSlice_sound hplane harms hs hr]
  simp only [Bool.false_and, Bool.false_eq_true, if_false, ite_self]

end

theorem readBytes_sound {s : State} {d : Dev} {slice : Option Nat} (hplane : d.plane = s.dev.plane) (harms : d.arms = s.dev.arms)
    (hr : Claim.SliceRuns s.dev slice) {places : List ((Fin 2 → MemId) × Nat)} (hs : Claim.Sound s places) :
    readBytes d s.mem places slice = { d := d, mem := s.mem, bytes := Claim.heldBytes s places } := by
  have key : ∀ (k : Nat) (bs : List Byte), (places.zipIdx k).foldl (fun (t : TakenBytes) x =>
      let r := readBoth t.d t.mem x.1.1 x.1.2 slice
      { d := r.d, mem := r.mem, bytes := t.bytes ++ bytesOfWord r.data, bad := if r.poison then t.bad ++ [x.2] else t.bad })
      { d := d, mem := s.mem, bytes := bs } = { d := d, mem := s.mem, bytes := bs ++ Claim.heldBytes s places } := by
    induction places with
    | nil => intro k bs; rw [Claim.heldBytes, List.flatMap_nil, List.append_nil]; rfl
    | cons x xs ih =>
      intro k bs
      have hx : Claim.Sound s [(x.1, x.2)] := fun y hy => hs y (List.mem_cons.mpr (.inl (List.mem_singleton.mp hy)))
      rw [List.zipIdx_cons, List.foldl_cons]
      dsimp only
      rw [readBoth_sound hplane harms hx hr]
      refine (ih (fun y hy => hs y (List.mem_cons_of_mem _ hy)) _ _).trans ?_
      rw [List.append_assoc]
      rfl
  exact key 0 []

end Sys2Proof.Machine
end

section
/-! SUPPORT. The scheduler (R257, R263, R264, R271): whose turn a weighted round robin gives, the sets that it looks at, and what a
frame that leaves changes. -/

namespace Sys2Proof.Machine

/-! ### The turn (R263) -/

theorem tabWfFrom_pairwise {α : Type} [DecidableEq α] {z : α} {t : Tab α} {a : Nat} (w : tabWfFrom z a t = true) :
    (∀ x ∈ t, a ≤ x.1) ∧ t.Pairwise (·.1 < ·.1) := by
  induction t generalizing a with
  | nil => exact ⟨fun x hx => absurd hx List.not_mem_nil, .nil⟩
  | cons x t ih =>
    simp only [tabWfFrom, Bool.and_eq_true, decide_eq_true_eq] at w
    obtain ⟨⟨hle, -⟩, wt⟩ := w
    obtain ⟨hlow, hsorted⟩ := ih wt
    refine ⟨fun y hy => ?_, .cons hlow hsorted⟩
    obtain rfl | hy := List.mem_cons.mp hy
    · exact hle
    · have := hlow y hy
      omega

theorem Dev.attached_sorted {d : Dev} (w : tabWf {} d.pkt.shapers = true) (n : Nat) : (d.attached n).Pairwise (· < ·) := by
  unfold Dev.attached
  rw [List.pairwise_map]
  refine ((tabWfFrom_pairwise w).2.filter _).imp_of_mem fun {a b} ha hb h => ?_
  simp only [List.mem_filter, Bool.and_eq_true, decide_eq_true_eq] at ha hb
  omega

theorem find?_first {l : List Nat} (hsort : l.Pairwise (· < ·)) {u : Nat} (hu : u ∈ l) {p : Nat → Bool} (hp : p u = true)
    (hfirst : ∀ w ∈ l, p w = true → u ≤ w) : l.find? p = some u := by
  induction l with
  | nil => cases hu
  | cons a l ih =>
    obtain ⟨ha, hl⟩ := List.pairwise_cons.mp hsort
    obtain rfl | hu := List.mem_cons.mp hu
    · exact List.find?_cons_of_pos hp
    · have hau := ha u hu
      have hnot : ¬ p a = true := fun h => by have := hfirst a List.mem_cons_self h; omega
      rw [List.find?_cons_of_neg hnot]
      exact ih hl hu fun w hw => hfirst w (List.mem_cons_of_mem _ hw)

/-- Weighted round robin goes on with the turn that is under way, or passes it to the next member, or to the first. -/
theorem wrr_picks {set : List Nat} (hsort : set.Pairwise (· < ·)) {turn sent weight u : Nat} (hu : u ∈ set)
    (hself : u = turn → sent < weight ∨ ∀ w ∈ set, w = turn) (hnot : u ≠ turn → ¬(turn ∈ set ∧ sent < weight))
    (hnext : turn < u → ∀ w ∈ set, turn < w → u ≤ w) (hfirst : u < turn → ∀ w ∈ set, u ≤ w ∧ w ≤ turn) :
    ∃ k, wrr set turn sent weight = some (u, k) := by
  have hhead : (∀ w ∈ set, u ≤ w) → (∀ w ∈ set, w ≤ turn) → (match set.find? (fun w => decide (turn < w)) with
      | some w => some (w, 1)
      | none => set.head?.map (fun w => (w, 1))) = some (u, 1) := fun hmin hmax => by
    rw [List.find?_eq_none.mpr fun w hw => by simpa using hmax w hw]
    cases set with
    | nil => cases hu
    | cons a l =>
      have hle := hmin a List.mem_cons_self
      obtain rfl | hul := List.mem_cons.mp hu
      · rfl
      · have := (List.pairwise_cons.mp hsort).1 u hul
        omega
  unfold wrr
  split
  next hc =>
    simp only [Bool.and_eq_true, List.contains_iff_mem, decide_eq_true_eq] at hc
    have : u = turn := by_contra fun h => hnot h hc
    exact ⟨sent + 1, by rw [this]⟩
  next hc =>
    refine ⟨1, ?_⟩
    obtain h | h | h := Nat.lt_trichotomy u turn
    · exact hhead (fun w hw => (hfirst h w hw).1) fun w hw => (hfirst h w hw).2
    · obtain hlt | hone := hself h
      · exact absurd (by simpa [hlt, ← h] using hu) hc
      · exact hhead (fun w hw => by rw [hone w hw, h]) fun w hw => (hone w hw).le
    · rw [find?_first hsort hu (p := fun w => decide (turn < w)) (by simpa using h) fun w hw hw' => hnext h w hw (by simpa using hw')]

/-! ### The sets (R263, R271) -/

section
variable {d : Dev} {n : Nat}

theorem Dev.readyService_isSome (u : Nat) : (d.readyService n u).isSome = true ↔ ∃ i, i < 8 ∧ d.serviceReady n (8 * u + i) = true := by
  simp only [Dev.readyService, List.find?_isSome, List.mem_range]

theorem Dev.readyService_lowest {u v : Nat} (hv : v < 8) (hready : d.serviceReady n (8 * u + v) = true)
    (hlow : ∀ i, i < v → d.serviceReady n (8 * u + i) = false) : d.readyService n u = some v :=
  find?_first List.pairwise_lt_range (List.mem_range.mpr hv) hready fun w _ hw =>
    Nat.le_of_not_lt fun h => by rw [hlow w h] at hw; cases hw

theorem Dev.mem_funded (w : Nat) : w ∈ (d.schSets n).1 ↔
    w ∈ d.attached n ∧ (∃ i, i < 8 ∧ d.serviceReady n (8 * w + i) = true) ∧ (d.shaper (4096 + w)).funded = true := by
  simp only [Dev.schSets, List.mem_filter, Dev.readyService_isSome, and_assoc]

theorem Dev.funded_sorted (w : tabWf {} d.pkt.shapers = true) : (d.schSets n).1.Pairwise (· < ·) :=
  ((Dev.attached_sorted w n).filter _).filter _

/-- A turn that a subscriber has given up leaves what is ready, and with it the sets, as they were. -/
theorem Dev.leave_readyService (f b : List Nat) : (d.updSch n fun x => x.leave f b).readyService n = d.readyService n := by
  have hready : (d.updSch n fun x => x.leave f b).serviceReady n = d.serviceReady n := by
    funext q
    unfold Dev.serviceReady
    rw [Dev.updSch_schP]
    rfl
  funext u
  unfold Dev.readyService
  rw [hready]

theorem Dev.leave_schSets (f b : List Nat) : (d.updSch n fun x => x.leave f b).schSets n = d.schSets n := by
  unfold Dev.schSets
  rw [Dev.leave_readyService]
  rfl

theorem Dev.dropOversize_none {q : Nat}
    (h : ∀ g more, (d.pq q).frames = g :: more → (d.schP n).gates.oversize (q % 8) g.len (d.overheadOf n) = false) (k : Nat) :
    Dev.dropOversize n q k d = d := by
  cases k with
  | zero => rfl
  | succ k =>
    unfold Dev.dropOversize
    split
    next g more hf => rw [h g more hf]; rfl
    next => rfl

/-- Where no head frame is too long for its windows, none is discarded. -/
theorem Dev.dropAll_none (h : ∀ w ∈ d.attached n, ∀ i, i < 8 → ∀ g more, (d.pq (8 * w + i)).frames = g :: more →
    (d.schP n).gates.oversize i g.len (d.overheadOf n) = false) : d.dropAll n = d := by
  unfold Dev.dropAll
  refine foldl_same fun q hq => ?_
  obtain ⟨w, hw, hq⟩ := List.mem_flatMap.mp hq
  obtain ⟨i, hi, rfl⟩ := List.mem_map.mp hq
  have hi := List.mem_range.mp hi
  split
  · rfl
  · exact Dev.dropOversize_none (fun g more hg => by
      rw [Nat.mul_add_mod, Nat.mod_eq_of_lt hi]
      exact h w hw i hi g more hg) _

end

/-! ### A frame leaves (R250, R257, R263) -/

theorem Dev.charge_credit (d : Dev) (k : Nat) :
    ((d.charge k).shaper k).credit = (d.shaper k).credit - if (d.shaper k).rate = 0 then 0 else 65536 := by
  unfold Dev.charge
  rw [Dev.updShaper_shaper]
  by_cases h : (d.shaper k).rate = 0
  · rw [if_pos h, if_pos h, Int.sub_zero]
  · rw [if_neg h, if_neg h]

theorem Dev.charge_shaper_ne (d : Dev) {k j : Nat} (h : j ≠ k) : (d.charge k).shaper j = d.shaper j :=
  Dev.updShaper_shaper_ne d _ h

theorem Dev.charge_pq (d : Dev) (k q : Nat) : (d.charge k).pq q = d.pq q := rfl

theorem Dev.charge_target (d : Dev) (k j : Nat) : ((d.charge k).shaper j).target = (d.shaper j).target := by
  by_cases h : j = k
  · subst h
    unfold Dev.charge
    rw [Dev.updShaper_shaper]
    split <;> rfl
  · rw [Dev.charge_shaper_ne d h]

/-- The head frame of service v of subscriber s leaves its queue, in which `rest` remains, and is charged to its service, its
subscriber and port n. -/
def Dev.charged (d : Dev) (n s v : Nat) (rest : List PFrame) : Dev :=
  ((((d.updPq (8 * s + v) fun x => { x with frames := rest }).charge (8 * s + v)).charge (4096 + s)).charge (2 * 4096 + n)).count32
    (0x934004 + 0x10 * n)

/-- A frame of `len` bytes is counted at the Ethernet port of scheduler port n, which is free when the frame has left (R264). -/
def Dev.paced (d : Dev) (n len : Nat) : Dev :=
  match d.schEth n with
  | some p => (d.count32 (aPort p 0x20C)).updSch n fun x => { x with freeAt := d.now + pacing (d.port p).format len }
  | none => d

section
variable (d : Dev) (n s v len : Nat) (rest : List PFrame)

theorem Dev.count32_pkt (a : Nat) : (d.count32 a).pkt = d.pkt :=
  Dev.pkt_of_mask (Dev.count32_mask (T := [.regs]) (by decide) ..) (by decide)

theorem Dev.charged_mask : (d.charged n s v rest).mask [.regs, .pkt] = d.mask [.regs, .pkt] := by
  unfold Dev.charged
  simp (decide := true) only [↓Dev.count32_mask, ↓Dev.charge_mask, ↓Dev.updPq_mask]

theorem Dev.charged_pq : ((d.charged n s v rest).pq (8 * s + v)).frames = rest := by
  unfold Dev.charged
  rw [Dev.pq_of_mask (Dev.count32_mask (T := [.regs]) (by decide) ..) (by decide), Dev.charge_pq, Dev.charge_pq, Dev.charge_pq,
    Dev.updPq_pq]

theorem Dev.charged_schP : (d.charged n s v rest).schP n = d.schP n := by
  unfold Dev.charged Dev.schP
  rw [Dev.count32_pkt]
  rfl

theorem Dev.charged_shaper (k : Nat) : (d.charged n s v rest).shaper k
    = (((d.charge (8 * s + v)).charge (4096 + s)).charge (2 * 4096 + n)).shaper k := by
  unfold Dev.charged Dev.shaper
  rw [Dev.count32_pkt]
  rfl

theorem Dev.charged_schEth (m : Nat) : (d.charged n s v rest).schEth m = d.schEth m := by
  unfold Dev.schEth
  rw [Dev.charged_shaper, Dev.charge_target, Dev.charge_target, Dev.charge_target]

/-- The three nodes of a frame are charged once each. -/
theorem Dev.charged_credit (hs : s < 512) (hv : v < 8) {k : Nat} (hk : k ∈ [8 * s + v, 4096 + s, 2 * 4096 + n]) :
    ((d.charged n s v rest).shaper k).credit = (d.shaper k).credit - if (d.shaper k).rate = 0 then 0 else 65536 := by
  rw [Dev.charged_shaper]
  simp only [List.mem_cons, List.not_mem_nil, or_false] at hk
  obtain rfl | rfl | rfl := hk
  · rw [Dev.charge_shaper_ne _ (by omega), Dev.charge_shaper_ne _ (by omega), Dev.charge_credit]
  · rw [Dev.charge_shaper_ne _ (by omega), Dev.charge_credit, Dev.charge_shaper_ne _ (by omega)]
  · rw [Dev.charge_credit, Dev.charge_shaper_ne _ (by omega), Dev.charge_shaper_ne _ (by omega)]

theorem Dev.paced_mask : (d.paced n len).mask [.regs, .pkt] = d.mask [.regs, .pkt] := by
  unfold Dev.paced
  split <;> simp (decide := true) only [↓Dev.updSch_mask, ↓Dev.count32_mask]

/-- Of the packet part only the instant at which a port is free changes. -/
theorem Dev.paced_pkt : { (d.paced n len).pkt with sch := d.pkt.sch } = d.pkt := by
  unfold Dev.paced
  split
  · rw [Dev.updSch, Dev.count32_pkt]
  · rfl

theorem Dev.paced_pq (q : Nat) : (d.paced n len).pq q = d.pq q :=
  (congrArg (fun x : Pkt => tget {} x.queues q) (d.paced_pkt n len) :)

theorem Dev.paced_shaper (k : Nat) : (d.paced n len).shaper k = d.shaper k :=
  (congrArg (fun x : Pkt => tget {} x.shapers k) (d.paced_pkt n len) :)

theorem Dev.paced_schEth (m : Nat) : (d.paced n len).schEth m = d.schEth m := by
  unfold Dev.schEth
  rw [Dev.paced_shaper]

theorem Dev.paced_turnF : ((d.paced n len).schP n).turnF = (d.schP n).turnF := by
  unfold Dev.paced
  split
  · rw [Dev.updSch_schP, Dev.schP, Dev.count32_pkt]
    rfl
  · rfl

theorem Dev.paced_freeAt {p : Nat} (h : d.schEth n = some p) : ((d.paced n len).schP n).freeAt = d.now + pacing (d.port p).format len := by
  unfold Dev.paced
  rw [h]
  exact congrArg SchPort.freeAt (Dev.updSch_schP ..)

end

theorem Dev.sendFrame_eq {d : Dev} {n s v : Nat} {f : PFrame} {rest : List PFrame} (hf : (d.pq (8 * s + v)).frames = f :: rest)
    (mem : List Host.Cell) : d.sendFrame n s v false mem =
      let e := (d.charged n s v rest).paced n f.len
      let t := readBytes e mem ((cellPlaces f.cells).take (wordsFor (f.len - 4))) (e.schSlice n)
      let frame := withFcs (t.bytes.take (f.len - 4))
      let bad := badWithCheck t.bad (f.len - 4) 4
      let e := t.d.emit (.frame n frame bad)
      (if (e.schEth n).isNone then e.gfpSend n frame bad else e, t.mem) := by
  unfold Dev.sendFrame Dev.charged
  dsimp only
  rw [hf]
  dsimp only
  rw [if_neg Bool.false_ne_true]
  generalize ((((d.updPq (8 * s + v) fun x => { x with frames := rest }).charge (8 * s + v)).charge (4096 + s)).charge
    (2 * 4096 + n)).count32 (0x934004 + 0x10 * n) = c
  unfold Dev.paced
  cases c.schEth n <;> rfl

end Sys2Proof.Machine
end

section
/-! PROOF of O26: the hypotheses fix whose turn it is, and with it the frame that leaves. -/

namespace Sys2Proof.Machine

/-! ### The decision of R263 -/

section
variable {d : Dev} {n u v : Nat}

/-- The funded subscriber whose turn it is sends from its lowest ready service. -/
theorem Dev.nextFrame_funded {k : Nat} (hu : u ∈ (d.schSets n).1)
    (hturn : wrr (d.schSets n).1 (d.schP n).turnF (d.schP n).sentF (d.shaper (4096 + (d.schP n).turnF)).weight = some (u, k))
    (hv : d.readyService n u = some v) : d.nextFrame n = some (u, k, v, false) := by
  have hset : (d.schSets n).1.isEmpty = false := by
    rw [List.isEmpty_eq_false_iff]
    exact List.ne_nil_of_mem hu
  unfold Dev.nextFrame
  dsimp only
  rw [hset, if_neg Bool.false_ne_true, hturn, Option.bind_some, hv]
  rfl

/-- The device as the turn has passed to subscriber u, which has then sent k frames in it. -/
def Dev.turned (d : Dev) (n u k : Nat) : Dev :=
  (d.updSch n fun x => x.leave (d.schSets n).1 (d.schSets n).2).updSch n fun x => x.take u k false

/-- A port that may send, with no frame too long for its windows, sends what its decision gives, where its mapper has room. -/
theorem frameStart_sends (mem : List Host.Cell) (hdrop : d.dropAll n = d) (hport : d.portMaySend n = true) {k : Nat}
    (hnext : (d.updSch n fun x => x.leave (d.schSets n).1 (d.schSets n).2).nextFrame n = some (u, k, v, false)) {f : PFrame}
    {rest : List PFrame} (hf : (d.pq (8 * u + v)).frames = f :: rest) (hroom : d.gfpRoom n f.len = true) :
    frameStart n d mem = (d.turned n u k).sendFrame n u v false mem := by
  unfold frameStart
  dsimp only
  rw [hdrop, if_neg (by rw [hport]; decide), hnext]
  dsimp only
  refine if_pos ?_
  have hpq : (d.updSch n fun x => x.leave (d.schSets n).1 (d.schSets n).2).pq (8 * u + v) = d.pq (8 * u + v) := rfl
  rw [hpq, hf]
  exact hroom

/-- The turn of R263, of a port whose last subscriber gives its turn up where it has left the set. -/
theorem SchPort.leave_turn {x : SchPort} {set : List Nat} (b : List Nat) {weight : Nat} (hsort : set.Pairwise (· < ·)) (hu : u ∈ set)
    (hself : u = x.turnF → x.turnF ∈ set ∧ x.sentF < weight ∨ ∀ w ∈ set, w = x.turnF)
    (hnot : u ≠ x.turnF → ¬(x.turnF ∈ set ∧ x.sentF < weight))
    (hnext : x.turnF < u → ∀ w ∈ set, x.turnF < w → u ≤ w) (hfirst : u < x.turnF → ∀ w ∈ set, u ≤ w ∧ w ≤ x.turnF) :
    ∃ k, wrr set (x.leave set b).turnF (x.leave set b).sentF weight = some (u, k) := by
  refine wrr_picks hsort hu (fun h => ?_) (fun h hc => ?_) hnext hfirst
  · have hin : x.turnF ∈ set := h ▸ hu
    refine (hself h).imp_left fun hagain => ?_
    simpa [SchPort.leave, hin] using hagain.2
  · refine hnot h ⟨hc.1, ?_⟩
    simpa [SchPort.leave, show x.turnF ∈ set from hc.1] using hc.2

/-- What a frame without a word in error leaves as. -/
theorem Dev.gfpSend_head {d : Dev} {n k : Nat} {o : Odu} (hk : d.gfpOdu n = some k) (ho : d.odu k = some o) (frame : List Byte) :
    (d.gfpSend n frame []).host.out.head? = some (.gfp k (gfpBuild (o.flags.testBit 1) frame o.scr).1 []) := by
  unfold Dev.gfpSend
  rw [hk]
  dsimp only
  rw [ho]
  dsimp only
  simp only [badIn, badWithCheck, List.flatMap_nil, List.eraseDups_nil, List.isEmpty_nil, if_true, ite_self]
  rfl

theorem Dev.gfpSend_out (d : Dev) (n : Nat) (frame : List Byte) (bad : List Nat) :
    d.host.out <:+ (d.gfpSend n frame bad).host.out := by
  unfold Dev.gfpSend
  split
  · split
    · exact List.suffix_cons _ _
    · exact List.suffix_rfl
  · exact List.suffix_rfl

/-! ### The frame that leaves -/

/-- The device as a frame of no word in error has left. -/
def Dev.sent (e : Dev) (n : Nat) (frame : List Byte) : Dev :=
  let e := e.emit (.frame n frame [])
  if (e.schEth n).isNone then e.gfpSend n frame [] else e

theorem Dev.sent_mask (e : Dev) (n : Nat) (frame : List Byte) : (e.sent n frame).mask [.odus, .host] = e.mask [.odus, .host] := by
  unfold Dev.sent
  dsimp only
  split <;> simp (decide := true) only [↓Dev.gfpSend_mask, ↓Dev.emit_mask]

theorem Dev.sent_out (e : Dev) (n : Nat) (frame : List Byte) : .frame n frame [] ∈ (e.sent n frame).host.out := by
  have hmem : .frame n frame [] ∈ (e.emit (.frame n frame [])).host.out := List.mem_cons_self
  unfold Dev.sent
  dsimp only
  split
  · exact (Dev.gfpSend_out ..).subset hmem
  · exact hmem

theorem Dev.sent_head {e : Dev} {n k : Nat} {o : Odu} (heth : e.schEth n = none) (hk : e.gfpOdu n = some k) (ho : e.odu k = some o)
    (frame : List Byte) : (e.sent n frame).host.out.head? = some (.gfp k (gfpBuild (o.flags.testBit 1) frame o.scr).1 []) := by
  have hnone : ((e.emit (.frame n frame [])).schEth n).isNone = true := Option.isNone_iff_eq_none.mpr heth
  unfold Dev.sent
  dsimp only
  rw [if_pos hnone]
  exact Dev.gfpSend_head (d := e.emit _) hk ho frame

/-- The device as subscriber u's turn has come and the head frame of its service v, `len` bytes long, leaves. -/
def Dev.leaving (d : Dev) (n u v k len : Nat) (rest : List PFrame) : Dev := ((d.turned n u k).charged n u v rest).paced n len

section
variable (d : Dev) (n u v k len : Nat) (rest : List PFrame)

theorem Dev.turned_mask : (d.turned n u k).mask [.regs, .pkt] = d.mask [.regs, .pkt] := by
  unfold Dev.turned
  simp (decide := true) only [↓Dev.updSch_mask]

theorem Dev.leaving_mask : (d.leaving n u v k len rest).mask [.regs, .pkt] = d.mask [.regs, .pkt] :=
  (Dev.paced_mask ..).trans ((Dev.charged_mask ..).trans (Dev.turned_mask ..))

theorem Dev.leaving_pq : ((d.leaving n u v k len rest).pq (8 * u + v)).frames = rest := by
  rw [Dev.leaving, Dev.paced_pq, Dev.charged_pq]

theorem Dev.leaving_schEth (m : Nat) : (d.leaving n u v k len rest).schEth m = d.schEth m :=
  (Dev.paced_schEth ..).trans (Dev.charged_schEth (d.turned n u k) ..)

theorem Dev.leaving_turnF : ((d.leaving n u v k len rest).schP n).turnF = u := by
  rw [Dev.leaving, Dev.paced_turnF, Dev.charged_schP, Dev.turned, Dev.updSch_schP]
  rfl

theorem Dev.leaving_credit (hu : u < 512) (hv : v < 8) {j : Nat} (hj : j ∈ [8 * u + v, 4096 + u, 2 * 4096 + n]) :
    ((d.leaving n u v k len rest).shaper j).credit = (d.shaper j).credit - if (d.shaper j).rate = 0 then 0 else 65536 :=
  (congrArg Shaper.credit (Dev.paced_shaper ..)).trans (Dev.charged_credit (d.turned n u k) _ _ _ _ hu hv hj)

theorem Dev.leaving_freeAt {p : Nat} (h : d.schEth n = some p) :
    ((d.leaving n u v k len rest).schP n).freeAt = d.now + pacing (d.port p).format len := by
  have hmask := (Dev.charged_mask (d.turned n u k) n u v rest).trans (Dev.turned_mask ..)
  rw [Dev.leaving, Dev.paced_freeAt _ _ _ ((Dev.charged_schEth (d.turned n u k) ..).trans h), Dev.now_of_mask hmask (by decide),
    Dev.port_of_mask hmask (by decide)]

end

/-- The frame that leaves, where its words read without an error. -/
theorem Dev.sendFrame_sent {d e : Dev} {n u v : Nat} {f : PFrame} {rest : List PFrame} {mem : List Host.Cell} {bs : List Byte}
    (hf : (d.pq (8 * u + v)).frames = f :: rest) (he : (d.charged n u v rest).paced n f.len = e)
    (hread : readBytes e mem ((cellPlaces f.cells).take (wordsFor (f.len - 4))) (e.schSlice n) = { d := e, mem := mem, bytes := bs }) :
    (d.sendFrame n u v false mem).1 = e.sent n (withFcs (bs.take (f.len - 4))) := by
  rw [Dev.sendFrame_eq hf, he]
  dsimp only
  rw [hread]
  rfl

theorem Dev.gfpOdu_congr {d e : Dev} (h : e.odus = d.odus) (n : Nat) : e.gfpOdu n = d.gfpOdu n := by
  unfold Dev.gfpOdu
  rw [h]

/-- The slice that sends a port's frames does not rest on registers or on the packet part. -/
theorem Dev.schSlice_congr {d e : Dev} {n : Nat} (hmask : e.mask [.regs, .pkt] = d.mask [.regs, .pkt]) (heth : e.schEth n = d.schEth n) :
    e.schSlice n = d.schSlice n := by
  unfold Dev.schSlice
  rw [heth]
  split
  · rfl
  · exact (congrArg (fun e : Dev => (e.gfpOdu n).map fun o => e.pointSlice (mpKeyOf 2 0 o)) hmask :)

end

/-! ### Samples (R273, R274) -/

/-- A sample holds the depth of the queue and the age of its head frame. -/
theorem queueSample_samples {d : Dev} {q : Nat} (hen : (d.pq q).sampleEn = true)
    (hat : (d.pq q).sampAt ≤ d.now - d.tsu.ns % (2 ^ (d.pq q).k * 1000)) :
    ∃ age, ((queueSample q d).pq q).samples = ((d.pq q).frames.length, age) :: (d.pq q).samples
      ∧ ((d.pq q).frames = [] → age = 0) ∧ ∀ f rest, (d.pq q).frames = f :: rest → age = d.now - f.at_ := by
  unfold queueSample
  dsimp only
  rw [if_pos (by simp [hen, hat]), Dev.updPq_pq]
  exact ⟨_, rfl, fun hf => by rw [hf], fun f rest hf => by rw [hf]⟩

/-- What a sampled queue delivers of the past second, and the device from which it delivers it. -/
theorem queueRecord_eq {d : Dev} {q : Nat} (hen : (d.pq q).sampleEn = true) (hsec : (d.pq q).recSec ≠ d.tsu.sec.toNat) :
    ∃ (e : Dev) (body : List Byte), queueRecord q d = e.stat body ∧ e.mask [.pkt, .fresh] = d.mask [.pkt, .fresh]
      ∧ (e.pq q).samples = [] ∧ (e.pq q).suspect = false
      ∧ body.take 20 = [0x40, 0x01] ++ le 2 q ++ le 1 (d.pq q).k ++ le 1 (if (d.pq q).suspect then 1 else 0) ++ le 2 0
        ++ le 6 (d.tsu.sec.toNat - 1) ++ le 2 0 ++ le 4 (d.pq q).samples.length := by
  unfold queueRecord
  dsimp only
  rw [if_pos (by simp [hen, hsec])]
  generalize hx : d.threeOf _ = x
  generalize hy : x.2.threeOf _ = y
  have hmask : y.2.mask [.pkt, .fresh] = d.mask [.pkt, .fresh] := by
    rw [← hy, Dev.threeOf_mask (by decide), ← hx, Dev.threeOf_mask (by decide)]
  refine ⟨_, _, rfl, (Dev.updPq_mask (by decide) ..).trans hmask, ?_, ?_, ?_⟩
  · rw [Dev.updPq_pq]
  · rw [Dev.updPq_pq]
  · simp only [List.append_assoc]
    rfl

theorem Dev.writeEntry_mem (d : Dev) (r : Nat) (mk : Nat → Bool → Word → Out) :
    ∃ slot ph seq, mk slot ph seq ∈ (d.writeEntry r mk).host.out := by
  unfold Dev.writeEntry
  dsimp only
  refine ⟨d.ringPi r, (d.ring r).phase, d.reg (aRing r 0x18), (Dev.ringNotify_out _ _).subset ?_⟩
  split <;> exact List.mem_cons_self

/-- A record that the statistics ring takes. -/
theorem Dev.stat_delivers {d : Dev} (hw : d.worker = false) (hon : d.ringOn 10 = true) (hfree : 2 ≤ d.ringFree 10) (body : List Byte) :
    ∃ slot ph seq, Out.stats slot 0 ph seq ((body ++ le 56 0).take 56) ∈ (d.stat body).host.out := by
  unfold Dev.stat Dev.statAt
  rw [if_neg (by rw [hw]; decide), if_pos (by simp [hon, hfree])]
  exact Dev.writeEntry_mem ..

end Sys2Proof.Machine

namespace Sys2Proof.Claim

open Machine

/-- The frame in turn, with what its cells hold, where they read without an error. -/
theorem frameStart_sent {s : State} {n u v k : Nat} {f : PFrame} {rest : List PFrame}
    (hstart : frameStart n s.dev s.mem = (s.dev.turned n u k).sendFrame n u v false s.mem)
    (hf : (s.dev.pq (8 * u + v)).frames = f :: rest) (hr : SliceRuns s.dev (s.dev.schSlice n)) :
    let places := (cellPlaces f.cells).take (wordsFor (f.len - 4))
    Sound s places → (frameStart n s.dev s.mem).1 =
      (s.dev.leaving n u v k f.len rest).sent n (withFcs ((heldBytes s places).take (f.len - 4))) := by
  intro places hs
  have hmask := s.dev.leaving_mask n u v k f.len rest
  have hq : ((s.dev.turned n u k).pq (8 * u + v)).frames = f :: rest := hf
  rw [hstart]
  refine Dev.sendFrame_sent (e := s.dev.leaving n u v k f.len rest) hq rfl ?_
  rw [Dev.schSlice_congr hmask (Dev.leaving_schEth ..)]
  exact readBytes_sound (Dev.plane_of_mask hmask (by decide)) (Dev.arms_of_mask hmask (by decide)) hr hs

theorem schedulerSendsTheFrameInTurn : SchedulerSendsTheFrameInTurn := by
  intro s n u v f rest hl hwf hport d x q hfit F again hu hself hnot hnext hfirst hready hlow hf hroom places frame hs hr
  have hmem : ∀ w, w ∈ (d.schSets n).1 ↔ F w := fun w => Dev.mem_funded w
  obtain ⟨k, hturn⟩ := SchPort.leave_turn (x := x) (set := (d.schSets n).1) (d.schSets n).2 (weight := (d.shaper (4096 + x.turnF)).weight)
    (u := u.val) (Dev.funded_sorted hwf) ((hmem _).mpr hu)
    (fun h => (hself h).imp (fun hg => ⟨(hmem _).mpr hg.1, hg.2⟩) fun hall w hw => hall w ((hmem w).mp hw))
    (fun h hc => hnot h ⟨(hmem _).mp hc.1, hc.2⟩) (fun h w hw => hnext h w ((hmem w).mp hw)) (fun h w hw => hfirst h w ((hmem w).mp hw))
  have hchoice : (d.updSch n fun x => x.leave (d.schSets n).1 (d.schSets n).2).nextFrame n = some (u.val, k, v.val, false) := by
    refine Dev.nextFrame_funded ?_ ?_ ?_
    · rw [Dev.leave_schSets]
      exact (hmem _).mpr hu
    · rw [Dev.leave_schSets, Dev.updSch_schP]
      exact hturn
    · rw [Dev.leave_readyService]
      exact Dev.readyService_lowest v.isLt hready hlow
  have hsent := frameStart_sent (frameStart_sends s.mem (Dev.dropAll_none hfit) hport hchoice hf hroom) hf hr hs
  refine answers_onMem rfl hl ?_
  dsimp only
  rw [hsent]
  have hmask := Dev.sent_mask (d.leaving n u v k f.len rest) n frame
  have hleft := d.leaving_mask n u v k f.len rest
  refine ⟨?_, Dev.sent_out .., fun j o heth hj ho => ?_, ?_, fun j hj => ?_, fun p hp => ?_⟩
  · rw [Dev.pq_of_mask hmask (by decide), Dev.leaving_pq]
  · have heth' : (d.leaving n u v k f.len rest).schEth n = none := (Dev.leaving_schEth ..).trans heth
    have hj' : (d.leaving n u v k f.len rest).gfpOdu n = some j := (Dev.gfpOdu_congr (Dev.odus_of_mask hleft (by decide)) n).trans hj
    have ho' : (d.leaving n u v k f.len rest).odu j = some o := (Dev.odu_of_mask hleft (by decide) j).trans ho
    rw [Dev.sent_head heth' hj' ho']
  · rw [Dev.schP_of_mask hmask (by decide), Dev.leaving_turnF]
  · rw [Dev.shaper_of_mask hmask (by decide), Dev.leaving_credit _ _ _ _ _ _ _ u.isLt v.isLt hj]
  · rw [Dev.schP_of_mask hmask (by decide), Dev.leaving_freeAt _ _ _ _ _ _ _ hp]

theorem queuesAreSampled : QueuesAreSampled := by
  intro s q hl x hen
  refine ⟨fun hat => ?sample, fun hsec => ?record⟩
  case sample =>
    obtain ⟨age, hsamples, hempty, hhead⟩ := queueSample_samples hen hat
    refine answers_onDev rfl hl ⟨fun hf => ?_, fun f rest hf => ?_⟩
    · rw [hsamples, hf, hempty hf]
      rfl
    · rw [hsamples, hf, hhead f rest hf]
      rfl
  case record =>
    obtain ⟨e, body, hrow, hmask, hsamples, hsuspect, hbody⟩ := queueRecord_eq hen hsec
    have hpq : (e.stat body).pq q = e.pq q := Dev.pq_of_mask (Dev.stat_mask (T := [.regs, .host, .jersey]) (by decide) e body) (by decide) q
    refine answers_onDev rfl hl ?_
    dsimp only
    rw [hrow, hpq]
    refine ⟨hsamples, hsuspect, fun hw hon hfree => ?_⟩
    have hw' : e.worker = false := (Dev.worker_of_mask hmask (by decide)).trans hw
    have hon' : e.ringOn 10 = true := (congrArg (Dev.ringOn · 10) hmask :).trans hon
    have hfree' : 2 ≤ e.ringFree 10 := hfree.trans_eq (congrArg (Dev.ringFree · 10) hmask :).symm
    obtain ⟨slot, ph, seq, hmem⟩ := Dev.stat_delivers hw' hon' hfree' body
    refine ⟨slot, ph, seq, _, hmem, ?_⟩
    rw [List.take_take, List.take_append_of_le_length ?_]
    · exact hbody
    · have hlen := congrArg List.length hbody
      simp only [List.length_take, List.length_append, le_length, List.length_cons, List.length_nil] at hlen
      omega

/-- Settles O26: a frame leaves by the decision of R263, and a queue is sampled on its grid. -/
theorem schedulerSendsAndSamples : Obligations.SchedulerSendsAndSamples := ⟨schedulerSendsTheFrameInTurn, queuesAreSampled⟩

end Sys2Proof.Claim
end

section
/-! REFUTATION of O21: a table of circuits that lists one circuit twice. The second entry holds a block of the jitter reserve, and with
it the cells 0 to 7; a packet that the circuit sends rewrites its first entry and takes the second out, so that its frame gets cell 0. -/

namespace Sys2Proof.Claim

open Machine

/-- A running device with circuit 0 listed twice and with an enabled queue. -/
def circuitListedTwice : State :=
  { dev := { life := .running
             circuits := [(0, { made := true, payload := 0 }), (0, { blocks := [65535] })]
             pkt := { queues := [(0, { enable := true, limit := 100, reserve := 100 })] } }
    mem := []
    pending := [] }

/-- The same device as its circuit 0 sends a packet: the second entry is gone. -/
def circuitSent : Dev := circuitListedTwice.dev.updCircuit 0 fun x => { x with txSeq := x.txSeq + 1 }

theorem circuitListedTwice_uses : 0 ∈ circuitListedTwice.dev.usedCells := by decide

theorem circuitSent_usedCells : circuitSent.usedCells = [] := by decide

theorem circuitListedTwice_fits : Fits circuitListedTwice.dev 0 8 65536 := (Dev.admits_iff ..).mp (by decide)

theorem circuitSent_fits : Fits circuitSent 0 8 65536 := (Dev.admits_iff ..).mp (by decide)

theorem circuitSent_behind : circuitSent.behind 65536 = [] := rfl

/-- The cell that the packet's frame of 4 bytes and the FCS gets. -/
theorem circuitSent_cells : (circuitSent.offered 4 65536).cells = [0] := by
  unfold Dev.offered
  rw [circuitSent_usedCells]
  decide

theorem satopTx_offers {d : Dev} {e : Nat} (hm : (d.circuit e).made = true) (k : SatopTx) (mem : List Host.Cell) :
    ∃ bad slice, satopTx e k d mem = ((d.updCircuit e fun x => { x with txSeq := x.txSeq + 1 }).emit
      (.satop e (d.satopPacket e k.bytes) bad)).offer (d.circuit e).queue (d.satopPacket e k.bytes) bad slice (65536 + e) mem := by
  unfold satopTx
  exact ⟨_, _, if_neg (by rw [hm]; decide)⟩

/-- A packet of circuit 0 enters queue 0 as the one frame there, in cell 0. -/
theorem circuitListedTwice_sends {t : State} (h : exec (.satopPacketTx 0 { bytes := [] }) circuitListedTwice = .next t) :
    (t.dev.pq 0).frames = [circuitSent.offered 4 65536] := by
  obtain ⟨bad, slice, hrow⟩ := satopTx_offers (d := circuitListedTwice.dev) (e := 0) rfl { bytes := [] } []
  have ht : t.dev = (satopTx 0 { bytes := [] } circuitListedTwice.dev []).1 := by
    have hexec := h.symm.trans (onMem_eq _ circuitListedTwice)
    injection hexec with hexec
    rw [hexec]
    rfl
  rw [ht, hrow]
  exact Dev.offer_places (d := circuitSent.emit _) bad slice [] circuitSent_fits circuitSent_behind

/-- Refutes O21: a frame gets a cell that a second entry of its circuit holds, in a table of circuits that is not canonical. -/
theorem not_satopCarriesCircuits : ¬ Obligations.SatopCarriesCircuits := by
  unfold Obligations.SatopCarriesCircuits
  rintro ⟨-, hplay, -⟩
  obtain ⟨-, -, hsend⟩ := hplay circuitListedTwice 0 rfl rfl
  obtain ⟨t, hrow, -, -, htakes⟩ := hsend { bytes := [] }
  obtain ⟨cells, -, hfree, hmem, -⟩ := htakes circuitListedTwice_fits
  have hframes : (t.dev.pq 0).frames = [circuitSent.offered 4 65536] := circuitListedTwice_sends hrow
  have hcells : cells = [0] := (congrArg PFrame.cells (List.mem_singleton.mp (hframes ▸ hmem))).trans circuitSent_cells
  exact hfree 0 (hcells ▸ List.mem_singleton.mpr rfl) circuitListedTwice_uses

end Sys2Proof.Claim
end

section
/-! SUPPORT. MAP_CFG (R149–R151, R156, R161, R178): the checks that a create or a delete meets, and what it leaves of the structure. -/

namespace Sys2Proof.Machine

/-! ### ODUs (section 0) -/

/-- A create of section 0 that meets every check, in a device whose structure will be that of `plan` (R149, R178, R549). -/
def Dev.oduFits (d plan : Dev) (c : Desc) : Prop :=
  let x := mapOdu c
  c.u16 2 ≤ 4095 ∧ x.kind ≤ 2 ∧ kindTypes x.kind x.ty = true ∧ payloadOk x.payload x.ty x.kind = true ∧ x.flags < 8
    ∧ ((x.ty = 5 ∨ x.ty = 6) ∨ x.flags % 2 = 0)
    ∧ (if x.ty = 5 ∨ x.ty = 6 then x.kind = 1 ∨ 1 ≤ x.flexTs ∧ x.flexTs ≤ (if x.flags % 2 = 1 then 320 else 80) else x.flexTs = 0)
    ∧ x.gfpPort ≤ 127 ∧ (x.payload = 1 ∨ x.gfpPort = 0) ∧ plan.odu (c.u16 2) = none
    ∧ (x.kind = 0 → x.server ≤ 63 ∧ x.tpn = 0 ∧ x.ts = [] ∧ (d.port x.server).format = (if x.ty = 4 then 2 else 1)
      ∧ plan.lineOdu x.server = none)
    ∧ (x.kind = 1 → x.server ≤ 4095 ∧ (∃ sv, plan.odu x.server = some sv ∧ sv.payload = 0
        ∧ ∀ k ∈ serverChecks x sv (plan.serverTs x.server), k.2 = true) ∧ plan.taken x = none
      ∧ (d.isLeaf x.server = false ∨ d.oduInPages x.server = false))
    ∧ (x.kind = 2 → x.server = 0 ∧ x.tpn = 0 ∧ x.ts = [] ∧ plan.gfpTaken x.gfpPort = false)
    ∧ (plan.setOdu (c.u16 2) (some x)).budgetBroken = none

/-- A delete of section 0 that meets every check, of an ODU that `plan` holds (R150, R178). -/
def Dev.oduLoose (d plan : Dev) (o : Nat) : Prop :=
  o ≤ 4095 ∧ (plan.setOdu o none).budgetBroken = none ∧ plan.isLeaf o = true ∧ d.oduInPages o = false
    ∧ (d.point (mpKeyOf 2 0 o)).role = 0 ∧ ∀ l, l < 6 → (d.point (mpKeyOf 3 (l + 1) o)).role = 0

theorem Dev.oduFits_mask (d plan : Dev) (c : Desc) : d.oduFits plan c = (d.mask [.regs, .host]).oduFits (plan.mask [.regs, .host]) c := rfl

theorem Dev.oduLoose_mask (d plan : Dev) (o : Nat) : d.oduLoose plan o = (d.mask [.regs, .host]).oduLoose (plan.mask [.regs, .host]) o := rfl

theorem mapDelete_loose {d : Dev} {c : Desc} {x : Odu} (hx : d.planned.odu (c.u16 2) = some x) (h : d.oduLoose d.planned (c.u16 2))
    (j : Nat) : mapDelete c d j = d.mapWait (c.u16 2) j x none := by
  obtain ⟨ho, hbudget, hleaf, hpages, hodu, htcm⟩ := h
  have hroles : ((mpKeyOf 2 0 (c.u16 2)) :: (List.range 6).map (fun l => mpKeyOf 3 (l + 1) (c.u16 2))).find?
      (fun k => (d.point k).role ≠ 0) = none := by
    rw [List.find?_eq_none]
    intro k hk
    obtain rfl | hk := List.mem_cons.mp hk
    · simp [hodu]
    · obtain ⟨l, hl, rfl⟩ := List.mem_map.mp hk
      simp [htcm l (List.mem_range.mp hl)]
  unfold mapDelete
  dsimp only
  rw [checked_ok (by simpa [atMost] using ho), hx]
  dsimp only
  rw [hbudget]
  dsimp only
  rw [need_ok hleaf, need_ok (by rw [hpages]; rfl), hroles]

theorem mapCreate_fits {d : Dev} {c : Desc} (h : d.oduFits d.planned c) (j : Nat) :
    mapCreate c d j = d.mapWait (c.u16 2) j (mapOdu c) (some (mapOdu c)) := by
  obtain ⟨ho, hkind, htypes, hpay, hflags, hflags', hflex, hgfp, hgfp', hfree, hline, htrib, hpacket, hbudget⟩ := h
  unfold mapCreate
  dsimp only
  generalize mapOdu c = x at *
  have c9 : (decide (x.flags < 8) && (decide (x.ty = 5) || decide (x.ty = 6) || decide (x.flags % 2 = 0))) = true := by
    simpa [hflags, or_assoc] using hflags'
  have c10 : (if (decide (x.ty = 5) || decide (x.ty = 6)) = true then
      decide (x.kind = 1) || decide (1 ≤ x.flexTs) && decide (x.flexTs ≤ if x.flags % 2 = 1 then 320 else 80)
      else decide (x.flexTs = 0)) = true := by
    split at hflex <;> simp_all
  have c14 : (decide (x.gfpPort ≤ 127) && (decide (x.payload = 1) || decide (x.gfpPort = 0))) = true := by simpa [hgfp] using hgfp'
  have hkinds : x.kind = 0 ∨ x.kind = 1 ∨ x.kind = 2 := by omega
  rw [hbudget, need_ok (by rw [hfree]; rfl)]
  obtain hk | hk | hk := hkinds
  · obtain ⟨hserver, htpn, hts, hformat, hno⟩ := hline hk
    rw [checked_ok ?checks, need_ok (by rw [hk]; exact decide_eq_true hformat), need_ok (by simp [hno])]
    case checks =>
      rw [if_neg (show ¬ x.kind = 1 by omega)]
      simp only [List.append_nil, List.forall_mem_cons]
      refine ⟨decide_eq_true ho, decide_eq_true hkind, htypes, ?_, hpay, c9, c10, ?_, c14, ?_, ?_, List.forall_mem_nil _⟩ <;>
        simp [hk, hserver, htpn, hts, hformat]
    simp [hk, need]
  · obtain ⟨hserver, ⟨sv, hsv, hsvpay, hchecks⟩, htaken, hpages⟩ := htrib hk
    rw [checked_ok ?checks, need_ok (by simp [hk, hsv, hsvpay]), need_ok (by simp [hk]), if_pos hk, htaken]
    case checks =>
      rw [if_pos hk, hsv]
      simp only [List.forall_mem_append, List.forall_mem_cons]
      refine ⟨⟨decide_eq_true ho, decide_eq_true hkind, htypes, ?_, hpay, c9, c10, ?_, c14, ?_, ?_, List.forall_mem_nil _⟩, hchecks⟩ <;>
        simp [hk, hserver]
    exact need_ok (by obtain h | h := hpages <;> simp [h]) _ _
  · obtain ⟨hserver, htpn, hts, hno⟩ := hpacket hk
    rw [checked_ok ?checks, need_ok (by simp [hk]), need_ok (by simp [hk])]
    case checks =>
      rw [if_neg (show ¬ x.kind = 1 by omega)]
      simp only [List.append_nil, List.forall_mem_cons]
      refine ⟨decide_eq_true ho, decide_eq_true hkind, htypes, ?_, hpay, c9, c10, ?_, c14, ?_, ?_, List.forall_mem_nil _⟩ <;>
        simp [hk, hserver, htpn, hts]
    simp [hk, hno, need]

/-- A create or a delete leaves of its ODU what it makes. -/
theorem Dev.mapApply_odu (d : Dev) (o : Nat) (make : Option Odu) :
    (d.mapApply o make).odu o = make.map fun x => { x with omfi := d.unlocked } := by
  have hwith : (d.withOdu o make).odu o = make.map fun x => { x with omfi := d.unlocked } := by
    unfold Dev.withOdu
    split <;> rw [Dev.odu_of_mask (Dev.reslot_mask (T := [.xc, .host]) (by decide) _) (by decide), Dev.setOdu_odu] <;> rfl
  have hsend : ∀ (e : Dev) k, (e.sendOpu k).odu o = e.odu o := fun e k =>
    Dev.odu_of_mask (Dev.sendOpu_mask (T := [.host]) (by decide) e k) (by decide) o
  unfold Dev.mapApply
  dsimp only
  split
  · rw [hsend, hsend, hwith]
  · rw [hsend, hwith]

theorem Dev.unlocked_congr {d e : Dev} (h : d.now = e.now) : d.unlocked = e.unlocked := by
  unfold Dev.unlocked
  rw [h]

/-- What shows the device's state afresh leaves the objects of the mapping as they are. -/
theorem Dev.refresh_expose_mask (d : Dev) :
    d.refresh.expose.mask [.regs, .plane, .points, .host, .jersey] = d.mask [.regs, .plane, .points, .host, .jersey] :=
  (Dev.expose_mask (by decide) _).trans (Dev.refresh_mask (by decide) d)

/-- The last of the creates and deletes that take effect together says what its ODU is. -/
theorem mapApply_all {d : Dev} {o : Nat} {js : List MapJob} {j : MapJob} (h : js.getLast? = some j) :
    (js.foldl (fun d j => d.mapApply o j.make) d).odu o = j.make.map fun x => { x with omfi := d.unlocked } := by
  obtain ⟨init, rfl⟩ := List.getLast?_eq_some_iff.mp h
  have hmask : (init.foldl (fun d j => d.mapApply o j.make) d).mask [.odus, .xc, .host] = d.mask [.odus, .xc, .host] :=
    Dev.mask_foldl (fun d j => Dev.mapApply_mask (by decide) d o j.make) init d
  rw [List.foldl_append, List.foldl_cons, List.foldl_nil, Dev.mapApply_odu, Dev.unlocked_congr (Dev.now_of_mask hmask (by decide))]

theorem mapTakesEffect_later {d : Dev} {o mf : Nat} (h : mf ≠ 0) : mapTakesEffect o mf d = d := by
  unfold mapTakesEffect
  dsimp only
  rw [if_pos (by simp [h])]

/-- A frame with MFAS or OMFI 0: what waits for it takes effect. -/
theorem mapTakesEffect_applies {d : Dev} {o : Nat} {j : MapJob} (h : (d.mapJobs.filter fun j => j.odu = o).getLast? = some j) :
    (mapTakesEffect o 0 d).mapJobs = d.mapJobs.filter (fun j => j.odu ≠ o)
      ∧ (mapTakesEffect o 0 d).odu o = j.make.map fun x => { x with omfi := d.unlocked } := by
  have hne : (d.mapJobs.filter fun j => j.odu = o).isEmpty = false := by
    rw [List.isEmpty_eq_false_iff]
    exact fun hnil => by rw [hnil] at h; cases h
  unfold mapTakesEffect
  dsimp only
  rw [hne, if_neg (by simp)]
  generalize d.mapJobs.filter (fun j => j.odu = o) = js at h
  generalize hd' : ({ d with mapJobs := d.mapJobs.filter fun j => j.odu ≠ o } : Dev) = d'
  generalize he : (js.foldl (fun d j => d.mapApply o j.make) d') = e
  have hcomplete : (js.foldl (fun d j => d.complete 0x13 j.job okDone) e.refresh.expose).mask [.regs, .plane, .points, .host, .jersey]
      = e.mask [.regs, .plane, .points, .host, .jersey] :=
    (Dev.mask_foldl (fun d j => Dev.complete_mask (by decide) d 0x13 j.job okDone) js _).trans (Dev.refresh_expose_mask e)
  have hjobs : e.mask [.odus, .xc, .host] = d'.mask [.odus, .xc, .host] := by
    rw [← he]
    exact Dev.mask_foldl (fun d j => Dev.mapApply_mask (T := [.odus, .xc, .host]) (by decide) d o j.make) js d'
  have hodu : e.odu o = j.make.map fun x => { x with omfi := d'.unlocked } := by
    rw [← he]
    exact mapApply_all h
  rw [Dev.mapJobs_of_mask hcomplete (by decide), Dev.mapJobs_of_mask hjobs (by decide), Dev.odu_of_mask hcomplete (by decide), hodu, ← hd']
  exact ⟨rfl, rfl⟩

/-! ### VC-4s and entries (sections 1 and 2) -/

/-- The VC-4 of a create. -/
def vcMade (c : Desc) (d : Dev) : Vc4 :=
  { port := c.u8 2, au4 := c.u8 3, concat := c.u8 4, struct := c.u8 5 = 1, loSlot := c.u8 8, tug3 := BitVec.ofNat 8 (c.u8 9), h4 := d.unlocked }

/-- A create of section 1 that meets every check (R156, R178). -/
def Dev.vcFits (d : Dev) (c : Desc) : Prop :=
  let p := c.u8 2
  let a := c.u8 3
  let n := c.u8 4
  let v := c.u16 6
  p ≤ 63 ∧ isSdh (d.port p).format = true ∧ 1 ≤ a ∧ a ≤ stmN (d.port p).format ∧ n ∈ [1, 4, 16, 64] ∧ n ≤ stmN (d.port p).format
    ∧ (a - 1) % n = 0 ∧ c.u8 5 ≤ 1 ∧ (c.u8 5 = 0 ∨ n = 1) ∧ v + n ≤ 512 ∧ c.u8 8 ≤ 127 ∧ c.u8 9 < 8
    ∧ (c.u8 5 = 1 ∨ c.u8 8 = 0 ∧ c.u8 9 = 0) ∧ (∀ i, 10 ≤ i → i ≤ 55 → c.u8 i = 0) ∧ d.mspProt p = none
    ∧ (∀ i, i < n → d.vc4Holding (v + i) = none)
    ∧ (∀ u ∈ d.portVc4s p, ∀ y, d.vc4 u = some y → y.au4 + y.concat ≤ a ∨ a + n ≤ y.au4) ∧ (c.u8 5 = 0 ∨ d.loVc4 (c.u8 8) = none)

/-- A delete of section 1 that meets every check (R156, R178). -/
def Dev.vcLoose (d : Dev) (c : Desc) (v : Nat) (x : Vc4) : Prop :=
  c.u8 2 ≤ 63 ∧ d.mspProt (c.u8 2) = none
    ∧ (d.portVc4s (c.u8 2)).find? (fun v => match d.vc4 v with | some x => x.au4 = c.u8 3 | none => false) = some v ∧ d.vc4 v = some x
    ∧ (∀ e ∈ (if x.struct then slotEntries x.loSlot else []), d.entryHeld e = none) ∧ d.inEitherPage 1 v = false
    ∧ d.feedsAny 1 1 v = false ∧ (d.point (mpKeyOf 6 0 v)).role = 0

/-- An E1_MODE of section 2 that meets every check (R161, R178). -/
def Dev.entryFits (d : Dev) (c : Desc) : Prop :=
  let e := c.u16 2
  let m := c.u8 4
  c.u8 1 = 0 ∧ e ≤ 8063 ∧ m ≤ 3 ∧ (m = 0 ∨ d.isVc3 e = false) ∧ (∀ i, 5 ≤ i → i ≤ 55 → c.u8 i = 0) ∧ d.entryExists e = true
    ∧ (m = 3 ∨ (d.circuit e).made = false) ∧ (m ≠ 0 ∨ (d.point (mpKeyOf 8 0 e)).role = 0)

theorem Dev.vcFits_mask (d : Dev) (c : Desc) : d.vcFits c = (d.mask [.regs, .host]).vcFits c := rfl

theorem Dev.vcLoose_mask (d : Dev) (c : Desc) (v : Nat) (x : Vc4) : d.vcLoose c v x = (d.mask [.regs, .host]).vcLoose c v x := rfl

theorem Dev.entryFits_mask (d : Dev) (c : Desc) : d.entryFits c = (d.mask [.regs, .host]).entryFits c := rfl

section
variable {d : Dev} {c : Desc} (j : Nat)

theorem vcCreate_fits (h : d.vcFits c) : vcCreate c d j = ran ((d.setVc4 (c.u16 6) (some (vcMade c d))).sendVc4 (c.u16 6)).refresh.expose := by
  obtain ⟨hp, hsdh, ha, ha', hn, hn', hal, h5, h5', hv, h8, h9, h89, hz, hmsp, hfree, hapart, hlo⟩ := h
  have hn0 : 1 ≤ c.u8 4 := by
    simp only [List.mem_cons, List.not_mem_nil, or_false] at hn
    omega
  have hunused : ((List.range (c.u8 4)).map fun i => c.u16 6 + i).find? (fun u => (d.vc4Holding u).isSome) = none := by
    rw [List.find?_eq_none]
    intro u hu
    obtain ⟨i, hi, rfl⟩ := List.mem_map.mp hu
    simp [hfree i (List.mem_range.mp hi)]
  have hhits : ((d.portVc4s (c.u8 2)).filterMap d.vc4).filter
      (fun y => decide (c.u8 3 < y.au4 + y.concat) && decide (y.au4 < c.u8 3 + c.u8 4)) = [] := by
    rw [List.filter_eq_nil_iff]
    intro y hy
    obtain ⟨u, hu, hy⟩ := List.mem_filterMap.mp hy
    have := hapart u hu y hy
    simp only [Bool.and_eq_true, decide_eq_true_eq]
    omega
  unfold vcCreate
  dsimp only
  rw [checked_ok ?checks, need_ok (by rw [hmsp]; rfl), need_ok (by rw [hunused]; rfl), need_ok (by rw [hhits]; rfl),
    need_ok (by obtain h | h := hlo <;> simp [h])]
  · rfl
  case checks =>
    simp only [List.forall_mem_cons]
    refine ⟨?_, within_ok ⟨ha, ha'⟩, ?_, ?_, decide_eq_true (show c.u16 6 + c.u8 4 - 1 ≤ 511 by omega), ?_, ?_, zeros_ok hz,
      List.forall_mem_nil _⟩
    · simp [hp, hsdh]
    · simpa [hn', hal] using hn
    · simpa [h5] using h5'
    · simpa [h8] using h89.imp_right And.left
    · simpa [h9] using h89.imp_right And.right

theorem vcDelete_loose {v : Nat} {x : Vc4} (h : d.vcLoose c v x) : vcDelete c d j =
    ran (((if x.struct then slotEntries x.loSlot else []).foldl (fun d e => (d.updLo e fun _ => {}).updE1 e fun _ => {}) d).setVc4
      v none).refresh.expose := by
  obtain ⟨hp, hmsp, hv, hx, hheld, hpages, hfeeds, hrole⟩ := h
  have hnone : (if x.struct then slotEntries x.loSlot else []).findSome? d.entryHeld = none :=
    List.findSome?_eq_none_iff.mpr hheld
  unfold vcDelete
  dsimp only
  rw [checked_ok (by simpa [atMost] using hp), need_ok (by rw [hmsp]; rfl)]
  split
  next hno => cases hno.symm.trans hv
  next w hw =>
    obtain rfl : w = v := Option.some.inj (hw.symm.trans hv)
    rw [hx]
    dsimp only
    rw [hnone]
    dsimp only
    rw [need_ok (by rw [hpages, hfeeds]; rfl), need_ok (decide_eq_true hrole)]

theorem entryCfg_fits (h : d.entryFits c) : ∃ e : Dev, entryCfg c d j = ran e ∧ (e.lo (c.u16 2)).e1Mode = c.u8 4 := by
  obtain ⟨h1, he, hm, hvc3, hz, hexists, hmade, hrole⟩ := h
  unfold entryCfg
  dsimp only
  rw [checked_ok ?checks, need_ok hexists, need_ok (by obtain h | h := hmade <;> simp [h]), need_ok (by obtain h | h := hrole <;> simp [h])]
  case checks =>
    simp only [List.forall_mem_cons]
    refine ⟨decide_eq_true h1, decide_eq_true he, ?_, zeros_ok hz, List.forall_mem_nil _⟩
    simpa [hm] using hvc3
  refine ⟨_, rfl, ?_⟩
  have hset : ((d.updLo (c.u16 2) fun x => { x with e1Mode := c.u8 4 }).lo (c.u16 2)).e1Mode = c.u8 4 :=
    congrArg Lo.e1Mode (Dev.updLo_lo ..)
  rw [Dev.lo_of_mask (Dev.refresh_expose_mask _) (by decide)]
  generalize hf : (d.updLo (c.u16 2) fun x => { x with e1Mode := c.u8 4 }).sendInput (c.u16 2) (d.lo (c.u16 2)).e1Mode = f
  have hlo : (f.lo (c.u16 2)).e1Mode = c.u8 4 := by
    rw [← hf, Dev.lo_of_mask (Dev.sendInput_mask (T := [.host]) (by decide) ..) (by decide), hset]
  split
  · exact hlo
  · split
    · rw [Dev.lo_of_mask (Dev.e1Start_mask (T := [.regs, .plane, .e1s, .points, .host, .jersey]) (by decide) ..) (by decide), hlo]
    · exact hlo

end

end Sys2Proof.Machine
end

section
/-! PROOF of O19: a create or a delete that meets every check is made, and its object then reads as its operands say. -/

namespace Sys2Proof.Machine

theorem damaskSync_self (d : Dev) (m : List Host.Cell) : damaskSync d d m = m := by
  unfold damaskSync
  exact foldl_same fun k _ => if_pos rfl

section
variable {c : Desc} (d : Dev) (j : Nat)

theorem mapCfg_sections (h0 : c.u8 0 ≤ 1) (h1 : c.u8 1 ≤ 1) : mapCfg c d j =
    if c.u8 0 = 0 then (if c.u8 1 = 0 then mapDelete c d j else mapCreate c d j)
    else if c.u8 1 = 0 then vcDelete c d j else vcCreate c d j := by
  unfold mapCfg
  rw [if_neg (by omega), checked_ok (by simp only [List.forall_mem_cons]; exact ⟨decide_eq_true (by omega), decide_eq_true h1,
    List.forall_mem_nil _⟩)]
  obtain h | h : c.u8 0 = 0 ∨ c.u8 0 = 1 := by omega
  all_goals obtain h' | h' : c.u8 1 = 0 ∨ c.u8 1 = 1 := by omega
  all_goals rw [h, h']; rfl

theorem mapCfg_entry (h : c.u8 0 = 2) : mapCfg c d j = entryCfg c d j := if_pos h

end

end Sys2Proof.Machine

namespace Sys2Proof.Claim

open Machine

/-- A row that may change connection words and whose rule carries the command out: the device is that of the rule, with the job's
completion where the rule completes it. -/
theorem answers_hostSync {i : Instr} {op : Nat} {c : Desc} {run : Desc → Dev → Nat → Ran} {s : State} {d : Dev} {r : Option Done}
    {P : State → Prop} (hi : exec i s = hostSync op c run s) (hs : Served op c s.dev)
    (hr : run c (s.dev.opened op c) s.dev.host.nextJob = .ok (d, r))
    (hP : ∀ t : State, t.dev = r.elim d (fun x => d.complete op s.dev.host.nextJob x) → P t) : Answers i s P := by
  obtain ⟨hwf, hl, hh, hq⟩ := hs
  have hrow : exec i s = .next { s with
      dev := r.elim d fun x => d.complete op s.dev.host.nextJob x
      mem := damaskSync s.dev (r.elim d fun x => d.complete op s.dev.host.nextJob x) s.mem } := by
    rw [hi]
    unfold hostSync onSync
    rw [if_pos hwf, onMem_eq]
    dsimp only
    rw [Dev.command_ran hl hh hq hr]
  exact ⟨_, hrow, hP _ rfl⟩

/-- A row that may change connection words, in a device that runs. -/
theorem exec_onSync {i : Instr} {f : Dev → Dev} {s : State} (hi : exec i s = onSync (live f) s) (hl : s.dev.life = .running) :
    exec i s = .next { s with dev := f s.dev, mem := damaskSync s.dev (f s.dev) s.mem } := by
  rw [hi, onSync, onMem_eq]
  dsimp only
  rw [live_running hl]

/-- What MAP_CFG leaves of the objects of the mapping, where its rule carries it out and completes it. -/
theorem answers_mapCfg {s : State} {c : Desc} (hs : Served 0x13 c s.dev) {d : Dev} {P : State → Prop}
    (hr : mapCfg c (s.dev.opened 0x13 c) s.dev.host.nextJob = ran d)
    (hP : ∀ t : State, t.dev.mask [.regs, .host, .jersey] = d.mask [.regs, .host, .jersey] → P t) : Answers (.mapCfg c) s P :=
  answers_hostSync rfl hs hr fun t ht => hP t (by rw [ht]; exact Dev.complete_mask (by decide) ..)

section
variable (d : Dev) (op : Nat) (c : Desc)

theorem opened_parts : (d.opened op c).mask [.regs, .host] = d.mask [.regs, .host] := Dev.opened_mask (by decide) d op c

theorem opened_planned : (d.opened op c).planned.mask [.regs, .host] = d.planned.mask [.regs, .host] := by
  rw [← Dev.planned_mask, opened_parts, Dev.planned_mask]

end

theorem mapCfgMakesVc4sAndEntries : MapCfgMakesVc4sAndEntries := by
  intro s c hs
  have hparts := opened_parts s.dev 0x13 c
  refine ⟨?_, ?_, ?_⟩
  · intro h0 h1 p a n v hp hsdh ha ha' hn hn' hal h5 h5' hv h8 h9 h89 hz hmsp hfree hapart hlo
    have hfits : (s.dev.opened 0x13 c).vcFits c := by
      rw [Dev.vcFits_mask, hparts, ← Dev.vcFits_mask]
      exact ⟨hp, hsdh, ha, ha', hn, hn', hal, h5, h5', hv, h8, h9, h89, hz, hmsp, hfree, hapart, hlo⟩
    refine answers_mapCfg hs (by rw [mapCfg_sections _ _ (by omega) (by omega), if_neg (by omega), if_neg (by omega),
      vcCreate_fits _ hfits]) fun t ht => ?_
    rw [Dev.vc4_of_mask ht (by decide), Dev.vc4_of_mask (Dev.refresh_expose_mask _) (by decide),
      Dev.vc4_of_mask (Dev.sendVc4_mask (T := [.host]) (by decide) ..) (by decide), Dev.setVc4_vc4, vcMade,
      Dev.unlocked_congr (Dev.now_of_mask hparts (by decide))]
  · intro v x h0 h1 hp hmsp hv hx hheld hpages hfeeds hrole
    have hloose : (s.dev.opened 0x13 c).vcLoose c v x := by
      rw [Dev.vcLoose_mask, hparts, ← Dev.vcLoose_mask]
      exact ⟨hp, hmsp, hv, hx, hheld, hpages, hfeeds, hrole⟩
    refine answers_mapCfg hs (by rw [mapCfg_sections _ _ (by omega) (by omega), if_neg (by omega), if_pos h1,
      vcDelete_loose _ hloose]) fun t ht => ?_
    rw [Dev.vc4_of_mask ht (by decide), Dev.vc4_of_mask (Dev.refresh_expose_mask _) (by decide), Dev.setVc4_vc4]
  · intro h0 e m h1 he hm hvc3 hz hexists hmade hrole
    have hfits : (s.dev.opened 0x13 c).entryFits c := by
      rw [Dev.entryFits_mask, hparts, ← Dev.entryFits_mask]
      exact ⟨h1, he, hm, hvc3, hz, hexists, hmade, hrole⟩
    obtain ⟨d, hran, hmode⟩ := entryCfg_fits s.dev.host.nextJob hfits
    refine answers_mapCfg hs ((mapCfg_entry _ _ h0).trans hran) fun t ht => ?_
    rw [Dev.lo_of_mask ht (by decide)]
    exact hmode

/-- A tributary's create or delete waits, and completes later. -/
theorem answers_mapWaits {s : State} {c : Desc} (hs : Served 0x13 c s.dev) {o : Nat} {x : Odu} {make : Option Odu} (hk : x.kind = 1)
    (hr : mapCfg c (s.dev.opened 0x13 c) s.dev.host.nextJob = (s.dev.opened 0x13 c).mapWait o s.dev.host.nextJob x make) :
    Answers (.mapCfg c) s fun t => t.dev.mapJobs = s.dev.mapJobs ++ [{ odu := o, job := s.dev.host.nextJob, make := make }]
      ∧ t.dev.odus = s.dev.odus := by
  have hparts := opened_parts s.dev 0x13 c
  unfold Dev.mapWait at hr
  rw [if_pos hk] at hr
  refine answers_hostSync rfl hs hr fun t ht => ?_
  rw [ht]
  have hodus : (s.dev.opened 0x13 c).odus = s.dev.odus := Dev.odus_of_mask hparts (by decide)
  exact ⟨congrArg (· ++ _) (Dev.mapJobs_of_mask hparts (by decide)), hodus⟩

/-- Any other create or delete is made at once. -/
theorem answers_mapMade {s : State} {c : Desc} (hs : Served 0x13 c s.dev) {o : Nat} {x : Odu} {make : Option Odu} (hk : x.kind ≠ 1)
    (hr : mapCfg c (s.dev.opened 0x13 c) s.dev.host.nextJob = (s.dev.opened 0x13 c).mapWait o s.dev.host.nextJob x make) :
    Answers (.mapCfg c) s fun t => t.dev.odu o = (make.map fun x => { x with omfi := s.dev.unlocked }) ∧ t.dev.mapJobs = s.dev.mapJobs := by
  have hparts := opened_parts s.dev 0x13 c
  unfold Dev.mapWait at hr
  rw [if_neg hk] at hr
  refine answers_mapCfg hs hr fun t ht => ⟨?_, ?_⟩
  · rw [Dev.odu_of_mask ht (by decide), Dev.odu_of_mask (Dev.refresh_expose_mask _) (by decide), Dev.mapApply_odu,
      Dev.unlocked_congr (Dev.now_of_mask hparts (by decide))]
  · rw [Dev.mapJobs_of_mask ht (by decide), Dev.mapJobs_of_mask (Dev.refresh_expose_mask _) (by decide),
      Dev.mapJobs_of_mask (Dev.mapApply_mask (T := [.odus, .xc, .host]) (by decide) ..) (by decide), Dev.mapJobs_of_mask hparts (by decide)]

theorem mapCfgMakesAndTakesOdus : MapCfgMakesAndTakesOdus := by
  intro s
  refine ⟨?section0, fun o hl => ⟨fun j hj => ?effect, fun mf hmf => ?later⟩⟩
  case section0 =>
    intro c hs h0 o x plan wait ho
    have hsections := mapCfg_sections (s.dev.opened 0x13 c) s.dev.host.nextJob (c := c) (by omega)
    refine ⟨?create, ?delete⟩
    case create =>
      intro h1 hkind htypes hpay hflags hflags' hflex hgfp hgfp' hfree hline htrib hpacket hbudget
      have hfits : (s.dev.opened 0x13 c).oduFits (s.dev.opened 0x13 c).planned c := by
        rw [Dev.oduFits_mask, opened_parts, opened_planned, ← Dev.oduFits_mask]
        exact ⟨ho, hkind, htypes, hpay, hflags, hflags', hflex, hgfp, hgfp', hfree, hline, htrib, hpacket, hbudget⟩
      have hrun := (hsections (by omega)).trans
        (by rw [if_pos h0, if_neg (by omega), mapCreate_fits hfits])
      exact ⟨fun hk => answers_mapWaits hs hk hrun, fun hk => answers_mapMade hs hk hrun⟩
    case delete =>
      intro y h1 hy hbudget hleaf hpages hrole htcm
      have hloose : (s.dev.opened 0x13 c).oduLoose (s.dev.opened 0x13 c).planned o := by
        rw [Dev.oduLoose_mask, opened_parts, opened_planned, ← Dev.oduLoose_mask]
        exact ⟨ho, hbudget, hleaf, hpages, hrole, htcm⟩
      have hodu : (s.dev.opened 0x13 c).planned.odu o = some y :=
        (Dev.odu_of_mask (opened_planned s.dev 0x13 c) (by decide) o).trans hy
      have hrun := (hsections (by omega)).trans
        (by rw [if_pos h0, if_pos h1, mapDelete_loose hodu hloose])
      exact ⟨fun hk => answers_mapWaits hs hk hrun, fun hk => (answers_mapMade hs hk hrun).imp fun t ht => ⟨ht.1, ht.2.1⟩⟩
  case effect =>
    exact ⟨_, exec_onSync rfl hl, mapTakesEffect_applies hj⟩
  case later =>
    refine (exec_onSync rfl hl).trans ?_
    rw [mapTakesEffect_later (by simpa [BitVec.toNat_eq] using hmf), damaskSync_self]

/-- Settles O19: MAP_CFG and the frame with which its waiting creates and deletes take effect. -/
theorem mapCfgMakesItsObjects : Obligations.MapCfgMakesItsObjects := ⟨mapCfgMakesAndTakesOdus, mapCfgMakesVc4sAndEntries⟩

end Sys2Proof.Claim
end

section
/-! SUPPORT. Justification and pointers (R152–R167, R177): what one multiframe or one frame leaves of its ODU, its entry or its
VC-4. -/

namespace Sys2Proof.Machine

/-! ### GMP (R152, R153) -/

/-- The Cm that received justification bytes carry. -/
def gmpCm (jc : BitVec 48) : Nat := (byteOf (jc.setWidth 64) 0).toNat * 64 + (byteOf (jc.setWidth 64) 1).toNat / 4

/-- The ΣCnD that received justification bytes carry. -/
def gmpCnd (jc : BitVec 48) : Nat := (byteOf (jc.setWidth 64) 3).toNat % 32 * 32 + (byteOf (jc.setWidth 64) 4).toNat % 32

/-- The received Cm is valid and in range. -/
def Odu.gmpGood (x : Odu) (sv : Nat) (jc : BitVec 48) : Bool :=
  decide (jcCrc8 (byteOf (jc.setWidth 64) 0) (byteOf (jc.setWidth 64) 1) = (byteOf (jc.setWidth 64) 2).toNat) && cmOk x sv (gmpCm jc)

theorem Odu.gmpGood_iff (x : Odu) (sv : Nat) (jc : BitVec 48) : x.gmpGood sv jc = true ↔
    jcCrc8 (byteOf (jc.setWidth 64) 0) (byteOf (jc.setWidth 64) 1) = (byteOf (jc.setWidth 64) 2).toNat ∧ cmOk x sv (gmpCm jc) = true := by
  simp only [Odu.gmpGood, Bool.and_eq_true, decide_eq_true_eq]

/-- An ODU as its demapper has read the justification bytes of a multiframe. -/
def Odu.gmpRead (x : Odu) (sv : Nat) (jc : BitVec 48) : Odu :=
  { x with
    cnd := if jcCrc5 (byteOf (jc.setWidth 64) 3) (byteOf (jc.setWidth 64) 4) = (byteOf (jc.setWidth 64) 5).toNat % 32 then gmpCnd jc else x.cnd
    cm := if x.gmpGood sv jc then gmpCm jc else x.cm
    jcBad := !x.gmpGood sv jc
    jcErr := if x.gmpGood sv jc then x.jcErr else min (x.jcErr + 1) 255 }

/-- The device with the ΣCnD that received justification bytes carry, where they check. -/
def Dev.gmpSum (d : Dev) (o : Nat) (jc : BitVec 48) : Dev :=
  if jcCrc5 (byteOf (jc.setWidth 64) 3) (byteOf (jc.setWidth 64) 4) = (byteOf (jc.setWidth 64) 5).toNat % 32 then
    d.updOdu o fun x => { x with cnd := gmpCnd jc } else d

theorem Dev.gmpDemap_eq (d : Dev) (o : Nat) (x : Odu) (sv : Nat) (jc : BitVec 48) : d.gmpDemap o x sv jc =
    if x.gmpGood sv jc then (d.gmpSum o jc).updOdu o fun x => { x with cm := gmpCm jc, jcBad := false }
    else
      let e := (d.gmpSum o jc).updOdu o fun x => { x with jcBad := true, jcErr := min (x.jcErr + 1) 255 }
      let e := if x.jcBad then e else e.oduPost o 0x1403
      if decide (jcCrc8 (byteOf (jc.setWidth 64) 0) (byteOf (jc.setWidth 64) 1) = (byteOf (jc.setWidth 64) 2).toNat) then e.oduAlarm o
      else e := rfl

/-- The Cm that a mapper sends for `n` more client bytes. -/
def Odu.gmpSent (x : Odu) (sv n : Nat) : Nat :=
  max (cmRange x sv).1 (min (cmRange x sv).2 ((x.cndTx + n) / ((gmpServer sv).2.1 * x.ts.length)))

/-- The ΣCnD that a mapper sends with it. -/
def Odu.gmpLeft (x : Odu) (sv n : Nat) : Nat :=
  if (x.cndTx + n) / ((gmpServer sv).2.1 * x.ts.length) = x.gmpSent sv n then (x.cndTx + n) % ((gmpServer sv).2.1 * x.ts.length) else 0

section
variable {d : Dev} {o : Nat} {x y : Odu}

theorem Dev.gmpDemap_odu (hx : d.odu o = some x) (sv : Nat) (jc : BitVec 48) :
    ∃ z, (d.gmpDemap o x sv jc).odu o = some z ∧ z.unalarmed = (x.gmpRead sv jc).unalarmed := by
  have hcnd : (d.gmpSum o jc).odu o = some { x with cnd := (x.gmpRead sv jc).cnd } := by
    unfold Dev.gmpSum Odu.gmpRead
    dsimp only
    split
    · exact Dev.updOdu_some hx _
    · exact hx
  rw [Dev.gmpDemap_eq]
  generalize d.gmpSum o jc = e at hcnd ⊢
  dsimp only
  split
  next hgood => exact ⟨_, Dev.updOdu_some hcnd _, by unfold Odu.gmpRead; rw [hgood]; rfl⟩
  next hbad =>
    have hread : ({ x with cnd := (x.gmpRead sv jc).cnd, jcBad := true, jcErr := min (x.jcErr + 1) 255 } : Odu).unalarmed
        = (x.gmpRead sv jc).unalarmed := by
      unfold Odu.gmpRead
      rw [Bool.eq_false_iff.mpr hbad]
      rfl
    have hset := Dev.updOdu_some hcnd fun x => { x with jcBad := true, jcErr := min (x.jcErr + 1) 255 }
    generalize e.updOdu o (fun x => { x with jcBad := true, jcErr := min (x.jcErr + 1) 255 }) = e at hset ⊢
    obtain ⟨z, hz, hkeep⟩ : ∃ z, (if x.jcBad then e else e.oduPost o 0x1403).odu o = some z
        ∧ z.unalarmed = (x.gmpRead sv jc).unalarmed := by
      split
      · exact ⟨_, hset, hread⟩
      · obtain ⟨z, hz, hkeep⟩ := Dev.oduPost_odu hset 0x1403
        exact ⟨z, hz, (Odu.unalarmed_of_unposted hkeep).trans hread⟩
    generalize (if x.jcBad then e else e.oduPost o 0x1403) = e at hz ⊢
    split
    · obtain ⟨z', hz', hkeep', -⟩ := Dev.oduAlarm_odu hz
      exact ⟨z', hz', hkeep'.trans hkeep⟩
    · exact ⟨z, hz, hkeep⟩

theorem Dev.gmpMap_odu (hy : d.odu o = some y) (x : Odu) (sv n : Nat) : ∃ z, (d.gmpMap o x sv n).odu o = some z
    ∧ z.unalarmed = ({ y with cmTx := x.gmpSent sv n, cndTx := x.gmpLeft sv n } : Odu).unalarmed := by
  unfold Dev.gmpMap
  dsimp only
  obtain ⟨z, hz, hkeep, -⟩ := Dev.oduLimit_odu (d := (d.updOdu o fun x' => { x' with cmTx := x.gmpSent sv n, cndTx := x.gmpLeft sv n }).emit
    (.justification o (x.ts.foldl max 0) (jcBytes (x.gmpSent sv n) (x.gmpLeft sv n) (decide (x.gmpSent sv n ≠ x.cmTx)))))
    (Dev.updOdu_some hy _) _ _
  exact ⟨z, hz, hkeep⟩

theorem Dev.gmpMap_out (d : Dev) (o : Nat) (x : Odu) (sv n : Nat) :
    .justification o (x.ts.foldl max 0) (jcBytes (x.gmpSent sv n) (x.gmpLeft sv n) (decide (x.gmpSent sv n ≠ x.cmTx)))
      ∈ (d.gmpMap o x sv n).host.out := by
  unfold Dev.gmpMap
  exact (Dev.oduLimit_out ..).subset List.mem_cons_self

/-- What a multiframe has changed of an ODU, apart from its alarm. -/
theorem Odu.sent_fields {x y : Odu} {cm cnd : Nat} (h : y.unalarmed = ({ x with cmTx := cm, cndTx := cnd } : Odu).unalarmed) :
    y.cmTx = cm ∧ y.cndTx = cnd ∧ y.cm = x.cm ∧ y.cnd = x.cnd ∧ y.jcBad = x.jcBad ∧ y.jcErr = x.jcErr :=
  ⟨(congrArg Odu.cmTx h :), (congrArg Odu.cndTx h :), (congrArg Odu.cm h :), (congrArg Odu.cnd h :), (congrArg Odu.jcBad h :),
    (congrArg Odu.jcErr h :)⟩

/-- One multiframe: what is read, where there is a frame, and what is sent. -/
theorem gmpFrame_odu (hx : d.odu o = some x) {sv : Nat} (hsv : d.serverTy o = some sv) (h : sv = 7 ∨ sv = 4) (jc : BitVec 48) (n : Nat) :
    ∃ z, (gmpFrame o jc n d).odu o = some z
      ∧ z.unalarmed = ({ (if d.oduFramed o then x.gmpRead sv jc else x) with cmTx := x.gmpSent sv n, cndTx := x.gmpLeft sv n } : Odu).unalarmed
      ∧ .justification o (x.ts.foldl max 0) (jcBytes (x.gmpSent sv n) (x.gmpLeft sv n) (decide (x.gmpSent sv n ≠ x.cmTx)))
        ∈ (gmpFrame o jc n d).host.out := by
  have hrow : gmpFrame o jc n d = (if d.oduFramed o then d.gmpDemap o x sv jc else d).gmpMap o x sv n := by
    unfold gmpFrame
    rw [hx, hsv]
    exact if_pos (by simpa using h)
  obtain ⟨y, hy, hread⟩ : ∃ y, (if d.oduFramed o then d.gmpDemap o x sv jc else d).odu o = some y
      ∧ y.unalarmed = (if d.oduFramed o then x.gmpRead sv jc else x).unalarmed := by
    split
    · exact Dev.gmpDemap_odu hx sv jc
    · exact ⟨x, hx, rfl⟩
  obtain ⟨z, hz, hsent⟩ := Dev.gmpMap_odu hy x sv n
  rw [hrow]
  exact ⟨z, hz, hsent.trans (congrArg (fun u : Odu => { u with cmTx := x.gmpSent sv n, cndTx := x.gmpLeft sv n }) hread :),
    Dev.gmpMap_out ..⟩

/-! ### AMP (R154) -/

theorem jcActs_data (a b c : BitVec 2) : jcActs a b c = 0 ∨ jcActs a b c = 1 ∨ jcActs a b c = 3 := by
  unfold jcActs
  split
  · exact .inr (.inr rfl)
  · exact .inr (.inl rfl)
  · exact .inl rfl

theorem ampDemap_odu (hx : d.odu o = some x) (jc : BitVec 2 × BitVec 2 × BitVec 2) (njo pjo : Byte) :
    (ampDemap o jc njo pjo d).odu o = some { x with jcRx := jcActs jc.1 jc.2.1 jc.2.2 } := Dev.updOdu_some hx _

/-- A mapper within its range, whose store neither overflows nor is empty. -/
theorem ampMap_within {acc : Int} {f : AmpFill} (hf : 0 < f.fill) (hf' : f.fill ≤ 32) (hlo : -20 ≤ f.ppm) (hhi : f.ppm ≤ 20) :
    ampMap o acc f d = (d.updOdu o fun y => { y with
      jcTx := jcSends f.fill, ampAcc := 0
      ampFill := if jcSends f.fill = 1 then f.fill - 1 else if jcSends f.fill = 3 then min (f.fill + 1) 32 else f.fill }).emit
      (.ampTx o (jcSends f.fill) (njoData (jcSends f.fill)) (pjoData (jcSends f.fill))) := by
  have hbeyond : (decide (f.ppm < -20) || decide (20 < f.ppm)) = false := by simp; omega
  unfold ampMap
  dsimp only
  rw [hbeyond, if_neg Bool.false_ne_true, if_neg Bool.false_ne_true, Nat.min_eq_left hf', if_neg (show ¬ f.fill = 0 by omega),
    Nat.sub_eq_zero_of_le hf']
  exact if_pos rfl

/-- A client beyond ±20 ppm alarms. -/
theorem ampMap_beyond (hx : d.odu o = some x) (acc : Int) {f : AmpFill} (h : f.ppm < -20 ∨ 20 < f.ppm) :
    ∃ z, (ampMap o acc f d).odu o = some z ∧ z.rateAlarm = true ∧ z.inRange = d.now := by
  have hbeyond : (decide (f.ppm < -20) || decide (20 < f.ppm)) = true := by simpa using h
  unfold ampMap
  dsimp only
  rw [hbeyond, if_pos rfl, if_pos rfl]
  generalize hupd : (fun y : Odu => { y with
    jcTx := (ampLimit acc f.ppm).1, ampAcc := (ampLimit acc f.ppm).2
    ampFill := if (ampLimit acc f.ppm).1 = 1 then min f.fill 32 - 1
      else if (ampLimit acc f.ppm).1 = 3 then min (min f.fill 32 + 1) 32 else min f.fill 32 }) = upd
  have hset : ((d.updOdu o upd).emit (.ampTx o (ampLimit acc f.ppm).1 (njoData (ampLimit acc f.ppm).1)
      (pjoData (ampLimit acc f.ppm).1))).odu o = some (upd x) := Dev.updOdu_some hx upd
  obtain ⟨y, hy, -, halarm, hrange⟩ := Dev.oduAlarm_odu hset
  obtain ⟨z, hz, -, hkeep⟩ := Dev.oduLimit_odu hy (f.fill - 32) (if f.fill = 0 then 1 else 0)
  have hnow : ∀ e : Dev, (e.oduAlarm o).now = e.now := fun e =>
    Dev.now_of_mask (Dev.oduAlarm_mask (T := [.regs, .odus, .host, .jersey]) (by decide) e o) (by decide)
  exact ⟨z, hz, hkeep ⟨halarm, hrange.trans (hnow _).symm⟩ |>.imp_right (·.trans (hnow _))⟩

/-- A multiframe of a client within its range, in frame. -/
theorem ampFrame_within (hx : d.odu o = some x) (hsv : d.serverTy o = some 2) (hframe : d.oduFramed o = true)
    (jc : BitVec 2 × BitVec 2 × BitVec 2) (njo pjo : Byte) {f : AmpFill} (hf : 0 < f.fill) (hf' : f.fill ≤ 32) (hlo : -20 ≤ f.ppm)
    (hhi : f.ppm ≤ 20) : ∃ y, (ampFrame o jc njo pjo f d).odu o = some y ∧ y.jcRx = jcActs jc.1 jc.2.1 jc.2.2 ∧ y.jcTx = jcSends f.fill
      ∧ (ampFrame o jc njo pjo f d).host.out = .ampTx o (jcSends f.fill) (njoData (jcSends f.fill)) (pjoData (jcSends f.fill))
        :: .ampRx o ((if njoData (jcActs jc.1 jc.2.1 jc.2.2) then [njo] else []) ++ (if pjoData (jcActs jc.1 jc.2.1 jc.2.2) then [pjo] else []))
        :: d.host.out := by
  unfold ampFrame
  rw [if_pos hsv, if_pos hframe, ampMap_within hf hf' hlo hhi]
  exact ⟨_, Dev.updOdu_some (ampDemap_odu hx jc njo pjo) _, rfl, rfl, rfl⟩

theorem ampFrame_beyond (hx : d.odu o = some x) (hsv : d.serverTy o = some 2) (jc : BitVec 2 × BitVec 2 × BitVec 2) (njo pjo : Byte)
    {f : AmpFill} (h : f.ppm < -20 ∨ 20 < f.ppm) :
    ∃ z, (ampFrame o jc njo pjo f d).odu o = some z ∧ z.rateAlarm = true ∧ z.inRange = d.now := by
  unfold ampFrame
  rw [if_pos hsv]
  split
  · exact ampMap_beyond (d := ampDemap o jc njo pjo d) (ampDemap_odu hx jc njo pjo) _ h
  · exact ampMap_beyond hx _ h

end

/-! ### The E1 in C-12 (R161–R167) -/

section
variable {d : Dev} {e : Nat}

theorem rateAlarmClear_odu {o : Nat} {x : Odu} (hx : d.odu o = some x) (ha : x.rateAlarm = true) (hr : x.inRange + 1000000000 ≤ d.now) :
    ∃ y, (rateAlarmClear true o d).odu o = some y ∧ y.rateAlarm = false := by
  unfold rateAlarmClear
  rw [if_pos rfl, hx]
  dsimp only
  rw [if_pos (by simp [ha, Dev.after, hr])]
  obtain ⟨y, hy, hkeep⟩ := Dev.oduPost_odu (Dev.updOdu_some hx fun x => { x with rateAlarm := false }) 0x1402
  exact ⟨y, hy, (congrArg Odu.rateAlarm hkeep :)⟩

theorem rateAlarmClear_lo (ha : (d.lo e).rateAlarm = true) (hr : (d.lo e).inRange + 1000000000 ≤ d.now) :
    ((rateAlarmClear false e d).lo e).rateAlarm = false := by
  unfold rateAlarmClear
  rw [if_neg Bool.false_ne_true]
  dsimp only
  rw [if_pos (by simp [ha, Dev.after, hr])]
  refine (congrArg Lo.rateAlarm (Dev.loPost_lo ..) :).trans ?_
  rw [Dev.updLo_lo]
  rfl

/-- E1 bits that enter the store of a mapper in a multiframe. -/
def Dev.c12Arrived (d : Dev) (e : Nat) : Nat :=
  if (d.lo e).e1Mode = 3 then (e1Clock (d.lo e).mapPhase (d.circuit e).dev).1 else (d.lo e).arrived

theorem c12Map_lo (bits : List Bool) (hm : (d.lo e).e1Mode = 2 ∨ (d.lo e).e1Mode = 3) :
    let c := cBits (d.lo e).mapFill
    let ones := decide ((d.lo e).e1Mode = 3) && (d.circuit e).lops
    ((c12Map e bits d).lo e).cBits = c
      ∧ ((c12Map e bits d).lo e).mapFill = min ((d.lo e).mapFill + d.c12Arrived e - e1Bits c) 32 ∧ ((c12Map e bits d).lo e).arrived = 0
      ∧ .c12 e (c12Bytes c ((List.range (e1Bits c)).map fun i => ones || bits.getD i true)) ∈ (c12Map e bits d).host.out := by
  intro c ones
  unfold c12Map
  dsimp only
  rw [if_pos (by simpa using hm)]
  generalize hp : (if (d.lo e).e1Mode = 3 then e1Clock (d.lo e).mapPhase (d.circuit e).dev else ((d.lo e).arrived, (d.lo e).mapPhase)) = p
  have hn : d.c12Arrived e = p.1 := by
    rw [← hp]
    unfold Dev.c12Arrived
    split <;> rfl
  rw [hn]
  generalize hupd : (fun x : Lo => { x with
    cBits := c, mapFill := min ((d.lo e).mapFill + p.1 - e1Bits c) 32, arrived := 0, mapPhase := p.2 }) = upd
  have hset : ((d.updLo e upd).lo e) = upd (d.lo e) := Dev.updLo_lo ..
  generalize hf : (d.updLo e upd).emit _ = f
  have hlo : f.lo e = upd (d.lo e) := by rw [← hf]; exact hset
  have hout : .c12 e (c12Bytes c ((List.range (e1Bits c)).map fun i => ones || bits.getD i true)) ∈ f.host.out := by
    rw [← hf]
    exact List.mem_cons_self
  have hkeep : ∀ (lim : Bool) (m : Out), ((if lim then (f.emit m).loAlarm e else f).lo e).unalarmed = (upd (d.lo e)).unalarmed
      ∧ f.host.out <:+ (if lim then (f.emit m).loAlarm e else f).host.out := fun lim m => by
    split
    · exact ⟨(Dev.loAlarm_lo ..).trans (congrArg Lo.unalarmed hlo), (List.suffix_cons _ _).trans (Dev.loAlarm_out (f.emit m) e)⟩
    · exact ⟨congrArg Lo.unalarmed hlo, List.suffix_rfl⟩
  rw [← hupd] at hkeep
  obtain ⟨hsame, hsuffix⟩ := hkeep _ _
  exact ⟨(congrArg Lo.cBits hsame :), (congrArg Lo.mapFill hsame :), (congrArg Lo.arrived hsame :), hsuffix.subset hout⟩

/-- The desynchroniser takes a fill, or slips at either end. -/
theorem Dev.desyncTo_lo (d : Dev) (e : Nat) (f : Int) : if f ≤ 0 ∨ 256 ≤ f
    then ((d.desyncTo e f).lo e).desync = 128 ∧ ((d.desyncTo e f).lo e).slips = min ((d.lo e).slips + 1) 255
    else ((d.desyncTo e f).lo e).desync = f.toNat := by
  unfold Dev.desyncTo
  simp only [Bool.or_eq_true, decide_eq_true_eq]
  split
  next h =>
    have hkeep : ((((d.updLo e fun x => { x with desync := 128, slips := min (x.slips + 1) 255 }).loPost e 0x1407).loAlarm e).lo e).unalarmed
        = ((d.updLo e fun x => { x with desync := 128, slips := min (x.slips + 1) 255 }).lo e).unalarmed :=
      (Dev.loAlarm_lo ..).trans (Lo.unalarmed_of_unposted (Dev.loPost_lo ..))
    rw [Dev.updLo_lo] at hkeep
    exact ⟨(congrArg Lo.desync hkeep :), (congrArg Lo.slips hkeep :)⟩
  next h => rw [Dev.updLo_lo]

theorem Dev.desyncTo_ptr (d : Dev) (e : Nat) (f : Int) : ((d.desyncTo e f).lo e).ptr = (d.lo e).ptr := by
  unfold Dev.desyncTo
  split
  · refine (congrArg Lo.ptr ((Dev.loAlarm_lo ..).trans (Lo.unalarmed_of_unposted (Dev.loPost_lo ..))) :).trans ?_
    rw [Dev.updLo_lo]
    rfl
  · rw [Dev.updLo_lo]

theorem Dev.desyncTo_out (d : Dev) (e : Nat) (f : Int) : d.host.out <:+ (d.desyncTo e f).host.out := by
  unfold Dev.desyncTo
  split
  · exact (Dev.loPost_out (d.updLo e _) e 0x1407).trans (Dev.loAlarm_out ..)
  · exact List.suffix_rfl

/-- What the demapper delivers of a multiframe. -/
def Dev.c12Bits (d : Dev) (e : Nat) (bytes : List Byte) : List Bool :=
  if d.e1Ais e then List.replicate 1024 true else if d.loFramed e then c12Read bytes else []

/-- Bits that leave the desynchroniser in a multiframe. -/
def Dev.c12Sent (d : Dev) (e : Nat) (bytes : List Byte) : Nat :=
  (((d.lo e).leakTo d.now).desyncStep (d.c12Bits e bytes).length (d.e1Ais e)).2.1

/-- The leak and the loop leave the fill and the count of slips as they were. -/
theorem Lo.desyncStep_fill (x : Lo) (now n : Nat) (tsu : Bool) :
    ((x.leakTo now).desyncStep n tsu).1.desync = x.desync ∧ ((x.leakTo now).desyncStep n tsu).1.slips = x.slips := by
  unfold Lo.leakTo
  dsimp only
  split <;> exact ⟨rfl, rfl⟩

theorem c12Demap_lo (bytes : List Byte) (hm : (d.lo e).e1Mode ≠ 0) :
    let fill : Int := (d.lo e).desync + (d.c12Bits e bytes).length - d.c12Sent e bytes
    .e1 e (d.c12Bits e bytes) (d.e1Ais e) ∈ (c12Demap e bytes d).host.out
      ∧ if fill ≤ 0 ∨ 256 ≤ fill
        then ((c12Demap e bytes d).lo e).desync = 128 ∧ ((c12Demap e bytes d).lo e).slips = min ((d.lo e).slips + 1) 255
        else ((c12Demap e bytes d).lo e).desync = fill.toNat := by
  intro fill
  obtain ⟨hdesync, hslips⟩ := Lo.desyncStep_fill (d.lo e) d.now (d.c12Bits e bytes).length (d.e1Ais e)
  have hrow : c12Demap e bytes d =
      let x := ((d.lo e).leakTo d.now).desyncStep (d.c12Bits e bytes).length (d.e1Ais e)
      let f := (d.updLo e fun _ => x.1).emit (.e1 e (d.c12Bits e bytes) (d.e1Ais e))
      (if x.2.2 then f.loAlarm e else f).desyncTo e ((x.1.desync : Int) + (d.c12Bits e bytes).length - x.2.1) := by
    unfold c12Demap
    rw [if_neg hm]
    rfl
  rw [hrow]
  have hsent : d.c12Sent e bytes = (((d.lo e).leakTo d.now).desyncStep (d.c12Bits e bytes).length (d.e1Ais e)).2.1 := rfl
  generalize ((d.lo e).leakTo d.now).desyncStep (d.c12Bits e bytes).length (d.e1Ais e) = x at hdesync hslips hsent ⊢
  have hfill : fill = (x.1.desync : Int) + (d.c12Bits e bytes).length - x.2.1 := by rw [hdesync, ← hsent]
  dsimp only
  generalize hf : (d.updLo e fun _ => x.1).emit (.e1 e (d.c12Bits e bytes) (d.e1Ais e)) = f
  have hlo : f.lo e = x.1 := by
    rw [← hf]
    exact Dev.updLo_lo d e fun _ => x.1
  have hout : .e1 e (d.c12Bits e bytes) (d.e1Ais e) ∈ f.host.out := by
    rw [← hf]
    exact List.mem_cons_self
  obtain ⟨hkeep, hsuffix⟩ : ((if x.2.2 then f.loAlarm e else f).lo e).unalarmed = x.1.unalarmed
      ∧ f.host.out <:+ (if x.2.2 then f.loAlarm e else f).host.out := by
    split
    · exact ⟨(Dev.loAlarm_lo ..).trans (congrArg Lo.unalarmed hlo), Dev.loAlarm_out f e⟩
    · exact ⟨congrArg Lo.unalarmed hlo, List.suffix_rfl⟩
  generalize (if x.2.2 then f.loAlarm e else f) = g at hkeep hsuffix ⊢
  have hstep := g.desyncTo_lo e ((x.1.desync : Int) + (d.c12Bits e bytes).length - x.2.1)
  have hslips' : (g.lo e).slips = (d.lo e).slips := (congrArg Lo.slips hkeep :).trans hslips
  rw [hslips', ← hfill] at hstep
  rw [← hfill]
  exact ⟨(hsuffix.trans (Dev.desyncTo_out ..)).subset hout, hstep⟩

end

/-! ### Pointers (R158–R160) -/

section
variable {x : Ptr} {w : BitVec 16} (top : Nat)

theorem ptrRead_inc (hst : x.st = 1) (hsince : 2 ≤ x.sinceChange) (h : Claim.Step x.off w true) : ptrRead x w = .inc := by
  obtain ⟨hw, hndf, hi, hd⟩ := h
  unfold ptrRead
  dsimp only
  rw [if_neg hw, hndf]
  exact if_pos (by simpa [hst, hsince, Claim.inverted] using And.intro hi hd)

theorem ptrRead_dec (hst : x.st = 1) (hsince : 2 ≤ x.sinceChange) (h : Claim.Step x.off w false) : ptrRead x w = .dec := by
  obtain ⟨hw, hndf, hd, hi⟩ := h
  unfold ptrRead
  dsimp only
  rw [if_neg hw, hndf]
  refine (if_neg ?_).trans (if_pos (by simpa [hst, hsince, Claim.inverted] using And.intro hd hi))
  have hlow : bitsAt (w.toNat % 1024 ^^^ x.off) [9, 7, 5, 3, 1] < 3 := hi
  simp only [Bool.and_eq_true, decide_eq_true_eq]
  omega

theorem ptrRead_ndf (hw : w ≠ 0xFFFF) (h : ndfOf (w.toNat / 4096) = some true) : ptrRead x w = .ndf (w.toNat % 1024) := by
  unfold ptrRead
  dsimp only
  rw [if_neg hw, h]

theorem ptrRead_ais (x : Ptr) : ptrRead x 0xFFFF = .ais := by
  unfold ptrRead
  exact if_pos rfl

theorem ptrStep_inc (hst : x.st = 1) : (ptrStep top x .inc).off = (x.off + 1) % (top + 1) ∧ (ptrStep top x .inc).st = 1
    ∧ (ptrStep top x .inc).inc = min (x.inc + 1) 255 := by
  have hst' : (ptrRuns top x .inc).st = 1 := hst
  unfold ptrStep
  dsimp only
  rw [hst']
  exact ⟨rfl, rfl, rfl⟩

theorem ptrStep_dec (hst : x.st = 1) : (ptrStep top x .dec).off = (x.off + top) % (top + 1) ∧ (ptrStep top x .dec).st = 1
    ∧ (ptrStep top x .dec).dec = min (x.dec + 1) 255 := by
  have hst' : (ptrRuns top x .dec).st = 1 := hst
  unfold ptrStep
  dsimp only
  rw [hst']
  exact ⟨rfl, rfl, rfl⟩

theorem ptrStep_ndf (hst : x.st = 1) {o : Nat} (ho : o ≤ top) (hrun : x.ndfRun < 7) :
    (ptrStep top x (.ndf o)).off = o ∧ (ptrStep top x (.ndf o)).st = 1 := by
  have hclass : ptrClass top (.ndf o) = .ndf o := if_pos ho
  have hruns : ptrRuns top x (.ndf o) = { x with
      sinceChange := min (x.sinceChange + 1) 3, aisRun := 0, invRun := 0, ndfRun := min (x.ndfRun + 1) 15, candRun := 0 } := by
    unfold ptrRuns
    rw [hclass]
    rfl
  have hrun' : ¬ 7 ≤ x.ndfRun := by omega
  unfold ptrStep
  dsimp only
  rw [hclass, hruns]
  simp [hst, Ptr.to, hrun']

theorem ptrStep_ais (hst : x.st = 1) (hrun : 2 ≤ x.aisRun) : (ptrStep top x .ais).st = 2 := by
  have hst' : (ptrRuns top x .ais).st = 1 := hst
  have hais : 3 ≤ (ptrRuns top x .ais).aisRun := by
    show 3 ≤ min (x.aisRun + 1) 15
    omega
  unfold ptrStep
  dsimp only
  rw [hst']
  exact congrArg Ptr.st (if_pos hais)

/-- An AU-4 of one AUG reads its pointer alone (R159). -/
theorem ptrFrame_alone (x : Ptr) (rx : PtrRx) : ptrFrame top x rx [] = { ptrStep top x rx with concRuns := [] } := by
  unfold ptrFrame
  simp

/-- Three frames after a justification the generator moves its offset by the fill of its store (R160). -/
theorem ptrGen_moves {k : PtrKind} {fill : Nat} (hndf : x.ndfDue = false) (hgap : 3 ≤ x.genGap) (hfill : fill ≤ k.store) (phase : Nat) :
    (ptrGen k x fill phase).txOff = if fill ≤ k.low then (x.txOff + 1) % (k.top + 1)
      else if k.high ≤ fill then (x.txOff + k.top) % (k.top + 1) else x.txOff := by
  unfold ptrGen
  dsimp only
  rw [hndf, if_neg Bool.false_ne_true, if_neg (by omega), Nat.min_eq_left hfill]
  split
  · rfl
  · split <;> rfl

end

section
variable {d : Dev} {v : Nat} {x : Vc4}

theorem Dev.updVc4_some (hx : d.vc4 v = some x) (f : Vc4 → Vc4) : (d.updVc4 v f).vc4 v = some (f x) := by
  rw [Dev.updVc4_vc4, hx]; rfl

/-- The multiframe of a VC-4 that leaves NORM does not touch its pointer. -/
theorem Dev.dropH4_ptr (hx : d.vc4 v = some x) : ∃ y, (d.dropH4 v).vc4 v = some y ∧ y.ptr = x.ptr := by
  unfold Dev.dropH4
  rw [hx]
  dsimp only
  split
  · have hset := Dev.updVc4_some hx fun x => { x with h4 := d.unlocked }
    have hmask := Dev.frRaise_mask (T := [.regs, .host, .jersey]) (by decide) (d.updVc4 v fun x => { x with h4 := d.unlocked })
      (d.feedPort x.port) [6] (le 1 x.au4)
    exact ⟨_, (Dev.vc4_of_mask hmask (by decide) v).trans hset, rfl⟩
  · exact ⟨_, Dev.updVc4_some hx _, rfl⟩

theorem pointerFrame_au (v : Fin 512) (hx : d.vc4 v.val = some x) (hc : x.concat = 1) (hframe : d.portInFrame (d.feedPort x.port) = true)
    (w : BitVec 16) (others : List (BitVec 16)) : ∃ y, (pointerFrame (.au v) w others d).vc4 v.val = some y
      ∧ y.ptr = { ptrStep 782 x.ptr (ptrRead x.ptr w) with concRuns := [] } := by
  have hset := Dev.updVc4_some hx fun y => { y with ptr := { ptrStep 782 x.ptr (ptrRead x.ptr w) with concRuns := [] } }
  unfold pointerFrame
  dsimp only
  rw [hx, Option.filter_some, if_pos hframe]
  dsimp only
  rw [hc, Nat.sub_self, List.take_zero, List.map_nil, ptrFrame_alone]
  generalize d.updVc4 v.val (fun y => { y with ptr := { ptrStep 782 x.ptr (ptrRead x.ptr w) with concRuns := [] } }) = e at hset ⊢
  have hrefresh : ∀ f : Dev, f.refresh.vc4 v.val = f.vc4 v.val := fun f =>
    Dev.vc4_of_mask (Dev.refresh_mask (T := [.regs, .points, .host, .jersey]) (by decide) f) (by decide) v.val
  split
  · exact ⟨_, (hrefresh _).trans hset, rfl⟩
  · obtain ⟨y, hy, hptr⟩ := Dev.dropH4_ptr hset
    exact ⟨y, (hrefresh _).trans hy, hptr⟩

theorem pointerFrame_tu (e : Fin 8064) (hex : d.entryExists e.val = true) (hframe : d.loFramed e.val = true) (w : BitVec 16)
    (others : List (BitVec 16)) : ((pointerFrame (.tu e) w others d).lo e.val).ptr
      = ptrStep (if d.isVc3 e.val then 764 else 139) (d.lo e.val).ptr (ptrRead (d.lo e.val).ptr w) := by
  unfold pointerFrame
  dsimp only
  rw [if_pos (by rw [hex, hframe]; rfl), Dev.lo_of_mask (Dev.refresh_mask (T := [.regs, .points, .host, .jersey]) (by decide) _) (by decide)]
  generalize ptrStep (if d.isVc3 e.val then 764 else 139) (d.lo e.val).ptr (ptrRead (d.lo e.val).ptr w) = p
  generalize (if (d.isVc3 e.val || decide ((d.lo e.val).e1Mode = 0) || decide (p.off = (d.lo e.val).ptr.off)) = true then (0 : Int)
    else if ptrRead (d.lo e.val).ptr w = .dec then 8 else if ptrRead (d.lo e.val).ptr w = .inc then -8 else 0) = k
  split
  · rw [Dev.updLo_lo]
  · rw [Dev.desyncTo_ptr, Dev.updLo_lo]

theorem pointerJustification_tu {e : Fin 8064} (hex : d.entryExists e.val = true) (fill : Nat) : ∃ phase,
    ((pointerJustification (.tu e) fill d).lo e.val).ptr = ptrGen (if d.isVc3 e.val then ptrTu3 else ptrTu12) (d.lo e.val).ptr fill phase := by
  have hex' : d.draw.2.entryExists e.val = true := hex
  unfold pointerJustification
  dsimp only
  rw [if_pos hex', Dev.updLo_lo]
  exact ⟨_, rfl⟩

end

end Sys2Proof.Machine
end

section
/-! PROOF of O20: each clause fixes what a multiframe or a frame finds, and with it what it leaves. -/

namespace Sys2Proof.Claim

open Machine

section
variable {s : State} (hl : s.dev.life = .running)
include hl

theorem gmpMultiframe_justifies (o : Fin 4096) (x : Odu) (sv : Nat) (jc12 : BitVec 16) (jc3 : Byte) (jc456 : BitVec 24) (n : Nat)
    (hx : s.dev.odu o = some x) (hsv : s.dev.serverTy o = some sv) (h : sv = 7 ∨ sv = 4) :
    let b := fun i : Nat => byteOf ((jc456 ++ jc3 ++ jc12).setWidth 64) i
    let cm := (b 0).toNat * 64 + (b 1).toNat / 4
    let good := jcCrc8 (b 0) (b 1) = (b 2).toNat ∧ cmOk x sv cm = true
    let unit := (gmpServer sv).2.1 * x.ts.length
    let total := x.cndTx + n
    let sent := max (cmRange x sv).1 (min (cmRange x sv).2 (total / unit))
    Answers (.gmpMultiframe o jc12 jc3 jc456 n) s fun t => ∃ y, t.dev.odu o = some y
      ∧ (s.dev.oduFramed o = true → (good → y.cm = cm ∧ y.jcBad = false)
        ∧ (¬ good → y.cm = x.cm ∧ y.jcBad = true ∧ y.jcErr = min (x.jcErr + 1) 255)
        ∧ y.cnd = (if jcCrc5 (b 3) (b 4) = (b 5).toNat % 32 then (b 3).toNat % 32 * 32 + (b 4).toNat % 32 else x.cnd))
      ∧ (s.dev.oduFramed o = false → y.cm = x.cm ∧ y.cnd = x.cnd ∧ y.jcErr = x.jcErr)
      ∧ y.cmTx = sent ∧ y.cndTx = (if total / unit = sent then total % unit else 0)
      ∧ .justification o (x.ts.foldl max 0) (jcBytes sent y.cndTx (decide (sent ≠ x.cmTx))) ∈ t.dev.host.out := by
  intro b cm good unit total sent
  obtain ⟨y, hy, hkeep, hout⟩ := gmpFrame_odu hx hsv h (jc456 ++ jc3 ++ jc12) n
  obtain ⟨hcmTx, hcndTx, hcm, hcnd, hbad, herr⟩ := Odu.sent_fields hkeep
  refine answers_onDev rfl hl ⟨y, hy, fun hf => ?_, fun hf => ?_, hcmTx, hcndTx, hcndTx ▸ hout⟩
  · rw [if_pos hf] at hcm hcnd hbad herr
    have hgood : good ↔ x.gmpGood sv (jc456 ++ jc3 ++ jc12) = true := (Odu.gmpGood_iff x sv (jc456 ++ jc3 ++ jc12)).symm
    refine ⟨fun hg => ?_, fun hg => ?_, hcnd⟩
    · have hg := hgood.mp hg
      exact ⟨hcm.trans (if_pos hg), hbad.trans (show (!x.gmpGood sv (jc456 ++ jc3 ++ jc12)) = false by rw [hg]; rfl)⟩
    · have hg := mt hgood.mpr hg
      exact ⟨hcm.trans (if_neg hg), hbad.trans (show (!x.gmpGood sv (jc456 ++ jc3 ++ jc12)) = true by simpa using hg),
        herr.trans (if_neg hg)⟩
  · rw [if_neg (by rw [hf]; exact Bool.false_ne_true)] at hcm hcnd herr
    exact ⟨hcm, hcnd, herr⟩

theorem ampJc_justifies (o : Fin 4096) (x : Odu) (a b c : BitVec 2) (njo pjo : Byte) (fill : Nat) (ppm : Int) (hx : s.dev.odu o = some x)
    (hsv : s.dev.serverTy o = some 2) :
    let tx := if 20 ≤ fill then 1 else if fill ≤ 12 then 3 else 0
    (s.dev.oduFramed o = true → 0 < fill → fill ≤ 32 → -20 ≤ ppm → ppm ≤ 20 →
      Answers (.ampJc o ⟨(a, b, c), njo, pjo⟩ ⟨fill, ppm⟩) s fun t =>
        ∃ y, t.dev.odu o = some y ∧ y.jcRx = jcActs a b c ∧ y.jcTx = tx
        ∧ t.dev.host.out = .ampTx o tx (tx = 1) (tx = 0 ∨ tx = 1) :: .ampRx o
          ((if jcActs a b c = 1 then [njo] else []) ++ (if jcActs a b c ≠ 3 then [pjo] else [])) :: s.dev.host.out)
    ∧ (ppm < -20 ∨ 20 < ppm → Answers (.ampJc o ⟨(a, b, c), njo, pjo⟩ ⟨fill, ppm⟩) s fun t =>
      ∃ y, t.dev.odu o = some y ∧ y.rateAlarm = true ∧ y.inRange = s.dev.now) := by
  intro tx
  refine ⟨fun hf h0 h32 hlo hhi => ?_, fun hppm => answers_onDev rfl hl (ampFrame_beyond hx hsv (a, b, c) njo pjo hppm)⟩
  obtain ⟨y, hy, hrx, htx, hout⟩ := ampFrame_within (f := ⟨fill, ppm⟩) hx hsv hf (a, b, c) njo pjo h0 h32 hlo hhi
  refine answers_onDev rfl hl ⟨y, hy, hrx, htx, hout.trans ?_⟩
  have hpjo : ∀ n, pjoData n = decide (n = 0 ∨ n = 1) := fun n => (Bool.decide_or _ _).symm
  have hdata : pjoData (jcActs a b c) = decide (jcActs a b c ≠ 3) := by
    obtain h | h | h := jcActs_data a b c <;> rw [h] <;> rfl
  rw [hdata, hpjo]
  simp only [njoData, decide_eq_true_eq]
  rfl

theorem c12Multiframes_justify (e : Fin 8064) : let x := s.dev.lo e
    (x.rateAlarm = true → x.inRange + 1000000000 ≤ s.dev.now →
      Answers (.rateAlarmClear false e) s fun t => (t.dev.lo e).rateAlarm = false)
    ∧ (∀ bits, x.e1Mode = 2 ∨ x.e1Mode = 3 →
      let c := if 20 ≤ x.mapFill then 0 else if 13 ≤ x.mapFill then 1 else 3
      let n := if x.e1Mode = 3 then (e1Clock x.mapPhase (s.dev.circuit e).dev).1 else x.arrived
      let ones := x.e1Mode = 3 ∧ (s.dev.circuit e).lops = true
      Answers (.c12MultiframeMap e bits) s fun t =>
        (t.dev.lo e).cBits = c ∧ (t.dev.lo e).mapFill = min (x.mapFill + n - e1Bits c) 32 ∧ (t.dev.lo e).arrived = 0
        ∧ .c12 e (c12Bytes c ((List.range (e1Bits c)).map fun i => if ones then true else bits.getD i true)) ∈ t.dev.host.out)
    ∧ (∀ v j nk, x.e1Mode ≠ 0 →
      let ais := s.dev.e1Ais e
      let bits := if ais then List.replicate 1024 true else if s.dev.loFramed e then c12Read (v ++ j ++ nk) else []
      let sent := ((x.leakTo s.dev.now).desyncStep bits.length ais).2.1
      let fill : Int := x.desync + bits.length - sent
      Answers (.c12MultiframeDemap e v j nk) s fun t => .e1 e bits ais ∈ t.dev.host.out
        ∧ if fill ≤ 0 ∨ 256 ≤ fill then (t.dev.lo e).desync = 128 ∧ (t.dev.lo e).slips = min (x.slips + 1) 255
          else (t.dev.lo e).desync = fill.toNat) := by
  intro x
  refine ⟨fun ha hr => answers_onDev rfl hl (rateAlarmClear_lo ha hr), fun bits hm => ?_, fun v j nk hm => ?_⟩
  · intro c n ones
    have hones : (fun i => if ones then true else bits.getD i true)
        = fun i => (decide ((s.dev.lo e).e1Mode = 3) && (s.dev.circuit e).lops) || bits.getD i true := by
      funext i
      rw [show (decide ((s.dev.lo e).e1Mode = 3) && (s.dev.circuit e).lops) = decide ones by simp [ones, x]]
      by_cases h : ones <;> simp [h]
    rw [hones]
    exact answers_onDev rfl hl (c12Map_lo bits hm)
  · exact answers_onDev rfl hl (c12Demap_lo (v ++ j ++ nk) hm)

end

theorem justificationFollowsFills : JustificationFollowsFills := by
  intro s hl
  exact ⟨fun o x sv jc12 jc3 jc456 n hx hsv h => gmpMultiframe_justifies hl o x sv jc12 jc3 jc456 n hx hsv h,
    fun o x a b c njo pjo fill ppm hx hsv => ampJc_justifies hl o x a b c njo pjo fill ppm hx hsv,
    fun n x hx ha hr => answers_onDev rfl hl (rateAlarmClear_odu hx ha hr), fun e => c12Multiframes_justify hl e⟩

theorem pointersMoveByOne : PointersMoveByOne := by
  intro s hl
  refine ⟨fun v x hx hc hst hframe w others => ?au, fun e hex hst hframe w others => ?tu, fun v x fill hx hndf hgap hfill => ?genAu,
    fun e fill hex hndf hgap hfill => ?genTu⟩
  case au =>
    have hrow : ∀ w, ∃ y, (pointerFrame (.au v) w others s.dev).vc4 v.val = some y
        ∧ y.ptr = { ptrStep 782 x.ptr (ptrRead x.ptr w) with concRuns := [] } := fun w => pointerFrame_au v hx hc hframe w others
    refine ⟨fun hsince hstep => ?_, fun hsince hstep => ?_, fun hw hn hoff hrun => ?_, fun hais => ?_⟩
    · obtain ⟨y, hy, hptr⟩ := hrow w
      rw [ptrRead_inc hst hsince hstep] at hptr
      obtain ⟨hoff, hst', hinc⟩ := ptrStep_inc 782 hst
      exact answers_onDev rfl hl ⟨y, hy, (congrArg Ptr.off hptr).trans hoff, (congrArg Ptr.st hptr).trans hst',
        (congrArg Ptr.inc hptr).trans hinc⟩
    · obtain ⟨y, hy, hptr⟩ := hrow w
      rw [ptrRead_dec hst hsince hstep] at hptr
      obtain ⟨hoff, hst', hdec⟩ := ptrStep_dec 782 hst
      exact answers_onDev rfl hl ⟨y, hy, (congrArg Ptr.off hptr).trans hoff, (congrArg Ptr.st hptr).trans hst',
        (congrArg Ptr.dec hptr).trans hdec⟩
    · obtain ⟨y, hy, hptr⟩ := hrow w
      rw [ptrRead_ndf hw hn] at hptr
      obtain ⟨hoff', hst'⟩ := ptrStep_ndf 782 hst hoff hrun
      exact answers_onDev rfl hl ⟨y, hy, (congrArg Ptr.off hptr).trans hoff', (congrArg Ptr.st hptr).trans hst'⟩
    · obtain ⟨y, hy, hptr⟩ := hrow 0xFFFF
      rw [ptrRead_ais] at hptr
      exact answers_onDev rfl hl ⟨y, hy, (congrArg Ptr.st hptr).trans (ptrStep_ais 782 hst hais)⟩
  case tu =>
    intro top off hsince
    have hrow := pointerFrame_tu e hex hframe w others
    refine ⟨fun hstep => answers_onDev rfl hl ?_, fun hstep => answers_onDev rfl hl ?_⟩
    · rw [ptrRead_inc hst hsince hstep] at hrow
      exact (congrArg Ptr.off hrow).trans (ptrStep_inc top hst).1
    · rw [ptrRead_dec hst hsince hstep] at hrow
      exact (congrArg Ptr.off hrow).trans (ptrStep_dec top hst).1
  case genAu =>
    refine answers_onDev rfl hl ⟨_, Dev.updVc4_some (d := s.dev.draw.2) hx _, ?_⟩
    exact ptrGen_moves hndf hgap hfill _
  case genTu =>
    obtain ⟨phase, hptr⟩ := pointerJustification_tu hex fill
    refine answers_onDev rfl hl ((congrArg Ptr.txOff hptr).trans ?_)
    by_cases hvc3 : s.dev.isVc3 e = true
    · simp only [hvc3, if_true]
      exact ptrGen_moves (k := ptrTu3) hndf hgap hfill phase
    · simp only [hvc3, if_false, Bool.false_eq_true]
      exact ptrGen_moves (k := ptrTu12) hndf hgap hfill phase

/-- Settles O20: the justification of mappers and demappers, and the pointers. -/
theorem payloadsAreJustified : Obligations.PayloadsAreJustified := ⟨justificationFollowsFills, pointersMoveByOne⟩

end Sys2Proof.Claim
end

section
/-! SUPPORT. The connection words (R190): what a word says of its source, what writing one of them or a list of them leaves, and
what the copy and the clearing of a page leave of every table. -/

namespace Sys2Proof.Machine

/-! ### The fields of a word -/

/-- The owners in a slot-table word lie above its source, whatever they are. -/
theorem Dev.slotWord_fields (d : Dev) (x kind src index : Nat) : ∃ owners, d.slotWord x kind src index
    = BitVec.ofNat 64 (kind + src * 2 ^ 4 + index * 2 ^ 16 + owners * 2 ^ 32) := by
  refine ⟨(if tget 0 d.xc.slots x = 0 then 2 ^ 12 else tget 0 d.xc.slots x - 1)
    + (if (if kind = 1 then tget 0 d.xc.slots src else 0) = 0 then 2 ^ 28
      else ((if kind = 1 then tget 0 d.xc.slots src else 0) - 1) * 2 ^ 16), ?_⟩
  unfold Dev.slotWord
  dsimp only
  congr 1
  generalize (if kind = 1 then tget 0 d.xc.slots src else 0) = own
  split <;> split <;> omega

theorem slotWord_kind (d : Dev) {x kind src index : Nat} (h : kind < 8) : srcKind (d.slotWord x kind src index) = kind := by
  obtain ⟨owners, hw⟩ := d.slotWord_fields x kind src index
  rw [hw, srcKind, wFld, BitVec.toNat_ofNat]
  omega

theorem slotWord_src (d : Dev) {x kind src index : Nat} (h : kind < 8) :
    srcVal 0 (d.slotWord x kind src index) = src % 4096 := by
  obtain ⟨owners, hw⟩ := d.slotWord_fields x kind src index
  rw [hw, srcVal, wFld, BitVec.toNat_ofNat]
  omega

theorem slotWord_index (d : Dev) {x kind src index : Nat} (h : kind < 8) (hs : src < 4096) :
    srcIndex (d.slotWord x kind src index) = index % 512 := by
  obtain ⟨owners, hw⟩ := d.slotWord_fields x kind src index
  rw [hw, srcIndex, wFld, BitVec.toNat_ofNat]
  omega

theorem vcWord_fields {kind src concat part : Nat} (h0 : kind ≠ 0) (h : kind < 8) (hs : src < 512) :
    srcKind (vcWord kind src concat part) = kind ∧ srcVal 1 (vcWord kind src concat part) = src := by
  rw [vcWord, if_neg h0, srcKind, srcVal, wFld, wFld, BitVec.toNat_ofNat]
  omega

theorem loWord_fields {kind src : Nat} {vc3 : Bool} (h0 : kind ≠ 0) (h : kind < 8) (hs : src < 8192) :
    srcKind (loWord kind src vc3) = kind ∧ srcVal 2 (loWord kind src vc3) = src := by
  have hval : ∀ w, srcVal 2 w = wFld w 4 13 := fun _ => rfl
  rw [hval, loWord, if_neg h0, srcKind, wFld, wFld, BitVec.toNat_ofNat]
  split <;> omega

theorem xcReset_kind (table : Nat) : srcKind (xcReset table) = 0 := by
  unfold xcReset
  split <;> rfl

/-! ### Words that are written -/

theorem xcKey_inj {page table pos page' table' pos' : Nat} (ht : table < 3) (ht' : table' < 3) (hp : pos < 8192) (hp' : pos' < 8192)
    (h : xcKey page table pos = xcKey page' table' pos') : page = page' ∧ table = table' ∧ pos = pos' := by
  unfold xcKey at h
  omega

@[simp] theorem Dev.setXcWord_xcWord (d : Dev) (page table pos : Nat) (w : Data) :
    (d.setXcWord page table pos w).xcWord page table pos = w := tget_tput_self ..

theorem Dev.setXcWord_xcWord_ne (d : Dev) {page table pos page' table' pos' : Nat} (w : Data)
    (h : xcKey page' table' pos' ≠ xcKey page table pos) :
    (d.setXcWord page table pos w).xcWord page' table' pos' = d.xcWord page' table' pos' := tget_tput_ne _ _ w h _

/-- The cross-connect but for its words, which alone XC_WRITE changes. -/
def Xc.offWords (x : Xc) : Xc := { x with words := [] }

theorem Xc.pages_of_offWords {x y : Xc} (h : x.offWords = y.offWords) : x.hPhys = y.hPhys ∧ x.lPhys = y.lPhys :=
  ⟨(congrArg Xc.hPhys h :), (congrArg Xc.lPhys h :)⟩

section
variable {α : Type} {page table : Nat} {pos : α → Nat} {w : Dev → α → Data}

theorem Dev.foldl_setXcWord_xc (l : List α) (d : Dev) :
    (l.foldl (fun d x => d.setXcWord page table (pos x) (w d x)) d).xc.offWords = d.xc.offWords := by
  induction l generalizing d with
  | nil => rfl
  | cons x l ih => exact ih _

/-- A word at whose place none of the list is written stays. -/
theorem Dev.foldl_setXcWord_ne {l : List α} {page' table' p : Nat} (h : ∀ x ∈ l, xcKey page' table' p ≠ xcKey page table (pos x))
    (d : Dev) : (l.foldl (fun d x => d.setXcWord page table (pos x) (w d x)) d).xcWord page' table' p = d.xcWord page' table' p := by
  induction l generalizing d with
  | nil => rfl
  | cons x l ih =>
    exact (ih (fun y hy => h y (List.mem_cons_of_mem _ hy)) _).trans (d.setXcWord_xcWord_ne _ (h x List.mem_cons_self))

/-- What every word that the list writes at a place says, the word there says at the end, if it is written or said so before. -/
theorem Dev.foldl_setXcWord_of {l : List α} {p : Nat} {Q : Data → Prop} (hw : ∀ e, ∀ x ∈ l, pos x = p → Q (w e x)) (d : Dev)
    (h : (∃ x ∈ l, pos x = p) ∨ Q (d.xcWord page table p)) :
    Q ((l.foldl (fun d x => d.setXcWord page table (pos x) (w d x)) d).xcWord page table p) := by
  induction l generalizing d with
  | nil => exact h.resolve_left fun ⟨x, hx, _⟩ => List.not_mem_nil hx
  | cons x l ih =>
    refine ih (fun e y hy => hw e y (List.mem_cons_of_mem _ hy)) _ ?_
    by_cases hx : pos x = p
    · subst hx
      exact .inr ((d.setXcWord_xcWord ..).symm ▸ hw d x List.mem_cons_self rfl)
    · rw [d.setXcWord_xcWord_ne _ fun hk => hx (by unfold xcKey at hk; omega)]
      refine h.imp_left fun ⟨y, hy, hyp⟩ => ⟨y, (List.mem_cons.mp hy).resolve_left fun hyx => hx (hyx ▸ hyp), hyp⟩

end

/-! ### Pages -/

theorem tget_unlisted {α : Type} {z : α} {t : Tab α} {k : Nat} (h : ∀ x ∈ t, x.1 ≠ k) : tget z t k = z := by
  induction t with
  | nil => rfl
  | cons x t ih => exact (if_neg (h x List.mem_cons_self)).trans (ih fun y hy => h y (List.mem_cons_of_mem _ hy))

theorem Dev.pageWords_lt {d : Dev} {page table : Nat} {x : Nat × Data} (hx : x ∈ d.pageWords page table) : x.1 < 8192 := by
  obtain ⟨y, -, rfl⟩ := List.mem_map.mp hx
  exact Nat.mod_lt _ (by decide)

/-- A position that a page does not list is unconnected. -/
theorem Dev.xcWord_unlisted {d : Dev} {page table p : Nat} (hp : p < 8192) (h : ¬∃ x ∈ d.pageWords page table, x.1 = p) :
    d.xcWord page table p = xcReset table := by
  refine tget_unlisted fun x hx hk => h ⟨(x.1 % 8192, x.2), List.mem_map.mpr ⟨x, List.mem_filter.mpr ⟨hx, ?_⟩, rfl⟩, ?_⟩
  all_goals unfold xcKey at hk
  · exact decide_eq_true (by omega)
  · show x.1 % 8192 = p
    omega

section
variable (d : Dev) {page src table p page' table' : Nat}

theorem Dev.clearPage_xc (page table : Nat) : (d.clearPage page table).xc.offWords = d.xc.offWords := Dev.foldl_setXcWord_xc _ d

theorem Dev.copyPage_xc (src page table : Nat) : (d.copyPage src page table).xc.offWords = d.xc.offWords :=
  (Dev.foldl_setXcWord_xc _ _).trans (d.clearPage_xc page table)

theorem Dev.clearPage_kind (hp : p < 8192) : srcKind ((d.clearPage page table).xcWord page table p) = 0 := by
  refine Dev.foldl_setXcWord_of (Q := fun w => srcKind w = 0) (fun e x _ _ => ?_) d ?_
  · split
    · exact slotWord_kind e (by decide)
    · rfl
  · by_cases h : ∃ x ∈ d.pageWords page table, x.1 = p
    · exact .inl h
    · exact .inr ((congrArg srcKind (Dev.xcWord_unlisted hp h)).trans (xcReset_kind table))

/-- A copied page has the words of its source where the source lists one, and is unconnected everywhere else. -/
theorem Dev.copyPage_word (hp : p < 8192) :
    (d.copyPage src page table).xcWord page table p = d.xcWord src table p
      ∨ d.xcWord src table p = xcReset table ∧ srcKind ((d.copyPage src page table).xcWord page table p) = 0 := by
  by_cases h : ∃ x ∈ d.pageWords src table, x.1 = p
  · exact .inl (Dev.foldl_setXcWord_of (Q := (· = _)) (fun e x _ hx => by rw [hx]) _ (.inl h))
  · refine .inr ⟨Dev.xcWord_unlisted hp h, (congrArg srcKind (Dev.foldl_setXcWord_ne (fun x hx hk => h ⟨x, hx, ?_⟩) _)).trans
      (d.clearPage_kind hp)⟩
    unfold xcKey at hk
    omega

variable (hp : p < 8192) (ht : table < 3) (ht' : table' < 3) (h : page' ≠ page ∨ table' ≠ table)
include hp ht ht' h

theorem Dev.clearPage_word_ne : (d.clearPage page table).xcWord page' table' p = d.xcWord page' table' p := by
  refine Dev.foldl_setXcWord_ne (fun x hx hk => ?_) d
  obtain ⟨hpage, htable, -⟩ := xcKey_inj ht' ht hp (Dev.pageWords_lt hx) hk
  exact h.elim (· hpage) (· htable)

theorem Dev.copyPage_word_ne : (d.copyPage src page table).xcWord page' table' p = d.xcWord page' table' p := by
  refine (Dev.foldl_setXcWord_ne (fun x hx hk => ?_) _).trans (d.clearPage_word_ne hp ht ht' h)
  obtain ⟨hpage, htable, -⟩ := xcKey_inj ht' ht hp (Dev.pageWords_lt hx) hk
  exact h.elim (· hpage) (· htable)

end

end Sys2Proof.Machine
end

section
/-! PROOF of O27: XC_WRITE without records fills the standby page, and with one record writes its destination's positions there. -/

namespace Sys2Proof.Machine

open Claim

/-! ### The standby page before the records (R192) -/

/-- What FLAGS make of the standby page of a table, before the records. -/
def Dev.fillStandby (flags : Nat) (d : Dev) (table : Nat) : Dev :=
  if flags = 1 then d.copyPage (d.activePage table) (d.standbyPage table) table
  else if flags = 2 then d.clearPage (d.standbyPage table) table else d

/-- The words of a position in `e` are those of `d`, but in the standby page they are what FLAGS say. -/
def StandbyFilled (flags : Nat) (d e : Dev) (table p : Nat) : Prop :=
  let old := d.xcWord (d.activePage table) table p
  let new := e.xcWord (d.standbyPage table) table p
  e.xcWord (d.activePage table) table p = old
  ∧ (flags = 0 → new = d.xcWord (d.standbyPage table) table p)
  ∧ (flags = 1 → srcKind new = srcKind old ∧ (srcKind old ≠ 0 → new = old))
  ∧ (flags = 2 → srcKind new = 0)

theorem Dev.activePage_congr {d e : Dev} (h : e.xc.offWords = d.xc.offWords) (table : Nat) :
    e.activePage table = d.activePage table := by
  obtain ⟨hh, hl⟩ := Xc.pages_of_offWords h
  unfold Dev.activePage
  rw [hh, hl]

theorem StandbyFilled.congr {flags table p : Nat} {d d' e e' : Dev} (h : StandbyFilled flags d e table p)
    (ha : d'.activePage table = d.activePage table) (hd : ∀ page, d'.xcWord page table p = d.xcWord page table p)
    (he : ∀ page, e'.xcWord page table p = e.xcWord page table p) : StandbyFilled flags d' e' table p := by
  unfold StandbyFilled Dev.standbyPage at *
  rwa [ha, hd, hd, he, he]

section
variable (flags : Nat) (d : Dev) {table table' p : Nat}

theorem Dev.fillStandby_xc (table : Nat) : (d.fillStandby flags table).xc.offWords = d.xc.offWords := by
  unfold Dev.fillStandby
  split
  · exact d.copyPage_xc ..
  · split
    · exact d.clearPage_xc ..
    · rfl

theorem Dev.fillStandby_word_ne {page : Nat} (hp : p < 8192) (ht : table < 3) (ht' : table' < 3)
    (h : page ≠ d.standbyPage table ∨ table' ≠ table) :
    (d.fillStandby flags table).xcWord page table' p = d.xcWord page table' p := by
  unfold Dev.fillStandby
  split
  · exact d.copyPage_word_ne hp ht ht' h
  · split
    · exact d.clearPage_word_ne hp ht ht' h
    · rfl

theorem Dev.activePage_ne (table : Nat) : d.activePage table ≠ d.standbyPage table := by
  unfold Dev.standbyPage
  omega

theorem Dev.fillStandby_filled (hp : p < 8192) (ht : table < 3) : StandbyFilled flags d (d.fillStandby flags table) table p := by
  refine ⟨d.fillStandby_word_ne flags hp ht ht (.inl (d.activePage_ne table)), fun h0 => ?_, fun h1 => ?_, fun h2 => ?_⟩
  · subst h0; rfl
  · subst h1
    obtain hw | ⟨hold, hnew⟩ := d.copyPage_word (src := d.activePage table) (page := d.standbyPage table) (table := table) hp
    · exact ⟨congrArg srcKind hw, fun _ => hw⟩
    · have hnone : srcKind (d.xcWord (d.activePage table) table p) = 0 := (congrArg srcKind hold).trans (xcReset_kind table)
      exact ⟨hnew.trans hnone.symm, fun hne => absurd hnone hne⟩
  · subst h2; exact d.clearPage_kind hp

end

section
variable {flags p : Nat} (hp : p < 8192)
include hp

theorem Dev.foldl_fillStandby_ne {table' : Nat} (ht' : table' < 3) {l : List Nat} (hl : ∀ t ∈ l, t < 3 ∧ table' ≠ t) (d : Dev)
    (page : Nat) : (l.foldl (Dev.fillStandby flags) d).xcWord page table' p = d.xcWord page table' p := by
  induction l generalizing d with
  | nil => rfl
  | cons t l ih =>
    obtain ⟨ht, hne⟩ := hl t List.mem_cons_self
    exact (ih (fun x hx => hl x (List.mem_cons_of_mem _ hx)) _).trans (d.fillStandby_word_ne flags hp ht ht' (.inr hne))

theorem Dev.foldl_fillStandby_filled {l : List Nat} (hl : ∀ t ∈ l, t < 3) (hd : l.Nodup) {table : Nat} (ht : table ∈ l) (d : Dev) :
    StandbyFilled flags d (l.foldl (Dev.fillStandby flags) d) table p := by
  induction l generalizing d with
  | nil => exact absurd ht List.not_mem_nil
  | cons t l ih =>
    obtain ⟨hnot, hd⟩ := List.nodup_cons.mp hd
    have ht3 : t < 3 := hl t List.mem_cons_self
    have hl' : ∀ x ∈ l, x < 3 := fun x hx => hl x (List.mem_cons_of_mem _ hx)
    obtain rfl | hin := List.mem_cons.mp ht
    · exact (d.fillStandby_filled flags hp ht3).congr rfl (fun _ => rfl)
        fun _ => Dev.foldl_fillStandby_ne hp ht3 (fun x hx => ⟨hl' x hx, fun hxt => hnot (hxt ▸ hx)⟩) _ _
    · refine (ih hl' hd hin (d.fillStandby flags t)).congr (Dev.activePage_congr (d.fillStandby_xc flags t) table).symm
        (fun page => (d.fillStandby_word_ne flags hp ht3 (hl' _ hin) (.inr fun h => hnot (h ▸ hin))).symm) fun _ => rfl

end

theorem tablesOf_legal (tsi : Nat) : (∀ t ∈ tablesOf tsi, t < 3 ∧ tableSize t ≤ 8064) ∧ (tablesOf tsi).Nodup := by
  unfold tablesOf
  split <;> decide

/-- XC_WRITE whose own fields are legal and whose TSI is free comes to what its records make of the standby page. -/
theorem xcWrite_made {c : Desc} {d e : Dev} (j : Nat) (htsi : c.u8 0 ≤ 1) (hn : c.u8 1 ≤ 4) (hf : c.u8 2 ≤ 2) (hz : Zeros c 3 7)
    (hz' : Zeros c (8 + 12 * max (c.u8 1) 1) 55) (ha : d.tsiArmed (c.u8 0) = false)
    (hr : xcRecords c (c.u8 0) false (List.range (c.u8 1)) ((tablesOf (c.u8 0)).foldl (Dev.fillStandby (c.u8 2)) d) = .ok e) :
    xcWrite c d j = ran e := by
  unfold xcWrite
  dsimp only
  rw [checked_ok, ha, need_ok (by simp)]
  · unfold Dev.fillStandby at hr
    rw [hr]
  · simp only [List.forall_mem_cons]
    exact ⟨decide_eq_true htsi, decide_eq_true hn, decide_eq_true hf, zeros_ok hz, zeros_ok hz', List.forall_mem_nil _⟩

/-! ### One record (R193, R194) -/

/-- A connection writes at every position of its destination what it says of one of the position's places in it. -/
theorem Dev.connect_word (d : Dev) (page : Nat) {dst : XcObj} {kind v : Nat} {src : Option XcObj} {p : Nat} (hp : p ∈ dst.pos)
    {Q : Data → Prop} (hQ : ∀ (e : Dev) i, dst.pos[i]? = some p → Q (e.connWord dst kind v i src)) :
    Q ((d.connect page dst kind v src).xcWord page dst.table p) := by
  have hget : ∀ {i}, i < dst.pos.length → dst.pos.getD i 0 = p → dst.pos[i]? = some p := fun hi h => by
    rw [List.getD_eq_getElem _ _ hi] at h
    exact List.getElem?_eq_some_iff.mpr ⟨hi, h⟩
  refine Dev.foldl_setXcWord_of (fun e i hi h => hQ e i (hget (List.mem_range.mp hi) h)) d (.inl ?_)
  obtain ⟨i, hi, rfl⟩ := List.getElem_of_mem hp
  exact ⟨i, List.mem_range.mpr hi, List.getD_eq_getElem _ _ hi⟩

/-- Only a Jersey range takes its length from the record. -/
theorem Dev.xcObj_length {kind : Nat} (h : kind ≠ 1) (d : Dev) (v n n' sch : Nat) : d.xcObj kind v n sch = d.xcObj kind v n' sch := by
  unfold Dev.xcObj
  split <;> first | rfl | exact absurd rfl h

theorem Dev.xcObj_jersey {d : Dev} {v n sch : Nat} {o : XcObj} (h : d.xcObj 1 v n sch = some o) : o.count = n := by
  obtain ⟨-, ho⟩ := Option.ite_none_right_eq_some.mp h
  rw [← Option.some.inj ho]

section
variable {c : Desc} {tsi : Nat} {d : Dev} {dst : XcObj} (hdk : dstKinds tsi (c.u8 9) = true)
  (hdv : xcRange (c.u8 9) (c.u16 10) (schemeOf (c.u8 9)) = true) (hz : Zeros c 16 19)
include hdk hdv hz

/-- A disconnect of an object, at its own length, is made. -/
theorem xcRecord_disconnects (hop : c.u8 8 = 0) (hsk : c.u8 12 = 0) (hsv : c.u16 14 = 0)
    (hn : if c.u8 9 = 1 then 1 ≤ c.u8 13 ∧ c.u16 10 / 256 % 32 + c.u8 13 ≤ 20 else c.u8 13 = 0)
    (hdst : d.xcObj (c.u8 9) (c.u16 10) (c.u8 13) (schemeOf (c.u8 9)) = some dst) :
    xcRecord c tsi false 0 d = .ok (d.connect (d.standbyPage (if tsi = 0 then 0 else 2)) dst 0 0 none) := by
  unfold xcRecord
  extract_lets b op dk dv sk n sv sch page src0 len inLink
  change d.xcObj dk dv n sch = some dst at hdst
  have hop' : op = 0 := hop
  have hsk' : sk = 0 := hsk
  have hsv' : sv = 0 := hsv
  obtain ⟨hobj, hin, hcount, hn20⟩ : d.xcObj dk dv len sch = some dst ∧ inLink = true ∧ (n = 0 ∨ n = dst.count)
      ∧ (dk ≠ 1 ∨ n ≤ 20) := by
    by_cases hj : dk = 1
    · obtain ⟨h1, h20⟩ : 1 ≤ n ∧ dv / 256 % 32 + n ≤ 20 := (if_pos hj ▸ hn :)
      have hlen : len = n := if_pos (by omega)
      refine ⟨hlen ▸ hdst, ?_, .inr (Dev.xcObj_jersey (hj ▸ hdst)).symm, .inr (by omega)⟩
      simp [inLink, hop', hlen, h20]
    · exact ⟨(d.xcObj_length hj ..).trans hdst, by simp [inLink, hop', hj], .inl ((if_neg hj).mp hn), .inl hj⟩
  rw [checked_ok, hobj, if_neg (by omega)]
  · dsimp only
    rw [need_ok (by simpa [hin] using hcount), need_ok Bool.not_false, need_ok (by simp [hop']), hsk', hsv']
  · simp only [List.forall_mem_cons]
    exact ⟨by simp [atMost, hop'], hdk, hdv, by simp [hop', hsk'], by simpa [hop'] using hn20, by simp [hop', hsv'], zeros_ok hz,
      List.forall_mem_nil _⟩

/-- A connect of two objects that are alike and of one length, to positions that are unconnected, is made. -/
theorem xcRecord_connects {k : Nat} {src : XcObj} (hop : c.u8 8 = 1) (hsk : srcKinds tsi (c.u8 12) = true)
    (hsv : xcRange (c.u8 12) (c.u16 14) (schemeOf (c.u8 9)) = true)
    (hn : if c.u8 9 = 1 ∧ c.u8 12 = 1 then 1 ≤ k ∧ c.u8 13 = k else c.u8 13 = 0)
    (hin : c.u8 9 = 1 → c.u16 10 / 256 % 32 + k ≤ 20) (hin' : c.u8 12 = 1 → c.u16 14 / 256 % 32 + k ≤ 20)
    (hdst : d.xcObj (c.u8 9) (c.u16 10) k (schemeOf (c.u8 9)) = some dst)
    (hsrc : d.xcObj (c.u8 12) (c.u16 14) k (schemeOf (c.u8 9)) = some src) (hdk' : dst.count = k) (hsk' : src.count = k)
    (halike : dst.alike src = true)
    (hfree : ∀ p ∈ dst.pos, srcKind (d.xcWord (d.standbyPage (if tsi = 0 then 0 else 2)) dst.table p) = 0) :
    xcRecord c tsi false 0 d
      = .ok (d.connect (d.standbyPage (if tsi = 0 then 0 else 2)) dst (c.u8 12) (c.u16 14) (some src)) := by
  unfold xcRecord
  extract_lets b op dk dv sk n sv sch page src0 len inLink
  have hop' : op = 1 := hop
  obtain ⟨hlen, hcount, hslots⟩ : len = k ∧ (n = 0 ∨ n = dst.count)
      ∧ (if dk = 1 ∧ sk = 1 then 1 ≤ n ∧ n ≤ 20 else dk ≠ 1 ∨ n ≤ 20) := by
    by_cases hj : dk = 1 ∧ sk = 1
    · obtain ⟨h1, hnk⟩ : 1 ≤ k ∧ n = k := (if_pos hj ▸ hn :)
      have h20 : dv / 256 % 32 + k ≤ 20 := hin hj.1
      exact ⟨(if_pos (by omega)).trans hnk, .inr (by omega), (if_pos hj).mpr (by omega)⟩
    · have hn0 : n = 0 := (if_neg hj ▸ hn :)
      refine ⟨?_, .inl hn0, (if_neg hj).mpr (.inr (by omega))⟩
      by_cases hs : sk = 1
      · have hj' : dk ≠ 1 := fun h => hj ⟨h, hs⟩
        have hobj : d.xcObj dk dv 0 sch = some dst := (d.xcObj_length hj' ..).trans hdst
        simpa [len, src0, hn0, hs, hj', hobj] using hdk'
      · have hobj : d.xcObj sk sv 0 sch = some src := (d.xcObj_length hs ..).trans hsrc
        simpa [len, src0, hn0, hs, hop', hobj] using hsk'
  have hinLink : inLink = true := by
    simp only [inLink, hlen, hop', Bool.and_eq_true, Bool.or_eq_true, decide_eq_true_eq]
    exact ⟨Classical.or_iff_not_imp_left.mpr fun h => hin (not_not.mp h),
      Classical.or_iff_not_imp_left.mpr fun h => hin' (by simpa using h)⟩
  have hused : dst.pos.find? (fun x => srcKind (d.xcWord page dst.table x) ≠ 0) = none :=
    List.find?_eq_none.mpr fun p hp => by simpa using hfree p hp
  rw [checked_ok, hlen, show d.xcObj dk dv k sch = some dst from hdst, if_pos hop', show d.xcObj sk sv k sch = some src from hsrc]
  · dsimp only [Option.map_some]
    rw [hused, need_ok (by simpa [halike, hinLink] using hcount), need_ok Bool.not_false, need_ok (by simp)]
  · simp only [List.forall_mem_cons]
    exact ⟨by simp [atMost, hop'], hdk, hdv, by simpa [hop'] using hsk, by simpa [hop'] using hslots, by simpa [hop'] using hsv,
      zeros_ok hz, List.forall_mem_nil _⟩

end

/-! ### What a connection reads (R190) -/

/-- Values lie below what the SRC field of their table holds. -/
theorem xcRange_lt {kind v sch : Nat} (h : xcRange kind v sch = true) :
    v < 8192 ∧ (4 ≤ kind → v < 4096) ∧ (kind = 2 ∨ 5 ≤ kind ∧ sch = 2 → v < 512) := by
  unfold xcRange at h
  split at h
  case h_6 =>
    have hkind : kind ≠ 2 := by assumption
    simp only [decide_eq_true_eq] at h
    split at h
    · omega
    · omega
    · have hsch : sch ≠ 2 := by assumption
      omega
  all_goals
    simp only [Bool.and_eq_true, decide_eq_true_eq] at h
    omega

/-- The objects of the VC-4 table are those with the shape of a VC-4: VC-4s, and selectors of them. -/
theorem Dev.xcObj_cases {d : Dev} {kind v n sch : Nat} {o : XcObj} (h : d.xcObj kind v n sch = some o) :
    (o.table = 0 ∨ o.table = 2) ∧ (∀ m, o.shape ≠ .vc4 m)
      ∨ o.table = 1 ∧ (∃ m, o.shape = .vc4 m) ∧ (kind = 2 ∨ 5 ≤ kind ∧ sch = 2) := by
  unfold Dev.xcObj at h
  split at h
  case h_1 =>
    obtain ⟨x, -, rfl⟩ := Option.map_eq_some_iff.mp h
    exact .inl ⟨.inl rfl, nofun⟩
  case h_2 =>
    obtain ⟨-, ho⟩ := Option.ite_none_right_eq_some.mp h
    rw [← Option.some.inj ho]
    exact .inl ⟨.inl rfl, nofun⟩
  case h_3 =>
    split at h
    · obtain ⟨-, ho⟩ := Option.ite_none_left_eq_some.mp h
      rw [← Option.some.inj ho]
      exact .inr ⟨rfl, ⟨_, rfl⟩, .inl rfl⟩
    · cases h
  case h_4 =>
    obtain ⟨-, ho⟩ := Option.ite_none_right_eq_some.mp h
    rw [← Option.some.inj ho]
    exact .inl ⟨.inr rfl, nofun⟩
  case h_5 =>
    split at h
    · rw [← Option.some.inj h]
      exact .inl ⟨.inl rfl, nofun⟩
    · cases h
  case h_6 h0 h1 h2 h3 h4 =>
    have hkind : kind ≠ 0 ∧ kind ≠ 1 ∧ kind ≠ 2 ∧ kind ≠ 3 ∧ kind ≠ 4 := ⟨h0, h1, h2, h3, h4⟩
    split at h
    · split at h
      · obtain ⟨x, -, rfl⟩ := Option.map_eq_some_iff.mp h
        exact .inl ⟨.inl rfl, nofun⟩
      · obtain ⟨x, -, rfl⟩ := Option.map_eq_some_iff.mp h
        exact .inr ⟨rfl, ⟨_, rfl⟩, .inr ⟨by omega, rfl⟩⟩
      · rw [← Option.some.inj h]
        exact .inl ⟨.inr rfl, nofun⟩
    · cases h

theorem XcObj.alike_vc4 {a b : XcObj} {m : Nat} (ha : a.shape = .vc4 m) (h : a.alike b = true) : b.shape = .vc4 m := by
  have h' : b.shape ≠ .jersey ∧ XcShape.vc4 m = b.shape := by simpa [XcObj.alike, ha, XcShape.crosses] using h
  exact h'.2.symm

theorem Dev.xcObj_table {d : Dev} {kind v n sch : Nat} {o : XcObj} (h : d.xcObj kind v n sch = some o) :
    o.table = 0 ∨ o.table = 1 ∨ o.table = 2 := by
  obtain ⟨ht, -⟩ | ⟨ht, -⟩ := Dev.xcObj_cases h <;> omega

/-- What the word of position `i` of a destination says of its source, by the kind and the value that a record names. -/
structure ConnWordSays (dst src : XcObj) (kind v i : Nat) (w : Data) : Prop where
  input : dst.table = 0 → kind ≤ 1 → srcKind w = 1 ∧ srcVal 0 w = src.pos.getD i 0 % 4096
  output : dst.table = 0 → 4 ≤ kind → srcKind w = kind - 2 ∧ srcVal 0 w = v ∧ srcIndex w = i % 512
  whole : dst.table ≠ 0 → srcKind w = (if kind = 5 then 3 else 1) ∧ srcVal dst.table w = v

theorem srcKinds_le {tsi kind : Nat} (h : srcKinds tsi kind = true) : kind ≤ 5 := by
  unfold srcKinds at h
  split at h
  · have hkind : kind ∈ [0, 1, 2, 4, 5] := of_decide_eq_true h
    simp only [List.mem_cons, List.not_mem_nil, or_false] at hkind
    omega
  · simp only [Bool.or_eq_true, decide_eq_true_eq] at h
    omega

section
variable (d : Dev) {dst : XcObj} (kind v i : Nat) (src : XcObj)

theorem Dev.connWord_slot (ht : dst.table = 0) : d.connWord dst kind v i (some src) =
    if kind = 4 then d.slotWord (dst.pos.getD i 0) 2 v i else if kind = 5 then d.slotWord (dst.pos.getD i 0) 3 v i
    else d.slotWord (dst.pos.getD i 0) 1 (src.pos.getD i 0) 0 := by
  unfold Dev.connWord
  rw [ht]
  rfl

theorem Dev.connWord_vc4 (ht : dst.table = 1) :
    d.connWord dst kind v i (some src) = vcWord (if kind = 5 then 3 else 1) v dst.count (if i = 0 then 0 else 1) := by
  unfold Dev.connWord
  rw [ht]
  rfl

theorem Dev.connWord_lo (ht : dst.table = 2) :
    d.connWord dst kind v i (some src) = loWord (if kind = 5 then 3 else 1) v (dst.shape = .lo true) := by
  unfold Dev.connWord
  rw [ht]
  rfl

theorem Dev.connWord_none : srcKind (d.connWord dst kind v i none) = 0 := by
  unfold Dev.connWord
  split
  case h_2 => exact slotWord_kind d (by decide)
  case h_5 => exact (rfl : srcKind 0 = 0)
  all_goals contradiction

end

theorem Dev.connWord_says {d : Dev} {dst src : XcObj} {tsi dk dv kind v n sch : Nat} (hk : srcKinds tsi kind = true)
    (hv : xcRange kind v sch = true) (hdst : d.xcObj dk dv n sch = some dst) (hsrc : d.xcObj kind v n sch = some src)
    (halike : dst.alike src = true) (e : Dev) (i : Nat) :
    ConnWordSays dst src kind v i (e.connWord dst kind v i (some src)) := by
  obtain ⟨hlt, hlt4, hlt2⟩ := xcRange_lt hv
  have hkind := srcKinds_le hk
  have hfields : (if kind = 5 then 3 else 1) ≠ 0 ∧ (if kind = 5 then 3 else 1) < 8 := by split <;> decide
  obtain ht | ht | ht := Dev.xcObj_table hdst
  · rw [e.connWord_slot _ _ _ _ ht]
    refine ⟨fun _ h1 => ?_, fun _ h4 => ?_, fun h => absurd ht h⟩
    · rw [if_neg (by omega), if_neg (by omega)]
      exact ⟨slotWord_kind e (by decide), slotWord_src e (by decide)⟩
    · have hsays : ∀ x k, k < 8 → srcKind (e.slotWord x k v i) = k ∧ srcVal 0 (e.slotWord x k v i) = v
          ∧ srcIndex (e.slotWord x k v i) = i % 512 := fun x k hk8 =>
        ⟨slotWord_kind e hk8, (slotWord_src e hk8).trans (Nat.mod_eq_of_lt (hlt4 h4)), slotWord_index e hk8 (hlt4 h4)⟩
      obtain rfl | rfl : kind = 4 ∨ kind = 5 := by omega
      · exact hsays _ 2 (by decide)
      · exact hsays _ 3 (by decide)
  · obtain ⟨-, ⟨m, hm⟩, -⟩ := (Dev.xcObj_cases hdst).resolve_left (by omega)
    obtain ⟨-, -, hvc4⟩ := (Dev.xcObj_cases hsrc).resolve_left fun h => h.2 m (XcObj.alike_vc4 hm halike)
    rw [e.connWord_vc4 _ _ _ _ ht]
    exact ⟨by omega, by omega, fun _ => ht ▸ vcWord_fields hfields.1 hfields.2 (hlt2 hvc4)⟩
  · rw [e.connWord_lo _ _ _ _ ht]
    exact ⟨by omega, by omega, fun _ => ht ▸ loWord_fields hfields.1 hfields.2 hlt⟩

/-- The object of a record has to do with neither the registers nor the host interface. -/
theorem Dev.xcObj_mask (d : Dev) (kind v n sch : Nat) : (d.mask [.regs, .host]).xcObj kind v n sch = d.xcObj kind v n sch := by
  have hleaf : ∀ o, (d.mask [.regs, .host]).leafOdu o = d.leafOdu o := fun o => by
    unfold Dev.leafOdu
    rw [Dev.planned_mask]
    rfl
  unfold Dev.xcObj
  rw [hleaf]
  rfl

end Sys2Proof.Machine

namespace Sys2Proof.Claim

open Machine

theorem opened_xcObj (d : Dev) (op : Nat) (c : Desc) (kind v n sch : Nat) : (d.opened op c).xcObj kind v n sch = d.xcObj kind v n sch := by
  rw [← Dev.xcObj_mask, opened_parts, Dev.xcObj_mask]

theorem opened_xc (d : Dev) (op : Nat) (c : Desc) : (d.opened op c).xc = d.xc := Dev.xc_of_mask (opened_parts d op c) (by decide)

theorem answers_xcWrite {s : State} {c : Desc} (hs : Served 0x20 c s.dev) {e : Dev} {P : State → Prop}
    (hr : xcWrite c (s.dev.opened 0x20 c) s.dev.host.nextJob = ran e)
    (hP : ∀ t : State, (∀ page table p, t.dev.xcWord page table p = e.xcWord page table p) → P t) : Answers (.xcWrite c) s P :=
  answers_hostSync rfl hs hr fun t ht => hP t fun _ _ _ => by
    rw [ht]
    exact Dev.xcWord_of_mask (Dev.complete_mask (T := [.regs, .host, .jersey]) (by decide) ..) (by decide) ..

theorem xcWriteFillsTheStandbyPage : XcWriteFillsTheStandbyPage := by
  intro s c hs htsi hn hf hz hz' ha
  have hparts := opened_parts s.dev 0x20 c
  refine answers_xcWrite hs (xcWrite_made s.dev.host.nextJob htsi (by omega) hf hz (by rw [hn]; exact hz')
    (by unfold Dev.tsiArmed; rw [opened_xc]; exact ha) (by rw [hn]; rfl)) fun t ht tb htb p hp => ?_
  obtain ⟨hlegal, hnodup⟩ := tablesOf_legal (c.u8 0)
  have hp' : p < 8192 := by have := (hlegal tb htb).2; omega
  exact (Dev.foldl_fillStandby_filled hp' (fun t ht => (hlegal t ht).1) hnodup htb (s.dev.opened 0x20 c)).congr
    (Dev.activePage_congr (congrArg Xc.offWords (opened_xc ..).symm) tb)
    (fun page => (Dev.xcWord_of_mask hparts (by decide) page tb p).symm) fun page => ht page tb p

theorem xcWriteConnectsPositions : XcWriteConnectsPositions := by
  intro s c hs htsi hcount hf hz hz' ha
  dsimp only
  intro hdk hdv
  have hz16 : Zeros c 16 19 := fun i hlo hhi => hz' i hlo (by omega)
  have hopen : ∀ (e : Dev), xcRecord c (c.u8 0) false 0 (s.dev.opened 0x20 c) = .ok e →
      xcWrite c (s.dev.opened 0x20 c) s.dev.host.nextJob = ran e := fun e he => by
    refine xcWrite_made _ htsi (by omega) (by omega) hz (fun i hlo hhi => hz' i (by rw [hcount] at hlo; omega) hhi)
      (by unfold Dev.tsiArmed; rw [opened_xc]; exact ha) ?_
    rw [hf, hcount, foldl_same (f := Dev.fillStandby 0) fun _ _ => rfl]
    show xcRecords c (c.u8 0) false [0] (s.dev.opened 0x20 c) = .ok e
    unfold xcRecords
    rw [he]
    rfl
  have hpage : ∀ table, (s.dev.opened 0x20 c).standbyPage table = s.dev.standbyPage table := fun table =>
    congrArg (1 - ·) (Dev.activePage_congr (congrArg Xc.offWords (opened_xc s.dev 0x20 c)) table)
  refine ⟨fun dst hop hsk hsv hn hdst => ?_, fun len dst src hop hsk hsv hn hin hin' hdst hsrc hdlen hslen halike hfree => ?_⟩
  · refine answers_xcWrite hs (hopen _ (xcRecord_disconnects hdk hdv hz16 hop hsk hsv hn (by rwa [opened_xcObj])))
      fun t ht p hp => ?_
    rw [ht, hpage]
    exact Dev.connect_word (Q := fun w => srcKind w = 0) _ _ hp fun e i _ => e.connWord_none ..
  · have hwords : ∀ page p, (s.dev.opened 0x20 c).xcWord page dst.table p = s.dev.xcWord page dst.table p := fun page p =>
      Dev.xcWord_of_mask (opened_parts s.dev 0x20 c) (by decide) page dst.table p
    refine answers_xcWrite hs (hopen _ (xcRecord_connects hdk hdv hz16 hop hsk hsv hn hin hin' (by rwa [opened_xcObj])
      (by rwa [opened_xcObj]) hdlen hslen halike (by simpa only [hpage, hwords] using hfree))) fun t ht p hp => ?_
    rw [ht, hpage]
    obtain ⟨i, hi, hsays⟩ := Dev.connect_word
      (Q := fun w => ∃ i, dst.pos[i]? = some p ∧ ConnWordSays dst src (c.u8 12) (c.u16 14) i w) _ _ hp fun e i hi =>
        ⟨i, hi, Dev.connWord_says hsk hsv hdst hsrc halike e i⟩
    exact ⟨i, hi, hsays.input, hsays.output, hsays.whole⟩

/-- Settles O27: what XC_WRITE makes of the standby page, without records and with one. -/
theorem connectionsAreWritten : Obligations.ConnectionsAreWritten := ⟨xcWriteFillsTheStandbyPage, xcWriteConnectsPositions⟩

end Sys2Proof.Claim
end

section
/-! SUPPORT. What the operations of a swap leave of the cross-connect (R200–R202): which of them leave it alone, what the end of a
TSI's swap changes of it, and when an arm's last TSI has come to its end. -/

namespace Sys2Proof.Machine

/-- The cross-connect but for its words and the pages in force, which alone the end of a TSI's swap changes. -/
def Xc.offPages (x : Xc) : Xc := { x.offWords with hPhys := 0, lPhys := 0 }

theorem Xc.arms_of_offPages {x y : Xc} (h : x.offPages = y.offPages) : x.arms = y.arms ∧ x.tick = y.tick :=
  ⟨(congrArg Xc.arms h :), (congrArg Xc.tick h :)⟩

/-- The standby page of a TSI becomes the active one. -/
def Xc.flip (x : Xc) (tsi : Nat) : Xc := if tsi = 0 then { x with hPhys := 1 - x.hPhys } else { x with lPhys := 1 - x.lPhys }

theorem Xc.flip_offPages (x : Xc) (tsi : Nat) : (x.flip tsi).offPages = x.offPages := by
  unfold Xc.flip
  split <;> rfl

section
variable (d : Dev)

theorem Dev.raise_xc (a i code : Nat) (args : List Byte) : (d.raise a i code args).xc = d.xc :=
  Dev.xc_of_mask (Dev.raise_mask (T := [.regs, .host, .jersey]) (by decide) ..) (by decide)

theorem Dev.endAborted_xc : d.endAborted.xc = d.xc :=
  Dev.xc_of_mask (Dev.endAborted_mask (T := [.regs, .host, .jersey]) (by decide) d) (by decide)

theorem Dev.complete_xc (op j : Nat) (r : Done) : (d.complete op j r).xc = d.xc :=
  Dev.xc_of_mask (Dev.complete_mask (T := [.regs, .host, .jersey]) (by decide) ..) (by decide)

theorem Dev.dropArms_xc (keep : Arm → Bool) : (d.dropArms keep).xc = { d.xc with arms := d.xc.arms.filter keep } :=
  Dev.xc_of_mask (Dev.mask_foldl (T := [.regs, .host, .jersey])
    (fun e a => (Dev.later_mask (by decide) ..).trans (Dev.raise_mask (by decide) e ..)) _ _) (by decide)

theorem Dev.tsiDone_xc (tsi : Nat) (copyBack : Bool) : (d.tsiDone tsi copyBack).xc.offWords = (d.xc.flip tsi).offWords := by
  have hflip : (if tsi = 0 then { d with xc.hPhys := 1 - d.xc.hPhys } else { d with xc.lPhys := 1 - d.xc.lPhys }).xc
      = d.xc.flip tsi := by
    unfold Xc.flip
    split <;> rfl
  have hwatch : ∀ e : Dev, (if tsi = 0 then e.insertWatch else e).xc = e.xc := fun e => by
    split
    · exact Dev.xc_of_mask (Dev.insertWatch_mask (T := [.regs, .groups, .host, .jersey]) (by decide) e) (by decide)
    · rfl
  unfold Dev.tsiDone
  dsimp only
  rw [Dev.xc_of_mask (Dev.expose_mask (T := [.regs, .plane, .host, .jersey]) (by decide) _) (by decide), hwatch, ← hflip]
  split
  · exact foldl_keeps (fun e : Dev => e.xc.offWords = _) _ (fun e t he => (e.copyPage_xc ..).trans he) _ _ rfl
  · rfl

theorem Dev.foldl_tsiDone_xc (copyBack : Bool) (l : List Nat) :
    (l.foldl (fun d t => d.tsiDone t copyBack) d).xc.offPages = d.xc.offPages :=
  foldl_keeps (fun e : Dev => e.xc.offPages = d.xc.offPages) _ (fun e t he =>
    ((congrArg Xc.offPages (e.tsiDone_xc t copyBack)).trans (e.xc.flip_offPages t)).trans he) l d rfl

end

/-! ### An arm that comes to its end -/

/-- The TSIs of an arm whose positions have all changed. -/
def Arm.settled (a : Arm) : List Nat :=
  [0, 1].filter (fun t => a.busy / 2 ^ t % 2 = 1 && !a.left.any (fun x => (tablesOf t).contains x.1))

/-- The TSIs of an arm whose positions are still changing. -/
def Arm.unsettled (a : Arm) : Nat := a.busy - (a.settled.map (fun t => 2 ^ t)).sum

/-- A TSI with a position that has not changed keeps its arm from its end. -/
theorem Arm.unsettled_pos {a : Arm} {n : Nat} (hn : n ∈ [0, 1]) (hbusy : a.busy / 2 ^ n % 2 = 1) {x : Nat × Nat} (hx : x ∈ a.left)
    (ht : x.1 ∈ tablesOf n) : a.unsettled ≠ 0 := by
  have hleft : a.left.any (fun x => (tablesOf n).contains x.1) = true :=
    List.any_eq_true.mpr ⟨x, hx, List.contains_iff_mem.mpr ht⟩
  unfold Arm.unsettled Arm.settled
  obtain rfl | rfl : n = 0 ∨ n = 1 := by simpa using hn
  all_goals
    simp only [List.filter_cons, hleft, Bool.not_true, Bool.and_false, Bool.false_eq_true, if_false, List.filter_nil]
    split
    · rename_i hother
      obtain ⟨hother, -⟩ := Bool.and_eq_true_iff.mp hother
      rw [decide_eq_true_eq] at hother
      simp only [List.map_cons, List.map_nil, List.sum_cons, List.sum_nil]
      omega
    · simp only [List.map_nil, List.sum_nil]
      omega

/-- An arm of one TSI, of whose positions none is left. -/
theorem Arm.settled_last {a : Arm} {n : Nat} (hn : n ∈ [0, 1]) (hbusy : a.busy = 2 ^ n) (hleft : a.left = []) :
    a.settled = [n] ∧ a.unsettled = 0 := by
  have hsettled : a.settled = [n] := by
    unfold Arm.settled
    rw [hbusy, hleft]
    obtain rfl | rfl : n = 0 ∨ n = 1 := by simpa using hn
    all_goals rfl
  refine ⟨hsettled, ?_⟩
  rw [Arm.unsettled, hsettled, hbusy]
  simp

/-- The device with one swap under way. -/
def Dev.withArm (d : Dev) (a : Arm) : Dev := { d with xc.arms := [a] }

theorem Dev.withArm_flip (d : Dev) (a : Arm) (n : Nat) :
    ((d.withArm a).xc.flip n).hPhys = (d.xc.flip n).hPhys ∧ ((d.withArm a).xc.flip n).lPhys = (d.xc.flip n).lPhys := by
  unfold Xc.flip
  split <;> exact ⟨rfl, rfl⟩

section
variable {d : Dev} {a : Arm}

theorem Dev.armSettle_tick (d : Dev) (j : Nat) : (d.armSettle j).xc.tick = d.xc.tick := by
  unfold Dev.armSettle
  split
  · rfl
  · dsimp only
    split
    · exact (Xc.arms_of_offPages (Dev.foldl_tsiDone_xc ..)).2
    · exact (congrArg Xc.tick (Dev.raise_xc ..)).trans (Xc.arms_of_offPages (Dev.foldl_tsiDone_xc ..)).2

variable (ha : d.xc.arms = [a]) (hs : a.swapping = true)
include ha hs

theorem Dev.armSettle_alone : d.armSettle a.job =
    let e := a.settled.foldl (fun e t => e.tsiDone t a.copyBack) (d.withArm { a with busy := a.unsettled })
    if a.unsettled ≠ 0 then e
    else (({ e with xc.arms := e.xc.arms.filter (fun b => b.job ≠ a.job) }).raise 0xA00004 0 0x1501 a.args).ends 0x21 a.job okDone := by
  have hfind : d.xc.arms.find? (fun b => b.job = a.job && b.swapping) = some a := by simp [ha, hs]
  have hmap : d.xc.arms.map (fun b => if b.job = a.job then { b with busy := a.unsettled } else b) = [{ a with busy := a.unsettled }] := by
    rw [ha, List.map_singleton, if_pos rfl]
  unfold Dev.armSettle Dev.withArm
  rw [hfind, ← hmap]
  rfl

theorem Dev.armSettle_busy (hb : a.unsettled ≠ 0) : (d.armSettle a.job).xc.arms = [{ a with busy := a.unsettled }] := by
  rw [Dev.armSettle_alone ha hs]
  dsimp only
  rw [if_pos hb]
  exact (Xc.arms_of_offPages (Dev.foldl_tsiDone_xc ..)).1

/-- The last TSI of an arm ends it: its pages are exchanged, and XC_SWAP_DONE is set. -/
theorem Dev.armSettle_last {n : Nat} (hn : a.settled = [n]) (hb : a.unsettled = 0) :
    (d.armSettle a.job).xc.arms = [] ∧ (d.armSettle a.job).xc.hPhys = (d.xc.flip n).hPhys
      ∧ (d.armSettle a.job).xc.lPhys = (d.xc.flip n).lPhys ∧ bit ((d.armSettle a.job).reg 0xA00004) 0 = true := by
  rw [Dev.armSettle_alone ha hs, hn]
  dsimp only
  rw [if_neg (not_not.mpr hb), List.foldl_cons, List.foldl_nil]
  have hrest := Dev.foldl_tsiDone_xc (d.withArm { a with busy := a.unsettled }) a.copyBack [n]
  have hpages := Dev.tsiDone_xc (d.withArm { a with busy := a.unsettled }) n a.copyBack
  rw [List.foldl_cons, List.foldl_nil] at hrest
  generalize Dev.tsiDone (d.withArm { a with busy := a.unsettled }) n a.copyBack = e at hrest hpages ⊢
  obtain ⟨hh, hl⟩ := Xc.pages_of_offWords hpages
  have hxc : ∀ e : Dev, ((e.raise 0xA00004 0 0x1501 a.args).ends 0x21 a.job okDone).xc = e.xc := fun e => e.raise_xc ..
  rw [hxc]
  obtain ⟨hflip, hflip'⟩ := d.withArm_flip { a with busy := a.unsettled } n
  refine ⟨?_, hh.trans hflip, hl.trans hflip', Dev.raise_bit (Or.inr (by decide)) _ _ _ (by decide) _⟩
  show e.xc.arms.filter _ = []
  rw [(Xc.arms_of_offPages hrest).1]
  simp [Dev.withArm]

end

end Sys2Proof.Machine
end

section
/-! PROOF of O28, first part: XC_SWAP arms and cancels (R199, R200). -/

namespace Sys2Proof.Machine

open Claim

/-- An arm has a TSI of a mask. -/
def Arm.namedBy (a : Arm) (mask : Nat) : Prop := (mask % 2 = 1 ∧ a.mask % 2 = 1) ∨ (mask / 2 % 2 = 1 ∧ a.mask / 2 % 2 = 1)

theorem Arm.namedBy_iff (a : Arm) (mask : Nat) :
    ([0, 1].filter (fun t => mask / 2 ^ t % 2 = 1)).any (fun t => a.mask / 2 ^ t % 2 = 1) = true ↔ a.namedBy mask := by
  simp [Arm.namedBy, List.any_filter]

section
variable {c : Desc} {d : Dev} (j : Nat) (hm : 1 ≤ c.u8 0) (hm' : c.u8 0 ≤ 3) (hf : c.u8 2 ≤ 1) (h3 : c.u8 3 = 0) (hz : Zeros c 8 55)
include hm hm' hf h3 hz

theorem xcSwap_checks (hop : c.u8 1 ≤ 1) :
    ∀ x ∈ [within 0 (c.u8 0) 1 3, atMost 1 (c.u8 1) 1, atMost 2 (c.u8 2) 1, (3, decide (c.u8 3 = 0)), c.zeros 8 55], x.2 = true := by
  simp only [List.forall_mem_cons]
  exact ⟨within_ok ⟨hm, hm'⟩, decide_eq_true hop, decide_eq_true hf, decide_eq_true h3, zeros_ok hz, List.forall_mem_nil _⟩

theorem xcSwap_arms (hop : c.u8 1 = 0) (hnone : ∀ a ∈ d.xc.arms, ¬a.namedBy (c.u8 0))
    (htick : c.u32 4 = 0 ∨ 1 ≤ ahead d.tickNow (c.u32 4) ∧ ahead d.tickNow (c.u32 4) ≤ 60000
      ∧ (2 ≤ ahead d.tickNow (c.u32 4) ∨ 100000 ≤ d.tickWait)) :
    xcSwap c d j = ranLater { d with xc.arms := d.xc.arms ++ [{
      mask := c.u8 0, copyBack := c.bit 2 0, job := j
      tick := if c.u32 4 = 0 then (d.tickNow + if 100000 ≤ d.tickWait then 1 else 2) % 2 ^ 32 else c.u32 4 }] } := by
  have hfree : ([0, 1].filter (fun t => c.u8 0 / 2 ^ t % 2 = 1)).find? d.tsiArmed = none := by
    refine List.find?_eq_none.mpr fun t ht harmed => ?_
    obtain ⟨a, ha, hbit⟩ := List.any_eq_true.mp harmed
    exact hnone a ha ((a.namedBy_iff _).mp (List.any_eq_true.mpr ⟨t, ht, hbit⟩))
  unfold xcSwap
  dsimp only
  rw [checked_ok (xcSwap_checks hm hm' hf h3 hz (by omega)), if_pos hop, hfree, need_ok (by simpa [and_assoc] using htick),
    need_ok Option.isNone_none]
  simp only [decide_eq_true_eq]

/-- A cancel takes effect on an arm that it names and whose tick has not come. -/
def Dev.cancels (d : Dev) (mask : Nat) (a : Arm) : Bool :=
  !a.swapping && !a.late && !passes d.xc.tick a.tick d.tickNow
    && ([0, 1].filter (fun t => mask / 2 ^ t % 2 = 1)).any (fun t => a.mask / 2 ^ t % 2 = 1)

theorem xcSwap_cancels (hop : c.u8 1 = 1) {a : Arm} (ha : a ∈ d.xc.arms) (hmine : d.cancels (c.u8 0) a = true) :
    xcSwap c d j = ran (d.cancelArms fun a => !d.cancels (c.u8 0) a) := by
  unfold xcSwap
  dsimp only
  rw [checked_ok (xcSwap_checks hm hm' hf h3 hz (by omega)), if_neg (by omega)]
  exact need_ok (b := d.xc.arms.any (d.cancels (c.u8 0))) (List.any_eq_true.mpr ⟨a, ha, hmine⟩) _ _

end

theorem Dev.tickNow_mask (d : Dev) : (d.mask [.regs, .host]).tickNow = d.tickNow := rfl

theorem Dev.tickWait_mask (d : Dev) : (d.mask [.regs, .host]).tickWait = d.tickWait := rfl

end Sys2Proof.Machine

namespace Sys2Proof.Claim

open Machine

theorem opened_tick (d : Dev) (op : Nat) (c : Desc) :
    (d.opened op c).tickNow = d.tickNow ∧ (d.opened op c).tickWait = d.tickWait := by
  rw [← Dev.tickNow_mask, ← Dev.tickWait_mask, opened_parts, Dev.tickNow_mask, Dev.tickWait_mask]
  exact ⟨rfl, rfl⟩

/-- A descriptor that its own rule leaves to be completed later leaves the device of that rule. -/
theorem answers_hostRow_later {i : Instr} {op : Nat} {c : Desc} {run : Desc → Dev → Nat → Ran} {s : State} {d : Dev}
    {P : State → Prop} (hi : exec i s = hostRow op c run s) (hs : Served op c s.dev)
    (hr : run c (s.dev.opened op c) s.dev.host.nextJob = ranLater d) (hP : P { s with dev := d }) : Answers i s P := by
  obtain ⟨hwf, hl, hh, hq⟩ := hs
  refine ⟨_, hi.trans ?_, hP⟩
  unfold hostRow
  rw [if_pos hwf, onDev_eq, Dev.command_ran hl hh hq hr]
  rfl

theorem xcSwapArmsAndCancels : XcSwapArmsAndCancels := by
  intro s c hs
  dsimp only
  intro hm hm' hf h3 hz
  obtain ⟨hnow, hwait⟩ := opened_tick s.dev 0x21 c
  have hxc := opened_xc s.dev 0x21 c
  refine ⟨fun hop hnone htick => ?_, fun a ha hop hnamed hs' hlate hp => ?_⟩
  · refine answers_hostRow_later rfl hs (xcSwap_arms _ hm hm' hf h3 hz hop (by rw [hxc]; exact hnone)
      (by rw [hnow, hwait]; exact htick)) ?_
    rw [hxc, hnow, hwait]
    refine ⟨_, rfl, rfl, rfl, rfl, fun h => if_neg h, fun h hfar => ?_, fun h hfar => ?_, _, List.mem_cons_self, ?_, rfl⟩
    · exact (if_pos h).trans (by rw [if_pos hfar])
    · exact (if_pos h).trans (by rw [if_neg hfar])
    · exact Dev.fetched_nextJob ..
  · have hmine : ∀ b, (s.dev.opened 0x21 c).cancels (c.u8 0) b = true ↔
        b.swapping = false ∧ b.late = false ∧ passes s.dev.xc.tick b.tick s.dev.tickNow = false ∧ b.namedBy (c.u8 0) := fun b => by
      unfold Dev.cancels
      rw [Bool.and_eq_true, Arm.namedBy_iff, hxc, hnow]
      simp [and_assoc]
    have hcancel : (s.dev.opened 0x21 c).cancels (c.u8 0) a = true := (hmine a).mpr ⟨hs', hlate, hp, hnamed⟩
    refine answers_hostRow rfl hs (xcSwap_cancels _ hm hm' hf h3 hz hop (by rw [hxc]; exact ha) hcancel) ?_
    have harms : (((s.dev.opened 0x21 c).cancelArms fun a => !(s.dev.opened 0x21 c).cancels (c.u8 0) a).complete 0x21 s.dev.host.nextJob
        okDone).xc.arms = s.dev.xc.arms.filter (fun a => !(s.dev.opened 0x21 c).cancels (c.u8 0) a) := by
      rw [Dev.complete_xc, Dev.cancelArms, Dev.endAborted_xc, Dev.dropArms_xc, hxc]
    dsimp only
    rw [harms]
    refine ⟨fun hin => ?_, fun b hb => (List.mem_filter.mp hb).1, fun b hb hkept => List.mem_filter.mpr ⟨hb, ?_⟩⟩
    · have hkeep := (List.mem_filter.mp hin).2
      rw [hcancel] at hkeep
      exact Bool.false_ne_true hkeep
    · rw [Bool.not_eq_true', ← Bool.not_eq_true, hmine]
      rintro ⟨hnot, hsoon, -, hname⟩
      obtain h | h | h := hkept
      · exact h hname
      · exact Bool.false_ne_true (hnot.symm.trans h)
      · exact Bool.false_ne_true (hsoon.symm.trans h)

end Sys2Proof.Claim
end

section
/-! PROOF of O28, second part: a swap runs from its tick to its last boundary (R196, R201, R202). -/

namespace Sys2Proof.Machine

open Claim

/-! ### The tick (R196, R201) -/

section
variable (d : Dev) (a : Arm)

/-- The positions that a swap of the TSIs of a mask has to change. -/
def Dev.toChange (d : Dev) (mask : Nat) : List (Nat × Nat) :=
  (if mask % 2 = 1 then d.changes 0 else []) ++ (if mask / 2 % 2 = 1 then d.changes 1 else [])

theorem Dev.flatMap_changes (mask : Nat) :
    ([0, 1].filter (fun t => mask / 2 ^ t % 2 = 1)).flatMap d.changes = d.toChange mask := by
  unfold Dev.toChange
  simp only [List.filter_cons, List.filter_nil, pow_zero, Nat.div_one, pow_one, decide_eq_true_eq]
  split <;> split <;> simp

theorem Dev.toChange_congr {d e : Dev} (h : e.xc.words = d.xc.words) (mask : Nat) : e.toChange mask = d.toChange mask := by
  unfold Dev.toChange Dev.changes Dev.pageWords Dev.xcWord
  rw [h]

theorem Dev.mem_changes {tsi : Nat} {x : Nat × Nat} (h : x ∈ d.changes tsi) : x.1 ∈ tablesOf tsi := by
  obtain ⟨t, ht, hx⟩ := List.mem_flatMap.mp h
  obtain ⟨p, -, rfl⟩ := List.mem_map.mp hx
  exact ht

theorem Dev.mem_toChange {mask : Nat} {x : Nat × Nat} (h : x ∈ d.toChange mask) :
    ∃ n ∈ [0, 1], mask / 2 ^ n % 2 = 1 ∧ x.1 ∈ tablesOf n := by
  rw [← Dev.flatMap_changes] at h
  obtain ⟨n, hn, hx⟩ := List.mem_flatMap.mp h
  obtain ⟨hn, hbit⟩ := List.mem_filter.mp hn
  exact ⟨n, hn, of_decide_eq_true hbit, d.mem_changes hx⟩

/-- An arm whose tick has fallen, with the positions that it has to change. -/
def Arm.begun (a : Arm) (left : List (Nat × Nat)) : Arm := { a with swapping := true, busy := a.mask, left := left, late := false }

theorem Dev.startSwap_tick (late : Bool) : (d.startSwap a late).xc.tick = d.xc.tick := by
  unfold Dev.startSwap
  dsimp only
  rw [Dev.armSettle_tick]
  split
  · rw [Dev.raise_xc]
  · rfl

theorem Dev.startSwap_arms {d : Dev} {a : Arm} {left : List (Nat × Nat)} (ha : d.xc.arms = [a]) (hleft : d.toChange a.mask = left)
    (hne : left ≠ []) (late : Bool) : (d.startSwap a late).xc.arms = [{ a.begun left with busy := (a.begun left).unsettled }] := by
  obtain ⟨x, hx⟩ := List.exists_mem_of_ne_nil _ hne
  obtain ⟨n, hn, hbit, ht⟩ := d.mem_toChange (hleft ▸ hx)
  have hmap : d.xc.arms.map (fun b => if b.job = a.job then { b with swapping := true, busy := a.mask, left := left, late := false }
      else b) = [a.begun left] := by
    rw [ha, List.map_singleton, if_pos rfl]
    rfl
  unfold Dev.startSwap
  rw [Dev.flatMap_changes, hleft]
  dsimp only
  refine Dev.armSettle_busy (a := a.begun left) ?_ rfl (Arm.unsettled_pos hn hbit hx ht)
  split
  · rw [Dev.raise_xc]
    exact hmap
  · exact hmap

theorem Dev.tickFalls_tick (n : Nat) : (d.tickFalls n).xc.tick = n := by
  unfold Dev.tickFalls
  dsimp only
  split
  · rfl
  · exact foldl_keeps (fun e : Dev => e.xc.tick = n) _ (fun e b he => (e.startSwap_tick b _).trans he) _ _ rfl

/-- The swap armed for the tick is in progress. -/
theorem Dev.tickFalls_arms {d : Dev} {a : Arm} {n : Nat} (ha : d.xc.arms = [a]) (hs : a.swapping = false) (hw : d.worker = false)
    (hp : passes d.xc.tick a.tick n = true) (hne : d.toChange a.mask ≠ []) :
    ∃ busy, (d.tickFalls n).xc.arms = [{ a.begun (d.toChange a.mask) with busy := busy }] := by
  have hdue : d.xc.arms.filter (fun a => !a.swapping && (a.late || passes d.xc.tick a.tick n)) = [a] := by simp [ha, hs, hp]
  unfold Dev.tickFalls
  dsimp only
  rw [if_neg (by simp [hw]), hdue, List.foldl_cons, List.foldl_nil]
  refine ⟨_, Dev.startSwap_arms ?_ ?_ hne _⟩
  · exact ha
  · exact Dev.toChange_congr rfl _

theorem swapTick_xc {d : Dev} (h : d.tickNow ≠ d.xc.tick) :
    (swapTick d).xc.tick = d.tickNow ∧ (swapTick d).xc.arms = (d.tickFalls d.tickNow).xc.arms := by
  have hphase : ∀ e : Dev, e.takePhase.xc.tick = e.xc.tick ∧ e.takePhase.xc.arms = e.xc.arms := fun e => by
    unfold Dev.takePhase
    split <;> exact ⟨rfl, rfl⟩
  unfold swapTick
  dsimp only
  rw [if_neg h, Dev.xc_of_mask (Dev.sendTime_mask (T := [.host, .jersey]) (by decide) ..) (by decide), (hphase _).1, (hphase _).2]
  dsimp only
  rw [Dev.endAborted_xc]
  exact ⟨d.tickFalls_tick _, rfl⟩

end

/-! ### The boundary of a position (R202) -/

/-- An arm with the positions of a table that change together no longer to change. -/
def Arm.passed (a : Arm) (table pos : Nat) (ps : List Nat) : Arm :=
  { a with left := a.left.filter (fun x => !(x.1 = table && (ps.contains x.2 || x.2 = pos))) }

theorem Dev.boundaryActs_xc (d : Dev) (table pos : Nat) (ps : List Nat) : (d.boundaryActs table pos ps).xc = d.xc :=
  Dev.xc_of_mask (Dev.boundaryActs_mask (T := [.regs, .points, .groupCause, .vc4s, .los, .host, .jersey]) (by decide) ..) (by decide)

theorem Dev.newSource_lo (d : Dev) (pos cause : Nat) : d.newSource 2 pos cause =
    (d.updLo pos fun x => { x with ptr.ndfDue := true }).settleBelow (mpKeyOf 7 0 pos) cause := rfl

theorem Dev.newSource_vc4 {d : Dev} {pos v : Nat} (hv : d.vc4Holding pos = some v) (cause : Nat) : d.newSource 1 pos cause =
    (d.updVc4 v fun x => { x with ptr.ndfDue := true }).settleBelow (mpKeyOf 6 0 v) cause := by
  unfold Dev.newSource
  dsimp only
  rw [hv]
  rfl

theorem Dev.boundaryActs_lo (d : Dev) (pos : Nat) (ps : List Nat) : ((d.boundaryActs 2 pos ps).lo pos).ptr.ndfDue = true := by
  unfold Dev.boundaryActs
  rw [Dev.newSource_lo, Dev.lo_of_mask (Dev.sendPositions_mask (T := [.host]) (by decide) ..) (by decide),
    Dev.lo_of_mask (Dev.settleBelow_mask (T := [.regs, .points, .groupCause, .host, .jersey]) (by decide) ..) (by decide), Dev.updLo_lo]

theorem Dev.boundaryActs_vc4 {d : Dev} {pos v : Nat} {x : Vc4} (hv : d.vc4Holding pos = some v) (hx : d.vc4 v = some x)
    (ps : List Nat) : ∃ y, (d.boundaryActs 1 pos ps).vc4 v = some y ∧ y.ptr.ndfDue = true := by
  unfold Dev.boundaryActs
  rw [Dev.newSource_vc4 hv, Dev.vc4_of_mask (Dev.sendPositions_mask (T := [.host]) (by decide) ..) (by decide),
    Dev.vc4_of_mask (Dev.settleBelow_mask (T := [.regs, .points, .groupCause, .host, .jersey]) (by decide) ..) (by decide),
    Dev.updVc4_some hx]
  exact ⟨_, rfl, rfl⟩

section
variable {d : Dev} {a : Arm} {table pos : Nat} (ha : d.xc.arms = [a]) (hs : a.swapping = true) (hin : (table, pos) ∈ a.left)
include ha hs hin

theorem swapBoundary_alone : swapBoundary table pos d =
    (((d.withArm (a.passed table pos (d.together table pos))).boundaryActs table pos (d.together table pos)).armSettle
      a.job).endAborted := by
  have hfind : d.xc.arms.find? (fun a => a.swapping && a.left.contains (table, pos)) = some a := by
    simp [ha, hs, hin]
  have hmap : d.xc.arms.map (fun b => if b.job = a.job then
      { b with left := b.left.filter (fun x => !(x.1 = table && ((d.together table pos).contains x.2 || x.2 = pos))) } else b)
      = [a.passed table pos (d.together table pos)] := by
    rw [ha, List.map_singleton, if_pos rfl]
    rfl
  unfold swapBoundary Dev.withArm
  rw [hfind, ← hmap]

/-- Past what happens at the boundary itself, the swap concerns the cross-connect and its events alone. -/
theorem swapBoundary_acts : (swapBoundary table pos d).mask [.regs, .plane, .xc, .groups, .host, .jersey]
    = ((d.withArm (a.passed table pos (d.together table pos))).boundaryActs table pos (d.together table pos)).mask
      [.regs, .plane, .xc, .groups, .host, .jersey] := by
  rw [swapBoundary_alone ha hs hin]
  exact (Dev.endAborted_mask (by decide) _).trans (Dev.armSettle_mask (by decide) ..)

/-- While a TSI of the arm has a position left, the arm goes on with what is left. -/
theorem swapBoundary_left {x : Nat × Nat} (hx : x ∈ (a.passed table pos (d.together table pos)).left) {n : Nat} (hn : n ∈ [0, 1])
    (ht : x.1 ∈ tablesOf n) (hbusy : a.busy / 2 ^ n % 2 = 1) :
    ∃ busy, (swapBoundary table pos d).xc.arms = [{ a.passed table pos (d.together table pos) with busy := busy }] := by
  rw [swapBoundary_alone ha hs hin, Dev.endAborted_xc]
  exact ⟨_, Dev.armSettle_busy (a := a.passed table pos (d.together table pos)) (by rw [Dev.boundaryActs_xc]; rfl) hs
    (Arm.unsettled_pos hn hbusy hx ht)⟩

/-- The last position of an arm's one TSI ends the arm, exchanges the pages and sets XC_SWAP_DONE. -/
theorem swapBoundary_last (hleft : (a.passed table pos (d.together table pos)).left = []) {n : Nat} (hn : n ∈ [0, 1])
    (hbusy : a.busy = 2 ^ n) :
    (swapBoundary table pos d).xc.arms = [] ∧ (swapBoundary table pos d).xc.hPhys = (d.xc.flip n).hPhys
      ∧ (swapBoundary table pos d).xc.lPhys = (d.xc.flip n).lPhys ∧ bit ((swapBoundary table pos d).reg 0xA00004) 0 = true := by
  obtain ⟨hsettled, hunsettled⟩ := Arm.settled_last (a := a.passed table pos (d.together table pos)) hn hbusy hleft
  rw [swapBoundary_alone ha hs hin, Dev.endAborted_xc, Dev.endAborted_reg (Or.inr (by decide))]
  obtain ⟨harms, hh, hl, hdone⟩ := Dev.armSettle_last (a := a.passed table pos (d.together table pos))
    (d := (d.withArm (a.passed table pos (d.together table pos))).boundaryActs table pos (d.together table pos))
    (by rw [Dev.boundaryActs_xc]; rfl) hs hsettled hunsettled
  rw [Dev.boundaryActs_xc] at hh hl
  exact ⟨harms, hh.trans (d.withArm_flip _ n).1, hl.trans (d.withArm_flip _ n).2, hdone⟩

end

end Sys2Proof.Machine

namespace Sys2Proof.Claim

open Machine

theorem swapsTakeEffectAtTheirTick : SwapsTakeEffectAtTheirTick := by
  intro s hl
  refine ⟨fun hn => ⟨_, exec_onSync rfl hl, ?_⟩, fun tb p a ha hs hin => ⟨_, exec_onSync rfl hl, ?_⟩⟩
  · obtain ⟨htick, harms⟩ := swapTick_xc hn
    refine ⟨htick, fun a ha hs hw hp hne => ?_⟩
    obtain ⟨busy, hbegun⟩ := Dev.tickFalls_arms ha hs hw hp hne
    exact ⟨_, harms.trans hbegun, rfl, rfl, rfl⟩
  · have hacts := swapBoundary_acts ha hs hin
    refine ⟨fun h2 => ?_, fun h1 v x hv hx => ?_, fun x hx n hn ht hbusy => ?_, fun hr hb => ?_, fun hr hb => ?_⟩
    · dsimp only
      rw [Dev.lo_of_mask hacts (by decide), h2]
      exact Dev.boundaryActs_lo ..
    · dsimp only
      rw [Dev.vc4_of_mask hacts (by decide), h1]
      exact Dev.boundaryActs_vc4 (d := s.dev.withArm _) hv hx _
    · obtain ⟨busy, harms⟩ := swapBoundary_left ha hs hin hx hn ht hbusy
      exact ⟨_, harms, rfl, rfl⟩
    · exact swapBoundary_last ha hs hin hr (n := 0) (by decide) hb
    · obtain ⟨harms, hh, hl, hdone⟩ := swapBoundary_last ha hs hin hr (n := 1) (by decide) hb
      exact ⟨harms, hl, hh, hdone⟩

/-- Settles O28: XC_SWAP, the tick and the boundaries. -/
theorem swapsAreArmedAndTakeEffect : Obligations.SwapsAreArmedAndTakeEffect := ⟨xcSwapArmsAndCancels, swapsTakeEffectAtTheirTick⟩

end Sys2Proof.Claim
end

section
/-! SUPPORT. Linear protection (R213–R220): what an evaluation of a selector's requests leaves of the selector, and which request
wins. -/

namespace Sys2Proof.Machine

/-! ### What leaves selectors alone -/

theorem selKey_scheme {scheme n : Nat} (h : n < 4096) : selKey scheme n / 4096 = scheme := by unfold selKey; omega

theorem Dev.updSel_some {d : Dev} {k : Nat} {x : Selector} (hx : d.sel k = some x) (f : Selector → Selector) :
    (d.updSel k f).sel k = some (f x) := by
  rw [Dev.updSel_sel, hx]; rfl

section
variable (d : Dev) (k : Nat)

theorem Dev.expose_sel : d.expose.sel k = d.sel k :=
  Dev.sel_of_mask (Dev.expose_mask (T := [.regs, .plane, .host, .jersey]) (by decide) d) (by decide) k

theorem Dev.refresh_sel : d.refresh.sel k = d.sel k :=
  Dev.sel_of_mask (Dev.refresh_mask (T := [.regs, .points, .host, .jersey]) (by decide) d) (by decide) k

theorem Dev.raise_sel (a i code : Nat) (args : List Byte) : (d.raise a i code args).sel k = d.sel k :=
  Dev.sel_of_mask (Dev.raise_mask (T := [.regs, .host, .jersey]) (by decide) d a i code args) (by decide) k

theorem Dev.tell_sel (cls slice : Nat) (e : Option Nat) : (d.tell cls slice e).sel k = d.sel k :=
  Dev.sel_of_mask (Dev.tell_mask (T := [.regs, .queues, .host, .jersey, .mx, .fresh]) (by decide) d cls slice e) (by decide) k

theorem Dev.tellSel_sel (cls j : Nat) : (d.tellSel cls j).sel k = d.sel k :=
  Dev.sel_of_mask (Dev.tellSel_mask (T := [.regs, .queues, .host, .jersey, .mx, .fresh]) (by decide) d cls j) (by decide) k

theorem Dev.complete_sel (op j : Nat) (r : Done) : (d.complete op j r).sel k = d.sel k :=
  Dev.sel_of_mask (Dev.complete_mask (T := [.regs, .host, .jersey]) (by decide) d op j r) (by decide) k

theorem Dev.sendMsp_sel (w p src : Nat) : (d.sendMsp w p src).sel k = d.sel k := rfl

theorem Dev.selSlice_mask (scheme prot : Nat) : (d.mask [.sels]).selSlice scheme prot = d.selSlice scheme prot := rfl

theorem Dev.selHeld_mask : (d.mask [.regs, .host]).selHeld k = d.selHeld k := rfl

end

/-- A change of a selector that leaves its engine and its sources leaves it to run or to stand still as it was (R351). -/
theorem Dev.updSel_selHeld {d : Dev} {k : Nat} {f : Selector → Selector} (he : ∀ x, (f x).engine = x.engine)
    (hp : ∀ x, (f x).prot = x.prot) : (d.updSel k f).selHeld k = d.selHeld k := by
  have hslice : ∀ s p, (d.updSel k f).selSlice s p = d.selSlice s p := fun s p => by
    rw [← Dev.selSlice_mask, Dev.updSel_mask (by decide), Dev.selSlice_mask]
  unfold Dev.selHeld
  rw [Dev.updSel_sel]
  cases d.sel k with
  | none => rfl
  | some x =>
    dsimp only [Option.map]
    rw [he, hp, hslice]
    rfl

/-! ### Which request wins (R215, R216) -/

/-- A request of which no other is higher wins. -/
theorem highest_head {r : Req} {rs : List Req} (hr : r.prio < Req.nr.prio) (h : ∀ b ∈ rs, r.prio ≤ b.prio) :
    highest (r :: rs) = r := by
  unfold highest
  rw [List.foldl_cons, if_pos hr]
  exact foldl_same fun b hb => if_neg (Nat.not_lt.mpr (h b hb))

theorem Req.prio_pos (r : Req) : 1 ≤ r.prio := by cases r <;> decide

section
variable {x : Selector}

/-- A lockout is the highest request, whatever else stands. -/
theorem Selector.decides_lockout (h : x.cmd = 1) (scheme : Nat) : x.decides scheme = .lo := by
  have htop : x.top = .lo := by
    unfold Selector.top Selector.locals
    rw [h]
    exact highest_head (by decide) fun b _ => b.prio_pos
  unfold Selector.decides
  rw [htop]
  split
  · refine if_neg fun hfar => ?_
    simp only [Bool.and_eq_true, decide_eq_true_eq] at hfar
    exact absurd hfar.2 (Nat.not_lt.mpr (Req.prio_pos _))
  · rfl

/-- A selector that heeds no far end decides by its own highest request. -/
theorem Selector.decides_alone (hb : x.bidir = false) (scheme : Nat) : x.decides scheme = x.top := by
  unfold Selector.decides
  rw [hb]
  split <;> rfl

/-- A forced switch is the highest local request where SF-P does not stand. -/
theorem Selector.top_forced (h : x.cmd = 2) (hp : x.sfP = false) : x.top = .fs := by
  have htop : x.top = highest (.fs :: ((if x.sfW then [.sfW] else []) ++ (if x.sdW then [.sdW] else [])
      ++ (if x.sdP then [.sdP] else []) ++ (if x.wtrStart.isSome then [.wtr] else []) ++ if x.dnr then [.dnr] else [])) := by
    unfold Selector.top Selector.locals
    rw [h, hp]
    rfl
  rw [htop]
  refine highest_head (by decide) fun b hb => ?_
  simp only [List.mem_append, List.mem_ite_nil_right, List.mem_singleton] at hb
  obtain (((⟨-, rfl⟩ | ⟨-, rfl⟩) | ⟨-, rfl⟩) | ⟨-, rfl⟩) | ⟨-, rfl⟩ := hb <;> decide

end

/-! ### One evaluation (R216, R218) -/

/-- The selector without what an evaluation, and the protocol that goes with it, can change. -/
def Selector.standing (x : Selector) : Selector :=
  { x with cmd := 0, dnr := false, wtrStart := none, wtrFor := 0, want := false, apsTx := 0, fopPm := false, pmNow := false
           nrNow := false, pmSince := 0, nrSince := 0 }

/-- The selector without what a change of the protocol's state can change. -/
def Selector.unsent (x : Selector) : Selector :=
  { x with apsTx := 0, fopPm := false, pmNow := false, nrNow := false, pmSince := 0, nrSince := 0 }

theorem Selector.standing_of_unsent {x y : Selector} (h : x.unsent = y.unsent) : x.standing = y.standing :=
  (congrArg Selector.standing h :)

/-- The selector as its requests are evaluated: the command that survives, and the states WTR and DNR. -/
def Selector.staged (left : Bool) (x : Selector) : Selector :=
  let high := !x.locals.isEmpty
  let x := { x with cmd := if 3 ≤ x.cmd && (x.sfP || x.sfW || x.sdW || x.sdP) then 0 else x.cmd }
  let x := { x with
    dnr := !x.revertive && x.selected && x.locals.isEmpty
    wtrStart := if high || !x.selected then none else x.wtrStart }
  if left && x.revertive && x.selected && x.locals.isEmpty && x.wtrStart.isNone then { x with wtrFor := x.wtr } else x

theorem Selector.eval_eq (scheme : Nat) (left : Bool) (x : Selector) : x.eval scheme left =
    let y := x.staged left
    let r := y.decides scheme
    let z := if r.prio ≤ 6 then { y with dnr := false } else y
    { z with want := if r.prio = 5 && z.sdW && z.sdP then z.selected else r.selectsP } := rfl

section
variable (scheme : Nat) (left : Bool) (x : Selector)

theorem Selector.staged_standing : (x.staged left).standing = x.standing :=
  (apply_ite Selector.standing ..).trans (ite_self x.standing)

theorem Selector.staged_cmd : (x.staged left).cmd = if 3 ≤ x.cmd && (x.sfP || x.sfW || x.sdW || x.sdP) then 0 else x.cmd :=
  (apply_ite Selector.cmd ..).trans (ite_self _)

theorem Selector.eval_standing : (x.eval scheme left).standing = x.standing := by
  rw [Selector.eval_eq, ← x.staged_standing left]
  dsimp only
  split_ifs <;> rfl

theorem Selector.eval_cmd : (x.eval scheme left).cmd = (x.staged left).cmd := by
  rw [Selector.eval_eq]
  dsimp only
  split_ifs <;> rfl

end

/-- What the deciding request selects. -/
theorem Selector.eval_want {x : Selector} {scheme : Nat} {left : Bool} {r : Req} (h : (x.staged left).decides scheme = r)
    (hr : r.prio ≠ 5) : (x.eval scheme left).want = r.selectsP := by
  rw [Selector.eval_eq]
  dsimp only
  rw [h]
  simp [hr]

section
variable {x : Selector} {scheme : Nat} {left : Bool}

theorem Selector.eval_keepsCmd (h : 3 ≤ x.cmd → (x.sfP || x.sfW || x.sdW || x.sdP) = false) : (x.eval scheme left).cmd = x.cmd := by
  rw [Selector.eval_cmd, Selector.staged_cmd]
  refine if_neg fun hc => ?_
  obtain ⟨hcmd, hs⟩ := (Bool.and_eq_true _ _).mp hc
  rw [h (of_decide_eq_true hcmd)] at hs
  exact Bool.false_ne_true hs

theorem Selector.eval_lockout (h : x.cmd = 1) : (x.eval scheme left).want = false :=
  Selector.eval_want (Selector.decides_lockout (by rw [Selector.staged_cmd, h]; rfl) _) (by decide)

theorem Selector.eval_forced (h : x.cmd = 2) (hp : x.sfP = false) (hb : x.bidir = false) : (x.eval scheme left).want = true := by
  have hs := x.staged_standing left
  have hb' : (x.staged left).bidir = false := (congrArg Selector.bidir hs :).trans hb
  have hp' : (x.staged left).sfP = false := (congrArg Selector.sfP hs :).trans hp
  exact Selector.eval_want ((Selector.decides_alone hb' _).trans (Selector.top_forced (by rw [Selector.staged_cmd, h]; rfl) hp'))
    (by decide)

end

/-! ### The evaluation in the device -/

/-- What a selector whose requests are evaluated at a time becomes first: where a defect of W has just left, WTR may start. -/
def Selector.evalAt (now scheme : Nat) (left : Bool) (x : Selector) : Selector :=
  let y := x.eval scheme left
  if left && y.revertive && y.selected && y.locals.isEmpty && y.wtrStart.isNone then
    ({ y with wtrStart := some now, wtrFor := y.wtr }).eval scheme false
  else y

theorem Selector.evalAt_standing (now scheme : Nat) (left : Bool) (x : Selector) :
    (x.evalAt now scheme left).standing = x.standing := by
  unfold Selector.evalAt
  dsimp only
  split
  · exact (Selector.eval_standing ..).trans (Selector.eval_standing scheme left x)
  · exact Selector.eval_standing ..

theorem Dev.fopTouch_sel {d : Dev} {k : Nat} {x : Selector} (hx : d.sel k = some x) :
    ∃ y, (d.fopTouch k).sel k = some y ∧ y.unsent = x.unsent := by
  have hset : ∀ (declared : Bool) (f : Selector → Selector),
      (if declared then (d.updSel k f).raise (aSel k 4) 1 0x1602 (selArgs k) else d.updSel k f).sel k = some (f x) := fun declared f => by
    split
    · exact (Dev.raise_sel ..).trans (Dev.updSel_some hx f)
    · exact Dev.updSel_some hx f
  unfold Dev.fopTouch
  rw [hx]
  exact ⟨_, hset _ _, rfl⟩

theorem Dev.apsSend_sel {d : Dev} {k : Nat} {x : Selector} (hx : d.sel k = some x) :
    ∃ y, (d.apsSend k).sel k = some y ∧ y.unsent = x.unsent ∧ (k / 4096 ≤ 1 → y.apsTx = y.apsBytes (k / 4096)) := by
  unfold Dev.apsSend
  rw [hx]
  dsimp only
  split
  · rename_i h
    refine ⟨x, hx, rfl, fun hk => ?_⟩
    simp only [Bool.or_eq_true, decide_eq_true_eq] at h
    exact (h.resolve_left (by omega)).symm
  · exact ⟨_, Dev.updSel_some hx _, rfl, fun _ => rfl⟩

/-- What an evaluation of a selector that runs establishes: what its first evaluation does, if neither a change of the
protocol's state nor a further evaluation ends it; and it sends the bytes of its requests (R220). -/
theorem Dev.selEval_sel {d : Dev} {k : Nat} {x : Selector} (hx : d.sel k = some x) (hh : d.selHeld k = false) (left : Bool)
    {P : Selector → Prop} (h0 : P (x.evalAt d.now (k / 4096) left)) (he : ∀ z, P z → P (z.eval (k / 4096) false))
    (hp : ∀ z w : Selector, w.unsent = z.unsent → P z → P w) :
    ∃ y, (d.selEval k left).sel k = some y ∧ P y ∧ (k / 4096 ≤ 1 → y.apsTx = y.apsBytes (k / 4096)) := by
  obtain ⟨y, hy, hyu⟩ := Dev.fopTouch_sel (Dev.updSel_some hx fun x => x.evalAt d.now (k / 4096) left)
  have hyP := hp _ _ hyu h0
  have hagain : ∀ (e : Dev) (z : Selector) (again : Bool), e.sel k = some z → P z →
      ∃ w, (if again then e.updSel k fun x => x.eval (k / 4096) false else e).sel k = some w ∧ P w := fun e z again hz hzP => by
    split
    · exact ⟨_, Dev.updSel_some hz _, he _ hzP⟩
    · exact ⟨z, hz, hzP⟩
  unfold Dev.selEval
  rw [hh, if_neg Bool.false_ne_true]
  obtain ⟨w, hw, hwP⟩ := hagain _ y _ hy (hp _ _ hyu h0)
  obtain ⟨v, hv, hvu, htx⟩ := Dev.apsSend_sel hw
  exact ⟨v, hv, hp _ _ hvu hwP, htx⟩

/-- An evaluation, of a selector that runs or of one that is held, leaves what stands of it. -/
theorem Dev.selEval_standing {d : Dev} {k : Nat} {x : Selector} (hx : d.sel k = some x) (left : Bool) :
    ∃ y, (d.selEval k left).sel k = some y ∧ y.standing = x.standing := by
  by_cases hh : d.selHeld k = true
  · refine ⟨x, ?_, rfl⟩
    unfold Dev.selEval
    rw [if_pos hh, hx]
  · obtain ⟨y, hy, hys, -⟩ := Dev.selEval_sel hx (Bool.eq_false_iff.mpr hh) left (P := fun y => y.standing = x.standing)
      (Selector.evalAt_standing ..) (fun z hz => (Selector.eval_standing ..).trans hz)
      fun z w hw hz => (Selector.standing_of_unsent hw).trans hz
    exact ⟨y, hy, hys⟩

/-- The selector's configuration and its position. -/
def Selector.configured (x : Selector) : Selector :=
  { work := x.work, prot := x.prot, bidir := x.bidir, revertive := x.revertive, sncN := x.sncN, sdEn := x.sdEn
    holdoff := x.holdoff, wtr := x.wtr, selected := x.selected, engine := x.engine }

/-- Bringing the requests of a source up to date with its conditions (R214) leaves the configuration. -/
theorem Dev.selConds_configured {d : Dev} {k : Nat} {x : Selector} (hx : d.sel k = some x) (isP expire : Bool) :
    ∃ y, (d.selConds k isP expire).sel k = some y ∧ y.configured = x.configured := by
  have hseen : ∀ (z : Selector) (left : Bool), z.configured = x.configured →
      ∃ y, ((d.setSel k (some z)).selEval k left).sel k = some y ∧ y.configured = x.configured := fun z left hz => by
    obtain ⟨y, hy, hys⟩ := Dev.selEval_standing (Dev.setSel_sel d k (some z)) left
    exact ⟨y, hy, (congrArg Selector.configured hys :).trans hz⟩
  unfold Dev.selConds
  rw [hx]
  dsimp only
  split
  · exact ⟨x, hx, rfl⟩
  · refine hseen _ _ ?_
    cases isP <;> rfl

end Sys2Proof.Machine
end

section
/-! PROOF of O29: APS_CFG makes, modifies and removes a selector (R212, R222, R223), and PROT_COMMAND is taken by priority (R217,
R225). -/

namespace Sys2Proof.Machine

open Claim

/-! ### APS_CFG (R212, R222, R223) -/

/-- The fields of an APS_CFG are in their ranges, and its two sources differ. -/
structure ApsLegal (c : Desc) : Prop where
  op : c.u8 0 ≤ 2
  scheme : c.u8 1 ≤ 3
  number : c.u16 2 ≤ selMax (c.u8 1)
  work : c.u16 4 ≤ srcMax (c.u8 1)
  prot : c.u16 6 ≤ srcMax (c.u8 1)
  differ : c.u16 4 ≠ c.u16 6
  flags : c.u8 8 < 16
  bidir : 2 ≤ c.u8 1 → c.bit 8 0 = false
  sncN : c.u8 1 = 1 → c.bit 8 2 = false
  reserved : c.u8 9 = 0
  holdoff : c.u16 10 ≤ 100
  wtr : 30 ≤ c.u16 12 ∧ c.u16 12 ≤ 720
  zeros : Zeros c 14 55

/-- What an APS_CFG that creates a selector meets in the device: like sources with points in service, held by nothing, and an
engine with room. -/
structure Dev.ApsFits (d : Dev) (c : Desc) (e : Nat) : Prop where
  source : d.apsSource (c.u8 1) (c.u16 4) ≠ none
  alike : d.apsSource (c.u8 1) (c.u16 4) = d.apsSource (c.u8 1) (c.u16 6)
  workPoint : d.apsPoint (c.u8 1) (c.bit 8 2) (c.u16 4) = true
  protPoint : d.apsPoint (c.u8 1) (c.bit 8 2) (c.u16 6) = true
  workFree : d.sourceHeld (c.u8 1) (c.u16 4) = false
  protFree : d.sourceHeld (c.u8 1) (c.u16 6) = false
  noAu4 : c.u8 1 = 1 → d.firstAu4 (c.u16 6) = none
  room : d.allocate (d.selSlice (c.u8 1) (c.u16 6)) (selLoad (c.u8 1)).1 (selLoad (c.u8 1)).2 = some e

theorem Dev.leafOdu_mask (d : Dev) (o : Nat) : (d.mask [.regs, .host]).leafOdu o = d.leafOdu o := by
  unfold Dev.leafOdu
  rw [Dev.planned_mask]
  rfl

theorem Dev.apsSource_mask (d : Dev) (scheme n : Nat) : (d.mask [.regs, .host]).apsSource scheme n = d.apsSource scheme n := by
  unfold Dev.apsSource
  rw [Dev.leafOdu_mask]
  rfl

theorem Dev.apsFits_mask (d : Dev) (c : Desc) (e : Nat) : (d.mask [.regs, .host]).ApsFits c e ↔ d.ApsFits c e := by
  have hsource := d.apsSource_mask
  exact ⟨fun ⟨h1, h2, h3, h4, h5, h6, h7, h8⟩ => ⟨by rwa [hsource] at h1, by rwa [hsource, hsource] at h2, h3, h4, h5, h6, h7, h8⟩,
    fun ⟨h1, h2, h3, h4, h5, h6, h7, h8⟩ => ⟨by rwa [hsource], by rwa [hsource, hsource], h3, h4, h5, h6, h7, h8⟩⟩

theorem Dev.fedBy_mask (d : Dev) (table kind n : Nat) : (d.mask [.regs, .host]).fedBy table kind n = d.fedBy table kind n := rfl

/-- The selector that an APS_CFG creates, run by engine `e`. -/
def apsMade (c : Desc) (e now : Nat) : Selector := {
  work := c.u16 4, prot := c.u16 6, bidir := c.bit 8 0, revertive := c.bit 8 1, sncN := c.bit 8 2, sdEn := c.bit 8 3
  holdoff := c.u16 10, wtr := c.u16 12, wtrFor := c.u16 12, engine := some e, pmSince := now, nrSince := now }

/-- A selector with the operands that an APS_CFG may change. -/
def Selector.modified (c : Desc) (x : Selector) : Selector :=
  { x with revertive := c.bit 8 1, sdEn := c.bit 8 3, holdoff := c.u16 10, wtr := c.u16 12 }

section
variable {c : Desc} {d : Dev} (j : Nat) (h : ApsLegal c)
include h

theorem apsCfg_checks : ∀ x ∈ [ atMost 0 (c.u8 0) 2, atMost 1 (c.u8 1) 3, atMost 2 (c.u16 2) (selMax (c.u8 1))
    , atMost 4 (c.u16 4) (srcMax (c.u8 1)), atMost 6 (c.u16 6) (srcMax (c.u8 1))
    , (8, decide (c.u8 8 < 16) && (c.u8 1 ≤ 1 || !c.bit 8 0) && (c.u8 1 ≠ 1 || !c.bit 8 2)), (9, decide (c.u8 9 = 0))
    , atMost 10 (c.u16 10) 100, within 12 (c.u16 12) 30 720, c.zeros 14 55 ], x.2 = true := by
  have hflags : (decide (c.u8 8 < 16) && (c.u8 1 ≤ 1 || !c.bit 8 0) && (c.u8 1 ≠ 1 || !c.bit 8 2)) = true := by
    simp only [Bool.and_eq_true, Bool.or_eq_true, decide_eq_true_eq, Bool.not_eq_true']
    exact ⟨⟨h.flags, (Nat.lt_or_ge 1 (c.u8 1)).symm.imp_right h.bidir⟩, (ne_or_eq (c.u8 1) 1).imp_right h.sncN⟩
  simp only [List.forall_mem_cons]
  exact ⟨decide_eq_true h.op, decide_eq_true h.scheme, decide_eq_true h.number, decide_eq_true h.work, decide_eq_true h.prot,
    hflags, decide_eq_true h.reserved, decide_eq_true h.holdoff, within_ok h.wtr, zeros_ok h.zeros, List.forall_mem_nil _⟩

theorem apsCfg_creates (hop : c.u8 0 = 1) (hnone : d.sel (selKey (c.u8 1) (c.u16 2)) = none) {e : Nat} (hfits : d.ApsFits c e) :
    ∃ f, apsCfg c d j = ran f
      ∧ ∃ y, f.sel (selKey (c.u8 1) (c.u16 2)) = some y ∧ y.unsent = (apsMade c e d.now).unsent := by
  have hlike : ((d.apsSource (c.u8 1) (c.u16 4)).isSome
      && d.apsSource (c.u8 1) (c.u16 4) = d.apsSource (c.u8 1) (c.u16 6)) = true := by
    simp [← hfits.alike, Option.isSome_iff_ne_none.mpr hfits.source]
  have hau : (decide (c.u8 1 ≠ 1) || (d.firstAu4 (c.u16 6)).isNone) = true := by
    by_cases h1 : c.u8 1 = 1
    · simp [hfits.noAu4 h1]
    · simp [h1]
  unfold apsCfg
  dsimp only
  rw [checked_ok (apsCfg_checks h), need_ok (decide_eq_true h.differ), hnone]
  dsimp only
  rw [need_ok (decide_eq_true hop), need_ok hlike, need_ok (by rw [hfits.workPoint, hfits.protPoint]; rfl),
    need_ok (by rw [hfits.workFree]; rfl), need_ok (by rw [hfits.protFree]; rfl), need_ok hau, hfits.room]
  refine ⟨_, rfl, ?_⟩
  rw [Dev.tellSel_sel, Dev.expose_sel]
  have hmade : ∀ z : Dev, z.sel (selKey (c.u8 1) (c.u16 2)) = some (apsMade c e d.now) →
      ∃ y, (z.apsSend (selKey (c.u8 1) (c.u16 2))).sel (selKey (c.u8 1) (c.u16 2)) = some y
        ∧ y.unsent = (apsMade c e d.now).unsent := fun z hz => by
    obtain ⟨y, hy, hyu, -⟩ := Dev.apsSend_sel hz
    exact ⟨y, hy, hyu⟩
  refine hmade _ ?_
  split
  · rw [Dev.sendMsp_sel]
    exact Dev.setSel_sel ..
  · exact Dev.setSel_sel ..

theorem apsCfg_modifies (hop : c.u8 0 = 2) {x : Selector} (hx : d.sel (selKey (c.u8 1) (c.u16 2)) = some x)
    (hw : x.work = c.u16 4) (hp : x.prot = c.u16 6) (hb : x.bidir = c.bit 8 0) (hn : x.sncN = c.bit 8 2) :
    ∃ f, apsCfg c d j = ran f
      ∧ ∃ y, f.sel (selKey (c.u8 1) (c.u16 2)) = some y ∧ y.configured = (x.modified c).configured := by
  unfold apsCfg
  dsimp only
  rw [checked_ok (apsCfg_checks h), need_ok (decide_eq_true h.differ), hx]
  dsimp only
  rw [need_ok (by simp [hop]), if_pos hop, need_ok (by simp [hw, hp, hb, hn])]
  split
  · rename_i hsame
    exact ⟨d, rfl, x, hx, (congrArg Selector.configured hsame.symm :)⟩
  · refine ⟨_, rfl, ?_⟩
    rw [Dev.tellSel_sel]
    obtain ⟨y, hy, hyc⟩ := Dev.selConds_configured (Dev.setSel_sel d _ (some (x.modified c))) false false
    obtain ⟨z, hz, hzc⟩ := Dev.selConds_configured hy true false
    exact ⟨z, hz, hzc.trans hyc⟩

theorem apsCfg_deletes (hop : c.u8 0 = 0) {x : Selector} (hx : d.sel (selKey (c.u8 1) (c.u16 2)) = some x)
    (hfree : ∀ t, schemeTable (c.u8 1) = some t → d.fedBy t 3 (c.u16 2) = none) :
    ∃ f, apsCfg c d j = ran f ∧ f.sel (selKey (c.u8 1) (c.u16 2)) = none := by
  have hhit : ((schemeTable (c.u8 1)).bind fun t => (d.fedBy t 3 (c.u16 2)).map fun pos => pos + t * 2 ^ 16).isNone = true := by
    cases ht : schemeTable (c.u8 1) with
    | none => rfl
    | some t => rw [Option.bind_some, hfree t ht]; rfl
  unfold apsCfg
  dsimp only
  rw [checked_ok (apsCfg_checks h), need_ok (decide_eq_true h.differ), hx]
  dsimp only
  rw [need_ok (by simp [hop]), if_neg (by omega), need_ok hhit]
  refine ⟨_, rfl, ?_⟩
  rw [Dev.tell_sel, Dev.expose_sel, Dev.refresh_sel]
  split
  · rw [Dev.sendMsp_sel]
    exact Dev.setSel_sel ..
  · exact Dev.setSel_sel ..

end

/-! ### PROT_COMMAND (R217, R225) -/

/-- The command is taken where no request stands that is higher (R217). -/
structure Selector.Takes (x : Selector) (cmd : Nat) : Prop where
  known : cmd ≤ 4
  forced : cmd = 2 → x.cmd ≠ 1 ∧ x.sfP = false
  manual : 3 ≤ cmd → x.cmd ≠ 1 ∧ x.cmd ≠ 2 ∧ x.sfP = false ∧ x.sfW = false ∧ x.sdW = false ∧ x.sdP = false
  toWork : cmd = 4 → x.revertive = false

/-- The selector with a command stored. -/
def Selector.commanded (code : Nat) (x : Selector) : Selector :=
  { x with cmd := code, wtrStart := if code = 0 then none else x.wtrStart }

theorem Dev.protApply_taken {d : Dev} {k cmd : Nat} {x : Selector} (hx : d.sel k = some x) (ht : x.Takes cmd) :
    d.protApply k cmd = some ((d.updSel k (Selector.commanded cmd)).selEval k false) := by
  obtain ⟨hknown, hforced, hmanual, htoWork⟩ := ht
  unfold Dev.protApply
  rw [hx]
  dsimp only
  refine if_neg ?_
  interval_cases cmd
  · simp
  · simp
  · obtain ⟨h1, hp⟩ := hforced rfl
    simp [h1, hp]
  · obtain ⟨h1, h2, h3, h4, h5, h6⟩ := hmanual (by decide)
    simp [h1, h2, h3, h4, h5, h6]
  · obtain ⟨h1, h2, h3, h4, h5, h6⟩ := hmanual (by decide)
    simp [h1, h2, h3, h4, h5, h6, htoWork rfl]

/-- What a command taken makes of a selector, whatever evaluations follow: the command stays, a lockout selects W, and a forced
switch P where no far request decides. -/
structure Selector.Obeys (x : Selector) (code : Nat) (y : Selector) : Prop where
  standing : y.standing = x.standing
  cmd : y.cmd = code
  lockout : code = 1 → y.want = false
  forced : code = 2 → x.bidir = false → y.want = true

theorem Selector.Takes.obeyed {x z : Selector} {cmd : Nat} (ht : x.Takes cmd) (hz : z.standing = x.standing) (hc : z.cmd = cmd)
    (scheme : Nat) : x.Obeys cmd (z.eval scheme false) := by
  have hsf : 3 ≤ z.cmd → (z.sfP || z.sfW || z.sdW || z.sdP) = false := fun h3 => by
    obtain ⟨-, -, h1, h2, h3, h4⟩ := ht.manual (hc ▸ h3)
    rw [show z.sfP = x.sfP from (congrArg Selector.sfP hz :), show z.sfW = x.sfW from (congrArg Selector.sfW hz :),
      show z.sdW = x.sdW from (congrArg Selector.sdW hz :), show z.sdP = x.sdP from (congrArg Selector.sdP hz :), h1, h2, h3, h4]
    rfl
  exact {
    standing := (Selector.eval_standing ..).trans hz
    cmd := (Selector.eval_keepsCmd hsf).trans hc
    lockout := fun h1 => Selector.eval_lockout (hc.trans h1)
    forced := fun h2 hb => Selector.eval_forced (hc.trans h2) ((congrArg Selector.sfP hz :).trans (ht.forced h2).2)
      ((congrArg Selector.bidir hz :).trans hb) }

section
variable {d : Dev} {k cmd : Nat} {x : Selector} (hx : d.sel k = some x) (ht : x.Takes cmd)
include hx

theorem Dev.commanded_sel : ∃ y, ((d.updSel k (Selector.commanded cmd)).selEval k false).sel k = some y
    ∧ y.standing = x.standing ∧ (d.selHeld k = true → y.cmd = cmd) := by
  have hset := Dev.updSel_some hx (Selector.commanded cmd)
  by_cases hh : d.selHeld k = true
  · refine ⟨Selector.commanded cmd x, ?_, rfl, fun _ => rfl⟩
    unfold Dev.selEval
    rw [Dev.updSel_selHeld (f := Selector.commanded cmd) (fun _ => rfl) (fun _ => rfl), if_pos hh, hset]
  · obtain ⟨y, hy, hys⟩ := Dev.selEval_standing hset false
    exact ⟨y, hy, hys, fun h => absurd h hh⟩

include ht

theorem Dev.commanded_obeys (hh : d.selHeld k = false) : ∃ y, ((d.updSel k (Selector.commanded cmd)).selEval k false).sel k = some y
    ∧ x.Obeys cmd y ∧ (k / 4096 ≤ 1 → y.apsTx = y.apsBytes (k / 4096)) :=
  Dev.selEval_sel (Dev.updSel_some hx (Selector.commanded cmd))
    ((Dev.updSel_selHeld (f := Selector.commanded cmd) (fun _ => rfl) (fun _ => rfl)).trans hh) false (P := x.Obeys cmd)
    (ht.obeyed (z := Selector.commanded cmd x) rfl rfl _) (fun _ hz => ht.obeyed hz.standing hz.cmd _) fun _ _ hw hz =>
      { standing := (Selector.standing_of_unsent hw).trans hz.standing
        cmd := (congrArg Selector.cmd hw :).trans hz.cmd
        lockout := fun h => (congrArg Selector.want hw :).trans (hz.lockout h)
        forced := fun h hb => (congrArg Selector.want hw :).trans (hz.forced h hb) }

end

theorem protCommand_taken {c : Desc} {d e : Dev} (j : Nat) (hs : c.u8 0 ≤ 3) (hn : c.u16 2 < 4096) (hcmd : c.u8 1 ≤ 4)
    (hz : Zeros c 4 55) (he : d.protApply (selKey (c.u8 0) (c.u16 2)) (c.u8 1) = some e) :
    protCommand c d j = ran (e.tellSel (e.jobClass j) (selKey (c.u8 0) (c.u16 2))) := by
  have hchecks : ∀ x ∈ [atMost 0 (c.u8 0) 3, atMost 1 (c.u8 1) 4, c.zeros 4 55], x.2 = true := by
    simp only [List.forall_mem_cons]
    exact ⟨decide_eq_true hs, decide_eq_true hcmd, zeros_ok hz, List.forall_mem_nil _⟩
  unfold protCommand
  rw [checked_ok hchecks, need_ok (decide_eq_true hn), he]

end Sys2Proof.Machine

namespace Sys2Proof.Claim

open Machine

theorem apsCfgMakesAndUnmakesSelectors : ApsCfgMakesAndUnmakesSelectors := by
  intro s c hs
  dsimp only
  intro hsc hn hw hp hne hf hbi hsn h9 h10 h12 h12' hz
  have hparts := opened_parts s.dev 0x31 c
  have hlegal : c.u8 0 ≤ 2 → ApsLegal c := fun hop => ⟨hop, hsc, hn, hw, hp, hne, hf, hbi, hsn, h9, h10, ⟨h12, h12'⟩, hz⟩
  have hsel : (s.dev.opened 0x31 c).sel (selKey (c.u8 1) (c.u16 2)) = s.dev.sel (selKey (c.u8 1) (c.u16 2)) :=
    Dev.sel_of_mask hparts (by decide) _
  refine ⟨fun e hop hnone hsrc halike hpw hpp hfw hfp hau hroom => ?create, fun x hop hx hxw hxp hxb hxn => ?modify,
    fun x hop hx hfree => ?delete⟩
  case create =>
    have hfits : (s.dev.opened 0x31 c).ApsFits c e := by
      rw [← Dev.apsFits_mask, hparts, Dev.apsFits_mask]
      exact ⟨hsrc, halike, hpw, hpp, hfw, hfp, hau, hroom⟩
    obtain ⟨f, hran, y, hy, hyu⟩ := apsCfg_creates s.dev.host.nextJob (hlegal (by omega)) hop (hsel.trans hnone) hfits
    exact answers_hostRow rfl hs hran ⟨y, (Dev.complete_sel ..).trans hy, (congrArg Selector.work hyu :),
      (congrArg Selector.prot hyu :), (congrArg Selector.bidir hyu :), (congrArg Selector.revertive hyu :),
      (congrArg Selector.sncN hyu :), (congrArg Selector.sdEn hyu :), (congrArg Selector.holdoff hyu :),
      (congrArg Selector.wtr hyu :), (congrArg Selector.selected hyu :), (congrArg Selector.cmd hyu :),
      (congrArg Selector.engine hyu :)⟩
  case modify =>
    obtain ⟨f, hran, y, hy, hyc⟩ := apsCfg_modifies s.dev.host.nextJob (hlegal (by omega)) hop (hsel.trans hx) hxw hxp hxb hxn
    exact answers_hostRow rfl hs hran ⟨y, (Dev.complete_sel ..).trans hy, (congrArg Selector.revertive hyc :),
      (congrArg Selector.sdEn hyc :), (congrArg Selector.holdoff hyc :), (congrArg Selector.wtr hyc :),
      (congrArg Selector.work hyc :).trans hxw, (congrArg Selector.prot hyc :).trans hxp, (congrArg Selector.selected hyc :),
      (congrArg Selector.engine hyc :)⟩
  case delete =>
    obtain ⟨f, hran, hgone⟩ := apsCfg_deletes s.dev.host.nextJob (hlegal (by omega)) hop (hsel.trans hx) fun t ht => by
      rw [← Dev.fedBy_mask, hparts, Dev.fedBy_mask]
      exact hfree t ht
    exact answers_hostRow rfl hs hran ((Dev.complete_sel ..).trans hgone)

theorem protectionCommandsAreTaken : ProtectionCommandsAreTaken := by
  intro s c x hs
  dsimp only
  intro hsc hn hcmd hz hx hforced hmanual htoWork
  have hparts := opened_parts s.dev 0x32 c
  have hopen : (s.dev.opened 0x32 c).sel (selKey (c.u8 0) (c.u16 2)) = some x := (Dev.sel_of_mask hparts (by decide) _).trans hx
  have hheld : (s.dev.opened 0x32 c).selHeld (selKey (c.u8 0) (c.u16 2)) = s.dev.selHeld (selKey (c.u8 0) (c.u16 2)) := by
    rw [← Dev.selHeld_mask, hparts, Dev.selHeld_mask]
  have ht : x.Takes (c.u8 1) := ⟨hcmd, hforced, hmanual, htoWork⟩
  have hran := protCommand_taken s.dev.host.nextJob hsc hn hcmd hz (Dev.protApply_taken hopen ht)
  refine answers_hostRow rfl hs hran ?_
  dsimp only
  rw [Dev.complete_sel, Dev.tellSel_sel]
  by_cases hrun : s.dev.selHeld (selKey (c.u8 0) (c.u16 2)) = false
  · obtain ⟨y, hy, hobeys, htx⟩ := Dev.commanded_obeys hopen ht (hheld.trans hrun)
    rw [selKey_scheme hn] at htx
    exact ⟨y, hy, hobeys.cmd, (congrArg Selector.selected hobeys.standing :), fun _ => hobeys.lockout, fun _ => hobeys.forced,
      fun _ => htx⟩
  · obtain ⟨y, hy, hys, hyc⟩ := Dev.commanded_sel (cmd := c.u8 1) hopen
    exact ⟨y, hy, hyc (hheld.trans (Bool.not_eq_false _ ▸ hrun)), (congrArg Selector.selected hys :), fun h => absurd h hrun,
      fun h => absurd h hrun, fun h => absurd h hrun⟩

/-- Settles O29: APS_CFG and PROT_COMMAND. -/
theorem selectorsAreSetAndCommanded : Obligations.SelectorsAreSetAndCommanded :=
  ⟨apsCfgMakesAndUnmakesSelectors, protectionCommandsAreTaken⟩

end Sys2Proof.Claim
end

section
/-! PROOF of the refutation of O30: where the table of selectors lists a number twice, the end of a holdoff takes the second entry
away, and with it the SF that the statement compares with (R211, R214). -/

namespace Sys2Proof.Machine

open Claim

/-- A selector of scheme 1 whose W no port has; the holdoff of W's conditions has run out. -/
def strayHoldoff : Selector := { work := 65536, holdW := some 0 }

/-- An MSP group of ports 2 and 3 that stands on P. -/
def mspOnProt : Selector := { work := 2, prot := 3, selected := true }

/-- A device that lists selector 5 of scheme 1 twice: as the selector above, and as the MSP group. VC-4 0 is on port 2, and
port 3 has SF. -/
def twiceListed : State where
  dev := { life := .running, sels := [(4101, some strayHoldoff), (4101, some mspOnProt)], vc4s := [(0, some { port := 2 })]
           points := [(mpKeyOf 5 0 3, { role := 1, raw := 0x10 })] }
  mem := []
  pending := []

theorem twiceListed_before : twiceListed.dev.selHeld 4101 = false ∧ twiceListed.dev.srcSf 1 false strayHoldoff.work = true := by
  decide +kernel

theorem twiceListed_after : ((holdoffExpiry 4101 false twiceListed.dev).sel 4101).map Selector.sfW = some false := by
  decide +kernel

end Sys2Proof.Machine

namespace Sys2Proof.Claim

open Machine

/-- Refutes O30: HOLDOFF_EXPIRY is said to leave SF-W as the condition of W was before. In the state `twiceListed` it does not:
the WORK of the selector is a source that no port has, and the point that it reads is that of the MSP group that the table lists
under the same number; to end the holdoff writes the selector's entry, which takes that group from the table, and the condition is
seen on port 2, which has none. -/
theorem not_selectorsFollowBothEnds : ¬ Obligations.SelectorsFollowBothEnds := by
  unfold Obligations.SelectorsFollowBothEnds SelectorsFollowTheirConditions
  rintro ⟨h, -⟩
  obtain ⟨hrun, hsf⟩ := twiceListed_before
  obtain ⟨-, -, hexpiry, -⟩ := h twiceListed ⟨1, 5⟩ strayHoldoff rfl rfl hrun
  obtain ⟨t, ht, y, hy, hyw, -⟩ := hexpiry 0 rfl (by decide)
  have hdev : t.dev = holdoffExpiry 4101 false twiceListed.dev := (congrArg State.dev (Host.Outcome.next.inj ht) :).symm
  have hafter := twiceListed_after
  rw [← hdev, show t.dev.sel 4101 = some y from hy] at hafter
  exact Bool.false_ne_true ((Option.some.inj hafter).symm.trans (hyw.trans hsf))

end Sys2Proof.Claim
end

section
/-! SUPPORT. Merge groups in the device: what an operation on one leaves of it, and what leaves them all alone (R226–R239). -/

namespace Sys2Proof.Machine

section
variable {d : Dev} {k : Nat} {g : MGroup}

theorem Dev.updGroup_some (hg : d.group k = some g) (f : MGroup → MGroup) : (d.updGroup k f).group k = some (f g) := by
  rw [Dev.updGroup_group, hg]; rfl

theorem Dev.updGroup_group_ne {j : Nat} (h : k ≠ j) (f : MGroup → MGroup) : (d.updGroup j f).group k = d.group k :=
  Dev.setGroup_group_ne d _ h

/-- What a change of groups keeps of a group, it keeps in the device, whichever group it changes. -/
theorem Dev.updGroup_keeps {α : Type} {π : MGroup → α} {f : MGroup → MGroup} (hf : ∀ g, π (f g) = π g) (j : Nat) :
    ((d.updGroup j f).group k).map π = (d.group k).map π := by
  by_cases h : k = j
  · subst h
    rw [Dev.updGroup_group, Option.map_map]
    exact congrArg (fun p => Option.map p (d.group k)) (funext hf)
  · rw [Dev.updGroup_group_ne h]

/-- A part of a group that a step keeps stands in the group that the step leaves. -/
theorem Dev.group_kept {α : Type} {e : Dev} {π : MGroup → α} (h : (e.group k).map π = (d.group k).map π) (hg : d.group k = some g) :
    ∃ h, e.group k = some h ∧ π h = π g := by
  rw [hg] at h
  exact Option.map_eq_some_iff.mp h

end

section
variable (d : Dev) (k : Nat)

theorem Dev.raise_group (a i code : Nat) (args : List Byte) : (d.raise a i code args).group k = d.group k :=
  Dev.group_of_mask (Dev.raise_mask (T := [.regs, .host, .jersey]) (by decide) d a i code args) (by decide) k

theorem Dev.count_group (a lo n i : Nat) : (d.count a lo n i).group k = d.group k :=
  Dev.group_of_mask (Dev.count_mask (T := [.regs]) (by decide) d a lo n i) (by decide) k

theorem Dev.count32_group (a i : Nat) : (d.count32 a i).group k = d.group k :=
  Dev.group_of_mask (Dev.count32_mask (T := [.regs]) (by decide) d a i) (by decide) k

theorem Dev.expose_group : d.expose.group k = d.group k :=
  Dev.group_of_mask (Dev.expose_mask (T := [.regs, .plane, .host, .jersey]) (by decide) d) (by decide) k

theorem Dev.complete_group (op j : Nat) (r : Done) : (d.complete op j r).group k = d.group k :=
  Dev.group_of_mask (Dev.complete_mask (T := [.regs, .host, .jersey]) (by decide) d op j r) (by decide) k

theorem Dev.emit_group (o : Out) : (d.emit o).group k = d.group k := rfl

end

/-- A group without INSERT_DIFF. -/
def MGroup.unwatched (g : MGroup) : MGroup := { g with insDiff := false }

theorem Dev.insertWatch_keeps (d : Dev) (k : Nat) :
    (d.insertWatch.group k).map MGroup.unwatched = (d.group k).map MGroup.unwatched := by
  unfold Dev.insertWatch
  refine foldl_keeps (fun e : Dev => (e.group k).map MGroup.unwatched = (d.group k).map MGroup.unwatched) _ (fun e j he => ?_) _ _ rfl
  split
  · split
    · exact he
    · refine Eq.trans ?_ he
      dsimp only
      rw [apply_ite (fun e : Dev => e.group k), Dev.raise_group, ite_self]
      exact Dev.updGroup_keeps (by intro; rfl) j
  · exact he

end Sys2Proof.Machine
end

section
/-! PROOF of O32, first part: MERGE_GROUP_CFG and the cut that it leaves pending (R235–R239). -/

namespace Sys2Proof.Machine

open Claim

/-! ### A new group (R235, R238) -/

/-- Which ODUs can be the copies of a group: those of a frame structure in standard mode, and native ones otherwise. -/
def mergeTakes (std : Bool) (o : Odu) : Bool := if std then decide (o.ty ≤ 5) else decide (o.ty = 6)

/-- What a MERGE_GROUP_CFG that creates a group meets in the device: two leaves alike and free, a free number and enough units. -/
structure Dev.MergeFits (d : Dev) (c : Desc) (x y : Odu) : Prop where
  east : d.leafOdu (c.u16 4) = some x
  west : d.leafOdu (c.u16 6) = some y
  differ : c.u16 4 ≠ c.u16 6
  eastTaken : mergeTakes (c.u8 1 = 1) x = true
  westTaken : mergeTakes (c.u8 1 = 1) y = true
  alike : shapeOfOdu x = shapeOfOdu y
  skew : c.u16 10 ≤ skewMax (c.u8 1 = 1) x
  new : d.group (c.u16 2) = none
  points : c.u8 1 = 1 → (d.point (mpKeyOf 2 0 (c.u16 4))).role ≠ 0 ∧ (d.point (mpKeyOf 2 0 (c.u16 6))).role ≠ 0
  eastFree : d.sourceHeld 0 (c.u16 4) = false
  westFree : d.sourceHeld 0 (c.u16 6) = false
  room : unitsFor x (c.u16 10) ≤ d.freeUnits.length

/-- The state in which a copy of a new group begins. -/
def Dev.firstState (d : Dev) (c : Desc) (o : Nat) : CopySt := if c.bit 8 2 && !d.copySf o then .aligning else .down

/-- The group that a MERGE_GROUP_CFG creates. -/
def Dev.mergeMade (d : Dev) (c : Desc) (x : Odu) : MGroup := {
  std := c.u8 1 = 1, east := c.u16 4, west := c.u16 6, prefer := c.bit 8 0, insert := c.bit 8 1, merge := c.bit 8 2
  maxSkew := c.u16 10, lag := c.u16 10, units := d.freeUnits.take (unitsFor x (c.u16 10)), outAis := c.bit 8 2
  e := { st := d.firstState c (c.u16 4), sf := d.copySf (c.u16 4) }
  w := { st := d.firstState c (c.u16 6), sf := d.copySf (c.u16 6) } }

/-! ### A resize and the preference (R237, R239) -/

/-- A group whose MAX_SKEW has changed: its lag sets out from where it is (R237). -/
def MGroup.reskewed (g : MGroup) (now skew : Nat) : MGroup := { g with lag := g.lagNow now, lagSince := now, maxSkew := skew }

section
variable {c : Desc} {d : Dev} {g : MGroup} {x : Odu} (hg : d.group (c.u16 2) = some g) (hx : d.odu g.east = some x)
  (hs : c.u16 10 ≤ skewMax g.std x) (hc : g.cut = none)
include hg hx hs hc

theorem mergeResize_grows (hgrow : g.maxSkew ≤ c.u16 10)
    (hroom : unitsFor x (c.u16 10) ≤ g.units.length + d.freeUnits.length) :
    mergeResize c d = ran (d.setGroup (c.u16 2) (some { g.reskewed d.now (c.u16 10) with
      units := g.units ++ d.freeUnits.take (unitsFor x (c.u16 10) - g.units.length) })).expose (unitsDone 0 (unitsFor x (c.u16 10))) := by
  have hmore : (d.freeUnits.take (unitsFor x (c.u16 10) - g.units.length)).length = unitsFor x (c.u16 10) - g.units.length :=
    List.length_take_of_le (by omega)
  unfold mergeResize
  dsimp only
  rw [hg]
  dsimp only
  rw [hx]
  dsimp only
  rw [checked_ok (by simpa using hs), need_ok (by simp [hmore]), need_ok (by rw [hc]; rfl), if_neg (by omega)]
  rfl

theorem mergeResize_cuts (hcut : c.u16 10 < g.maxSkew) (hfit : unitsFor x (c.u16 10) ≤ g.units.length) :
    mergeResize c d = ran (d.setGroup (c.u16 2) (some { g.reskewed d.now (c.u16 10) with cut := some (unitsFor x (c.u16 10)) }))
      (unitsDone 3 (unitsFor x (c.u16 10))) := by
  unfold mergeResize
  dsimp only
  rw [hg]
  dsimp only
  rw [hx]
  dsimp only
  rw [checked_ok (by simpa using hs), need_ok (by simp [hfit]), need_ok (by rw [hc]; rfl), if_pos hcut]
  rfl

end

theorem mergeDelete_ran {k : Nat} {d : Dev} {g : MGroup} (hg : d.group k = some g) (hfree : d.fedBy 0 2 k = none) :
    mergeDelete k d = ran (d.setGroup k none).expose (unitsDone 0 0) := by
  unfold mergeDelete
  rw [hg]
  dsimp only
  rw [need_ok (by rw [hfree]; rfl)]

theorem mergePrefer_ran {c : Desc} {d : Dev} {g : MGroup} (hg : d.group (c.u16 2) = some g) :
    mergePrefer c d = ran (d.setGroup (c.u16 2) (some { g with prefer := c.bit 8 0 })) (unitsDone 0 g.units.length) := by
  unfold mergePrefer
  rw [hg]

/-! ### The fields of the command (R238, R239) -/

/-- FLAGS are legal: INSERT or MERGE is set, and INSERT in native mode only. -/
structure MergeFlagsLegal (c : Desc) : Prop where
  below : c.u8 8 < 8
  used : 2 ≤ c.u8 8
  insert : c.u8 1 = 0 ∨ c.bit 8 1 = false

/-- The fields of a MERGE_GROUP_CFG that creates or deletes are in their ranges. -/
structure MergeLegal (c : Desc) : Prop where
  east : c.u16 4 ≤ 4095
  west : c.u16 6 ≤ 4095
  flags : MergeFlagsLegal c
  reserved : c.u8 9 = 0
  skew : 1 ≤ c.u16 10 ∧ c.u16 10 ≤ 8000
  zeros : Zeros c 12 13
  rest : Zeros c 16 55

theorem mergeFlags_ok {c : Desc} (h : MergeFlagsLegal c) : (mergeFlags c).2 = true := by
  unfold mergeFlags
  simp only [Bool.and_eq_true, Bool.or_eq_true, decide_eq_true_eq, Bool.not_eq_true']
  exact ⟨⟨h.below, h.used⟩, h.insert⟩

theorem mergeLegal_checks {c : Desc} (h : MergeLegal c) : ∀ x ∈ [ atMost 4 (c.u16 4) 4095, atMost 6 (c.u16 6) 4095, mergeFlags c
    , (9, decide (c.u8 9 = 0)), within 10 (c.u16 10) 1 8000, c.zeros 12 13, c.zeros 16 55 ], x.2 = true := by
  simp only [List.forall_mem_cons]
  exact ⟨decide_eq_true h.east, decide_eq_true h.west, mergeFlags_ok h.flags, decide_eq_true h.reserved, within_ok h.skew,
    zeros_ok h.zeros, zeros_ok h.rest, List.forall_mem_nil _⟩

section
variable {c : Desc} (d : Dev) (j : Nat) (hmode : c.u8 1 ≤ 1) (hnum : c.u16 2 ≤ 1023)
include hmode hnum

theorem mergeHead_checks (hop : c.u8 0 ≤ 3) : ∀ x ∈ [atMost 0 (c.u8 0) 3, atMost 1 (c.u8 1) 1, atMost 2 (c.u16 2) 1023], x.2 = true := by
  simp only [List.forall_mem_cons]
  exact ⟨decide_eq_true hop, decide_eq_true hmode, decide_eq_true hnum, List.forall_mem_nil _⟩

theorem mergeGroupCfg_create (hop : c.u8 0 = 1) (h : MergeLegal c) : mergeGroupCfg c d j = mergeCreate c d := by
  unfold mergeGroupCfg
  dsimp only
  rw [checked_ok (mergeHead_checks hmode hnum (by omega)), hop]
  exact checked_ok (mergeLegal_checks h) _

theorem mergeGroupCfg_delete (hop : c.u8 0 = 0) (h : MergeLegal c) : mergeGroupCfg c d j = mergeDelete (c.u16 2) d := by
  unfold mergeGroupCfg
  dsimp only
  rw [checked_ok (mergeHead_checks hmode hnum (by omega)), hop]
  exact checked_ok (mergeLegal_checks h) _

theorem mergeGroupCfg_resize (hop : c.u8 0 = 2) (hskew : 1 ≤ c.u16 10 ∧ c.u16 10 ≤ 8000) :
    mergeGroupCfg c d j = mergeResize c d := by
  unfold mergeGroupCfg
  dsimp only
  rw [checked_ok (mergeHead_checks hmode hnum (by omega)), hop]
  exact checked_ok (by simpa using within_ok hskew) _

theorem mergeGroupCfg_prefer (hop : c.u8 0 = 3) (h : MergeFlagsLegal c) : mergeGroupCfg c d j = mergePrefer c d := by
  unfold mergeGroupCfg
  dsimp only
  rw [checked_ok (mergeHead_checks hmode hnum (by omega)), hop]
  exact checked_ok (by simpa using mergeFlags_ok h) _

end

/-! ### What the body of a command leaves (R371) -/

theorem Dev.freeUnits_mask (d : Dev) : (d.mask [.regs, .host]).freeUnits = d.freeUnits := rfl

theorem Dev.mergeFits_mask (d : Dev) (c : Desc) (x y : Odu) : (d.mask [.regs, .host]).MergeFits c x y ↔ d.MergeFits c x y := by
  have hleaf := d.leafOdu_mask
  exact ⟨fun ⟨h1, h2, h3, h4, h5, h6, h7, h8, h9, h10, h11, h12⟩ =>
      ⟨by rwa [hleaf] at h1, by rwa [hleaf] at h2, h3, h4, h5, h6, h7, h8, h9, h10, h11, h12⟩,
    fun ⟨h1, h2, h3, h4, h5, h6, h7, h8, h9, h10, h11, h12⟩ =>
      ⟨by rwa [hleaf], by rwa [hleaf], h3, h4, h5, h6, h7, h8, h9, h10, h11, h12⟩⟩

theorem mergeCreate_ran {c : Desc} {d : Dev} {x y : Odu} (h : d.MergeFits c x y) :
    mergeCreate c d = ran ((d.setGroup (c.u16 2) (some (d.mergeMade c x))).insertWatch).expose
      (unitsDone 0 (unitsFor x (c.u16 10))) := by
  have heast : (d.leafOdu (c.u16 4)).filter (mergeTakes (c.u8 1 = 1)) = some x := by
    rw [h.east]; exact Option.filter_some_pos h.eastTaken
  have hwest : (d.leafOdu (c.u16 6)).filter (mergeTakes (c.u8 1 = 1)) = some y := by
    rw [h.west]; exact Option.filter_some_pos h.westTaken
  have hpoints : (!decide (c.u8 1 = 1) || (decide ((d.point (mpKeyOf 2 0 (c.u16 4))).role ≠ 0)
      && decide ((d.point (mpKeyOf 2 0 (c.u16 6))).role ≠ 0))) = true := by
    by_cases h1 : c.u8 1 = 1
    · simp [h.points h1]
    · simp [h1]
  have hroom : (d.freeUnits.take (unitsFor x (c.u16 10))).length = unitsFor x (c.u16 10) :=
    List.length_take_of_le h.room
  unfold mergeCreate
  unfold mergeTakes at heast hwest
  dsimp only at heast hwest ⊢
  rw [heast, hwest]
  dsimp only
  rw [checked_ok (by simpa using h.skew), need_ok (by rw [h.new]; rfl), need_ok (by simp [h.alike, h.differ]), need_ok hpoints,
    need_ok (by rw [h.eastFree]; rfl), need_ok (by rw [h.westFree]; rfl), need_ok (decide_eq_true hroom)]
  rfl

end Sys2Proof.Machine
end

section
/-! PROOF of O32, first part, continued: the cut of a group (R237), and MERGE_GROUP_CFG's statement. -/

namespace Sys2Proof.Machine

open Claim

/-! ### Slots written and moved (R231, R237) -/

theorem aMg_offHq (k off : Nat) : offHq (aMg k off) := by unfold aMg offHq; omega

/-- A slot that a unit has been written into, with what the slot says of the unit as it was. -/
def MGroup.filled (g : MGroup) (pos n : Nat) (bs : List Byte) (bad : List Nat) : MSlot :=
  let s := tget {} g.slots pos
  let place := match s.place with | some p => some p | none => g.freePlace n
  { s with full := true, place := place, len := bs.length, bytes := if place.isSome then [] else bs
           bad := if place.isSome then [] else bad }

/-- A group with the slot of a position changed to `s`. -/
def MGroup.withSlot (g : MGroup) (pos : Nat) (s : MSlot) : MGroup := { g with slots := tput {} g.slots pos s }

/-- A group without its slots. -/
def MGroup.unslotted (g : MGroup) : MGroup := { g with slots := [] }

theorem Dev.putSlot_group {d : Dev} {k : Nat} {g : MGroup} (hg : d.group k = some g) (pos n : Nat) (bs : List Byte) (bad : List Nat)
    (slice : Option Nat) (mark : MSlot → MSlot) (mem : List Host.Cell) :
    (d.putSlot k pos n bs bad slice mark mem).1.group k = some (g.withSlot pos (mark (g.filled pos n bs bad))) := by
  unfold Dev.putSlot
  rw [hg]
  exact Dev.updGroup_some hg _

theorem Dev.updSlot_group {d : Dev} {k : Nat} {g : MGroup} (hg : d.group k = some g) (pos : Nat) (f : MSlot → MSlot) :
    (d.updSlot k pos f).group k = some (g.withSlot pos (f (tget {} g.slots pos))) := Dev.updGroup_some hg _

theorem Dev.readSlot_group (d : Dev) (g : MGroup) (s : MSlot) (mem : List Host.Cell) (k : Nat) :
    (d.readSlot g s mem).d.group k = d.group k :=
  Dev.group_of_mask (Dev.readSlot_mask (T := [.regs, .plane, .arms, .sliceU, .queues, .psels, .tsu, .cal, .twill, .host, .jersey, .mx,
      .fresh, .reports])
    (by decide) d g s mem) (by decide) k

/-- A group with stored units moved into the first `n` units of its allocation: the slots say of their units what they said, and
those whose units lay there are as they were. -/
structure MGroup.Moved (n : Nat) (g h : MGroup) : Prop where
  rest : h.unslotted = g.unslotted
  marks : ∀ pos, (tget {} h.slots pos).west = (tget {} g.slots pos).west ∧ (tget {} h.slots pos).good = (tget {} g.slots pos).good
  stays : ∀ pos p, (tget {} g.slots pos).place = some p → p < g.capacity n → tget {} h.slots pos = tget {} g.slots pos

theorem MGroup.Moved.refl (n : Nat) (g : MGroup) : g.Moved n g := ⟨rfl, fun _ => ⟨rfl, rfl⟩, fun _ _ _ _ => rfl⟩

theorem Dev.moveSlot_moved {d : Dev} {k n : Nat} {g h : MGroup} (hd : d.group k = some h) (hm : g.Moved n h) (pos : Nat)
    (mem : List Host.Cell) : ∃ h', (Dev.moveSlot k n pos d mem).1.group k = some h' ∧ g.Moved n h' := by
  unfold Dev.moveSlot
  rw [hd]
  dsimp only
  split
  · exact ⟨h, hd, hm⟩
  · rename_i p hp
    split
    · exact ⟨h, hd, hm⟩
    · rename_i hbeyond
      have hread := (Dev.readSlot_group d h (tget {} h.slots pos) mem k).trans hd
      have hput := Dev.putSlot_group (Dev.updSlot_group hread pos fun s => { s with place := none }) pos n
      refine ⟨_, hput .., hm.rest, fun j => ?_, fun j q hq hlt => ?_⟩
      · by_cases hj : j = pos
        · subst hj
          rw [MGroup.withSlot, tget_tput_self]
          unfold MGroup.filled MGroup.withSlot
          rw [tget_tput_self]
          exact hm.marks j
        · rw [MGroup.withSlot, tget_tput_ne _ _ _ hj, MGroup.withSlot, tget_tput_ne _ _ _ hj]
          exact hm.marks j
      · have hj : j ≠ pos := fun hj => by
          subst hj
          rw [hm.stays j q hq hlt] at hp
          obtain rfl : q = p := Option.some.inj (hq.symm.trans hp)
          have hcap : h.capacity n = g.capacity n := (congrArg (fun x : MGroup => x.capacity n) hm.rest :)
          exact hbeyond (hcap ▸ hlt)
        rw [MGroup.withSlot, tget_tput_ne _ _ _ hj, MGroup.withSlot, tget_tput_ne _ _ _ hj]
        exact hm.stays j q hq hlt

theorem mergeResizeApplied_cuts {d : Dev} {k n : Nat} {g : MGroup} (hg : d.group k = some g) (hn : g.cut = some n)
    (hlag : g.lagNow d.now ≤ g.maxSkew) (mem : List Host.Cell) :
    (∃ h, (mergeResizeApplied k d mem).1.group k = some { h with units := h.units.take n, cut := none } ∧ g.Moved n h)
      ∧ bit ((mergeResizeApplied k d mem).1.reg (aMg k 4)) 6 = true := by
  unfold mergeResizeApplied
  rw [hg]
  dsimp only
  rw [hn]
  dsimp only
  rw [if_pos hlag]
  dsimp only
  obtain ⟨h, hh, hm⟩ := foldl_keeps (fun x : Dev × List Host.Cell => ∃ h, x.1.group k = some h ∧ g.Moved n h)
    (fun x pos => Dev.moveSlot k n pos x.1 x.2) (fun x pos ⟨h, hx, hm⟩ => Dev.moveSlot_moved hx hm pos x.2)
    (g.slots.map fun x => x.1) (d, mem) ⟨g, hg, .refl n g⟩
  refine ⟨⟨h, ?_, hm⟩, ?_⟩
  · rw [Dev.expose_group, Dev.raise_group]
    exact Dev.updGroup_some hh _
  · rw [Dev.expose_reg (aMg_offHq k 4)]
    exact Dev.raise_bit (aMg_offHq k 4) _ _ _ (by decide) _

end Sys2Proof.Machine

namespace Sys2Proof.Claim

open Machine

theorem mergeGroupsAreConfigured : MergeGroupsAreConfigured := by
  intro s
  refine ⟨fun c hs hmode hnum => ?_, fun k g n hl hg hn hlag => ?_⟩
  · dsimp only
    have hparts := opened_parts s.dev 0x30 c
    have hgroup : (s.dev.opened 0x30 c).group (c.u16 2) = s.dev.group (c.u16 2) := Dev.group_of_mask hparts (by decide) _
    have hfree : (s.dev.opened 0x30 c).freeUnits = s.dev.freeUnits := by
      rw [← Dev.freeUnits_mask, hparts, Dev.freeUnits_mask]
    have hflags : c.u8 8 < 8 → 2 ≤ c.u8 8 → (decide (c.u8 1 = 1) = false ∨ c.bit 8 1 = false) → MergeFlagsLegal c :=
      fun hf hf' hi => ⟨hf, hf', hi.imp_left fun h => by have := of_decide_eq_false h; omega⟩
    refine ⟨fun hop he hw hf hf' hi h9 h10 h10' hz hz' => ?_, fun g x hop h10 h10' hg hx hskew hcut =>
      ⟨fun hgrow hroom => ?grow, fun hless hfit => ?cut⟩, fun g hop hf hf' hi hg => ?prefer⟩
    · have hlegal : MergeLegal c := ⟨he, hw, hflags hf hf' hi, h9, ⟨h10, h10'⟩, hz, hz'⟩
      refine ⟨fun x y hop hx hy hne hty halike hskew hnew hpts hfe hfw hroom => ?create, fun g hop hg hnone => ?delete⟩
      case create =>
        have htakes : mergeTakes (c.u8 1 = 1) x = true ∧ mergeTakes (c.u8 1 = 1) y = true := by
          unfold mergeTakes
          split_ifs at hty ⊢
          · exact hty.imp decide_eq_true decide_eq_true
          · exact hty.imp decide_eq_true decide_eq_true
        have hfits : (s.dev.opened 0x30 c).MergeFits c x y := by
          rw [← Dev.mergeFits_mask, hparts, Dev.mergeFits_mask]
          exact ⟨hx, hy, hne, htakes.1, htakes.2, halike, hskew, hnew, fun h1 => hpts (decide_eq_true h1), hfe, hfw, hroom⟩
        have hran := (mergeGroupCfg_create (s.dev.opened 0x30 c) s.dev.host.nextJob hmode hnum hop hlegal).trans (mergeCreate_ran hfits)
        obtain ⟨g, hg, hmade⟩ := Dev.group_kept (Dev.insertWatch_keeps ..) (Dev.setGroup_group (s.dev.opened 0x30 c) (c.u16 2)
          (some ((s.dev.opened 0x30 c).mergeMade c x)))
        refine answers_hostRow rfl hs hran ⟨g, ?_, (congrArg MGroup.std hmade :), (congrArg MGroup.east hmade :),
          (congrArg MGroup.west hmade :), (congrArg MGroup.prefer hmade :), (congrArg MGroup.insert hmade :),
          (congrArg MGroup.merge hmade :), (congrArg MGroup.maxSkew hmade :), ?_, (congrArg MGroup.playing hmade :)⟩
        · exact (Dev.complete_group ..).trans ((Dev.expose_group ..).trans hg)
        · rw [← hfree]
          exact (congrArg MGroup.units hmade :)
      case delete =>
        have hran := (mergeGroupCfg_delete (s.dev.opened 0x30 c) s.dev.host.nextJob hmode hnum hop hlegal).trans
          (mergeDelete_ran (hgroup.trans hg) (by rw [← Dev.fedBy_mask, hparts, Dev.fedBy_mask]; exact hnone))
        refine answers_hostRow rfl hs hran ?_
        exact (Dev.complete_group ..).trans ((Dev.expose_group ..).trans (Dev.setGroup_group ..))
    case grow =>
      have hran := (mergeGroupCfg_resize (s.dev.opened 0x30 c) s.dev.host.nextJob hmode hnum hop ⟨h10, h10'⟩).trans
        (mergeResize_grows (hgroup.trans hg) ((Dev.odu_of_mask hparts (by decide) _).trans hx) hskew hcut hgrow (by rw [hfree]; exact hroom))
      refine answers_hostRow rfl hs hran ⟨_, (Dev.complete_group ..).trans ((Dev.expose_group ..).trans (Dev.setGroup_group ..)), rfl, ?_⟩
      rw [← hfree]
    case cut =>
      have hran := (mergeGroupCfg_resize (s.dev.opened 0x30 c) s.dev.host.nextJob hmode hnum hop ⟨h10, h10'⟩).trans
        (mergeResize_cuts (hgroup.trans hg) ((Dev.odu_of_mask hparts (by decide) _).trans hx) hskew hcut hless hfit)
      exact answers_hostRow rfl hs hran ⟨_, (Dev.complete_group ..).trans (Dev.setGroup_group ..), rfl, rfl, rfl⟩
    case prefer =>
      have hran := (mergeGroupCfg_prefer (s.dev.opened 0x30 c) s.dev.host.nextJob hmode hnum hop (hflags hf hf' hi)).trans
        (mergePrefer_ran (hgroup.trans hg))
      exact answers_hostRow rfl hs hran ((Dev.complete_group ..).trans (Dev.setGroup_group ..))
  · obtain ⟨⟨h, hh, hm⟩, hbit⟩ := mergeResizeApplied_cuts hg hn hlag s.mem
    refine answers_onMem rfl hl ⟨_, hh, ?_, rfl, ?_, hbit, fun pos => ?_⟩
    · exact (congrArg (fun x : MGroup => x.units.take n) hm.rest :)
    · exact (congrArg MGroup.maxSkew hm.rest :)
    · obtain ⟨hwest, hgood⟩ := hm.marks pos
      exact ⟨hwest, hgood, hm.stays pos⟩

end Sys2Proof.Claim
end

section
/-! SUPPORT. Arrival at a merge group (R229–R231): its copies, and what each operation leaves of the group. -/

namespace Sys2Proof.Machine

/-! ### Copies of a group (R229) -/

section
variable (g : MGroup) (west : Bool)

@[simp] theorem MGroup.copy_setCopy (c : MCopy) : (g.setCopy west c).copy west = c := by cases west <;> rfl

theorem MGroup.setCopy_slots (c : MCopy) : (g.setCopy west c).slots = g.slots := by cases west <;> rfl

theorem MGroup.setCopy_playing (c : MCopy) : (g.setCopy west c).playing = g.playing := by cases west <;> rfl

theorem MGroup.follow_copy : g.follow.copy west = g.copy west := by
  unfold MGroup.follow
  split_ifs <;> rfl

/-- Playout goes on where a copy is UP. -/
theorem MGroup.follow_playing (h : g.up west = true) : g.follow.playing = g.playing := by
  have hup : (!g.up false && !g.up true) = false := by cases west <;> simp [h]
  unfold MGroup.follow
  rw [hup]
  split
  · rfl
  · rw [if_neg Bool.false_ne_true]
    split <;> rfl

end

/-- A copy as it enters a state: its runs start again. -/
def MCopy.entering (c : MCopy) (st : CopySt) : MCopy :=
  { c with
    st := st, goodRun := 0, oddRun := 0, lateRun := 0, earlyRun := 0
    last := match st with | .down | .aligning => none | _ => c.last
    stage := match st with | .down => [] | _ => c.stage }

/-- A group of which a copy has entered a state. -/
def MGroup.entered (g : MGroup) (west : Bool) (st : CopySt) : MGroup := (g.setCopy west ((g.copy west).entering st)).follow

theorem MGroup.entered_st (g : MGroup) (west : Bool) (st : CopySt) : ((g.entered west st).copy west).st = st := by
  rw [MGroup.entered, MGroup.follow_copy, MGroup.copy_setCopy]
  rfl

theorem MGroup.entered_sf (g : MGroup) (west : Bool) (st : CopySt) : ((g.entered west st).copy west).sf = (g.copy west).sf := by
  rw [MGroup.entered, MGroup.follow_copy, MGroup.copy_setCopy]
  rfl

theorem MGroup.entered_playing (g : MGroup) (west : Bool) : (g.entered west .up).playing = g.playing := by
  rw [MGroup.entered, MGroup.follow_playing _ west, MGroup.setCopy_playing]
  unfold MGroup.up
  rw [MGroup.copy_setCopy]
  rfl

section
variable {d : Dev} {k : Nat} {g : MGroup} (hg : d.group k = some g)
include hg

theorem Dev.updCopy_group (west : Bool) (f : MCopy → MCopy) :
    (d.updCopy k west f).group k = some (g.setCopy west (f (g.copy west))) := Dev.updGroup_some hg _

theorem Dev.copyTo_group (west : Bool) (st : CopySt) : (d.copyTo k west st).group k = some (g.entered west st) := by
  have hset : ((d.updGroup k fun g => g.entered west st).group k) = some (g.entered west st) := Dev.updGroup_some hg _
  unfold Dev.copyTo
  cases st
  · exact (Dev.raise_group ..).trans hset
  · exact hset
  · exact (Dev.raise_group ..).trans hset
  · exact (Dev.raise_group ..).trans hset

end

/-! ### SF of a copy (R229) -/

/-- A group of which a copy has SF or has none. -/
def MGroup.withSf (g : MGroup) (west sf : Bool) : MGroup := g.setCopy west { g.copy west with sf := sf }

theorem mergeCopySf_group {d : Dev} {k : Nat} {g : MGroup} (hg : d.group k = some g) (hm : g.merge = true) (west : Bool) :
    let sf := d.copySf (if west then g.west else g.east)
    ∃ h, (mergeCopySf k west d).group k = some h ∧ (h.copy west).sf = sf
      ∧ (h.copy west).st = if sf then .down else if (g.copy west).st = .down then .aligning else (g.copy west).st := by
  dsimp only
  generalize hsf : d.copySf (if west then g.west else g.east) = sf
  have hset : (d.updGroup k fun g => g.withSf west sf).group k = some (g.withSf west sf) := Dev.updGroup_some hg _
  have hcopy : (g.withSf west sf).copy west = { g.copy west with sf := sf } := MGroup.copy_setCopy ..
  have hnow : ((g.withSf west sf).copy west).sf = sf := by rw [hcopy]
  have hstays : ((g.withSf west sf).copy west).st = (g.copy west).st := by rw [hcopy]
  have hstep : mergeCopySf k west d = if sf && (g.copy west).st ≠ .down then (d.updGroup k fun g => g.withSf west sf).copyTo k west .down
      else if !sf && (g.copy west).st = .down then (d.updGroup k fun g => g.withSf west sf).copyTo k west .aligning
      else d.updGroup k fun g => g.withSf west sf := by
    unfold mergeCopySf
    rw [hg]
    dsimp only
    rw [hm, hsf]
    rfl
  rw [hstep]
  by_cases hdown : (g.copy west).st = .down
  · rw [if_neg (by simp [hdown]), hdown, if_pos rfl]
    cases sf
    · exact ⟨_, Dev.copyTo_group hset west .aligning, (MGroup.entered_sf ..).trans hnow, MGroup.entered_st ..⟩
    · exact ⟨_, hset, hnow, hstays.trans hdown⟩
  · rw [if_neg hdown]
    cases sf
    · rw [if_neg (by simp), if_neg (by simp [hdown])]
      exact ⟨_, hset, hnow, hstays⟩
    · rw [if_pos (by simp [hdown])]
      exact ⟨_, Dev.copyTo_group hset west .down, (MGroup.entered_sf ..).trans hnow, MGroup.entered_st ..⟩

/-! ### The store and the insert stages (R228, R231) -/

/-- A group without what the merge store, the insert stages and the reference's count of units make of it. -/
def MGroup.course (g : MGroup) : MGroup :=
  { g with slots := [], insSeq := 0, behind := 0, skew := 0, later := false, e := { st := g.e.st }, w := { st := g.w.st } }

/-- A group without the number of its next inserted block. -/
def MGroup.unnumbered (g : MGroup) : MGroup := { g with insSeq := 0 }

theorem MGroup.course_st {g h : MGroup} (hc : h.course = g.course) (west : Bool) : (h.copy west).st = (g.copy west).st := by
  cases west
  · exact (congrArg (fun x : MGroup => x.e.st) hc :)
  · exact (congrArg (fun x : MGroup => x.w.st) hc :)

theorem MGroup.setCopy_course (g : MGroup) (west : Bool) {c : MCopy} (hc : c.st = (g.copy west).st) :
    (g.setCopy west c).course = g.course := by
  cases west
  · exact congrArg (fun st => { g.course with e := { st := st } }) hc
  · exact congrArg (fun st => { g.course with w := { st := st } }) hc

section
variable (d : Dev) (k : Nat)

theorem Dev.insertFeed_keeps (feeds : Data → Bool) (bs : List Byte) (bad : List Nat) :
    ((d.insertFeed feeds bs bad).group k).map MGroup.unnumbered = (d.group k).map MGroup.unnumbered := by
  unfold Dev.insertFeed
  refine foldl_keeps (fun e : Dev => (e.group k).map MGroup.unnumbered = (d.group k).map MGroup.unnumbered) _ (fun e i he => ?_) _ _ rfl
  split
  · split
    · exact he
    · refine Eq.trans ?_ he
      dsimp only
      rw [apply_ite (fun e : Dev => e.group k), Dev.emit_group, ite_self, apply_ite (fun e : Dev => e.group k), Dev.emit_group,
        apply_ite (Option.map MGroup.unnumbered), Dev.updGroup_keeps (by intro; rfl) i, ite_self]
  · exact he

end

/-- A copy with a further unit in staging. -/
def MCopy.pushed (x : MStage) (c : MCopy) : MCopy := { c with stage := x :: c.stage }

/-- A unit in staging, with its bytes where another copy's unit stands in the slot. -/
def stagedUnit (u : MUnit) (pos : Nat) (later : Bool) : MStage :=
  { pos := pos, defect := u.defect, bytes := if later then u.bytes else [], bad := if later then u.bad else [] }

/-- In standard mode a unit goes to the copy's staging. -/
def Dev.pushStage (d : Dev) (k : Nat) (west std : Bool) (x : MStage) : Dev := if std then d.updCopy k west (MCopy.pushed x) else d

/-- A slot as the first unit of its position leaves it. -/
def MSlot.taken (west good : Bool) (now crc : Nat) (s : MSlot) : MSlot :=
  ({ s with west := west, good := good, at_ := now, crc := crc } : MSlot).note west good

/-- A slot as the unit of the other copy leaves it where it replaces the one that was there. -/
def MSlot.replacedBy (west good : Bool) (crc : Nat) (s : MSlot) : MSlot := { s with west := west, good := good, crc := crc }

/-- A group as the second unit of a position leaves it: the skew of the two arrivals, where both copies are UP. -/
def MGroup.skewed (g : MGroup) (now at_ : Nat) (west : Bool) (x : MGroup) : MGroup := { x with
  skew := if g.up false && g.up true then min ((now - at_) / 1000) 16383 else x.skew
  later := if g.up false && g.up true then west else x.later }

/-- The second unit of a position has been seen. -/
def Dev.seenAt (e : Dev) (k pos : Nat) (g : MGroup) (now at_ : Nat) (west good : Bool) : Dev :=
  (e.updGroup k (g.skewed now at_ west)).updSlot k pos fun s => s.note west good

section
variable {d : Dev} {k : Nat} {g : MGroup} (hg : d.group k = some g) (west : Bool) {pos : Nat} (u : MUnit) (mem : List Host.Cell)
include hg

theorem Dev.storeUnit_empty (hs : (tget {} g.slots pos).full = false) : d.storeUnit k west pos u mem =
    let y := d.putSlot k pos g.units.length u.bytes u.bad (some (d.copyUnitSlice g west))
      (MSlot.taken west (u.good g.std) d.now (crcField u.bytes)) mem
    (y.1.pushStage k west g.std (stagedUnit u pos false), y.2) := by
  unfold Dev.storeUnit
  rw [hg]
  dsimp only
  rw [hs]
  rfl

variable (hs : (tget {} g.slots pos).full = true)
include hs

theorem Dev.storeUnit_own (hw : (tget {} g.slots pos).west = west) :
    d.storeUnit k west pos u mem = (d.pushStage k west g.std (stagedUnit u pos false), mem) := by
  unfold Dev.storeUnit
  rw [hg]
  dsimp only
  rw [hs, if_pos hw]
  rfl

variable (hw : (tget {} g.slots pos).west ≠ west)
include hw

theorem Dev.storeUnit_waits (hstd : g.std = true) : d.storeUnit k west pos u mem =
    ((d.seenAt k pos g d.now (tget {} g.slots pos).at_ west (u.good g.std)).pushStage k west g.std (stagedUnit u pos true), mem) := by
  unfold Dev.storeUnit
  rw [hg]
  dsimp only
  rw [hs, if_neg hw, hstd]
  rfl

variable (hstd : g.std = false)
include hstd

theorem Dev.storeUnit_replaces (hr : g.replaces (tget {} g.slots pos) west (u.good false) = true) : d.storeUnit k west pos u mem =
    let y := d.putSlot k pos g.units.length u.bytes u.bad (some (d.copyUnitSlice g west))
      (MSlot.replacedBy west (u.good false) (crcField u.bytes)) mem
    (y.1.seenAt k pos g y.1.now (tget {} g.slots pos).at_ west (u.good false), y.2) := by
  unfold Dev.storeUnit
  rw [hg]
  dsimp only
  rw [hs, if_neg hw, hstd, hr]
  rfl

variable (hr : g.replaces (tget {} g.slots pos) west (u.good false) = false)
include hr

theorem Dev.storeUnit_keeps : d.storeUnit k west pos u mem =
    let e := d.seenAt k pos g d.now (tget {} g.slots pos).at_ west (u.good false)
    (if (tget {} g.slots pos).good && u.good false && decide ((tget {} g.slots pos).crc ≠ crcField u.bytes) then
      (e.count32 (aMg k 0x1C)).raise (aMg k 4) 5 0x1646 (le 2 k) else e, mem) := by
  unfold Dev.storeUnit
  rw [hg]
  dsimp only
  rw [hs, if_neg hw, hstd, hr]
  exact (apply_ite (fun e : Dev => (e, mem)) ..).symm

end

end Sys2Proof.Machine
end

section
/-! SUPPORT. What a unit that is stored leaves of its group (R231): its slot, and everything else as it was. -/

namespace Sys2Proof.Machine

/-- A group with a further unit in a copy's staging, in standard mode. -/
def MGroup.push (g : MGroup) (west std : Bool) (x : MStage) : MGroup :=
  if std then g.setCopy west ((g.copy west).pushed x) else g

theorem MGroup.push_slots (g : MGroup) (west std : Bool) (x : MStage) : (g.push west std x).slots = g.slots := by
  unfold MGroup.push
  split
  · exact g.setCopy_slots west _
  · rfl

theorem MGroup.push_course (g : MGroup) (west std : Bool) (x : MStage) : (g.push west std x).course = g.course := by
  unfold MGroup.push
  split
  · exact g.setCopy_course west rfl
  · rfl

theorem MGroup.withSlot_slot (g : MGroup) (pos : Nat) (s : MSlot) : tget {} (g.withSlot pos s).slots pos = s := tget_tput_self ..

theorem MGroup.withSlot_slot_ne (g : MGroup) {pos j : Nat} (h : j ≠ pos) (s : MSlot) :
    tget {} (g.withSlot pos s).slots j = tget {} g.slots j := tget_tput_ne _ _ _ h

/-- A group with the unit at a position stored: its course stands, and so does every other slot. -/
structure MGroup.Stored (g : MGroup) (pos : Nat) (h : MGroup) : Prop where
  course : h.course = g.course
  elsewhere : ∀ j, j ≠ pos → tget {} h.slots j = tget {} g.slots j

section
variable {g h : MGroup} {pos : Nat}

theorem MGroup.Stored.refl : g.Stored pos g := ⟨rfl, fun _ _ => rfl⟩

theorem MGroup.Stored.withSlot (hs : g.Stored pos h) (s : MSlot) : g.Stored pos (h.withSlot pos s) :=
  ⟨hs.course, fun j hj => (h.withSlot_slot_ne hj s).trans (hs.elsewhere j hj)⟩

theorem MGroup.Stored.skewed (hs : g.Stored pos h) (x : MGroup) (now at_ : Nat) (west : Bool) :
    g.Stored pos (x.skewed now at_ west h) := ⟨hs.course, hs.elsewhere⟩

theorem MGroup.Stored.push (hs : g.Stored pos h) (west std : Bool) (x : MStage) : g.Stored pos (h.push west std x) :=
  ⟨(h.push_course west std x).trans hs.course, fun j hj => by rw [MGroup.push_slots]; exact hs.elsewhere j hj⟩

end

section
variable {d : Dev} {k : Nat} {g : MGroup} (hg : d.group k = some g)
include hg

theorem Dev.pushStage_group (west std : Bool) (x : MStage) : (d.pushStage k west std x).group k = some (g.push west std x) := by
  unfold Dev.pushStage MGroup.push
  split
  · exact Dev.updCopy_group hg west _
  · exact hg

theorem Dev.seenAt_group (x : MGroup) (pos now at_ : Nat) (west good : Bool) : (d.seenAt k pos x now at_ west good).group k
    = some ((x.skewed now at_ west g).withSlot pos ((tget {} g.slots pos).note west good)) :=
  Dev.updSlot_group (Dev.updGroup_some hg _) pos _

variable (west : Bool) {pos : Nat} (u : MUnit) (mem : List Host.Cell)

theorem Dev.storeUnit_fills (hs : (tget {} g.slots pos).full = false) : ∃ h, (d.storeUnit k west pos u mem).1.group k = some h
    ∧ g.Stored pos h ∧ tget {} h.slots pos
      = (g.filled pos g.units.length u.bytes u.bad).taken west (u.good g.std) d.now (crcField u.bytes) := by
  rw [Dev.storeUnit_empty hg west u mem hs]
  refine ⟨_, Dev.pushStage_group (Dev.putSlot_group hg pos _ _ _ _ _ mem) west g.std _,
    (MGroup.Stored.refl.withSlot _).push .., ?_⟩
  rw [MGroup.push_slots]
  exact MGroup.withSlot_slot ..

variable (hs : (tget {} g.slots pos).full = true)
include hs

theorem Dev.storeUnit_again (hw : (tget {} g.slots pos).west = west) : ∃ h, (d.storeUnit k west pos u mem).1.group k = some h
    ∧ g.Stored pos h := by
  rw [Dev.storeUnit_own hg west u mem hs hw]
  exact ⟨_, Dev.pushStage_group hg west g.std _, MGroup.Stored.refl.push ..⟩

variable (hw : (tget {} g.slots pos).west ≠ west)
include hw

theorem Dev.storeUnit_stages (hstd : g.std = true) : ∃ h, (d.storeUnit k west pos u mem).1.group k = some h ∧ g.Stored pos h
    ∧ tget {} h.slots pos = (tget {} g.slots pos).note west (u.good g.std)
    ∧ (h.copy west).stage.head?.map MStage.bytes = some u.bytes := by
  rw [Dev.storeUnit_waits hg west u mem hs hw hstd]
  refine ⟨_, Dev.pushStage_group (Dev.seenAt_group hg g pos _ _ west _) west g.std _,
    ((MGroup.Stored.refl.skewed ..).withSlot _).push .., ?_, ?_⟩
  · rw [MGroup.push_slots]
    exact MGroup.withSlot_slot ..
  · rw [hstd, MGroup.push, if_pos rfl, MGroup.copy_setCopy]
    rfl

variable (hstd : g.std = false)
include hstd

theorem Dev.storeUnit_renews (hr : g.replaces (tget {} g.slots pos) west (u.good false) = true) :
    ∃ h, (d.storeUnit k west pos u mem).1.group k = some h ∧ g.Stored pos h ∧ tget {} h.slots pos
      = ((g.filled pos g.units.length u.bytes u.bad).replacedBy west (u.good false) (crcField u.bytes)).note west (u.good false) := by
  rw [Dev.storeUnit_replaces hg west u mem hs hw hstd hr]
  refine ⟨_, Dev.seenAt_group (Dev.putSlot_group hg pos _ _ _ _ _ mem) .., ((MGroup.Stored.refl.withSlot _).skewed ..).withSlot _, ?_⟩
  rw [MGroup.withSlot_slot, MGroup.withSlot_slot]

variable (hr : g.replaces (tget {} g.slots pos) west (u.good false) = false)
include hr

theorem Dev.storeUnit_leaves : ∃ h, (d.storeUnit k west pos u mem).1.group k = some h ∧ g.Stored pos h
    ∧ tget {} h.slots pos = (tget {} g.slots pos).note west (u.good false) := by
  rw [Dev.storeUnit_keeps hg west u mem hs hw hstd hr]
  have hseen := Dev.seenAt_group hg g pos d.now (tget {} g.slots pos).at_ west (u.good false)
  refine ⟨_, Eq.trans ?_ hseen, (MGroup.Stored.refl.skewed ..).withSlot _, MGroup.withSlot_slot ..⟩
  dsimp only
  rw [apply_ite (fun e : Dev => e.group k), Dev.raise_group, Dev.count32_group, ite_self]

omit hr in
/-- Two good units of one number that are not alike are reported (R231). -/
theorem Dev.storeUnit_reports (hx : (tget {} g.slots pos).good = true) (hgood : u.good false = true)
    (hcrc : (tget {} g.slots pos).crc ≠ crcField u.bytes) : bit ((d.storeUnit k west pos u mem).1.reg (aMg k 4)) 5 = true := by
  rw [Dev.storeUnit_keeps hg west u mem hs hw hstd (by unfold MGroup.replaces; rw [hx]; rfl)]
  dsimp only
  rw [if_pos (by simp [hx, hgood, hcrc])]
  exact Dev.raise_bit (aMg_offHq k 4) _ _ _ (by decide) _

end

/-- A unit that is stored leaves the course of its group, and every other slot. -/
theorem Dev.storeUnit_stored {d : Dev} {k : Nat} {g : MGroup} (hg : d.group k = some g) (west : Bool) (pos : Nat) (u : MUnit)
    (mem : List Host.Cell) : ∃ h, (d.storeUnit k west pos u mem).1.group k = some h ∧ g.Stored pos h := by
  by_cases hs : (tget {} g.slots pos).full = true
  · by_cases hw : (tget {} g.slots pos).west = west
    · exact Dev.storeUnit_again hg west u mem hs hw
    · by_cases hstd : g.std = true
      · obtain ⟨h, hh, hst, -⟩ := Dev.storeUnit_stages hg west u mem hs hw hstd
        exact ⟨h, hh, hst⟩
      · rw [Bool.not_eq_true] at hstd
        by_cases hr : g.replaces (tget {} g.slots pos) west (u.good false) = true
        · obtain ⟨h, hh, hst, -⟩ := Dev.storeUnit_renews hg west u mem hs hw hstd hr
          exact ⟨h, hh, hst⟩
        · obtain ⟨h, hh, hst, -⟩ := Dev.storeUnit_leaves hg west u mem hs hw hstd (Bool.eq_false_iff.mpr hr)
          exact ⟨h, hh, hst⟩
  · obtain ⟨h, hh, hst, -⟩ := Dev.storeUnit_fills hg west u mem (Bool.eq_false_iff.mpr hs)
    exact ⟨h, hh, hst⟩

end Sys2Proof.Machine
end

section
/-! SUPPORT. The copies of a merge group as a unit arrives (R229–R231): the verdict that it brings, what it does to its copy's
state, and where it is stored. -/

namespace Sys2Proof.Machine

/-! ### The verdict on the frame two before (R231) -/

/-- A group with other staging buffers of a copy, and other slots. -/
def MGroup.restaged (g : MGroup) (west : Bool) (stage : List MStage) (slots : Tab MSlot) : MGroup :=
  ({ g with slots := slots } : MGroup).setCopy west { g.copy west with stage := stage }

section
variable (g : MGroup) (west : Bool) (stage : List MStage) (slots : Tab MSlot)

theorem MGroup.restaged_copy : (g.restaged west stage slots).copy west = { g.copy west with stage := stage } := MGroup.copy_setCopy ..

theorem MGroup.restaged_slots : (g.restaged west stage slots).slots = slots := MGroup.setCopy_slots ..

theorem MGroup.restaged_self : g.restaged west (g.copy west).stage g.slots = g := by cases west <;> rfl

/-- What a group's configuration and its playout say stands. -/
theorem MGroup.restaged_rest : (g.restaged west stage slots).std = g.std ∧ (g.restaged west stage slots).prefer = g.prefer
    ∧ (g.restaged west stage slots).playing = g.playing ∧ (g.restaged west stage slots).nextUnit = g.nextUnit
    ∧ (g.restaged west stage slots).maxSkew = g.maxSkew := by cases west <;> exact ⟨rfl, rfl, rfl, rfl, rfl⟩

theorem MGroup.restaged_late (p : Nat) : (g.restaged west stage slots).late p = g.late p := by cases west <;> rfl

theorem MGroup.restaged_next (c : MCopy) : c.next (g.restaged west stage slots) = c.next g := by cases west <;> rfl

end

theorem MGroup.replaces_iff {g : MGroup} {s : MSlot} {west good : Bool} :
    g.replaces s west good = true ↔ s.good = false ∧ (good = true ∨ west = g.prefer) := by
  simp [MGroup.replaces]

/-- What the verdict on the second unit in a copy's staging makes of the group's slots. -/
structure MGroup.Judged (g : MGroup) (west : Bool) (nBip : Nat) (slots : Tab MSlot) : Prop where
  empty : ∀ pos, (tget {} g.slots pos).full = false → tget {} slots pos = tget {} g.slots pos
  other : ∀ pos, (∀ e ∈ (g.copy west).stage, e.pos ≠ pos) → tget {} slots pos = tget {} g.slots pos
  nothing : (∀ e ∈ (g.copy west).stage, (tget {} g.slots e.pos).full = false) → slots = g.slots
  own : ∀ a e more, (g.copy west).stage = a :: e :: more → (tget {} g.slots e.pos).full = true → (tget {} g.slots e.pos).west = west →
    (tget {} slots e.pos).good = (!e.defect && decide (nBip = 0)) ∧ (tget {} slots e.pos).west = west
  waiting : ∀ a e more, (g.copy west).stage = a :: e :: more → (tget {} g.slots e.pos).full = true →
    (tget {} g.slots e.pos).west ≠ west → e.bytes ≠ [] →
    let z := tget {} slots e.pos
    let v := tget {} g.slots e.pos
    if v.good = false ∧ ((!e.defect && decide (nBip = 0)) = true ∨ west = g.prefer) then
      z.len = e.bytes.length ∧ z.west = west ∧ z.good = (!e.defect && decide (nBip = 0))
    else z.len = v.len ∧ z.west = v.west ∧ z.good = v.good

section
variable {g : MGroup} {west : Bool} {nBip : Nat}

/-- Without a second unit in staging there is no verdict. -/
theorem MGroup.judged_short (h : ∀ a e more, (g.copy west).stage ≠ a :: e :: more) : g.Judged west nBip g.slots :=
  ⟨fun _ _ => rfl, fun _ _ => rfl, fun _ => rfl, fun a e more hs => absurd hs (h a e more), fun a e more hs => absurd hs (h a e more)⟩

variable {a e : MStage} {more : List MStage} (hs : (g.copy west).stage = a :: e :: more)
include hs

theorem MGroup.second_unit {a' e' : MStage} {more' : List MStage} (h : (g.copy west).stage = a' :: e' :: more') : e = e' :=
  (List.cons.inj (List.cons.inj (hs.symm.trans h)).2).1

/-- A verdict on a unit that neither stands in its slot nor waits for it changes nothing. -/
theorem MGroup.judged_idle (hv : (tget {} g.slots e.pos).full = true → (tget {} g.slots e.pos).west ≠ west ∧ e.bytes = []) :
    g.Judged west nBip g.slots := by
  refine ⟨fun _ _ => rfl, fun _ _ => rfl, fun _ => rfl, fun a' e' more' h hf hw => ?_, fun a' e' more' h hf _ hb => ?_⟩
  · obtain rfl := MGroup.second_unit hs h
    exact absurd hw (hv hf).1
  · obtain rfl := MGroup.second_unit hs h
    exact absurd (hv hf).2 hb

/-- A verdict that changes the slot of its unit. -/
theorem MGroup.judged_slot (hv : (tget {} g.slots e.pos).full = true) {z : MSlot}
    (hown : (tget {} g.slots e.pos).west = west → z.good = (!e.defect && decide (nBip = 0)) ∧ z.west = west)
    (hwait : (tget {} g.slots e.pos).west ≠ west → e.bytes ≠ [] →
      let v := tget {} g.slots e.pos
      if v.good = false ∧ ((!e.defect && decide (nBip = 0)) = true ∨ west = g.prefer) then
        z.len = e.bytes.length ∧ z.west = west ∧ z.good = (!e.defect && decide (nBip = 0))
      else z.len = v.len ∧ z.west = v.west ∧ z.good = v.good) : g.Judged west nBip (tput {} g.slots e.pos z) := by
  have hmem : e ∈ (g.copy west).stage := by rw [hs]; simp
  refine ⟨fun pos hpos => tget_tput_ne _ _ _ fun h => ?_, fun pos hpos => tget_tput_ne _ _ _ fun h => hpos e hmem h.symm,
    fun h => absurd (h e hmem) (ne_false_of_eq_true hv), fun a' e' more' h _ hw => ?_, fun a' e' more' h _ hw hb => ?_⟩
  · rw [h] at hpos
    exact Bool.false_ne_true (hpos.symm.trans hv)
  · obtain rfl := MGroup.second_unit hs h
    rw [tget_tput_self]
    exact hown hw
  · obtain rfl := MGroup.second_unit hs h
    dsimp only
    rw [tget_tput_self]
    exact hwait hw hb

end

theorem MGroup.restaged_withSlot (g : MGroup) (west : Bool) (stage : List MStage) (slots : Tab MSlot) (pos : Nat) (z : MSlot) :
    (g.restaged west stage slots).withSlot pos z = g.restaged west stage (tput {} slots pos z) := by cases west <;> rfl

theorem Dev.stageVerdict_group {d : Dev} {k : Nat} {g : MGroup} (hg : d.group k = some g) (west : Bool) (nBip : Nat)
    (mem : List Host.Cell) : ∃ stage slots, (d.stageVerdict k west nBip mem).1.group k = some (g.restaged west stage slots)
      ∧ g.Judged west nBip slots := by
  unfold Dev.stageVerdict
  rw [hg]
  dsimp only
  split
  · rename_i a e more hs
    have hcut : (d.updCopy k west fun c => { c with stage := [a] }).group k = some (g.restaged west [a] g.slots) :=
      Dev.updCopy_group hg west _
    have hput : ∀ {f : Dev} (z : MSlot), f.group k = some ((g.restaged west [a] g.slots).withSlot e.pos z) →
        f.group k = some (g.restaged west [a] (tput {} g.slots e.pos z)) := fun z hf => by
      rw [hf, MGroup.restaged_withSlot]
    have hsame : tget {} (g.restaged west [a] g.slots).slots e.pos = tget {} g.slots e.pos := by rw [MGroup.restaged_slots]
    split
    · rename_i hfull
      exact ⟨[a], g.slots, hcut, MGroup.judged_idle hs fun h => absurd hfull (by simp [h])⟩
    · rename_i hfull
      have hv : (tget {} g.slots e.pos).full = true := by simpa using hfull
      split
      · rename_i hw
        refine ⟨[a], _, hput _ (Dev.updSlot_group hcut e.pos _), MGroup.judged_slot hs hv (fun _ => ⟨rfl, ?_⟩) fun h => absurd hw h⟩
        rw [hsame]
        exact hw
      · rename_i hw
        split
        · rename_i hb
          exact ⟨[a], g.slots, hcut, MGroup.judged_idle hs fun _ => ⟨hw, List.isEmpty_iff.mp hb⟩⟩
        · split
          · rename_i hr
            refine ⟨[a], _, hput _ (Dev.putSlot_group hcut e.pos _ _ _ _ _ mem), MGroup.judged_slot hs hv (fun h => absurd h hw)
              fun _ _ => ?_⟩
            dsimp only
            rw [if_pos (MGroup.replaces_iff.mp hr)]
            exact ⟨rfl, rfl, rfl⟩
          · rename_i hr
            refine ⟨[a], _, hput _ (Dev.updSlot_group hcut e.pos _), MGroup.judged_slot hs hv (fun h => absurd h hw) fun _ _ => ?_⟩
            dsimp only
            rw [if_neg fun h => hr (MGroup.replaces_iff.mpr h), hsame]
            exact ⟨rfl, rfl, rfl⟩
  · rename_i hs
    refine ⟨(g.copy west).stage, g.slots, ?_, MGroup.judged_short fun a e more h => hs a e more h⟩
    rw [MGroup.restaged_self]
    exact hg

end Sys2Proof.Machine
end

section
/-! SUPPORT. What a unit does to the state of its copy (R229, R230), in each state of the copy. -/

namespace Sys2Proof.Machine

/-- A group whose playout begins, unless it runs: the unit at a position plays out MAX_SKEW from now (R230). -/
def MGroup.started (now : Nat) (west : Bool) (pos : Nat) (g : MGroup) : MGroup :=
  if g.playing then g else { g with
    playing := true, outAis := false, ref := west, slots := [], nextUnit := pos, behind := 0
    nextAt := 1000 * (now + 1000 * g.maxSkew), lag := g.maxSkew, lagSince := now }

section
variable (g : MGroup) (now : Nat) (west : Bool) (pos : Nat)

theorem MGroup.started_st : ((g.started now west pos).copy west).st = (g.copy west).st := by
  unfold MGroup.started
  split <;> rfl

theorem MGroup.started_playing : (g.started now west pos).playing = true := by
  unfold MGroup.started
  split
  · assumption
  · rfl

end

theorem MGroup.follow_maxSkew (g : MGroup) : g.follow.maxSkew = g.maxSkew := by
  unfold MGroup.follow
  split_ifs <;> rfl

theorem MGroup.setCopy_maxSkew (g : MGroup) (west : Bool) (c : MCopy) : (g.setCopy west c).maxSkew = g.maxSkew := by
  cases west <;> rfl

theorem MGroup.entered_maxSkew (g : MGroup) (west : Bool) (st : CopySt) : (g.entered west st).maxSkew = g.maxSkew :=
  (MGroup.follow_maxSkew _).trans (g.setCopy_maxSkew west _)

/-- A group with the copy `west` UP, and the playout under way; where it was not before, it begins with unit `num`. -/
structure MGroup.Joined (g : MGroup) (now : Nat) (west : Bool) (num : Nat) (h : MGroup) : Prop where
  st : (h.copy west).st = .up
  playing : h.playing = true
  first : g.playing = false → h.ref = west ∧ h.nextUnit = num ∧ h.nextAt = 1000 * (now + 1000 * g.maxSkew) ∧ h.outAis = false

theorem MGroup.joined (g : MGroup) (now : Nat) (west : Bool) (num : Nat) (c : MCopy) :
    g.Joined now west num (((g.setCopy west c).entered west .up).started now west num) where
  st := (MGroup.started_st ..).trans (MGroup.entered_st ..)
  playing := MGroup.started_playing ..
  first hp := by
    have hidle : ((g.setCopy west c).entered west .up).playing = false := by
      rw [MGroup.entered_playing, MGroup.setCopy_playing]; exact hp
    have hskew : ((g.setCopy west c).entered west .up).maxSkew = g.maxSkew :=
      (MGroup.entered_maxSkew ..).trans (g.setCopy_maxSkew west c)
    unfold MGroup.started
    rw [hidle, if_neg Bool.false_ne_true, hskew]
    exact ⟨rfl, rfl, rfl, rfl⟩

theorem Dev.copyTo_now (d : Dev) (k : Nat) (west : Bool) (st : CopySt) : (d.copyTo k west st).now = d.now :=
  Dev.now_of_mask (Dev.copyTo_mask (T := [.regs, .groups, .host, .jersey]) (by decide) d k west st) (by decide)

theorem Dev.startPlayout_group {d : Dev} {k : Nat} {g : MGroup} (hg : d.group k = some g) (west : Bool) (pos : Nat) :
    (d.startPlayout k west pos).group k = some (g.started d.now west pos) := Dev.updGroup_some hg _

/-- A copy changed enters a state. -/
theorem Dev.leaves_group {d : Dev} {k : Nat} {g : MGroup} {west : Bool} {c : MCopy} (hd : d.group k = some (g.setCopy west c))
    (st : CopySt) : ∃ h, (d.copyTo k west st).group k = some h ∧ (h.copy west).st = st :=
  ⟨_, Dev.copyTo_group hd west st, MGroup.entered_st ..⟩

/-- A copy changed is UP, with the playout under way. -/
theorem Dev.joins_group {d : Dev} {k : Nat} {g : MGroup} {west : Bool} {c : MCopy} (hd : d.group k = some (g.setCopy west c))
    {now : Nat} (hnow : d.now = now) (num : Nat) :
    ∃ h, ((d.copyTo k west .up).startPlayout k west num).group k = some h ∧ g.Joined now west num h := by
  refine ⟨_, Dev.startPlayout_group (Dev.copyTo_group hd west .up) west num, ?_⟩
  rw [Dev.copyTo_now, hnow]
  exact g.joined ..

section
variable {d : Dev} {k : Nat} {g : MGroup} (hg : d.group k = some g) (west : Bool) (u : MUnit)
include hg

/-- The change of a copy, with a unit counted. -/
theorem Dev.countedCopy_group (f : MCopy → MCopy) (a lo n : Nat) :
    ((d.updCopy k west f).count a lo n).group k = some (g.setCopy west (f (g.copy west))) :=
  (Dev.count_group ..).trans (Dev.updCopy_group hg west f)

theorem Dev.countedIf_group (f : MCopy → MCopy) (late : Bool) (a lo n : Nat) :
    (if late then (d.updCopy k west f).count a lo n else d.updCopy k west f).group k = some (g.setCopy west (f (g.copy west))) := by
  split
  · exact Dev.countedCopy_group hg west f a lo n
  · exact Dev.updCopy_group hg west f

section
variable (hclear : unitClear u g.std = true) (hnext : (g.copy west).next g = some (u.number g.std)) (hrun : 1 ≤ (g.copy west).goodRun)
include hclear hnext hrun

theorem unitAligning_late (hlate : g.late (u.number g.std) = true) : (unitAligning k west g u d).2 = none
    ∧ ∃ h, (unitAligning k west g u d).1.group k = some h ∧ (h.copy west).st = .skew := by
  have hpos : (g.copy west).goodRun ≠ 0 := by omega
  unfold unitAligning
  simp only [hclear, hnext, hlate, Bool.not_true, Bool.false_eq_true, if_false, decide_true, hpos, ne_eq, not_false_eq_true,
    Bool.and_self, if_true]
  rw [if_neg (by omega)]
  exact ⟨rfl, Dev.leaves_group (Dev.countedCopy_group hg west _ ..) .skew⟩

theorem unitAligning_joins (hlate : g.late (u.number g.std) = false) : (unitAligning k west g u d).2 = some (u.number g.std)
    ∧ ∃ h, (unitAligning k west g u d).1.group k = some h ∧ g.Joined d.now west (u.number g.std) h := by
  have hpos : (g.copy west).goodRun ≠ 0 := by omega
  unfold unitAligning
  simp only [hclear, hnext, hlate, Bool.not_true, Bool.false_eq_true, if_false, decide_true, hpos, ne_eq, not_false_eq_true,
    Bool.and_self, if_true, Bool.and_false]
  rw [if_neg (by omega)]
  exact ⟨rfl, Dev.joins_group (Dev.updCopy_group hg west _) rfl _⟩

end

theorem unitUp_overdue (hnext : (g.copy west).next g = some (u.number g.std)) (hlate : g.late (u.number g.std) = true)
    (hrun : 7 ≤ (g.copy west).lateRun) : (unitUp k west g u d).2 = none
    ∧ ∃ h, (unitUp k west g u d).1.group k = some h ∧ (h.copy west).st = .skew := by
  have hodd : ¬(if g.std then 5 else 4) ≤ 0 := by split <;> decide
  unfold unitUp
  simp only [hnext, Option.getD_some, ne_eq, not_true_eq_false, decide_false, Bool.and_false, Bool.false_eq_true, if_false, ite_self,
    hlate, if_true, hodd]
  rw [if_pos (by omega)]
  exact ⟨rfl, Dev.leaves_group (Dev.countedCopy_group hg west _ ..) .skew⟩

theorem unitUp_strays (hnext : (g.copy west).next g ≠ some (u.number g.std)) (hlast : (g.copy west).last ≠ none)
    (hclear : unitClear u g.std = true) (hrun : (if g.std then 4 else 3) ≤ (g.copy west).oddRun) : (unitUp k west g u d).2 = none
    ∧ ∃ h, (unitUp k west g u d).1.group k = some h ∧ (h.copy west).st = .aligning := by
  obtain ⟨l, hl⟩ := Option.ne_none_iff_exists'.mp hlast
  obtain ⟨n, hn⟩ : ∃ n, (g.copy west).next g = some n := ⟨_, by unfold MCopy.next; rw [hl]; rfl⟩
  have hodd : u.number g.std ≠ n := fun h => hnext (h ▸ hn)
  have hlong : (if g.std then 5 else 4) ≤ (g.copy west).oddRun + 1 := by split at hrun <;> simp_all
  unfold unitUp
  simp only [hn, Option.getD_some, hclear, hodd, ne_eq, not_false_eq_true, decide_true, Bool.and_self, if_true, hlong]
  exact ⟨trivial, Dev.leaves_group (Dev.countedIf_group hg west _ ..) .aligning⟩

/-- A copy as a unit in time leaves it. -/
def MCopy.inTime (num : Nat) (c : MCopy) : MCopy := { c with last := some num, oddRun := 0, lateRun := 0 }

omit hg in
theorem unitUp_inTime (hnext : (g.copy west).next g = some (u.number g.std)) (hlate : g.late (u.number g.std) = false) :
    unitUp k west g u d = (d.updCopy k west (MCopy.inTime (u.number g.std)), some (u.number g.std)) := by
  have hodd : ¬(if g.std then 5 else 4) ≤ 0 := by split <;> decide
  unfold unitUp
  simp only [hnext, Option.getD_some, ne_eq, not_true_eq_false, decide_false, Bool.and_false, Bool.false_eq_true, if_false, ite_self,
    hlate, hodd]
  rfl

theorem unitSkew_joins (hclear : unitClear u g.std = true) (hlate : g.late (u.number g.std) = false)
    (hrun : 7 ≤ (g.copy west).earlyRun) : (unitSkew k west g u d).2 = some (u.number g.std)
    ∧ ∃ h, (unitSkew k west g u d).1.group k = some h ∧ g.Joined d.now west (u.number g.std) h := by
  unfold unitSkew
  simp only [hclear, hlate, Bool.false_eq_true, if_false, if_true]
  rw [if_pos (by omega)]
  exact ⟨rfl, Dev.joins_group (Dev.updCopy_group hg west _) rfl _⟩

end

end Sys2Proof.Machine
end

section
/-! PROOF of O32, second part: MERGE_COPY_SF and MERGE_UNIT_ARRIVAL (R229–R231). -/

namespace Sys2Proof.Machine

open Claim

/-! ### The parts of an arrival -/

/-- In standard mode a unit brings the verdict on the frame two before. -/
def Dev.judge (d : Dev) (k : Nat) (west std : Bool) (nBip : Nat) (mem : List Host.Cell) : Dev × List Host.Cell :=
  if std then d.stageVerdict k west nBip mem else (d, mem)

/-- A unit is stored at its position; without one it goes to staging. -/
def Dev.placeUnit (d : Dev) (k : Nat) (west : Bool) (g : MGroup) (u : MUnit) (pos : Option Nat) (mem : List Host.Cell) :
    Dev × List Host.Cell :=
  match pos with
  | some p => d.storeUnit k west p u mem
  | none => (d.pushStage k west g.std { pos := g.modulus, defect := true }, mem)

/-- A group whose reference has delivered a unit. -/
def MGroup.counted (g : MGroup) : MGroup := if g.playing then { g with behind := g.behind + 1 } else g

theorem MGroup.counted_course (g : MGroup) : g.counted.course = g.course := by
  unfold MGroup.counted
  split <;> rfl

theorem MGroup.counted_slots (g : MGroup) : g.counted.slots = g.slots := by
  unfold MGroup.counted
  split <;> rfl

/-- A group as the unit of a copy is counted. -/
def MGroup.countedFor (g : MGroup) (west : Bool) (x : MGroup) : MGroup := if g.ref = west then x.counted else x

/-- A unit of the reference is counted. -/
def Dev.countUnit (d : Dev) (k : Nat) (g : MGroup) (west : Bool) : Dev :=
  if g.ref = west then d.updGroup k MGroup.counted else d

theorem Dev.countUnit_group {d : Dev} {k : Nat} {x : MGroup} (hx : d.group k = some x) (g : MGroup) (west : Bool) :
    (d.countUnit k g west).group k = some (g.countedFor west x) := by
  unfold Dev.countUnit MGroup.countedFor
  split
  · exact Dev.updGroup_some hx _
  · exact hx

theorem copyArrival_eq {d : Dev} {k : Nat} {g : MGroup} (hg : d.group k = some g) (hm : g.merge = true) (west : Bool) (u : MUnit)
    (mem : List Host.Cell) : copyArrival k west u d mem =
    let x := d.judge k west g.std u.nBip mem
    let y := unitState k west ((x.1.group k).getD g) u x.1
    let z := (y.1.countUnit k g west).placeUnit k west g u y.2 x.2
    (if g.std then z.1 else z.1.insertFeed (z.1.takesOdu (if west then g.west else g.east)) u.bytes u.bad, z.2) := by
  unfold copyArrival
  rw [hg]
  dsimp only
  rw [hm, if_neg (by decide)]
  rw [show (if g.std then d.stageVerdict k west u.nBip mem else (d, mem)) = d.judge k west g.std u.nBip mem from rfl]
  generalize d.judge k west g.std u.nBip mem = x
  generalize unitState k west ((x.1.group k).getD g) u x.1 = y
  obtain ⟨e, pos⟩ := y
  cases pos <;> rfl

/-- The end of an arrival: the unit is counted and placed; the insert stages that take it leave the group and every register. -/
theorem copyArrival_ends {d : Dev} {k : Nat} {g G H : MGroup} (hg : d.group k = some g) (hm : g.merge = true) {west : Bool} {u : MUnit}
    {mem : List Host.Cell} {pos : Option Nat} (hG : (d.judge k west g.std u.nBip mem).1.group k = some G)
    (hpos : (unitState k west G u (d.judge k west g.std u.nBip mem).1).2 = pos)
    (hH : (unitState k west G u (d.judge k west g.std u.nBip mem).1).1.group k = some H) :
    ∃ (e : Dev) (m : List Host.Cell), e.group k = some (g.countedFor west H)
      ∧ ((copyArrival k west u d mem).1.group k).map MGroup.unnumbered = ((e.placeUnit k west g u pos m).1.group k).map MGroup.unnumbered
      ∧ ∀ a, (copyArrival k west u d mem).1.reg a = (e.placeUnit k west g u pos m).1.reg a := by
  rw [copyArrival_eq hg hm]
  dsimp only
  rw [hG, Option.getD_some, hpos]
  refine ⟨_, (d.judge k west g.std u.nBip mem).2, Dev.countUnit_group hH g west, ?_, fun a => ?_⟩
  · split
    · rfl
    · exact Dev.insertFeed_keeps ..
  · split
    · rfl
    · exact Dev.reg_of_mask (Dev.insertFeed_mask (T := [.groups, .host]) (by decide) ..) (by decide) a

theorem Dev.judge_group {d : Dev} {k : Nat} {g : MGroup} (hg : d.group k = some g) (west : Bool) (nBip : Nat)
    (mem : List Host.Cell) : ∃ stage slots, (d.judge k west g.std nBip mem).1.group k = some (g.restaged west stage slots)
      ∧ (g.std = true → g.Judged west nBip slots) ∧ (g.std = false → slots = g.slots) := by
  unfold Dev.judge
  split
  · rename_i hstd
    obtain ⟨stage, slots, hd, hj⟩ := Dev.stageVerdict_group hg west nBip mem
    exact ⟨stage, slots, hd, fun _ => hj, fun h => absurd hstd (ne_true_of_eq_false h)⟩
  · rename_i hstd
    refine ⟨(g.copy west).stage, g.slots, ?_, fun h => absurd h hstd, fun _ => rfl⟩
    rw [MGroup.restaged_self]
    exact hg

theorem Dev.judge_now (d : Dev) (k : Nat) (west std : Bool) (nBip : Nat) (mem : List Host.Cell) :
    (d.judge k west std nBip mem).1.now = d.now := by
  unfold Dev.judge
  split
  · exact Dev.now_of_mask (Dev.stageVerdict_mask (T := [.groups]) (by decide) ..) (by decide)
  · rfl

theorem MGroup.countedFor_course (g : MGroup) (west : Bool) (x : MGroup) : (g.countedFor west x).course = x.course := by
  unfold MGroup.countedFor
  split
  · exact x.counted_course
  · rfl

theorem MGroup.countedFor_slots (g : MGroup) (west : Bool) (x : MGroup) : (g.countedFor west x).slots = x.slots := by
  unfold MGroup.countedFor
  split
  · exact x.counted_slots
  · rfl

section
variable {d : Dev} {k : Nat} {g G H : MGroup} (hg : d.group k = some g) (hm : g.merge = true) {west : Bool} {u : MUnit}
  {mem : List Host.Cell} (hG : (d.judge k west g.std u.nBip mem).1.group k = some G)
  (hH : (unitState k west G u (d.judge k west g.std u.nBip mem).1).1.group k = some H)
include hg hm hG hH

/-- An arrival leaves the course of the group as the state of its copy has made it. -/
theorem copyArrival_course : ∃ h, (copyArrival k west u d mem).1.group k = some h ∧ h.course = H.course := by
  obtain ⟨e, m, he, hgroup, -⟩ := copyArrival_ends hg hm hG rfl hH
  have hplace : ∃ h, (e.placeUnit k west g u (unitState k west G u (d.judge k west g.std u.nBip mem).1).2 m).1.group k = some h
      ∧ h.course = (g.countedFor west H).course := by
    unfold Dev.placeUnit
    split
    · obtain ⟨h, hh, hst⟩ := Dev.storeUnit_stored he west _ u m
      exact ⟨h, hh, hst.course⟩
    · exact ⟨_, Dev.pushStage_group he west g.std _, MGroup.push_course ..⟩
  obtain ⟨h, hh, hc⟩ := hplace
  obtain ⟨h', hh', hu⟩ := Dev.group_kept hgroup hh
  exact ⟨h', hh', (congrArg MGroup.course hu :).trans (hc.trans (g.countedFor_course west H))⟩

/-- A unit that is not stored leaves the slots. -/
theorem copyArrival_unstored (hpos : (unitState k west G u (d.judge k west g.std u.nBip mem).1).2 = none) :
    ∃ h, (copyArrival k west u d mem).1.group k = some h ∧ h.course = H.course ∧ h.slots = H.slots := by
  obtain ⟨e, m, he, hgroup, -⟩ := copyArrival_ends hg hm hG hpos hH
  obtain ⟨h, hh, hu⟩ := Dev.group_kept hgroup (Dev.pushStage_group he west g.std _)
  refine ⟨h, hh, (congrArg MGroup.course hu :).trans ((MGroup.push_course ..).trans (g.countedFor_course west H)), ?_⟩
  exact (congrArg MGroup.slots hu :).trans ((MGroup.push_slots ..).trans (g.countedFor_slots west H))

end

/-! ### The copy's states -/

section
variable {d : Dev} {k : Nat} {g : MGroup} (hg : d.group k = some g) (hm : g.merge = true) (west : Bool) (u : MUnit)
  (mem : List Host.Cell)
include hg hm

theorem arrival_down (hst : (g.copy west).st = .down) (hstage : ∀ e ∈ (g.copy west).stage, (tget {} g.slots e.pos).full = false) :
    ∃ h, (copyArrival k west u d mem).1.group k = some h ∧ (h.copy west).st = .down ∧ h.slots = g.slots ∧ h.playing = g.playing
      ∧ h.nextUnit = g.nextUnit := by
  obtain ⟨stage, slots, hG, hstd, hnat⟩ := Dev.judge_group hg west u.nBip mem
  have hslots : slots = g.slots := by
    cases h : g.std with
    | true => exact (hstd h).nothing hstage
    | false => exact hnat h
  have hcopy : ((g.restaged west stage slots).copy west).st = .down := by rw [MGroup.restaged_copy]; exact hst
  have hstate : ∀ e : Dev, unitState k west (g.restaged west stage slots) u e = (e, none) := fun e => by
    unfold unitState
    rw [hcopy]
  obtain ⟨h, hh, hcourse, hs⟩ := copyArrival_unstored hg hm hG (by rw [hstate]; exact hG) (by rw [hstate])
  obtain ⟨-, -, hplaying, hnextUnit, -⟩ := g.restaged_rest west stage slots
  exact ⟨h, hh, (MGroup.course_st hcourse west).trans hcopy, hs.trans ((MGroup.restaged_slots ..).trans hslots),
    (congrArg MGroup.playing hcourse :).trans hplaying, (congrArg MGroup.nextUnit hcourse :).trans hnextUnit⟩

theorem arrival_aligning (hst : (g.copy west).st = .aligning) (hclear : unitClear u g.std = true)
    (hnext : (g.copy west).next g = some (u.number g.std)) (hrun : 1 ≤ (g.copy west).goodRun) :
    ∃ h, (copyArrival k west u d mem).1.group k = some h ∧ (g.late (u.number g.std) = true → (h.copy west).st = .skew)
      ∧ (g.late (u.number g.std) = false → g.Joined d.now west (u.number g.std) h) := by
  obtain ⟨stage, slots, hG, -, -⟩ := Dev.judge_group hg west u.nBip mem
  obtain ⟨hstd, -, hplaying, -, hskew⟩ := g.restaged_rest west stage slots
  have hcopy := g.restaged_copy west stage slots
  have hstate : ∀ e : Dev, unitState k west (g.restaged west stage slots) u e = unitAligning k west (g.restaged west stage slots) u e :=
    fun e => by
      unfold unitState
      rw [hcopy, hst]
  have hclear' : unitClear u (g.restaged west stage slots).std = true := by rw [hstd]; exact hclear
  have hnext' : ((g.restaged west stage slots).copy west).next (g.restaged west stage slots)
      = some (u.number (g.restaged west stage slots).std) := by rw [hcopy, MGroup.restaged_next, hstd]; exact hnext
  have hrun' : 1 ≤ ((g.restaged west stage slots).copy west).goodRun := by rw [hcopy]; exact hrun
  by_cases hlate : g.late (u.number g.std) = true
  · obtain ⟨-, H, hH, hskewed⟩ := unitAligning_late hG west u hclear' hnext' hrun' (by rw [hstd, MGroup.restaged_late]; exact hlate)
    obtain ⟨h, hh, hc⟩ := copyArrival_course hg hm hG (by rw [hstate]; exact hH)
    exact ⟨h, hh, fun _ => (MGroup.course_st hc west).trans hskewed, fun hf => absurd hlate (ne_true_of_eq_false hf)⟩
  · rw [Bool.not_eq_true] at hlate
    obtain ⟨-, H, hH, hj⟩ := unitAligning_joins hG west u hclear' hnext' hrun' (by rw [hstd, MGroup.restaged_late]; exact hlate)
    obtain ⟨h, hh, hc⟩ := copyArrival_course hg hm hG (by rw [hstate]; exact hH)
    refine ⟨h, hh, fun ht => absurd ht (ne_true_of_eq_false hlate), fun _ => ⟨(MGroup.course_st hc west).trans hj.st,
      (congrArg MGroup.playing hc :).trans hj.playing, fun hp => ?_⟩⟩
    obtain ⟨href, hunit, hat, hais⟩ := hj.first (hplaying.trans hp)
    rw [Dev.judge_now, hskew] at hat
    rw [hstd] at hunit
    exact ⟨(congrArg MGroup.ref hc :).trans href, (congrArg MGroup.nextUnit hc :).trans hunit,
      (congrArg MGroup.nextAt hc :).trans hat, (congrArg MGroup.outAis hc :).trans hais⟩

/-- What a unit makes of a copy that is UP, it makes of the group as the verdict leaves it. -/
theorem arrival_up (hst : (g.copy west).st = .up) {st : CopySt}
    (hstate : ∀ (e : Dev) (G : MGroup), e.group k = some G → G.std = g.std → (∀ p, G.late p = g.late p) →
      (G.copy west).next G = (g.copy west).next g → (G.copy west).lateRun = (g.copy west).lateRun →
      (G.copy west).oddRun = (g.copy west).oddRun → (G.copy west).last = (g.copy west).last →
      ∃ H, (unitUp k west G u e).1.group k = some H ∧ (H.copy west).st = st) :
    ∃ h, (copyArrival k west u d mem).1.group k = some h ∧ (h.copy west).st = st := by
  obtain ⟨stage, slots, hG, -, -⟩ := Dev.judge_group hg west u.nBip mem
  obtain ⟨hstd, -, -, -, -⟩ := g.restaged_rest west stage slots
  have hcopy := g.restaged_copy west stage slots
  have hup : ∀ e : Dev, unitState k west (g.restaged west stage slots) u e = unitUp k west (g.restaged west stage slots) u e := fun e => by
    unfold unitState
    rw [hcopy, hst]
  obtain ⟨H, hH, hHst⟩ := hstate _ _ hG hstd (g.restaged_late west stage slots)
    (by rw [hcopy, MGroup.restaged_next]; rfl) (by rw [hcopy]) (by rw [hcopy]) (by rw [hcopy])
  obtain ⟨h, hh, hc⟩ := copyArrival_course hg hm hG (by rw [hup]; exact hH)
  exact ⟨h, hh, (MGroup.course_st hc west).trans hHst⟩

theorem arrival_overdue (hst : (g.copy west).st = .up) (hnext : (g.copy west).next g = some (u.number g.std))
    (hlate : g.late (u.number g.std) = true) (hrun : 7 ≤ (g.copy west).lateRun) :
    ∃ h, (copyArrival k west u d mem).1.group k = some h ∧ (h.copy west).st = .skew :=
  arrival_up hg hm west u mem hst fun e G hG hstd hl hn hr _ _ =>
    (unitUp_overdue hG west u (by rw [hn, hstd]; exact hnext) (by rw [hl, hstd]; exact hlate) (by rw [hr]; exact hrun)).2

theorem arrival_strays (hst : (g.copy west).st = .up) (hnext : (g.copy west).next g ≠ some (u.number g.std))
    (hlast : (g.copy west).last ≠ none) (hclear : unitClear u g.std = true)
    (hrun : (if g.std then 4 else 3) ≤ (g.copy west).oddRun) :
    ∃ h, (copyArrival k west u d mem).1.group k = some h ∧ (h.copy west).st = .aligning :=
  arrival_up hg hm west u mem hst fun e G hG hstd _ hn _ ho hl =>
    (unitUp_strays hG west u (by rw [hn, hstd]; exact hnext) (by rw [hl]; exact hlast) (by rw [hstd]; exact hclear)
      (by rw [hstd, ho]; exact hrun)).2

theorem arrival_returns (hst : (g.copy west).st = .skew) (hclear : unitClear u g.std = true)
    (hlate : g.late (u.number g.std) = false) (hrun : 7 ≤ (g.copy west).earlyRun) :
    ∃ h, (copyArrival k west u d mem).1.group k = some h ∧ (h.copy west).st = .up := by
  obtain ⟨stage, slots, hG, -, -⟩ := Dev.judge_group hg west u.nBip mem
  obtain ⟨hstd, -, -, -, -⟩ := g.restaged_rest west stage slots
  have hcopy := g.restaged_copy west stage slots
  have hskew : ∀ e : Dev, unitState k west (g.restaged west stage slots) u e = unitSkew k west (g.restaged west stage slots) u e :=
    fun e => by
      unfold unitState
      rw [hcopy, hst]
  obtain ⟨-, H, hH, hj⟩ := unitSkew_joins hG west u (by rw [hstd]; exact hclear) (by rw [hstd, MGroup.restaged_late]; exact hlate)
    (by rw [hcopy]; exact hrun)
  obtain ⟨h, hh, hc⟩ := copyArrival_course hg hm hG (by rw [hskew]; exact hH)
  exact ⟨h, hh, (MGroup.course_st hc west).trans hj.st⟩

end

/-! ### The slot of a unit in time (R231) -/

/-- A group as it is when a unit in time comes to be stored: the copy is UP, and the verdict has been taken on the slots. -/
structure MGroup.Ready (g : MGroup) (west : Bool) (nBip : Nat) (x : MGroup) : Prop where
  st : (x.copy west).st = .up
  std : x.std = g.std
  prefer : x.prefer = g.prefer
  judged : g.std = true → g.Judged west nBip x.slots
  native : g.std = false → x.slots = g.slots

section
variable {d : Dev} {k : Nat} {g : MGroup} (hg : d.group k = some g) (hm : g.merge = true) (west : Bool) (u : MUnit)
  (mem : List Host.Cell)
include hg hm

theorem arrival_inTime (hst : (g.copy west).st = .up) (hnext : (g.copy west).next g = some (u.number g.std))
    (hlate : g.late (u.number g.std) = false) : ∃ (e : Dev) (m : List Host.Cell) (x : MGroup), e.group k = some x
      ∧ g.Ready west u.nBip x
      ∧ ((copyArrival k west u d mem).1.group k).map MGroup.unnumbered
        = ((e.storeUnit k west (u.number g.std) u m).1.group k).map MGroup.unnumbered
      ∧ ∀ a, (copyArrival k west u d mem).1.reg a = (e.storeUnit k west (u.number g.std) u m).1.reg a := by
  obtain ⟨stage, slots, hG, hjudged, hnative⟩ := Dev.judge_group hg west u.nBip mem
  obtain ⟨hstd, hprefer, -, -, -⟩ := g.restaged_rest west stage slots
  have hcopy := g.restaged_copy west stage slots
  have hup : ∀ e : Dev, unitState k west (g.restaged west stage slots) u e
      = (e.updCopy k west (MCopy.inTime (u.number g.std)), some (u.number g.std)) := fun e => by
    unfold unitState
    rw [hcopy, hst, ← hstd]
    exact unitUp_inTime west u (by rw [hcopy, MGroup.restaged_next, hstd]; exact hnext)
      (by rw [hstd, MGroup.restaged_late]; exact hlate)
  obtain ⟨e, m, he, hgroup, hreg⟩ := copyArrival_ends hg hm hG (by rw [hup]) (by rw [hup]; exact Dev.updCopy_group hG west _)
  refine ⟨e, m, _, he, ?_, hgroup, hreg⟩
  have hcourse := (g.countedFor_course west _).trans
    ((g.restaged west stage slots).setCopy_course west (c := MCopy.inTime (u.number g.std) ((g.restaged west stage slots).copy west)) rfl)
  have hslots := (g.countedFor_slots west _).trans (((g.restaged west stage slots).setCopy_slots west
    (MCopy.inTime (u.number g.std) ((g.restaged west stage slots).copy west))).trans (g.restaged_slots west stage slots))
  exact {
    st := (MGroup.course_st hcourse west).trans (by rw [hcopy]; exact hst)
    std := (congrArg MGroup.std hcourse :).trans hstd
    prefer := (congrArg MGroup.prefer hcourse :).trans hprefer
    judged := fun h => by rw [hslots]; exact hjudged h
    native := fun h => hslots.trans (hnative h) }

end

end Sys2Proof.Machine
end

section
/-! PROOF of O32, second part, continued: the slot of a unit in time (R231), and the statement. -/

namespace Sys2Proof.Machine

/-- What an arrival leaves, where the unit is stored: what the store leaves but for the numbers of inserted blocks. -/
theorem MGroup.unnumbered_eq {g h : MGroup} (hu : h.unnumbered = g.unnumbered) : h.slots = g.slots ∧ h.course = g.course
    ∧ ∀ west, h.copy west = g.copy west :=
  ⟨(congrArg MGroup.slots hu :), (congrArg MGroup.course hu :), fun west => (congrArg (fun x : MGroup => x.copy west) hu :)⟩

theorem MGroup.filled_staged (g : MGroup) (pos n : Nat) (bs : List Byte) (bad : List Nat) (h : (g.filled pos n bs bad).place = none) :
    (g.filled pos n bs bad).bytes = bs ∧ (g.filled pos n bs bad).bad = bad := by
  unfold MGroup.filled at h ⊢
  dsimp only at h ⊢
  rw [h]
  exact ⟨rfl, rfl⟩

section
variable {d : Dev} {k : Nat} {g : MGroup} (hg : d.group k = some g) (hm : g.merge = true) (west : Bool) (u : MUnit)
  (mem : List Host.Cell) (hst : (g.copy west).st = .up) (hnext : (g.copy west).next g = some (u.number g.std))
  (hlate : g.late (u.number g.std) = false)
include hg hm hst hnext hlate

/-- What is so of the group as the store leaves it is so of it as the arrival does. -/
theorem arrival_stored {P : MGroup → Prop} (hP : ∀ h h' : MGroup, h'.unnumbered = h.unnumbered → P h → P h')
    (hstore : ∀ (e : Dev) (m : List Host.Cell) (x : MGroup), e.group k = some x → g.Ready west u.nBip x →
      ∃ h, (e.storeUnit k west (u.number g.std) u m).1.group k = some h ∧ P h) :
    ∃ h, (copyArrival k west u d mem).1.group k = some h ∧ P h := by
  obtain ⟨e, m, x, he, hready, hgroup, -⟩ := arrival_inTime hg hm west u mem hst hnext hlate
  obtain ⟨h, hh, hPh⟩ := hstore e m x he hready
  obtain ⟨h', hh', hu⟩ := Dev.group_kept hgroup hh
  exact ⟨h', hh', hP h h' hu hPh⟩

theorem arrival_staysUp : ∃ h, (copyArrival k west u d mem).1.group k = some h ∧ (h.copy west).st = .up :=
  arrival_stored hg hm west u mem hst hnext hlate
    (fun h h' hu hP => by rw [(MGroup.unnumbered_eq hu).2.2]; exact hP) fun e m x he hready => by
      obtain ⟨h, hh, hs⟩ := Dev.storeUnit_stored he west (u.number g.std) u m
      exact ⟨h, hh, (MGroup.course_st hs.course west).trans hready.st⟩

theorem arrival_fills (hx : (tget {} g.slots (u.number g.std)).full = false) :
    ∃ h, (copyArrival k west u d mem).1.group k = some h ∧
      let y := tget {} h.slots (u.number g.std)
      y.full = true ∧ y.len = u.bytes.length ∧ y.west = west ∧ y.good = u.good g.std
        ∧ (y.place = none → y.bytes = u.bytes ∧ y.bad = u.bad) :=
  arrival_stored hg hm west u mem hst hnext hlate
    (fun h h' hu hP => by rw [(MGroup.unnumbered_eq hu).1]; exact hP) fun e m x he hready => by
      have hsame : tget {} x.slots (u.number g.std) = tget {} g.slots (u.number g.std) := by
        cases hstd : g.std with
        | true => exact (hready.judged hstd).empty _ (hstd ▸ hx)
        | false => rw [hready.native hstd]
      obtain ⟨h, hh, -, hslot⟩ := Dev.storeUnit_fills he west u m (pos := u.number g.std) (by rw [hsame]; exact hx)
      refine ⟨h, hh, ?_⟩
      rw [hslot, hready.std]
      exact ⟨rfl, rfl, rfl, rfl, x.filled_staged _ _ _ _⟩

section
variable (hx : (tget {} g.slots (u.number g.std)).full = true) (hw : (tget {} g.slots (u.number g.std)).west ≠ west)
include hx hw

theorem arrival_native (hstd : g.std = false) : ∃ h, (copyArrival k west u d mem).1.group k = some h ∧
    let x := tget {} g.slots (u.number g.std)
    let y := tget {} h.slots (u.number g.std)
    if x.good = false ∧ (u.good g.std = true ∨ west = g.prefer) then
      y.len = u.bytes.length ∧ y.west = west ∧ y.good = u.good g.std
    else y.len = x.len ∧ y.west = x.west ∧ y.good = x.good :=
  arrival_stored hg hm west u mem hst hnext hlate
    (fun h h' hu hP => by rw [(MGroup.unnumbered_eq hu).1]; exact hP) fun e m x he hready => by
      have hslots := hready.native hstd
      have hx' : (tget {} x.slots (u.number g.std)).full = true := by rw [hslots]; exact hx
      have hw' : (tget {} x.slots (u.number g.std)).west ≠ west := by rw [hslots]; exact hw
      have hstd' : x.std = false := hready.std.trans hstd
      have hrep : x.replaces (tget {} x.slots (u.number g.std)) west (u.good false) = true
          ↔ (tget {} g.slots (u.number g.std)).good = false ∧ (u.good g.std = true ∨ west = g.prefer) := by
        rw [MGroup.replaces_iff, hslots, hready.prefer, hstd]
      by_cases hr : x.replaces (tget {} x.slots (u.number g.std)) west (u.good false) = true
      · obtain ⟨h, hh, -, hslot⟩ := Dev.storeUnit_renews he west u m hx' hw' hstd' hr
        refine ⟨h, hh, ?_⟩
        rw [hslot]
        dsimp only
        rw [if_pos (hrep.mp hr), hstd]
        exact ⟨rfl, rfl, rfl⟩
      · obtain ⟨h, hh, -, hslot⟩ := Dev.storeUnit_leaves he west u m hx' hw' hstd' (Bool.eq_false_iff.mpr hr)
        refine ⟨h, hh, ?_⟩
        rw [hslot, hslots]
        dsimp only
        rw [if_neg fun hc => hr (hrep.mpr hc)]
        exact ⟨rfl, rfl, rfl⟩

theorem arrival_reports (hstd : g.std = false) (hgood : (tget {} g.slots (u.number g.std)).good = true)
    (hu : u.good g.std = true) (hcrc : (tget {} g.slots (u.number g.std)).crc ≠ crcField u.bytes) :
    bit ((copyArrival k west u d mem).1.reg (aMg k 4)) 5 = true := by
  obtain ⟨e, m, x, he, hready, -, hreg⟩ := arrival_inTime hg hm west u mem hst hnext hlate
  rw [hreg]
  rw [← hready.native hstd] at hx hw hgood hcrc
  exact Dev.storeUnit_reports he west u m hx hw (hready.std.trans hstd) hgood (by rw [← hstd]; exact hu) hcrc

theorem arrival_waits (hstd : g.std = true) (hstage : ∀ e ∈ (g.copy west).stage, e.pos ≠ u.number g.std) :
    ∃ h, (copyArrival k west u d mem).1.group k = some h ∧
      let x := tget {} g.slots (u.number g.std)
      let y := tget {} h.slots (u.number g.std)
      y.len = x.len ∧ y.west = x.west ∧ y.good = x.good ∧ (h.copy west).stage.head?.map MStage.bytes = some u.bytes :=
  arrival_stored hg hm west u mem hst hnext hlate
    (fun h h' hu hP => by rw [(MGroup.unnumbered_eq hu).1, (MGroup.unnumbered_eq hu).2.2]; exact hP) fun e m x he hready => by
      have hsame : tget {} x.slots (u.number g.std) = tget {} g.slots (u.number g.std) := (hready.judged hstd).other _ hstage
      obtain ⟨h, hh, -, hslot, hhead⟩ := Dev.storeUnit_stages he west u m (by rw [hsame]; exact hx) (by rw [hsame]; exact hw)
        (hready.std.trans hstd)
      refine ⟨h, hh, ?_⟩
      rw [hslot, hsame]
      exact ⟨rfl, rfl, rfl, hhead⟩

end

/-- The verdict that a frame in time brings shows in the slot of the frame two before, which is another. -/
theorem arrival_judges (hstd : g.std = true) {a e : MStage} {more : List MStage} (hs : (g.copy west).stage = a :: e :: more)
    (hne : e.pos ≠ u.number g.std) (hv : (tget {} g.slots e.pos).full = true) :
    ∃ h, (copyArrival k west u d mem).1.group k = some h ∧
      let v := tget {} g.slots e.pos
      let z := tget {} h.slots e.pos
      let ok := !e.defect && decide (u.nBip = 0)
      (v.west = west → z.good = ok ∧ z.west = west)
      ∧ (v.west ≠ west → e.bytes ≠ [] →
        if v.good = false ∧ (ok = true ∨ west = g.prefer) then z.len = e.bytes.length ∧ z.west = west ∧ z.good = ok
        else z.len = v.len ∧ z.west = v.west ∧ z.good = v.good) :=
  arrival_stored hg hm west u mem hst hnext hlate
    (fun h h' hu hP => by rw [(MGroup.unnumbered_eq hu).1]; exact hP) fun f m x hf hready => by
      obtain ⟨h, hh, hstored⟩ := Dev.storeUnit_stored hf west (u.number g.std) u m
      refine ⟨h, hh, ?_⟩
      dsimp only
      rw [hstored.elsewhere _ hne]
      exact ⟨(hready.judged hstd).own a e more hs hv, (hready.judged hstd).waiting a e more hs hv⟩

end

end Sys2Proof.Machine

namespace Sys2Proof.Claim

open Machine

theorem mergeCopiesAlignAndStore : MergeCopiesAlignAndStore := by
  intro s k west g hl hg hm
  have harrives : ∀ {u : MUnit} {P : State → Prop}, u.odu = none →
      P { s with dev := (copyArrival k.val west u s.dev s.mem).1, mem := (copyArrival k.val west u s.dev s.mem).2 } →
      Answers (.mergeUnitArrival k west u) s P := fun {u P} hu hP => by
    refine answers_onMem rfl hl ?_
    have harr : unitArrival k.val west u s.dev s.mem = copyArrival k.val west u s.dev s.mem := by
      unfold unitArrival
      rw [hu]
    rw [harr]
    exact hP
  refine ⟨answers_onDev rfl hl (mergeCopySf_group hg hm west), fun u o hu hno => ?native, fun u hu => ⟨fun hst hstage => ?down,
    fun hst hclear hnext hrun => ?aligning, fun hst hnext hlate hrun => ?overdue, fun hst hnext hlast hclear hrun => ?strays,
    fun hst hclear hlate hrun => ?returns, fun hst hnext hlate => ?inTime⟩⟩
  case native =>
    have hnone : s.dev.nativeArrival o.val u = s.dev := by
      refine if_neg fun h => ?_
      simp only [Bool.and_eq_true, Bool.not_eq_true'] at h
      obtain ⟨⟨hleaf, -⟩, hcopy⟩ := h
      obtain hno | hno := hno
      · exact Bool.false_ne_true (hcopy.symm.trans hno)
      · exact Bool.false_ne_true (hno.symm.trans hleaf)
    have harr : unitArrival k.val west u s.dev s.mem = (s.dev, s.mem) := by
      unfold unitArrival
      rw [hu]
      exact congrArg (fun d => (d, s.mem)) hnone
    refine (onMem_eq ..).trans ?_
    rw [liveMem, if_pos hl, harr]
  case down => exact harrives hu (arrival_down hg hm west u s.mem hst hstage)
  case aligning =>
    obtain ⟨h, hh, hlate, hjoins⟩ := arrival_aligning hg hm west u s.mem hst hclear hnext hrun
    refine harrives hu ⟨h, hh, hlate, fun hf => ⟨(hjoins hf).st, (hjoins hf).playing⟩, fun hp => (hjoins ?_).first hp⟩
    unfold MGroup.late
    rw [hp]
    rfl
  case overdue => exact harrives hu (arrival_overdue hg hm west u s.mem hst hnext hlate hrun)
  case strays => exact harrives hu (arrival_strays hg hm west u s.mem hst hnext hlast hclear hrun)
  case returns => exact harrives hu (arrival_returns hg hm west u s.mem hst hclear hlate hrun)
  case inTime =>
    obtain ⟨h, hh, hup⟩ := arrival_staysUp hg hm west u s.mem hst hnext hlate
    have hthe : ∀ {P : MGroup → Prop}, (∃ h', (copyArrival k.val west u s.dev s.mem).1.group k.val = some h' ∧ P h') → P h :=
      fun ⟨h', hh', hP⟩ => Option.some.inj (hh'.symm.trans hh) ▸ hP
    refine harrives hu ⟨h, hh, hup, fun hx => ?_, fun hx hw hstd => ⟨?_, fun hgood hu' hcrc => ?_⟩, fun hx hw hstd hstage => ?_,
      fun a e more hstd hs hne hv => ?_⟩
    · exact hthe (arrival_fills hg hm west u s.mem hst hnext hlate hx)
    · exact hthe (arrival_native hg hm west u s.mem hst hnext hlate hx hw hstd)
    · exact arrival_reports hg hm west u s.mem hst hnext hlate hx hw hstd hgood hu' hcrc
    · exact hthe (arrival_waits hg hm west u s.mem hst hnext hlate hx hw hstd hstage)
    · exact hthe (arrival_judges hg hm west u s.mem hst hnext hlate hstd hs hne hv)

end Sys2Proof.Claim
end

section
/-! SUPPORT. Reads of the merge store and the registers of merge groups: whatever a read of a bank finds, it leaves the registers of
every group as they were (R38, R244, R454). -/

namespace Sys2Proof.Machine

/-- The registers of merge groups (R244). -/
def mergeReg (a : Nat) : Prop := 0x810000 ≤ a ∧ a < 0x818000

theorem mergeReg.offHq {a : Nat} (h : mergeReg a) : Machine.offHq a := by unfold mergeReg at h; unfold Machine.offHq; omega

theorem aMg_mergeReg {k off : Nat} (hk : k < 1024) (ho : off < 0x20) : mergeReg (aMg k off) := by
  unfold mergeReg aMg; omega

/-! ### The window of a bank (R447, R466) -/

theorem bank_family {i : Nat} (hi : i < 64) : srcFamily (srcOf 11 i) = 11 := by unfold srcFamily srcOf; omega

theorem bank_window {i : Nat} (hi : i < 64) : fwBase (srcOf 11 i) = 0x860000 + 0x40 * i := by
  have hinst : srcInst (srcOf 11 i) = i := by unfold srcInst srcOf; omega
  unfold fwBase
  dsimp only
  rw [bank_family hi, hinst]
  rfl

theorem bank_ofWindow {i : Nat} (hi : i < 64) : fwSource (0x860000 + 0x40 * i) = srcOf 11 i := by
  unfold fwSource
  rw [if_neg (by omega), if_neg (by omega), if_neg (by omega), if_neg (by omega), if_pos (by omega)]
  congr 1
  omega

section
variable {a i : Nat} (h : mergeReg a) (hi : i < 64)
include h hi

theorem mergeReg.offWindow (off : Nat) : a ≠ fwBase (srcOf 11 i) + off := by
  rw [bank_window hi]
  unfold mergeReg at h
  omega

/-- The fence of a bank sets the event of the bank's own window. -/
theorem Dev.fenceBank_reg (d : Dev) : (d.fenceUnit (srcOf 11 i)).reg a = d.reg a := by
  have habort : ∀ (b : Bool) (e : Dev), (if b then e.abortResync else e).reg a = e.reg a := fun b e => by
    cases b
    · rfl
    · exact Dev.abortResync_reg e
  unfold Dev.fenceUnit
  rw [bank_family hi]
  split
  · split
    · exact Dev.abortUnfence_reg d
    · rfl
  · refine (habort _ _).trans ((Dev.expose_reg h.offHq _).trans ((Dev.raise_reg_ne h.offHq (h.offWindow hi 0) _ _ _ _).trans rfl))

theorem Dev.countRecBank_reg (d : Dev) {r : FaultRec} (hr : r.source.toNat = srcOf 11 i) :
    (d.countRec (fwBase (srcOf 11 i)) r).reg a = d.reg a := by
  have hnone : fltSrcAddr (srcOf 11 i) = none := by
    unfold fltSrcAddr
    dsimp only
    rw [bank_family hi]
    rfl
  unfold Dev.countRec
  dsimp only
  rw [hr, bank_family hi, hnone, if_neg (by simp)]
  dsimp only
  split
  · exact Dev.count_reg_ne (h.offWindow hi _) ..
  · exact Dev.count_reg_ne (h.offWindow hi _) ..
  · exact Dev.count_reg_ne (h.offWindow hi _) ..

theorem Dev.captureBank_reg (d : Dev) (r : FaultRec) (t : Nat) : (d.captureRec (fwBase (srcOf 11 i)) r t).reg a = d.reg a := by
  unfold Dev.captureRec
  dsimp only
  rw [Dev.setReg_reg_ne _ _ (h.offWindow hi _), Dev.setReg_reg_ne _ _ (h.offWindow hi _), Dev.setReg_reg_ne _ _ (h.offWindow hi _),
    Dev.setReg_reg_ne _ _ (h.offWindow hi _), Dev.setReg_reg_ne _ _ (h.offWindow hi _)]

/-- A record of a bank changes registers of the bank's window alone. -/
theorem Dev.recordBank_reg (d : Dev) {r : FaultRec} (hr : r.source.toNat = srcOf 11 i) :
    (d.recordIn (fwBase (srcOf 11 i)) r []).reg a = d.reg a := by
  have hcapture : ∀ (b : Bool) (e : Dev) (t : Nat), (if b then e.captureRec (fwBase (srcOf 11 i)) r t else e).reg a = e.reg a :=
    fun b e t => by
      cases b
      · rfl
      · exact e.captureBank_reg h hi r t
  have hown : fwSource (fwBase (srcOf 11 i)) = srcOf 11 i := by rw [bank_window hi, bank_ofWindow hi]
  have hlost : ∀ (n : Nat) (e : Dev), (if n = 0 then e else e.count (fwBase (srcOf 11 i) + 0x20) 16 16 n).reg a = e.reg a :=
    fun n e => by
      split
      · rfl
      · exact Dev.count_reg_ne (h.offWindow hi _) ..
  unfold Dev.recordIn
  simp only [hown, bank_family hi, List.foldl_cons, List.foldl_nil]
  split
  · rfl
  · rw [if_neg (by simp)]
    exact (Dev.raiseAll_reg_ne h.offHq (h.offWindow hi 0) _ _).trans
      ((hlost _ _).trans ((hcapture _ _ _).trans (d.countRecBank_reg h hi hr)))

theorem Dev.recordAllBank_reg (d : Dev) {r : FaultRec} (hr : r.source.toNat = srcOf 11 i) : (d.recordAll [r]).reg a = d.reg a := by
  by_cases hp : d.pairBad r = true
  · rw [Dev.recordAll_held hp]
    rfl
  · rw [Dev.recordAll_taken (Bool.eq_false_iff.mpr hp), hr]
    exact d.recordBank_reg h hi hr

theorem Dev.reactBank_reg (d : Dev) {r : FaultRec} (hr : r.source.toNat = srcOf 11 i) : (d.react r).reg a = d.reg a := by
  unfold Dev.react
  dsimp only
  rw [hr, bank_family hi]
  split
  · rfl
  · change (if r.cls.val ≠ 2 then d else if d.plane.unfence.any (fun u => u.unit = srcOf 11 i) then d.abortUnfence
      else d.fenceUnit (srcOf 11 i)).reg a = d.reg a
    split
    · rfl
    · split
      · exact Dev.abortUnfence_reg d
      · exact d.fenceBank_reg h hi

theorem Dev.faultBank_reg (d : Dev) {r : FaultRec} (hr : r.source.toNat = srcOf 11 i) : (d.fault1 r).reg a = d.reg a := by
  by_cases hok : recordOk r = true
  · rw [Dev.fault1_eq hok, Dev.endAborted_reg h.offHq, Dev.reactBank_reg h hi _ hr, Dev.recordAllBank_reg h hi _ hr]
  · unfold Dev.fault1 Dev.faults
    rw [List.filter_cons_of_neg hok]
    exact (Dev.endAborted_reg h.offHq _).trans rfl

theorem Dev.armUseBank_reg (d : Dev) (checker : Nat) : (d.armUse (srcOf 11 i) checker).reg a = d.reg a := by
  have hset : ∀ (b : Bool) (e : Dev) (v : Word), (if b then e.setReg (fwBase (srcOf 11 i) + 0x24) v else e).reg a = e.reg a :=
    fun b e v => by
      cases b
      · rfl
      · exact Dev.setReg_reg_ne _ _ (h.offWindow hi _)
  unfold Dev.armUse
  exact hset ..

end

/-! ### Reads -/

section
variable {a : Nat} (h : mergeReg a)
include h

theorem readStored_bank_reg (d : Dev) (mem : List Host.Cell) (b : Fin 64) (addr : Nat) (master : Byte) (access : Fin 8) :
    (readStored d mem (.merge b) addr master access).d.reg a = d.reg a := by
  have hsource : ∀ r : FaultRec, r.source = BitVec.ofNat 16 (srcOf 11 b.val) → r.source.toNat = srcOf 11 b.val := fun r hr => by
    rw [hr, BitVec.toNat_ofNat]
    unfold srcOf
    omega
  have hfault : ∀ (e : Dev) {r : FaultRec}, r.source = BitVec.ofNat 16 (srcOf 11 b.val) → (e.fault1 r).reg a = e.reg a :=
    fun e r hr => e.faultBank_reg h b.isLt (hsource r hr)
  have harm := d.armUseBank_reg h b.isLt 0
  unfold readStored
  dsimp only [memSource]
  split
  · rfl
  · split
    · split
      · exact harm
      · exact (hfault _ rfl).trans harm
      · exact (hfault _ rfl).trans harm
      · exact (hfault _ rfl).trans harm
      · exact (hfault _ rfl).trans harm
    · split
      · rfl
      · rfl
      · exact hfault _ rfl
      · exact hfault _ rfl
      · exact hfault _ rfl

theorem readBoth_bank_reg (d : Dev) (mem : List Host.Cell) {bank : Fin 2 → MemId} (hb : ∀ pl, ∃ b, bank pl = .merge b) (addr : Nat)
    (slice : Option Nat) : (readBoth d mem bank addr slice).d.reg a = d.reg a := by
  have hslice : ∀ (e : Dev) (m : List Host.Cell) (pl : Fin 2), (readSlice e m bank addr slice pl).d.reg a = e.reg a := fun e m pl => by
    obtain ⟨b, hb⟩ := hb pl
    unfold readSlice readPath
    rw [hb]
    dsimp only
    split
    · rfl
    · exact readStored_bank_reg h ..
  unfold readBoth
  generalize (if d.planeFenced d.plane.preferred.val then 1 - d.plane.preferred else d.plane.preferred) = first
  dsimp only
  split
  · exact hslice ..
  · split
    · exact (hslice ..).trans (hslice ..)
    · exact (hslice ..).trans (hslice ..)

theorem readBytes_bank_reg (d : Dev) (mem : List Host.Cell) {places : List ((Fin 2 → MemId) × Nat)}
    (hb : ∀ x ∈ places, ∀ pl, ∃ b, x.1 pl = .merge b) (slice : Option Nat) :
    (readBytes d mem places slice).d.reg a = d.reg a := by
  have hall : ∀ (xs : List (((Fin 2 → MemId) × Nat) × Nat)), (∀ x ∈ xs, ∀ pl, ∃ b, x.1.1 pl = .merge b) → ∀ t : TakenBytes,
      t.d.reg a = d.reg a → (xs.foldl (fun (t : TakenBytes) x =>
        let r := readBoth t.d t.mem x.1.1 x.1.2 slice
        { d := r.d, mem := r.mem, bytes := t.bytes ++ bytesOfWord r.data, bad := if r.poison then t.bad ++ [x.2] else t.bad }) t).d.reg a
        = d.reg a := fun xs => by
    induction xs with
    | nil => exact fun _ t ht => ht
    | cons x xs ih =>
      intro hxs t ht
      exact ih (fun y hy => hxs y (List.mem_cons_of_mem _ hy)) _
        ((readBoth_bank_reg h _ _ (hxs x List.mem_cons_self) _ _).trans ht)
  refine hall _ (fun x hx => hb x.1 ?_) _ rfl
  exact List.fst_mem_of_mem_zipIdx hx

theorem Dev.readSlot_reg (d : Dev) (g : MGroup) (s : MSlot) (mem : List Host.Cell) : (d.readSlot g s mem).d.reg a = d.reg a := by
  unfold Dev.readSlot
  split
  · rename_i p
    refine readBytes_bank_reg h d mem (fun x hx pl => ?_) none
    unfold MGroup.slotPlaces at hx
    obtain ⟨n, -, rfl⟩ := List.mem_map.mp hx
    exact ⟨_, rfl⟩
  · rfl

theorem Dev.qAdmit_reg {q : QId} (hq : a ≠ qbase q + 8) (n : Nat) (d : Dev) : (Dev.qAdmit q n d).reg a = d.reg a := by
  induction n generalizing d with
  | zero => rfl
  | succ n ih =>
    unfold Dev.qAdmit
    dsimp only
    split
    · split
      · exact (ih _).trans ((Dev.levelMoved_reg_ne _ h.offHq hq ..).trans rfl)
      · rfl
    · rfl

/-- What a queue of the merge releases shows in the queue's own registers alone. -/
theorem Dev.qRelease_emu_reg (d : Dev) (p : Fin 2) (k : Fin 1024) : (d.qRelease (.emu p k)).reg a = d.reg a := by
  have hq : a ≠ qbase (.emu p k) + 8 := by
    unfold mergeReg at h
    simp only [qbase]
    omega
  unfold Dev.qRelease Dev.qFreed
  split
  · exact (Dev.qAdmit_reg h hq _ _).trans ((Dev.levelMoved_reg_ne _ h.offHq hq ..).trans rfl)
  · rfl

/-- The forwarding of a unit leaves the registers of merge groups. -/
theorem Dev.forwardSlot_reg (d : Dev) (k : Nat) (g : MGroup) (s : MSlot) (mem : List Host.Cell) :
    (d.forwardSlot k g s mem).d.reg a = d.reg a := by
  have hboth : ∀ (e : Dev) (f : Dev → QId → Dev), (∀ e p k, (f e (.emu p k)).reg a = e.reg a) →
      (if h : k < 1024 then [0, 1].foldl (fun d (p : Fin 2) => f d (.emu p ⟨k, h⟩)) e else e).reg a = e.reg a := fun e f hf => by
    split
    · exact (hf _ _ _).trans (hf _ _ _)
    · rfl
  unfold Dev.forwardSlot
  exact (hboth _ _ fun e p k => e.qRelease_emu_reg h p k).trans ((Dev.readSlot_reg h ..).trans
    ((hboth _ _ fun e p k => Dev.reg_of_mask (Dev.qRewind_mask (T := [.queues]) (by decide) e _) (by decide) a).trans
      (Dev.readSlot_reg h ..)))

end

end Sys2Proof.Machine
end

section
/-! PROOF of O32, third part: MERGE_PLAYOUT (R230, R232, R233, R237). -/

namespace Sys2Proof.Machine

open Claim

/-! ### The playout clock (R230, R237) -/

theorem clampI_bounds {lo hi : Int} (h : lo ≤ hi) (x : Int) : lo ≤ clampI lo hi x ∧ clampI lo hi x ≤ hi := by
  unfold clampI
  split_ifs <;> omega

theorem MGroup.slew_bounds (g : MGroup) (now : Nat) : -100000 ≤ g.slew now ∧ g.slew now ≤ 100000 := by
  unfold MGroup.slew
  dsimp only
  split_ifs <;> decide

/-- The clock moves on by one position, whose slot is empty from then on, and by the unit's period, within 200 ppm of the loop
and 100 ppm of a resize. -/
theorem MGroup.tick_moves (g : MGroup) (now period : Nat) : tget {} (g.tick now period).slots g.nextUnit = {}
    ∧ ∃ ppb : Int, -300000 ≤ ppb ∧ ppb ≤ 300000
      ∧ (g.tick now period).nextAt = g.nextAt + period * 1000000000 / (1000000000 + ppb).toNat := by
  refine ⟨tget_tput_self {} g.slots g.nextUnit {}, _, ?_, ?_, rfl⟩
  all_goals
    have hloop := clampI_bounds (lo := -e1Range) (hi := e1Range) (by decide) (Config.loopPpb (Config.loopNext 3 g.behind g.loop))
    have hslew := g.slew_bounds now
    unfold e1Range at hloop ⊢
    omega

/-! ### What is sent (R228, R232, R233) -/

theorem Dev.insertFeed_out (d : Dev) (feeds : Data → Bool) (bs : List Byte) (bad : List Nat) :
    d.host.out <:+ (d.insertFeed feeds bs bad).host.out := by
  unfold Dev.insertFeed
  refine foldl_keeps (fun e : Dev => d.host.out <:+ e.host.out) _ (fun e k he => ?_) _ _ List.suffix_rfl
  split
  · split
    · exact he
    · have hemit : ∀ (b : Bool) (f : Dev) (o : Out), d.host.out <:+ f.host.out → d.host.out <:+ (if b then f.emit o else f).host.out :=
        fun b f o hf => by
          cases b
          · exact hf
          · exact hf.trans (List.suffix_cons o _)
      refine hemit _ _ _ ?_
      split
      · exact he.trans (List.suffix_cons _ _)
      · exact he
  · exact he

/-- A unit is sent, and the insert stages that the output feeds take it. -/
def Dev.sendUnit (d : Dev) (k : Nat) (g : MGroup) (bs : List Byte) (bad : List Nat) (bips : List (Nat × Byte)) : Dev :=
  let e := d.emit (.mergeUnit k bs bad (g.std && bs.isEmpty) (g.ref && !g.std) bips)
  if g.std then e else e.insertFeed (fun w => srcKind w = 2 && srcVal 0 w = k) bs bad

section
variable (d : Dev) (k : Nat) (g : MGroup) (bs : List Byte) (bad : List Nat) (bips : List (Nat × Byte))

theorem Dev.sendUnit_group (j : Nat) :
    ((d.sendUnit k g bs bad bips).group j).map MGroup.unnumbered = (d.group j).map MGroup.unnumbered := by
  unfold Dev.sendUnit
  dsimp only
  split
  · rfl
  · exact Dev.insertFeed_keeps ..

theorem Dev.sendUnit_reg (a : Nat) : (d.sendUnit k g bs bad bips).reg a = d.reg a := by
  unfold Dev.sendUnit
  dsimp only
  split
  · rfl
  · exact Dev.reg_of_mask (Dev.insertFeed_mask (T := [.groups, .host]) (by decide) ..) (by decide) a

theorem Dev.sendUnit_out : .mergeUnit k bs bad (g.std && bs.isEmpty) (g.ref && !g.std) bips ∈ (d.sendUnit k g bs bad bips).host.out := by
  unfold Dev.sendUnit
  dsimp only
  split
  · exact List.mem_cons_self
  · exact (Dev.insertFeed_out ..).subset List.mem_cons_self

end

/-- In standard mode a missing unit goes out as ODU-AIS (R232). -/
theorem Dev.sendUnit_missing (d : Dev) (k : Nat) {g : MGroup} (hstd : g.std = true) :
    (d.sendUnit k g [] [] []).host.out.head? = some (.mergeUnit k [] [] true false []) := by
  unfold Dev.sendUnit
  rw [hstd]
  simp [Dev.emit]

theorem le_zero (n : Nat) : le n 0 = List.replicate n 0 := by
  induction n with
  | zero => rfl
  | succ n ih => rw [le, Nat.zero_div, ih]; rfl

/-- The block for a missing unit of native mode: no data, the unit's number, and a CRC field that is wrong (R232). -/
theorem emptyBlock_says (seq : Nat) : (emptyBlock seq).length = 1024 ∧ (emptyBlock seq).take 1016 = List.replicate 1016 0
    ∧ ((emptyBlock seq).drop 1016).take 4 = be 4 seq
    ∧ crcField (emptyBlock seq) ≠ (crcOf 0 ((emptyBlock seq).take 1020)).toNat := by
  have hdata : (([] : List Byte) ++ le (1016 - ([] : List Byte).length) 0).take 1016 = List.replicate 1016 0 := by
    rw [List.nil_append, List.length_nil, Nat.sub_zero, le_zero]
    exact List.take_of_length_le (by rw [List.length_replicate])
  have hbe : (be 4 seq).length = 4 := by unfold be; rw [List.length_reverse, le_length]
  have hz : (List.replicate 1016 (0 : Byte)).length = 1016 := List.length_replicate
  unfold emptyBlock trailerBlock
  dsimp only
  rw [hdata, if_pos rfl]
  generalize hb : List.replicate 1016 (0 : Byte) ++ be 4 seq = b
  have hlen : b.length = 1020 := by rw [← hb, List.length_append, hz, hbe]
  refine ⟨?_, ?_, ?_, ?_⟩
  · rw [List.length_append, hlen, le_length]
  · rw [← hb, List.append_assoc, List.take_left' hz]
  · rw [← hb, List.append_assoc, List.drop_left' hz, List.take_left' hbe]
  · unfold crcField
    rw [List.take_left' hlen, List.drop_left' hlen, List.take_of_length_le (by rw [le_length]), leNat_le, BitVec.toNat_not]
    have hlt := (crcOf 0 b).isLt
    omega

/-! ### What a slot gives (R24, R49, R232) -/

/-- The bytes of the unit that a slot holds: those of its places in the banks, or those in the staging buffers. -/
def MGroup.unitBytes (g : MGroup) (s : State) (x : MSlot) : List Byte :=
  match x.place with
  | some p => (heldBytes s (g.slotPlaces p x.len)).take x.len
  | none => x.bytes

section
variable {s : State} {x : MSlot} {g : MGroup} (hsound : ∀ p, x.place = some p → Sound s (g.slotPlaces p x.len))
include hsound

theorem Dev.readSlot_sound {d : Dev} (hplane : d.plane = s.dev.plane) (harms : d.arms = s.dev.arms) : d.readSlot g x s.mem =
    { d := d, mem := s.mem, bytes := g.unitBytes s x, bad := if x.place.isSome then [] else x.bad } := by
  unfold Dev.readSlot MGroup.unitBytes
  cases hp : x.place with
  | none => rfl
  | some p =>
    dsimp only
    rw [readBytes_sound hplane harms (fun _ => rfl) (hsound p hp)]
    rfl

theorem Dev.forwardSlot_sound {d : Dev} (hplane : d.plane = s.dev.plane) (harms : d.arms = s.dev.arms) (k : Nat) :
    (d.forwardSlot k g x s.mem).bytes = g.unitBytes s x
      ∧ (d.forwardSlot k g x s.mem).bad = if x.place.isSome then [] else x.bad := by
  have hrewound : ∀ e : Dev, (if h : k < 1024 then [0, 1].foldl (fun d (p : Fin 2) => Dev.qRewind d (.emu p ⟨k, h⟩)) e else e).mask [.queues]
      = e.mask [.queues] := fun e => by
    split
    · rename_i h
      exact (Dev.qRewind_mask (T := [.queues]) (by decide) (e.qRewind (.emu 0 ⟨k, h⟩)) (.emu 1 ⟨k, h⟩)).trans
        (Dev.qRewind_mask (by decide) e _)
    · rfl
  have hread := Dev.readSlot_sound hsound hplane harms
  have hagain := Dev.readSlot_sound hsound (d := if h : k < 1024 then [0, 1].foldl (fun d (p : Fin 2) => Dev.qRewind d (.emu p ⟨k, h⟩)) d
    else d) ((Dev.plane_of_mask (hrewound d) (by decide)).trans hplane) ((Dev.arms_of_mask (hrewound d) (by decide)).trans harms)
  unfold Dev.forwardSlot
  dsimp only
  rw [hread]
  dsimp only
  rw [hagain]
  exact ⟨rfl, rfl⟩

end

theorem Dev.recomputed_congr {d e : Dev} (h : ∀ k, d.point k = e.point k) (o : Nat) (bs : List Byte) (inv : Bool) :
    d.recomputed o bs inv = e.recomputed o bs inv := by
  unfold Dev.recomputed
  simp only [h]

/-! ### The instant of a unit (R230, R232) -/

section
variable (d : Dev) (k : Nat) (g : MGroup) (x : MSlot)

theorem Dev.forwardCount_group (j : Nat) : (d.forwardCount k g x).group j = d.group j :=
  Dev.group_of_mask (Dev.forwardCount_mask (T := [.regs, .host, .jersey]) (by decide) d k g x) (by decide) j

theorem Dev.forwardSlot_parts (mem : List Host.Cell) :
    (d.forwardSlot k g x mem).d.mask [.regs, .plane, .arms, .sliceU, .queues, .psels, .tsu, .cal, .twill, .host, .jersey, .mx, .fresh,
      .reports] = d.mask [.regs, .plane, .arms, .sliceU, .queues, .psels, .tsu, .cal, .twill, .host, .jersey, .mx, .fresh, .reports] :=
  Dev.forwardSlot_mask (by decide) d k g x mem

theorem Dev.forwardSlot_group (mem : List Host.Cell) (j : Nat) : (d.forwardSlot k g x mem).d.group j = d.group j :=
  Dev.group_of_mask (d.forwardSlot_parts k g x mem) (by decide) j

theorem Dev.forwardSlot_point (mem : List Host.Cell) (j : Nat) : (d.forwardSlot k g x mem).d.point j = d.point j :=
  Dev.point_of_mask (d.forwardSlot_parts k g x mem) (by decide) j

end

section
variable {d : Dev} {k : Nat} {g : MGroup} (hg : d.group k = some g) (hp : g.playing = true) (hdue : g.nextAt ≤ 1000 * d.now)
  (mem : List Host.Cell)
include hg hp hdue

/-- The device as the playout clock has moved on. -/
def Dev.ticked (d : Dev) (k : Nat) : Dev := d.updGroup k fun g => g.tick d.now (d.unitPeriod g)

theorem mergePlayout_missing (hx : (tget {} g.slots g.nextUnit).full = false) : mergePlayout k d mem =
    ((((d.ticked k).count (aMg k 0x18) 16 16).raise (aMg k 4) 4 0x1645 (le 2 k)).sendUnit k g
      (if g.std then [] else emptyBlock g.nextUnit) [] [], mem) := by
  unfold mergePlayout
  rw [hg]
  dsimp only
  rw [if_neg (by simp [hp, Nat.not_lt.mpr hdue]), hx]
  rfl

theorem mergePlayout_held (hx : (tget {} g.slots g.nextUnit).full = true) : mergePlayout k d mem =
    let x := tget {} g.slots g.nextUnit
    let t := ((d.ticked k).forwardCount k g x).forwardSlot k g x mem
    (t.d.sendUnit k g t.bytes t.bad (if g.std then t.d.recomputed (if x.west then g.west else g.east) t.bytes (!x.good) else []), t.mem) := by
  unfold mergePlayout
  rw [hg]
  dsimp only
  rw [if_neg (by simp [hp, Nat.not_lt.mpr hdue]), hx]
  rfl

/-- At its instant a unit moves the clock on. -/
theorem mergePlayout_moves : ∃ h, (mergePlayout k d mem).1.group k = some h
    ∧ h.unnumbered = (g.tick d.now (d.unitPeriod g)).unnumbered := by
  have hticked : (d.ticked k).group k = some (g.tick d.now (d.unitPeriod g)) := Dev.updGroup_some hg _
  refine Dev.group_kept (Eq.trans ?_ rfl) hticked
  by_cases hx : (tget {} g.slots g.nextUnit).full = true
  · rw [mergePlayout_held hg hp hdue mem hx, Dev.sendUnit_group, Dev.forwardSlot_group, Dev.forwardCount_group]
  · rw [mergePlayout_missing hg hp hdue mem (Bool.eq_false_iff.mpr hx), Dev.sendUnit_group, Dev.raise_group, Dev.count_group]

end

/-- A unit that is bad is counted, and its event set, whatever the reads of the banks then find. -/
theorem mergePlayout_bad {d : Dev} {k : Nat} (hk : k < 1024) {g : MGroup} (hg : d.group k = some g) (hp : g.playing = true)
    (hdue : g.nextAt ≤ 1000 * d.now) (mem : List Host.Cell) (hx : (tget {} g.slots g.nextUnit).full = true)
    (hbad : (tget {} g.slots g.nextUnit).good = false) : bit ((mergePlayout k d mem).1.reg (aMg k 4)) 3 = true := by
  rw [mergePlayout_held hg hp hdue mem hx]
  dsimp only
  rw [Dev.sendUnit_reg, Dev.forwardSlot_reg (aMg_mergeReg hk (by decide))]
  unfold Dev.forwardCount
  rw [hbad]
  exact Dev.raise_bit (aMg_offHq k 4) _ _ _ (by decide) _

/-- A unit whose words read without an error leaves as its slot holds it. -/
theorem mergePlayout_sends {s : State} {k : Nat} {g : MGroup} (hg : s.dev.group k = some g) (hp : g.playing = true)
    (hdue : g.nextAt ≤ 1000 * s.dev.now) (hx : (tget {} g.slots g.nextUnit).full = true) :
    let x := tget {} g.slots g.nextUnit
    let bytes := g.unitBytes s x
    (∀ p, x.place = some p → Sound s (g.slotPlaces p x.len)) →
      .mergeUnit k bytes (if x.place.isSome then [] else x.bad) (g.std && bytes.isEmpty) (g.ref && !g.std)
        (if g.std then s.dev.recomputed (if x.west then g.west else g.east) bytes (!x.good) else [])
      ∈ (mergePlayout k s.dev s.mem).1.host.out := by
  intro x bytes hsound
  have hmask : ((s.dev.ticked k).forwardCount k g x).mask [.regs, .groups, .host, .jersey] = s.dev.mask [.regs, .groups, .host, .jersey] :=
    (Dev.forwardCount_mask (by decide) _ k g x).trans (Dev.updGroup_mask (by decide) s.dev k _)
  obtain ⟨hbytes, hbad⟩ := Dev.forwardSlot_sound hsound (Dev.plane_of_mask hmask (by decide)) (Dev.arms_of_mask hmask (by decide)) k
  have hpoint : ∀ j, (((s.dev.ticked k).forwardCount k g x).forwardSlot k g x s.mem).d.point j = s.dev.point j := fun j =>
    (Dev.forwardSlot_point ..).trans (Dev.point_of_mask hmask (by decide) j)
  rw [mergePlayout_held hg hp hdue s.mem hx]
  dsimp only
  rw [hbytes, hbad, Dev.recomputed_congr hpoint]
  exact Dev.sendUnit_out ..

end Sys2Proof.Machine

namespace Sys2Proof.Claim

open Machine

theorem mergePlaysOutEachUnitOnce : MergePlaysOutEachUnitOnce := by
  intro s k g hl hg hp hdue
  dsimp only
  refine answers_onMem rfl hl ⟨?_, mergePlayout_sends hg hp hdue, mergePlayout_bad k.isLt hg hp hdue s.mem,
    fun hx hstd => ?_, fun hx => ?_, fun hx hstd => ?_⟩
  · obtain ⟨h, hh, hu⟩ := mergePlayout_moves hg hp hdue s.mem
    obtain ⟨hempty, ppb, hlo, hhi, hat⟩ := g.tick_moves s.dev.now (s.dev.unitPeriod g)
    refine ⟨h, hh, (congrArg MGroup.nextUnit hu :), ?_, ppb, hlo, hhi, (congrArg MGroup.nextAt hu :).trans hat⟩
    rw [(MGroup.unnumbered_eq hu).1]
    exact hempty
  · rw [mergePlayout_missing hg hp hdue s.mem hx, if_pos hstd]
    exact Dev.sendUnit_missing _ k hstd
  · unfold EventSet
    rw [mergePlayout_missing hg hp hdue s.mem hx, Dev.sendUnit_reg]
    exact Dev.raise_bit (aMg_offHq k 4) _ _ _ (by decide) _
  · obtain ⟨hlen, hdata, hnum, hcrc⟩ := emptyBlock_says g.nextUnit
    refine ⟨emptyBlock g.nextUnit, ?_, hlen, hdata, hnum, hcrc⟩
    have hsent := Dev.sendUnit_out ((((s.dev.ticked k).count (aMg k 0x18) 16 16).raise (aMg k 4) 4 0x1645 (le 2 k))) k g
      (emptyBlock g.nextUnit) [] []
    rw [mergePlayout_missing hg hp hdue s.mem hx, if_neg (ne_true_of_eq_false hstd)]
    simpa only [hstd, Bool.false_and, Bool.not_false, Bool.and_true] using hsent

/-- Settles O32: merge groups, their configuration, the arrival of units and the playout. -/
theorem mergeGroupsAlignAndPlay : Obligations.MergeGroupsAlignAndPlay :=
  ⟨mergeGroupsAreConfigured, mergeCopiesAlignAndStore, mergePlaysOutEachUnitOnce⟩

end Sys2Proof.Claim
end
